-- ==== Sys2Proof/Word.lean ====
section
/-!
DEFINITION. Words of the SK192 and their plainest bit-field arithmetic.
-/

namespace Sys2Proof

/-- A 64-bit register value of Mirno-64 (R82). -/
abbrev Word := BitVec 64

/-- A 32-bit register of register space (R11). -/
abbrev Reg32 := BitVec 32

/-- One byte of memory. -/
abbrev Byte := BitVec 8

/-- A 256-bit vector register (R82). -/
abbrev Vec := BitVec 256

/-- The field of `w` bits that starts at bit `lo` of a number. -/
def bits (v lo w : Nat) : Nat := v / 2 ^ lo % 2 ^ w

/-- Bit `i` of a number. -/
def bit (v i : Nat) : Bool := v / 2 ^ i % 2 == 1

/-- A truth value as a number. -/
def b2n (b : Bool) : Nat := if b then 1 else 0

/-- The field of `w` bits at `lo` of a 32-bit register. -/
def getF (r : Reg32) (lo w : Nat) : Nat := bits r.toNat lo w

/-- A 32-bit register with the field of `w` bits at `lo` replaced by `v`. -/
def setF (r : Reg32) (lo w v : Nat) : Reg32 :=
  (r &&& ~~~(BitVec.ofNat 32 ((2 ^ w - 1) * 2 ^ lo))) ||| BitVec.ofNat 32 (v % 2 ^ w * 2 ^ lo)

/-- Bit `i` of a 32-bit register. -/
def getB (r : Reg32) (i : Nat) : Bool := r.getLsbD i

/-- A 32-bit register with bit `i` set to `b`. -/
def setB (r : Reg32) (i : Nat) (b : Bool) : Reg32 := setF r i 1 (b2n b)

/-- A counter of `w` bits that saturates at its largest value. -/
def satAdd (w a b : Nat) : Nat := min (a + b) (2 ^ w - 1)

end Sys2Proof
end

