-- ==== Sys2Proof/Syntax.lean ====
section
/-!
DEFINITION. The places of a package and the commands it takes, one constructor per row of the table.
-/

namespace Sys2Proof

/-- A stop of the package: die, mesh row and mesh column (Table 1-2). -/
structure Stop where
  die : Fin 2
  y : Fin 6
  x : Fin 12
deriving DecidableEq, Repr

/-- A core that executes Mirno-64: a thread of a Drover core, an Outrider by its package-wide number
(R19), or the Waystation pair of a die. -/
inductive Hart where
  | drover (st : Stop) (core thread : Fin 2)
  | outrider (n : Fin 16)
  | waystation (die : Fin 2)
deriving DecidableEq, Repr

/-- Privilege levels (R92). -/
inductive Level where
  | u | s | h | m
deriving DecidableEq, Repr

/-- Worlds (R92). -/
inductive World where
  | normal | secure
deriving DecidableEq, Repr

/-- The attributes that travel with a register access (R68): the initiator's level and world, whether it is an inbound device
request, and the thread that makes it, where one does (its locus travels with the access, R499). -/
structure Init where
  level : Level
  world : World
  device : Bool
  hart : Option Hart
deriving DecidableEq, Repr

/-- The number of an x, v or m register in an instruction word. -/
abbrev Reg := BitVec 5

/-- The number of a predicate register or of a lane mask in an instruction word. -/
abbrev PReg := BitVec 3

/-- The kind of a branch by its encoding (Tables 4-6, 4-7): a J or JL with or without a predicate, a JALR with its registers. -/
inductive BrKind where
  | direct (cond : Bool)
  | indirect (rd rs1 : Reg)
deriving DecidableEq, Repr

/-- A trace left by an instruction that is fetched and later discarded, or by a prefetcher (Table 5-14): a push or a pop of the return stack,
an access to memory or a fetch, the training of a predictor (0 direction, 1 target, 2 dependence), a prefetch by the L1 data or the L2
stream prefetcher for an access at `trigger`. -/
inductive Trace where
  | push (a : Word)
  | pop
  | touch (va : Word) (fetch : Bool)
  | learn (kind : Fin 3) (pc val : Word)
  | prefetch (l2 : Bool) (trigger va : Word)
deriving DecidableEq, Repr

/-- Who sends a request for a line to its home: a Drover core by its number (R280), an Outrider or the Waystation over the Courier
port, a device behind a port, or another package with the tag of its message. -/
inductive Agent where
  | core (n : Fin 192)
  | courier (h : Hart)
  | device (port : Fin 12) (stream : Fin 64)
  | pkg (p : Fin 4) (tag : Nat)
deriving DecidableEq, Repr

/-- One end of a link of a die's mesh, by its stop and direction (0 E, 1 W, 2 N, 3 S), or of a Ford pair, by its die and number. -/
inductive NetLink where
  | mesh (st : Stop) (dir : Fin 4)
  | ford (die : Fin 2) (k : Fin 4)
deriving DecidableEq, Repr

/-- How a line read from HBM decodes (Table 12-2): clean, with one symbol corrected (that of a lane, or of none), uncorrectable, or
with the poison marker. -/
inductive HbmRead where
  | clean
  | corrected (lane : Option (Fin 72))
  | uncorrectable
  | marked
deriving DecidableEq, Repr

/-- A cache array of Table 8-7 in which an error is detected: the L1 instruction cache, a way of the L1 data cache, of the L2 or
of an L3 slice, the tags of an L2 or of a slice with its snoop filter. -/
inductive CacheArr where
  | l1i (st : Stop) (core : Fin 2)
  | l1d (st : Stop) (core : Fin 2) (way : Fin 8)
  | l2 (st : Stop) (core : Fin 2) (way : Fin 16)
  | l3 (st : Stop) (way : Fin 12)
  | l2tag (st : Stop) (core : Fin 2) (way : Fin 16)
  | l3tag (st : Stop) (way : Fin 12)
deriving DecidableEq, Repr


/-- What the board's xSPI flash holds (Table 20-9): the active slot flag (true for B), the certificate chain, the firmware slots, the
copies of the boot manifest and whether the backup is to become the primary, the stored HBM mode (true for interleaved), the
stored CXL windows (port × 4 + window, HOME, EN, base, size, DPA), and the repair log: kind 0 a lane, 1 a row, with its channel
and value. -/
structure Flash where
  slot : Bool
  chain : List Byte
  slotA : List Byte
  slotB : List Byte
  manifest : List Byte
  backup : List Byte
  swap : Bool
  hbm : Bool
  cxl : List (Nat × Nat × Bool × Nat × Nat × Nat)
  repairs : List (Nat × Nat × Nat)
deriving DecidableEq, Repr

/-- A configuration write of the host to the endpoint face: to a doubleword of its header with byte enables, to the power state
(true for D3hot), or to any other register. -/
inductive EpWrite where
  | header (dw : Fin 16) (be : BitVec 4) (v : Reg32)
  | power (d3 : Bool)
  | other
deriving DecidableEq, Repr

/-- How an outbound request of a port completes (Table 19-3A). -/
inductive PortCpl where
  | ok (data : List Byte) (ep : Bool)
  | ur | ca | crs
deriving DecidableEq, Repr

/-- A load that is to be executed again, by its PC, and the traces that the instructions discarded with it have left (R184, R202). -/
structure Reissue where
  pc : Word
  traces : List Trace
deriving DecidableEq, Repr

/-- A difference between the cores of a locked pair (Tables 14-2, 14-7). -/
inductive Mismatch where
  | signature | access | request | coreUe (core : Fin 2)
deriving DecidableEq, Repr

/-- The requester of an inbound request and its traffic class. -/
structure TlpSrc where
  rid : BitVec 16
  tc : Fin 8
deriving DecidableEq, Repr

/-- The commands: one constructor per row of spec/opcode_table.json. -/
inductive Instr where
  /-- ADD (R136). Integer add of two registers into a destination register. -/
  | add (h : Hart) (q : BitVec 4) (rd : Reg) (rs1 : Reg) (rs2 : Reg)
  /-- SUB (R136). Integer subtract of two registers. -/
  | sub (h : Hart) (q : BitVec 4) (rd : Reg) (rs1 : Reg) (rs2 : Reg)
  /-- AND (R136). Bitwise AND of two registers. -/
  | and (h : Hart) (q : BitVec 4) (rd : Reg) (rs1 : Reg) (rs2 : Reg)
  /-- OR (R136). Bitwise OR of two registers. -/
  | or (h : Hart) (q : BitVec 4) (rd : Reg) (rs1 : Reg) (rs2 : Reg)
  /-- XOR (R136). Bitwise XOR of two registers. -/
  | xor (h : Hart) (q : BitVec 4) (rd : Reg) (rs1 : Reg) (rs2 : Reg)
  /-- ANDN (R136). AND of the first register with the complement of the second. -/
  | andn (h : Hart) (q : BitVec 4) (rd : Reg) (rs1 : Reg) (rs2 : Reg)
  /-- SLL (R136). Logical left shift by a register amount. -/
  | sll (h : Hart) (q : BitVec 4) (rd : Reg) (rs1 : Reg) (rs2 : Reg)
  /-- SRL (R136). Logical right shift by a register amount. -/
  | srl (h : Hart) (q : BitVec 4) (rd : Reg) (rs1 : Reg) (rs2 : Reg)
  /-- SRA (R136). Arithmetic right shift by a register amount. -/
  | sra (h : Hart) (q : BitVec 4) (rd : Reg) (rs1 : Reg) (rs2 : Reg)
  /-- ROR (R136). Rotate right by a register amount. -/
  | ror (h : Hart) (q : BitVec 4) (rd : Reg) (rs1 : Reg) (rs2 : Reg)
  /-- SLT (R136). Set destination to 1 when the first register is less, signed. -/
  | slt (h : Hart) (q : BitVec 4) (rd : Reg) (rs1 : Reg) (rs2 : Reg)
  /-- SLTU (R136). Set destination to 1 when the first register is less, unsigned. -/
  | sltu (h : Hart) (q : BitVec 4) (rd : Reg) (rs1 : Reg) (rs2 : Reg)
  /-- MIN (R136). Signed minimum of two registers. -/
  | min (h : Hart) (q : BitVec 4) (rd : Reg) (rs1 : Reg) (rs2 : Reg)
  /-- MAX (R136). Signed maximum of two registers. -/
  | max (h : Hart) (q : BitVec 4) (rd : Reg) (rs1 : Reg) (rs2 : Reg)
  /-- MINU (R136). Unsigned minimum of two registers. -/
  | minu (h : Hart) (q : BitVec 4) (rd : Reg) (rs1 : Reg) (rs2 : Reg)
  /-- MAXU (R136). Unsigned maximum of two registers. -/
  | maxu (h : Hart) (q : BitVec 4) (rd : Reg) (rs1 : Reg) (rs2 : Reg)
  /-- ADDW (R136). 32-bit add with sign extension of the result. -/
  | addw (h : Hart) (q : BitVec 4) (rd : Reg) (rs1 : Reg) (rs2 : Reg)
  /-- SUBW (R136). 32-bit subtract with sign extension of the result. -/
  | subw (h : Hart) (q : BitVec 4) (rd : Reg) (rs1 : Reg) (rs2 : Reg)
  /-- SLLW (R136). 32-bit logical left shift, result sign-extended. -/
  | sllw (h : Hart) (q : BitVec 4) (rd : Reg) (rs1 : Reg) (rs2 : Reg)
  /-- SRLW (R136). 32-bit logical right shift, result sign-extended. -/
  | srlw (h : Hart) (q : BitVec 4) (rd : Reg) (rs1 : Reg) (rs2 : Reg)
  /-- SRAW (R136). 32-bit arithmetic right shift, result sign-extended. -/
  | sraw (h : Hart) (q : BitVec 4) (rd : Reg) (rs1 : Reg) (rs2 : Reg)
  /-- CLZ (R136). Count leading zeros of a register. -/
  | clz (h : Hart) (q : BitVec 4) (rd : Reg) (rs1 : Reg)
  /-- CTZ (R136). Count trailing zeros of a register. -/
  | ctz (h : Hart) (q : BitVec 4) (rd : Reg) (rs1 : Reg)
  /-- POPC (R136). Count the 1 bits of a register. -/
  | popc (h : Hart) (q : BitVec 4) (rd : Reg) (rs1 : Reg)
  /-- REV8 (R136). Reverse the byte order of a register. -/
  | rev8 (h : Hart) (q : BitVec 4) (rd : Reg) (rs1 : Reg)
  /-- ADDI (R134). Add a sign-extended 12-bit immediate. -/
  | addi (h : Hart) (q : BitVec 4) (rd : Reg) (rs1 : Reg) (imm : BitVec 12)
  /-- ANDI (R134). AND with a sign-extended immediate. -/
  | andi (h : Hart) (q : BitVec 4) (rd : Reg) (rs1 : Reg) (imm : BitVec 12)
  /-- ORI (R134). OR with a sign-extended immediate. -/
  | ori (h : Hart) (q : BitVec 4) (rd : Reg) (rs1 : Reg) (imm : BitVec 12)
  /-- XORI (R134). XOR with a sign-extended immediate. -/
  | xori (h : Hart) (q : BitVec 4) (rd : Reg) (rs1 : Reg) (imm : BitVec 12)
  /-- SLLI (R138). Logical left shift by an immediate amount. -/
  | slli (h : Hart) (q : BitVec 4) (rd : Reg) (rs1 : Reg) (shamt : BitVec 6)
  /-- SRLI (R138). Logical right shift by an immediate amount. -/
  | srli (h : Hart) (q : BitVec 4) (rd : Reg) (rs1 : Reg) (shamt : BitVec 6)
  /-- SRAI (R138). Arithmetic right shift by an immediate amount. -/
  | srai (h : Hart) (q : BitVec 4) (rd : Reg) (rs1 : Reg) (shamt : BitVec 6)
  /-- RORI (R138). Rotate right by an immediate amount. -/
  | rori (h : Hart) (q : BitVec 4) (rd : Reg) (rs1 : Reg) (shamt : BitVec 6)
  /-- SLLIW (R138). 32-bit immediate left shift with sign extension. -/
  | slliw (h : Hart) (q : BitVec 4) (rd : Reg) (rs1 : Reg) (shamt : BitVec 6)
  /-- SRLIW (R138). 32-bit immediate logical right shift with sign extension. -/
  | srliw (h : Hart) (q : BitVec 4) (rd : Reg) (rs1 : Reg) (shamt : BitVec 6)
  /-- SRAIW (R138). 32-bit immediate arithmetic right shift with sign extension. -/
  | sraiw (h : Hart) (q : BitVec 4) (rd : Reg) (rs1 : Reg) (shamt : BitVec 6)
  /-- RORIW (R138). 32-bit immediate rotate with sign extension. -/
  | roriw (h : Hart) (q : BitVec 4) (rd : Reg) (rs1 : Reg) (shamt : BitVec 6)
  /-- LUI (R134). Load a sign-extended 17-bit immediate shifted left by 12. -/
  | lui (h : Hart) (q : BitVec 4) (rd : Reg) (imm : BitVec 17)
  /-- AUIPC (R134). Add a shifted immediate to PC into a register. -/
  | auipc (h : Hart) (q : BitVec 4) (rd : Reg) (imm : BitVec 17)
  /-- MUL (R139). Low 64 bits of a product. -/
  | mul (h : Hart) (q : BitVec 4) (rd : Reg) (rs1 : Reg) (rs2 : Reg)
  /-- MULH (R139). High 64 bits of a signed product. -/
  | mulh (h : Hart) (q : BitVec 4) (rd : Reg) (rs1 : Reg) (rs2 : Reg)
  /-- MULHU (R139). High 64 bits of an unsigned product. -/
  | mulhu (h : Hart) (q : BitVec 4) (rd : Reg) (rs1 : Reg) (rs2 : Reg)
  /-- MULW (R139). Sign-extended low 32 bits of a product. -/
  | mulw (h : Hart) (q : BitVec 4) (rd : Reg) (rs1 : Reg) (rs2 : Reg)
  /-- DIV (R139). Signed quotient, never trapping. -/
  | div (h : Hart) (q : BitVec 4) (rd : Reg) (rs1 : Reg) (rs2 : Reg)
  /-- DIVU (R139). Unsigned quotient, never trapping. -/
  | divu (h : Hart) (q : BitVec 4) (rd : Reg) (rs1 : Reg) (rs2 : Reg)
  /-- REM (R139). Signed remainder with the sign of the dividend. -/
  | rem (h : Hart) (q : BitVec 4) (rd : Reg) (rs1 : Reg) (rs2 : Reg)
  /-- REMU (R139). Unsigned remainder. -/
  | remu (h : Hart) (q : BitVec 4) (rd : Reg) (rs1 : Reg) (rs2 : Reg)
  /-- DIVW (R139). Signed 32-bit quotient, sign-extended. -/
  | divw (h : Hart) (q : BitVec 4) (rd : Reg) (rs1 : Reg) (rs2 : Reg)
  /-- DIVUW (R139). Unsigned 32-bit quotient, sign-extended. -/
  | divuw (h : Hart) (q : BitVec 4) (rd : Reg) (rs1 : Reg) (rs2 : Reg)
  /-- J (R175). PC-relative jump, conditional through its predicate. -/
  | j (h : Hart) (q : BitVec 4) (imm : BitVec 22)
  /-- JL (R175). PC-relative jump and link into x1. -/
  | jl (h : Hart) (q : BitVec 4) (imm : BitVec 22)
  /-- JALR (R140). Indirect jump and link through a register, with alignment check. -/
  | jalr (h : Hart) (q : BitVec 4) (rd : Reg) (rs1 : Reg) (imm : BitVec 12)
  /-- CMP (R142). Compare two registers under COND and write a predicate pair. -/
  | cmp (h : Hart) (q : BitVec 4) (pt : PReg) (pf : PReg) (rs1 : Reg) (rs2 : Reg) (cond : BitVec 3)
  /-- CMPI (R142). Compare a register with an immediate and write a predicate pair. -/
  | cmpi (h : Hart) (q : BitVec 4) (pt : PReg) (pf : PReg) (rs1 : Reg) (imm : BitVec 8) (cond : BitVec 3)
  /-- PLOG (R143). Logical operation on predicates. -/
  | plog (h : Hart) (q : BitVec 4) (pd : PReg) (pa : PReg) (pb : PReg) (na : Bool) (nb : Bool) (op : BitVec 2)
  /-- PRD (R143). Read all predicates into an x register. -/
  | prd (h : Hart) (q : BitVec 4) (rd : Reg)
  /-- PWR (R143). Write predicates p1-p7 from an x register. -/
  | pwr (h : Hart) (q : BitVec 4) (rs1 : Reg)
  /-- LB (R144). Load a byte, sign-extended. -/
  | lb (h : Hart) (q : BitVec 4) (rd : Reg) (rs1 : Reg) (imm : BitVec 12)
  /-- LBU (R144). Load a byte, zero-extended. -/
  | lbu (h : Hart) (q : BitVec 4) (rd : Reg) (rs1 : Reg) (imm : BitVec 12)
  /-- LH (R144). Load a halfword, sign-extended. -/
  | lh (h : Hart) (q : BitVec 4) (rd : Reg) (rs1 : Reg) (imm : BitVec 12)
  /-- LHU (R144). Load a halfword, zero-extended. -/
  | lhu (h : Hart) (q : BitVec 4) (rd : Reg) (rs1 : Reg) (imm : BitVec 12)
  /-- LW (R144). Load a word, sign-extended. -/
  | lw (h : Hart) (q : BitVec 4) (rd : Reg) (rs1 : Reg) (imm : BitVec 12)
  /-- LWU (R144). Load a word, zero-extended. -/
  | lwu (h : Hart) (q : BitVec 4) (rd : Reg) (rs1 : Reg) (imm : BitVec 12)
  /-- LD (R144). Load a doubleword. -/
  | ld (h : Hart) (q : BitVec 4) (rd : Reg) (rs1 : Reg) (imm : BitVec 12)
  /-- SB (R144). Store a byte. -/
  | sb (h : Hart) (q : BitVec 4) (rs2 : Reg) (rs1 : Reg) (imm : BitVec 12)
  /-- SH (R144). Store a halfword. -/
  | sh (h : Hart) (q : BitVec 4) (rs2 : Reg) (rs1 : Reg) (imm : BitVec 12)
  /-- SW (R144). Store a word. -/
  | sw (h : Hart) (q : BitVec 4) (rs2 : Reg) (rs1 : Reg) (imm : BitVec 12)
  /-- SD (R144). Store a doubleword. -/
  | sd (h : Hart) (q : BitVec 4) (rs2 : Reg) (rs1 : Reg) (imm : BitVec 12)
  /-- LDA (R216). Load-acquire. -/
  | lda (h : Hart) (q : BitVec 4) (sz : BitVec 2) (rd : Reg) (rs1 : Reg)
  /-- STL (R216). Store-release. -/
  | stl (h : Hart) (q : BitVec 4) (sz : BitVec 2) (rs2 : Reg) (rs1 : Reg)
  /-- LDX (R148). Load and set the exclusive reservation. -/
  | ldx (h : Hart) (q : BitVec 4) (dword : Bool) (aq : Bool) (rl : Bool) (rd : Reg) (rs1 : Reg)
  /-- STX (R149). Store if the reservation holds, clearing it. -/
  | stx (h : Hart) (q : BitVec 4) (dword : Bool) (aq : Bool) (rl : Bool) (rd : Reg) (rs1 : Reg) (rs2 : Reg)
  /-- AMO_SWAP (R217). Atomic swap. -/
  | amoSwap (h : Hart) (q : BitVec 4) (dword : Bool) (aq : Bool) (rl : Bool) (rd : Reg) (rs1 : Reg) (rs2 : Reg)
  /-- AMO_ADD (R217). Atomic add. -/
  | amoAdd (h : Hart) (q : BitVec 4) (dword : Bool) (aq : Bool) (rl : Bool) (rd : Reg) (rs1 : Reg) (rs2 : Reg)
  /-- AMO_AND (R217). Atomic AND. -/
  | amoAnd (h : Hart) (q : BitVec 4) (dword : Bool) (aq : Bool) (rl : Bool) (rd : Reg) (rs1 : Reg) (rs2 : Reg)
  /-- AMO_OR (R217). Atomic OR. -/
  | amoOr (h : Hart) (q : BitVec 4) (dword : Bool) (aq : Bool) (rl : Bool) (rd : Reg) (rs1 : Reg) (rs2 : Reg)
  /-- AMO_XOR (R217). Atomic XOR. -/
  | amoXor (h : Hart) (q : BitVec 4) (dword : Bool) (aq : Bool) (rl : Bool) (rd : Reg) (rs1 : Reg) (rs2 : Reg)
  /-- AMO_SMIN (R217). Atomic signed minimum. -/
  | amoSmin (h : Hart) (q : BitVec 4) (dword : Bool) (aq : Bool) (rl : Bool) (rd : Reg) (rs1 : Reg) (rs2 : Reg)
  /-- AMO_SMAX (R217). Atomic signed maximum. -/
  | amoSmax (h : Hart) (q : BitVec 4) (dword : Bool) (aq : Bool) (rl : Bool) (rd : Reg) (rs1 : Reg) (rs2 : Reg)
  /-- AMO_UMIN (R217). Atomic unsigned minimum. -/
  | amoUmin (h : Hart) (q : BitVec 4) (dword : Bool) (aq : Bool) (rl : Bool) (rd : Reg) (rs1 : Reg) (rs2 : Reg)
  /-- AMO_UMAX (R217). Atomic unsigned maximum. -/
  | amoUmax (h : Hart) (q : BitVec 4) (dword : Bool) (aq : Bool) (rl : Bool) (rd : Reg) (rs1 : Reg) (rs2 : Reg)
  /-- AMO_CAS (R149). Atomic compare-and-swap against x[rd]. -/
  | amoCas (h : Hart) (q : BitVec 4) (dword : Bool) (aq : Bool) (rl : Bool) (rd : Reg) (rs1 : Reg) (rs2 : Reg)
  /-- FENCE (R218). Order every earlier access before every later one. -/
  | fence (h : Hart) (q : BitVec 4)
  /-- FENCE_LD (R218). Order earlier loads before later accesses. -/
  | fenceLd (h : Hart) (q : BitVec 4)
  /-- FENCE_ST (R218). Order earlier stores before later stores. -/
  | fenceSt (h : Hart) (q : BitVec 4)
  /-- FENCE_I (R233). Make later fetches observe ordered stores. -/
  | fenceI (h : Hart) (q : BitVec 4)
  /-- PRF_L1 (R153). Prefetch hint toward L1. -/
  | prfL1 (h : Hart) (q : BitVec 4) (rs1 : Reg) (imm : BitVec 12)
  /-- PRF_L2 (R153). Prefetch hint toward L2. -/
  | prfL2 (h : Hart) (q : BitVec 4) (rs1 : Reg) (imm : BitVec 12)
  /-- PRF_W (R153). Prefetch hint with ownership. -/
  | prfW (h : Hart) (q : BitVec 4) (rs1 : Reg) (imm : BitVec 12)
  /-- PRF_NT (R153). Prefetch hint as a streaming fill. -/
  | prfNt (h : Hart) (q : BitVec 4) (rs1 : Reg) (imm : BitVec 12)
  /-- VADD (R154). Element-wise vector add. -/
  | vadd (h : Hart) (q : BitVec 4) (vd : Reg) (vs1 : Reg) (vs2 : Reg) (msk : PReg) (z : Bool) (esz : BitVec 2)
  /-- VSUB (R154). Element-wise vector subtract. -/
  | vsub (h : Hart) (q : BitVec 4) (vd : Reg) (vs1 : Reg) (vs2 : Reg) (msk : PReg) (z : Bool) (esz : BitVec 2)
  /-- VMUL (R154). Low bits of element-wise product. -/
  | vmul (h : Hart) (q : BitVec 4) (vd : Reg) (vs1 : Reg) (vs2 : Reg) (msk : PReg) (z : Bool) (esz : BitVec 2)
  /-- VMULHU (R154). High bits of unsigned element-wise product. -/
  | vmulhu (h : Hart) (q : BitVec 4) (vd : Reg) (vs1 : Reg) (vs2 : Reg) (msk : PReg) (z : Bool) (esz : BitVec 2)
  /-- VAND (R154). Element-wise AND. -/
  | vand (h : Hart) (q : BitVec 4) (vd : Reg) (vs1 : Reg) (vs2 : Reg) (msk : PReg) (z : Bool) (esz : BitVec 2)
  /-- VOR (R154). Element-wise OR. -/
  | vor (h : Hart) (q : BitVec 4) (vd : Reg) (vs1 : Reg) (vs2 : Reg) (msk : PReg) (z : Bool) (esz : BitVec 2)
  /-- VXOR (R154). Element-wise XOR. -/
  | vxor (h : Hart) (q : BitVec 4) (vd : Reg) (vs1 : Reg) (vs2 : Reg) (msk : PReg) (z : Bool) (esz : BitVec 2)
  /-- VANDN (R154). Element-wise AND with complement. -/
  | vandn (h : Hart) (q : BitVec 4) (vd : Reg) (vs1 : Reg) (vs2 : Reg) (msk : PReg) (z : Bool) (esz : BitVec 2)
  /-- VSLL (R154). Element-wise left shift. -/
  | vsll (h : Hart) (q : BitVec 4) (vd : Reg) (vs1 : Reg) (vs2 : Reg) (msk : PReg) (z : Bool) (esz : BitVec 2)
  /-- VSRL (R154). Element-wise logical right shift. -/
  | vsrl (h : Hart) (q : BitVec 4) (vd : Reg) (vs1 : Reg) (vs2 : Reg) (msk : PReg) (z : Bool) (esz : BitVec 2)
  /-- VSRA (R154). Element-wise arithmetic right shift. -/
  | vsra (h : Hart) (q : BitVec 4) (vd : Reg) (vs1 : Reg) (vs2 : Reg) (msk : PReg) (z : Bool) (esz : BitVec 2)
  /-- VCMPEQ (R156). Element-wise equality compare into a mask. -/
  | vcmpeq (h : Hart) (q : BitVec 4) (vd : Reg) (vs1 : Reg) (vs2 : Reg) (msk : PReg) (z : Bool) (esz : BitVec 2)
  /-- VMIN (R154). Element-wise signed minimum. -/
  | vmin (h : Hart) (q : BitVec 4) (vd : Reg) (vs1 : Reg) (vs2 : Reg) (msk : PReg) (z : Bool) (esz : BitVec 2)
  /-- VMAX (R154). Element-wise signed maximum. -/
  | vmax (h : Hart) (q : BitVec 4) (vd : Reg) (vs1 : Reg) (vs2 : Reg) (msk : PReg) (z : Bool) (esz : BitVec 2)
  /-- VCMPLT (R156). Element-wise signed less-than into a mask. -/
  | vcmplt (h : Hart) (q : BitVec 4) (vd : Reg) (vs1 : Reg) (vs2 : Reg) (msk : PReg) (z : Bool) (esz : BitVec 2)
  /-- VFCMPLT (R157). Element-wise floating-point less-than into a mask. -/
  | vfcmplt (h : Hart) (q : BitVec 4) (vd : Reg) (vs1 : Reg) (vs2 : Reg) (msk : PReg) (z : Bool) (esz : BitVec 2)
  /-- VFADD (R157). Floating-point add. -/
  | vfadd (h : Hart) (q : BitVec 4) (vd : Reg) (vs1 : Reg) (vs2 : Reg) (msk : PReg) (z : Bool) (esz : BitVec 2)
  /-- VFSUB (R157). Floating-point subtract. -/
  | vfsub (h : Hart) (q : BitVec 4) (vd : Reg) (vs1 : Reg) (vs2 : Reg) (msk : PReg) (z : Bool) (esz : BitVec 2)
  /-- VFMUL (R157). Floating-point multiply. -/
  | vfmul (h : Hart) (q : BitVec 4) (vd : Reg) (vs1 : Reg) (vs2 : Reg) (msk : PReg) (z : Bool) (esz : BitVec 2)
  /-- VFDIV (R157). Floating-point divide. -/
  | vfdiv (h : Hart) (q : BitVec 4) (vd : Reg) (vs1 : Reg) (vs2 : Reg) (msk : PReg) (z : Bool) (esz : BitVec 2)
  /-- VFMA (R157). Fused multiply-add. -/
  | vfma (h : Hart) (q : BitVec 4) (vd : Reg) (vs1 : Reg) (vs2 : Reg) (msk : PReg) (z : Bool) (esz : BitVec 2)
  /-- VFNMA (R157). Fused negated multiply-add. -/
  | vfnma (h : Hart) (q : BitVec 4) (vd : Reg) (vs1 : Reg) (vs2 : Reg) (msk : PReg) (z : Bool) (esz : BitVec 2)
  /-- VFMIN (R157). Floating-point minimum. -/
  | vfmin (h : Hart) (q : BitVec 4) (vd : Reg) (vs1 : Reg) (vs2 : Reg) (msk : PReg) (z : Bool) (esz : BitVec 2)
  /-- VFMAX (R157). Floating-point maximum. -/
  | vfmax (h : Hart) (q : BitVec 4) (vd : Reg) (vs1 : Reg) (vs2 : Reg) (msk : PReg) (z : Bool) (esz : BitVec 2)
  /-- VBCAST (R154). Broadcast an x register into active elements. -/
  | vbcast (h : Hart) (q : BitVec 4) (vd : Reg) (vs1 : Reg) (msk : PReg) (z : Bool) (esz : BitVec 2)
  /-- VCVT_IF (R157). Convert signed integer elements to floating point. -/
  | vcvtIf (h : Hart) (q : BitVec 4) (vd : Reg) (vs1 : Reg) (msk : PReg) (z : Bool) (esz : BitVec 2)
  /-- VCVT_FI (R157). Convert floating-point elements to signed integers. -/
  | vcvtFi (h : Hart) (q : BitVec 4) (vd : Reg) (vs1 : Reg) (msk : PReg) (z : Bool) (esz : BitVec 2)
  /-- VFSQRT (R157). Floating-point square root. -/
  | vfsqrt (h : Hart) (q : BitVec 4) (vd : Reg) (vs1 : Reg) (msk : PReg) (z : Bool) (esz : BitVec 2)
  /-- VMOVV (R154). Copy active elements from another vector. -/
  | vmovv (h : Hart) (q : BitVec 4) (vd : Reg) (vs1 : Reg) (msk : PReg) (z : Bool) (esz : BitVec 2)
  /-- VEXT (R154). Extract one element into an x register. -/
  | vext (h : Hart) (q : BitVec 4) (rd : Reg) (vs1 : Reg) (idx : BitVec 5) (esz : BitVec 2)
  /-- VLD_STRIDED (R158). Strided or contiguous vector load. -/
  | vldStrided (h : Hart) (q : BitVec 4) (vd : Reg) (rs1 : Reg) (rs2 : Reg) (msk : PReg) (z : Bool) (esz : BitVec 2)
  /-- VLD_GATHER (R158). Vector gather load. -/
  | vldGather (h : Hart) (q : BitVec 4) (vd : Reg) (rs1 : Reg) (rs2 : Reg) (msk : PReg) (z : Bool) (esz : BitVec 2)
  /-- VST_STRIDED (R158). Strided or contiguous vector store. -/
  | vstStrided (h : Hart) (q : BitVec 4) (vd : Reg) (rs1 : Reg) (rs2 : Reg) (msk : PReg) (z : Bool) (esz : BitVec 2)
  /-- VST_SCATTER (R159). Vector scatter store. -/
  | vstScatter (h : Hart) (q : BitVec 4) (vd : Reg) (rs1 : Reg) (rs2 : Reg) (msk : PReg) (z : Bool) (esz : BitVec 2)
  /-- KAND (R135). Mask AND. -/
  | kand (h : Hart) (q : BitVec 4) (rd : Reg) (rs1 : Reg) (rs2 : Reg)
  /-- KOR (R135). Mask OR. -/
  | kor (h : Hart) (q : BitVec 4) (rd : Reg) (rs1 : Reg) (rs2 : Reg)
  /-- KXOR (R135). Mask XOR. -/
  | kxor (h : Hart) (q : BitVec 4) (rd : Reg) (rs1 : Reg) (rs2 : Reg)
  /-- KANDN (R135). Mask AND with complement. -/
  | kandn (h : Hart) (q : BitVec 4) (rd : Reg) (rs1 : Reg) (rs2 : Reg)
  /-- KMOV_X (R135). Move an x register into a mask. -/
  | kmovX (h : Hart) (q : BitVec 4) (rd : Reg) (rs1 : Reg)
  /-- KMOV_R (R135). Move a mask into an x register. -/
  | kmovR (h : Hart) (q : BitVec 4) (rd : Reg) (rs1 : Reg)
  /-- WB_PUT (R161). Put a message into a waybill queue. -/
  | wbPut (h : Hart) (q : BitVec 4) (sz : BitVec 2) (rd : Reg) (rs1 : Reg) (rs2 : Reg)
  /-- WB_GET (R161). Get a message from a waybill queue. -/
  | wbGet (h : Hart) (q : BitVec 4) (sz : BitVec 2) (rd : Reg) (rs1 : Reg) (rs2 : Reg)
  /-- WB_POLL (R161). Read a waybill queue's occupancy. -/
  | wbPoll (h : Hart) (q : BitVec 4) (rd : Reg) (rs1 : Reg)
  /-- MFS (R97). Copy a state register into an x register. -/
  | mfs (h : Hart) (q : BitVec 4) (rd : Reg) (sn : BitVec 12)
  /-- MTS (R97). Write a state register, pending if Sync. -/
  | mts (h : Hart) (q : BitVec 4) (sn : BitVec 12) (rs1 : Reg)
  /-- CALL_S (R107). System call to S. -/
  | callS (h : Hart) (q : BitVec 4) (imm : BitVec 16)
  /-- CALL_H (R107). System call to H. -/
  | callH (h : Hart) (q : BitVec 4) (imm : BitVec 16)
  /-- CALL_M (R107). System call to M. -/
  | callM (h : Hart) (q : BitVec 4) (imm : BitVec 16)
  /-- BREAK (R106). Raise the BREAK exception. -/
  | brk (h : Hart) (q : BitVec 4) (imm : BitVec 16)
  /-- SYNC_ST (R104). Apply pending Sync writes and refetch. -/
  | syncSt (h : Hart) (q : BitVec 4)
  /-- XRET (R112). Return from an exception to the saved level and world. -/
  | xret (h : Hart) (q : BitVec 4)
  /-- WAIT (R126). Suspend the thread until a wake condition holds. -/
  | wait (h : Hart) (q : BitVec 4) (rd : Reg) (rs1 : Reg)
  /-- BP_FLUSH (R199). Discard predictor entries of the current context. -/
  | bpFlush (h : Hart) (q : BitVec 4)
  /-- BP_BAR (R200). Prediction barrier. -/
  | bpBar (h : Hart) (q : BitVec 4)
  /-- SEAL_ROT (R201). Replace the core's seal key. -/
  | sealRot (h : Hart) (q : BitVec 4)
  /-- TLB_INV_VA (R257). Invalidate translations of an address. -/
  | tlbInvVa (h : Hart) (q : BitVec 4) (rs1 : Reg) (rs2 : Reg)
  /-- TLB_INV_AS (R257). Invalidate translations of an address space. -/
  | tlbInvAs (h : Hart) (q : BitVec 4) (rs1 : Reg)
  /-- TLB_INV_VM (R257). Invalidate translations of a virtual machine. -/
  | tlbInvVm (h : Hart) (q : BitVec 4) (rs1 : Reg)
  /-- TLB_INV_TBL (R257). Invalidate leaves and table pointers of an address. -/
  | tlbInvTbl (h : Hart) (q : BitVec 4) (rs1 : Reg) (rs2 : Reg)
  /-- TLB_SYNC (R261). Wait for earlier invalidations to complete node-wide. -/
  | tlbSync (h : Hart) (q : BitVec 4)
  /-- TAKE_INTERRUPT (R116). A deliverable interrupt is taken at an instruction boundary. -/
  | takeInterrupt (h : Hart)
  /-- CORE_UE (R447). An uncorrectable core logic fault raises machine checks at its threads. -/
  | coreUe (st : Stop) (c : Fin 2) (t0 : Bool) (t1 : Bool) (restartable : Bool)
  /-- WAIT_WAKE (R126). A wake condition ends a WAIT, which retires with its reason bits. -/
  | waitWake (h : Hart)
  /-- TIMER_SOURCE_PENDING (R122). The timebase reaches a level's timer compare. -/
  | timerSourcePending (h : Hart) (l : Level)
  /-- BRANCH_RESOLVE (R172). A branch resolves and, if mispredicted, the thread is redirected. -/
  | branchResolve (h : Hart) (pc : Word) (b : BrKind) (dir tkn : Bool) (target : Word) (traces : List Trace)
  /-- MEMORY_ORDER_VIOLATION (R184). A store address resolves against a younger performed load. -/
  | memoryOrderViolation (h : Hart) (load : Reissue)
  /-- COMMITTED_STORE_DRAIN (R182). A committed store is written to the L1 data cache. -/
  | committedStoreDrain (h : Hart)
  /-- TSTART_GO (R207). GO to a thread-start register starts a stopped thread. -/
  | tstartGo (i : Init) (st : Stop) (c : Fin 2) (t : Fin 2)
  /-- TSTART_STOP (R207). STOP to a thread-start register stops a thread or cancels a pending start. -/
  | tstartStop (i : Init) (st : Stop) (c : Fin 2) (t : Fin 2)
  /-- PENDING_START_DONE (R207). A pending start completes and the thread reads RUNNING. -/
  | pendingStartDone (h : Hart)
  /-- THREAD_STOP_DONE (R207). A stopping thread reaches its boundary and reads STOPPED. -/
  | threadStopDone (h : Hart)
  /-- CORE_BLOCK_EN (R208). Write of a core block's EN enables or stops the core's threads. -/
  | coreBlockEn (i : Init) (st : Stop) (c : Fin 2) (on : Bool)
  /-- HALT_T (R209). Debug halt request for a thread. -/
  | haltT (i : Init) (st : Stop) (c : Fin 2) (t : Fin 2)
  /-- RESUME_T (R209). Debug resume request for a thread. -/
  | resumeT (i : Init) (st : Stop) (c : Fin 2) (t : Fin 2)
  /-- HALT_TAKES_EFFECT (R209). A held halt request takes effect at a permitted boundary. -/
  | haltTakesEffect (h : Hart)
  /-- DBG_READ (R554). Copy a halted thread's register into DBG_RDATA. -/
  | dbgRead (i : Init) (st : Stop) (c : Fin 2)
  /-- DBG_WRITE (R554). Copy DBG_RDATA into a halted thread's register. -/
  | dbgWrite (i : Init) (st : Stop) (c : Fin 2)
  /-- COMMIT (R78). Apply all staging copies of a block together. -/
  | commit (i : Init) (st : Stop) (blk : Fin 16)
  /-- DISCARD (R81). Reload all staging copies from live values. -/
  | discard (i : Init) (st : Stop) (blk : Fin 16)
  /-- COMMIT_DONE (R80). A commit completes and held staging writes enter the copies. -/
  | commitDone (st : Stop) (blk : Fin 16)
  /-- REGISTER_WRITE (R67). Write to a register with no behaviour of its own. -/
  | registerWrite (i : Init) (addr : Reg32) (v : Reg32) (lost : Bool)
  /-- ACCESS_TIMEOUT (R64). A register access reaches its deadline and completes with TIMEOUT. -/
  | accessTimeout (n : Nat) (performed : Bool)
  /-- PPS_EDGE (R124). An accepted PPS edge captures the timebase and disciplines it. -/
  | ppsEdge (falling : Bool)
  /-- PPS_LOST (R124). No PPS edge arrives for 1.5 s after one was accepted. -/
  | ppsLost
  /-- TB_LOAD (R125). TB_SET is loaded into the timebase at the chosen load tick. -/
  | tbLoad
  /-- TBSYNC (R333). Control flit carrying a timebase value and load time. -/
  | tbsync (port : Fin 12) (value : Word) (at_ : Word)
  /-- IDENT (R335). Control flit exchanging package number and die identifier. -/
  | ident (port : Fin 12) (pkg : Fin 4) (die : Word)
  /-- DEADNOTE (R336). Control flit announcing the sender's dead partners. -/
  | deadnote (port : Fin 12) (map : BitVec 4)
  /-- TLB_INV_BROADCAST (R259). A core or IOTU receives an invalidation broadcast and acknowledges it. -/
  | tlbInvBroadcast (place : Nat) (id : Nat)
  /-- IOTU_INV (R271). Invalidate cached IOTU context entries of a requester or all. -/
  | iotuInv (i : Init) (n : Fin 12) (rid : BitVec 16) (all : Bool)
  /-- IOTU_INV_DONE (R271). An IOTU invalidation completes and INV_BUSY clears. -/
  | iotuInvDone (port : Fin 12)
  /-- IOTU_FLT_POP (R270). Remove the oldest IOTU fault record. -/
  | iotuFltPop (i : Init) (n : Fin 12)
  /-- READ_SHARED (R282). Request for a shared copy of a line at its home. -/
  | readShared (a : Agent) (line : Nat) (nt : Bool) (demand : Bool)
  /-- READ_OWN (R279). Request for an exclusive modified copy of a line. -/
  | readOwn (a : Agent) (line : Nat) (nt : Bool)
  /-- UPGRADE (R279). Request to upgrade a held S or O line to M. -/
  | upgrade (a : Agent) (line : Nat)
  /-- READ_ONCE (R279). Uncached read performed at the home. -/
  | readOnce (a : Agent) (line : Nat)
  /-- WRITE_ONCE (R279). Uncached write performed at the home. -/
  | writeOnce (a : Agent) (pa : Nat) (data : List Byte)
  /-- WRITE_BACK (R279). Eviction of a dirty line to its home. -/
  | writeBack (a : Agent) (line : Nat) (data : List Byte)
  /-- NOTIFY (R279). Eviction notice of a clean line to its home. -/
  | notify (a : Agent) (line : Nat)
  /-- SNP_SHARED (R282). Snoop asking a holder to share a line. -/
  | snpShared (a : Agent) (line : Nat)
  /-- SNP_INV (R282). Snoop invalidating a holder's line. -/
  | snpInv (a : Agent) (line : Nat)
  /-- EVICTION_WRITE_ISSUE (R291). An eviction-buffer write is issued when a credit is available. -/
  | evictionWriteIssue (st : Stop) (line : Nat)
  /-- MEMORY_ACK (R292). Memory acknowledges an eviction write and frees the entry. -/
  | memoryAck (st : Stop) (line : Nat)
  /-- PACK_FILL (R290). Prefetch data returns into the pack buffer. -/
  | packFill (st : Stop) (line : Nat)
  /-- PACK_EXPIRE (R290). A pack entry's timer reaches zero and it is freed. -/
  | packExpire (st : Stop) (line : Nat)
  /-- STREAM_EXPIRE (R288). A stream with no miss for 4,096 cycles is dropped. -/
  | streamExpire (st : Stop) (page : Nat)
  /-- CACHE_ARRAY_ERROR (R293). An error is detected in a cache array and handled. -/
  | cacheArrayError (arr : CacheArr) (addr : Nat) (ue : Bool) (dirty : Bool)
  /-- WAY_DISABLE_DONE (R295). A disabling way is empty and is marked failed. -/
  | wayDisableDone (st : Stop) (place : Nat)
  /-- ERR_WINDOW_EXPIRE (R294). The error window elapses and WIN counts clear. -/
  | errWindowExpire (st : Stop) (n : Fin 3)
  /-- L2_WAY_REENABLE (R296). Re-enable disabled L2 ways. -/
  | l2WayReenable (i : Init) (st : Stop) (c : Fin 2) (ways : BitVec 16)
  /-- L1D_WAY_REENABLE (R296). Re-enable disabled L1 data ways. -/
  | l1dWayReenable (i : Init) (st : Stop) (c : Fin 2) (ways : BitVec 8)
  /-- L3_WAY_REENABLE (R296). Re-enable disabled L3 ways. -/
  | l3WayReenable (i : Init) (st : Stop) (ways : BitVec 12)
  /-- L2_EN (R299). Write of EN of an L2 block enables or drains the core's caches. -/
  | l2En (i : Init) (st : Stop) (c : Fin 2) (on : Bool)
  /-- L2_DRAIN_DONE (R299). The core's caches are empty and DRAINING clears. -/
  | l2DrainDone (st : Stop) (c : Fin 2)
  /-- L3_EN (R300). Write of EN of the slice block enables allocation or enters drain state. -/
  | l3En (i : Init) (st : Stop) (on : Bool)
  /-- L3_DRAIN_DONE (R300). The slice's cache ways and eviction buffer are empty. -/
  | l3DrainDone (st : Stop)
  /-- L3_DEPOT (R306). Write converting ways to or from depot SRAM. -/
  | l3Depot (i : Init) (st : Stop) (ways : BitVec 8)
  /-- CONVERT_DONE (R307). A depot conversion completes and CONVERTING clears. -/
  | convertDone (st : Stop)
  /-- RETRY (R311). Retry response to a request at a retiring slice. -/
  | retry (op : Nat) (a : Agent) (line : Nat)
  /-- RETRY_REISSUE (R311). A retried request is reissued 64 slice cycles later. -/
  | retryReissue (op : Nat) (a : Agent) (line : Nat)
  /-- FLIT_CRC_FAIL (R319). A mesh or Ford flit fails CRC and a replay is requested. -/
  | flitCrcFail (l : NetLink) (good : Bool)
  /-- ROUTE_DROP (R322). An escape packet meets a dead link and is discarded. -/
  | routeDrop (st : Stop)
  /-- NO_ROUTE (R322). NOROUTE response to a discarded request. -/
  | noRoute (h : Hart) (pa : Nat)
  /-- REVIVE (R323). Revive a dead mesh link. -/
  | revive (i : Init) (st : Stop) (mask : BitVec 4)
  /-- FORD_REVIVE (R325). Revive a dead Ford pair. -/
  | fordRevive (i : Init) (die : Fin 2) (k : Fin 4)
  /-- CARAVAN_TRAINING_TIMEOUT (R327). A Caravan training state exceeds its time limit. -/
  | caravanTrainingTimeout (port : Fin 12)
  /-- CARAVAN_FLIT (R330). A Caravan flit is received, corrected, checked and acknowledged. -/
  | caravanFlit (port : Fin 12) (fec : Nat) (crc : Bool) (idle : Bool) (seq : BitVec 10) (ackv : Bool) (ackseq : BitVec 10) (crvc : Fin 8) (crn : BitVec 9)
  /-- NAK (R330). A NAK makes the sender replay after ACKSEQ. -/
  | nak (port : Fin 12) (ackseq : BitVec 10)
  /-- ACK_TIMER (R330). The 1 µs acknowledgement interval elapses. -/
  | ackTimer (port : Fin 12)
  /-- CV_RETRAIN (R341). Command a Caravan link to retrain. -/
  | cvRetrain (i : Init) (n : Fin 12)
  /-- CV_REVIVE (R341). Command a dead Caravan link to train. -/
  | cvRevive (i : Init) (n : Fin 12)
  /-- NODE_FORMATION_TIMEOUT (R335). Package 0 stops waiting for partner links after 2 s. -/
  | nodeFormationTimeout
  /-- DEV_READ (R332). Caravan device-class read message. -/
  | devRead (p : Fin 4) (tag : Nat) (w : World) (l : Level) (pa : Nat) (sz : Fin 4)
  /-- DEV_WRITE (R332). Caravan device-class write message. -/
  | devWrite (p : Fin 4) (tag : Nat) (w : World) (l : Level) (pa : Nat) (data : List Byte)
  /-- ATOMIC (R332). Caravan atomic message. -/
  | atomic (p : Fin 4) (tag : Nat) (w : World) (l : Level) (pa : Nat) (dword : Bool) (op : Fin 10) (x : Word) (e : Word)
  /-- WAYBILL (R339). Caravan waybill operation message. -/
  | waybill (p : Fin 4) (tag : Nat) (w : World) (op : Fin 3) (sz : Fin 3) (pa : Nat) (classC : Bool) (source : Nat) (msg : List Byte) (poison : Bool)
  /-- TLB_INVAL (R339). Caravan invalidation broadcast message. -/
  | tlbInval (p : Fin 4) (tag : Nat) (scope : Fin 4) (regime : Fin 3) (vmid : BitVec 16) (asid : BitVec 16) (addr : Word) (l5 : Bool)
  /-- INTERRUPT (R488). Interrupt message setting a private or shared source. -/
  | interrupt (w : World) (locus : BitVec 16) (shared : Bool) (src : BitVec 12)
  /-- DATA (R332). Data response with granted state. -/
  | data (p : Fin 4) (tag : Nat) (grant : Fin 4) (data : List Byte) (poison : BitVec 8) (ns : Nat)
  /-- ACK (R332). Acknowledgement response. -/
  | ack (p : Fin 4) (tag : Nat)
  /-- SNP_DATA (R338). Snoop answer carrying data. -/
  | snpData (p : Fin 4) (tag : Nat) (kept : Fin 4) (data : List Byte)
  /-- SNP_ACK (R338). Snoop answer without data. -/
  | snpAck (p : Fin 4) (tag : Nat) (kept : Fin 4)
  /-- DEV_RESP (R332). Device-class response with code and data. -/
  | devResp (p : Fin 4) (tag : Nat) (code : Fin 5) (pcie : Fin 4) (data : List Byte)
  /-- INV_ACK (R339). Acknowledgement of an invalidation broadcast. -/
  | invAck (p : Fin 4) (tag : Nat)
  /-- WBQ_CFG (R349). Write of a queue's configuration, emptying it. -/
  | wbqCfg (i : Init) (st : Stop) (q : Fin 128) (r : Fin 5) (v : Reg32)
  /-- QUEUE_ENABLE (R350). Write of EN = 1 enabling a waybill queue. -/
  | queueEnable (i : Init) (st : Stop) (q : Fin 128) (irq : Bool)
  /-- QUEUE_DISABLE (R351). Write of EN = 0 disabling a waybill queue. -/
  | queueDisable (i : Init) (st : Stop) (q : Fin 128) (irq : Bool)
  /-- QUEUE_BUSY_CLEAR (R351). Accepted operations of a disabled queue finish and BUSY clears. -/
  | queueBusyClear (st : Stop) (q : Fin 128)
  /-- CNT_CLR (R348). Clear the four queue counters together. -/
  | cntClr (i : Init) (st : Stop) (q : Fin 128)
  /-- WBQ_ARM (R360). Arm the queue interrupt. -/
  | wbqArm (i : Init) (st : Stop) (q : Fin 128)
  /-- DOORBELL_POST (R354). An inbound posted write to a doorbell posts a message. -/
  | doorbellPost (port : Fin 12) (rid : BitVec 16) (tc : Fin 8) (addr : Word) (data : List Byte) (ep : Bool)
  /-- WBQ_STATE_PARITY_ERROR (R357). Parity error in the queue's duplicated state; both bad sets BROKEN. -/
  | wbqStateParityError (st : Stop) (q : Fin 128) (both : Bool)
  /-- WAYBILL_CONFIRM (R362). A provisional waybill operation of a locked pair is confirmed. -/
  | waybillConfirm (h : Hart)
  /-- WAYBILL_CANCEL (R362). A provisional waybill operation is cancelled. -/
  | waybillCancel (h : Hart)
  /-- OR_CTL_GO (R401). Start a stopped Outrider. -/
  | orCtlGo (i : Init) (n : Fin 16)
  /-- OR_CTL_STOP (R401). Stop an Outrider at its next group boundary. -/
  | orCtlStop (i : Init) (n : Fin 16)
  /-- OR_BENNAK (R391). Write of the Bennak mode bit of a stopped Outrider. -/
  | orBennak (i : Init) (n : Fin 16) (on : Bool)
  /-- PRELOAD (R388). Fill a line into the Outrider line cache. -/
  | preload (i : Init) (n : Fin 16)
  /-- PRELOAD_LOCK (R388). Fill and lock a line in the line cache. -/
  | preloadLock (i : Init) (n : Fin 16)
  /-- UNLOCK_LINE (R388). Unlock a line of the line cache. -/
  | unlockLine (i : Init) (n : Fin 16)
  /-- UNLOCK_ALL (R388). Unlock every line-cache entry. -/
  | unlockAll (i : Init) (n : Fin 16)
  /-- FLUSH (R388). Invalidate every unlocked line-cache entry. -/
  | flush (i : Init) (n : Fin 16)
  /-- LC_CMD_DONE (R388). A background line-cache command completes. -/
  | lcCmdDone (n : Fin 16)
  /-- OUTRIDER_WAYBILL_RESULT (R163). A non-blocking waybill result arrives and frees x[RD]. -/
  | outriderWaybillResult (h : Hart) (tag : Nat)
  /-- OUTRIDER_FAULT (R402). An internal Outrider fault stops that Outrider. -/
  | outriderFault (n : Fin 16)
  /-- CP_CLR (R404). Clear the Courier port counters. -/
  | cpClr (i : Init) (die : Fin 2)
  /-- TCM_WIN_WRITE (R406). Write to a TCM through the secure window. -/
  | tcmWinWrite (i : Init) (die : Fin 2) (word : BitVec 12) (v : Reg32)
  /-- PANIC_AGE (R397). A Courier read reaches PANIC_AGE outstanding. -/
  | panicAge (n : Fin 16) (k : Fin 6)
  /-- PANIC_RAISE (R398). Panic signal reaches a stack's memory stops. -/
  | panicRaise (die : Fin 2) (k : Fin 6)
  /-- PANIC_WITHDRAW (R397). Panic withdrawal reaches a stack's memory stops. -/
  | panicWithdraw (die : Fin 2) (k : Fin 6)
  /-- REFRESH_DUE (R419). A tREFI interval elapses and a refresh becomes owed. -/
  | refreshDue (st : Stop) (c : Fin 2) (pc : Fin 2) (bank : Fin 48)
  /-- IDLE_TIMER_EXPIRE (R414). A bank's idle timer expires and the row is precharged. -/
  | idleTimerExpire (st : Stop) (c : Fin 2) (pc : Fin 2) (bank : Fin 48)
  /-- HBM_READ_RETURN (R426). A line read from HBM is decoded and handled by outcome. -/
  | hbmReadReturn (pa : Nat) (out : HbmRead)
  /-- COMMAND_PARITY_FAILURE (R426). A command-parity failure repeats the command sequence. -/
  | commandParityFailure (st : Stop) (c : Fin 2)
  /-- STACK_TEMP_READ (R420). The stack temperature is read every 1 ms. -/
  | stackTempRead (k : Fin 6) (deg : BitVec 8)
  /-- STK_TRAIN (R422). Stack control command TRAIN. -/
  | stkTrain (i : Init) (k : Fin 6)
  /-- STK_RESTORE (R423). Stack control command RESTORE of saved training. -/
  | stkRestore (i : Init) (k : Fin 6)
  /-- STK_RETRAIN_STACK (R424). Stack control command retraining a stack. -/
  | stkRetrainStack (i : Init) (k : Fin 6)
  /-- STK_RETRAIN_CHANNEL (R424). Stack control command retraining a channel. -/
  | stkRetrainChannel (i : Init) (k : Fin 6) (ch : Fin 8)
  /-- STK_SAVE (R423). Stack control command saving trained values. -/
  | stkSave (i : Init) (k : Fin 6)
  /-- W1500_SHIFT (R422). Shift data through the IEEE 1500 port. -/
  | w1500Shift (i : Init) (k : Fin 6)
  /-- PHY_REMAP (R429). Remap an HBM lane to its spare. -/
  | phyRemap (i : Init) (st : Stop) (c : Fin 2) (pc : Fin 2) (lane : BitVec 7)
  /-- REMAP_DONE (R429). A lane remap finishes and traffic resumes. -/
  | remapDone (st : Stop) (c : Fin 2)
  /-- SPARE_CMD (R430). Spare the HBM row named in SPARE_ROW. -/
  | spareCmd (i : Init) (st : Stop) (c : Fin 2)
  /-- SPARING_DONE (R430). A row sparing completes and the next queued one starts. -/
  | sparingDone (st : Stop) (c : Fin 2)
  /-- SCRUB_READ (R431). The patrol scrubber reads its next line. -/
  | scrubRead (pa : Nat) (out : HbmRead)
  /-- CXL_WINDOW_EN (R433). Write enabling a CXL window. -/
  | cxlWindowEn (i : Init) (n : Fin 12) (w : Fin 4) (on : Bool) (home : BitVec 3)
  /-- CXL_TIMEOUT (R435). A CXL request has no completion within CXL_TMO. -/
  | cxlTimeout (pa : Nat) (write : Bool)
  /-- CXL_LINK_DOWN (R435). A CXL link goes down. -/
  | cxlLinkDown (port : Fin 12)
  /-- ERR_CAP_ACK (R453). Acknowledge and release a handling path. -/
  | errCapAck (i : Init) (st : Stop) (p : Fin 4)
  /-- LEDGER_RECORD (R454). A capture or merge report reaches the die supervisor's ledger. -/
  | ledgerRecord (die : Fin 2) (band : Fin 6)
  /-- REPORT_LOST (R455). A band queue regains room after discarding reports. -/
  | reportLost (die : Fin 2) (band : Fin 6)
  /-- LEDGER_CLR (R463). Clear a die's ledger records and lost counts. -/
  | ledgerClr (i : Init) (die : Fin 2)
  /-- INJ_ARM (R460). Arm an error-injection engine. -/
  | injArm (i : Init) (st : Stop) (v : BitVec 16)
  /-- INJ_TRIGGER (R461). An armed engine injects on an access trigger. -/
  | injTrigger (st : Stop) (addr : Nat)
  /-- INJ_TIME (R461). The timebase reaches INJ_TIME and an error is injected. -/
  | injTime (st : Stop)
  /-- TXN_TIMEOUT (R449). A miss-queue or slot timer expires after 100 ms. -/
  | txnTimeout (st : Stop) (core : Option (Fin 2)) (kind : Fin 3) (a : Agent) (line : Nat)
  /-- LOCK (R465). LOCK_CMD switching a quiesced tile to locked mode. -/
  | lock (i : Init) (st : Stop)
  /-- UNLOCK (R465). LOCK_CMD switching a quiesced tile to unlocked mode. -/
  | unlock (i : Init) (st : Stop)
  /-- RETEST (R480). LOCK_CMD self-testing a failed core. -/
  | retest (i : Init) (st : Stop)
  /-- LOCK_CMD_DONE (R465). A mode command completes and CMD_BUSY clears. -/
  | lockCmdDone (st : Stop) (p0 : Bool) (p1 : Bool)
  /-- GROUP_COMPARE (R467). A retire group's signatures are compared and the cairn advances. -/
  | groupCompare (h : Hart) (check : BitVec 64) (bad : Option Mismatch)
  /-- REQUEST_COMPARE (R467). A request leaving a locked pair is compared and issued once. -/
  | requestCompare (h : Hart) (good : Bool)
  /-- RECOVERY_RESUME (R475). Recovery acknowledgements arrive; state is reloaded and threads resume. -/
  | recoveryResume (st : Stop) (ns : Nat)
  /-- SELFTEST_DONE (R479). Self-test results decide locked, degraded or halted. -/
  | selftestDone (st : Stop) (p0 : Bool) (p1 : Bool) (ns : Nat)
  /-- CAIRN_SCRUB (R474). Background scrub of cairn words every 100 µs. -/
  | cairnScrub (h : Hart) (err : Option Bool)
  /-- LOCK_CLR (R483). Clear split-lock counters. -/
  | lockClr (i : Init) (st : Stop)
  /-- INT_SET (R488). Set a private source by number. -/
  | intSet (i : Init) (h : Hart) (n : BitVec 6)
  /-- INT_CLR (R488). Clear a latched private source. -/
  | intClr (i : Init) (h : Hart) (n : BitVec 6)
  /-- INT_ACK (R499). Read acknowledging the best candidate and pushing its priority. -/
  | intAck (i : Init) (h : Hart) (w : World)
  /-- INT_EOI (R500). End of interrupt popping the running-priority stack. -/
  | intEoi (i : Init) (h : Hart) (w : World)
  /-- SH_SET (R493). Set a shared interrupt source by index. -/
  | shSet (i : Init) (k : Fin 14) (n : BitVec 12)
  /-- SH_CLR (R647). Clear a shared source's pending bit. -/
  | shClr (i : Init) (k : Fin 14) (n : BitVec 12)
  /-- SH_CFG_WRITE (R496). Configuration write withdrawing a forwarded shared source first. -/
  | shCfgWrite (i : Init) (k : Fin 14) (n : BitVec 9) (tgt : Bool) (v : Reg32)
  /-- SHARED_OFFER (R495). A shared source is offered to its target's shared list. -/
  | sharedOffer (k : Fin 14) (i : Nat)
  /-- INT_STATE_UE (R504). Uncorrectable error in interrupt state sets sources pending. -/
  | intStateUe (h : Hart) (stack : Option World) (table : Option (Fin 14))
  /-- BAND_FREQUENCY_CHANGE (R510). A band switches voltage and PLL to a new frequency. -/
  | bandFrequencyChange (die : Fin 2) (b : Fin 6)
  /-- POWER_ESTIMATE (R509). Every 100 µs package power is estimated and grants adjusted. -/
  | powerEstimate (watts : BitVec 10)
  /-- DSEQ_POWER_UP (R514). Domain sequencer command to power a domain up. -/
  | dseqPowerUp (i : Init) (st : Stop) (d : Fin 16)
  /-- DSEQ_POWER_DOWN (R512). Domain sequencer command to take a domain to OFF. -/
  | dseqPowerDown (i : Init) (st : Stop) (d : Fin 16) (ap : Fin 7)
  /-- DOMAIN_AUTO_ENTRY (R512). A domain idle for IDLE_US enters OFF automatically. -/
  | domainAutoEntry (st : Stop) (d : Fin 3) (ap : Fin 7)
  /-- WAKE_EVENT (R513). A wake event unwinds an entry or starts power-up. -/
  | wakeEvent (st : Stop) (d : Fin 16) (kind : Fin 7) (pkgKind : Fin 8) (arg : BitVec 16)
  /-- POWER_UP_DONE (R514). A domain reaches ON and held accesses proceed. -/
  | powerUpDone (st : Stop) (d : Fin 16)
  /-- SEQ_TIMEOUT (R515). A sequencer fails to reach a state within 1 ms. -/
  | seqTimeout (st : Stop) (d : Fin 16)
  /-- BAND_GATE (R517). BAND_CMD gating a band's rail. -/
  | bandGate (i : Init) (die : Fin 2) (b : Fin 6)
  /-- BAND_POWER_UP (R517). BAND_CMD powering up every domain of a band. -/
  | bandPowerUp (i : Init) (die : Fin 2) (b : Fin 6)
  /-- CAMP_ENTRY_DONE (R522). Package entry completes and latched events start exit. -/
  | campEntryDone
  /-- CAMP_EXIT (R524). The package leaves Camp for Run. -/
  | campExit
  /-- DORMANT_EXIT (R525). The package leaves Dormant by repeating boot steps 4-8. -/
  | dormantExit (clock : Bool)
  /-- WATCH_TICK (R527). Each 1 ms tick samples due Camp watch entries. -/
  | watchTick (die : Fin 2) (i3c : List (Option (BitVec 32))) (pins : BitVec 8) (reach : Nat)
  /-- WCH_CTL (R535). Write of a watch entry's control register. -/
  | wchCtl (i : Init) (die : Fin 2) (n : Fin 32) (v : Reg32)
  /-- THERMAL_SAMPLE (R530). Temperature sensors are read and bands throttled. -/
  | thermalSample (st : Stop) (deg : BitVec 8)
  /-- RAIL_DROOP (R531). A rail falls below 92% and clocks halve. -/
  | railDroop (die : Fin 2) (b : Fin 6)
  /-- RAIL_UV (R531). A rail undervoltage resets the rail's domains. -/
  | railUv (die : Fin 2) (b : Fin 6)
  /-- WA_LOCK (R545). Set WORLD_LOCK, freezing the world assignment. -/
  | waLock (i : Init)
  /-- WA_ASSIGN (R545). Assign a domain or depot way to a world. -/
  | waAssign (i : Init) (v : BitVec 22)
  /-- DBG_REVOKE (R550). Revoke the debug grant. -/
  | dbgRevoke (i : Init)
  /-- PM_FREEZE (R575). Command freezing or unfreezing all counters at time T. -/
  | pmFreeze (i : Init) (on : Bool)
  /-- PM_SNAP (R575). Command snapshotting all counters at time T. -/
  | pmSnap (i : Init)
  /-- PM_ACTION (R576). At tick T each stop freezes or snapshots. -/
  | pmAction
  /-- OUTBOUND_COMPLETION (R586). A completion ends an outbound non-posted request. -/
  | outboundCompletion (port : Fin 12) (tag : Nat) (cpl : PortCpl)
  /-- COMPLETION_TIMEOUT (R586). An outbound request has no completion in 50 µs. -/
  | completionTimeout (port : Fin 12) (tag : Nat)
  /-- PCIE_LINK_DOWN (R587). A port link goes down and outstanding writes are dropped. -/
  | pcieLinkDown (port : Fin 12) (lost : Nat)
  /-- INBOUND_MEMORY_READ (R588). Inbound read translated and handled by target. -/
  | inboundMemoryRead (port : Fin 12) (src : TlpSrc) (addr : Word) (len : BitVec 13)
  /-- INBOUND_MEMORY_WRITE (R588). Inbound write translated and handled by target. -/
  | inboundMemoryWrite (port : Fin 12) (src : TlpSrc) (ro : Bool) (addr : Word) (data : List Byte) (ep : Bool)
  /-- INBOUND_ATOMICOP (R588). Inbound AtomicOp handled by target. -/
  | inboundAtomicop (port : Fin 12) (src : TlpSrc) (addr : Word) (len : Fin 17) (op : Fin 3) (data : List Byte)
  /-- TRANSLATION_REQUEST (R270). An ATS Translation Request completes as UR. -/
  | translationRequest (port : Fin 12) (rid : BitVec 16) (addr : Word)
  /-- ERR_COR (R592). Received correctable error message raises PCIE_CE. -/
  | errCor (port : Fin 12) (aer : Fin 32) (rid : BitVec 16)
  /-- ERR_NONFATAL (R592). Received non-fatal error message raises PCIE_UE. -/
  | errNonfatal (port : Fin 12) (aer : Fin 32) (rid : BitVec 16)
  /-- ERR_FATAL (R592). Received fatal error message raises PCIE_UE. -/
  | errFatal (port : Fin 12) (aer : Fin 32) (rid : BitVec 16)
  /-- PME (R592). Received PME message sets the port event source. -/
  | pme (port : Fin 12)
  /-- SECONDARY_BUS_RESET (R592). Link recovery by secondary bus reset through the root port. -/
  | secondaryBusReset (port : Fin 12) (lost : Nat)
  /-- EP_DOORBELL (R596). Host write to an endpoint doorbell posts to a queue. -/
  | epDoorbell (q : Fin 64) (data : List Byte) (ep : Bool)
  /-- PERST_N (R602). PERST_N assertion resets the endpoint link and mailboxes. -/
  | perstN
  /-- HOT_RESET (R602). Hot reset of the endpoint link. -/
  | hotReset
  /-- FLR (R603). Function-level reset of the endpoint face. -/
  | flr
  /-- FLR_DONE (R603). An FLR completes within 10 ms. -/
  | flrDone
  /-- MB_SUBMIT (R613). Submit a mailbox request buffer. -/
  | mbSubmit (m : Fin 16) (ack : Bool)
  /-- MB_ACK (R613). Release a mailbox response. -/
  | mbAck (m : Fin 16)
  /-- COMMAND_COMPLETE (R613). The Waystation writes a response and the mailbox reads DONE. -/
  | commandComplete (m : Fin 28)
  /-- GET_INFO (R619). Return firmware version, capabilities and identity. -/
  | getInfo (m : Fin 28)
  /-- GET_TOPOLOGY (R619). Return topology, tiles, modes and ports. -/
  | getTopology (m : Fin 28)
  /-- GET_NUMA (R619). Return NUMA node records. -/
  | getNuma (m : Fin 28)
  /-- GET_STATUS (R619). Return package state, power and wake data. -/
  | getStatus (m : Fin 28)
  /-- SET_POWER_LIMIT (R3). Set the design power limit. -/
  | setPowerLimit (m : Fin 28)
  /-- ENTER_CAMP (R521). Enter Camp after the grace time. -/
  | enterCamp (m : Fin 28) (late : Bool)
  /-- ENTER_DORMANT (R521). Enter Dormant after the grace time. -/
  | enterDormant (m : Fin 28) (late : Bool)
  /-- SET_WATCH (R619). Enable or disable a die's Camp watch. -/
  | setWatch (m : Fin 28)
  /-- RESET (R640). Warm, cold or per-domain reset command. -/
  | reset (m : Fin 28) (go : Bool) (straps : BitVec 6)
  /-- RETIRE_SLICE (R311). Retire an L3 slice. -/
  | retireSlice (m : Fin 28)
  /-- REENABLE_WAYS (R296). Re-enable disabled cache ways. -/
  | reenableWays (m : Fin 28)
  /-- REVIVE_LINK (R323). Revive a dead mesh, Ford or Caravan link. -/
  | reviveLink (m : Fin 28)
  /-- LANE_REMAP (R429). Remap an HBM lane. -/
  | laneRemap (m : Fin 28)
  /-- SPARE_ROW (R430). Spare an HBM row. -/
  | spareRow (m : Fin 28)
  /-- RETRAIN (R424). Retrain an HBM stack or channel. -/
  | retrain (m : Fin 28)
  /-- LEDGER_READ (R458). Read ledger records. -/
  | ledgerRead (m : Fin 28)
  /-- LEDGER_CLEAR (R463). Clear a die's ledger. -/
  | ledgerClear (m : Fin 28)
  /-- SET_TILE_MODE (R465). Lock, unlock or retest a tile. -/
  | setTileMode (m : Fin 28)
  /-- GET_TILE_LOCK (R619). Return a tile's split-lock status. -/
  | getTileLock (m : Fin 28)
  /-- SET_HBM_MODE (R46). Store the HBM mapping mode for the next reset. -/
  | setHbmMode (m : Fin 28)
  /-- SET_CXL_WINDOW (R621). Store a CXL window for the next cold reset. -/
  | setCxlWindow (m : Fin 28)
  /-- GET_CXL_WINDOWS (R619). Return CXL window records. -/
  | getCxlWindows (m : Fin 28)
  /-- OR_LOAD (R621). Load, verify and optionally start an Outrider image. -/
  | orLoad (m : Fin 28)
  /-- OR_STOP (R619). Stop an Outrider by command. -/
  | orStop (m : Fin 28)
  /-- OR_STATUS (R619). Return an Outrider's state and counts. -/
  | orStatus (m : Fin 28)
  /-- FWU_BEGIN (R622). Begin a firmware or manifest update. -/
  | fwuBegin (m : Fin 28)
  /-- FWU_DATA (R622). Write update data at the next offset. -/
  | fwuData (m : Fin 28)
  /-- FWU_VERIFY (R622). Verify the staged image. -/
  | fwuVerify (m : Fin 28)
  /-- FWU_ACTIVATE (R622). Activate the staged image now or at cold reset. -/
  | fwuActivate (m : Fin 28)
  /-- FWU_ABORT (R622). Abort the update sequence. -/
  | fwuAbort (m : Fin 28)
  /-- FWU_COMMIT_SVN (R622). Raise the fused firmware SVN. -/
  | fwuCommitSvn (m : Fin 28)
  /-- SPDM (R623). Carry an SPDM request over a mailbox. -/
  | spdm (m : Fin 16)
  /-- DEBUG_TOKEN (R549). Present a debug token for a grant. -/
  | debugToken (m : Fin 28)
  /-- DEBUG_REVOKE (R550). Revoke the debug grant by command. -/
  | debugRevoke (m : Fin 28)
  /-- GET_SENSORS (R619). Return temperatures and power. -/
  | getSensors (m : Fin 28)
  /-- GET_HEALTH (R619). Return health counts. -/
  | getHealth (m : Fin 28)
  /-- GET_EVENTS (R619). Return event records from the Waystation ring. -/
  | getEvents (m : Fin 28)
  /-- GET_VERSION (R556). SPDM version request. -/
  | getVersion (c : Fin 17) (peer : BitVec 8) (q : List Byte)
  /-- GET_CAPABILITIES (R556). SPDM capabilities request. -/
  | getCapabilities (c : Fin 17) (peer : BitVec 8) (q : List Byte)
  /-- NEGOTIATE_ALGORITHMS (R556). SPDM algorithm negotiation. -/
  | negotiateAlgorithms (c : Fin 17) (peer : BitVec 8) (q : List Byte)
  /-- GET_DIGESTS (R556). SPDM certificate digests request. -/
  | getDigests (c : Fin 17) (peer : BitVec 8) (q : List Byte)
  /-- GET_CERTIFICATE (R556). SPDM certificate chain request. -/
  | getCertificate (c : Fin 17) (peer : BitVec 8) (q : List Byte)
  /-- CHALLENGE (R556). SPDM challenge proving the identity key. -/
  | challenge (c : Fin 17) (peer : BitVec 8) (q : List Byte)
  /-- GET_MEASUREMENTS (R556). SPDM signed measurements request. -/
  | getMeasurements (c : Fin 17) (peer : BitVec 8) (q : List Byte)
  /-- SET_ENDPOINT_ID (R625). MCTP control assigning the endpoint ID. -/
  | setEndpointId (peer : BitVec 8) (eid : BitVec 8)
  /-- GET_ENDPOINT_ID (R625). MCTP control returning the endpoint ID. -/
  | getEndpointId (peer : BitVec 8)
  /-- GET_MCTP_VERSION_SUPPORT (R625). MCTP control returning supported versions. -/
  | getMctpVersionSupport (peer : BitVec 8)
  /-- GET_MESSAGE_TYPE_SUPPORT (R625). MCTP control returning supported message types. -/
  | getMessageTypeSupport (peer : BitVec 8)
  /-- PLDM_MONITORING (R625). PLDM sensor read on the sideband. -/
  | pldmMonitoring (peer : BitVec 8) (sensor : BitVec 16)
  /-- PLDM_FIRMWARE_UPDATE (R625). PLDM firmware update through the update steps. -/
  | pldmFirmwareUpdate (peer : BitVec 8) (step : Fin 5) (a : BitVec 32) (b : BitVec 32) (data : List Byte)
  /-- PLDM_BASE (R625). PLDM base discovery message. -/
  | pldmBase (peer : BitVec 8)
  /-- VENDOR_DEFINED (R626). Vendor-defined sideband message placed in mailbox 12 or 13. -/
  | vendorDefined (owner : Bool) (peer : BitVec 8) (msg : List Byte)
  /-- ENTDAA (R625). I3C dynamic address assignment. -/
  | entdaa (addr : BitVec 7)
  /-- SETDASA (R625). I3C dynamic address set from the static address. -/
  | setdasa (static : BitVec 7) (addr : BitVec 7)
  /-- LOCKSTEP_HALT (R606). A lockstep difference halts the active pair. -/
  | lockstepHalt (d : Fin 2)
  /-- WATCHDOG_EXPIRE (R608). The Waystation watchdog count reaches zero. -/
  | watchdogExpire (d : Fin 2)
  /-- WS_WDOG_KICK (R608). Restart the watchdog count. -/
  | wsWdogKick
  /-- STANDBY_SELFTEST_DONE (R609). The failed pair finishes self-test and becomes standby or failed. -/
  | standbySelftestDone (pass : Bool)
  /-- PWRGOOD_RISE (R643). PWRGOOD rises, latching straps and starting cold boot. -/
  | pwrgoodRise (straps : BitVec 6) (flash : Option Flash)
  /-- RAIL_IN_REGULATION (R637). A rail group is up and the next group is enabled. -/
  | railInRegulation
  /-- RAIL_ALLOWANCE_EXPIRE (R638). A sensed rail misses the rail allowance and the sequence stops. -/
  | railAllowanceExpire
  /-- RAIL_RETRY (R638). The rail sequence is retried after 1 s. -/
  | railRetry
  /-- PWRGOOD_FALL (R637). PWRGOOD falls and every VR_EN drops. -/
  | pwrgoodFall
  /-- RESET_N (R640). RESET_N held low starts a warm reset. -/
  | resetN
  /-- CARAVAN_WARM_RESET (R640). A member's warm reset propagates over Caravan links. -/
  | caravanWarmReset (port : Fin 12)
  /-- VDD_STBY_LOSS (R640). Loss of VDD_STBY is a cold reset. -/
  | vddStbyLoss
  /-- PORT_LINK_UP (R600). A PCIe, CXL or endpoint-face link becomes active and PORT_STAT.LINK_UP or EP_STAT.LINK_UP sets, sending Assert_INTA if the wire is 1. -/
  | portLinkUp (port : Fin 12) (rate : Fin 8) (width : Fin 32) (mem : Bool)
  /-- CARAVAN_LINK_ACTIVE (R327). A Caravan link finishes training or RETRAIN and enters ACTIVE at the widest working width. -/
  | caravanLinkActive (port : Fin 12) (lanes : BitVec 16)
  /-- LINK_RETRAINED (R323). A revived mesh link or Ford pair finishes retraining and returns to use, or stays dead with DEAD_EVT set again. -/
  | linkRetrained (l : NetLink) (ok : Bool)
  /-- STACK_TRAINING_DONE (R424). An HBM stack or channel training, restore or retraining finishes and STK_STAT leaves training or retraining for ready or failed. -/
  | stackTrainingDone (k : Fin 6) (ch : Option (Fin 8)) (ok : Bool) (serial : Word)
  /-- W1500_SHIFT_DONE (R422). An IEEE 1500 shift completes, the shift buffer is exchanged and W1500_STAT.BUSY clears. -/
  | w1500ShiftDone (k : Fin 6) (out : BitVec 1024)
  /-- CXL_MEM_COMPLETION (R434). A CXL.mem MemRd or MemWr completion arrives from the device and ends the home slice's outstanding read or write. -/
  | cxlMemCompletion (pa : Nat) (write : Bool) (poison : Bool)
  /-- CONFIGURATION_WRITE (R600). A host configuration write to the endpoint face changes its header, such as Interrupt Disable, Bus Master Enable or the power state. -/
  | configurationWrite (w : EpWrite)
  /-- PERST_N_DEASSERT (R602). PERST_N rises and the endpoint link is released to train. -/
  | perstNDeassert
  /-- RAIL_RECOVERS (R531). A drooping rail returns above 92% of nominal and the stop's clocks return to full frequency. -/
  | railRecovers (die : Fin 2) (b : Fin 6)
  /-- CRYSTAL_CONFIRMED (R643). The 32.768 kHz crystal is confirmed and the always-on PLL locks, completing boot step 1. -/
  | crystalConfirmed
  /-- REFCLK25_STABLE (R525). REFCLK25 returns after it stopped in Dormant, and Dormant exit proceeds. -/
  | refclk25Stable
  /-- REGULATOR_REPORT (R510). The board regulator reports over AVSBus that the requested band voltage is reached, and the PLL switch follows. -/
  | regulatorReport (die : Fin 2) (b : Fin 6)
deriving DecidableEq, Repr

end Sys2Proof
end

