-- ==== Sys2Proof/Machine/RegTable.lean ====
section
/-!
DEFINITION. The register tables of the spec as data: for each block the offset of every register, and
for each of its fields the place, the access code (Table 0-9), the reset value and the legal range (R74).
-/

namespace Sys2Proof.Machine

/-- Access codes of a field (Table 0-9). -/
inductive Acc where
  | ro | rw | w1c | wo | rwe | rwl
deriving DecidableEq, Repr

/-- What values of a field are legal (R74): any, a range to which a value is clamped, or a range outside
of which a fallback code takes effect. -/
inductive Legal where
  | any
  | range (lo hi : Nat)
  | fallback (lo hi code : Nat)
deriving DecidableEq, Repr

/-- One field of a register. -/
structure Fld where
  lo : Nat
  w : Nat
  acc : Acc
  rst : Nat
  legal : Legal := .any
deriving DecidableEq, Repr

/-- One register, or `cnt` registers `stride` bytes apart: its first offset, whether it is guarded (R12), whether
only secure initiators write it, whether it is staged (R77), and its fields. -/
structure RegDef where
  off : Nat
  stride : Nat := 4
  cnt : Nat := 1
  guarded : Bool := false
  secureOnly : Bool := false
  staged : Bool := false
  flds : List Fld
deriving DecidableEq, Repr


/-! Tables 1-7, 9-2: block 0 of every stop (stop agent and router). -/

def STOP_ID : Nat := 0x0
def PKG_TOPO : Nat := 0x4
def PKG_MEMMAP : Nat := 0x8
def RT_LINK_STAT : Nat := 0x100
def RT_LINK_CMD : Nat := 0x104
def RT_ERR : Nat := 0x110
def RT_DROP : Nat := 0x120
def RT_DETOUR : Nat := 0x124

/-- Tables 1-7, 9-2: block 0 of every stop (stop agent and router). -/
def any0Regs : List RegDef :=
  [
    { off := STOP_ID, flds := [⟨0, 32, .ro, 0, .any⟩] },
    { off := PKG_TOPO, flds := [⟨0, 32, .ro, 0, .any⟩] },
    { off := PKG_MEMMAP, flds := [⟨0, 32, .ro, 0, .any⟩] },
    { off := RT_LINK_STAT, flds := [⟨0, 8, .ro, 0, .any⟩, ⟨8, 4, .w1c, 0, .any⟩] },
    { off := RT_LINK_CMD, flds := [⟨0, 4, .wo, 0, .any⟩] },
    { off := RT_ERR, stride := 4, cnt := 4, flds := [⟨0, 16, .ro, 0, .any⟩, ⟨16, 16, .ro, 0, .any⟩] },
    { off := RT_DROP, flds := [⟨0, 32, .ro, 0, .any⟩] },
    { off := RT_DETOUR, flds := [⟨0, 32, .ro, 0, .any⟩] } ]

/-! Table 14-8: split-lock registers of a tile's block 0. -/

def LOCK_CMD : Nat := 0x200
def LOCK_STAT : Nat := 0x204
def LOCK_CNT : Nat := 0x208
def LOCK_REC_MAX : Nat := 0x20C
def LOCK_LAST : Nat := 0x210
def LOCK_LAST_TS_LO : Nat := 0x214
def LOCK_LAST_TS_HI : Nat := 0x218
def LOCK_CAIRN_ERR : Nat := 0x21C
def LOCK_CLR : Nat := 0x220

/-- Table 14-8: split-lock registers of a tile's block 0. -/
def lock0Regs : List RegDef :=
  [
    { off := LOCK_CMD, flds := [⟨0, 3, .wo, 0, .fallback 0 3 0⟩] },
    { off := LOCK_STAT, flds := [⟨0, 2, .ro, 0, .any⟩, ⟨2, 1, .ro, 0, .any⟩, ⟨3, 1, .ro, 0, .any⟩, ⟨4, 1, .ro, 0, .any⟩, ⟨5, 1, .ro, 0, .any⟩, ⟨6, 1, .w1c, 0, .any⟩, ⟨7, 1, .w1c, 0, .any⟩, ⟨8, 1, .w1c, 0, .any⟩, ⟨9, 2, .ro, 0, .any⟩] },
    { off := LOCK_CNT, flds := [⟨0, 24, .ro, 0, .any⟩, ⟨24, 8, .ro, 0, .any⟩] },
    { off := LOCK_REC_MAX, flds := [⟨0, 20, .ro, 0, .any⟩] },
    { off := LOCK_LAST, flds := [⟨0, 32, .ro, 0, .any⟩] },
    { off := LOCK_LAST_TS_LO, flds := [⟨0, 32, .ro, 0, .any⟩] },
    { off := LOCK_LAST_TS_HI, flds := [⟨0, 32, .ro, 0, .any⟩] },
    { off := LOCK_CAIRN_ERR, flds := [⟨0, 16, .ro, 0, .any⟩, ⟨16, 16, .ro, 0, .any⟩] },
    { off := LOCK_CLR, flds := [⟨0, 1, .wo, 0, .any⟩] } ]

/-! Tables 5-15 to 5-20, 17-8: core block of a tile (blocks 1 and 2). -/

def CORE_CAP : Nat := 0x0
def CORE_CTL : Nat := 0x4
def CORE_STAT : Nat := 0x8
def TSTART_LO : Nat := 0x10
def TSTART_HI : Nat := 0x14
def TSTART_CTL : Nat := 0x18
def TSTATE : Nat := 0x1C
def DBG_CTL : Nat := 0x40
def DBG_STAT : Nat := 0x44
def DBG_RSEL : Nat := 0x48
def DBG_RDATA_LO : Nat := 0x4C
def DBG_RDATA_HI : Nat := 0x50
def DBG_RCMD : Nat := 0x54

/-- Tables 5-15 to 5-20, 17-8: core block of a tile (blocks 1 and 2). -/
def coreRegs : List RegDef :=
  [
    { off := CORE_CAP, flds := [⟨0, 32, .ro, 0x3240, .any⟩] },
    { off := CORE_CTL, flds := [⟨0, 1, .rwe, 1, .any⟩, ⟨1, 1, .rwe, 1, .any⟩, ⟨2, 1, .rwe, 1, .any⟩, ⟨3, 1, .rwe, 1, .any⟩, ⟨4, 2, .rwe, 0, .fallback 0 2 0⟩] },
    { off := CORE_STAT, flds := [⟨0, 4, .ro, 0, .any⟩] },
    { off := TSTART_LO, stride := 16, cnt := 2, secureOnly := true, flds := [⟨2, 30, .rw, 0, .any⟩] },
    { off := TSTART_HI, stride := 16, cnt := 2, secureOnly := true, flds := [⟨0, 32, .rw, 0, .any⟩] },
    { off := TSTART_CTL, stride := 16, cnt := 2, secureOnly := true, flds := [⟨0, 2, .wo, 0, .any⟩] },
    { off := TSTATE, stride := 16, cnt := 2, flds := [⟨0, 2, .ro, 0, .any⟩, ⟨2, 1, .w1c, 0, .any⟩] },
    { off := DBG_CTL, flds := [⟨0, 4, .wo, 0, .any⟩] },
    { off := DBG_STAT, flds := [⟨0, 4, .ro, 0, .any⟩, ⟨4, 1, .w1c, 0, .any⟩, ⟨5, 1, .w1c, 0, .any⟩] },
    { off := DBG_RSEL, flds := [⟨0, 1, .rw, 0, .any⟩, ⟨1, 3, .rw, 0, .fallback 0 5 0⟩, ⟨4, 12, .rw, 0, .any⟩] },
    { off := DBG_RDATA_LO, flds := [⟨0, 32, .rw, 0, .any⟩] },
    { off := DBG_RDATA_HI, flds := [⟨0, 32, .rw, 0, .any⟩] },
    { off := DBG_RCMD, flds := [⟨0, 2, .wo, 0, .any⟩] } ]

/-! Tables 8-8, 8-9: L2 block of a tile (blocks 3 and 4). -/

def L2_CAP : Nat := 0x0
def L2_STAT : Nat := 0x4
def L2_ERR_THRESH : Nat := 0x8
def L2_WAY_FAILED : Nat := 0xC
def L2_WAY_REENABLE : Nat := 0x10
def L1D_WAY_FAILED : Nat := 0x14
def L1D_WAY_REENABLE : Nat := 0x18
def L2_WAY_CECNT : Nat := 0x40
def L1D_WAY_CECNT : Nat := 0x80

/-- Tables 8-8, 8-9: L2 block of a tile (blocks 3 and 4). -/
def l2Regs : List RegDef :=
  [
    { off := L2_CAP, flds := [⟨0, 32, .ro, 368, .any⟩] },
    { off := L2_STAT, flds := [⟨0, 1, .ro, 0, .any⟩, ⟨1, 1, .ro, 0, .any⟩, ⟨2, 1, .w1c, 0, .any⟩] },
    { off := L2_ERR_THRESH, flds := [⟨0, 8, .rw, 8, .any⟩, ⟨8, 16, .rw, 60, .range 1 65535⟩] },
    { off := L2_WAY_FAILED, flds := [⟨0, 16, .ro, 0, .any⟩] },
    { off := L2_WAY_REENABLE, secureOnly := true, flds := [⟨0, 16, .wo, 0, .any⟩] },
    { off := L1D_WAY_FAILED, flds := [⟨0, 8, .ro, 0, .any⟩] },
    { off := L1D_WAY_REENABLE, secureOnly := true, flds := [⟨0, 8, .wo, 0, .any⟩] },
    { off := L2_WAY_CECNT, stride := 4, cnt := 16, flds := [⟨0, 16, .ro, 0, .any⟩, ⟨16, 16, .ro, 0, .any⟩] },
    { off := L1D_WAY_CECNT, stride := 4, cnt := 8, flds := [⟨0, 16, .ro, 0, .any⟩, ⟨16, 16, .ro, 0, .any⟩] } ]

/-! Tables 8-10, 8-11: L3 slice of a tile (block 5). -/

def L3_CAP : Nat := 0x0
def L3_CTL : Nat := 0x4
def L3_STAT : Nat := 0x8
def L3_DEPOT : Nat := 0xC
def L3_WAY_FAILED : Nat := 0x10
def L3_WAY_REENABLE : Nat := 0x14
def L3_ERR_THRESH : Nat := 0x18
def L3_OCC : Nat := 0x1C
def L3_WAY_CECNT : Nat := 0x20
def WB_SLICE : Nat := 0x7000

/-- Tables 8-10, 8-11: L3 slice of a tile (block 5). -/
def l3Regs : List RegDef :=
  [
    { off := L3_CAP, flds := [⟨0, 32, .ro, 0x42080cc, .any⟩] },
    { off := L3_CTL, flds := [⟨0, 1, .rw, 1, .any⟩, ⟨1, 1, .rw, 1, .any⟩, ⟨2, 1, .rw, 1, .any⟩, ⟨8, 8, .rw, 32, .range 1 255⟩, ⟨16, 4, .rw, 4, .range 1 8⟩] },
    { off := L3_STAT, flds := [⟨0, 1, .ro, 0, .any⟩, ⟨1, 1, .ro, 0, .any⟩, ⟨2, 1, .ro, 0, .any⟩, ⟨3, 1, .ro, 0, .any⟩, ⟨4, 1, .ro, 0, .any⟩, ⟨5, 1, .w1c, 0, .any⟩] },
    { off := L3_DEPOT, flds := [⟨4, 8, .rwe, 0, .any⟩] },
    { off := L3_WAY_FAILED, flds := [⟨0, 12, .ro, 0, .any⟩] },
    { off := L3_WAY_REENABLE, secureOnly := true, flds := [⟨0, 12, .wo, 0, .any⟩] },
    { off := L3_ERR_THRESH, flds := [⟨0, 8, .rw, 8, .any⟩, ⟨8, 16, .rw, 60, .range 1 65535⟩] },
    { off := L3_OCC, flds := [⟨0, 19, .ro, 0, .any⟩] },
    { off := L3_WAY_CECNT, stride := 4, cnt := 12, flds := [⟨0, 16, .ro, 0, .any⟩, ⟨16, 16, .ro, 0, .any⟩] },
    { off := WB_SLICE, flds := [⟨0, 8, .rwl, 0, .range 0 128⟩, ⟨8, 8, .ro, 128, .any⟩, ⟨16, 8, .ro, 0, .any⟩] } ]

/-! Tables 10-4, 10-5: one waybill descriptor (slot n at 0x1000 + 0x40 n of block 5); offsets from the slot's base. -/

def WBQ_CTL : Nat := 0x0
def WBQ_CFG : Nat := 0x4
def WBQ_BASE_LO : Nat := 0x8
def WBQ_BASE_HI : Nat := 0xC
def WBQ_IRQ : Nat := 0x10
def WBQ_IRQ_TGT : Nat := 0x14
def WBQ_PROD : Nat := 0x18
def WBQ_CONS : Nat := 0x1C
def WBQ_HEAD : Nat := 0x20
def WBQ_TAIL : Nat := 0x24
def WBQ_STAT : Nat := 0x28
def WBQ_DROP_FULL : Nat := 0x2C
def WBQ_DROP_POISON : Nat := 0x30
def WBQ_DROP_UNAVAIL : Nat := 0x34
def WBQ_REFUSED : Nat := 0x38
def WBQ_ARM : Nat := 0x3C

/-- Tables 10-4, 10-5: one waybill descriptor (slot n at 0x1000 + 0x40 n of block 5); offsets from the slot's base. -/
def wbqRegs : List RegDef :=
  [
    { off := WBQ_CTL, guarded := true, flds := [⟨0, 1, .rw, 0, .any⟩, ⟨1, 1, .wo, 0, .any⟩, ⟨2, 1, .rw, 0, .any⟩] },
    { off := WBQ_CFG, guarded := true, flds := [⟨0, 5, .rw, 4, .range 4 16⟩, ⟨5, 2, .rw, 0, .fallback 0 2 2⟩, ⟨7, 1, .rw, 0, .any⟩, ⟨8, 1, .rw, 0, .any⟩, ⟨9, 1, .rw, 0, .any⟩, ⟨10, 1, .rw, 0, .any⟩] },
    { off := WBQ_BASE_LO, guarded := true, flds := [⟨8, 24, .rw, 0, .any⟩] },
    { off := WBQ_BASE_HI, guarded := true, flds := [⟨0, 20, .rw, 0, .any⟩] },
    { off := WBQ_IRQ, guarded := true, flds := [⟨0, 17, .rw, 1, .any⟩] },
    { off := WBQ_IRQ_TGT, guarded := true, flds := [⟨0, 29, .rw, 0, .any⟩] },
    { off := WBQ_PROD, guarded := true, flds := [⟨0, 29, .rw, 0, .any⟩] },
    { off := WBQ_CONS, guarded := true, flds := [⟨0, 29, .rw, 0, .any⟩] },
    { off := WBQ_HEAD, flds := [⟨0, 32, .ro, 0, .any⟩] },
    { off := WBQ_TAIL, flds := [⟨0, 32, .ro, 0, .any⟩] },
    { off := WBQ_STAT, flds := [⟨0, 1, .w1c, 0, .any⟩, ⟨1, 1, .w1c, 0, .any⟩, ⟨2, 1, .w1c, 0, .any⟩, ⟨3, 1, .ro, 0, .any⟩, ⟨4, 1, .ro, 0, .any⟩, ⟨5, 1, .ro, 0, .any⟩, ⟨6, 1, .w1c, 0, .any⟩] },
    { off := WBQ_DROP_FULL, flds := [⟨0, 32, .ro, 0, .any⟩] },
    { off := WBQ_DROP_POISON, flds := [⟨0, 32, .ro, 0, .any⟩] },
    { off := WBQ_DROP_UNAVAIL, flds := [⟨0, 32, .ro, 0, .any⟩] },
    { off := WBQ_REFUSED, flds := [⟨0, 32, .ro, 0, .any⟩] },
    { off := WBQ_ARM, flds := [⟨0, 1, .wo, 0, .any⟩] } ]

/-! Tables 15-5, 15-6: one thread's page of an interrupt unit; offsets from the page base. -/

def INT_PEND_LO : Nat := 0x0
def INT_PEND_HI : Nat := 0x4
def INT_SET : Nat := 0x8
def INT_CLR : Nat := 0xC
def INT_ACK_N : Nat := 0x10
def INT_EOI_N : Nat := 0x14
def INT_RUNPRI_N : Nat := 0x18
def INT_ACK_S : Nat := 0x20
def INT_EOI_S : Nat := 0x24
def INT_RUNPRI_S : Nat := 0x28
def INT_SHLIST : Nat := 0x30
def PSRC_CFG : Nat := 0x100

/-- Tables 15-5, 15-6: one thread's page of an interrupt unit; offsets from the page base. -/
def intPageRegs : List RegDef :=
  [
    { off := INT_PEND_LO, flds := [⟨0, 32, .ro, 0, .any⟩] },
    { off := INT_PEND_HI, flds := [⟨0, 32, .ro, 0, .any⟩] },
    { off := INT_SET, flds := [⟨0, 6, .wo, 0, .any⟩] },
    { off := INT_CLR, guarded := true, flds := [⟨0, 6, .wo, 0, .any⟩] },
    { off := INT_ACK_N, flds := [⟨0, 32, .ro, 0x2000, .any⟩] },
    { off := INT_EOI_N, flds := [⟨0, 32, .wo, 0, .any⟩] },
    { off := INT_RUNPRI_N, flds := [⟨0, 9, .ro, 256, .any⟩, ⟨9, 5, .ro, 0, .any⟩, ⟨14, 1, .w1c, 0, .any⟩] },
    { off := INT_ACK_S, guarded := true, flds := [⟨0, 32, .ro, 0x2000, .any⟩] },
    { off := INT_EOI_S, guarded := true, flds := [⟨0, 32, .wo, 0, .any⟩] },
    { off := INT_RUNPRI_S, flds := [⟨0, 9, .ro, 256, .any⟩, ⟨9, 5, .ro, 0, .any⟩, ⟨14, 1, .w1c, 0, .any⟩] },
    { off := INT_SHLIST, flds := [⟨0, 6, .ro, 0, .any⟩] },
    { off := PSRC_CFG, stride := 4, cnt := 64, guarded := true, flds := [⟨0, 8, .rw, 128, .any⟩, ⟨8, 1, .rw, 0, .any⟩, ⟨9, 2, .rw, 1, .any⟩, ⟨11, 1, .rw, 0, .any⟩, ⟨12, 2, .ro, 0, .any⟩] } ]

/-! Tables 15-7, 15-8: shared interrupt table. -/

def SH_CAP : Nat := 0x0
def SH_SET : Nat := 0x4
def SH_CLR : Nat := 0x8
def SH_STAT : Nat := 0xC
def SH_BADSET_CNT : Nat := 0x10
def SH_PEND : Nat := 0x100
def SH_TGT : Nat := 0x1000
def SH_CFG : Nat := 0x1004

/-- Tables 15-7, 15-8: shared interrupt table. -/
def shTableRegs : List RegDef :=
  [
    { off := SH_CAP, flds := [⟨0, 32, .ro, 256, .any⟩] },
    { off := SH_SET, flds := [⟨0, 12, .wo, 0, .any⟩] },
    { off := SH_CLR, guarded := true, flds := [⟨0, 12, .wo, 0, .any⟩] },
    { off := SH_STAT, flds := [⟨0, 1, .w1c, 0, .any⟩, ⟨1, 1, .w1c, 0, .any⟩] },
    { off := SH_BADSET_CNT, flds := [⟨0, 32, .ro, 0, .any⟩] },
    { off := SH_PEND, stride := 4, cnt := 16, flds := [⟨0, 32, .ro, 0, .any⟩] },
    { off := SH_TGT, stride := 8, cnt := 512, guarded := true, flds := [⟨0, 20, .rw, 0, .any⟩] },
    { off := SH_CFG, stride := 8, cnt := 512, guarded := true, flds := [⟨0, 8, .rw, 128, .any⟩, ⟨8, 1, .rw, 0, .any⟩, ⟨9, 2, .rw, 1, .any⟩, ⟨11, 4, .ro, 0, .any⟩] } ]

/-! Tables 13-9, 13-10: error block (block 8). -/

def ERR_CAP : Nat := 0x0
def ERR_CTL : Nat := 0x4
def ERR_STAT : Nat := 0x8
def ERR_TGT_N : Nat := 0x10
def ERR_TGT_S : Nat := 0x14
def ERR_SRC_SEL : Nat := 0x40
def ERR_SRC_CFG : Nat := 0x44
def ERR_CAP_SRC : Nat := 0x100
def ERR_CAP_TYPE : Nat := 0x104
def ERR_CAP_LOCUS : Nat := 0x108
def ERR_CAP_ADDR_LO : Nat := 0x10C
def ERR_CAP_ADDR_HI : Nat := 0x110
def ERR_CAP_SYND : Nat := 0x114
def ERR_CAP_TS_LO : Nat := 0x118
def ERR_CAP_TS_HI : Nat := 0x11C
def ERR_CAP_ACK : Nat := 0x120
def ERR_CAP_SEQ : Nat := 0x124
def INJ_CTL : Nat := 0x200
def INJ_SRC : Nat := 0x204
def INJ_ADDR_LO : Nat := 0x208
def INJ_ADDR_HI : Nat := 0x20C
def INJ_TIME_LO : Nat := 0x210
def INJ_TIME_HI : Nat := 0x214
def INJ_STAT : Nat := 0x218

/-- Tables 13-9, 13-10: error block (block 8). -/
def errRegs : List RegDef :=
  [
    { off := ERR_CAP, flds := [⟨0, 8, .ro, 0, .any⟩] },
    { off := ERR_CTL, guarded := true, flds := [⟨0, 2, .rw, 0, .any⟩] },
    { off := ERR_STAT, flds := [⟨0, 4, .ro, 0, .any⟩] },
    { off := ERR_TGT_N, guarded := true, flds := [⟨0, 20, .rw, 0, .any⟩] },
    { off := ERR_TGT_S, guarded := true, flds := [⟨0, 20, .rw, 0, .any⟩] },
    { off := ERR_SRC_SEL, guarded := true, flds := [⟨0, 16, .rw, 0, .any⟩] },
    { off := ERR_SRC_CFG, guarded := true, flds := [⟨0, 2, .rw, 0, .any⟩, ⟨2, 2, .ro, 0, .any⟩, ⟨4, 2, .rw, 1, .fallback 1 3 1⟩, ⟨6, 1, .ro, 0, .any⟩, ⟨16, 16, .ro, 0, .any⟩] },
    { off := ERR_CAP_SRC, stride := 64, cnt := 4, flds := [⟨0, 32, .ro, 0, .any⟩] },
    { off := ERR_CAP_TYPE, stride := 64, cnt := 4, flds := [⟨0, 32, .ro, 0, .any⟩] },
    { off := ERR_CAP_LOCUS, stride := 64, cnt := 4, flds := [⟨0, 32, .ro, 0, .any⟩] },
    { off := ERR_CAP_ADDR_LO, stride := 64, cnt := 4, flds := [⟨0, 32, .ro, 0, .any⟩] },
    { off := ERR_CAP_ADDR_HI, stride := 64, cnt := 4, flds := [⟨0, 32, .ro, 0, .any⟩] },
    { off := ERR_CAP_SYND, stride := 64, cnt := 4, flds := [⟨0, 32, .ro, 0, .any⟩] },
    { off := ERR_CAP_TS_LO, stride := 64, cnt := 4, flds := [⟨0, 32, .ro, 0, .any⟩] },
    { off := ERR_CAP_TS_HI, stride := 64, cnt := 4, flds := [⟨0, 32, .ro, 0, .any⟩] },
    { off := ERR_CAP_ACK, stride := 64, cnt := 4, guarded := true, flds := [⟨0, 1, .wo, 0, .any⟩] },
    { off := ERR_CAP_SEQ, stride := 64, cnt := 4, flds := [⟨0, 32, .ro, 0, .any⟩] },
    { off := INJ_CTL, flds := [⟨0, 1, .rw, 0, .any⟩, ⟨1, 2, .rw, 0, .fallback 0 1 1⟩, ⟨3, 1, .rw, 0, .any⟩, ⟨4, 2, .rw, 0, .fallback 0 2 0⟩, ⟨8, 8, .rw, 1, .range 1 255⟩] },
    { off := INJ_SRC, flds := [⟨0, 16, .rw, 0, .any⟩] },
    { off := INJ_ADDR_LO, flds := [⟨6, 26, .rw, 0, .any⟩] },
    { off := INJ_ADDR_HI, flds := [⟨0, 20, .rw, 0, .any⟩] },
    { off := INJ_TIME_LO, flds := [⟨0, 32, .rw, 0, .any⟩] },
    { off := INJ_TIME_HI, flds := [⟨0, 32, .rw, 0, .any⟩] },
    { off := INJ_STAT, flds := [⟨0, 1, .ro, 0, .any⟩, ⟨1, 1, .w1c, 0, .any⟩, ⟨2, 1, .w1c, 0, .any⟩, ⟨8, 8, .ro, 0, .any⟩] } ]

/-! Tables 12-3, 12-4: channel controller (memory stop blocks 1 and 2). -/

def MC_CAP : Nat := 0x0
def MC_CTL : Nat := 0x4
def MC_STAT : Nat := 0x8
def MC_IDLE : Nat := 0xC
def MC_TIM0 : Nat := 0x10
def MC_TIM1 : Nat := 0x14
def MC_TIM2 : Nat := 0x18
def MC_TIM3 : Nat := 0x1C
def MC_TIM4 : Nat := 0x20
def MC_OCC : Nat := 0x30
def MC_CE_CNT : Nat := 0x40
def MC_UE_CNT : Nat := 0x44
def MC_POISON_RD : Nat := 0x48
def MC_ERR_INFO : Nat := 0x4C
def MC_ERR_ADDR_LO : Nat := 0x50
def MC_ERR_ADDR_HI : Nat := 0x54

/-- Tables 12-3, 12-4: channel controller (memory stop blocks 1 and 2). -/
def mcRegs : List RegDef :=
  [
    { off := MC_CAP, flds := [⟨0, 32, .ro, 0x704, .any⟩] },
    { off := MC_CTL, flds := [⟨0, 1, .rwe, 0, .any⟩, ⟨1, 4, .rwe, 4, .range 0 8⟩, ⟨5, 1, .rwe, 1, .any⟩, ⟨6, 6, .rwe, 24, .range 4 48⟩, ⟨12, 6, .rwe, 8, .any⟩, ⟨18, 4, .rwe, 8, .range 1 15⟩] },
    { off := MC_STAT, flds := [⟨0, 4, .ro, 0, .any⟩, ⟨4, 1, .w1c, 0, .any⟩, ⟨5, 4, .ro, 0, .any⟩] },
    { off := MC_IDLE, flds := [⟨0, 12, .rw, 64, .any⟩] },
    { off := MC_TIM0, flds := [⟨0, 6, .rwe, 13, .any⟩, ⟨6, 6, .rwe, 13, .any⟩, ⟨12, 7, .rwe, 30, .any⟩, ⟨19, 7, .rwe, 43, .any⟩] },
    { off := MC_TIM1, flds := [⟨0, 4, .rwe, 2, .any⟩, ⟨4, 4, .rwe, 4, .any⟩, ⟨8, 6, .rwe, 15, .any⟩, ⟨14, 3, .rwe, 1, .any⟩, ⟨17, 3, .rwe, 2, .any⟩, ⟨20, 6, .rwe, 15, .any⟩, ⟨26, 4, .rwe, 4, .any⟩] },
    { off := MC_TIM2, flds := [⟨0, 5, .rwe, 14, .any⟩, ⟨5, 5, .rwe, 4, .any⟩, ⟨10, 5, .rwe, 3, .any⟩, ⟨15, 5, .rwe, 7, .any⟩, ⟨20, 5, .rwe, 6, .any⟩] },
    { off := MC_TIM3, flds := [⟨0, 10, .rwe, 315, .any⟩, ⟨10, 10, .rwe, 144, .any⟩] },
    { off := MC_TIM4, flds := [⟨0, 14, .rwe, 0xdb6, .any⟩] },
    { off := MC_OCC, flds := [⟨0, 20, .ro, 0, .any⟩] },
    { off := MC_CE_CNT, flds := [⟨0, 32, .ro, 0, .any⟩] },
    { off := MC_UE_CNT, flds := [⟨0, 32, .ro, 0, .any⟩] },
    { off := MC_POISON_RD, flds := [⟨0, 32, .ro, 0, .any⟩] },
    { off := MC_ERR_INFO, flds := [⟨0, 1, .w1c, 0, .any⟩, ⟨1, 12, .ro, 0, .any⟩] },
    { off := MC_ERR_ADDR_LO, flds := [⟨0, 32, .ro, 0, .any⟩] },
    { off := MC_ERR_ADDR_HI, flds := [⟨0, 32, .ro, 0, .any⟩] } ]

/-! Tables 12-5, 12-6: PHY and lane repair (memory stop blocks 3 and 4). -/

def PHY_STAT : Nat := 0x0
def PHY_LANE_SEL : Nat := 0x4
def PHY_LANE_CNT : Nat := 0x8
def PHY_LANE_THRESH : Nat := 0xC
def PHY_REMAP_CMD : Nat := 0x10
def PHY_REMAP : Nat := 0x14

/-- Tables 12-5, 12-6: PHY and lane repair (memory stop blocks 3 and 4). -/
def phyRegs : List RegDef :=
  [
    { off := PHY_STAT, flds := [⟨0, 5, .ro, 0, .any⟩, ⟨5, 3, .w1c, 0, .any⟩] },
    { off := PHY_LANE_SEL, flds := [⟨0, 7, .rw, 0, .range 0 71⟩, ⟨7, 1, .rw, 0, .any⟩] },
    { off := PHY_LANE_CNT, flds := [⟨0, 32, .ro, 0, .any⟩] },
    { off := PHY_LANE_THRESH, flds := [⟨0, 8, .rw, 16, .any⟩, ⟨8, 16, .rw, 10, .range 1 65535⟩, ⟨24, 1, .rw, 1, .any⟩] },
    { off := PHY_REMAP_CMD, secureOnly := true, flds := [⟨0, 7, .wo, 0, .fallback 0 71 127⟩, ⟨7, 2, .wo, 0, .any⟩] },
    { off := PHY_REMAP, flds := [⟨0, 32, .ro, 0, .any⟩] } ]

/-! Table 12-7: scrubber and row sparing (memory stop block 5; controller c at 0x100 c). -/

def SCRUB_CTL : Nat := 0x0
def SCRUB_PERIOD : Nat := 0x4
def SCRUB_POS : Nat := 0x8
def SCRUB_CNT : Nat := 0xC
def SPARE_CMD : Nat := 0x10
def SPARE_ROW : Nat := 0x14
def SPARE_STAT : Nat := 0x18

/-- Table 12-7: scrubber and row sparing (memory stop block 5; controller c at 0x100 c). -/
def scrubRegs : List RegDef :=
  [
    { off := SCRUB_CTL, stride := 256, cnt := 2, flds := [⟨0, 2, .rw, 3, .any⟩] },
    { off := SCRUB_PERIOD, stride := 256, cnt := 2, flds := [⟨0, 32, .rw, 0x15180, .range 3600 2592000⟩] },
    { off := SCRUB_POS, stride := 256, cnt := 2, flds := [⟨0, 26, .ro, 0, .any⟩] },
    { off := SCRUB_CNT, stride := 256, cnt := 2, flds := [⟨0, 32, .ro, 0, .any⟩] },
    { off := SPARE_CMD, stride := 256, cnt := 2, secureOnly := true, flds := [⟨0, 1, .wo, 0, .any⟩] },
    { off := SPARE_ROW, stride := 256, cnt := 2, secureOnly := true, flds := [⟨0, 22, .rw, 0, .any⟩] },
    { off := SPARE_STAT, stride := 256, cnt := 2, flds := [⟨0, 15, .ro, 0, .any⟩, ⟨15, 4, .w1c, 0, .any⟩] } ]

/-! Table 12-8: stack control (memory stop x = 4s, block 6). -/

def STK_CTL : Nat := 0x0
def STK_STAT : Nat := 0x4
def STK_TEMP : Nat := 0x8
def STK_SERIAL_LO : Nat := 0xC
def STK_SERIAL_HI : Nat := 0x10
def W1500_IR : Nat := 0x100
def W1500_LEN : Nat := 0x104
def W1500_GO : Nat := 0x108
def W1500_STAT : Nat := 0x10C
def W1500_DR : Nat := 0x110

/-- Table 12-8: stack control (memory stop x = 4s, block 6). -/
def stkRegs : List RegDef :=
  [
    { off := STK_CTL, secureOnly := true, flds := [⟨0, 6, .wo, 0, .any⟩] },
    { off := STK_STAT, flds := [⟨0, 4, .ro, 0, .any⟩, ⟨4, 1, .w1c, 0, .any⟩] },
    { off := STK_TEMP, flds := [⟨0, 9, .ro, 0, .any⟩] },
    { off := STK_SERIAL_LO, flds := [⟨0, 32, .ro, 0, .any⟩] },
    { off := STK_SERIAL_HI, flds := [⟨0, 32, .ro, 0, .any⟩] },
    { off := W1500_IR, secureOnly := true, flds := [⟨0, 12, .wo, 0, .any⟩] },
    { off := W1500_LEN, secureOnly := true, flds := [⟨0, 11, .wo, 0, .range 1 1024⟩] },
    { off := W1500_GO, secureOnly := true, flds := [⟨0, 1, .wo, 0, .any⟩] },
    { off := W1500_STAT, flds := [⟨0, 1, .ro, 0, .any⟩] },
    { off := W1500_DR, stride := 4, cnt := 32, secureOnly := true, flds := [⟨0, 32, .rw, 0, .any⟩] } ]

/-! Table 12-9: protocol layer in CXL mode (I/O stop block 5). -/

def CXL_STAT : Nat := 0x0
def CXL_TMO : Nat := 0x4
def CXL_DROP : Nat := 0x8
def CXW_BASE : Nat := 0x100
def CXW_SIZE : Nat := 0x104
def CXW_DPA : Nat := 0x108
def CXW_CTL : Nat := 0x10C

/-- Table 12-9: protocol layer in CXL mode (I/O stop block 5). -/
def cxlRegs : List RegDef :=
  [
    { off := CXL_STAT, flds := [⟨0, 1, .ro, 0, .any⟩, ⟨1, 3, .w1c, 0, .any⟩] },
    { off := CXL_TMO, flds := [⟨0, 16, .rw, 1000, .range 10 50000⟩] },
    { off := CXL_DROP, flds := [⟨0, 32, .ro, 0, .any⟩] },
    { off := CXW_BASE, stride := 16, cnt := 4, flds := [⟨0, 24, .rwl, 0, .any⟩] },
    { off := CXW_SIZE, stride := 16, cnt := 4, flds := [⟨0, 17, .rwl, 0, .range 0 65536⟩] },
    { off := CXW_DPA, stride := 16, cnt := 4, flds := [⟨0, 24, .rwl, 0, .any⟩] },
    { off := CXW_CTL, stride := 16, cnt := 4, flds := [⟨0, 1, .rwl, 0, .any⟩, ⟨1, 3, .rwl, 0, .fallback 0 5 0⟩] } ]

/-! Tables 9-12, 9-13: protocol layer in Caravan mode (I/O stop block 5). -/

def CV_CTL : Nat := 0x0
def CV_STAT : Nat := 0x4
def CV_PARTNER_LO : Nat := 0x8
def CV_PARTNER_HI : Nat := 0xC
def CV_CRC_CNT : Nat := 0x10
def CV_FEC_CNT : Nat := 0x14
def CV_REPLAY_CNT : Nat := 0x18
def CV_RETRAIN_CNT : Nat := 0x1C
def CV_RELAY : Nat := 0x20
def CV_CMD : Nat := 0x24

/-- Tables 9-12, 9-13: protocol layer in Caravan mode (I/O stop block 5). -/
def cvRegs : List RegDef :=
  [
    { off := CV_CTL, flds := [⟨0, 2, .rwe, 0, .any⟩, ⟨2, 2, .rwe, 0, .fallback 0 2 2⟩] },
    { off := CV_STAT, flds := [⟨0, 7, .ro, 0, .any⟩, ⟨7, 3, .w1c, 0, .any⟩] },
    { off := CV_PARTNER_LO, flds := [⟨0, 32, .ro, 0, .any⟩] },
    { off := CV_PARTNER_HI, flds := [⟨0, 32, .ro, 0, .any⟩] },
    { off := CV_CRC_CNT, flds := [⟨0, 32, .ro, 0, .any⟩] },
    { off := CV_FEC_CNT, flds := [⟨0, 32, .ro, 0, .any⟩] },
    { off := CV_REPLAY_CNT, flds := [⟨0, 32, .ro, 0, .any⟩] },
    { off := CV_RETRAIN_CNT, flds := [⟨0, 32, .ro, 0, .any⟩] },
    { off := CV_RELAY, flds := [⟨0, 3, .ro, 0, .any⟩] },
    { off := CV_CMD, flds := [⟨0, 2, .wo, 0, .any⟩] } ]

/-! Tables 7-12, 7-13: I/O translation unit (I/O stop block 3). -/

def IOTU_CTX_LO : Nat := 0x0
def IOTU_CTX_HI : Nat := 0x4
def IOTU_CTL : Nat := 0x8
def IOTU_STAT : Nat := 0xC
def IOTU_INV : Nat := 0x10
def IOTU_FLT_INFO : Nat := 0x14
def IOTU_FLT_ADDR_LO : Nat := 0x18
def IOTU_FLT_ADDR_HI : Nat := 0x1C
def IOTU_FLT_POP : Nat := 0x20
def IOTU_FLT_DROP : Nat := 0x24

/-- Tables 7-12, 7-13: I/O translation unit (I/O stop block 3). -/
def iotuRegs : List RegDef :=
  [
    { off := IOTU_CTX_LO, flds := [⟨21, 11, .rwe, 0, .any⟩] },
    { off := IOTU_CTX_HI, flds := [⟨0, 20, .rwe, 0, .any⟩] },
    { off := IOTU_CTL, flds := [⟨0, 1, .rwe, 0, .any⟩, ⟨1, 1, .rwe, 0, .any⟩, ⟨16, 12, .rwe, 0, .range 0 255⟩] },
    { off := IOTU_STAT, flds := [⟨0, 1, .ro, 0, .any⟩, ⟨1, 1, .w1c, 0, .any⟩, ⟨2, 1, .ro, 0, .any⟩] },
    { off := IOTU_INV, flds := [⟨0, 18, .wo, 0, .any⟩] },
    { off := IOTU_FLT_INFO, flds := [⟨0, 32, .ro, 0, .any⟩] },
    { off := IOTU_FLT_ADDR_LO, flds := [⟨0, 32, .ro, 0, .any⟩] },
    { off := IOTU_FLT_ADDR_HI, flds := [⟨0, 32, .ro, 0, .any⟩] },
    { off := IOTU_FLT_POP, flds := [⟨0, 1, .wo, 0, .any⟩] },
    { off := IOTU_FLT_DROP, flds := [⟨0, 32, .ro, 0, .any⟩] } ]

/-! Tables 19-9, 19-10: port controller (I/O stop block 1). -/

def PORT_CAP : Nat := 0x0
def PORT_CTL : Nat := 0x4
def PORT_STAT : Nat := 0x8
def PORT_EVT_SRC : Nat := 0xC
def PORT_DROP : Nat := 0x10
def PORT_UR_CNT : Nat := 0x14
def STRM : Nat := 0x104

/-- Tables 19-9, 19-10: port controller (I/O stop block 1). -/
def portRegs : List RegDef :=
  [
    { off := PORT_CAP, flds := [⟨0, 3, .ro, 6, .any⟩, ⟨3, 5, .ro, 16, .any⟩, ⟨8, 2, .ro, 0, .any⟩] },
    { off := PORT_CTL, flds := [⟨0, 3, .rwe, 6, .fallback 1 6 6⟩, ⟨3, 1, .rwe, 1, .any⟩, ⟨4, 1, .rwe, 0, .any⟩] },
    { off := PORT_STAT, flds := [⟨0, 9, .ro, 0, .any⟩, ⟨9, 3, .w1c, 0, .any⟩] },
    { off := PORT_EVT_SRC, flds := [⟨0, 9, .rwe, 0, .any⟩] },
    { off := PORT_DROP, flds := [⟨0, 32, .ro, 0, .any⟩] },
    { off := PORT_UR_CNT, flds := [⟨0, 32, .ro, 0, .any⟩] },
    { off := STRM, stride := 4, cnt := 63, flds := [⟨0, 16, .rwe, 0, .any⟩, ⟨16, 5, .rwe, 0, .range 0 16⟩, ⟨21, 5, .rwe, 0, .any⟩] } ]

/-! Tables 19-11, 19-12: endpoint face (d0:(2,5) block 6). -/

def EP_CTL : Nat := 0x0
def EP_STAT : Nat := 0x4
def EP_WIN_LO : Nat := 0x8
def EP_WIN_HI : Nat := 0xC
def EP_SUBSYS : Nat := 0x10
def EP_DROP : Nat := 0x14
def EP_DB : Nat := 0x100

/-- Tables 19-11, 19-12: endpoint face (d0:(2,5) block 6). -/
def epRegs : List RegDef :=
  [
    { off := EP_CTL, flds := [⟨0, 6, .rwe, 28, .range 28 36⟩, ⟨6, 1, .rwe, 1, .any⟩] },
    { off := EP_STAT, flds := [⟨0, 7, .ro, 0, .any⟩, ⟨7, 4, .w1c, 0, .any⟩] },
    { off := EP_WIN_LO, flds := [⟨28, 4, .rwe, 0, .any⟩] },
    { off := EP_WIN_HI, flds := [⟨0, 20, .rwe, 0, .any⟩] },
    { off := EP_SUBSYS, flds := [⟨0, 16, .rwe, 0, .any⟩] },
    { off := EP_DROP, flds := [⟨0, 32, .ro, 0, .any⟩] },
    { off := EP_DB, stride := 4, cnt := 64, flds := [⟨0, 24, .rwe, 0, .any⟩] } ]

/-! Tables 9-4, 9-5: Ford bridge (Ford stop block 1). -/

def FORD_STAT : Nat := 0x0
def FORD_CMD : Nat := 0x4

/-- Tables 9-4, 9-5: Ford bridge (Ford stop block 1). -/
def ford1Regs : List RegDef :=
  [
    { off := FORD_STAT, flds := [⟨0, 2, .ro, 0, .any⟩, ⟨2, 1, .w1c, 0, .any⟩, ⟨3, 2, .ro, 0, .any⟩] },
    { off := FORD_CMD, secureOnly := true, flds := [⟨0, 1, .wo, 0, .any⟩] } ]

/-! Tables 9-4, 9-5: Ford bridge PHY and retry (Ford stop block 2). -/

def FORD_ERR : Nat := 0x0
def FORD_FLITS_LO : Nat := 0x4
def FORD_FLITS_HI : Nat := 0x8

/-- Tables 9-4, 9-5: Ford bridge PHY and retry (Ford stop block 2). -/
def ford2Regs : List RegDef :=
  [
    { off := FORD_ERR, flds := [⟨0, 32, .ro, 0, .any⟩] },
    { off := FORD_FLITS_LO, flds := [⟨0, 32, .ro, 0, .any⟩] },
    { off := FORD_FLITS_HI, flds := [⟨0, 32, .ro, 0, .any⟩] } ]

/-! Tables 11-7, 11-8: Outrider i (Outrider cluster stop block 1, at 0x1000 i). -/

def OR_CAP : Nat := 0x0
def OR_CTL : Nat := 0x4
def OR_STAT : Nat := 0x8
def OR_START_LO : Nat := 0x10
def OR_START_HI : Nat := 0x14
def OR_RUN_LO : Nat := 0x18
def OR_RUN_HI : Nat := 0x1C
def OR_STALL_LO : Nat := 0x20
def OR_STALL_HI : Nat := 0x24
def LC_CMD : Nat := 0x30
def LC_STAT : Nat := 0x34
def LC_ADDR_LO : Nat := 0x38
def LC_ADDR_HI : Nat := 0x3C
def REG_BASE_LO : Nat := 0x100
def REG_BASE_HI : Nat := 0x104
def REG_ATTR : Nat := 0x108

/-- Tables 11-7, 11-8: Outrider i (Outrider cluster stop block 1, at 0x1000 i). -/
def orGroupRegs : List RegDef :=
  [
    { off := OR_CAP, flds := [⟨0, 32, .ro, 0x70200, .any⟩] },
    { off := OR_CTL, secureOnly := true, flds := [⟨0, 2, .wo, 0, .any⟩, ⟨2, 1, .rw, 0, .any⟩] },
    { off := OR_STAT, flds := [⟨0, 2, .ro, 0, .any⟩, ⟨2, 2, .w1c, 0, .any⟩, ⟨4, 5, .ro, 0, .any⟩] },
    { off := OR_START_LO, secureOnly := true, flds := [⟨0, 32, .rw, 0, .any⟩] },
    { off := OR_START_HI, secureOnly := true, flds := [⟨0, 32, .rw, 0, .any⟩] },
    { off := OR_RUN_LO, flds := [⟨0, 32, .ro, 0, .any⟩] },
    { off := OR_RUN_HI, flds := [⟨0, 32, .ro, 0, .any⟩] },
    { off := OR_STALL_LO, flds := [⟨0, 32, .ro, 0, .any⟩] },
    { off := OR_STALL_HI, flds := [⟨0, 32, .ro, 0, .any⟩] },
    { off := LC_CMD, flds := [⟨0, 3, .wo, 0, .fallback 0 5 0⟩] },
    { off := LC_STAT, flds := [⟨0, 7, .ro, 0, .any⟩, ⟨7, 3, .w1c, 0, .any⟩] },
    { off := LC_ADDR_LO, flds := [⟨6, 26, .rw, 0, .any⟩] },
    { off := LC_ADDR_HI, flds := [⟨0, 20, .rw, 0, .any⟩] },
    { off := REG_BASE_LO, stride := 16, cnt := 8, flds := [⟨12, 20, .rw, 0, .any⟩] },
    { off := REG_BASE_HI, stride := 16, cnt := 8, flds := [⟨0, 20, .rw, 0, .any⟩] },
    { off := REG_ATTR, stride := 16, cnt := 8, flds := [⟨0, 1, .rw, 0, .any⟩, ⟨1, 6, .rw, 0, .range 0 40⟩, ⟨7, 7, .rw, 0, .any⟩] } ]

/-! Tables 11-9, 11-10: Courier port (Outrider cluster stop block 2). -/

def CP_CTL : Nat := 0x0
def CP_STAT : Nat := 0x4
def CP_OCC : Nat := 0x8
def CP_STK_OCC : Nat := 0x10
def CP_PANIC_CNT : Nat := 0x30
def CP_LAT_MAX : Nat := 0x34
def CP_LATE : Nat := 0x38
def CP_CLR : Nat := 0x3C

/-- Tables 11-9, 11-10: Courier port (Outrider cluster stop block 2). -/
def cpRegs : List RegDef :=
  [
    { off := CP_CTL, staged := true, flds := [⟨0, 7, .rw, 24, .range 1 72⟩, ⟨8, 7, .rw, 8, .range 0 71⟩, ⟨16, 5, .rw, 20, .range 5 30⟩, ⟨24, 1, .rw, 1, .any⟩] },
    { off := CP_STAT, flds := [⟨0, 6, .ro, 0, .any⟩, ⟨6, 1, .w1c, 0, .any⟩] },
    { off := CP_OCC, flds := [⟨0, 7, .ro, 0, .any⟩] },
    { off := CP_STK_OCC, stride := 4, cnt := 6, flds := [⟨0, 8, .ro, 0, .any⟩] },
    { off := CP_PANIC_CNT, flds := [⟨0, 32, .ro, 0, .any⟩] },
    { off := CP_LAT_MAX, flds := [⟨0, 16, .ro, 0, .any⟩] },
    { off := CP_LATE, flds := [⟨0, 32, .ro, 0, .any⟩] },
    { off := CP_CLR, flds := [⟨0, 1, .wo, 0, .any⟩] } ]

/-! Tables 11-11, 11-12: TCM window (Outrider cluster stop block 3). -/

def TCMW_SEL : Nat := 0x0
def TCM_ERR : Nat := 0x10
def TCM_WIN : Nat := 0x4000

/-- Tables 11-11, 11-12: TCM window (Outrider cluster stop block 3). -/
def tcmwRegs : List RegDef :=
  [
    { off := TCMW_SEL, flds := [⟨0, 3, .rw, 0, .any⟩, ⟨8, 5, .rw, 0, .any⟩] },
    { off := TCM_ERR, stride := 4, cnt := 8, flds := [⟨0, 16, .ro, 0, .any⟩, ⟨16, 16, .ro, 0, .any⟩] },
    { off := TCM_WIN, stride := 4, cnt := 4096, flds := [⟨0, 32, .rw, 0, .any⟩] } ]

/-! Tables 16-13, 16-14: sequencer of a core domain (block 9, at 0x10 d). -/

def DSEQ_CTL : Nat := 0x0
def DSEQ_CMD : Nat := 0x4
def DSEQ_STAT : Nat := 0x8
def DSEQ_CNT : Nat := 0xC

/-- Tables 16-13, 16-14: sequencer of a core domain (block 9, at 0x10 d). -/
def dseqCoreRegs : List RegDef :=
  [
    { off := DSEQ_CTL, guarded := true, flds := [⟨0, 1, .rw, 1, .any⟩, ⟨1, 1, .rw, 0, .any⟩, ⟨4, 12, .rw, 100, .range 1 4095⟩] },
    { off := DSEQ_CMD, guarded := true, flds := [⟨0, 2, .wo, 0, .any⟩] },
    { off := DSEQ_STAT, flds := [⟨0, 7, .ro, 0, .any⟩, ⟨7, 3, .w1c, 0, .any⟩, ⟨12, 3, .ro, 0, .any⟩] },
    { off := DSEQ_CNT, flds := [⟨0, 16, .ro, 0, .any⟩, ⟨16, 16, .ro, 0, .any⟩] } ]

/-! Tables 16-15, 16-16: die supervisor (Waystation stop block 4). -/

def PKG_STATE : Nat := 0x0
def PKG_PWR_LIMIT : Nat := 0x4
def PKG_PWR_EST : Nat := 0x8
def WAKE_LAST_SRC : Nat := 0x10
def WAKE_LAST_TS_LO : Nat := 0x14
def WAKE_LAST_TS_HI : Nat := 0x18
def WAKE_LATCH : Nat := 0x1C
def THERM_CTL : Nat := 0x20
def THERM_STAT : Nat := 0x24

/-- Tables 16-15, 16-16: die supervisor (Waystation stop block 4). -/
def supRegs : List RegDef :=
  [
    { off := PKG_STATE, flds := [⟨0, 5, .ro, 0, .any⟩] },
    { off := PKG_PWR_LIMIT, flds := [⟨0, 10, .rw, 500, .range 320 500⟩] },
    { off := PKG_PWR_EST, flds := [⟨0, 10, .ro, 0, .any⟩, ⟨16, 6, .ro, 0, .any⟩] },
    { off := WAKE_LAST_SRC, flds := [⟨0, 20, .ro, 0, .any⟩] },
    { off := WAKE_LAST_TS_LO, flds := [⟨0, 32, .ro, 0, .any⟩] },
    { off := WAKE_LAST_TS_HI, flds := [⟨0, 32, .ro, 0, .any⟩] },
    { off := WAKE_LATCH, flds := [⟨0, 16, .ro, 0, .any⟩] },
    { off := THERM_CTL, flds := [⟨0, 8, .rw, 100, .range 85 105⟩, ⟨8, 8, .rw, 95, .range 85 100⟩] },
    { off := THERM_STAT, flds := [⟨0, 9, .ro, 0, .any⟩, ⟨9, 1, .w1c, 0, .any⟩, ⟨10, 1, .ro, 0, .any⟩] } ]

/-! Tables 16-17, 16-18: band controller b (Waystation stop block 5, at 0x1000 b). -/

def BAND_CTL : Nat := 0x0
def BAND_CMD : Nat := 0x4
def BAND_STAT : Nat := 0x8
def BAND_DROOP_CNT : Nat := 0xC

/-- Tables 16-17, 16-18: band controller b (Waystation stop block 5, at 0x1000 b). -/
def bandRegs : List RegDef :=
  [
    { off := BAND_CTL, guarded := true, flds := [⟨0, 6, .rw, 32, .range 8 32⟩, ⟨8, 1, .rw, 1, .any⟩] },
    { off := BAND_CMD, guarded := true, flds := [⟨0, 2, .wo, 0, .any⟩] },
    { off := BAND_STAT, flds := [⟨0, 14, .ro, 0, .any⟩, ⟨14, 2, .w1c, 0, .any⟩, ⟨16, 8, .ro, 0, .any⟩] },
    { off := BAND_DROOP_CNT, flds := [⟨0, 32, .ro, 0, .any⟩] } ]

/-! Tables 16-19, 16-20: Camp watch (Waystation stop block 6), global registers. -/

def WCH_GCTL : Nat := 0x0
def WCH_STAT : Nat := 0x4

/-- Tables 16-19, 16-20: Camp watch (Waystation stop block 6), global registers. -/
def wchRegs : List RegDef :=
  [
    { off := WCH_GCTL, flds := [⟨0, 1, .rw, 0, .any⟩, ⟨8, 8, .ro, 32, .any⟩] },
    { off := WCH_STAT, flds := [⟨0, 1, .ro, 0, .any⟩, ⟨1, 1, .w1c, 0, .any⟩] } ]

/-! Tables 16-19, 16-20: Camp watch entry n; offsets from the entry's base. -/

def WCH_CTL : Nat := 0x0
def WCH_PERIOD : Nat := 0x4
def WCH_SRC : Nat := 0x8
def WCH_MASK : Nat := 0xC
def WCH_VALUE : Nat := 0x10
def WCH_ACT : Nat := 0x14
def WCH_LAST : Nat := 0x18
def WCH_MATCH : Nat := 0x1C
def WCH_SKIP : Nat := 0x20

/-- Tables 16-19, 16-20: Camp watch entry n; offsets from the entry's base. -/
def wchEntryRegs : List RegDef :=
  [
    { off := WCH_CTL, guarded := true, flds := [⟨0, 1, .rw, 0, .any⟩, ⟨1, 2, .rw, 0, .any⟩, ⟨3, 3, .rw, 0, .any⟩, ⟨6, 3, .rw, 0, .fallback 0 6 0⟩, ⟨9, 1, .rw, 0, .any⟩, ⟨10, 1, .ro, 0, .any⟩, ⟨11, 1, .w1c, 0, .any⟩] },
    { off := WCH_PERIOD, guarded := true, flds := [⟨0, 22, .rw, 1000, .range 1 3600000⟩] },
    { off := WCH_SRC, guarded := true, flds := [⟨0, 32, .rw, 0, .any⟩] },
    { off := WCH_MASK, guarded := true, flds := [⟨0, 32, .rw, 0xffffffff, .any⟩] },
    { off := WCH_VALUE, guarded := true, flds := [⟨0, 32, .rw, 0, .any⟩] },
    { off := WCH_ACT, guarded := true, flds := [⟨0, 32, .rw, 0, .any⟩] },
    { off := WCH_LAST, flds := [⟨0, 32, .ro, 0, .any⟩] },
    { off := WCH_MATCH, flds := [⟨0, 32, .ro, 0, .any⟩] },
    { off := WCH_SKIP, flds := [⟨0, 32, .ro, 0, .any⟩] } ]

/-! Table 13-11: error ledger (Waystation stop block 10). -/

def LEDGER_STAT : Nat := 0x0
def LEDGER_LOST : Nat := 0x4
def LEDGER_CLR : Nat := 0x8
def LEDGER_REC : Nat := 0x1000

/-- Table 13-11: error ledger (Waystation stop block 10). -/
def ledgerRegs : List RegDef :=
  [
    { off := LEDGER_STAT, guarded := true, flds := [⟨0, 32, .ro, 0, .any⟩] },
    { off := LEDGER_LOST, guarded := true, flds := [⟨0, 32, .ro, 0, .any⟩] },
    { off := LEDGER_CLR, flds := [⟨0, 1, .wo, 0, .any⟩] },
    { off := LEDGER_REC, stride := 4, cnt := 256, guarded := true, flds := [⟨0, 32, .ro, 0, .any⟩] } ]

/-! Table 17-10: world assignment (Waystation stop block 11). -/

def WA_LOCK : Nat := 0x0
def WA_STAT : Nat := 0x4
def WA_PORT_SEC : Nat := 0x8
def WA_OR_SEC : Nat := 0xC
def WA_ASSIGN : Nat := 0x10
def WA_VIOL_CNT : Nat := 0x14
def WA_VIOL_LAST : Nat := 0x18
def SR_BASE_LO : Nat := 0x100
def SR_BASE_HI : Nat := 0x104
def SR_SIZE : Nat := 0x108
def WA_SHI_SEC : Nat := 0x1000

/-- Table 17-10: world assignment (Waystation stop block 11). -/
def waRegs : List RegDef :=
  [
    { off := WA_LOCK, flds := [⟨0, 1, .rw, 0, .any⟩] },
    { off := WA_STAT, flds := [⟨0, 3, .ro, 0, .any⟩, ⟨3, 2, .w1c, 0, .any⟩] },
    { off := WA_PORT_SEC, flds := [⟨0, 12, .rwl, 0, .any⟩] },
    { off := WA_OR_SEC, flds := [⟨0, 16, .rwl, 0, .any⟩] },
    { off := WA_ASSIGN, flds := [⟨0, 22, .wo, 0, .any⟩] },
    { off := WA_VIOL_CNT, flds := [⟨0, 32, .ro, 0, .any⟩] },
    { off := WA_VIOL_LAST, flds := [⟨0, 23, .ro, 0, .any⟩] },
    { off := SR_BASE_LO, stride := 16, cnt := 16, flds := [⟨21, 11, .rwl, 0, .any⟩] },
    { off := SR_BASE_HI, stride := 16, cnt := 16, flds := [⟨0, 20, .rwl, 0, .any⟩] },
    { off := SR_SIZE, stride := 16, cnt := 16, flds := [⟨0, 24, .rwl, 0, .any⟩] },
    { off := WA_SHI_SEC, stride := 4, cnt := 128, flds := [⟨0, 32, .rwl, 0, .any⟩] } ]

/-! Table 17-11: fuses and identity (Waystation stop block 12). -/

def ID_DIE_LO : Nat := 0x0
def ID_DIE_HI : Nat := 0x4
def FUSE_CFG : Nat := 0x8
def DBG_EFF : Nat := 0xC
def DBG_TOK_STAT : Nat := 0x10
def DBG_REVOKE : Nat := 0x14
def DBG_NONCE : Nat := 0x20
def ID_KEY_DIG : Nat := 0x40
def OWNER_HASH : Nat := 0x80

/-- Table 17-11: fuses and identity (Waystation stop block 12). -/
def fuseRegs : List RegDef :=
  [
    { off := ID_DIE_LO, flds := [⟨0, 32, .ro, 0, .any⟩] },
    { off := ID_DIE_HI, flds := [⟨0, 32, .ro, 0, .any⟩] },
    { off := FUSE_CFG, flds := [⟨0, 32, .ro, 0, .any⟩] },
    { off := DBG_EFF, flds := [⟨0, 32, .ro, 0, .any⟩] },
    { off := DBG_TOK_STAT, flds := [⟨0, 3, .ro, 0, .any⟩, ⟨3, 1, .w1c, 0, .any⟩] },
    { off := DBG_REVOKE, secureOnly := true, flds := [⟨0, 1, .wo, 0, .any⟩] },
    { off := DBG_NONCE, stride := 4, cnt := 4, flds := [⟨0, 32, .ro, 0, .any⟩] },
    { off := ID_KEY_DIG, stride := 4, cnt := 12, flds := [⟨0, 32, .ro, 0, .any⟩] },
    { off := OWNER_HASH, stride := 4, cnt := 12, flds := [⟨0, 32, .ro, 0, .any⟩] } ]

/-! Tables 3-14, 3-15: timebase (Waystation stop block 13). -/

def TB_LO : Nat := 0x0
def TB_HI : Nat := 0x4
def TB_CTL : Nat := 0x8
def TB_STAT : Nat := 0xC
def TB_PPS_LO : Nat := 0x10
def TB_PPS_HI : Nat := 0x14
def TB_SET_LO : Nat := 0x18
def TB_SET_HI : Nat := 0x1C
def TB_ERR : Nat := 0x20

/-- Tables 3-14, 3-15: timebase (Waystation stop block 13). -/
def tbaseRegs : List RegDef :=
  [
    { off := TB_LO, flds := [⟨0, 32, .ro, 0, .any⟩] },
    { off := TB_HI, flds := [⟨0, 32, .ro, 0, .any⟩] },
    { off := TB_CTL, secureOnly := true, flds := [⟨0, 3, .rw, 0, .any⟩, ⟨8, 8, .rw, 100, .range 1 200⟩] },
    { off := TB_STAT, secureOnly := true, flds := [⟨0, 1, .w1c, 0, .any⟩, ⟨1, 1, .ro, 0, .any⟩, ⟨2, 2, .w1c, 0, .any⟩] },
    { off := TB_PPS_LO, flds := [⟨0, 32, .ro, 0, .any⟩] },
    { off := TB_PPS_HI, flds := [⟨0, 32, .ro, 0, .any⟩] },
    { off := TB_SET_LO, secureOnly := true, staged := true, flds := [⟨0, 32, .rw, 0, .any⟩] },
    { off := TB_SET_HI, secureOnly := true, staged := true, flds := [⟨0, 32, .rw, 0, .any⟩] },
    { off := TB_ERR, flds := [⟨0, 32, .ro, 0, .any⟩] } ]

/-! Tables 20-3, 20-4: one mailbox; offsets from 0x800 m. -/

def MB_REQ : Nat := 0x0
def MB_RSP : Nat := 0x100
def MB_DOORBELL : Nat := 0x200
def MB_STATUS : Nat := 0x204
def MB_CTL : Nat := 0x208
def MB_CNT : Nat := 0x20C

/-- Tables 20-3, 20-4: one mailbox; offsets from 0x800 m. -/
def mboxRegs : List RegDef :=
  [
    { off := MB_REQ, stride := 4, cnt := 64, guarded := true, flds := [⟨0, 32, .rw, 0, .any⟩] },
    { off := MB_RSP, stride := 4, cnt := 64, guarded := true, flds := [⟨0, 32, .ro, 0, .any⟩] },
    { off := MB_DOORBELL, guarded := true, flds := [⟨0, 2, .wo, 0, .any⟩] },
    { off := MB_STATUS, flds := [⟨0, 2, .ro, 0, .any⟩, ⟨2, 1, .w1c, 0, .any⟩, ⟨3, 2, .ro, 0, .any⟩, ⟨31, 1, .ro, 1, .any⟩] },
    { off := MB_CTL, guarded := true, flds := [⟨0, 9, .rw, 0, .any⟩, ⟨16, 1, .rw, 0, .any⟩] },
    { off := MB_CNT, flds := [⟨0, 16, .ro, 0, .any⟩, ⟨16, 16, .ro, 0, .any⟩] } ]

/-! Tables 20-13, 20-14, 21-10: Waystation control, boot and reset (Waystation stop block 3). -/

def WS_STAT : Nat := 0x0
def WS_WDOG_CTL : Nat := 0x4
def WS_WDOG_KICK : Nat := 0x8
def WS_WDOG_LEFT : Nat := 0xC
def WS_MEM_ERR : Nat := 0x10
def BOOT_STAT : Nat := 0x20
def RST_CAUSE : Nat := 0x24
def STRAP : Nat := 0x28
def RAIL_STAT : Nat := 0x2C

/-- Tables 20-13, 20-14, 21-10: Waystation control, boot and reset (Waystation stop block 3). -/
def wsCtlRegs : List RegDef :=
  [
    { off := WS_STAT, flds := [⟨0, 5, .ro, 0, .any⟩, ⟨5, 1, .w1c, 0, .any⟩, ⟨16, 16, .ro, 0, .any⟩] },
    { off := WS_WDOG_CTL, flds := [⟨0, 16, .rw, 1000, .range 10 60000⟩, ⟨16, 1, .ro, 1, .any⟩] },
    { off := WS_WDOG_KICK, flds := [⟨0, 1, .wo, 0, .any⟩] },
    { off := WS_WDOG_LEFT, flds := [⟨0, 16, .ro, 1000, .any⟩] },
    { off := WS_MEM_ERR, flds := [⟨0, 16, .ro, 0, .any⟩, ⟨16, 16, .ro, 0, .any⟩] },
    { off := BOOT_STAT, flds := [⟨0, 10, .ro, 0, .any⟩] },
    { off := RST_CAUSE, flds := [⟨0, 4, .ro, 0, .any⟩] },
    { off := STRAP, flds := [⟨0, 6, .ro, 0, .any⟩] },
    { off := RAIL_STAT, flds := [⟨0, 13, .ro, 0, .any⟩, ⟨13, 1, .ro, 1, .any⟩] } ]

/-! Table 18-7: package monitoring registers (block 7 at d0:(0,5)). -/

def PM_GCTL : Nat := 0x7000
def PM_AT_LO : Nat := 0x7004
def PM_AT_HI : Nat := 0x7008
def PM_GSTAT : Nat := 0x700C
def PM_SNAP_TS_LO : Nat := 0x7010
def PM_SNAP_TS_HI : Nat := 0x7014

/-- Table 18-7: package monitoring registers (block 7 at d0:(0,5)). -/
def pmPkgRegs : List RegDef :=
  [
    { off := PM_GCTL, guarded := true, flds := [⟨0, 1, .rw, 0, .any⟩, ⟨1, 1, .wo, 0, .any⟩] },
    { off := PM_AT_LO, guarded := true, flds := [⟨0, 32, .rw, 0, .any⟩] },
    { off := PM_AT_HI, guarded := true, flds := [⟨0, 32, .rw, 0, .any⟩] },
    { off := PM_GSTAT, flds := [⟨0, 2, .ro, 0, .any⟩, ⟨2, 1, .w1c, 0, .any⟩, ⟨16, 16, .ro, 0, .any⟩] },
    { off := PM_SNAP_TS_LO, flds := [⟨0, 32, .ro, 0, .any⟩] },
    { off := PM_SNAP_TS_HI, flds := [⟨0, 32, .ro, 0, .any⟩] } ]

/-! Table 18-6: performance monitor block (block 7), fixed part. -/

def PM_SNAP_SEQ : Nat := 0x6000
def PM_CAP : Nat := 0x6004
def PMS_OVF : Nat := 0x4500

/-- Table 18-6: performance monitor block (block 7), fixed part. -/
def pmScopeRegs : List RegDef :=
  [
    { off := PM_SNAP_SEQ, flds := [⟨0, 16, .ro, 0, .any⟩] },
    { off := PM_CAP, flds := [⟨0, 32, .ro, 0, .any⟩] },
    { off := PMS_OVF, stride := 4, cnt := 5, guarded := true, flds := [⟨0, 32, .w1c, 0, .any⟩] } ]

/-- Sequencers of other domains: as those of a core, with the reset value 0 of DSEQ_CTL (Table 16-13). -/
def dseqRegs : List RegDef :=
  { off := DSEQ_CTL, guarded := true, flds := [⟨0, 1, .rw, 0, .any⟩, ⟨1, 1, .rw, 0, .any⟩, ⟨4, 12, .rw, 0, .range 1 4095⟩] } ::
  dseqCoreRegs.drop 1


end Sys2Proof.Machine
end

