-- ==== Sys2Proof/Machine/Place.lean ====
section
/-!
DEFINITION. Places of a package: stop kinds, loci, configuration addresses and block numbers.
-/

namespace Sys2Proof.Machine

/-- Stop kinds, numbered as STOP_ID.KIND (Table 1-8). -/
inductive Kind where
  | tile | memory | waystation | cluster | io | ford
deriving DecidableEq, Repr

/-- The kind of a stop (Table 1-3). -/
def stopKind (st : Stop) : Kind :=
  if st.y = 0 then .memory
  else if st.y ≠ 5 then .tile
  else if st.x = 0 then .waystation
  else if st.x = 1 then .cluster
  else if st.x.val < 8 then .io
  else .ford

/-- STOP_ID.KIND (Table 1-8). -/
def Kind.code : Kind → Nat
  | .tile => 0 | .memory => 1 | .waystation => 2 | .cluster => 3 | .io => 4 | .ford => 5

/-- DIE, Y and X as bits [13:6] of the locus: L[13:6] (Table 0-8). -/
def stopIdx (st : Stop) : Nat := st.die.val * 128 + st.y.val * 16 + st.x.val

/-- The stop whose index is `i`, where there is one (R10). -/
def stopOf (i : Nat) : Option Stop :=
  if h : i / 128 < 2 ∧ i / 16 % 8 < 6 ∧ i % 16 < 12 then
    some ⟨⟨i / 128, h.1⟩, ⟨i / 16 % 8, h.2.1⟩, ⟨i % 16, h.2.2⟩⟩
  else none

/-- All stops of a package. -/
def allStops : List Stop :=
  (List.finRange 2).flatMap fun d => (List.finRange 6).flatMap fun y => (List.finRange 12).map fun x => ⟨d, y, x⟩

/-- All compute tiles of a package. -/
def allTiles : List Stop := allStops.filter fun st => stopKind st == .tile

/-- The Waystation stop of a die. -/
def wsStop (d : Fin 2) : Stop := ⟨d, 5, 0⟩

/-- The Outrider cluster stop of a die. -/
def orStop (d : Fin 2) : Stop := ⟨d, 5, 1⟩

/-- The stop of port `n` (R20). -/
def portStop (n : Fin 12) : Stop :=
  ⟨⟨n.val / 6, by omega⟩, 5, ⟨n.val % 6 + 2, by omega⟩⟩

/-- The package-wide number of the port at an I/O stop (R20). -/
def portOf (st : Stop) : Nat := 6 * st.die.val + (st.x.val - 2)

/-- The section of a compute tile or memory stop as its stack number, stack = 3 × die + x div 4 (R14). -/
def stackOf (st : Stop) : Nat := 3 * st.die.val + st.x.val / 4

/-- The stop's locus in package `pkg` (R8). -/
def stopLocus (pkg : Nat) (st : Stop) : Nat := pkg * 16384 + stopIdx st * 64

/-- The locus of a thread, or of the stop of an Outrider or Waystation core (Table 3-7). -/
def hartLocus (pkg : Nat) : Hart → Nat
  | .drover st c t => stopLocus pkg st + c.val * 32 + t.val * 16
  | .outrider n => stopLocus pkg (orStop ⟨n.val / 8, by omega⟩)
  | .waystation d => stopLocus pkg (wsStop d)

/-- The stop of a thread. -/
def hartStop : Hart → Stop
  | .drover st _ _ => st
  | .outrider n => orStop ⟨n.val / 8, by omega⟩
  | .waystation d => wsStop d

/-- The key of a thread in the state. -/
def hartKey : Hart → Nat
  | .drover st c t => stopIdx st * 4 + c.val * 2 + t.val
  | .outrider n => 1024 + n.val
  | .waystation d => 1040 + d.val

/-- The Drover thread of this package that a locus names, where it names one (R10). -/
def droverOf (pkg locus : Nat) : Option Hart :=
  if locus / 16384 ≠ pkg ∨ locus % 16 ≠ 0 ∨ 65536 ≤ locus then none
  else
    match stopOf (bits locus 6 8) with
    | some st =>
      if stopKind st = .tile then
        some (.drover st (if bit locus 5 then 1 else 0) (if bit locus 4 then 1 else 0))
      else none
    | none => none

/-- The stop of this package that a locus names, where it names one (R9, R10). -/
def stopOfLocus (pkg locus : Nat) : Option Stop :=
  if locus / 16384 ≠ pkg ∨ 65536 ≤ locus then none
  else if bits locus 0 6 ≠ 0 then none
  else stopOf (bits locus 6 8)

/-- Whether a locus names a place of the node at all (R10). -/
def locusNamesPlace (locus : Nat) : Bool :=
  decide (locus < 65536) && decide (locus % 16 = 0) &&
  match stopOf (bits locus 6 8) with
  | some st => decide (stopKind st = .tile) || decide (bits locus 4 2 = 0)
  | none => false

/-- The key of a register: the configuration address without its package number (R52). -/
def rkey (st : Stop) (blk off : Nat) : Nat := stopIdx st * 0x400000 + blk * 0x10000 + off

/-- The number of a core (R280). -/
def coreNum (st : Stop) (c : Fin 2) : Nat := 96 * st.die.val + 2 * (12 * (st.y.val - 1) + st.x.val) + c.val

/-- The threads of a tile. -/
def tileHarts (st : Stop) : List Hart :=
  [.drover st 0 0, .drover st 0 1, .drover st 1 0, .drover st 1 1]

/-- Offsets of the block header (Table 2-4). -/
def BLOCK_ID : Nat := 0xFFF0
def BLOCK_CTL : Nat := 0xFFF4
def BLOCK_STAT : Nat := 0xFFF8

/-- The base of waybill slot `q` in block 5 (R343). -/
def wbqBase (q : Nat) : Nat := 0x1000 + 0x40 * q

/-- The base of Camp watch entry `n` in block 6 (R535). -/
def wchBase (n : Nat) : Nat := 0x0100 + 0x40 * n

/-- The storage block of the protocol layer in Caravan mode: block 5 holds two register sets, one per mode (Table 2-3). -/
def cvBlk : Nat := 21

/-- Which block numbers a stop kind has (Table 2-2). -/
def blockExists (st : Stop) (blk : Nat) : Bool :=
  match stopKind st with
  | .tile => decide (blk ≤ 9)
  | .memory => decide (blk ≤ 5) || decide (7 ≤ blk ∧ blk ≤ 9) || (decide (blk = 6) && decide (st.x.val % 4 = 0))
  | .io => decide (blk ≤ 5) || decide (7 ≤ blk ∧ blk ≤ 9) || (decide (blk = 6) && decide (st.die = 0 ∧ st.x = 2))
  | .ford => decide (blk ≤ 2) || decide (7 ≤ blk ∧ blk ≤ 9)
  | .cluster => decide (blk ≤ 4) || decide (7 ≤ blk ∧ blk ≤ 9)
  | .waystation => decide (blk ≤ 13)

/-- The register list that governs an offset of a block, with the base it is counted from (Table 2-2). -/
def regsAt (st : Stop) (blk off : Nat) : Nat × List RegDef :=
  match stopKind st, blk with
  | .tile, 0 => (0, any0Regs ++ lock0Regs)
  | _, 0 => (0, any0Regs)
  | .tile, 1 => (0, coreRegs)
  | .tile, 2 => (0, coreRegs)
  | .tile, 3 => (0, l2Regs)
  | .tile, 4 => (0, l2Regs)
  | .tile, 5 =>
    if 0x1000 ≤ off ∧ off < 0x3000 then (off / 0x40 * 0x40, wbqRegs) else (0, l3Regs)
  | .tile, 6 => if off < 0x4000 then (off / 0x1000 * 0x1000, intPageRegs) else (0, [])
  | .memory, 1 => (0, mcRegs)
  | .memory, 2 => (0, mcRegs)
  | .memory, 3 => (0, phyRegs)
  | .memory, 4 => (0, phyRegs)
  | .memory, 5 => (0, scrubRegs)
  | .memory, 6 => (0, stkRegs)
  | .io, 1 => (0, portRegs)
  | .io, 3 => (0, iotuRegs)
  | .io, 4 => (0, shTableRegs)
  | .io, 5 => (0, cxlRegs)
  | .io, 6 => (0, epRegs)
  | .io, 21 => (0, cvRegs)
  | .ford, 1 => (0, ford1Regs)
  | .ford, 2 => (0, ford2Regs)
  | .cluster, 1 => (off / 0x1000 * 0x1000, orGroupRegs)
  | .cluster, 2 => (0, cpRegs)
  | .cluster, 3 => (0, tcmwRegs)
  | .cluster, 4 => (off / 0x1000 * 0x1000, intPageRegs)
  | .waystation, 1 => (off / 0x800 * 0x800, mboxRegs)
  | .waystation, 2 => (0, shTableRegs)
  | .waystation, 3 => (0, wsCtlRegs)
  | .waystation, 4 => (0, supRegs)
  | .waystation, 5 => if off < 0x6000 then (off / 0x1000 * 0x1000, bandRegs) else (0, [])
  | .waystation, 6 =>
    if 0x100 ≤ off ∧ off < 0x900 then (0x100 + (off - 0x100) / 0x40 * 0x40, wchEntryRegs) else (0, wchRegs)
  | .waystation, 10 => (0, ledgerRegs)
  | .waystation, 11 => (0, waRegs)
  | .waystation, 12 => (0, fuseRegs)
  | .waystation, 13 => (0, tbaseRegs)
  | k, 7 => if k = .waystation ∧ 0x7000 ≤ off then (0, pmPkgRegs) else (0, pmScopeRegs)
  | _, 8 => (0, errRegs)
  | k, 9 =>
    let core := k = .tile ∧ off < 0x20
    (off / 0x10 * 0x10, if core then dseqCoreRegs else dseqRegs)
  | _, _ => (0, [])

/-- The register at an offset counted from its list's base, with its index in a repeated group. -/
def regIn (l : List RegDef) (o : Nat) : Option (RegDef × Nat) :=
  match l with
  | [] => none
  | r :: t =>
    if r.off ≤ o ∧ (o - r.off) % r.stride = 0 ∧ (o - r.off) / r.stride < r.cnt
    then some (r, (o - r.off) / r.stride) else regIn t o

/-- The register at an offset of a block. -/
def regAt (st : Stop) (blk off : Nat) : Option (RegDef × Nat) :=
  (regIn (regsAt st blk off).2 (off - (regsAt st blk off).1))

/-- The value of a register with each field at its reset value. -/
def fldsReset (l : List Fld) : Nat := (l.map fun f => f.rst * 2 ^ f.lo).sum

/-- Resets that differ from stop to stop: RT_LINK_STAT reads 3 for an absent link (Table 9-3), SH_CAP the table's size
(Table 15-7), MB_CTL the response interrupt of mailboxes 8 to 11 (Table 20-3). -/
def resetException (st : Stop) (blk off : Nat) : Option Nat :=
  if blk = 0 ∧ off = RT_LINK_STAT then
    some ((if st.x = 11 then 3 else 0) + (if st.x = 0 then 3 * 4 else 0) +
      (if st.y = 5 then 3 * 16 else 0) + (if st.y = 0 then 3 * 64 else 0))
  else if stopKind st = .waystation ∧ blk = 2 ∧ off = SH_CAP then some 0x200
  else if stopKind st = .waystation ∧ blk = 1 ∧ off % 0x800 = MB_CTL ∧ 8 ≤ off / 0x800 ∧ off / 0x800 ≤ 11 then some 0x10000
  else none

/-- The reset value of a register, and of the staging copy of a staged one (R77); zero where there is none. -/
def regReset (k : Nat) : Reg32 :=
  match stopOf (k / 0x400000) with
  | none => 0
  | some st =>
    let blk := k / 0x10000 % 64
    let off := k % 0x10000
    let o := if 0x8000 ≤ off ∧ off < 0xFFF0 then off - 0x8000 else off
    match resetException st blk o with
    | some v => BitVec.ofNat 32 v
    | none =>
      match regAt st blk o with
      | some (r, _) => BitVec.ofNat 32 (fldsReset r.flds)
      | none => 0

end Sys2Proof.Machine
end

