-- ==== Sys2Proof/Config.lean ====
section
/-!
DEFINITION. What one implementation fixes and the spec leaves open: constants without a body, so that
no proof can see a value of them.
-/

namespace Sys2Proof

/-- The free values: value number `n` that the part produces where the spec states none.  A step that
needs one applies this to the counter `fresh` of the state and advances the counter (log entry 1). -/
opaque Config.freeWord : Nat → Word

/-- Values the part is made with: fuses, serial numbers, the identity key digest (log entry 2).  The index
is the configuration address of the register that shows the value. -/
opaque Config.fuse : Nat → Reg32

/-- Whether the vector unit detects tininess after rounding: IEEE 754 leaves the choice and the spec does not make it (log
entry 6). -/
opaque Config.tinyAfterRounding : Bool

/-- Whether a fused multiply-add of zero, infinity and a quiet NaN sets NV: IEEE 754 leaves the choice (log entry 6). -/
opaque Config.fmaNanInvalid : Bool

/-- Whether a result that FTZ flushes sets UF (index 0) and NX (index 1): the spec does not say (log entry 6). -/
opaque Config.flushFlag : Nat → Bool

/-- An Outrider boot image of a firmware image (R644): its Outrider, TCM offset, start address, GO flag, bytes, and whether its
digest is the directory's. -/
structure OrImage where
  n : Fin 16
  off : Nat
  start : Word
  go : Bool
  data : List Byte
  ok : Bool
deriving DecidableEq, Repr

/-- What a firmware slot holds (R624, R644): version and SVN, whether the signature verifies, the Drover boot image and whether its
digest is the directory's, the Outrider boot images. -/
structure FwImage where
  version : Nat
  svn : Nat
  signed : Bool
  drover : List Byte
  droverOk : Bool
  outriders : List OrImage
deriving DecidableEq, Repr

/-- The firmware image that the bytes of a slot hold, none where they are no image: the spec does not lay the fields of an image
out (log entry 12). -/
opaque Config.image : List Byte → Option FwImage

/-- SHA-384 and the ECDSA P-384 check of a signature (key, message, signature), as their standards define them; the model does
not compute them (log entry 12). -/
opaque Config.sha384 : List Byte → List Byte
opaque Config.ecdsa : List Byte → List Byte → List Byte → Bool

/-- The bytes of the Waystation's boot ROM (log entry 12). -/
opaque Config.bootRom : List Byte

/-- The public key of the Omroth debug authority in the boot ROM (log entry 12). -/
opaque Config.debugKey : List Byte

end Sys2Proof
end

