-- ==== Sys2Proof/Machine/Maps.lean ====
section
/-!
DEFINITION. Sparse data by key: a list of key and value pairs in one canonical form, keys strictly rising
and no entry equal to what an unlisted key reads as.
-/

namespace Sys2Proof

/-- Sparse data by key. -/
abbrev SMap (α : Type) := List (Nat × α)

namespace Machine

/-- What key `k` reads as; `d` is what an unlisted key reads as. -/
def mapGet {α : Type} (d : Nat → α) (m : SMap α) (k : Nat) : α :=
  match m with
  | [] => d k
  | (j, v) :: r => if j = k then v else mapGet d r k

/-- The map with key `k` removed from its list. -/
def mapErase {α : Type} (m : SMap α) (k : Nat) : SMap α :=
  match m with
  | [] => []
  | (j, v) :: r => if j = k then mapErase r k else (j, v) :: mapErase r k

/-- The map with the entry `(k, v)` put in its place. -/
def mapInsert {α : Type} (m : SMap α) (k : Nat) (v : α) : SMap α :=
  match m with
  | [] => [(k, v)]
  | (j, u) :: r =>
    if k < j then (k, v) :: (j, u) :: r
    else if j = k then (k, v) :: r
    else (j, u) :: mapInsert r k v

/-- The map after writing `v` at key `k`; writing what an unlisted key reads as removes the entry. -/
def mapSet {α : Type} [DecidableEq α] (d : Nat → α) (m : SMap α) (k : Nat) (v : α) : SMap α :=
  match m with
  | [] => if v = d k then [] else [(k, v)]
  | e :: r =>
    if mapGet d (e :: r) k = v then e :: r
    else if v = d k then mapErase (e :: r) k else mapInsert (e :: r) k v

/-- The keys rise strictly from `lo` on and no entry holds what an unlisted key reads as. -/
def mapWfFrom {α : Type} [DecidableEq α] (d : Nat → α) (lo : Nat) (m : SMap α) : Bool :=
  match m with
  | [] => true
  | (j, v) :: r => decide (lo ≤ j) && decide (v ≠ d j) && mapWfFrom d (j + 1) r

/-- The canonical form of a map. -/
def mapWf {α : Type} [DecidableEq α] (d : Nat → α) (m : SMap α) : Bool := mapWfFrom d 0 m

/-- A set of numbers kept as a strictly rising list: membership. -/
def setHas (l : List Nat) (k : Nat) : Bool := l.contains k

/-- A set of numbers with `k` added in its place. -/
def setAdd (l : List Nat) (k : Nat) : List Nat :=
  match l with
  | [] => [k]
  | j :: r => if k < j then k :: j :: r else if j = k then j :: r else j :: setAdd r k

/-- A set of numbers with `k` removed. -/
def setDel (l : List Nat) (k : Nat) : List Nat := l.filter (· ≠ k)

end Machine

end Sys2Proof
end

