-- ==== Sys2Proof/Machine/State.lean ====
section
/-!
DEFINITION. The state of one SK192 package as plain data, and the package right after reset.
-/

namespace Sys2Proof.Machine

/-- The reasons a step can stop: none.  Every command of the table has the effect the spec gives it, and a
command that names nothing of the package, or that cannot come about in the state, changes nothing (log entry 3).
The one reason stands for a machine that is not part of a package. -/
inductive Fault where
  /-- Raised by nobody; safe. -/
  | noPackage
deriving DecidableEq, Repr

/-- The reasons a command has no meaning. -/
inductive Refusal where
  /-- Raised by exec for a command whose meaning is not written yet; safe. -/
  | notModelled (mnemonic : String)
deriving DecidableEq, Repr

/-! ## Threads -/

/-- An exclusive reservation (R148): the address and size of its LDX. -/
structure Resv where
  pa : Nat
  n : Nat
deriving DecidableEq, Repr

/-- TSTATE.STATE (Table 5-19), OR_STAT.STATE (Table 11-8). -/
inductive RunState where
  | stopped | running | waiting | halted
deriving DecidableEq, Repr

/-- A leaf that a walk used: the physical address of its entry, for stage 1 under stage 2 the guest physical address of the
entry, its value and its level. -/
structure TLeaf where
  ea : Nat
  gpa : Nat
  val : Nat
  lvl : Nat
deriving DecidableEq, Repr

/-- One committed store that waits to be written (R181): its place in the order, the virtual and the physical address, the bytes,
whether it is the lower half of a split store, whether it is a vector access that never forwards,
in a locked tile whether its retire group has compared good (R467), whether it is a release (R216), and the type of its page (R241):
0 WB, 1 NT, 2 NC. -/
structure StoreEnt where
  seq : Nat
  va : Nat
  pa : Nat
  bytes : List (Byte)
  half : Bool
  vec : Bool
  good : Bool
  rel : Bool
  attr : Nat
deriving DecidableEq, Repr

/-- One access of a memory instruction: its virtual and physical address, its size, for a store its bytes, the half of a split access
that it belongs to, and the type of its page as in `StoreEnt`. -/
structure MAcc where
  va : Nat
  pa : Nat
  n : Nat
  data : List (Byte)
  half : Nat
  attr : Nat
deriving DecidableEq, Repr

/-- What a memory instruction does with the bytes its accesses return. -/
inductive MFin where
  /-- A store writes no register. -/
  | none
  /-- A load writes `n` bytes, sign-extended or zero-extended, to an x register. -/
  | x (rd : Reg) (n : Nat) (sext : Bool)
  /-- A vector load writes the listed elements of `ebytes` bytes each of a v register whose other elements are `base`. -/
  | v (vd : Reg) (ebytes : Nat) (elems : List Nat) (base : Vec)
deriving DecidableEq, Repr

/-- What is recorded of an instruction at its retirement (R560, R568). -/
structure RetInfo where
  word : BitVec 32
  va : Nat
  pa : Nat
  events : List Nat
  flags : Nat
deriving DecidableEq, Repr

/-- A memory instruction in progress: the accesses still to be made, the bytes returned so far, what becomes of them,
what its retirement records, and the pages in whose leaves D is set when it completes (R248): address and leaves of both stages. -/
structure MemOp where
  /-- 0 a load or store, 1 LDX, 2 STX, 16 + OP an AMO. -/
  kind : Nat
  accs : List MAcc
  got : List (Byte)
  fin : MFin
  info : RetInfo
  dirty : List (Nat × Option TLeaf × Option TLeaf)
deriving DecidableEq, Repr

/-- What an instruction that has begun and not yet retired waits for. -/
inductive Park where
  /-- A load parked until the store with this number has been written (R182). -/
  | replay (seq : Nat) (op : MemOp)
  /-- A device-class access whose response has not come. -/
  | device (op : MemOp)
  /-- A waybill operation at a slice of another package, with its buffer address, whether it is a GET, and the pages its message dirties. -/
  | waybill (rd : Reg) (get : Bool) (buf n : Nat) (info : RetInfo) (dirty : List (Nat × Option TLeaf × Option TLeaf))
deriving DecidableEq, Repr

/-- A suspended WAIT (R126): its destination, its deadline and the word. -/
structure WaitSt where
  rd : Reg
  deadline : Word
  info : RetInfo
deriving DecidableEq, Repr

/-- An outstanding waybill operation of an Outrider or the Waystation (R163): its number, its destination, its buffer where it is a
GET, and, once the home slice has answered, the result and the message. -/
structure NbOp where
  tag : Nat
  rd : Reg
  get : Bool
  buf : Nat
  n : Nat
  status : Option Nat
  data : List (Byte)
deriving DecidableEq, Repr

/-- The context seal (Table 5-10) as its components; the function of them is not disclosed (R195). -/
structure Seal where
  world : World
  level : Level
  asid : Nat
  vmid : Nat
  key : Word
deriving DecidableEq, Repr

/-- The state of one hardware thread, Outrider or Waystation core. -/
structure Thread where
  x : Vector (Word) 32
  p : Vector Bool 8
  v : Vector (Vec) 32
  m : Vector (BitVec 32) 8
  pc : Word
  level : Level
  world : World
  im : Bool
  /-- State registers by number (R97). -/
  sreg : SMap (Word)
  /-- Pending Sync writes in program order (R101), with the number of instructions still to come before a write
  takes effect on an Outrider in Bennak mode (R392). -/
  pend : List (Nat × Word × Nat)
  resv : Option Resv
  resvLost : Bool
  run : RunState
  wait : Option WaitSt
  /-- A WAIT that recovery has discarded and that is to be executed again, with whether the tile's mode has changed since (R126). -/
  modeWait : Option Bool
  park : Option Park
  /-- Committed stores, oldest first (R181), or an Outrider's store buffer (R379). -/
  stores : List StoreEnt
  /-- Waybill operations in progress on an Outrider or the Waystation. -/
  nb : List NbOp
  /-- A start captured and not yet done (R207). -/
  startAt : Option (Word)
  stopReq : Bool
  /-- A halt request that waits for a boundary or an enabled world (R209). -/
  haltReq : Bool
  /-- A machine check to be taken at the next boundary: its level is found when taken (R447). -/
  mchk : List (Nat × Nat × Nat)
  /-- Guest entry values of the counters (R571). -/
  guestE : SMap (BitVec 48)
  /-- A sample selection in progress (R567): comparators and whether it is precise. -/
  smpSel : Option (Nat × Bool)
  smpDropped : Bool
  /-- The return stack: address and seal of each entry, and the top pointer (R191). -/
  rstack : Vector (Word × Option Seal) 32
  rtop : BitVec 5
  /-- On an Outrider or the Waystation, the word of the slot A instruction whose group the next one may join (R375). -/
  slotA : Option (BitVec 32)
deriving DecidableEq, Repr

/-- One entry of a core's predictors (R195): structure 0 direction, 1 target, 2 dependence; its seal, the branch
or load and the target or direction. -/
structure PredEnt where
  kind : Nat
  tag : Seal
  pc : Word
  val : Word
deriving DecidableEq, Repr

/-- One cached translation (R253), combined across both stages at the smaller page size: the regime (0 guest, 1 host,
2 secure) and identifiers of its context, the input page, the output page and the leaves it came from. -/
structure TlbEnt where
  regime : Nat
  vmid : Nat
  asid : Nat
  base : Nat
  logSize : Nat
  out : Nat
  s1 : Option TLeaf
  s2 : Option TLeaf
deriving DecidableEq, Repr

/-- A cached pointer of a table walk (R253): the stage, the regime and identifiers of its context as in `TlbEnt`, the level of its
entry, the first input address of its span and the table it names. -/
structure WcEnt where
  stage : Nat
  regime : Nat
  vmid : Nat
  asid : Nat
  lvl : Nat
  base : Nat
  table : Nat
deriving DecidableEq, Repr

/-- What one Drover core holds beside its threads: its seal key and generation, its predictors, its cached translations and its walk
cache. -/
structure CoreSt where
  key : Word
  sealGen : BitVec 32
  preds : List PredEnt
  tlb : List TlbEnt
  wc : List WcEnt
deriving DecidableEq, Repr

/-- What a TLB.INV removes (Tables 7-7, 7-8): scope 0 VA, 1 AS, 2 VM, 3 TBL; the regime as in `TlbEnt`, the identifiers, the
address and the width of the regime's addresses. -/
structure InvMsg where
  scope : Nat
  regime : Nat
  vmid : Nat
  asid : Nat
  addr : Nat
  width : Nat
deriving DecidableEq, Repr

/-- A TLB.INV broadcast that is not acknowledged everywhere (R258, R259): its number, the thread that sent it (none for another
package's, with that package's tag), what it removes and the places still to answer: a core by its key, the translation unit of
port n as 512 + n, package p as 1024 + p. -/
structure Bcast where
  id : Nat
  origin : Option Hart
  tag : Nat
  msg : InvMsg
  left : List Nat
deriving DecidableEq, Repr

/-- Threads, cores and what they share. -/
structure Cpu where
  threads : SMap Thread
  cores : SMap CoreSt
  seqNo : Nat
  bcasts : List Bcast
deriving DecidableEq, Repr

/-! ## Memory -/

/-- Memory by physical address: what is listed, and the poisoned 8-byte granules (R445). -/
structure MemSt where
  bytes : List Host.Cell
  poison : List Nat
deriving DecidableEq, Repr

/-! ## Register space -/

/-- Who waits for the response of a register access. -/
inductive Requester where
  /-- A row of the table, whose response is kept in the state. -/
  | env
  /-- A thread whose load or store is parked. -/
  | hart (h : Hart)
  /-- A Camp watch entry. -/
  | watch (die : Fin 2) (n : Nat)
  /-- Another package, by its message's tag. -/
  | pkg (p tag : Nat)
deriving DecidableEq, Repr

/-- A register access that stalls until its domain is ready (R65). -/
structure HeldAcc where
  addr : Nat
  init : Init
  write : Option (Reg32)
  who : Requester
deriving DecidableEq, Repr

/-- The response of a register access (Table 2-8). -/
structure RegResp where
  code : Nat
  data : Reg32
deriving DecidableEq, Repr

/-- Registers of register space. -/
structure RegSt where
  vals : SMap (Reg32)
  /-- Latched low halves of writable 64-bit values (R76). -/
  latch : SMap (Option (Reg32))
  /-- Accesses stalled on a domain (R65). -/
  held : List HeldAcc
  /-- Writes to staged fields held during a commit (R80): register key and value. -/
  heldStage : List (Nat × Reg32)
  /-- Stops, by index, on the path to which the next access meets a parity or CRC failure (R63): an input of the block. -/
  pathErr : List Nat
  /-- The response of the latest access by a row of the table. -/
  resp : RegResp
deriving DecidableEq, Repr

/-! ## Counters, interrupts and errors -/

/-- Performance counters (R559) by scope and event, their overflow bits, their shadows, the values of commands in progress. -/
structure PmSt where
  cnt : SMap (BitVec 48)
  ovf : List Nat
  shd : SMap (BitVec 48)
  /-- The package command in progress (R575): freeze value, snapshot and the time it acts. -/
  cmd : Option (Bool × Bool × Nat)
deriving DecidableEq, Repr

/-- Interrupt units and shared tables. -/
structure IntSt where
  /-- Latched private sources that are pending: thread key × 64 + number. -/
  pend : List Nat
  /-- Running-priority stacks (R497) by thread key × 2 + world, top first. -/
  runStk : SMap (List Nat)
  /-- Shared sources that are pending: table × 512 + index. -/
  shPend : List Nat
  /-- Shared lists (R495) by thread key, oldest first: table × 512 + index. -/
  shList : SMap (List Nat)
deriving DecidableEq, Repr

/-- A report on its way to the ledger (R454): the stop and path, and the record's words or the merge. -/
structure Report where
  stop : Stop
  path : Nat
  merge : Bool
  source : Nat
  locus : Nat
  sev : Nat
  inj : Bool
  secure : Bool
  ty : Nat
  addr : Option Nat
  synd : Nat
  ts : Nat
deriving DecidableEq, Repr

/-- Error collection. -/
structure ErrSt where
  /-- ERR_SRC_CFG of each source by stop and identifier, where it differs from Table 13-2. -/
  cfg : SMap (Reg32)
  /-- Band controllers' report queues (R455) by die × 6 + band, oldest first, and whether a report was lost. -/
  queues : SMap (List Report)
  lost : List Nat
  /-- Notifications latched while the package is out of Run (R441): stop, source, owning world. -/
  latched : List (Nat × Nat × World)
  /-- The secure copy of ERR_SRC_SEL by stop (R462). -/
  selS : SMap (Reg32)
deriving DecidableEq, Repr

/-! ## Package, timebase and power -/

/-- What is true of the package as a whole. -/
structure PkgSt where
  /-- Packages that are members of the node (PKG_TOPO.PKG_PRESENT). -/
  members : Nat
  /-- Stacks present and trained (PKG_TOPO.STACK_PRESENT). -/
  stackSet : Nat
  /-- Ports enabled (PKG_TOPO.PORT_PRESENT). -/
  portSet : Nat
  /-- PKG_MEMMAP.MODE, the mapping mode applied. -/
  interleaved : Bool
  /-- Retired slices by stop index (R311). -/
  retired : List Nat
  /-- Depot ways assigned to the secure world: stop index × 16 + way (R309). -/
  secWays : List Nat
  /-- Ways of each slice that are depot SRAM, by stop index (R307). -/
  depot : SMap Nat
  /-- Fuse-absent cores, by core key (R490, R494). -/
  noCore : List Nat
  /-- What a package's decode holds of the other members of the node (R35), by package: stacks absent, as bits; ways that are depot
  SRAM, by package × 256 + stop index; CXL windows as package, number 4 n + w, base and size (R433). -/
  farStacks : SMap Nat
  farDepot : SMap Nat
  farCxl : List (Nat × Nat × Nat × Nat)
deriving DecidableEq, Repr

/-- The timebase and its discipline (R118 to R125). -/
structure TbSt where
  tb : Word
  /-- Rate correction in force, in ppm (R124). -/
  corr : Int
  /-- Consecutive edges within 2 ticks. -/
  good : Nat
  /-- A load of the timebase at a later tick (R125): the tick and the new value. -/
  load : Option (Nat × Nat)
  /-- An edge has been accepted since the last loss of edges (Table 3-15). -/
  seen : Bool
deriving DecidableEq, Repr

/-! ## Waybill queues, ports and messages to other packages -/

/-- A waybill operation of a locked pair whose effect is provisional (R362): the thread's key, the queue as stop index × 128 + slot,
whether it is a GET, the message's number, and for a GET the message. -/
structure WbProv where
  hart : Nat
  queue : Nat
  get : Bool
  num : Nat
  data : List Byte
deriving DecidableEq, Repr

/-- Waybill queues beyond their registers (chapter 10): enabled queues by stop index × 128 + slot, provisional operations oldest first,
the holes that cancelled messages leave, as queue and number, and queues one of whose sides had its single mode violated
(R358), as queue × 2 with 1 for the GET side. -/
structure WbSt where
  enabled : List Nat
  prov : List WbProv
  holes : List (Nat × Nat)
  viol : List Nat
deriving DecidableEq, Repr

/-- An outbound non-posted request of a port that has not completed (R586): configuration reads and writes complete
in their own way. -/
structure OutReq where
  port : Nat
  tag : Nat
  who : Requester
  /-- 0 memory read, 1 AtomicOp, 2 configuration read, 3 configuration write -/
  kind : Nat
  addr : Nat
  n : Nat
  data : List (Byte)
  amo : Nat
deriving DecidableEq, Repr

/-- A posted write that a port has accepted and not yet sent (R587). -/
structure OutPosted where
  port : Nat
  who : Requester
  addr : Nat
  data : List (Byte)
deriving DecidableEq, Repr

/-- An inbound request of a port that has not been performed (R591), in its order of arrival: 0 a write, 1 a read, 2 an AtomicOp and its
operation; the requester, address, length and data, whether it carries Relaxed Ordering, its stream (R590), and, where it has gone to
another package, that package and the message's tag. `hdr` is the header of the endpoint face that a reset has replaced since the request
was received (R603). -/
structure InReq where
  port : Nat
  op : Nat
  amo : Nat
  rid : Nat
  addr : Nat
  len : Nat
  data : List Byte
  ro : Bool
  stream : Nat
  sent : Option (Nat × Nat)
  hdr : Option (SMap Reg32)
deriving DecidableEq, Repr

/-- Ports: requests in progress, posted writes accepted and those sent (R220), the configuration space of each root port by port × 1,024 + doubleword, that of the
endpoint face by doubleword, whether an FLR is in progress, the Manifest table (R598), and the completion of each port's latest inbound
non-posted request: 0 successful, 1 UR, 2 CA, the data and whether it is poisoned. -/
structure IoSt where
  reqs : List OutReq
  posted : List OutPosted
  wire : List OutPosted
  nextTag : Nat
  rp : SMap Reg32
  ep : SMap Reg32
  flr : Bool
  rom : List Byte
  cpl : SMap (Nat × List Byte × Bool)
  /-- PERST_N is held. -/
  perst : Bool
  /-- Inbound requests that wait, oldest first. -/
  inq : List InReq
deriving DecidableEq, Repr

/-- A message to another package over a Caravan link (Table 9-9): its opcode number, destination locus, tag, address and data, and the
source identifier of a class C request (R224), none for class D. -/
structure NodeMsg where
  op : Nat
  dst : Nat
  tag : Nat
  addr : Nat
  arg : Nat
  data : List (Byte)
  src : Option Nat
deriving DecidableEq, Repr

/-- One end of a Caravan link (R330, R331): the SEQ of its next flit and of the last flit received good and in order, the SEQs in its
replay buffer, slots in use by channel, whether it has sent a NAK and discards until the replay, the ACKSEQ of the last NAK
received and how many replays from it have failed, times of retrains, flits received since the last acknowledgement, and
whether IDENT has come. -/
structure CvLink where
  tx : Nat
  rx : Nat
  buf : List Nat
  used : SMap Nat
  nak : Bool
  lastNak : Option Nat
  fails : Nat
  trains : List Nat
  unacked : Nat
  ident : Bool
deriving DecidableEq, Repr

/-- Links of the three networks, and messages to other packages: those that wait for a credit, those sent, those that wait for an
answer. -/
structure LinkSt where
  out : List NodeMsg
  sent : List NodeMsg
  waiting : List (NodeMsg × Option Hart)
  nextTag : Nat
  /-- Lines of other packages that this package holds, by line number, with the granted state (Table 9-9): 0 S, 1 E, 2 M, 3 O; 4 is
  the answer to a ReadOnce, which serves one access. -/
  held : List (Nat × Nat)
  /-- Lines of this package that other packages hold: line number, package, state as in `held`. -/
  lent : List (Nat × Nat × Nat)
  /-- Caravan links by port. -/
  cv : SMap CvLink
  /-- Consecutive failed replays (R320) of a mesh link by stop index × 4 + direction, of a Ford pair's end by 65,536 + die × 4 + pair. -/
  fails : SMap Nat
  /-- Links that are being retrained (R323), by the same numbers. -/
  training : List Nat
  /-- The dead partners that each other package has announced (R336), as bits. -/
  deadOf : SMap Nat
  /-- Whether the package waits at node formation (R335, step 3). -/
  forming : Bool
  /-- Ports whose inbound request waits for an answer of another package, by the message's tag. -/
  ports : SMap Nat
  /-- Loci of Interrupt messages that a Caravan stop has discarded: the protocol errors it records (R490). -/
  perr : List Nat
deriving DecidableEq, Repr

/-- The response of a device-class load, AMO or STX of a locked thread, kept until its group compares good (R471): the
operation, address, size and operand it was sent with, and what came back: bytes, or a KIND and CODE of Table 3-12, or 16 and the
poisoned address, with the address and half of the access that the error answers. -/
structure Latch where
  op : Nat
  pa : Nat
  n : Nat
  arg : List (Byte)
  resp : List (Byte)
  err : Option (Nat × Nat)
  fpa : Nat
  fhalf : Nat
deriving DecidableEq, Repr

/-- A retire group of a locked thread: the state after it, the number after its last store, what it is (1 a waybill operation, 2 an
operation whose response is in the replay latch, 3 a refresh of the cairn (R474), 0 any other), and its signature (R468). -/
structure LockGroup where
  after : Thread
  seq : Nat
  kind : Nat
  sig : BitVec 64
deriving DecidableEq, Repr

/-- Locked tiles (chapter 14). -/
structure LockSt where
  /-- The cairn: the state of a thread after its latest group that compared good, by thread key (R473). -/
  cairn : SMap Thread
  /-- Retire groups that have not been compared, oldest first. -/
  groups : SMap (List LockGroup)
  /-- A thread's request on its way to comparison: 1 presented, 2 compared good (R467). -/
  req : SMap Nat
  latch : SMap (Option Latch)
  /-- Cairns with an uncorrectable word that is not refreshed (R474), by thread key. -/
  bad : List Nat
  /-- Times of the mismatches of a pair in its window, by stop index (R478). -/
  window : SMap (List Nat)
  /-- Lines that an AMO or STX of a pair has pinned (R472): thread key and line number. -/
  pins : List (Nat × Nat)
  /-- Provisional waybill operations of a thread whose group has compared good and whose confirmation has not arrived (R362). -/
  confirm : SMap Nat
  /-- The mismatch that a tile recovers from, by stop index: its kind, thread and core (Table 14-7), and whether it makes a
  persistent-fault stop (R478). -/
  event : SMap (Option (Nat × Nat × Nat × Bool))
  /-- The mode command in progress, by stop index (R465). -/
  cmd : SMap Nat
deriving DecidableEq, Repr

/-! ## Caches -/

/-- A line in a way of an L3 slice: its number, whether it is dirty with respect to memory, its age (R286). -/
structure L3Line where
  line : Nat
  dirty : Bool
  age : Nat
deriving DecidableEq, Repr

/-- A snoop-filter entry (R280, R283): its line, up to four core numbers while precise with the owner and its state (2 E, 3 O, 4 M),
the group vector while coarse, the packages that hold the line, a bit per die whose Outriders' line caches may hold it (R389), and
its age. -/
structure SfEnt where
  line : Nat
  coarse : Bool
  cores : List Nat
  owner : Option (Nat × Nat)
  vec : Nat
  pkgs : Nat
  courier : Nat
  age : Nat
deriving DecidableEq, Repr

/-- An entry of the eviction buffer (R291): its line, whether its write has been issued, and the requests that wait for the
acknowledgement (R292): operation, agent and whether the access is non-temporal. -/
structure EvbEnt where
  line : Nat
  issued : Bool
  waiting : List (Nat × Agent × Bool)
deriving DecidableEq, Repr

/-- A stream of the stream detector (R288): its page, its last line, whether it rises, its run of misses. -/
structure Strm where
  page : Nat
  last : Nat
  up : Bool
  n : Nat
deriving DecidableEq, Repr

/-- An L3 slice: the array by set × 12 + way, the victim pointer, the snoop filter by set × 24 + way with its pointer, the eviction
buffer, fills that wait for room in it (line, dirty, age), the pack buffer (line, the slice cycle in which its timer reaches zero), the streams,
prefetches whose data has not returned, and the requests accepted that wait for a snoop: operation, agent and line (R284, R285). -/
structure SliceSt where
  arr : SMap (Option L3Line)
  ptr : Nat
  sf : SMap (Option SfEnt)
  sfPtr : Nat
  evb : List EvbEnt
  fills : List (Nat × Bool × Nat)
  pack : List (Nat × Nat)
  streams : List Strm
  pref : List Nat
  waits : List (Nat × Agent × Nat)
deriving DecidableEq, Repr

/-- Caches (chapter 8): slices by stop index; the lines of each L2 by core × 32,768 + set × 16 + way, as line and state (1 S, 2 E,
3 O, 4 M; 0 none); the lines of each L1 by ((core × 2 + side) × 128 + set) × 8 + way, side 0 the instruction cache, as line + 1; the
pseudo-LRU trees (R276) by core × 4,096 + set, an L2's sets from 0, an instruction cache's from 2,048, a data cache's from 2,176; ways that disable themselves (R295) by stop index × 64 + place; slices that retire (R311) and the requests
they have answered with Retry: operation, agent, line. -/
structure CacheSt where
  slices : SMap SliceSt
  l2 : SMap (Nat × Nat)
  l1 : SMap Nat
  plru : SMap Nat
  disab : List Nat
  retiring : List Nat
  retries : List (Nat × Agent × Nat)
deriving DecidableEq, Repr

/-! ## HBM -/

/-- A request at a channel controller (R410): the line, whether it is a write, the source identifier of a class C request, whether it
came on the Courier channel, and whether it is a corrective rewrite (R432). -/
structure HbmReq where
  line : Nat
  write : Bool
  src : Option Nat
  courier : Bool
  rewrite : Bool
deriving DecidableEq, Repr

/-- HBM stacks and their controllers (chapter 12).  A channel is stack × 8 + its number, a pseudo-channel channel × 2 + PC. -/
structure HbmSt where
  /-- Courier ports that hold panic: die × 6 + stack (R398). -/
  panic : List Nat
  /-- The open row of a bank: pseudo-channel × 48 + SID × 16 + 4 BG + BA (R414). -/
  rows : SMap (Option Nat)
  /-- Refreshes owed by a pseudo-channel (R419). -/
  owed : SMap Nat
  /-- Error counts of a lane, in its window and in all: pseudo-channel × 72 + lane (R428). -/
  lanes : SMap (Nat × Nat)
  /-- The lane that a channel's PHY is remapping, as PC × 72 + lane (R429). -/
  remap : SMap (Option Nat)
  /-- Rows redirected to spares, by channel, as SPARE_ROW names them (R430). -/
  spared : SMap (List Nat)
  /-- The row a controller is sparing, and those that wait (R430). -/
  sparing : SMap (Option Nat)
  queued : SMap (List Nat)
  /-- Times of a channel's command-parity failures in the last millisecond (R424). -/
  capar : SMap (List Nat)
  /-- What a stack is doing: 1 TRAIN, 2 RESTORE, 3 RETRAIN (Table 12-8). -/
  work : SMap Nat
  /-- Saved training of a stack: serial number and temperature (R423). -/
  saved : SMap (Nat × Nat)
  /-- The IEEE 1500 instruction and length, and stacks whose port shifts (Table 12-8). -/
  w1500 : SMap (Nat × Nat)
  shifting : List Nat
  /-- Requests in the bank queues of a pseudo-channel, and those of a channel that wait at its memory stop or, behind a full staging
  buffer, in the mesh (R410): oldest first. -/
  queue : SMap (List HbmReq)
  stage : SMap (List HbmReq)
  /-- Lines whose read bursts a pseudo-channel has issued and whose data has not returned. -/
  out : SMap (List Nat)
  /-- The column and row pointers of a pseudo-channel (R412). -/
  ptrs : SMap (Nat × Nat)
  /-- Column commands to a bank since its latest activate (R414). -/
  hits : SMap Nat
  /-- Pseudo-channels in write drain (R415). -/
  drain : List Nat
  /-- Lines that memory holds with the poison marker while a cache holds them clean (R432). -/
  marked : List Nat
deriving DecidableEq, Repr

/-! ## Outriders -/

/-- An Outrider beyond its thread: its line cache by entry, as line and whether locked (R387, R388), the next entry to replace, the
line-cache command in progress with its line, and the stacks for which a read of it has been outstanding for PANIC_AGE (R397). -/
structure OrSt where
  lc : SMap (Option (Nat × Bool))
  ptr : Nat
  cmd : Option (Nat × Nat)
  aged : List Nat
deriving DecidableEq, Repr

/-! ## I/O translation -/

/-- An I/O translation unit: cached context entries by requester as four doublewords (R268), cached translations and pointers with
their requester, the fault queue of words and addresses (R270), and an invalidation in progress (R271): its requester, none for all. -/
structure IotuSt where
  ctx : List (Nat × List Nat)
  tlb : List (Nat × TlbEnt)
  wc : List (Nat × WcEnt)
  flt : List (Nat × Nat)
  inv : Option (Option Nat)
deriving DecidableEq, Repr

/-! ## Power -/

/-- A Camp watch entry beyond its registers (R527): milliseconds since its latest sample, and the masked value of that sample, none before
the first one. -/
structure WchSt where
  age : Nat
  last : Option Nat
deriving DecidableEq, Repr

/-- Power and temperature beyond their registers (chapter 16); a band is die × 6 + its number.  Frequencies are in 100 MHz. -/
structure PowSt where
  /-- The grant of each band under the power limit (R509). -/
  grant : SMap Nat
  /-- The thermal limit of each band and the time of its latest step (R530). -/
  therm : SMap (Nat × Nat)
  /-- The latest temperature of each stop, by stop index. -/
  temps : SMap Nat
  /-- Bands that wait for the regulator to report a higher voltage (R510). -/
  volt : List Nat
  /-- Rails of a die below 92 % of nominal (R531): die × 6 + band, 0 for VDD_UNC. -/
  droop : List Nat
  /-- Camp watch entries, by die × 32 + entry. -/
  wch : SMap WchSt
  /-- Wake events latched during an entry, oldest first: kind and argument (R522). -/
  latched : List (Nat × Nat)
  /-- Domains that a band is to gate once their wake has completed (R29): stop index × 16 + domain. -/
  gates : List Nat
deriving DecidableEq, Repr

/-- A Camp watch entry that has not been sampled. -/
def WchSt.initial : WchSt := ⟨0, none⟩

/-- A mailbox command that the Waystation has begun (R616): its status, response payload, whether it runs in the background, and, for a
package entry, the timebase at entry. -/
structure MbRun where
  status : Nat
  data : List Byte
  bg : Bool
  t0 : Nat
deriving DecidableEq, Repr

/-- An event record of the Waystation's ring (GET_EVENTS): timebase, kind, locus, source and whether its world is secure. -/
structure WsEvent where
  tb : Nat
  kind : Nat
  locus : Nat
  source : Nat
  secure : Bool
deriving DecidableEq, Repr

/-- A firmware update in progress (R622): 0 none, 1 begun, 2 verified; component, length and the bytes so far. -/
structure FwuSt where
  stage : Nat
  comp : Nat
  len : Nat
  data : List Byte
deriving DecidableEq, Repr

/-- The Waystation beyond its registers: BUSY mailboxes in order of submission and the commands begun; the event ring, newest last, and
the number of its next record; the update in progress; the flash; measurements by index (Table 17-9); SPDM connection states
(R556) by mailbox, 16 for the sideband; the sideband's endpoint identifier and dynamic address, the messages it has sent, and to
whom mailboxes 12 and 13 answer; a RESET command whose reset follows: kind, stop, domain; the rail group coming up (R637); the path
of the boot in progress: 1 cold, 2 warm, 3 Dormant exit; a warm-reset trigger latched during boot or a package entry, by its
RST_CAUSE kind (R642). -/
structure WsSt where
  order : List Nat
  run : SMap (Option MbRun)
  events : List WsEvent
  evNext : Nat
  fwu : FwuSt
  flash : Flash
  measure : SMap (List Byte)
  spdm : SMap Nat
  eid : Nat
  addr : Nat
  sent : List (List Byte)
  peer : SMap Nat
  reset : Option (Nat × Nat × Nat)
  rail : Nat
  path : Nat
  trigger : Option Nat
deriving DecidableEq, Repr

/-- A flash that has been erased. -/
def flashErased : Flash := ⟨false, [], [], [], [], [], false, false, [], []⟩

/-- The Waystation before power. -/
def WsSt.initial : WsSt := ⟨[], [], [], 0, ⟨0, 0, 0, []⟩, flashErased, [], [], 0, 0, [], [], none, 0, 0, none⟩

/-- The state of a package. -/
structure State where
  /-- Commands that wait, first in, first out. -/
  pending : List Instr
  /-- How many free values have been used (log entry 1). -/
  fresh : Nat
  reg : RegSt
  cpu : Cpu
  mem : MemSt
  pm : PmSt
  intr : IntSt
  err : ErrSt
  pkg : PkgSt
  tbase : TbSt
  wb : WbSt
  io : IoSt
  link : LinkSt
  lock : LockSt
  cache : CacheSt
  hbm : HbmSt
  /-- Outriders by package-wide number. -/
  orr : SMap OrSt
  iotu : SMap IotuSt
  pow : PowSt
  ws : WsSt
deriving DecidableEq, Repr

/-- What a thread holds when nothing has been written to it: Table 3-19, with the state registers at their reset values. -/
def Thread.initial : Thread where
  x := Vector.replicate 32 0
  p := (Vector.replicate 8 false).set 0 true
  v := Vector.replicate 32 0
  m := (Vector.replicate 8 0).set 0 0xFFFFFFFF
  pc := 0
  level := .m
  world := .secure
  im := true
  sreg := []
  pend := []
  resv := none
  resvLost := false
  run := .stopped
  wait := none
  modeWait := none
  park := none
  stores := []
  nb := []
  startAt := none
  stopReq := false
  haltReq := false
  mchk := []
  guestE := []
  smpSel := none
  smpDropped := false
  rstack := Vector.replicate 32 (0, none)
  rtop := 0
  slotA := none

/-- What a core holds when nothing has happened to it. -/
def CoreSt.initial : CoreSt where
  key := 0
  sealGen := 0
  preds := []
  tlb := []
  wc := []

/-- Caches that hold nothing. -/
def CacheSt.initial : CacheSt := ⟨[], [], [], [], [], [], []⟩

/-- An Outrider whose line cache holds nothing. -/
def OrSt.initial : OrSt := ⟨[], 0, none, []⟩

/-- The package after a cold reset, before PWRGOOD rises: every register at its reset value, nothing in memory, every
thread stopped, nothing waiting. -/
def State.reset : State where
  pending := []
  fresh := 0
  reg := ⟨[], [], [], [], [], ⟨0, 0⟩⟩
  cpu := ⟨[], [], 0, []⟩
  mem := ⟨[], []⟩
  pm := ⟨[], [], [], none⟩
  intr := ⟨[], [], [], []⟩
  err := ⟨[], [], [], [], []⟩
  pkg := ⟨0, 0, 0, false, [], [], [], [], [], [], []⟩
  tbase := ⟨0, 0, 0, none, false⟩
  wb := ⟨[], [], [], []⟩
  io := ⟨[], [], [], 0, [], [], false, [], [], false, []⟩
  link := ⟨[], [], [], 0, [], [], [], [], [], [], false, [], []⟩
  lock := ⟨[], [], [], [], [], [], [], [], [], []⟩
  cache := CacheSt.initial
  hbm := ⟨[], [], [], [], [], [], [], [], [], [], [], [], [], [], [], [], [], [], [], []⟩
  orr := []
  iotu := []
  pow := ⟨[], [], [], [], [], [], [], []⟩
  ws := WsSt.initial

end Sys2Proof.Machine
end

