-- ==== Sys2Proof/Machine/Regs.lean ====
section
/-!
DEFINITION. Reading and changing the parts of the state: registers and their fields, threads, free values, the package's
number, the debug enables and the timebase.
-/

namespace Sys2Proof.Machine

/-! ## Registers as hardware sees them -/

/-- The value of the register at `off` of block `blk` of a stop. -/
def rget (s : State) (st : Stop) (blk off : Nat) : Reg32 := mapGet regReset s.reg.vals (rkey st blk off)

/-- The state with that register holding `v`. -/
def rput (s : State) (st : Stop) (blk off : Nat) (v : Reg32) : State :=
  { s with reg := { s.reg with vals := mapSet regReset s.reg.vals (rkey st blk off) v } }

/-- A field of a register. -/
def rfld (s : State) (st : Stop) (blk off lo w : Nat) : Nat := getF (rget s st blk off) lo w

/-- The state with a field of a register holding `v`. -/
def rputF (s : State) (st : Stop) (blk off lo w v : Nat) : State :=
  rput s st blk off (setF (rget s st blk off) lo w v)

/-- Bit `i` of a register. -/
def rbit (s : State) (st : Stop) (blk off i : Nat) : Bool := getB (rget s st blk off) i

/-- The state with bit `i` of a register holding `b`. -/
def rsetB (s : State) (st : Stop) (blk off i : Nat) (b : Bool) : State := rputF s st blk off i 1 (b2n b)

/-- The state with a saturating counter field advanced by `n`. -/
def rsat (s : State) (st : Stop) (blk off lo w n : Nat) : State :=
  rputF s st blk off lo w (satAdd w (rfld s st blk off lo w) n)

/-- The state with the register pair at `off` and `off + 4` holding a 64-bit value (R75). -/
def rput64 (s : State) (st : Stop) (blk off v : Nat) : State :=
  rput (rput s st blk off (BitVec.ofNat 32 v)) st blk (off + 4) (BitVec.ofNat 32 (v / 2 ^ 32))

/-- The 64-bit value of the register pair at `off` and `off + 4` (R75). -/
def rget64 (s : State) (st : Stop) (blk off : Nat) : Nat :=
  (rget s st blk off).toNat + (rget s st blk (off + 4)).toNat * 2 ^ 32

/-! ## Free values -/

/-- The next free value (log entry 1). -/
def freeVal (s : State) : Word := Config.freeWord s.fresh

/-- The state after one free value has been used. -/
def useFree (s : State) : State := { s with fresh := s.fresh + 1 }

/-! ## The package -/

/-- The package's number, from its straps (Table 1-9, Table 21-11). -/
def pkgNum (s : State) : Nat := rfld s (wsStop 0) 3 STRAP 0 2

/-- WORLD_LOCK (R545). -/
def worldLock (s : State) : Bool := rbit s (wsStop 0) 11 WA_LOCK 0

/-- PKG_STATE.STATE, kept at the Waystation stop of die 0: 0 is Run (Table 16-16). -/
def pkgState (s : State) : Nat := rfld s (wsStop 0) 4 PKG_STATE 0 4

/-- PKG_TOPO (Table 1-9). -/
def pkgTopo (s : State) : Nat := pkgNum s + s.pkg.members * 4 + s.pkg.stackSet * 64 + s.pkg.portSet * 4096

/-- The timebase (R118). -/
def tbNow (s : State) : Nat := s.tbase.tb.toNat

/-- Whether bit `b` of Table 17-4 is effective; an invasive enable makes the non-invasive one of its world effective (R547). -/
def dbgEff (s : State) (b : Nat) : Bool :=
  rbit s (wsStop 0) 12 DBG_EFF b || (decide (b % 2 = 0) && rbit s (wsStop 0) 12 DBG_EFF (b + 1))

/-- Whether non-invasive debug of a world is effective (Table 17-4). -/
def dbgNonInv (s : State) (w : World) : Bool := dbgEff s (if w = .secure then 2 else 0)

/-- Whether invasive debug of a world is effective (Table 17-4). -/
def dbgInv (s : State) (w : World) : Bool := dbgEff s (if w = .secure then 3 else 1)

/-- Whether an initiator holds the invasive enable of a world (R548). -/
def dbgHolds (s : State) (i : World) (w : World) : Bool := dbgInv s w && (decide (i = .secure) || decide (i = w))

/-- An event enters the Waystation's ring of 256 records (GET_EVENTS). -/
def addEvent (s : State) (kind locus source : Nat) (secure : Bool) : State :=
  let l := s.ws.events ++ [⟨tbNow s, kind, locus, source, secure⟩]
  let l := if 256 < l.length then l.tail else l
  { s with ws := { s.ws with events := l, evNext := s.ws.evNext + 1 } }

/-! ## Threads -/

/-- The state of a thread. -/
def tget (s : State) (h : Hart) : Thread := mapGet (fun _ => Thread.initial) s.cpu.threads (hartKey h)

/-- The state with a thread's state replaced. -/
def tput (s : State) (h : Hart) (t : Thread) : State :=
  { s with cpu := { s.cpu with threads := mapSet (fun _ => Thread.initial) s.cpu.threads (hartKey h) t } }

/-- The state with a thread's state changed by `f`. -/
def tmod (s : State) (h : Hart) (f : Thread → Thread) : State := tput s h (f (tget s h))

/-- The key of a Drover core. -/
def coreKey (st : Stop) (c : Fin 2) : Nat := stopIdx st * 2 + c.val

/-- Whether a core is fuse-absent (R490, R494). -/
def coreAbsent (s : State) (st : Stop) (c : Fin 2) : Bool := setHas s.pkg.noCore (coreKey st c)

/-- A core that has lost what it predicts and caches of translations (R198, R254); its seal key stays. -/
def CoreSt.forget (c : CoreSt) : CoreSt := { c with preds := [], tlb := [], wc := [] }

/-- The state of a core. -/
def cget (s : State) (k : Nat) : CoreSt := mapGet (fun _ => CoreSt.initial) s.cpu.cores k

/-- The state with a core's state replaced. -/
def cput (s : State) (k : Nat) (c : CoreSt) : State :=
  { s with cpu := { s.cpu with cores := mapSet (fun _ => CoreSt.initial) s.cpu.cores k c } }

/-- Numbers of the levels (R92). -/
def levelCode : Level → Nat
  | .u => 0 | .s => 1 | .h => 2 | .m => 3

/-- The level with a number. -/
def levelOf (n : Nat) : Level :=
  match n % 4 with
  | 0 => .u | 1 => .s | 2 => .h | _ => .m

/-- Numbers of the worlds (R92). -/
def worldCode : World → Nat
  | .normal => 0 | .secure => 1

/-- The world with a number. -/
def worldOf (n : Nat) : World := if n % 2 = 1 then .secure else .normal

/-- The legal combinations of Table 3-3. -/
def legalPair (l : Level) (w : World) : Bool :=
  match l, w with
  | .h, .secure => false
  | .m, .normal => false
  | _, _ => true

/-- LOCK_STAT.MODE of a tile (Table 14-9). -/
def tileMode (s : State) (st : Stop) : Nat := rfld s st 0 LOCK_STAT 0 2

/-- Whether a tile runs in locked or degraded mode (Table 3-7). -/
def tileLocked (s : State) (st : Stop) : Bool := tileMode s st = 1 || tileMode s st = 2

/-- The attributes of a thread's register accesses (R68, R95). -/
def hartInit (s : State) (h : Hart) : Init := ⟨(tget s h).level, (tget s h).world, false, some h⟩

/-- A secure initiator at M: the Waystation (R68). -/
def wsInit : Init := ⟨.m, .secure, false, some (.waystation 0)⟩

/-- Whether an initiator counts as at S level or above, or is secure (R12). -/
def guardOk (i : Init) : Bool := decide (i.world = .secure) || (decide (i.level ≠ .u) && !i.device)

end Sys2Proof.Machine
end

