-- ==== Sys2Proof/Machine/AddrMap.lean ====
section
/-!
DEFINITION. The physical address map: what an address names, home slices, secure ranges and the bytes of memory.
-/

namespace Sys2Proof.Machine

/-- What a physical address names (Table 1-11, R35). -/
inductive Target where
  /-- HBM of this package. -/
  | hbm
  /-- CXL memory behind a port of this package. -/
  | cxl (port : Nat)
  /-- HBM of another package of the node. -/
  | remoteMem (pkg : Nat)
  /-- A converted depot way. -/
  | depot (st : Stop) (way : Nat)
  /-- A depot window slot of another package. -/
  | remoteDepot (pkg : Nat)
  /-- The boot window, an alias of depot SRAM at the address given (R42). -/
  | boot (at_ : Nat)
  /-- Register space: the configuration address. -/
  | regs (cfg : Nat)
  /-- A port region of this package, with the offset in it (R582). -/
  | pcie (port : Nat) (off : Nat)
  /-- A port region of another package. -/
  | remotePcie (pkg : Nat)
  /-- The tightly coupled memory of an Outrider, and the Waystation's own memory. -/
  | tcm (key : Nat)
  /-- Nothing. -/
  | nothing
deriving DecidableEq, Repr

/-- The first device-class address (R32). -/
def deviceBase : Nat := 0xF000000000000

/-- Whether an address is device-class (Table 1-11). -/
def isDevice (pa : Nat) : Bool := decide (deviceBase ≤ pa)

/-- The size of one stack (Table 1-12). -/
def stackSize : Nat := 0x600000000

/-- The stack that holds offset `o` of the package's HBM window (Table 1-12). -/
def hbmStack (s : State) (o : Nat) : Nat := if s.pkg.interleaved then bits o 12 26 % 6 else o / stackSize

/-- The offset within the stack (Table 1-12). -/
def hbmOff (s : State) (o : Nat) : Nat :=
  if s.pkg.interleaved then bits o 12 26 / 6 * 0x1000 + o % 0x1000 else o % stackSize

/-- Whether an offset of the package's HBM window is populated (R33, R47). -/
def hbmPopulated (s : State) (o : Nat) : Bool :=
  decide (o < 6 * stackSize) &&
  (if s.pkg.interleaved then decide (s.pkg.stackSet % 64 = 63) else bit s.pkg.stackSet (hbmStack s o))

/-- PORT_CAP.PROTO of a port (Table 19-10): 0 PCIe, 1 CXL, 2 Caravan, 3 endpoint face. -/
def portProto (s : State) (n : Nat) : Nat :=
  if h : n < 12 then rfld s (portStop ⟨n, h⟩) 1 PORT_CAP 8 2 else 0

/-- The CXL window of this package that holds an address: port, window and offset within it (Table 12-9). -/
def cxlWindow (s : State) (pa : Nat) : Option (Nat × Nat × Nat) :=
  ((List.finRange 12).flatMap fun n => (List.range 4).map fun w => (n, w)).findSome? fun e =>
    let st := portStop e.1
    let base := rfld s st 5 (CXW_BASE + 0x10 * e.2) 0 24 * 2 ^ 28
    let size := rfld s st 5 (CXW_SIZE + 0x10 * e.2) 0 17 * 2 ^ 28
    if portProto s e.1.val = 1 ∧ rbit s st 5 (CXW_CTL + 0x10 * e.2) 0 = true ∧ base ≤ pa ∧ pa < base + size then
      some (e.1.val, e.2, pa - base)
    else none

/-- The base of the depot window of a slice, by L[15:6] (R41). -/
def depotBase (pkg : Nat) (st : Stop) : Nat := 0xFC00000000000 + (pkg * 256 + stopIdx st) * 0x200000

/-- The ways of a slice that are depot SRAM, as bits (R307). -/
def depotMask (s : State) (st : Stop) : Nat := mapGet (fun _ => 0) s.pkg.depot (stopIdx st)

/-- Whether way `w` of a slice is depot SRAM (R41, R307). -/
def wayIsDepot (s : State) (st : Stop) (w : Nat) : Bool := bit (depotMask s st) w

/-- The slice whose ways 4 to 7 hold the boot image (R42). -/
def bootSlice : Stop := ⟨0, 1, 0⟩

/-- PKG_MEMMAP.BOOTWIN: ways 4 to 7 of that slice are converted (R44). -/
def bootWin (s : State) : Bool := (List.range 4).all fun i => wayIsDepot s bootSlice (4 + i)

/-- Whether an offset of another member's HBM window is populated, and whether a way of a slice of it is depot SRAM (R35). -/
def farPopulated (s : State) (p o : Nat) : Bool :=
  decide (o < 6 * stackSize) && !bit (mapGet (fun _ => 0) s.pkg.farStacks p) (o / stackSize)
def farDepot (s : State) (slot way : Nat) : Bool := bit (mapGet (fun _ => 0) s.pkg.farDepot slot) way

/-- The member of the node whose CXL window holds an address, where no window of this package does (R35, R433). -/
def farCxl (s : State) (pa : Nat) : Option Nat :=
  (s.pkg.farCxl.find? fun e => bit s.pkg.members e.1 && decide (e.1 ≠ pkgNum s) && decide (e.2.2.1 ≤ pa ∧ pa < e.2.2.1 + e.2.2.2)).map Prod.fst

/-- What an address names in the package's address decode (R35). -/
def paTarget (s : State) (pa : Nat) : Target :=
  let pkg := pkgNum s
  if pa < 2 ^ 42 then
    if pa / 2 ^ 40 = pkg then (if hbmPopulated s (pa % 2 ^ 40) then .hbm else .nothing)
    else if bit s.pkg.members (pa / 2 ^ 40) && farPopulated s (pa / 2 ^ 40) (pa % 2 ^ 40) then .remoteMem (pa / 2 ^ 40)
    else .nothing
  else if 0x100000000000 ≤ pa ∧ pa < 0x1000000000000 then
    match cxlWindow s pa with
    | some (n, _, _) => .cxl n
    | none =>
      match farCxl s pa with
      | some p => .remoteMem p
      | none => .nothing
  else if pa < deviceBase then .nothing
  else if pa < 0xF600000000000 then
    let region := (pa - deviceBase) / 0x20000000000
    let p := region / 12
    let n := region % 12
    if p = pkg then
      (if bit s.pkg.portSet n && decide (portProto s n ≠ 2) then .pcie n ((pa - deviceBase) % 0x20000000000) else .nothing)
    else if bit s.pkg.members p then .remotePcie p
    else .nothing
  else if 0xFC00000000000 ≤ pa ∧ pa < 0xFC00080000000 then
    let slot := (pa - 0xFC00000000000) / 0x200000
    let way := (pa - 0xFC00000000000) % 0x200000 / 0x40000 + 4
    if slot / 256 = pkg then
      match stopOf (slot % 256) with
      | some st => if stopKind st = .tile ∧ wayIsDepot s st way then .depot st way else .nothing
      | none => .nothing
    else if bit s.pkg.members (slot / 256) && farDepot s slot way then .remoteDepot (slot / 256)
    else .nothing
  else if 0xFFF0000000000 ≤ pa ∧ pa < 0xFFF0100000000 then .regs (pa - 0xFFF0000000000)
  else if 0xFFFFFFFF00000 ≤ pa ∧ pa < 2 ^ 52 then
    if bootWin s then .boot (depotBase pkg bootSlice + (pa - 0xFFFFFFFF00000)) else .nothing
  else .nothing

/-- Whether a secure memory range of the package covers an address (R538). -/
def inSecureRange (s : State) (pa : Nat) : Bool :=
  (List.range 16).any fun r =>
    let base := (rget s (wsStop 0) 11 (SR_BASE_LO + 0x10 * r)).toNat + rfld s (wsStop 0) 11 (SR_BASE_HI + 0x10 * r) 0 20 * 2 ^ 32
    let size := rfld s (wsStop 0) 11 (SR_SIZE + 0x10 * r) 0 24 * 0x200000
    decide (base ≤ pa ∧ pa < base + size)

/-- Whether a depot way is assigned to the secure world (R309). -/
def secWay (s : State) (st : Stop) (w : Nat) : Bool := setHas s.pkg.secWays (stopIdx st * 16 + w)

/-- The number of slots of a slice's waybill engine that are secure, from the top (R346). -/
def slotSecure (s : State) (st : Stop) (q : Nat) : Bool := decide (128 - rfld s st 5 WB_SLICE 0 8 ≤ q)

/-- A field of a waybill descriptor. -/
def wbqFld (s : State) (st : Stop) (q off lo w : Nat) : Nat := rfld s st 5 (wbqBase q + off) lo w

/-- The base address of a queue's ring. -/
def wbqRing (s : State) (st : Stop) (q : Nat) : Nat :=
  (rget s st 5 (wbqBase q + WBQ_BASE_LO)).toNat + wbqFld s st q WBQ_BASE_HI 0 20 * 2 ^ 32

/-- The depth of a queue, and its message size in bytes (Table 10-5). -/
def wbqDepth (s : State) (st : Stop) (q : Nat) : Nat := 2 ^ wbqFld s st q WBQ_CFG 0 5
def wbqSize (s : State) (st : Stop) (q : Nat) : Nat := 16 * 2 ^ wbqFld s st q WBQ_CFG 5 2

/-- Whether an address lies in the ring of an enabled depot-backed queue (R345). -/
def inDepotRing (s : State) (pa : Nat) : Bool :=
  s.wb.enabled.any fun k =>
    match stopOf (k / 128) with
    | some st =>
      let q := k % 128
      decide (wbqFld s st q WBQ_CFG 7 1 = 0) && decide (wbqRing s st q ≤ pa) &&
      decide (pa < wbqRing s st q + wbqDepth s st q * wbqSize s st q)
    | none => false

/-- What an address names for an access of a world: secure ranges and secure depot ways map to nothing for the normal world, and
rings of enabled depot queues for every core and device (R309, R345, R539). -/
def seenTarget (s : State) (w : World) (pa : Nat) : Target :=
  match paTarget s pa with
  | .depot st way =>
    if inDepotRing s pa then .nothing
    else if w = .normal ∧ secWay s st way = true then .nothing else .depot st way
  | .boot a => if inDepotRing s a then .nothing else if w = .normal ∧ secWay s bootSlice (4 + (a - depotBase (pkgNum s) bootSlice) / 0x40000) = true then .nothing else .boot a
  | .hbm => if w = .normal ∧ inSecureRange s pa = true then .nothing else .hbm
  | .cxl n => if w = .normal ∧ inSecureRange s pa = true then .nothing else .cxl n
  | t => t

/-- Whether a refusal of the normal world there is a world violation (R541), and of which kind: 1 secure range, 2 depot way. -/
def violationKind (s : State) (w : World) (pa : Nat) : Option Nat :=
  if w = .secure then none
  else match paTarget s pa with
    | .depot st way => if secWay s st way then some 2 else none
    | .hbm => if inSecureRange s pa then some 1 else none
    | .cxl _ => if inSecureRange s pa then some 1 else none
    | _ => none

/-! ## Home slices -/

/-- The fold of an offset (R49). -/
def homeFold (o : Nat) : Nat :=
  bits o 6 4 ^^^ bits o 10 4 ^^^ bits o 14 4 ^^^ bits o 18 4 ^^^ bits o 22 4 ^^^ bits o 26 4 ^^^ bits o 30 4 ^^^ bits o 34 4

/-- Slice `h` of section `k` of the package. -/
def sectionSlice (k h : Nat) : Stop :=
  ⟨⟨k / 3 % 2, by omega⟩, ⟨1 + h / 4 % 4, by omega⟩, ⟨4 * (k % 3) + h % 4, by omega⟩⟩

/-- The first live slice of a section from `h` on, wrapping at 16 (R49). -/
def liveSlice (s : State) (k : Nat) (h n : Nat) : Stop :=
  match n with
  | 0 => sectionSlice k (h % 16)
  | n + 1 =>
    let st := sectionSlice k (h % 16)
    if setHas s.pkg.retired (stopIdx st) then liveSlice s k (h + 1) n else st

/-- The home slice of an address of this package's memory (R49, R50). -/
def homeOf (s : State) (pa : Nat) : Option Stop :=
  match paTarget s pa with
  | .hbm => some (liveSlice s (hbmStack s (pa % 2 ^ 40)) (homeFold (pa % 2 ^ 40)) 16)
  | .cxl n =>
    match cxlWindow s pa with
    | some (_, w, o) =>
      if h : n < 12 then some (liveSlice s (rfld s (portStop ⟨n, h⟩) 5 (CXW_CTL + 0x10 * w) 1 3) (homeFold o) 16) else none
    | none => none
  | _ => none

/-- The offset of an address of another package within its HBM or CXL window. -/
def farOffset (s : State) (pa : Nat) : Nat :=
  if pa < 2 ^ 42 then pa % 2 ^ 40
  else match s.pkg.farCxl.find? fun e => bit s.pkg.members e.1 && decide (e.1 ≠ pkgNum s) && decide (e.2.2.1 ≤ pa ∧ pa < e.2.2.1 + e.2.2.2) with
    | some e => pa - e.2.2.1
    | none => 0

/-- The proxy slice of an address of another package's memory: the slice that R49 gives with a stack taken from the offset (R337). -/
def proxyOf (s : State) (pa : Nat) : Option Stop :=
  match paTarget s pa with
  | .remoteMem _ => some (liveSlice s (farOffset s pa / stackSize % 6) (homeFold (farOffset s pa)) 16)
  | _ => none

/-! ## Bytes -/

/-- What a byte of memory that nothing has written reads as: zero (log entry 5). -/
def memDefault (_ : Nat) : Byte := 0

/-- The byte at an address. -/
def memGet (s : State) (a : Nat) : Byte := mapGet memDefault s.mem.bytes a

/-- The canonical form of memory: addresses strictly rising, no entry equal to what an unlisted address reads as. -/
def Memory.wf (m : MemSt) : Bool := mapWf memDefault m.bytes

/-- `n` bytes from an address, lowest first. -/
def memRead (s : State) (a n : Nat) : List Byte := (List.range n).map fun i => memGet s (a + i)

/-- The state with bytes written from an address on. -/
def memWriteBytes (s : State) (a : Nat) : List Byte → State
  | [] => s
  | b :: r => memWriteBytes { s with mem := { s.mem with bytes := mapSet memDefault s.mem.bytes a b } } (a + 1) r

/-- A little-endian number from its bytes. -/
def leNat : List Byte → Nat
  | [] => 0
  | b :: r => b.toNat + 256 * leNat r

/-- The `n` bytes of a number, lowest first. -/
def natLe (n v : Nat) : List Byte := (List.range n).map fun i => BitVec.ofNat 8 (v / 256 ^ i)

/-- Whether a granule that `n` bytes from `a` touch is poisoned (R445). -/
def poisoned (s : State) (a n : Nat) : Bool :=
  (List.range ((a + n + 7) / 8 - a / 8)).any fun i => setHas s.mem.poison (a / 8 + i)

/-- The address of the first poisoned byte of an access (R448). -/
def firstPoison (s : State) (a n : Nat) : Nat :=
  match (List.range n).find? fun i => setHas s.mem.poison ((a + i) / 8) with
  | some i => a + i
  | none => a

/-- The state with the granule at `a` marked. -/
def markPoison (s : State) (a : Nat) : State := { s with mem := { s.mem with poison := setAdd s.mem.poison (a / 8) } }

/-- The state with a line poisoned whole (R427). -/
def poisonLine (s : State) (a : Nat) : State := (List.range 8).foldl (fun s i => markPoison s (a / 64 * 64 + 8 * i)) s

/-- A write of sound data: an aligned 8-byte write clears its granule's mark, a smaller one leaves it (Table 13-4). -/
def memStore (s : State) (a : Nat) (d : List Byte) : State :=
  let s1 := memWriteBytes s a d
  { s1 with mem := { s1.mem with poison := s1.mem.poison.filter fun g => !(decide (a ≤ 8 * g) && decide (8 * g + 8 ≤ a + d.length)) } }

/-- A thread whose reservation covers a granule that a write of another agent touches loses it (R148, R383). -/
def loseResv (t : Thread) (a n : Nat) : Thread :=
  match t.resv with
  | some r =>
    if r.pa / 64 = a / 64 ∨ r.pa / 64 = (a + n - 1) / 64 then { t with resv := none, resvLost := true } else t
  | none => t

/-- An Outrider's line cache after another agent's write: unlocked copies of the lines are gone, locked ones are refilled at once
(R389). -/
def lcSnoop (o : OrSt) (a n : Nat) : OrSt :=
  { o with lc := o.lc.filter fun e => match e.2 with
      | some (line, locked) => locked || !(decide (a / 64 ≤ line) && decide (line ≤ (a + n - 1) / 64))
      | none => false }

/-- Reservations of agents other than `me` on the 64-byte granules that a write touches are cleared, and their line caches snooped
(R148, R389). -/
def clearResv (s : State) (me : Option Hart) (a n : Nat) : State :=
  let f := fun e : Nat × Thread => if me.map hartKey = some e.1 then e else (e.1, loseResv e.2 a n)
  let g := fun e : Nat × OrSt => if me.map hartKey = some (1024 + e.1) then e else (e.1, lcSnoop e.2 a n)
  { s with
    cpu := { s.cpu with threads := s.cpu.threads.map f }
    orr := (s.orr.map g).filter fun e => e.2 ≠ OrSt.initial }

/-- A write to memory by an agent: the bytes, the marks and the reservations of others (R148, R217). -/
def agentWrite (s : State) (me : Option Hart) (a : Nat) (d : List Byte) : State :=
  clearResv (memStore s a d) me a d.length

end Sys2Proof.Machine
end

