-- ==== Sys2Proof/Machine/Operands.lean ====
section
/-!
DEFINITION. The operands of Mirno-64: x, p, v and m registers, state registers and predicate fields.
-/

namespace Sys2Proof.Machine

/-- x[r]; x0 reads zero (Table 3-1). -/
def xget (t : Thread) (r : Reg) : Word := if r = 0 then 0 else t.x[r.toNat]'(by have := r.isLt; omega)

/-- The thread with x[r] written; writes to x0 are ignored (Table 3-1). -/
def xset (t : Thread) (r : Reg) (v : Word) : Thread :=
  if r = 0 then t else { t with x := t.x.set r.toNat v (by have := r.isLt; omega) }

/-- p[r]; p0 reads 1 (Table 3-1). -/
def pget (t : Thread) (r : PReg) : Bool := if r = 0 then true else t.p[r.toNat]'(by have := r.isLt; omega)

/-- The thread with p[r] written; writes to p0 are ignored (Table 3-1). -/
def pset (t : Thread) (r : PReg) (b : Bool) : Thread :=
  if r = 0 then t else { t with p := t.p.set r.toNat b (by have := r.isLt; omega) }

/-- v[r]. -/
def vget (t : Thread) (r : Reg) : Vec := t.v[r.toNat]'(by have := r.isLt; omega)

/-- The thread with v[r] written. -/
def vset (t : Thread) (r : Reg) (v : Vec) : Thread :=
  { t with v := t.v.set r.toNat v (by have := r.isLt; omega) }

/-- m[r]; m0 reads 0xFFFF_FFFF (Table 3-1). -/
def mget (t : Thread) (r : PReg) : BitVec 32 := if r = 0 then 0xFFFFFFFF else t.m[r.toNat]'(by have := r.isLt; omega)

/-- The thread with m[r] written; writes to m0 are ignored (Table 3-1). -/
def mset (t : Thread) (r : PReg) (v : BitVec 32) : Thread :=
  if r = 0 then t else { t with m := t.m.set r.toNat v (by have := r.isLt; omega) }

/-- The lane mask a 5-bit field names (R135). -/
def mreg (r : Reg) : PReg := r.setWidth 3

/-- Whether a 5-bit field may name an m register: bits [4:3] zero (R135). -/
def mregOk (r : Reg) : Bool := decide (r.toNat < 8)

/-- Whether the instruction's predicate is true (R84). -/
def predTrue (t : Thread) (q : BitVec 4) : Bool := xor (pget t (q.setWidth 3)) (q.getLsbD 3)

/-! ## State registers -/

def snTB : Nat := 0x000
def snCORE_ID : Nat := 0x001
def snCURSTATE : Nat := 0x002
def snVCSR : Nat := 0x003
def snUTP : Nat := 0x004
def snTHR_CTL : Nat := 0x410
def snINTMASK : Nat := 0x411
def snTR_CTL : Nat := 0x420
def snTR_ROOT : Nat := 0x421
def snTR_ASID : Nat := 0x422
def snTR_ATTR : Nat := 0x423
def snPRED_CTL : Nat := 0x450
def snSEAL_GEN : Nat := 0x451
def snPMU_CTL : Nat := 0x470
def snPMU_OVF : Nat := 0x471
def snPMU_CMP_CTL : Nat := 0x474
def snPMU_CMP_NEXT : Nat := 0x478
def snPMU_CMP_PERIOD : Nat := 0x47C
def snSMP_BASE : Nat := 0x480
def snSMP_CTL : Nat := 0x481
def snSMP_WR : Nat := 0x482
def snSMP_RD : Nat := 0x483
def snSMP_LOST : Nat := 0x484
def snH_CTL : Nat := 0x810
def snH_ROUTE : Nat := 0x811
def snH_TR_CTL : Nat := 0x820
def snH_TR_ROOT : Nat := 0x821
def snH_TR_ASID : Nat := 0x822
def snH_TR_ATTR : Nat := 0x823
def snVM_CTL : Nat := 0x824
def snVM_ROOT : Nat := 0x825
def snVMID : Nat := 0x826
def snVM_ATTR : Nat := 0x827
def snPMV_CTL : Nat := 0x870
def snPMV_TALLY : Nat := 0x871
def snM_CTL : Nat := 0xC10
def snM_ROUTE : Nat := 0xC11
def snDSTEP : Nat := 0xC20
def snWP_ADDR : Nat := 0xC21
def snWP_CTL : Nat := 0xC25

/-- Exception-group register `n` of a level: L + n (Table 3-6). -/
def snLev (l : Level) (n : Nat) : Nat :=
  (match l with | .u => 0x400 | .s => 0x400 | .h => 0x800 | .m => 0xC00) + n

def exSTATUS : Nat := 0
def exEPC : Nat := 1
def exCAUSE : Nat := 2
def exVAL : Nat := 3
def exINFO : Nat := 4
def exVBASE : Nat := 5
def exTCMP : Nat := 8

/-- Reset values of the state registers (Tables 3-6, 18-2). -/
def sregReset (n : Nat) : Word :=
  if n = 0x408 ∨ n = 0x808 ∨ n = 0xC08 then 0xFFFFFFFFFFFFFFFF
  else if n = snTHR_CTL then 4
  else if n = snSMP_CTL then 0x4C
  else 0

/-- The value of a state register that is in effect. -/
def sget (t : Thread) (n : Nat) : Word := mapGet sregReset t.sreg n

/-- The thread with a state register in effect holding `v`. -/
def sput (t : Thread) (n : Nat) (v : Word) : Thread := { t with sreg := mapSet sregReset t.sreg n v }

/-- Bit `i` of a state register in effect. -/
def sbit (t : Thread) (n i : Nat) : Bool := (sget t n).getLsbD i

/-- A field of a state register in effect. -/
def sfld (t : Thread) (n lo w : Nat) : Nat := bits (sget t n).toNat lo w

/-- The thread with a write of a state register in effect; THR_CTL.VDIRTY is not part of a Sync write (Table 3-17). -/
def applyOne (t : Thread) (n : Nat) (v : Word) : Thread :=
  if n = snTHR_CTL then sput t n ((v &&& ~~~(0x10 : Word)) ||| (sget t n &&& 0x10))
  else if n = snINTMASK then { t with im := v.getLsbD 0 }
  else sput t n v

/-- The thread with every pending Sync write in effect, in program order (R103, R105). -/
def applySync (t : Thread) : Thread :=
  t.pend.foldl (fun t w => applyOne t w.1 w.2.1) { t with pend := [] }

/-- The value of a state register in effect; INTMASK is the interrupt mask. -/
def sgetNow (t : Thread) (n : Nat) : Word := if n = snINTMASK then BitVec.ofNat 64 (b2n t.im) else sget t n

/-- The pending value of a state register, or the one in effect (R102). -/
def sgetPend (t : Thread) (n : Nat) : Word :=
  match (t.pend.filter fun w => w.1 = n).getLast? with
  | some w => if n = snTHR_CTL then (w.2.1 &&& ~~~(0x10 : Word)) ||| (sget t n &&& 0x10) else w.2.1
  | none => sgetNow t n

/-- The address-space identifier of a thread's context; zero while translation is off (Table 5-10, R235). -/
def ctxAsid (t : Thread) : Nat :=
  match t.level with
  | .u | .s => if sbit t snTR_CTL 0 then sfld t snTR_ASID 0 16 else 0
  | .h => if sbit t snH_TR_CTL 0 then sfld t snH_TR_ASID 0 16 else 0
  | .m => 0

/-- The virtual-machine identifier of a thread's context: U and S in the normal world have one (Table 7-1). -/
def ctxVmid (t : Thread) : Nat :=
  match t.level, t.world with
  | .u, .normal => sfld t snVMID 0 16
  | .s, .normal => sfld t snVMID 0 16
  | _, _ => 0

/-- Whether a thread is in a guest (R571). -/
def inGuest (t : Thread) : Bool :=
  sbit t snPMV_CTL 0 && decide (t.world = .normal) && (decide (t.level = .u) || decide (t.level = .s))

end Sys2Proof.Machine
end

