-- ==== Sys2Proof/Machine/Groups.lean ====
section
/-!
DEFINITION. What the word of an instruction says of its issue: slots, the registers it reads and writes, groups of an Outrider (R133, R375,
R376); the signature of a retire group of a locked pair (R468).
-/

namespace Sys2Proof.Machine

/-! ## Issue (Tables 4-1, 4-2, 11-2) -/

/-- MAJOR of a word (R133), its FN7, and a register field. -/
def majorOf (w : BitVec 32) : Nat := bits w.toNat 22 6
def fn7Of (w : BitVec 32) : Nat := bits w.toNat 0 7

/-- How an instruction issues on an Outrider (Table 11-2). -/
inductive Slot where
  /-- In either slot. -/
  | ab
  /-- A branch: in either slot, and it ends its group. -/
  | branch
  /-- In slot A only. -/
  | a
  /-- With slot B empty. -/
  | alone
deriving DecidableEq, Repr

/-- The issue class of a word. -/
def slotOf (w : BitVec 32) : Slot :=
  let m := majorOf w
  if (1 ≤ m ∧ m ≤ 9) ∨ (0x14 ≤ m ∧ m ≤ 0x16) then .ab
  else if 0x10 ≤ m ∧ m ≤ 0x12 then .branch
  else if m = 0x2F ∧ (fn7Of w = 0x10 ∨ fn7Of w = 0x11) then .ab
  else if m = 0x27 ∨ m = 0x2A ∨ 0x2D ≤ m ∧ m ≤ 0x2F then .alone
  else .a

/-- A set of registers as bits: x0 to x31, then p0 to p7. -/
def xBit (n : Nat) : Nat := 2 ^ n
def pBit (n : Nat) : Nat := 2 ^ (32 + n)

/-- The x and p registers that a word reads besides its predicate. -/
def wordReads (w : BitVec 32) : Nat :=
  let v := w.toNat
  let m := majorOf w
  let r17 := xBit (bits v 17 5)
  let r12 := xBit (bits v 12 5)
  let r7 := xBit (bits v 7 5)
  if m = 0x01 ∨ m = 0x0A ∨ m = 0x24 ∨ m = 0x25 ∨ m = 0x29 ∨ m = 0x30 ∨ m = 0x31 then r12 ||| r7
  else if m = 0x26 then r12 ||| r7 ||| (if bits v 3 4 = 9 then r17 else 0)
  else if (2 ≤ m ∧ m ≤ 6) ∨ m = 0x12 ∨ (0x18 ≤ m ∧ m ≤ 0x1E) ∨ m = 0x28 ∨ m = 0x2E then r12
  else if 0x20 ≤ m ∧ m ≤ 0x23 then r17 ||| r12
  else if m = 0x14 then xBit (bits v 11 5) ||| xBit (bits v 6 5)
  else if m = 0x15 then xBit (bits v 11 5)
  else if m = 0x16 then pBit (bits v 16 3) ||| pBit (bits v 13 3)
  else if m = 0x2C ∧ fn7Of w = 4 then r12
  else if m = 0x2F ∧ fn7Of w = 0x10 then 0xFE * 2 ^ 32
  else if m = 0x2F ∧ (fn7Of w = 0x11 ∨ fn7Of w = 2) then r12
  else 0

/-- The x and p registers that a word writes; x0 and p0 are none. -/
def wordWrites (w : BitVec 32) : Nat :=
  let v := w.toNat
  let m := majorOf w
  let r17 := xBit (bits v 17 5)
  let all :=
    if m = 0x14 ∨ m = 0x15 then pBit (bits v 19 3) ||| pBit (bits v 16 3)
    else if m = 0x16 then pBit (bits v 19 3)
    else if m = 0x11 then xBit 1
    else if m = 0x24 then (if bit v 6 then 0 else r17)
    else if (1 ≤ m ∧ m ≤ 0x0A) ∨ m = 0x12 ∨ (0x18 ≤ m ∧ m ≤ 0x1E) ∨ m = 0x25 ∨ m = 0x26 ∨ m = 0x29 ∨ m = 0x2D then r17
    else if m = 0x2C ∧ fn7Of w = 5 then r17
    else if m = 0x2F ∧ (fn7Of w = 0x10 ∨ fn7Of w = 2) then r17
    else if m = 0x2F ∧ fn7Of w = 0x11 then 0xFE * 2 ^ 32
    else 0
  all &&& (2 ^ 40 - 1 - 1 - 2 ^ 32)

/-- The predicate register that governs a word. -/
def predBit (w : BitVec 32) : Nat := pBit (bits w.toNat 28 3)

/-- Whether the second of two consecutive instructions depends on the first (R376): a CMP or CMPI may set the predicate of a branch. -/
def wordDepends (a b : BitVec 32) : Bool :=
  let cmp := decide (majorOf a = 0x14 ∨ majorOf a = 0x15) && decide (slotOf b = .branch)
  let reads := wordReads b ||| (if cmp then 0 else predBit b)
  decide (wordWrites a &&& (reads ||| wordWrites b) ≠ 0)

/-- Whether an instruction may lead a group of two. -/
def wordLeads (a : BitVec 32) : Bool := decide (slotOf a = .ab ∨ slotOf a = .a)

/-- Whether two consecutive instructions form one group (R375). -/
def wordPairs (a b : BitVec 32) : Bool := wordLeads a && decide (slotOf b = .ab ∨ slotOf b = .branch) && !wordDepends a b

/-! ## Signatures (R468) -/

/-- CRC-64 with polynomial 0x42F0_E1EB_A9EA_3693, not reflected. -/
def crc64Bit (c : Nat) : Nat := if 2 ^ 63 ≤ c then (2 * c % 2 ^ 64) ^^^ 0x42F0E1EBA9EA3693 else 2 * c
def crc64Byte (c : Nat) (b : Byte) : Nat := (List.range 8).foldl (fun c _ => crc64Bit c) (c ^^^ (b.toNat * 2 ^ 56))
def crc64 (l : List Byte) : Nat := l.foldl crc64Byte (2 ^ 64 - 1)

/-- What an instruction's record says of it: its PC and word, its predicate outcome, and the cause of an exception entered at it. -/
structure GroupRec where
  pc : Word
  word : BitVec 32
  taken : Bool
  cause : Option Nat
deriving DecidableEq, Repr

/-- A register written, as bytes of a record: its kind, its number and its value. -/
def recReg (kind n len v : Nat) : List Byte := natLe 1 kind ++ natLe 2 n ++ natLe len v

/-- The record of an instruction of a group (R468): what it says of itself, the registers it has written with their values, its stores. The
order of its bytes is the model's (log entry 95). -/
def groupRecord (r : GroupRec) (before after : Thread) (stores : List StoreEnt) : List Byte :=
  let w := if r.taken then wordWrites r.word else 0
  natLe 8 r.pc.toNat ++ natLe 4 r.word.toNat ++ natLe 1 (b2n r.taken) ++ natLe 1 (r.cause.getD 0xFF) ++
  ((List.finRange 32).flatMap fun i =>
    if bit w i.val || decide (after.x[i] ≠ before.x[i]) then recReg 0 i.val 8 after.x[i].toNat else []) ++
  ((List.finRange 8).flatMap fun i =>
    if bit w (32 + i.val) || decide (after.p[i] ≠ before.p[i]) then recReg 1 i.val 1 (b2n after.p[i]) else []) ++
  ((List.finRange 32).flatMap fun i => if after.v[i] ≠ before.v[i] then recReg 2 i.val 32 after.v[i].toNat else []) ++
  ((List.finRange 8).flatMap fun i => if after.m[i] ≠ before.m[i] then recReg 3 i.val 4 after.m[i].toNat else []) ++
  (after.sreg.flatMap fun e => if before.sreg.contains e then [] else recReg 4 e.1 8 e.2.toNat) ++
  (stores.flatMap fun e => natLe 8 e.pa ++ natLe 1 e.bytes.length ++ e.bytes)

/-- The signature of a group of one instruction. -/
def groupSig (r : GroupRec) (before after : Thread) (stores : List StoreEnt) : BitVec 64 :=
  BitVec.ofNat 64 (crc64 (groupRecord r before after stores))

end Sys2Proof.Machine
end

