-- ==== Sys2Proof/Machine/Intr.lean ====
section
/-!
DEFINITION. Interrupt units: private and shared sources, candidates, acknowledgement and end of interrupt.
-/

namespace Sys2Proof.Machine

/-! ## Private sources -/

/-- The page of a thread in its interrupt unit: stop, block and base (R505). -/
def intPage (h : Hart) : Stop × Nat × Nat :=
  match h with
  | .drover st c t => (st, 6, 0x1000 * (2 * c.val + t.val))
  | .outrider n => (orStop ⟨n.val / 8, by omega⟩, 4, 0x1000 * (n.val % 8))
  | .waystation d => (wsStop d, 0, 0)

/-- PSRC_CFGn of a thread. -/
def psrcCfg (s : State) (h : Hart) (n : Nat) : Reg32 :=
  rget s (intPage h).1 (intPage h).2.1 ((intPage h).2.2 + PSRC_CFG + 4 * n)

/-- Whether a thread is an Outrider. -/
def isOutrider : Hart → Bool
  | .outrider _ => true
  | _ => false

/-- Whether source `n` is latched (Table 15-1). -/
def privLatched (n : Nat) : Bool := decide (4 ≤ n ∧ n ≤ 12) || decide (16 ≤ n ∧ n ≤ 47)

/-- Whether source `n` is in use for a thread (Table 15-1, R487). -/
def privUsed (s : State) (h : Hart) (n : Nat) : Bool :=
  (decide (n ≤ 12) || decide (16 ≤ n ∧ n ≤ 47)) &&
  match h with
  | .outrider _ =>
    let sec := (tget s h).world = .secure
    !(decide (n = 1) || decide (n = 2) || decide (n = 9) || decide (n = 11) ||
      (decide (n = 8) && decide sec) || (decide (n = 10) && !decide sec))
  | .drover _ _ _ => true
  | .waystation _ => false

/-- The level and world of source `n` of a thread in effect (Table 15-1, R487). -/
def privLevel (s : State) (h : Hart) (n : Nat) : Level × World :=
  let t := tget s h
  let c := psrcCfg s h n
  match h with
  | .outrider _ => (.s, t.world)
  | _ =>
    if n = 0 then (.s, t.world)
    else if n = 1 ∨ n = 9 then (.h, .normal)
    else if n = 2 ∨ n = 11 then (.m, .secure)
    else if n = 8 then (.s, .normal)
    else if n = 10 then (.s, .secure)
    else (levelOf (getF c 9 2), worldOf (getF c 11 1))

/-- Whether the level and world of source `n` are configurable (Table 15-1). -/
def privConfigurable (h : Hart) (n : Nat) : Bool :=
  !isOutrider h && (decide (3 ≤ n ∧ n ≤ 7) || decide (n = 12) || decide (16 ≤ n ∧ n ≤ 47))

/-- PMU_OVF is pending (R565): an overflow bit with OVF_IRQ, or the sample buffer at its watermark. -/
def pmuOvfPending (s : State) (h : Hart) : Bool :=
  let t := tget s h
  (sbit t snPMU_CTL 1 && s.pm.ovf.any (fun k => decide (k / 256 = hartKey h))) ||
  (sbit t snSMP_CTL 0 &&
    decide ((sget t snSMP_WR).toNat - (sget t snSMP_RD).toNat ≥ max 1 (min (sfld t snSMP_CTL 6 21) (2 ^ sfld t snSMP_CTL 1 5))))

/-- The condition of condition source `n` (R122, R565). -/
def privCondition (s : State) (h : Hart) (n : Nat) : Bool :=
  let t := tget s h
  if n = 0 then decide ((sget t (snLev .s exTCMP)).toNat ≤ tbNow s)
  else if n = 1 then decide ((sget t (snLev .h exTCMP)).toNat ≤ tbNow s)
  else if n = 2 then decide ((sget t (snLev .m exTCMP)).toNat ≤ tbNow s)
  else if n = 3 then pmuOvfPending s h
  else false

/-- Whether private source `n` of a thread is pending (R486). -/
def privPending (s : State) (h : Hart) (n : Nat) : Bool :=
  privUsed s h n &&
  (if privLatched n then setHas s.intr.pend (hartKey h * 64 + n) else privCondition s h n)

/-- Whether private source `n` of a thread is enabled. -/
def privEnabled (s : State) (h : Hart) (n : Nat) : Bool := getB (psrcCfg s h n) 8

/-- The state with a latched source set; a number that is not latched or not used ignores the set (R485, R486). -/
def privSet (s : State) (h : Hart) (n : Nat) : State :=
  if privLatched n && privUsed s h n then
    { s with intr := { s.intr with pend := setAdd s.intr.pend (hartKey h * 64 + n) } }
  else s

/-- The state with a latched source no longer pending. -/
def privClear (s : State) (h : Hart) (n : Nat) : State :=
  { s with intr := { s.intr with pend := setDel s.intr.pend (hartKey h * 64 + n) } }

/-! ## Running priority -/

/-- The running-priority stack of a thread and world, top first (R497). -/
def runStack (s : State) (h : Hart) (w : World) : List Nat :=
  mapGet (fun _ => []) s.intr.runStk (hartKey h * 2 + worldCode w)

/-- The state with that stack replaced. -/
def setRunStack (s : State) (h : Hart) (w : World) (l : List Nat) : State :=
  { s with intr := { s.intr with runStk := mapSet (fun _ => []) s.intr.runStk (hartKey h * 2 + worldCode w) l } }

/-- RUNPRI of a world (R497). -/
def runPri (s : State) (h : Hart) (w : World) : Nat := (runStack s h w).headD 0x100

/-- The state with both stacks of a thread empty (R501). -/
def emptyRunStacks (s : State) (h : Hart) : State := setRunStack (setRunStack s h .normal []) h .secure []

/-! ## Shared tables -/

/-- The stop and block of shared table `k`: port `k` for 0 to 11, the Waystation stop of die `k - 12` after that (Table 15-2). -/
def shTable (k : Nat) : Stop × Nat :=
  if h : k < 12 then (portStop ⟨k, h⟩, 4) else if k = 12 then (wsStop 0, 2) else (wsStop 1, 2)

/-- The number of sources of a table (Table 15-2). -/
def shSize (k : Nat) : Nat := if k < 12 then 256 else 512

/-- The package-wide number G of source `i` of table `k` (Table 15-2). -/
def shG (k i : Nat) : Nat := if k < 12 then 256 * k + i else 3072 + 512 * (k - 12) + i

/-- The shared table of a stop, where it has one. -/
def shTableOf (st : Stop) : Option Nat :=
  match stopKind st with
  | .io => some (portOf st)
  | .waystation => some (12 + st.die.val)
  | _ => none

/-- Whether the boot manifest gives source `i` of table `k` to the secure world (R492). -/
def shSecure (s : State) (k i : Nat) : Bool :=
  rbit s (wsStop 0) 11 (WA_SHI_SEC + 4 * (shG k i / 32)) (shG k i % 32)

/-- SH_CFGi of a table as stored. -/
def shCfg (s : State) (k i : Nat) : Reg32 := rget s (shTable k).1 (shTable k).2 (SH_CFG + 8 * i)

/-- The level of a shared source in effect: the substitution of R487 against its world. -/
def pairLevel (lv : Nat) (w : World) : Level :=
  match w, lv with
  | _, 0 => .s
  | .normal, 3 => .h
  | .secure, 2 => .m
  | _, n => levelOf n

/-- The level and world of a shared source. -/
def shLevel (s : State) (k i : Nat) : Level × World :=
  let w := if shSecure s k i then World.secure else World.normal
  (pairLevel (getF (shCfg s k i) 9 2) w, w)

/-- The target of a shared source, where it is valid (R494). -/
def shTarget (s : State) (k i : Nat) : Option Hart :=
  let v := rget s (shTable k).1 (shTable k).2 (SH_TGT + 8 * i)
  let locus := getF v 0 16
  if getB v 19 then
    match stopOfLocus (pkgNum s) locus with
    | some st => if stopKind st = .cluster then some (.outrider ⟨8 * st.die.val + getF v 16 3 % 8, by omega⟩) else none
    | none => none
  else
    match droverOf (pkgNum s) locus with
    | some (.drover st c t) =>
      let c1 := if tileLocked s st then 0 else c
      if tileMode s st = 3 ∨ coreAbsent s st c1 = true then none else some (.drover st c1 t)
    | _ => none

/-- Whether shared source `i` of table `k` is pending. -/
def shPending (s : State) (k i : Nat) : Bool := setHas s.intr.shPend (k * 512 + i)

/-- The shared list of a thread (R495). -/
def shListOf (s : State) (h : Hart) : List Nat := mapGet (fun _ => []) s.intr.shList (hartKey h)

/-- The state with a thread's shared list replaced. -/
def setShList (s : State) (h : Hart) (l : List Nat) : State :=
  { s with intr := { s.intr with shList := mapSet (fun _ => []) s.intr.shList (hartKey h) l } }

/-- Whether a shared source is entered in a list: SH_CFG.FWD (R495). -/
def shFwd (s : State) (k i : Nat) : Bool := s.intr.shList.any fun e => e.2.contains (k * 512 + i)

/-- The state with a shared source withdrawn from every list (R496). -/
def shWithdraw (s : State) (k i : Nat) : State :=
  { s with intr := { s.intr with
      shList := (s.intr.shList.map fun e => (e.1, e.2.filter (· ≠ k * 512 + i))).filter fun e => e.2 ≠ [] } }

/-- The table offers a source that is pending and enabled and has a valid target; the list takes it while it holds fewer
than 32 entries (R495). -/
def shOffer (s : State) (k i : Nat) : State :=
  if shPending s k i && getB (shCfg s k i) 8 && !shFwd s k i then
    match shTarget s k i with
    | some h => if (shListOf s h).length < 32 then setShList s h (shListOf s h ++ [k * 512 + i]) else s
    | none => s
  else s

/-- The tables offer again every source that waits when a list entry frees (R495). -/
def shOfferAll (s : State) : State := s.intr.shPend.foldl (fun s e => shOffer s (e / 512) (e % 512)) s

/-! ## Candidates and delivery -/

/-- A candidate of a thread: its priority, its level and world, and which source it is; `shared` carries table × 512 + index. -/
structure Cand where
  prio : Nat
  level : Level
  world : World
  shared : Bool
  num : Nat
deriving DecidableEq, Repr

/-- Every pending and enabled source of a thread, private ones by number and shared ones in list order (R498, R502). -/
def pendEnabled (s : State) (h : Hart) : List Cand :=
  ((List.range 48).filterMap fun n =>
    if privPending s h n && privEnabled s h n then
      some ⟨getF (psrcCfg s h n) 0 8, (privLevel s h n).1, (privLevel s h n).2, false, n⟩
    else none) ++
  ((shListOf s h).filterMap fun e =>
    if getB (shCfg s (e / 512) (e % 512)) 8 then
      some ⟨getF (shCfg s (e / 512) (e % 512)) 0 8, (shLevel s (e / 512) (e % 512)).1, (shLevel s (e / 512) (e % 512)).2, true, e⟩
    else none)

/-- The candidates of a thread (R498). -/
def candidates (s : State) (h : Hart) : List Cand :=
  (pendEnabled s h).filter fun c => decide (c.prio < runPri s h c.world) && decide ((runStack s h c.world).length < 16)

/-- The best of a list of candidates: the lowest priority, the earlier one on a tie (R498). -/
def bestCand : List Cand → Option Cand
  | [] => none
  | c :: r =>
    match bestCand r with
    | none => some c
    | some d => if d.prio < c.prio then some d else some c

/-- The level to which an interrupt is taken at this boundary, where it is (Table 3-13; NSI_EXIT). -/
def deliverTo (t : Thread) (c : Cand) : Option Level :=
  let above := decide (levelCode t.level < levelCode c.level)
  if c.world = t.world then
    if above then some c.level
    else if c.level = t.level ∧ !t.im then some c.level
    else none
  else if c.world = .secure then some .m
  else if sbit t snM_CTL 0 then (if t.level = .m ∧ t.im then none else some .m)
  else none

/-- The interrupt a thread takes at a boundary: the best candidate among those R116 allows (R498). -/
def deliverable (s : State) (h : Hart) : Option (Cand × Level) :=
  match bestCand ((candidates s h).filter fun c => (deliverTo (tget s h) c).isSome) with
  | some c => (deliverTo (tget s h) c).map fun l => (c, l)
  | none => none

/-- What a read of INT_ACK returns to the owning thread at its level, and the state after it (R499, Table 15-3). -/
def intAck (s : State) (h : Hart) (w : World) : State × Reg32 :=
  match bestCand ((candidates s h).filter fun c => decide (c.world = w) && decide (c.level = (tget s h).level)) with
  | none => (s, 0x2000)
  | some c =>
    let s1 := setRunStack s h w (c.prio :: runStack s h w)
    if c.shared then
      let k := c.num / 512
      let i := c.num % 512
      let s2 := shWithdraw { s1 with intr := { s1.intr with shPend := setDel s1.intr.shPend c.num } } k i
      (shOfferAll s2, BitVec.ofNat 32 (i + 4096 + stopLocus (pkgNum s) (shTable k).1 * 65536))
    else if privLatched c.num then (privClear s1 h c.num, BitVec.ofNat 32 c.num)
    else (s1, BitVec.ofNat 32 c.num)

/-- A write of an end-of-interrupt register by the owning thread (R500). -/
def intEoi (s : State) (h : Hart) (w : World) : State :=
  match runStack s h w with
  | [] =>
    let p := intPage h
    rsetB s p.1 p.2.1 (p.2.2 + if w = .normal then INT_RUNPRI_N else INT_RUNPRI_S) 14 true
  | _ :: r => setRunStack s h w r

end Sys2Proof.Machine
end

