-- ==== Sys2Proof/Machine/Count.lean ====
section
/-!
DEFINITION. Performance counters: an event advances its counter, a wrap sets the overflow bit, a comparator fires.
-/

namespace Sys2Proof.Machine

/-- The package is frozen: no counter advances (R576). -/
def pmFrozen (s : State) : Bool := rbit s (wsStop 0) 7 PM_GSTAT 0

/-- The key of counter `e` of a thread, and of a scope. -/
def thrCnt (h : Hart) (e : Nat) : Nat := hartKey h * 256 + e
def scopeCnt (st : Stop) (e : Nat) : Nat := 0x100000 + stopIdx st * 256 + e

/-- The value of a counter. -/
def pmGet (s : State) (k : Nat) : BitVec 48 := mapGet (fun _ => 0) s.pm.cnt k

/-- The state with a counter advanced by `n`; a wrap sets its sticky overflow bit (R559, R562). -/
def pmAdd (s : State) (k n : Nat) : State :=
  let v := (pmGet s k).toNat + n
  let s1 := { s with pm := { s.pm with cnt := mapSet (fun _ => (0 : BitVec 48)) s.pm.cnt k (BitVec.ofNat 48 v) } }
  if 2 ^ 48 ≤ v then { s1 with pm := { s1.pm with ovf := setAdd s1.pm.ovf k } } else s1

/-- Whether counting is blocked for a world: the secure world while its non-invasive debug is not effective (R546). -/
def pmBlocked (s : State) (w : World) : Bool := decide (w = .secure) && !dbgNonInv s w

/-- A scope event of a stop; `w` is the world of a counted request, none for an event not attributed to a world (R546, R578). -/
def countScope (s : State) (st : Stop) (e n : Nat) (w : Option World) : State :=
  if pmFrozen s then s
  else if (match w with | some w => pmBlocked s w | none => false) then s
  else pmAdd s (scopeCnt st e) n

/-- Comparator `n` of a thread after an advance of counter `e` (R566): fires when the counter has reached NEXT modulo 2^48. -/
def comparator (s : State) (h : Hart) (e n : Nat) : State :=
  let t := tget s h
  let c := sget t (snPMU_CMP_CTL + n)
  let next := sfld t (snPMU_CMP_NEXT + n) 0 48
  let cnt := (pmGet s (thrCnt h e)).toNat
  if c.getLsbD 8 && decide (bits c.toNat 0 8 = e) && decide ((cnt + 2 ^ 48 - next) % 2 ^ 48 < 2 ^ 47) then
    let period := max 1 (sfld t (snPMU_CMP_PERIOD + n) 0 48)
    let t1 := if c.getLsbD 11 then sput t (snPMU_CMP_NEXT + n) (BitVec.ofNat 64 ((next + period) % 2 ^ 48))
      else sput t (snPMU_CMP_CTL + n) (c &&& ~~~(0x100 : Word))
    let t2 :=
      if c.getLsbD 10 then
        { t1 with smpSel := some (match t1.smpSel with
          | some (m, p) => (m ||| 2 ^ n, p)
          | none => (2 ^ n, true)) }
      else t1
    let s1 := tput s h t2
    if c.getLsbD 9 then privSet s1 h (4 + n) else s1
  else s

/-- A thread event: its counter advances by `n` and the comparators look at it (R546, R563, R566). -/
def countThread (s : State) (h : Hart) (e n : Nat) : State :=
  match h with
  | .drover _ _ _ =>
    let w := (tget s h).world
    if pmFrozen s || pmBlocked s w then s
    else
      let s1 := pmAdd s (thrCnt h e) n
      if dbgNonInv s w then
        (List.range 4).foldl (fun s n => comparator s h e n) s1
      else s1
  | _ => s

/-- Several thread events, each once. -/
def countEvents (s : State) (h : Hart) (es : List Nat) : State := es.foldl (fun s e => countThread s h e 1) s

/-! Numbers of the thread events (Table 18-8). -/

def evINST : Nat := 0x02
def evPRED_FALSE : Nat := 0x03
def evGROUPS : Nat := 0x04
def evEXC : Nat := 0x06
def evINT : Nat := 0x07
def evMCHK : Nat := 0x08
def evSYNC : Nat := 0x09
def evDEVICE : Nat := 0x0A
def evBR : Nat := 0x12
def evBR_TAKEN : Nat := 0x13
def evBR_MISPRED : Nat := 0x14
def evRET_MISPRED : Nat := 0x15
def evLOAD : Nat := 0x40
def evSTORE : Nat := 0x41
def evFWD : Nat := 0x44
def evREPLAY : Nat := 0x45
def evMO : Nat := 0x46
def evSPLIT : Nat := 0x47
def evA_SET : Nat := 0x65
def evD_SET : Nat := 0x66
def evTLB_INV : Nat := 0x67
def evWB_OPS : Nat := 0x70
def evWB_DONE : Nat := 0x71
def evWB_EMPTY : Nat := 0x72
def evWB_REFUSED : Nat := 0x73
def evAMO : Nat := 0x74
def evSTX_FAIL : Nat := 0x75
def evRECOVER : Nat := 0x80
def evWAKES : Nat := 0x82

/-- Thread events whose counts the model keeps; the others count cycles, predictions, ports, fills, data sources and lost reservations, which
it leaves out, and read as free values (log entry 4). -/
def pmKept (e : Nat) : Bool :=
  [evINST, evPRED_FALSE, evGROUPS, evEXC, evINT, evMCHK, evSYNC, evDEVICE, evBR, evBR_TAKEN, evBR_MISPRED, evRET_MISPRED,
   evLOAD, evSTORE, evFWD, evREPLAY, evMO, evSPLIT, evA_SET, evD_SET, evTLB_INV, evWB_OPS, evWB_DONE, evWB_EMPTY,
   evWB_REFUSED, evAMO, evSTX_FAIL, evRECOVER, evWAKES].contains e

/-- Thread events the catalogue lists (Table 18-8); any other number counts nothing (R560). -/
def pmListed (e : Nat) : Bool :=
  decide (e ≤ 0x0A) || decide (0x10 ≤ e ∧ e ≤ 0x17) || decide (0x20 ≤ e ∧ e ≤ 0x24) || decide (0x30 ≤ e ∧ e ≤ 0x3D) ||
  decide (0x40 ≤ e ∧ e ≤ 0x48) || decide (0x50 ≤ e ∧ e ≤ 0x5F) || decide (0x60 ≤ e ∧ e ≤ 0x67) ||
  decide (0x70 ≤ e ∧ e ≤ 0x76) || decide (0x80 ≤ e ∧ e ≤ 0x83)

end Sys2Proof.Machine
end

