-- ==== Sys2Proof/Machine/Dom.lean ====
section
/-!
DEFINITION. Power domains: what lies in each, their sequencers' registers, stopping a thread, and the reset of one domain
(Tables 1-5, 16-12 to 16-14, 21-7).
-/

namespace Sys2Proof.Machine

/-- Whether a stop has domain `d` (Table 16-12). -/
def domExists (st : Stop) (d : Nat) : Bool :=
  decide (d = 15) ||
  match stopKind st with
  | .tile => decide (d ≤ 2)
  | .memory => decide (d ≤ 1)
  | .io => decide (d = 0)
  | .ford => decide (d = 0)
  | .cluster => decide (d < 8)
  | .waystation => false

/-- A field of DSEQ_STATd, and the state with it replaced. -/
def dstat (s : State) (st : Stop) (d lo w : Nat) : Nat := rfld s st 9 (0x10 * d + DSEQ_STAT) lo w
def dstatPut (s : State) (st : Stop) (d lo w v : Nat) : State := rputF s st 9 (0x10 * d + DSEQ_STAT) lo w v

/-! DSEQ_STAT.STATE (Table 16-14). -/

def dOFF : Nat := 0
def dENTERING : Nat := 1
def dON : Nat := 2
def dWAKING : Nat := 3
def dRETAINED : Nat := 4
def dFAILED : Nat := 5

/-- DSEQ_STAT.STATE of a domain. -/
def domState (s : State) (st : Stop) (d : Nat) : Nat := dstat s st d 0 3

/-- The state with a domain's STATE replaced. -/
def setDom (s : State) (st : Stop) (d v : Nat) : State := dstatPut s st d 0 3 v

/-- Whether the boot manifest assigns a domain to the secure world (DSEQ_STAT.SECURE, R518). -/
def domSecure (s : State) (st : Stop) (d : Nat) : Bool := decide (dstat s st d 6 1 = 1)

/-- Whether a rail is up: VDD_UNC, on which stop domains run (R23; RAIL_STAT). -/
def uncUp (s : State) : Bool := rbit s (wsStop 0) 3 RAIL_STAT 8

/-- The domain that a block's registers lie in (R65, R272, R312, R348; log entry 9). -/
def blkDomain (st : Stop) (blk off : Nat) : Nat :=
  match stopKind st with
  | .tile =>
    if blk = 1 ∨ blk = 3 then 0
    else if blk = 2 ∨ blk = 4 then 1
    else if blk = 5 then (if 0x1000 ≤ off ∧ off < 0x8000 then 15 else 2)
    else 15
  | .memory => if blk = 1 ∨ blk = 3 then 0 else if blk = 2 ∨ blk = 4 then 1 else 15
  | .io => if blk = 1 ∨ blk = 2 ∨ blk = 3 ∨ blk = 5 ∨ blk = 6 then 0 else 15
  | .ford => if blk = 1 ∨ blk = 2 then 0 else 15
  | _ => 15

/-- The threads that run in a domain; a locked or degraded tile has the two threads of its one logical core, which its core 0
stands for (R210, R466, R480). -/
def domHarts (s : State) (st : Stop) (d : Nat) : List Hart :=
  match stopKind st with
  | .tile =>
    if tileLocked s st then (if d ≤ 1 then [.drover st 0 0, .drover st 0 1] else [])
    else if d = 0 then [.drover st 0 0, .drover st 0 1]
    else if d = 1 then [.drover st 1 0, .drover st 1 1]
    else []
  | .cluster => if h : d < 8 then [.outrider ⟨8 * st.die.val + d, by have := st.die.isLt; omega⟩] else []
  | _ => []

/-- The core domain a Drover thread runs in: in a degraded tile the survivor's (R480). -/
def hartDom (s : State) (h : Hart) : Nat :=
  match h with
  | .drover st c _ => if tileMode s st = 2 then rfld s st 0 LOCK_STAT 2 1 else c.val
  | .outrider n => n.val % 8
  | .waystation _ => 15

/-- Memory with every byte and mark of a range cleared. -/
def memZero (s : State) (a n : Nat) : State :=
  { s with mem :=
    { bytes := s.mem.bytes.filter fun c => !(decide (a ≤ c.1) && decide (c.1 < a + n))
      poison := s.mem.poison.filter fun g => !(decide (a ≤ 8 * g) && decide (8 * g < a + n)) } }

/-- Every committed store of a thread written (R207); in a locked tile those that have compared good (R475). -/
def flushStores (s : State) (h : Hart) : State :=
  let t := tget s h
  let locked := match h with
    | .drover st _ _ => decide (tileMode s st = 1)
    | _ => false
  let go := if locked then t.stores.filter fun e => e.good else t.stores
  go.foldl (fun s e => agentWrite s (some h) e.pa e.bytes) (tput s h { t with stores := [] })

/-- A thread that stops: its stores have drained, its reservation is cleared and its architectural state is discarded (R207, R401);
its return stack is no architectural state. -/
def stopThread (s : State) (h : Hart) : State :=
  let s1 := flushStores s h
  let t := tget s1 h
  tput s1 h { Thread.initial with rstack := t.rstack, rtop := t.rtop }

/-- A core whose domain loses power or is reset: predictors, cached translations, return stacks and the lines of its L2 are lost
(R198, R254, R304). -/
def coreLost (s : State) (st : Stop) (d : Fin 2) : State :=
  let k := coreKey st d
  let n := coreNum st d
  let s0 := { s with cache := { s.cache with
      l2 := s.cache.l2.filter fun e => e.1 / 32768 ≠ n
      l1 := s.cache.l1.filter fun e => e.1 / 2048 ≠ n
      plru := s.cache.plru.filter fun e => e.1 / 4096 ≠ n } }
  let s1 := cput s0 k (cget s k).forget
  [Hart.drover st d 0, Hart.drover st d 1].foldl (fun s h =>
    tmod s h fun t => { t with rstack := Vector.replicate 32 (0, none), rtop := 0 }) s1

/-- Contents of a slice's depot ways zeroed. -/
def zeroDepot (s : State) (st : Stop) : State :=
  (List.range 8).foldl (fun s i =>
    if wayIsDepot s st (4 + i) then memZero s (depotBase (pkgNum s) st + 0x40000 * i) 0x40000 else s) s

/-- Depot-backed queues of a slice emptied, the messages lost, those lent among them, counted in DROP_UNAVAIL (R348); a hole is no
message (R362). -/
def emptyDepotQueues (s : State) (st : Stop) : State :=
  (List.range 128).foldl (fun s q =>
    let b := wbqBase q
    let hd := (rget s st 5 (b + WBQ_HEAD)).toNat
    let tl := (rget s st 5 (b + WBQ_TAIL)).toNat
    if wbqFld s st q WBQ_CFG 7 1 = 0 ∧ (hd ≠ 0 ∨ tl ≠ 0) then
      let k := stopIdx st * 128 + q
      let lent := s.wb.prov.countP fun p => decide (p.queue = k) && p.get
      let lost := (tl + 2 ^ 32 - hd) % 2 ^ 32 + lent - s.wb.holes.countP fun e => decide (e.1 = k)
      let s1 := rput s st 5 (b + WBQ_DROP_UNAVAIL)
        (BitVec.ofNat 32 (satAdd 32 (rget s st 5 (b + WBQ_DROP_UNAVAIL)).toNat lost))
      let s2 := rput (rput s1 st 5 (b + WBQ_HEAD) 0) st 5 (b + WBQ_TAIL) 0
      { s2 with wb := { s2.wb with prov := s2.wb.prov.filter fun p => decide (p.queue ≠ k), holes := s2.wb.holes.filter fun e => decide (e.1 ≠ k) } }
    else s) s

end Sys2Proof.Machine
end

