-- ==== Sys2Proof/Machine/Wire.lean ====
section
/-!
DEFINITION. Sending messages to other packages over Caravan links: routes, relays, credits and sequence numbers (R330, R331, R336).
-/

namespace Sys2Proof.Machine

/-- The locus of the first stop of a package, which stands for the package. -/
def pkgLocus (p : Nat) : Nat := p * 16384

/-- An end of a Caravan link when nothing has been sent: the first flit carries SEQ 0 (log entry 11). -/
def CvLink.initial : CvLink := ⟨0, 1023, [], [], false, none, 0, [], 0, false⟩

/-- The link state of port `n`. -/
def cvGet (s : State) (n : Nat) : CvLink := mapGet (fun _ => CvLink.initial) s.link.cv n

/-- The state with the link state of port `n` replaced. -/
def cvPut (s : State) (n : Nat) (c : CvLink) : State :=
  { s with link := { s.link with cv := mapSet (fun _ => CvLink.initial) s.link.cv n c } }

/-- A field of CV_STAT, and the state with it replaced. -/
def cvStat (s : State) (n : Fin 12) (lo w : Nat) : Nat := rfld s (portStop n) cvBlk CV_STAT lo w
def cvStatPut (s : State) (n : Fin 12) (lo w v : Nat) : State := rputF s (portStop n) cvBlk CV_STAT lo w v

/-- CV_STAT.STATE (Table 9-13): 2 active, 3 retraining, 4 dead. -/
def cvState (s : State) (n : Fin 12) : Nat := cvStat s n 0 3

/-- The ports in Caravan mode. -/
def cvPorts (s : State) : List (Fin 12) := (List.finRange 12).filter fun n => decide (portProto s n.val = 2)

/-- The partner a port is meant to reach: CV_CTL.PARTNER. -/
def cvPartner (s : State) (n : Fin 12) : Nat := rfld s (portStop n) cvBlk CV_CTL 0 2

/-- The first live link to a package. -/
def cvDirect (s : State) (p : Nat) : Option (Fin 12) :=
  (cvPorts s).find? fun n => decide (cvPartner s n = p) && decide (cvState s n = 2)

/-- The dead partners package `p` has announced. -/
def deadOf (s : State) (p : Nat) : Nat := mapGet (fun _ => 0) s.link.deadOf p

/-- The package that relays traffic to `q` while no link to it lives: the lowest-numbered member other than this package and `q` with
live links to both (R336). -/
def relayFor (s : State) (q : Nat) : Option Nat :=
  (List.range 4).find? fun r =>
    decide (r ≠ pkgNum s ∧ r ≠ q) && bit s.pkg.members r && (cvDirect s r).isSome && !bit (deadOf s r) q

/-- The port a message for package `q` leaves by, and whether it is relayed. -/
def cvRoute (s : State) (q : Nat) : Option (Fin 12 × Bool) :=
  match cvDirect s q with
  | some n => some (n, false)
  | none =>
    match relayFor s q with
    | some r => (cvDirect s r).map fun n => (n, true)
    | none => none

/-- The virtual channel of a message (Tables 9-1, 9-9): 0 Request, 1 Response, 2 Snoop, 3 Courier for the class C requests of the Outriders
and the Waystation. -/
def msgVc (m : NodeMsg) : Nat :=
  if m.op = 0x20 ∨ m.op = 0x21 then 2
  else if 0x30 ≤ m.op then 1
  else match m.src with
    | some i => if i < 0x20 then 3 else 0
    | none => 0

/-- The slots of a message: its header and DLEN more (Table 9-9). -/
def opSlots (m : NodeMsg) : Nat :=
  match m.op with
  | 0x05 => 6
  | 0x06 => 5
  | 0x07 => if m.data.isEmpty then 1 else 5
  | 0x08 | 0x09 | 0x0C | 0x0D => 2
  | 0x0A => if m.data.length ≤ 8 then 2 else 3
  | 0x0B => 2 + (m.data.length + 15) / 16
  | 0x30 | 0x33 => 5
  | 0x35 => if m.data.isEmpty then 1 else 2
  | _ => 1

/-- Slots a receiver offers (R331), by channel: 0 to 3 normal, 4 to 7 escape. -/
def cvCredits (ch : Nat) : Nat :=
  match ch with
  | 0 => 256 | 1 => 512 | 2 => 256 | 3 => 64 | _ => 32

/-- Whether a message can be sent now, and by which port and channel: every slot has a credit and the replay buffer has room
(R330, R331). -/
def cvReady (s : State) (m : NodeMsg) : Option (Fin 12 × Nat) :=
  match cvRoute s (m.dst / 16384) with
  | none => none
  | some (n, relay) =>
    let c := cvGet s n.val
    let ch := msgVc m + if relay then 4 else 0
    if mapGet (fun _ => 0) c.used ch + opSlots m ≤ cvCredits ch ∧ c.buf.length < 512 then some (n, ch) else none

/-- The state with a message sent by a port. -/
def cvSend (s : State) (m : NodeMsg) (n : Fin 12) (ch : Nat) : State :=
  let c := cvGet s n.val
  let s1 := cvPut s n.val { c with
    tx := (c.tx + 1) % 1024
    buf := c.buf ++ [c.tx]
    used := mapSet (fun _ => 0) c.used ch (mapGet (fun _ => 0) c.used ch + opSlots m) }
  { s1 with link := { s1.link with sent := s1.link.sent ++ [m] } }

/-- Messages that can be sent are sent; one that cannot holds back later ones of its channel to the same package (R318). -/
def pump (s : State) : State :=
  let r := s.link.out.foldl (fun (a : State × List NodeMsg) m =>
    let stuck := a.2.any fun k => decide (k.dst / 16384 = m.dst / 16384) && decide (msgVc k = msgVc m)
    match (if stuck then none else cvReady a.1 m) with
    | some (n, ch) => (cvSend a.1 m n ch, a.2)
    | none => (a.1, a.2 ++ [m])) (s, [])
  { r.1 with link := { r.1.link with out := r.2 } }

/-- The source identifier of a thread's requests (Table 6-3): none on a Drover core, whose requests are class D. -/
def hartSrc : Hart → Option Nat
  | .drover _ _ _ => none
  | .outrider n => some n.val
  | .waystation _ => some 0x10

/-- The source identifier of a stream of a port (Table 6-3): an unmarked request is class D (R590). -/
def streamSrc (n stream : Nat) : Option Nat := if stream = 0 then none else some (0x400 + 64 * n + stream)

/-- The state with a message for another package on its way. -/
def sendMsg (s : State) (op dst tag addr arg : Nat) (data : List Byte) : State :=
  pump { s with link := { s.link with out := s.link.out ++ [⟨op, dst, tag, addr, arg, data, none⟩] } }

/-- The state with a message of a source on its way that waits for an answer. -/
def sendFrom (s : State) (src : Option Nat) (h : Option Hart) (op dst addr arg : Nat) (data : List Byte) : State :=
  let m : NodeMsg := ⟨op, dst, s.link.nextTag, addr, arg, data, src⟩
  pump { s with link := { s.link with
      out := s.link.out ++ [m], waiting := s.link.waiting ++ [(m, h)], nextTag := s.link.nextTag + 1 } }

/-- The state with a message on its way that waits for an answer, of a thread's class where a thread waits for it (R223, R224). -/
def sendWait (s : State) (h : Option Hart) (op dst addr arg : Nat) (data : List Byte) : State :=
  sendFrom s (h.bind hartSrc) h op dst addr arg data

/-- Whether the copies that other packages than `but` hold of a line of this package allow a read or a write (R279, R283). -/
def lentReady (s : State) (line : Nat) (write : Bool) (but : Option Nat := none) : Bool :=
  s.link.lent.all fun l => decide (l.1 ≠ line) || decide (some l.2.1 = but) || (!write && decide (l.2.2 ≠ 1) && decide (l.2.2 ≠ 2))

/-- The holders of a line in other packages are snooped, each once (R283, R338). -/
def snoopLent (s : State) (line : Nat) (write : Bool) (but : Option Nat := none) : State :=
  let op := if write then 0x21 else 0x20
  (s.link.lent.filter fun l => decide (l.1 = line) && decide (some l.2.1 ≠ but)).foldl (fun s l =>
    if s.link.waiting.any fun m => decide (m.1.op = op ∧ m.1.addr = 64 * line ∧ m.1.dst = pkgLocus l.2.1) then s
    else sendWait s none op (pkgLocus l.2.1) (64 * line) 0 []) s

/-- The state with a package recorded as holding a line, or no longer. -/
def lend (s : State) (line p : Nat) (st : Option Nat) : State :=
  let l := s.link.lent.filter fun e => !(decide (e.1 = line) && decide (e.2.1 = p))
  { s with link := { s.link with lent := match st with | some v => l ++ [(line, p, v)] | none => l } }

end Sys2Proof.Machine
end

