-- ==== Sys2Proof/Machine/Slices.lean ====
section
/-!
DEFINITION. What caches hold: the caches of a core, the directory and arrays of the home slices, the line caches of the Outriders, how a
line leaves each of them, and the reset of one domain, which empties them (R273 to R281, R304, R387 to R390, R444).
-/

namespace Sys2Proof.Machine

/-! ## Outriders -/

/-- An Outrider beyond its thread. -/
def orGet (s : State) (n : Fin 16) : OrSt := mapGet (fun _ => OrSt.initial) s.orr n.val

/-- The state with it replaced. -/
def orPut (s : State) (n : Fin 16) (o : OrSt) : State :=
  { s with orr := mapSet (fun _ => OrSt.initial) s.orr n.val o }

/-- The stop and the first offset of an Outrider's register group (R403). -/
def orRegs (n : Fin 16) : Stop × Nat := (orStop ⟨n.val / 8, by omega⟩, 0x1000 * (n.val % 8))

/-- The Outrider of a die by its index. -/
def orOf (die : Fin 2) (i : Fin 8) : Fin 16 := ⟨8 * die.val + i.val, by omega⟩

/-! ## The line cache (R387 to R390) -/

/-- An entry of a line cache. -/
def lcAt (o : OrSt) (k : Nat) : Option (Nat × Bool) := mapGet (fun _ => none) o.lc k

/-- The line cache with an entry replaced. -/
def lcSet (o : OrSt) (k : Nat) (e : Option (Nat × Bool)) : OrSt := { o with lc := mapSet (fun _ => none) o.lc k e }

/-- The entry that holds a line. -/
def lcFind (o : OrSt) (line : Nat) : Option Nat :=
  (o.lc.find? fun e => e.2.map Prod.fst = some line).map Prod.fst

/-- Locked entries. -/
def lcLocked (o : OrSt) : Nat := o.lc.countP fun e => match e.2 with | some (_, l) => l | none => false

/-- The state after a line leaves an Outrider's line cache: a reservation on it is cleared (R383). -/
def lcDropped (s : State) (n : Fin 16) (line : Nat) : State :=
  tmod s (.outrider n) fun t => loseResv t (64 * line) 64

/-- The line is filled where it is absent, replacing the next unlocked entry in round-robin order (R387). -/
def lcFill (s : State) (n : Fin 16) (line : Nat) (lock : Bool) : State :=
  let o := orGet s n
  match lcFind o line with
  | some k => if lock then orPut s n (lcSet o k (some (line, true))) else s
  | none =>
    match (List.range 48).findSome? fun i =>
        let k := (o.ptr + i) % 48
        match lcAt o k with
        | some (_, true) => none
        | _ => some k with
    | none => s
    | some k =>
      let s1 := match lcAt o k with
        | some (old, _) => lcDropped s n old
        | none => s
      orPut s1 n { lcSet o k (some (line, lock)) with ptr := (k + 1) % 48 }

/-- Whether a line is in the line cache of any Outrider. -/
def lcAny (s : State) (line : Nat) : Bool := (List.finRange 16).any fun n => (lcFind (orGet s n) line).isSome

/-- Whether a line is in an Outrider's line cache. -/
def lcHas (s : State) (n : Fin 16) (pa : Nat) : Bool := (lcFind (orGet s n) (pa / 64)).isSome

/-! ## Slices and L2s -/

/-- An empty slice. -/
def SliceSt.initial : SliceSt := ⟨[], 0, [], 0, [], [], [], [], [], []⟩

/-- The cache state of a slice, and the state with it replaced. -/
def sliceGet (s : State) (st : Stop) : SliceSt := mapGet (fun _ => SliceSt.initial) s.cache.slices (stopIdx st)
def slicePut (s : State) (st : Stop) (v : SliceSt) : State :=
  { s with cache := { s.cache with slices := mapSet (fun _ => SliceSt.initial) s.cache.slices (stopIdx st) v } }
def sliceMod (s : State) (st : Stop) (f : SliceSt → SliceSt) : State := slicePut s st (f (sliceGet s st))

/-- The set of a line in an L3 slice and in its snoop filter: PA[21:10] (R275, R280). -/
def l3SetOf (line : Nat) : Nat := line / 16 % 4096

/-- The core with a number (R280). -/
def coreStop (n : Nat) : Stop := ⟨⟨n / 96 % 2, by omega⟩, ⟨1 + n % 96 / 24, by omega⟩, ⟨n % 24 / 2, by omega⟩⟩
def coreOf (n : Nat) : Fin 2 := ⟨n % 2, by omega⟩

/-- L2 states (Table 8-3). -/
def l2S : Nat := 1
def l2E : Nat := 2
def l2O : Nat := 3
def l2M : Nat := 4

/-- The key of a way of a core's L2. -/
def l2Key (n line way : Nat) : Nat := n * 32768 + line % 2048 * 16 + way

/-- The way of a core's L2 that holds a line, with its state. -/
def l2Find (s : State) (n line : Nat) : Option (Nat × Nat) :=
  (List.range 16).findSome? fun w =>
    let e := mapGet (fun _ => (0, 0)) s.cache.l2 (l2Key n line w)
    if e.1 = line ∧ e.2 ≠ 0 then some (w, e.2) else none

/-- The state with a way of a core's L2 holding a line in a state; state 0 empties it. -/
def l2Put (s : State) (n line way v : Nat) : State :=
  { s with cache := { s.cache with
      l2 := mapSet (fun _ => (0, 0)) s.cache.l2 (l2Key n line way) (if v = 0 then (0, 0) else (line, v)) } }

/-- The state with a line that a core holds moved to another state. -/
def l2Move (s : State) (n line v : Nat) : State :=
  match l2Find s n line with
  | some (w, _) => l2Put s n line w v
  | none => s

/-- The cores that hold a line, with their states. -/
def l2Holders (s : State) (line : Nat) : List (Nat × Nat) :=
  (s.cache.l2.filter fun e => decide (e.2.1 = line)).map fun e => (e.1 / 32768, e.2.2)

/-- Whether a core holds a line in M or O. -/
def l2Owned (s : State) (line : Nat) : Bool := (l2Holders s line).any fun e => decide (3 ≤ e.2)

/-- The block that controls a core's L2: in a degraded tile block 3 controls the survivor's (R303). -/
def l2CtlBlk (s : State) (n : Nat) : Nat := if tileMode s (coreStop n) = 2 then 3 else 3 + n % 2

/-- Whether the caches of a core may allocate (R299). -/
def l2Enabled (s : State) (n : Nat) : Bool :=
  rbit s (coreStop n) (l2CtlBlk s n) BLOCK_CTL 0 && !rbit s (coreStop n) (l2CtlBlk s n) L2_STAT 0

/-- The threads whose lines a core's caches hold. -/
def coreHarts (s : State) (n : Nat) : List Hart := domHarts s (coreStop n) (n % 2)

/-- The core whose caches a Drover thread uses: the survivor's in a degraded tile (R480), core 0's in a locked one (R466). -/
def hartCache (s : State) (h : Hart) : Nat :=
  match h with
  | .drover st c _ => coreNum st (if tileMode s st = 2 then (if rbit s st 0 LOCK_STAT 2 then 1 else 0) else c)
  | _ => 0

/-- The key of a way that disables itself: 0–15 and 16–31 the L2s' ways, 32–39 and 40–47 the L1 data ways, 48–59 the slice's. -/
def disKey (st : Stop) (place : Nat) : Nat := stopIdx st * 64 + place

/-- Whether a way of a core's L2 may be filled. -/
def l2WayOk (s : State) (n w : Nat) : Bool :=
  let st := coreStop n
  !rbit s st (3 + n % 2) L2_WAY_FAILED w && !setHas s.cache.disab (disKey st (16 * (n % 2) + w))

/-! ## Pseudo-LRU trees (R276) -/

/-- A number with bit `i` set or cleared. -/
def putBit (b i : Nat) (v : Bool) : Nat := if bit b i = v then b else if v then b + 2 ^ i else b - 2 ^ i

/-- The tree of a set of 2 ^ lv ways with every node on way `w`'s path pointing at it, or away from it. Node 1 is the root, nodes 2 i
and 2 i + 1 lie below node i; a node that is 1 points at the upper ways. -/
def plruPoint (lv b w : Nat) (toward : Bool) : Nat :=
  (List.range lv).foldl (fun b i => putBit b (2 ^ i + w / 2 ^ (lv - i)) (bit w (lv - 1 - i) == toward)) b

/-- The way that a tree points at from depth `d` on, among the ways that may be used; a node none of whose pointed-at ways may be used
gives its other side (log entry 91). -/
def plruWalk (lv b : Nat) (ok : Nat → Bool) (pre : Nat) : Nat → Option Nat
  | 0 => if ok pre then some pre else none
  | d + 1 =>
    let k := b2n (bit b (2 ^ (lv - 1 - d) + pre))
    match plruWalk lv b ok (2 * pre + k) d with
    | some w => some w
    | none => plruWalk lv b ok (2 * pre + 1 - k) d

/-- The victim of a set of 2 ^ lv ways. -/
def plruVictim (lv b : Nat) (ok : Nat → Bool) : Option Nat := plruWalk lv b ok 0 lv

/-- The tree of a set, and the state with it replaced; the sets of a core are numbered as `CacheSt.plru` says. -/
def plruGet (s : State) (n set : Nat) : Nat := mapGet (fun _ => 0) s.cache.plru (n * 4096 + set)
def plruPut (s : State) (n set b : Nat) : State :=
  { s with cache := { s.cache with plru := mapSet (fun _ => 0) s.cache.plru (n * 4096 + set) b } }

/-- The state after an access to a way of a set of 2 ^ lv ways: the tree points away from it, after a streaming fill at it. -/
def plruUse (s : State) (n set lv w : Nat) (stream : Bool) : State := plruPut s n set (plruPoint lv (plruGet s n set) w stream)

/-! ## L1 (R273, R274) -/

/-- The key of a way of an L1; side 0 is the instruction cache, 1 the data cache. -/
def l1Key (n side set w : Nat) : Nat := ((n * 2 + side) * 128 + set) * 8 + w

/-- The state with a way of an L1 holding a line, as line + 1, or nothing, 0. -/
def l1Put (s : State) (n side set w v : Nat) : State :=
  { s with cache := { s.cache with l1 := mapSet (fun _ => 0) s.cache.l1 (l1Key n side set w) v } }

/-- The way of a set of an L1 that holds a line. -/
def l1Find (s : State) (n side set line : Nat) : Option Nat :=
  (List.range 8).find? fun w => decide (mapGet (fun _ => 0) s.cache.l1 (l1Key n side set w) = line + 1)

/-- Whether a way of an L1 may be filled: ways of the data cache can fail (R295). -/
def l1WayOk (s : State) (n side w : Nat) : Bool :=
  let st := coreStop n
  decide (side = 0) ||
  (!rbit s st (3 + n % 2) L1D_WAY_FAILED w && !setHas s.cache.disab (disKey st (32 + 8 * (n % 2) + w)))

/-- The state with a line not in one L1 of a core. -/
def l1SideDrop (s : State) (n side line : Nat) : State :=
  { s with cache := { s.cache with l1 := s.cache.l1.filter fun e => !(decide (e.1 / 1024 = 2 * n + side) && decide (e.2 = line + 1)) } }

/-- The state with a line in no L1 of a core (R274). -/
def l1Drop (s : State) (n line : Nat) : State :=
  { s with cache := { s.cache with l1 := s.cache.l1.filter fun e => !(decide (e.1 / 2048 = n) && decide (e.2 = line + 1)) } }

/-- An access to a line that the core's L2 holds brings it into the L1 set that the virtual address names, out of the other set where it
lay in that (R274, R276); one in a way that disables itself serves it and leaves (R295). -/
def l1Use (s : State) (n side va line : Nat) (stream : Bool) : State :=
  let set := va / 64 % 128
  let tree := 2048 + 128 * side + set
  match l1Find s n side set line with
  | some w =>
    let s1 := plruUse s n tree 3 w false
    if side = 1 ∧ setHas s.cache.disab (disKey (coreStop n) (32 + 8 * (n % 2) + w)) = true then l1Put s1 n side set w 0 else s1
  | none =>
    let free := (List.range 8).find? fun w => l1WayOk s n side w && decide (mapGet (fun _ => 0) s.cache.l1 (l1Key n side set w) = 0)
    match free.orElse fun _ => plruVictim 3 (plruGet s n tree) (l1WayOk s n side) with
    | none => s
    | some w =>
      let other := (set + 64) % 128
      let s1 := match l1Find s n side other line with
        | some o => l1Put s n side other o 0
        | none => s
      plruUse (l1Put s1 n side set w (line + 1)) n tree 3 w stream

/-! ## The L3 array -/

/-- The way of a slice that holds a line. -/
def l3Find (sl : SliceSt) (line : Nat) : Option (Nat × L3Line) :=
  (List.range 12).findSome? fun w =>
    match mapGet (fun _ => none) sl.arr (l3SetOf line * 12 + w) with
    | some e => if e.line = line then some (w, e) else none
    | none => none

/-- The slice with a way of a line's set holding an entry. -/
def l3Put (sl : SliceSt) (line w : Nat) (e : Option L3Line) : SliceSt :=
  { sl with arr := mapSet (fun _ => none) sl.arr (l3SetOf line * 12 + w) e }

/-- Whether a line has a transaction in progress at its slice: a request that waits, a prefetch or a fill that waits. -/
def lineBusy (sl : SliceSt) (line : Nat) : Bool :=
  (sl.waits.any fun e => decide (e.2.2 = line)) || sl.pref.contains line || sl.fills.any fun e => decide (e.1 = line)

/-- The ways of a slice that hold cache lines and may be filled (R286): not depot, not failed, not disabling themselves. -/
def l3Ways (s : State) (st : Stop) : List Nat :=
  (List.range 12).filter fun w =>
    !bit (depotMask s st) w && !rbit s st 5 L3_DEPOT w && !rbit s st 5 L3_WAY_FAILED w && !setHas s.cache.disab (disKey st (48 + w))

/-- Candidates for a fill in a line's set: without the ways whose line has a transaction in progress (R286). -/
def l3Cand (s : State) (st : Stop) (line : Nat) : List Nat :=
  (l3Ways s st).filter fun w =>
    match mapGet (fun _ => none) (sliceGet s st).arr (l3SetOf line * 12 + w) with
    | some e => !lineBusy (sliceGet s st) e.line
    | none => true

/-- The victim of R286 among `n` ways: the first candidate from the pointer on whose age, after the fewest passes, is 3; the pass
that finds it is returned with it. `age w` is 3 for an invalid way. -/
def pickVictim (n ptr : Nat) (cand : List Nat) (age : Nat → Nat) : Option (Nat × Nat) :=
  (List.range 4).findSome? fun k =>
    ((List.range n).map fun i => (ptr + i) % n).findSome? fun w =>
      if cand.contains w ∧ 3 ≤ age w + k then some (w, k) else none

/-- The age of a way of a set of the array; 3 where it is invalid. -/
def l3Age (sl : SliceSt) (line w : Nat) : Nat :=
  match mapGet (fun _ => none) sl.arr (l3SetOf line * 12 + w) with
  | some e => e.age
  | none => 3

/-- Candidates' ages raised by the passes made, at most to 3 (R286). -/
def l3Bump (sl : SliceSt) (line k : Nat) (cand : List Nat) : SliceSt :=
  cand.foldl (fun sl w =>
    match mapGet (fun _ => none) sl.arr (l3SetOf line * 12 + w) with
    | some e => l3Put sl line w (some { e with age := min 3 (e.age + k) })
    | none => sl) sl

/-- Whether a slice makes fills (R300). -/
def l3Enabled (s : State) (st : Stop) : Bool := rbit s st 5 BLOCK_CTL 0 && !rbit s st 5 L3_STAT 0

/-- A fill of a line into a slice (R286, R287, R291): a dirty victim that no core owns enters the eviction buffer; with the
buffer full the fill waits. A line that the slice holds keeps its age or takes the age `hit` (Table 8-2). -/
def l3Fill (s : State) (st : Stop) (line : Nat) (dirty : Bool) (age : Nat) (hit : Option Nat := some 0) : State :=
  let sl := sliceGet s st
  match l3Find sl line with
  | some (w, e) => slicePut s st (l3Put sl line w (some { e with dirty := e.dirty || dirty, age := hit.getD e.age }))
  | none =>
    let cand := l3Cand s st line
    if !l3Enabled s st then s
    else
      match pickVictim 12 sl.ptr cand (l3Age sl line) with
      | none => s
      | some (w, k) =>
        let victim := mapGet (fun _ => none) sl.arr (l3SetOf line * 12 + w)
        let out := match victim with
          | some v => v.dirty && !l2Owned s v.line
          | none => false
        if out && decide (32 ≤ sl.evb.length) then slicePut s st { sl with fills := sl.fills ++ [(line, dirty, age)] }
        else
          let sl1 := l3Put (l3Bump sl line k cand) line w (some ⟨line, dirty, age⟩)
          let evb := match victim with
            | some v => if out then sl.evb ++ [⟨v.line, false, []⟩] else sl.evb
            | none => sl.evb
          slicePut s st { sl1 with ptr := (w + 1) % 12, evb := evb }

/-- The state with the age of a line the array holds set. -/
def l3SetAge (s : State) (st : Stop) (line age : Nat) : State :=
  let sl := sliceGet s st
  match l3Find sl line with
  | some (w, e) => slicePut s st (l3Put sl line w (some { e with age := age }))
  | none => s

/-! ## The snoop filter -/

/-- The way of the snoop filter that records a line. -/
def sfFind (sl : SliceSt) (line : Nat) : Option (Nat × SfEnt) :=
  (List.range 24).findSome? fun w =>
    match mapGet (fun _ => none) sl.sf (l3SetOf line * 24 + w) with
    | some e => if e.line = line then some (w, e) else none
    | none => none

/-- The slice with a way of the snoop filter holding an entry. -/
def sfPut (sl : SliceSt) (line w : Nat) (e : Option SfEnt) : SliceSt :=
  { sl with sf := mapSet (fun _ => none) sl.sf (l3SetOf line * 24 + w) e }

/-- The cores an entry of the snoop filter records: with a coarse entry every core of each marked group (R280). -/
def sfCores (e : SfEnt) : List Nat :=
  if e.coarse then (List.range 192).filter fun n => bit e.vec (n / 8) else e.cores

/-- A core no longer holds a line: its L1 copies go first, and reservations of its threads on the line are lost (R148, R274). -/
def l2Lose (s : State) (n line w : Nat) : State :=
  (coreHarts s n).foldl (fun s h => tmod s h fun t => loseResv t (64 * line) 64) (l2Put (l1Drop s n line) n line w 0)

/-- Whether an entry records no holder, so that it is free. -/
def sfFree (e : SfEnt) : Bool := e.cores.isEmpty && !e.coarse && decide (e.pkgs = 0) && decide (e.courier = 0)

/-- The state with a core that no longer holds a line removed from a precise entry; an entry with no holder is freed. -/
def sfDropCore (s : State) (st : Stop) (line n : Nat) : State :=
  let sl := sliceGet s st
  match sfFind sl line with
  | some (i, e) =>
    if e.coarse then s
    else
      let e1 := { e with cores := setDel e.cores n, owner := e.owner.filter fun o => decide (o.1 ≠ n) }
      slicePut s st (sfPut sl line i (if sfFree e1 then none else some e1))
  | none => s

/-- A core no longer holds a line of another package: the proxy slice no longer records it (R337). -/
def proxyDrop (s : State) (line n : Nat) : State :=
  match proxyOf s (64 * line) with
  | some st => sfDropCore s st line n
  | none => s

/-- A line of another package that neither a core nor an Outrider of this one holds any longer goes back: WriteBack with its bytes where it is dirty, Notify
otherwise (R279, Table 9-9). -/
def remoteLeave (s : State) (line : Nat) : State :=
  match paTarget s (64 * line) with
  | .remoteMem p =>
    if !(l2Holders s line).isEmpty || lcAny s line then s
    else
      match s.link.held.find? fun e => decide (e.1 = line ∧ e.2 ≤ 3) with
      | none => s
      | some (_, v) =>
        let s1 := { s with link := { s.link with held := s.link.held.filter fun e => e.1 ≠ line } }
        if 2 ≤ v then sendWait s1 none 6 (pkgLocus p) (64 * line) 0 (memRead s (64 * line) 64)
        else sendWait s1 none 7 (pkgLocus p) (64 * line) 0 []
  | _ => s

/-- A holder of a line is invalidated; data from an M or O copy goes to the L3 at age 1, of a line of another package to
its home, since a proxy slice holds no such line (R281, R337). -/
def invHolder (s : State) (st : Stop) (line n : Nat) : State :=
  match l2Find s n line with
  | some (w, v) =>
    let s1 := l2Lose s n line w
    if (proxyOf s (64 * line)).isSome then remoteLeave s1 line
    else if 3 ≤ v then l3Fill s1 st line true 1 else s1
  | none => s

/-- Another package that holds a line is sent SnpInv (R338). -/
def invPkg (s : State) (line p : Nat) : State := sendWait s none 0x21 (pkgLocus p) (64 * line) 0 []

/-- Copies of a line in the line caches of some dies' Outriders but `me` are invalidated; a locked entry stays, its line refilled at once
(R389). -/
def invCourier (s : State) (line dies : Nat) (me : Option Hart) : State :=
  (List.finRange 16).foldl (fun s n =>
    if bit dies (n.val / 8) = false ∨ me = some (.outrider n) then s
    else
      let o := orGet s n
      match lcFind o line with
      | none => s
      | some k =>
        let s1 := lcDropped s n line
        match lcAt o k with
        | some (_, false) => orPut s1 n (lcSet o k none)
        | _ => s1) s

/-- Every holder that an entry of the snoop filter records is invalidated, but for one core or one Outrider. -/
def invEntry (s : State) (st : Stop) (e : SfEnt) (but : Option Nat) (me : Option Hart) : State :=
  let s1 := (sfCores e).foldl (fun s n => if some n = but then s else invHolder s st e.line n) s
  let s2 := invCourier s1 e.line e.courier me
  remoteLeave (((List.range 4).filter fun p => bit e.pkgs p).foldl (fun s p => invPkg s e.line p) s2) e.line

/-! ## Lines that leave -/

/-- A pack entry or prefetch of a line is freed (Table 8-5). -/
def packFree (s : State) (st : Stop) (line : Nat) : State :=
  sliceMod s st fun sl => { sl with pack := sl.pack.filter fun e => e.1 ≠ line, pref := setDel sl.pref line }

/-- An L2 line leaves its core: a dirty one goes to its home, a clean one is notified (R279); `home` is the line's slice. -/
def l2Leave (s : State) (home : Option Stop) (n line : Nat) : State :=
  match l2Find s n line with
  | none => s
  | some (w, v) =>
    let s1 := l2Lose s n line w
    match home with
    | none => remoteLeave (proxyDrop s1 line n) line
    | some st =>
      let s2 := sfDropCore s1 st line n
      if 3 ≤ v then l3Fill (packFree s2 st line) st line true 1
      else if rbit s st 5 L3_CTL 2 && (l3Find (sliceGet s2 st) line).isNone then l3Fill s2 st line false 2 none
      else s2

/-- Every line of a core's L2 leaves it. -/
def l2Empty (s : State) (n : Nat) : State :=
  (s.cache.l2.filter fun e => decide (e.1 / 32768 = n)).foldl (fun s e => l2Leave s (homeOf s (64 * e.2.1)) n e.2.1) s

/-- Every line that a slice's snoop filter records is invalidated in its holders (R304, R311). -/
def sfEmpty (s : State) (st : Stop) : State :=
  let es := (sliceGet s st).sf.filterMap fun e => e.2
  sliceMod (es.foldl (fun s e => invEntry s st e none none) s) st fun sl => { sl with sf := [] }

/-! ## Domains -/

/-- A core is emptied as its domain goes down: dirty lines go home, the rest is notified (R299, R304), and what it caches is lost. -/
def coreDown (s : State) (st : Stop) (c : Fin 2) : State := coreLost (l2Empty s (coreNum st c)) st c

/-- A slice is emptied as its domain goes down: every line its snoop filter records is invalidated in its holders, and no core keeps a line
that it is the home of (R304). -/
def sliceDown (s : State) (st : Stop) : State :=
  let s1 := sfEmpty s st
  let mine := s1.cache.l2.filter fun e => decide (e.2.2 ≠ 0) && decide (homeOf s1 (64 * e.2.1) = some st)
  let s2 := mine.foldl (fun s e => l2Lose s (e.1 / 32768) e.2.1 (e.1 % 16)) s1
  { s2 with cache := { s2.cache with slices := s2.cache.slices.filter fun e => e.1 ≠ stopIdx st } }

/-- The reset of one domain (R444, Table 21-7): its threads stop, its readable lines are drained, a slice's depot contents are
zero and its depot queues empty, and the domain is ON again; one that is OFF or still waking stays so, and its wake ends as any
other, with the accesses that wait for it in order (R67). -/
def domainReset (s : State) (st : Stop) (d : Nat) : State :=
  let s1 := (domHarts s st d).foldl stopThread s
  let s2 :=
    match stopKind st with
    | .tile =>
      if h : d < 2 then coreDown s1 st ⟨d, h⟩
      else if d = 2 then emptyDepotQueues (zeroDepot (sliceDown s1 st) st) st else s1
    | _ => s1
  if domExists st d && decide (d ≠ 15) && decide (domState s2 st d ≠ dOFF) && decide (domState s2 st d ≠ dWAKING) then setDom s2 st d dON else s2

end Sys2Proof.Machine
end

