-- ==== Sys2Proof/Machine/Err.lean ====
section
/-!
DEFINITION. Error sources, their severities, capture and merging in the error blocks, notifications and reports.
-/

namespace Sys2Proof.Machine

/-- Default severity, floor, and whether the source signals by machine check (Tables 13-2, 15-4, 16-11, 20-12). -/
def srcInfo (src : Nat) : Option (Nat × Nat × Bool) :=
  let c := src / 4096
  let i := src / 256 % 16
  let e := src % 256
  match c, e with
  | 0, 1 => if i = 0 then some (0, 0, false) else none
  | 0, 2 => if i = 0 then some (0, 0, false) else none
  | 0, 3 => if i = 0 then some (0, 0, false) else none
  | 1, _ =>
    if 2 ≤ i then none
    else if e = 1 ∨ e = 8 then some (0, 0, false)
    else if e = 2 ∨ e = 7 then some (1, 1, false)
    else if 3 ≤ e ∧ e ≤ 6 then some (2, 2, true)
    else none
  | 2, _ =>
    if 2 ≤ i then none
    else if e = 1 ∨ e = 3 ∨ e = 5 then some (0, 0, false)
    else if e = 2 then some (1, 1, false)
    else if e = 4 then some (3, 3, false)
    else none
  | 3, _ =>
    if i ≠ 0 then none
    else if e = 1 ∨ e = 3 ∨ e = 5 ∨ e = 8 then some (0, 0, false)
    else if e = 2 ∨ e = 6 ∨ e = 7 then some (1, 1, false)
    else if e = 4 then some (3, 3, false)
    else if e = 9 then some (2, 2, false)
    else none
  | 4, _ =>
    if 2 ≤ i then none
    else if e = 1 ∨ e = 3 ∨ e = 4 then some (0, 0, false)
    else if e = 2 then some (1, 1, false)
    else none
  | 5, _ =>
    if i < 8 ∧ (e = 1 ∨ e = 2) then some (0, 0, false)
    else if i = 8 ∧ e = 3 then some (2, 2, false)
    else none
  | 6, _ =>
    if i = 0 ∧ e = 1 then some (0, 0, false)
    else if i = 0 ∧ e = 2 then some (2, 1, false)
    else if i = 1 ∧ e = 3 then some (2, 2, false)
    else if i = 2 ∧ e = 4 then some (1, 1, false)
    else if i = 2 ∧ (e = 5 ∨ e = 6) then some (2, 2, false)
    else if i = 2 ∧ 7 ≤ e ∧ e ≤ 9 then some (0, 0, false)
    else none
  | 7, _ => if i = 0 ∧ (e = 1 ∨ e = 2) then some (0, 0, false) else none
  | 8, _ =>
    if 8 ≤ i then none
    else if e = 1 then some (0, 0, false)
    else if e = 2 then some (1, 1, false)
    else if e = 3 then some (2, 2, true)
    else if e = 4 then some (3, 3, false)
    else none
  | 9, _ =>
    if i = 0 ∧ (e = 1 ∨ e = 3 ∨ e = 4 ∨ e = 5) then some (0, 0, false)
    else if i = 0 ∧ (e = 2 ∨ e = 6) then some (2, 2, false)
    else if i = 0 ∧ e = 9 then some (2, 2, true)
    else if i = 1 ∧ e = 7 then some (0, 0, false)
    else if i = 1 ∧ e = 8 then some (2, 2, false)
    else none
  | 10, _ =>
    if i = 8 ∧ (e = 1 ∨ e = 2) then some (0, 0, false)
    else if i ≤ 5 ∧ e = 3 then some (0, 0, false)
    else none
  | 11, _ =>
    if i = 0 ∧ e = 1 then some (2, 2, false)
    else if i = 0 ∧ e = 2 then some (0, 0, false)
    else if i = 1 ∧ (e = 1 ∨ e = 2) then some (0, 0, false)
    else if i = 1 ∧ e = 3 then some (2, 2, false)
    else none
  | 12, _ =>
    if i = 9 ∧ e % 16 = 1 then some (3, 3, false)
    else if i = 9 ∧ e % 16 = 2 then some (0, 0, false)
    else if i ≤ 5 ∧ e = 1 then some (0, 0, false)
    else if i ≤ 5 ∧ e = 2 then some (3, 3, false)
    else if i = 8 ∧ 3 ≤ e ∧ e ≤ 6 then some (0, 0, false)
    else none
  | _, _ => none

/-- Sources that carry data (Table 13-12). -/
def srcCarries (src : Nat) : Bool :=
  let c := src / 4096
  let e := src % 256
  match c with
  | 1 => decide (1 ≤ e ∧ e ≤ 4) || decide (e = 7)
  | 2 => decide (e = 1 ∨ e = 2)
  | 3 => decide (e = 1 ∨ e = 2 ∨ e = 6 ∨ e = 7)
  | 4 => decide (e = 1 ∨ e = 2)
  | 6 => decide (src = 0x6002 ∨ src = 0x6103 ∨ src = 0x6204)
  | 8 => decide (1 ≤ e ∧ e ≤ 3)
  | 9 => decide (src = 0x9001 ∨ src = 0x9002 ∨ src = 0x9009)
  | _ => false

/-- The power domain of the unit a source names (R649); none for units that no per-domain reset acts on. -/
def srcDomain (src : Nat) : Option Nat :=
  let c := src / 4096
  let i := src / 256 % 16
  let e := src % 256
  match c with
  | 1 => some i
  | 2 => some i
  | 3 => some 2
  | 4 => some i
  | 5 => if i < 8 then some (i % 2) else none
  | 6 => some 0
  | 7 => some 0
  | 8 => if i < 8 then some i else none
  | 12 => if i = 9 then some (e / 16) else none
  | _ => none

/-- The owning world of a source: secure when the boot manifest assigns its domain to the secure world (R441). -/
def srcWorld (s : State) (st : Stop) (src : Nat) : World :=
  if domSecure s st ((srcDomain src).getD 15) then .secure else .normal

/-- ERR_SRC_CFG of a source: SEV, FLOOR and TLEVEL by default as in Table 13-2, CNT at [31:16] (Table 13-10). -/
def srcDefault (src : Nat) : Reg32 :=
  match srcInfo src with
  | some (d, f, _) => BitVec.ofNat 32 (d + 4 * f + 16)
  | none => 0

/-- The default configuration by key, stop × 65,536 + source. -/
def srcDefaultKey (k : Nat) : Reg32 := srcDefault (k % 65536)

/-- ERR_SRC_CFG of a source of a stop. -/
def srcCfg (s : State) (st : Stop) (src : Nat) : Reg32 := mapGet srcDefaultKey s.err.cfg (stopIdx st * 65536 + src)

/-- The state with ERR_SRC_CFG of a source replaced. -/
def setSrcCfg (s : State) (st : Stop) (src : Nat) (v : Reg32) : State :=
  { s with err := { s.err with cfg := mapSet srcDefaultKey s.err.cfg (stopIdx st * 65536 + src) v } }

/-- The severity in effect: severity 1 of a source that carries no data is treated as 2 (R440). -/
def srcSev (s : State) (st : Stop) (src : Nat) : Nat :=
  let v := getF (srcCfg s st src) 0 2
  if v = 1 && !srcCarries src then 2 else v

/-- TYPE bits (Table 13-7). -/
def tyCE : Nat := 1
def tyUE : Nat := 2
def tyPOISON : Nat := 4
def tyPARITY : Nat := 8
def tyTIMEOUT : Nat := 16
def tyPROTOCOL : Nat := 32
def tyLINK : Nat := 64
def tyDROP : Nat := 128
def tyLOST : Nat := 256
def tySCRUB : Nat := 512

/-- The private source a notification sets (R441). -/
def notifSource (w : World) (tlevel : Nat) : Nat :=
  match w, tlevel with
  | .normal, 1 => 8
  | .normal, 2 => 9
  | .normal, _ => 11
  | .secure, 1 => 10
  | .secure, _ => 11

/-- The target that ERR_TGT_N or ERR_TGT_S of a stop names, where it is present (R441). DESIGN CHOICE (log entry 83): CORE = 1 of a locked or
degraded tile names the thread of core 0, as R490 and R494 have it for interrupts. -/
def notifTarget (s : State) (st : Stop) (w : World) : Option Hart :=
  let v := rget s st 8 (if w = .normal then ERR_TGT_N else ERR_TGT_S)
  if getB v 19 then
    match stopOfLocus (pkgNum s) (getF v 0 16) with
    | some o =>
      let h : Hart := .outrider ⟨8 * o.die.val + getF v 16 3 % 8, by omega⟩
      if stopKind o = .cluster ∧ (tget s h).world = w then some h else none
    | none => none
  else
    match droverOf (pkgNum s) (getF v 0 16) with
    | some (.drover o c t) =>
      let c1 := if tileLocked s o then 0 else c
      if tileMode s o = 3 ∨ coreAbsent s o c1 = true then none else some (.drover o c1 t)
    | _ => none

/-- A notification is delivered: it sets a private source of its target, or goes to the Waystation (R441). -/
def deliverNotif (s : State) (st : Stop) (src : Nat) (w : World) : State :=
  match notifTarget s st w with
  | some h =>
    let n := if isOutrider h then (if w = .normal then 8 else 10) else notifSource w (getF (srcCfg s st src) 4 2)
    privSet s h n
  | none => addEvent s 1 (stopLocus (pkgNum s) st) src (decide (w = .secure))

/-- A notification, latched while the package is out of Run (R441). -/
def notify (s : State) (st : Stop) (src : Nat) (w : World) : State :=
  if pkgState s = 0 then deliverNotif s st src w
  else { s with err := { s.err with latched := s.err.latched ++ [(stopIdx st, src, w)] } }

/-- The latched notifications are delivered once the package is in Run (R441). -/
def deliverLatched (s : State) : State :=
  s.err.latched.foldl (fun s e => match stopOf e.1 with | some st => deliverNotif s st e.2.1 e.2.2 | none => s)
    { s with err := { s.err with latched := [] } }

/-- The key of a band controller's queue. -/
def bandKey (die : Fin 2) (b : Nat) : Nat := die.val * 6 + b

/-! ## The ledger (R454 to R458) -/

/-- CRC-16 with polynomial 0x1021, most significant bit first (Table 13-6). -/
def crc16Step (crc b : Nat) : Nat :=
  (List.range 8).foldl (fun c i =>
    let top := b2n (bit c 15) ^^^ b2n (bit b (7 - i))
    (2 * c % 65536) ^^^ (if top = 1 then 0x1021 else 0)) crc

/-- The CRC of bytes with initial value 0xFFFF. -/
def crc16 (l : List Byte) : Nat := l.foldl (fun c b => crc16Step c b.toNat) 0xFFFF

/-- The first offset of ledger record `i`. -/
def ledgerOff (i : Nat) : Nat := LEDGER_REC + 0x20 * i

/-- The CRC of a record put into word 7 (Table 13-6). -/
def ledgerSeal (s : State) (d : Fin 2) (i : Nat) : State :=
  let w := fun j => rget s (wsStop d) 10 (ledgerOff i + 4 * j)
  let bytes := ((List.range 8).flatMap fun j => natLe 4 (w j).toNat).take 30
  rputF s (wsStop d) 10 (ledgerOff i + 28) 16 16 (crc16 bytes)

/-- The record index whose word 7 holds a sequence number, where the ring still has it. -/
def ledgerFind (s : State) (d : Fin 2) (seq : Nat) : Option Nat :=
  let n := rfld s (wsStop d) 10 LEDGER_STAT 0 5
  let full := rbit s (wsStop d) 10 LEDGER_STAT 5
  (List.range 32).find? fun i =>
    (full || decide (i < n)) && decide (rfld s (wsStop d) 10 (ledgerOff i + 28) 0 16 = seq)

/-- A captured record enters the ledger: it takes the next index and sequence number, which the error block then shows while the path
is held (R456). -/
def ledgerCapture (s : State) (r : Report) : State :=
  let d := r.stop.die
  let ws := wsStop d
  let i := rfld s ws 10 LEDGER_STAT 0 5
  let seq := rfld s ws 10 LEDGER_STAT 16 16
  let cap := fun o => rget s r.stop 8 (o + 0x40 * r.path)
  let mine := getB (cap ERR_CAP_SRC) 31 && decide (getF (cap ERR_CAP_SRC) 0 16 = r.source) &&
    decide (rget64 s r.stop 8 (ERR_CAP_TS_LO + 0x40 * r.path) = r.ts)
  let w3 := r.sev + b2n r.secure * 4 + b2n r.inj * 8 + b2n r.addr.isSome * 32 + b2n (!mine) * 64 + r.ty * 65536
  let put := fun (s : State) (j v : Nat) => rput s ws 10 (ledgerOff i + 4 * j) (BitVec.ofNat 32 v)
  let s1 := put (put s 0 r.ts) 1 (r.ts / 2 ^ 32)
  let s2 := put (put s1 2 (r.source + r.locus * 65536)) 3 w3
  let s3 := put (put s2 4 ((r.addr.getD 0) % 2 ^ 52)) 5 ((r.addr.getD 0) % 2 ^ 52 / 2 ^ 32)
  let s4 := ledgerSeal (put (put s3 6 r.synd) 7 seq) d i
  let s5 := rputF (rputF s4 ws 10 LEDGER_STAT 0 5 ((i + 1) % 32)) ws 10 LEDGER_STAT 16 16 (seq + 1)
  let s6 := if i = 31 then rsetB s5 ws 10 LEDGER_STAT 5 true else s5
  if mine then rput s6 r.stop 8 (ERR_CAP_SEQ + 0x40 * r.path) (BitVec.ofNat 32 (seq + 65536)) else s6

/-- A merge is applied to the ledger record of its path, or counted as lost (R457). -/
def ledgerMerge (s : State) (r : Report) : State :=
  let d := r.stop.die
  let ws := wsStop d
  let q := rget s r.stop 8 (ERR_CAP_SEQ + 0x40 * r.path)
  match (if getB q 16 then ledgerFind s d (getF q 0 16) else none) with
  | none => rsat s ws 10 LEDGER_LOST 16 16 1
  | some i =>
    let o := ledgerOff i + 12
    let v := rget s ws 10 o
    let v1 := setF v 0 2 (max (getF v 0 2) r.sev)
    let v2 := if getB v 3 ≠ r.inj then setB v1 4 true else v1
    let v3 := setF v2 8 8 (satAdd 8 (getF v 8 8) 1)
    let v4 := setF v3 16 16 (getF v 16 16 ||| r.ty)
    ledgerSeal (rput s ws 10 o v4) d i

/-- A report reaches the die supervisor. -/
def ledgerEnter (s : State) (r : Report) : State := if r.merge then ledgerMerge s r else ledgerCapture s r

/-- A band controller takes a report; one that finds its queue of 16 full is discarded and counted (R455). The Waystation stop reports
to the die supervisor directly (R454). -/
def queueReport (s : State) (r : Report) : State :=
  let d := r.stop.die
  let k := bandKey d r.stop.y.val
  let q := mapGet (fun _ => []) s.err.queues k
  if stopKind r.stop = .waystation then ledgerEnter s r
  else if q.length < 16 then
    { s with err := { s.err with queues := mapSet (fun _ => []) s.err.queues k (q ++ [r]) } }
  else
    let s1 := rsat s (wsStop d) 10 LEDGER_LOST (if r.merge then 16 else 0) 16 1
    { s1 with err := { s1.err with lost := setAdd s1.err.lost k } }

/-- The first offset of handling path `p` (Table 13-9). -/
def capBase (p : Nat) : Nat := 0x40 * p

/-- An error is captured in its empty path, or merged into the held record (R450, R451), and reported (R454). -/
def capture (s : State) (st : Stop) (p : Nat) (r : Report) : State :=
  let o := capBase p
  let src := rget s st 8 (ERR_CAP_SRC + o)
  if getB src 31 then
    let v := setF src 21 8 (satAdd 8 (getF src 21 8) 1)
    let v := setF v 16 2 (max (getF src 16 2) r.sev)
    let v := if getB src 19 ≠ r.inj then setB v 20 true else v
    let s1 := rput s st 8 (ERR_CAP_SRC + o) v
    let ty := rfld s1 st 8 (ERR_CAP_TYPE + o) 0 16
    let s2 := rputF s1 st 8 (ERR_CAP_TYPE + o) 0 16 (ty ||| r.ty)
    queueReport s2 { r with merge := true }
  else
    let v : Nat := r.source + r.sev * 2 ^ 16 + b2n r.secure * 2 ^ 18 + b2n r.inj * 2 ^ 19 +
      b2n r.addr.isSome * 2 ^ 29 + 2 ^ 31
    let a := r.addr.getD 0
    let s1 := rput s st 8 (ERR_CAP_SRC + o) (BitVec.ofNat 32 v)
    let s2 := rput s1 st 8 (ERR_CAP_TYPE + o) (BitVec.ofNat 32 (r.ty + r.ty * 65536))
    let s3 := rput s2 st 8 (ERR_CAP_LOCUS + o) (BitVec.ofNat 32 r.locus)
    let s4 := rput64 s3 st 8 (ERR_CAP_ADDR_LO + o) (a % 2 ^ 52)
    let s5 := rput s4 st 8 (ERR_CAP_SYND + o) (BitVec.ofNat 32 r.synd)
    let s6 := rput64 s5 st 8 (ERR_CAP_TS_LO + o) r.ts
    let s7 := rput s6 st 8 (ERR_CAP_SEQ + o) 0
    let s8 := rsetB s7 st 8 ERR_STAT p true
    queueReport s8 { r with merge := false }

/-- An error at a detector: it is counted, captured or merged, and signalled as its severity says; severity 3 resets the power
domain of the unit first (R440 to R452, R649).  `thr` is the part of the locus that names a thread, `owner` a world named in place of the
source's own (R357). -/
def reportErr (s : State) (st : Stop) (src : Nat) (ty : Nat) (addr : Option Nat := none) (synd : Nat := 0)
    (thr : Nat := 0) (inj : Bool := false) (sevUp : Nat := 0) (owner : Option World := none) : State :=
  match srcInfo src with
  | none => s
  | some (_, _, mchk) =>
    let sev := if sevUp = 0 then srcSev s st src else sevUp
    let w := owner.getD (srcWorld s st src)
    let cfg := srcCfg s st src
    let s1 := setSrcCfg s st src (setF cfg 16 16 (satAdd 16 (getF cfg 16 16) 1))
    let p := 2 * worldCode w + (if sev = 0 then 0 else 1)
    let locus := stopLocus (pkgNum s) st + thr
    let held := getB (rget s st 8 (ERR_CAP_SRC + capBase p)) 31
    let r : Report := ⟨st, p, false, src, locus, sev, inj, decide (w = .secure), ty, addr, synd, tbNow s⟩
    let s2 := capture s1 st p r
    let s3 := if sev = 3 then
        match srcDomain src with
        | some d => domainReset s2 st d
        | none => s2
      else s2
    let ceNotify := decide (sev = 0) && !held && rbit s st 8 ERR_CTL (if w = .normal then 0 else 1)
    if (decide (2 ≤ sev) && !mchk) || ceNotify then notify s3 st src w else s3

/-- The state with a world violation counted (R541): kind 0 register block, 1 secure range, 2 depot way, 3 waybill slot, 4 shared
source.  Block 11 of die 1 mirrors that of die 0 (R557), so there is one count (log entry 16). -/
def violation (s : State) (locus kind blk : Nat) : State :=
  let ws := wsStop 0
  let s1 := rput s ws 11 WA_VIOL_CNT (BitVec.ofNat 32 (satAdd 32 (rget s ws 11 WA_VIOL_CNT).toNat 1))
  let s2 := rput s1 ws 11 WA_VIOL_LAST (BitVec.ofNat 32 (locus + kind * 65536 + blk * 2 ^ 19))
  rsetB s2 ws 11 WA_STAT 4 true

end Sys2Proof.Machine
end

