-- ==== Sys2Proof/Machine/Ops.lean ====
section
/-!
DEFINITION. Taking an exception and returning from one.
-/

namespace Sys2Proof.Machine

/-! Cause codes (Table 3-8). -/

def cUNDEF : Nat := 0x01
def cPRIV : Nat := 0x02
def cIALIGN : Nat := 0x03
def cIBUS : Nat := 0x04
def cITRANS : Nat := 0x05
def cDTRANS : Nat := 0x06
def cDBUS : Nat := 0x07
def cALIGN : Nat := 0x08
def cCALL_S : Nat := 0x09
def cCALL_H : Nat := 0x0A
def cCALL_M : Nat := 0x0B
def cBREAK : Nat := 0x0C
def cSTEP : Nat := 0x0D
def cWATCH : Nat := 0x0E
def cVDIS : Nat := 0x0F
def cWALK_DEV : Nat := 0x10
def cWALK_ABORT : Nat := 0x11
def cWBILL : Nat := 0x12
def cHTRAP : Nat := 0x13
def cILLRET : Nat := 0x14
def cINT : Nat := 0x20
def cMCHK : Nat := 0x30

/-- The codes of Table 3-8. -/
def isCause (c : Nat) : Bool := decide (1 ≤ c ∧ c ≤ 0x14) || decide (c = cINT) || decide (c = cMCHK)

/-- What an instruction raises: the cause, L_VAL, L_INFO, and, for a machine check, the source whose TLEVEL routes it (R448). -/
structure Exc where
  cause : Nat
  val : Nat
  info : Nat
  mchkLevel : Option Level := none
deriving DecidableEq, Repr

/-! ## Guests (R571 to R574) -/

/-- Whether the tally block cannot be used: it maps to nothing, is device-class, or lies in a secure range (R574). -/
def tallyBad (s : State) (t : Thread) : Bool :=
  let a := (sget t snPMV_TALLY).toNat
  isDevice a || inSecureRange s a || decide (paTarget s a = .nothing)

/-- Bits [47:0] of the tally doubleword of counter `e` (R572). -/
def tallyVal (s : State) (t : Thread) (e : Nat) : Nat :=
  leNat (memRead s ((sget t snPMV_TALLY).toNat + 8 * e) 8) % 2 ^ 48

/-- The entry value of counter `e` (R571). -/
def guestEntryVal (t : Thread) (e : Nat) : Nat := (mapGet (fun _ => (0 : BitVec 48)) t.guestE e).toNat

/-- What counter `e` has advanced by since guest entry (R573). -/
def guestDelta (s : State) (h : Hart) (e : Nat) : Nat :=
  ((pmGet s (thrCnt h e)).toNat + 2 ^ 48 - guestEntryVal (tget s h) e) % 2 ^ 48

/-- Guest entry: the entry value of each counter is captured (R571). -/
def guestEntry (s : State) (h : Hart) : State :=
  let vals := (List.range 144).filterMap fun e =>
    let v := pmGet s (thrCnt h e)
    if v = 0 then none else some (e, v)
  tmod s h fun t => { t with guestE := vals }

/-- Guest exit: each tally doubleword is replaced by its sum with the counter's advance (R573); an unusable tally block sets
TALLYERR and drops the updates (R574). -/
def guestExit (s : State) (h : Hart) : State :=
  let t := tget s h
  if tallyBad s t then tput s h (sput t snPMV_CTL (sget t snPMV_CTL ||| 2))
  else
    (List.range 144).foldl (fun s e =>
      let d := guestDelta s h e
      if d = 0 then s
      else agentWrite s (some h) ((sget t snPMV_TALLY).toNat + 8 * e) (natLe 8 ((tallyVal s t e + d) % 2 ^ 48))) s

/-! ## Entry -/

/-- The target level of a synchronous exception, pending writes in effect (R109; R131 and R132 for the other cores). -/
def routeTo (h : Hart) (t : Thread) (c : Nat) : Level :=
  match h with
  | .outrider _ => .s
  | .waystation _ => .m
  | .drover _ _ _ =>
    if sbit t snM_ROUTE c then .m
    else if c = cCALL_M then .m
    else if c = cCALL_H then .h
    else if t.world = .normal ∧ (t.level = .u ∨ t.level = .s) ∧ sbit t snH_ROUTE c = true then .h
    else if t.level = .u then .s
    else t.level

/-- The thread after entry to level `l` (R111), its pending writes already in effect: status, return address, cause, value and
detail saved, IM set, level and world changed, PC at the vector.  Entry clears the reservation (R148). -/
def enterThread (t : Thread) (l : Level) (cause : Nat) (val info epc : Word) (off : Nat) : Thread :=
  let status : Word := BitVec.ofNat 64 (levelCode t.level + 4 * worldCode t.world + 8 * b2n t.im)
  let t1 := sput t (snLev l exSTATUS) status
  let t2 := sput t1 (snLev l exEPC) (epc &&& ~~~(3 : Word))
  let t3 := sput t2 (snLev l exCAUSE) (BitVec.ofNat 64 cause)
  let t4 := sput t3 (snLev l exVAL) val
  let t5 := sput t4 (snLev l exINFO) info
  { t5 with
    im := true
    level := l
    world := if l = .m then .secure else t.world
    resv := none
    resvLost := t.resvLost || t.resv.isSome
    run := if t.run = .waiting then .running else t.run
    wait := none
    modeWait := none
    park := none
    slotA := none
    pc := sget t5 (snLev l exVBASE) + BitVec.ofNat 64 off }

/-- Taking an exception of cause `cause` to level `l` (R111), with vector offset `off` (Table 3-10). -/
def takeAt (s : State) (h : Hart) (l : Level) (cause : Nat) (val info epc : Word) (off ev : Nat) : State :=
  let s1 := countThread s h ev 1
  let t := applySync (tget s1 h)
  let t' := enterThread t l cause val info epc off
  let s2 := tput s1 h t
  let s3 := if inGuest t && !inGuest t' then guestExit s2 h else s2
  let t3 := tget s3 h
  tput s3 h (enterThread t3 l cause val info epc off)

/-- Taking a synchronous exception at the instruction whose address is `epc` (R108, R109, R111). -/
def takeException (s : State) (h : Hart) (e : Exc) (epc : Word) : State :=
  let t := applySync (tget s h)
  match e.mchkLevel with
  | some l => takeAt s h l cMCHK (BitVec.ofNat 64 e.val) (BitVec.ofNat 64 e.info) epc 0x180 evMCHK
  | none =>
    let l := routeTo h t e.cause
    takeAt s h l e.cause (BitVec.ofNat 64 e.val) (BitVec.ofNat 64 e.info) epc
      (if l = t.level then 0x080 else 0x000) evEXC

/-- The level at which a machine check of a source is taken: TLEVEL, never below the current level; H of the secure world is M
(R448).  An Outrider takes it at S and the Waystation at M (Table 13-4). -/
def mchkLevelOf (s : State) (h : Hart) (src : Nat) : Level :=
  let t := tget s h
  match h with
  | .outrider _ => .s
  | .waystation _ => .m
  | .drover st _ _ =>
    let tl := levelOf (getF (srcCfg s st src) 4 2)
    let tl := if t.world = .secure ∧ tl = .h then .m else tl
    if levelCode tl < levelCode t.level then t.level else tl

/-- L_INFO of a machine check (Table 13-5). -/
def mchkInfo (src : Nat) (precise restartable addrValid inj : Bool) : Nat :=
  src + b2n precise * 2 ^ 16 + b2n restartable * 2 ^ 17 + b2n addrValid * 2 ^ 18 + b2n inj * 2 ^ 19

/-- The identifier of the consumption source of a thread with event `e` (Table 13-2): class 1 of a Drover core, class 8 of an
Outrider, 0x9009 of the Waystation. -/
def consumeSource (h : Hart) (e : Nat) : Nat :=
  match h with
  | .drover _ c _ => 0x1000 + c.val * 0x100 + e
  | .outrider n => 0x8000 + n.val % 8 * 0x100 + 3
  | .waystation _ => 0x9009

/-- The part of a locus that names a Drover thread within its stop. -/
def thrBits : Hart → Nat
  | .drover _ c t => c.val * 32 + t.val * 16
  | _ => 0

/-- A precise machine check of a consumption: the error is reported at the thread's stop and the exception returned (R445, R446). -/
def consume (s : State) (h : Hart) (e addr : Nat) : State × Exc :=
  let src := consumeSource h e
  (reportErr s (hartStop h) src tyPOISON (some addr) 0 (thrBits h),
   { cause := cMCHK, val := addr, info := mchkInfo src true true true false, mchkLevel := some (mchkLevelOf s h src) })

/-! ## Return -/

/-- Whether XRET raises ILLRET (R112; R132 on the Waystation), pending writes in effect.  DESIGN CHOICE (log entry 89): on the Waystation
XRET with PLEVEL M and PWORLD 0, which R112 would make an illegal pair and of which R132 names the level only, returns and the core
stays secure. -/
def xretIllegal (h : Hart) (t : Thread) : Bool :=
  let st := sget t (snLev t.level exSTATUS)
  let pl := levelOf (bits st.toNat 0 2)
  let pw := worldOf (bits st.toNat 2 1)
  let w := if t.level = .m then pw else t.world
  match h with
  | .waystation _ => decide (pl ≠ .m)
  | .outrider _ => decide (levelCode t.level < levelCode pl) || decide (pw ≠ t.world)
  | .drover _ _ _ =>
    decide (levelCode t.level < levelCode pl) || !legalPair pl w || (decide (t.level ≠ .m) && decide (pw ≠ t.world))

/-- The thread after a legal XRET (R112): level, world and IM restored, PC at L_EPC, the reservation cleared (R148). -/
def xretThread (h : Hart) (t : Thread) : Thread :=
  let st := sget t (snLev t.level exSTATUS)
  { t with
    level := levelOf (bits st.toNat 0 2)
    world := if t.level = .m ∧ h ≠ .waystation 0 ∧ h ≠ .waystation 1 then worldOf (bits st.toNat 2 1) else t.world
    im := st.getLsbD 3
    resv := none
    resvLost := t.resvLost || t.resv.isSome
    pc := sget t (snLev t.level exEPC) &&& ~~~(3 : Word) }

end Sys2Proof.Machine
end

