-- ==== Sys2Proof/Machine/PowerOps.lean ====
section
/-!
DEFINITION. Domain sequencers and band controllers: entry to OFF, unwinding, power-up, secure ownership (R508 to R518).
-/

namespace Sys2Proof.Machine

/-- DSEQ_STAT.LAST_WAKE codes (Table 16-14). -/
def wkAccess : Nat := 1
def wkHomed : Nat := 2
def wkThread : Nat := 3
def wkCmd : Nat := 4
def wkBand : Nat := 5
def wkExit : Nat := 6

/-! ## Entry to OFF -/

/-- Whether a thread leaves its core free to enter OFF: stopped or waiting, nothing requested of it, no reservation held
(Table 16-4, step 1). -/
def threadQuiet (t : Thread) : Bool :=
  (decide (t.run = .stopped) && t.startAt.isNone || decide (t.run = .waiting) && t.resv.isNone) && !t.haltReq && !t.stopReq

/-- The condition of step 1 of Table 16-4 for a domain; an Outrider's is that it is STOPPED (R516). -/
def domQuiet (s : State) (st : Stop) (d : Nat) : Bool :=
  match stopKind st with
  | .tile =>
    if d ≤ 1 then
      (domHarts s st d).all (fun h => threadQuiet (tget s h)) &&
      !rbit s st 0 LOCK_STAT 3 && !rbit s st 0 LOCK_STAT 4 && !rbit s st 0 LOCK_STAT 5
    else decide (depotMask s st = 0) && !(s.wb.enabled.any fun k => decide (k / 128 = stopIdx st))
  | .cluster => (domHarts s st d).all fun h => decide ((tget s h).run = .stopped)
  | _ => true

/-- The core domains of a locked tile step together as one (R512). -/
def domGroup (s : State) (st : Stop) (d : Nat) : List Nat :=
  if stopKind st = .tile ∧ d ≤ 1 ∧ tileMode s st = 1 then [0, 1] else [d]

/-- Whether a core domain can be switched at all: not of a fuse-absent core, in mode 3 neither, in a degraded tile the survivor's
only (R511, R512). -/
def domUsable (s : State) (st : Stop) (d : Nat) : Bool :=
  if stopKind st = .tile ∧ d ≤ 1 then
    decide (tileMode s st ≠ 3) && !setHas s.pkg.noCore (stopIdx st * 2 + d) && (decide (tileMode s st ≠ 2) || decide (rfld s st 0 LOCK_STAT 2 1 = d))
  else true

/-- Whether every core and slice domain of a row reads OFF. -/
def rowOff (s : State) (die : Fin 2) (y : Fin 6) : Bool :=
  (List.finRange 12).all fun x => [0, 1, 2].all fun d => decide (domState s ⟨die, y, x⟩ d = dOFF)

/-- The offset of band `b`'s group in block 5 of the Waystation stop. -/
def bandBase (b : Nat) : Nat := 0x1000 * b

/-- The band controller opens its row's switches when the whole row is OFF and AUTO_GATE is 1 (R517). -/
def autoGate (s : State) (st : Stop) : State :=
  let ws := wsStop st.die
  if stopKind st = .tile ∧ rowOff s st.die st.y = true ∧ rbit s ws 5 (bandBase st.y.val + BAND_CTL) 8 = true then
    rputF s ws 5 (bandBase st.y.val + BAND_STAT) 6 2 3
  else s

/-- A domain has passed every step and is OFF (Table 16-4, step 6): what it held is lost, a port's link goes down and a bridge's pair with its
transmitters (Table 16-5), ENTRIES advances, the row may be gated. -/
def domOff (s : State) (st : Stop) (d : Nat) : State :=
  let s1 :=
    match stopKind st with
    | .tile => if h : d < 2 then coreDown s st ⟨d, h⟩ else if d = 2 then sliceDown s st else s
    | .cluster => memZero s (tcmBaseOf st d) 0x80000
    | .io => rputF (rputF (rputF s st 1 PORT_STAT 0 9 0) st 5 CXL_STAT 0 1 0) st 6 EP_STAT 0 1 0
    | .ford => rputF (rputF s st 1 FORD_STAT 0 2 3) { st with die := 1 - st.die } 1 FORD_STAT 0 2 3
    | _ => s
  let s2 := dstatPut (setDom s1 st d dOFF) st d 3 3 5
  autoGate (rsat s2 st 9 (0x10 * d + DSEQ_CNT) 0 16 1) st
where
  /-- Where the TCM of Outrider `d` of a cluster lies in the model's memory. -/
  tcmBaseOf (st : Stop) (d : Nat) : Nat := 2 ^ 52 + (8 * st.die.val + d) * 2 ^ 19

/-- Whether requests wait at a slice: it is not empty while they do. -/
def sliceBusy (s : State) (st : Stop) : Bool :=
  !(sliceGet s st).waits.isEmpty || (sliceGet s st).evb.any fun e => !e.waiting.isEmpty

/-- What the steps of Table 16-4 up to abort point `ap` do: committed stores drained; caches emptied; the holders that the snoop filter
records invalidated. -/
def domSteps (s : State) (st : Stop) (d ap : Nat) : State :=
  let s1 := if 2 ≤ ap then (domHarts s st d).foldl flushStores s else s
  if stopKind st ≠ .tile then s1
  else if h : d < 2 then (if 3 ≤ ap then l2Empty s1 (coreNum st ⟨d, h⟩) else s1)
  else
    let s2 := if 4 ≤ ap then sfEmpty s1 st else s1
    if 3 ≤ ap then sliceMod s2 st fun sl => { sl with arr := [], evb := [], fills := [], pack := [], pref := [] } else s2

/-- A domain enters OFF as far as abort point `ap`, 6 being OFF itself (Table 16-4); a slice at which requests wait comes no further than
the second. The state is unchanged where the domain is OFF already or its condition does not hold. -/
def domEnter (s : State) (st : Stop) (d ap : Nat) : State :=
  if !domQuiet s st d then s
  else
    (domGroup s st d).foldl (fun s d =>
      if domState s st d ≠ dON ∧ domState s st d ≠ dENTERING then s
      else
        let ap := if decide (stopKind st = .tile) && decide (d = 2) && sliceBusy s st then min ap 2 else ap
        let s1 := domSteps s st d ap
        if 6 ≤ ap then domOff s1 st d
        else dstatPut (setDom s1 st d dENTERING) st d 3 3 (max (dstat s1 st d 3 3) ap)) s

/-! ## Waking -/

/-- The number of a domain among those that a band gate waits for. -/
def gateKey (st : Stop) (d : Nat) : Nat := stopIdx st * 16 + d

/-- A band gate reaches a domain: one that is being powered goes down once it is up (R29). -/
def gateEnter (s : State) (st : Stop) (d : Nat) : State :=
  if domState s st d = dWAKING then { s with pow := { s.pow with gates := setAdd s.pow.gates (gateKey st d) } } else domEnter s st d 6

/-- A wake event at a domain (R513, R514): before AP5 the entry unwinds; after it, or from OFF, power-up begins; the band's switches
close. -/
def domWake (s : State) (st : Stop) (d kind : Nat) : State :=
  if !domUsable s st d then s
  else
    (domGroup s st d).foldl (fun s d =>
      let stt := domState s st d
      if stt = dENTERING ∧ dstat s st d 3 3 < 5 then
        let s1 := dstatPut (dstatPut (setDom s st d dON) st d 3 3 0) st d 9 1 1
        let s2 := dstatPut s1 st d 12 3 kind
        rsat s2 st 9 (0x10 * d + DSEQ_CNT) 16 16 1
      else if stt = dWAKING then { s with pow := { s.pow with gates := setDel s.pow.gates (gateKey st d) } }
      else if stt = dENTERING ∨ stt = dOFF ∨ stt = dRETAINED then
        let s0 := if stt = dENTERING then domOff s st d else s
        let s1 := dstatPut (dstatPut (setDom s0 st d dWAKING) st d 3 3 0) st d 12 3 kind
        if stopKind st = .tile then rputF s1 (wsStop st.die) 5 (bandBase st.y.val + BAND_STAT) 6 2 2 else s1
      else s) s

/-- Power-up of a domain completes (R514), a bridge's pair to be retrained; a band gate that came meanwhile starts (R29). -/
def domUp (s : State) (st : Stop) (d : Nat) : State :=
  let s := if stopKind st = .ford ∧ domState s st d = dWAKING then
      { s with link := { s.link with training := setAdd s.link.training (65536 + (st.x.val - 8)) } } else s
  (domGroup s st d).foldl (fun s d =>
    if domState s st d ≠ dWAKING then s
    else
      let s1 := setDom s st d dON
      if s1.pow.gates.contains (gateKey st d) then
        domEnter { s1 with pow := { s1.pow with gates := setDel s1.pow.gates (gateKey st d) } } st d 6
      else s1) s

/-! ## Secure ownership and commands -/

/-- Whether a normal-world request toward OFF is ignored for a domain: it is secure and not released (R518). -/
def domGuarded (s : State) (w : World) (st : Stop) (d : Nat) : Bool :=
  decide (w = .normal) && domSecure s st d && !rbit s st 9 (0x10 * d + DSEQ_CTL) 1

/-- A refused request: SECREF is set and SEC_REFUSED raised (R518). -/
def secRefused (s : State) (st : Stop) (d : Nat) : State :=
  reportErr (dstatPut s st d 7 1 1) st (0xC902 + 0x10 * d) tyPROTOCOL

/-- Whether a domain is one that only the Waystation switches off (R516). -/
def wsOnly (st : Stop) : Bool := decide (stopKind st ≠ .tile)

/-- A DSEQ_CMD power-down by an initiator: `ws` says whether the Waystation sent it (R512, R516, R518). -/
def seqDown (s : State) (w : World) (ws : Bool) (st : Stop) (d ap : Nat) : State :=
  if !domExists st d || decide (d = 15) then s
  else if domGuarded s w st d then secRefused s st d
  else if (wsOnly st && !ws) || !domQuiet s st d then dstatPut s st d 8 1 1
  else domEnter s st d ap

/-- A DSEQ_CMD power-up (R513). -/
def seqUp (s : State) (st : Stop) (d : Nat) : State :=
  if !domExists st d || decide (d = 15) then s else domWake s st d wkCmd

/-! ## Bands (R508, R517, R534) -/

/-- The domains of a band's row. -/
def bandDoms (die : Fin 2) (b : Nat) : List (Stop × Nat) :=
  if h : b < 6 then
    (List.finRange 12).flatMap fun x => [0, 1, 2].map fun d => (⟨die, ⟨b, h⟩, x⟩, d)
  else []

/-- Core domains ON in a band (BAND_STAT.CORES_ON). -/
def bandCores (s : State) (die : Fin 2) (b : Nat) : Nat :=
  (bandDoms die b).countP fun e => decide (e.2 ≤ 1) && decide (domState s e.1 e.2 = dON)

/-- The ceiling of Table 16-2, in 100 MHz. -/
def freqCeiling (n : Nat) : Nat := if n ≤ 1 then 32 else if n ≤ 4 then 30 else if n ≤ 12 then 28 else 27

/-- A band gate request: every domain of the row goes through R512 first, one that refuses keeps the rail on (R517); secure domains
not released are skipped (R518). -/
def bandGate (s : State) (w : World) (die : Fin 2) (b : Nat) : State :=
  if b < 1 ∨ 4 < b then s
  else
    let s1 := (bandDoms die b).foldl (fun s e =>
      if domGuarded s w e.1 e.2 then
        rsetB (secRefused s e.1 e.2) (wsStop die) 5 (bandBase b + BAND_STAT) 14 true
      else gateEnter s e.1 e.2) s
    if (bandDoms die b).all fun e => decide (domState s1 e.1 e.2 = dOFF) then
      rputF s1 (wsStop die) 5 (bandBase b + BAND_STAT) 6 2 3
    else s1

/-- A band power-up of every domain (R517). -/
def bandUp (s : State) (die : Fin 2) (b : Nat) : State :=
  if b < 1 ∨ 4 < b then s else (bandDoms die b).foldl (fun s e => domWake s e.1 e.2 wkBand) s

/-! ## Package wakes (R522, R523, R526) -/

/-- The state with PKG_STATE.STATE replaced. -/
def setPkgState (s : State) (v : Nat) : State := rputF s (wsStop 0) 4 PKG_STATE 0 4 v

/-- The wake that starts an exit is recorded and the exit begins: from Camp 2 to CAMP_EXIT 3, from Dormant 5 to DORMANT_EXIT 6. -/
def startExit (s : State) (kind arg : Nat) : State :=
  let w := wsStop 0
  let s1 := rput s w 4 WAKE_LAST_SRC (BitVec.ofNat 32 (kind + arg % 65536 * 16))
  let s2 := rput64 s1 w 4 WAKE_LAST_TS_LO (tbNow s)
  setPkgState s2 (pkgState s + 1)

/-- A package wake event of a kind of Table 16-8: latched during an entry, in Camp or Dormant it starts the exit. -/
def pkgWake (s : State) (kind arg : Nat) : State :=
  match pkgState s with
  | 1 | 4 =>
    let s1 := rput s (wsStop 0) 4 WAKE_LATCH (rget s (wsStop 0) 4 WAKE_LATCH ||| BitVec.ofNat 32 (2 ^ kind))
    { rsetB s1 (wsStop 0) 4 PKG_STATE 4 true with pow := { s1.pow with latched := s1.pow.latched ++ [(kind, arg)] } }
  | 2 | 5 => startExit s kind arg
  | _ => s

/-- Whether what an address holds is lost with every rail but VDD_STBY: HBM, depot SRAM and the Outriders' TCM (Table 16-6). -/
def lostAt (a : Nat) : Bool :=
  decide (a < 2 ^ 42) || decide (0xFC00000000000 ≤ a ∧ a < 0xFC00080000000) || decide (2 ^ 52 ≤ a ∧ a < 2 ^ 53)

/-- Every rail but VDD_STBY is off: contents, cached state and the state of Drover threads and Outriders are lost. -/
def contentsLost (s : State) : State :=
  { s with
    mem := { bytes := s.mem.bytes.filter fun c => !lostAt c.1, poison := s.mem.poison.filter fun g => !lostAt (8 * g) }
    cpu := { s.cpu with
      threads := s.cpu.threads.filter fun e => decide (1040 ≤ e.1)
      cores := s.cpu.cores.map fun e => (e.1, e.2.forget)
      bcasts := [] }
    cache := CacheSt.initial
    hbm := { s.hbm with queue := [], stage := [], out := [], marked := [] }
    orr := []
    iotu := [] }

/-- A thermal trip (R530): its ledger record, every power switch open but the always-on domain's, PKG_STATE reads TRIPPED. -/
def thermalTrip (s : State) (die : Fin 2) : State :=
  if pkgState s = 7 then s
  else
    let s1 := reportErr s (wsStop die) 0xC804 0
    let s2 := allStops.foldl (fun s st => ((List.range 8).filter fun d => domExists st d).foldl (fun s d => setDom s st d dOFF) s) s1
    rputF (setPkgState (contentsLost s2) 7) (wsStop 0) 3 RAIL_STAT 0 13 0

end Sys2Proof.Machine
end

