-- ==== Sys2Proof/Machine/HbmQueue.lean ====
section
/-!
DEFINITION. Channel controllers of HBM: where a line lies, bank queues, staging, candidates, the walk of the queues, write drain and rows
(R407 to R418). Every constraint of Table 12-1 is met when a command is due: cycles are not modelled (log entry 28).
-/

namespace Sys2Proof.Machine

/-! ## Places (R17, R408) -/

/-- The memory stop and controller of channel `ch` of stack `k` (R17). -/
def chanStop (k : Fin 6) (ch : Fin 8) : Stop := ⟨⟨k.val / 3, by omega⟩, 0, ⟨4 * (k.val % 3) + ch.val / 2, by omega⟩⟩
def chanCtl (ch : Fin 8) : Fin 2 := ⟨ch.val % 2, by omega⟩

/-- The stop of a stack's control block (Table 12-8). -/
def stkStop (k : Fin 6) : Stop := ⟨⟨k.val / 3, by omega⟩, 0, ⟨4 * (k.val % 3), by omega⟩⟩

/-- The stack and channel of controller `c` of a memory stop. -/
def chanOf (st : Stop) (c : Fin 2) : Nat × Nat := (stackOf st, 2 * (st.x.val % 4) + c.val)

/-- The numbers of a channel and of a pseudo-channel in the state. -/
def chanNum (st : Stop) (c : Fin 2) : Nat := (chanOf st c).1 * 8 + (chanOf st c).2
def pcNum (st : Stop) (c : Fin 2) (pc : Nat) : Nat := chanNum st c * 2 + pc

/-- Where a line lies in its stack (R408). -/
structure HbmLoc where
  stack : Nat
  so : Nat
  sid : Nat
  channel : Nat
  pc : Nat
  bg : Nat
  ba : Nat
  row : Nat
deriving DecidableEq, Repr

/-- The place of an address of this package's HBM window (R408, Table 1-12). -/
def hbmLoc (s : State) (pa : Nat) : HbmLoc :=
  let o := pa % 2 ^ 40
  let so := hbmOff s o
  let w := so % 0x200000000
  let h := bits w 6 4 ^^^ bits w 18 4
  { stack := hbmStack s o, so := so, sid := so / 0x200000000, channel := bits h 1 3, pc := bits h 0 1,
    bg := bits w 14 2 ^^^ bits w 18 2, ba := bits w 16 2 ^^^ bits w 20 2, row := bits w 18 15 }

/-- The memory stop and controller that serve an address. -/
def locStop (l : HbmLoc) : Stop := chanStop ⟨l.stack % 6, by omega⟩ ⟨l.channel % 8, by omega⟩
def locCtl (l : HbmLoc) : Fin 2 := chanCtl ⟨l.channel % 8, by omega⟩

/-- The bank of a place, and its row as SPARE_ROW names it (Table 12-7). -/
def locBank (l : HbmLoc) : Nat := ((l.stack * 8 + l.channel) * 2 + l.pc) * 48 + l.sid * 16 + 4 * l.bg + l.ba
def locRow (l : HbmLoc) : Nat := l.row + (4 * l.bg + l.ba) * 2 ^ 15 + l.sid * 2 ^ 19 + l.pc * 2 ^ 21

/-- The blocks of a controller and of its PHY. -/
def mcBlk (c : Fin 2) : Nat := 1 + c.val
def phyBlk (c : Fin 2) : Nat := 3 + c.val

/-- Changes a field of HbmSt. -/
def hbmMod (s : State) (f : HbmSt → HbmSt) : State := { s with hbm := f s.hbm }

/-- The eight channels of a stack as stop and controller. -/
def stackChans (k : Fin 6) : List (Stop × Fin 2) := (List.finRange 8).map fun ch => (chanStop k ch, chanCtl ch)

/-- A memory scope event of controller `c` (Table 18-9). -/
def mcCount (s : State) (st : Stop) (c : Fin 2) (e n : Nat) : State := countScope s st (24 * c.val + e) n none

/-! ## Rows and refresh (R414, R419) -/

/-- The open row of a bank. -/
def openRow (s : State) (b : Nat) : Option Nat := mapGet (fun _ => none) s.hbm.rows b

/-- The state with a bank's open row replaced. -/
def setRow (s : State) (b : Nat) (r : Option Nat) : State := hbmMod s fun h => { h with rows := mapSet (fun _ => none) h.rows b r }

/-- The state with the banks that satisfy `p` precharged. -/
def closeRows (s : State) (p : Nat → Bool) : State := hbmMod s fun h => { h with rows := h.rows.filter fun e => !p e.1 }

/-- Whether panic is held for a stack (R398). -/
def panicHeld (s : State) (k : Nat) : Bool := s.hbm.panic.any fun e => decide (e % 6 = k)

/-! ## Queues and staging (R410) -/

/-- The channel of a place and its pseudo-channel's number. -/
def locChan (l : HbmLoc) : Nat := l.stack * 8 + l.channel
def locPc (l : HbmLoc) : Nat := locChan l * 2 + l.pc

/-- The bank queue of a place: q_i has BG = i mod 4 and BA = i div 4 (R412). -/
def locQueue (l : HbmLoc) : Nat := 4 * l.ba + l.bg

/-- The place of a request. -/
def reqLoc (s : State) (r : HbmReq) : HbmLoc := hbmLoc s (64 * r.line)

/-- The requests in the bank queues of a channel, and those that wait for a place in them. -/
def mcQueue (s : State) (ch : Nat) : List HbmReq := mapGet (fun _ => []) s.hbm.queue ch
def mcStage (s : State) (ch : Nat) : List HbmReq := mapGet (fun _ => []) s.hbm.stage ch

/-- The stop and controller of a channel's number. -/
def chanAt (ch : Nat) : Stop × Fin 2 :=
  (chanStop ⟨ch / 8 % 6, by omega⟩ ⟨ch % 8, by omega⟩, chanCtl ⟨ch % 8, by omega⟩)

/-- Whether a controller takes requests: it is ON, enabled and out of self-refresh (R421, R513, Table 12-4). -/
def chanServes (s : State) (ch : Nat) : Bool :=
  let a := chanAt ch
  decide (domState s a.1 a.2.val = dON) && rbit s a.1 (mcBlk a.2) BLOCK_CTL 0 && !rbit s a.1 (mcBlk a.2) MC_STAT 2

/-- A request that reaches the memory stop wakes a controller that is off (R513). -/
def chanWake (s : State) (ch : Nat) : State :=
  let a := chanAt ch
  if domState s a.1 a.2.val = dON ∨ pkgState s ≠ 0 then s else domWake s a.1 a.2.val wkHomed

/-- A field of MC_CTL. -/
def mcCtl (s : State) (ch lo w : Nat) : Nat := rfld s (chanAt ch).1 (mcBlk (chanAt ch).2) MC_CTL lo w

/-- The bank queues after a request has joined them: a write takes the place of a queued one of its line (R416), entry 3 of a queue is
for the Courier channel alone (R410); none where it finds no entry. -/
def mcJoin (s : State) (q : List HbmReq) (r : HbmReq) : Option (List HbmReq) :=
  let l := reqLoc s r
  if r.write && q.any (fun e => e.write && decide (e.line = r.line)) then
    some (q.map fun e => if e.write && decide (e.line = r.line) then { e with rewrite := r.rewrite } else e)
  else
    let mine := q.filter fun e => decide (locPc (reqLoc s e) = locPc l ∧ locQueue (reqLoc s e) = locQueue l)
    let low := mine.length - min 1 (mine.countP fun e => e.courier)
    if (if r.courier then decide (mine.length < 4) else decide (low < 3)) then some (q ++ [r]) else none

/-- Whether a request that waits lies in its staging buffer, 8 entries or 4 for the Courier channel, behind none that it has to follow:
`front` are those before it (R410, R416, R417). -/
def mcStaged (front : List HbmReq) (r : HbmReq) : Bool :=
  decide (front.countP (fun e => e.courier == r.courier) < if r.courier then 4 else 8) &&
  !front.any fun e => decide (e.line = r.line) || (e.src.isSome && decide (e.src = r.src))

/-- Requests that wait move into their bank queues. -/
def mcAdmit (s : State) (ch : Nat) : State :=
  if !chanServes s ch then s
  else
    let r := (mcStage s ch).foldl (fun (a : State × List HbmReq) e =>
      let q := mcQueue a.1 ch
      match (if mcStaged a.2 e then mcJoin a.1 q e else none) with
      | some q1 =>
        let held := !e.write && q.any fun x => x.write && decide (x.line = e.line)
        let s1 := hbmMod a.1 fun h => { h with queue := mapSet (fun _ => []) h.queue ch q1 }
        (if held then mcCount s1 (chanAt ch).1 (chanAt ch).2 8 1 else s1, a.2)
      | none => (a.1, a.2 ++ [e])) (s, [])
    hbmMod r.1 fun h => { h with stage := mapSet (fun _ => []) h.stage ch r.2 }

/-- A request for a line of HBM reaches its memory stop. -/
def mcArrive (s : State) (r : HbmReq) : State :=
  let ch := locChan (reqLoc s r)
  mcAdmit (hbmMod (chanWake s ch) fun h => { h with stage := mapSet (fun _ => []) h.stage ch (mcStage s ch ++ [r]) }) ch

/-- Whether a memory stop grants a credit on its Request channel for a line (R291, R410): its staging buffer has room. -/
def mcCredit (s : State) (line : Nat) : Bool :=
  decide ((mcStage s (locChan (hbmLoc s (64 * line)))).countP (fun e => !e.courier) < 8)

/-! ## Candidates (R411, R415 to R417) -/

/-- The requests of a pseudo-channel, and its write queue. -/
def pcOf (s : State) (q : List HbmReq) (p : Nat) : List HbmReq := q.filter fun e => decide (locPc (reqLoc s e) = p)

/-- Whether the row of a place is being spared, so that its requests are held (R430). -/
def rowHeld (s : State) (l : HbmLoc) : Bool := decide (mapGet (fun _ => none) s.hbm.sparing (locChan l) = some (locRow l))

/-- Whether a request is the oldest of its source in the controller (R417). -/
def srcFirst (older : List HbmReq) (e : HbmReq) : Bool := e.src.isNone || !older.any fun x => decide (x.src = e.src)

/-- Whether a read is eligible: no write of its line is before it (R411, R416). -/
def readOk (s : State) (older : List HbmReq) (e : HbmReq) : Bool :=
  !e.write && srcFirst older e && !rowHeld s (reqLoc s e) && !older.any fun x => x.write && decide (x.line = e.line)

/-- Whether some read of a pseudo-channel is eligible. -/
def anyReadOk (s : State) (q : List HbmReq) (p : Nat) : Bool :=
  (List.range q.length).any fun i => match q[i]? with
    | some e => decide (locPc (reqLoc s e) = p) && readOk s (q.take i) e
    | none => false

/-- Whether a write is eligible (R411, R415). -/
def writeOk (s : State) (q older younger : List HbmReq) (e : HbmReq) : Bool :=
  let p := locPc (reqLoc s e)
  e.write && srcFirst older e && !rowHeld s (reqLoc s e) && !older.any (fun x => !x.write && decide (x.line = e.line)) &&
  (s.hbm.drain.contains p || younger.any (fun x => !x.write && decide (x.line = e.line)) ||
   (e.src.isSome && younger.any fun x => decide (x.src = e.src)) ||
   (e.courier && panicHeld s (reqLoc s e).stack) || !anyReadOk s q p)

/-- Whether the request at a place of a channel's queues is eligible. -/
def mcOk (s : State) (q : List HbmReq) (i : Nat) : Bool :=
  match q[i]? with
  | some e => readOk s (q.take i) e || writeOk s q (q.take i) (q.drop (i + 1)) e
  | none => false

/-- Whether a request hits its bank's open row. -/
def rowHit (s : State) (e : HbmReq) : Bool := decide (openRow s (locBank (reqLoc s e)) = some (reqLoc s e).row)

/-- Column commands to a bank since its latest activate. -/
def bankHits (s : State) (b : Nat) : Nat := mapGet (fun _ => 0) s.hbm.hits b

/-- The candidate of bank queue `b` of a pseudo-channel, by its place (R411): while panic is held the oldest Courier entry, the oldest entry
that hits the open row where the bank has served fewer than HIT_CAP hits, the oldest entry. -/
def mcCand (s : State) (q : List HbmReq) (p b : Nat) : Option Nat :=
  let ok := (List.range q.length).filter fun i => match q[i]? with
    | some e => decide (locPc (reqLoc s e) = p ∧ locQueue (reqLoc s e) = b) && mcOk s q i
    | none => false
  let pick := fun (f : HbmReq → Bool) => ok.find? fun i => (q[i]?).any f
  let first := if panicHeld s (p / 16) then pick (·.courier) else none
  let hit := pick fun e => rowHit s e && decide (bankHits s (locBank (reqLoc s e)) ≤ mcCtl s (p / 2) 18 4)
  first.orElse fun _ => hit.orElse fun _ => ok.head?

/-! ## A controller clock (R412) -/

/-- A pseudo-channel enters write drain, or leaves it (R415). -/
def mcDrain (s : State) (p : Nat) : State :=
  let n := (pcOf s (mcQueue s (p / 2)) p).countP (·.write)
  let hi := mcCtl s (p / 2) 6 6
  let lo := min (mcCtl s (p / 2) 12 6) (hi - 1)
  let a := chanAt (p / 2)
  if s.hbm.drain.contains p then (if n ≤ lo then hbmMod s fun h => { h with drain := setDel h.drain p } else s)
  else if hi ≤ n then mcCount (hbmMod s fun h => { h with drain := setAdd h.drain p }) a.1 a.2 7 1 else s

/-- The bursts of a request are issued; a read whose line a write overtakes is read again (R432). Its row stays open, but is closed at once with IDLE 0 or under panic (R414, R418). -/
def mcIssue (s : State) (p : Nat) (q : List HbmReq) (i : Nat) (e : HbmReq) : State :=
  let l := reqLoc s e
  let a := chanAt (p / 2)
  let b := locBank l
  let s1 := mcCount s a.1 a.2 (if e.write then 1 else 0) 1
  let s2 := if e.courier && !e.write then mcCount s1 a.1 a.2 6 1 else s1
  let s3 := if 0 < bankHits s b then mcCount s2 a.1 a.2 4 1 else s2
  let s4 := hbmMod s3 fun h => { h with
    queue := mapSet (fun _ => []) h.queue (p / 2) (q.eraseIdx i)
    hits := mapSet (fun _ => 0) h.hits b (bankHits s b + 1)
    out := if e.write then mapSet (fun _ => []) h.out p ((mapGet (fun _ => []) h.out p).filter fun n => n ≠ e.line) else mapSet (fun _ => []) h.out p (mapGet (fun _ => []) h.out p ++ [e.line]) }
  if rfld s4 a.1 (mcBlk a.2) MC_IDLE 0 12 = 0 ∨ panicHeld s4 l.stack = true then mcCount (setRow s4 b none) a.1 a.2 3 1 else s4

/-- The column and row pointers of a pseudo-channel. -/
def mcPtrs (s : State) (p : Nat) : Nat × Nat := mapGet (fun _ => (0, 0)) s.hbm.ptrs p
def setPtrs (s : State) (p : Nat) (v : Nat × Nat) : State := hbmMod s fun h => { h with ptrs := mapSet (fun _ => (0, 0)) h.ptrs p v }

/-- The first candidate from a pointer on that satisfies `f`: how far it lies and its place. -/
def mcWalk (s : State) (q : List HbmReq) (p ptr : Nat) (f : HbmReq → Bool) : Option (Nat × Nat × HbmReq) :=
  (List.range 16).findSome? fun i =>
    match mcCand s q p ((ptr + i) % 16) with
    | some k => match q[k]? with
      | some e => if f e then some (i, k, e) else none
      | none => none
    | none => none

/-- Whether a lane of a pseudo-channel is being remapped, so that it issues no column command (R429). -/
def mcPaused (s : State) (p : Nat) : Bool :=
  (mapGet (fun _ => none) s.hbm.remap (p / 2)).any fun x => decide (x / 72 = p % 2)

/-- The column bus: the bursts of the first candidate that hits its open row. -/
def mcColumn (s : State) (p : Nat) : State :=
  let q := mcQueue s (p / 2)
  let ptr := mcPtrs s p
  if mcPaused s p then s
  else
    match mcWalk s q p ptr.1 (rowHit s) with
    | some (i, k, e) => setPtrs (mcIssue s p q k e) p ((ptr.1 + i + 1) % 16, ptr.2)
    | none => s

/-- The row bus: PRE or ACT for the first candidate that needs one. -/
def mcRow (s : State) (p : Nat) : State :=
  let q := mcQueue s (p / 2)
  let ptr := mcPtrs s p
  let a := chanAt (p / 2)
  match mcWalk s q p ptr.2 (fun e => !rowHit s e) with
  | some (i, _, e) =>
    let l := reqLoc s e
    let b := locBank l
    let s1 := setPtrs s p (ptr.1, (ptr.2 + i + 1) % 16)
    if (openRow s b).isSome then mcCount (setRow s1 b none) a.1 a.2 3 1
    else mcCount (setRow (hbmMod s1 fun h => { h with hits := mapSet (fun _ => 0) h.hits b 0 }) b (some l.row)) a.1 a.2 2 1
  | none => s

/-- One controller clock of a pseudo-channel. -/
def mcClock (s : State) (p : Nat) : State := mcAdmit (mcRow (mcColumn (mcDrain s p) p) p) (p / 2)

/-- Controller clocks of a pseudo-channel until something holds, `n` at most. -/
def mcRun (s : State) (p : Nat) (stop : State → Bool) : Nat → State
  | 0 => s
  | n + 1 => if stop s then s else mcRun (mcClock s p) p stop n

/-- Clocks enough for every request of a channel: each needs PRE, ACT and its bursts. -/
def mcFuel (s : State) (ch : Nat) : Nat := 4 * ((mcQueue s ch).length + (mcStage s ch).length + 1)

/-- Whether a pseudo-channel has issued the read of a line. -/
def mcIssued (s : State) (p line : Nat) : Bool := (mapGet (fun _ => []) s.hbm.out p).contains line

/-- A read of a line arrives at its memory stop, where none is known there. -/
def mcAsk (s : State) (line : Nat) : State :=
  let p := locPc (hbmLoc s (64 * line))
  if mcIssued s p line || (mcQueue s (p / 2) ++ mcStage s (p / 2)).any fun e => !e.write && decide (e.line = line) then s
  else mcArrive s ⟨line, false, none, false, false⟩

/-- The read of a line is issued, after what the scheduler puts before it, and whether it has been: it is not while its row is being spared
or a lane remapped. One that has not arrived arrives first. -/
def mcRead (s : State) (line : Nat) : State × Bool :=
  let l := hbmLoc s (64 * line)
  let p := locPc l
  let s1 := mcAsk s line
  let s2 := mcRun s1 p (fun s => mcIssued s p line) (mcFuel s1 (p / 2))
  (hbmMod s2 fun h => { h with out := mapSet (fun _ => []) h.out p ((mapGet (fun _ => []) h.out p).erase line) }, mcIssued s2 p line)

/-- Whether a write of a line waits to enter its write queue. -/
def mcWaits (s : State) (line : Nat) : Bool :=
  (mcStage s (locChan (hbmLoc s (64 * line)))).any fun e => e.write && decide (e.line = line)

/-- The write of a line enters its write queue, after the requests that have to leave room for it. -/
def mcAccept (s : State) (line : Nat) : State :=
  let p := locPc (hbmLoc s (64 * line))
  mcRun s p (fun s => !mcWaits s line) (mcFuel s (p / 2))

/-- Every queued request of a channel is completed (R421). -/
def mcFinish (s : State) (ch : Nat) : State :=
  [0, 1].foldl (fun s pc => mcRun s (2 * ch + pc) (fun s => (pcOf s (mcQueue s ch) (2 * ch + pc)).isEmpty) (mcFuel s ch)) s

/-- Whether a write of a line, other than a corrective rewrite, is on its way to memory or in its write queue. -/
def mcNewer (s : State) (line : Nat) : Bool :=
  let ch := locChan (hbmLoc s (64 * line))
  (mcQueue s ch ++ mcStage s ch).any fun e => e.write && decide (e.line = line) && !e.rewrite

/-- MC_OCC (Table 12-4). -/
def mcOcc (s : State) (st : Stop) (c : Fin 2) : Nat :=
  let q := mcQueue s (chanNum st c)
  min 127 (q.countP fun e => !e.write) + 128 * min 127 (q.countP (·.write)) + 2 ^ 14 * min 63 (q.countP (·.courier))

end Sys2Proof.Machine
end

