-- ==== Sys2Proof/Machine/Route.lean ====
section
/-!
DEFINITION. Routes of packets over the mesh and the Ford: dimension order, detours around dead links, drops (R313, R314, R321, R322).
-/

namespace Sys2Proof.Machine

/-- The neighbour of a stop in a direction, where the link is present (R313). -/
def meshPeer (st : Stop) (d : Fin 4) : Option Stop :=
  match d with
  | 0 => if h : st.x.val + 1 < 12 then some { st with x := ⟨st.x.val + 1, h⟩ } else none
  | 1 => if st.x.val = 0 then none else some { st with x := ⟨st.x.val - 1, by omega⟩ }
  | 2 => if h : st.y.val + 1 < 6 then some { st with y := ⟨st.y.val + 1, h⟩ } else none
  | _ => if st.y.val = 0 then none else some { st with y := ⟨st.y.val - 1, by omega⟩ }

/-- The direction back. -/
def dirBack (d : Fin 4) : Fin 4 := match d with | 0 => 1 | 1 => 0 | 2 => 3 | _ => 2

/-- The Ford stop of pair `k` on a die (R18). -/
def fordStop (die : Fin 2) (k : Fin 4) : Stop := ⟨die, 5, ⟨8 + k.val, by omega⟩⟩

/-- The other end of a link, where the link is present. -/
def linkPeer : NetLink → Option NetLink
  | .mesh st d => (meshPeer st d).map fun o => .mesh o (dirBack d)
  | .ford die k => some (.ford (1 - die) k)

/-- The number of a link end in the state. -/
def linkKey : NetLink → Nat
  | .mesh st d => stopIdx st * 4 + d.val
  | .ford die k => 65536 + die.val * 4 + k.val

/-- The stop of a link end. -/
def linkStop : NetLink → Stop
  | .mesh st _ => st
  | .ford die k => fordStop die k

/-- The state field of a link end: RT_LINK_STAT (Table 9-3) or FORD_STAT (Table 9-5): 0 up, 1 replaying, 2 dead, 3 absent or, for a
Ford pair, training. -/
def linkState (s : State) : NetLink → Nat
  | .mesh st d => rfld s st 0 RT_LINK_STAT (2 * d.val) 2
  | .ford die k => rfld s (fordStop die k) 1 FORD_STAT 0 2

/-- The live pair that carries the traffic of pair `k`: the next in increasing number modulo 4 (R314, R325). -/
def fordSubst (s : State) (die : Fin 2) (k : Fin 4) : Option (Fin 4) :=
  ([k + 1, k + 2, k + 3] : List (Fin 4)).find? fun j => decide (linkState s (.ford die j) ≤ 1)

/-! ## Routes -/

/-- The hops of a packet that moves `n` stops in a direction: the router and the link it leaves by. -/
def hops (st : Stop) (d : Fin 4) : Nat → List (Stop × Fin 4)
  | 0 => []
  | n + 1 => (st, d) :: (match meshPeer st d with | some o => hops o d n | none => [])

/-- The hops along a row to a column, and along a column to a row. -/
def rowTo (st : Stop) (x : Fin 12) : List (Stop × Fin 4) :=
  if st.x.val ≤ x.val then hops st 0 (x.val - st.x.val) else hops st 1 (st.x.val - x.val)
def colTo (st : Stop) (y : Fin 6) : List (Stop × Fin 4) :=
  if st.y.val ≤ y.val then hops st 2 (y.val - st.y.val) else hops st 3 (st.y.val - y.val)

/-- The route between two stops of a die in dimension order (R314). -/
def straight (a b : Stop) : List (Stop × Fin 4) := rowTo a b.x ++ colTo { a with x := b.x } b.y

/-- The detour of a packet whose hop from a router in a direction is dead (R321): over the next row for a link of a row, over the next
column for a link of a column. -/
def detour (st : Stop) (d : Fin 4) (b : Stop) : List (Stop × Fin 4) :=
  if d.val < 2 then
    let up : Fin 4 := if st.y.val < b.y.val then 2 else if b.y.val < st.y.val then 3 else if st.y.val = 5 then 3 else 2
    let o := (meshPeer st up).getD st
    (st, up) :: (rowTo o b.x ++ colTo { o with x := b.x } b.y)
  else
    let side : Fin 4 := if st.x.val = 11 then 1 else 0
    let o := (meshPeer st side).getD st
    (st, side) :: (colTo o b.y ++ rowTo { o with y := b.y } b.x)

/-- Whether a router's link is dead. -/
def hopDead (s : State) (e : Stop × Fin 4) : Bool := decide (linkState s (.mesh e.1 e.2) = 2)

/-- The router at which a packet within a die enters the escape class, and the one that discards it (R321, R322). -/
def legRoute (s : State) (a b : Stop) : Option Stop × Option Stop :=
  match (straight a b).find? (hopDead s) with
  | none => (none, none)
  | some (p, d) => (some p, ((detour p d b).find? (hopDead s)).map Prod.fst)

/-- The parts of a route within one die each (R314): a packet for the other die crosses at the Ford pair that its columns choose, or at
the next live one. -/
def routeLegs (s : State) (a b : Stop) : List (Stop × Stop) :=
  if a.die = b.die then [(a, b)]
  else
    let k : Fin 4 := ⟨(a.x.val + b.x.val) % 4, by omega⟩
    let j := if 2 ≤ linkState s (.ford a.die k) then (fordSubst s a.die k).getD k else k
    [(a, fordStop a.die j), (fordStop b.die j, b)]

/-- A discarded packet is counted and reported by its router (R322). -/
def routeDrop (s : State) (st : Stop) : State :=
  reportErr (rsat s st 0 RT_DROP 0 32 1) st 0x0003 (tyDROP ||| tyLINK)

/-- A packet crosses a part of its route: it arrives, counted where it was detoured, or is discarded. -/
def legSend (s : State) (a b : Stop) : State × Bool :=
  let r := legRoute s a b
  let s1 := match r.1 with
    | some p => rsat s p 0 RT_DETOUR 0 32 1
    | none => s
  match r.2 with
  | some q => (routeDrop s1 q, false)
  | none => (s1, true)

/-- A packet from one stop to another: whether it arrives. It is in the escape class until the end of its part of the route (log entry
94). -/
def meshSend (s : State) (a b : Stop) : State × Bool :=
  (routeLegs s a b).foldl (fun (r : State × Bool) e => if r.2 then legSend r.1 e.1 e.2 else r) (s, true)

end Sys2Proof.Machine
end

