-- ==== Sys2Proof/Machine/Coherence.lean ====
section
/-!
DEFINITION. Coherence of cache lines: how lines enter the caches and the snoop filter, the requests of Table 8-4, and the lines of an
access (chapter 8).
-/

namespace Sys2Proof.Machine

/-! ## Stalls of an Outrider -/

/-- The latest stall of an Outrider (Table 11-3) is recorded (R378). -/
def stall (s : State) (h : Hart) (code : Nat) : State :=
  match h with
  | .outrider n => rputF s (orRegs n).1 1 ((orRegs n).2 + OR_STAT) 5 4 code
  | _ => s

/-- An Outrider's access stalls for the Courier port: in Run it goes on, out of Run it is a package wake event and waits (R523). -/
def courier (s : State) (h : Hart) (code : Nat) : State × Bool :=
  let s1 := stall s h code
  match h with
  | .outrider n => if pkgState s = 0 then (s1, true) else (pkgWake s1 5 n.val, false)
  | _ => (s1, true)

/-! ## The snoop filter -/

/-- An entry with one more core; a fifth holder turns it coarse (R280). -/
def sfWith (e : SfEnt) (n : Nat) : SfEnt :=
  if e.coarse then { e with vec := e.vec ||| 2 ^ (n / 8), age := 0 }
  else if e.cores.contains n then { e with age := 0 }
  else if e.cores.length < 4 then { e with cores := setAdd e.cores n, age := 0 }
  else { e with coarse := true, vec := (e.cores ++ [n]).foldl (fun v c => v ||| 2 ^ (c / 8)) 0, cores := [], owner := none, age := 0 }

/-- The state with the owner of a line and its state in a precise entry replaced (R280). -/
def sfOwner (s : State) (st : Stop) (line : Nat) (o : Option (Nat × Nat)) : State :=
  match sfFind (sliceGet s st) line with
  | some (i, e) => if e.coarse then s else slicePut s st (sfPut (sliceGet s st) line i (some { e with owner := o }))
  | none => s

/-- The age of a way of the snoop filter; 3 where it is free. -/
def sfAge (sl : SliceSt) (line w : Nat) : Nat :=
  match mapGet (fun _ => none) sl.sf (l3SetOf line * 24 + w) with
  | some e => e.age
  | none => 3

/-- The ages of a set of the snoop filter raised. -/
def sfBump (sl : SliceSt) (line k : Nat) : SliceSt :=
  (List.range 24).foldl (fun sl w =>
    match mapGet (fun _ => none) sl.sf (l3SetOf line * 24 + w) with
    | some e => sfPut sl line w (some { e with age := min 3 (e.age + k) })
    | none => sl) sl

/-- The state with an entry of the snoop filter changed, made where there is none: its victim's holders are invalidated (R281). -/
def sfMod (s : State) (st : Stop) (w : World) (line : Nat) (f : SfEnt → SfEnt) : State :=
  let sl := sliceGet s st
  match sfFind sl line with
  | some (i, e) => slicePut s st (sfPut sl line i (some (f e)))
  | none =>
    match pickVictim 24 sl.sfPtr (List.range 24) (sfAge sl line) with
    | none => s
    | some (i, k) =>
      let s1 :=
        match mapGet (fun _ => none) sl.sf (l3SetOf line * 24 + i) with
        | some v => countScope (invEntry s st v none none) st 0x18 1 (some w)
        | none => s
      let sl1 := sfPut (sfBump (sliceGet s1 st) line k) line i (some (f ⟨line, false, [], none, 0, 0, 0, 0⟩))
      slicePut s1 st { sl1 with sfPtr := (i + 1) % 24 }

/-- The state with a core that holds a line recorded. -/
def sfAddCore (s : State) (st : Stop) (w : World) (line n : Nat) : State :=
  let was := match sfFind (sliceGet s st) line with | some (_, e) => e.coarse | none => false
  let s1 := sfMod s st w line fun e => sfWith e n
  let now := match sfFind (sliceGet s1 st) line with | some (_, e) => e.coarse | none => false
  if now && !was then countScope s1 st 0x19 1 (some w) else s1

/-- The state with another package recorded as a holder, or no longer. -/
def sfPkg (s : State) (st : Stop) (w : World) (line p : Nat) (on : Bool) : State :=
  if on then sfMod s st w line fun e => { e with pkgs := e.pkgs ||| 2 ^ p, age := 0 }
  else
    let sl := sliceGet s st
    match sfFind sl line with
    | some (i, e) =>
      let e1 := { e with pkgs := if bit e.pkgs p then e.pkgs - 2 ^ p else e.pkgs }
      slicePut s st (sfPut sl line i (if sfFree e1 then none else some e1))
    | none => s

/-- The state with an Outrider's die recorded as holding a line in a line cache (R389). -/
def sfCourier (s : State) (st : Stop) (w : World) (line : Nat) (h : Hart) : State :=
  match h with
  | .outrider n => sfMod s st w line fun e => { e with courier := if bit e.courier (n.val / 8) then e.courier else e.courier + 2 ^ (n.val / 8), age := 0 }
  | _ => s

/-- Every copy of a line but that of one agent is invalidated (R279, R389); only it stays recorded. -/
def invOthers (s : State) (st : Stop) (w : World) (line : Nat) (keep : Option Agent) : State :=
  match sfFind (sliceGet s st) line with
  | some (i, e) =>
    let but : Option Nat := match keep with | some (.core n) => some n.val | _ => none
    let me : Option Hart := match keep with | some (.courier h) => some h | _ => none
    let mine := match keep with | some (.pkg p _) => if bit e.pkgs p.val then 2 ^ p.val else 0 | _ => 0
    let e1 := { e with pkgs := e.pkgs - mine }
    let others := (sfCores e1).filter fun n => some n ≠ but
    let s1 := countScope (invEntry s st e1 but me) st 0x1A others.length (some w)
    let kept : Nat := match keep with
      | some (.courier (.outrider n)) => if lcHas s1 n (64 * line) then 2 ^ (n.val / 8) else 0
      | _ => 0
    let left : SfEnt := ⟨line, false, (but.filter fun n => (sfCores e).contains n).toList, none, 0, mine, kept, 0⟩
    slicePut s1 st (sfPut (sliceGet s1 st) line i (if sfFree left then none else some left))
  | none => s

/-! ## Reads of memory -/

/-- A line whose bytes are free values. -/
def freeLine (s : State) (line : Nat) : State :=
  (List.range 8).foldl (fun s i => memWriteBytes (useFree s) (64 * line + 8 * i) (natLe 8 (freeVal s).toNat)) s

/-- The source identifier of an agent's requests, none for class D, and whether they travel on the Courier channel (R223, R224). -/
def agentSrc : Agent → Option Nat
  | .courier h => hartSrc h
  | .device p n => streamSrc p.val n.val
  | _ => none
def agentCourier : Agent → Bool
  | .courier _ => true
  | _ => false

/-- A line that its home reads from memory: a request to its channel controller (R408); a line that memory holds marked while caches held
it sound is poisoned from now on. -/
def memFetch (s : State) (st : Stop) (src : Option Nat) (courier : Bool) (line : Nat) : State :=
  match paTarget s (64 * line) with
  | .hbm =>
    let s1 := if setHas s.hbm.marked line then poisonLine (hbmMod s fun h => { h with marked := setDel h.marked line }) (64 * line) else s
    let r := meshSend s1 st (locStop (hbmLoc s1 (64 * line)))
    if r.2 then mcArrive r.1 ⟨line, false, src, courier, false⟩ else r.1
  | _ => s

/-! ## Streams and the pack buffer -/

/-- Requests of cores and Outriders that cross a Caravan link, each in a slot of its line's proxy slice (R337). -/
def proxySlots (s : State) (st : Stop) : Nat :=
  s.link.waiting.countP fun m => decide (1 ≤ m.1.op ∧ m.1.op ≤ 5) && decide (m.1.src.getD 0 < 0x400) && decide (proxyOf s m.1.addr = some st)

/-- Busy transaction slots of a slice (R284): prefetches, requests and fills that wait, and requests to other packages. -/
def slotOcc (s : State) (st : Stop) : Nat :=
  let sl := sliceGet s st
  min 128 (sl.pref.length + (sl.evb.map fun e => e.waiting.length).sum + sl.fills.length + sl.waits.length + proxySlots s st)

/-- Whether the proxy slice of an address has no slot free for a request. -/
def proxyFull (s : State) (pa : Nat) : Bool :=
  match proxyOf s pa with
  | some st => decide (128 ≤ slotOcc s st)
  | none => false

/-- A demand miss extends its page's stream or begins one (R288): the slice, whether it continues a stream, in which direction,
and how many misses the stream had before it. -/
def streamMiss (sl : SliceSt) (line : Nat) : SliceSt × Bool × Bool × Nat :=
  let page := line / 64
  let rest := sl.streams.filter fun e => e.page ≠ page
  match sl.streams.find? fun e => e.page = page with
  | some e =>
    if line = e.last + 1 ∧ (e.n = 1 ∨ e.up = true) then ({ sl with streams := ⟨page, line, true, e.n + 1⟩ :: rest }, true, true, e.n)
    else if line + 1 = e.last ∧ (e.n = 1 ∨ e.up = false) then
      ({ sl with streams := ⟨page, line, false, e.n + 1⟩ :: rest }, true, false, e.n)
    else ({ sl with streams := ⟨page, line, true, 1⟩ :: rest }, false, true, 0)
  | none => ({ sl with streams := (⟨page, line, true, 1⟩ :: rest).take 16 }, false, true, 0)

/-- Prefetches into the pack buffer after a stream miss (R289). -/
def packPrefetch (s : State) (st : Stop) (w : World) (line : Nat) (up : Bool) : State :=
  let depth := max 1 (rfld s st 5 L3_CTL 16 4)
  (List.range depth).foldl (fun s i =>
    let sl := sliceGet s st
    let l := if up then line + 1 + i else line - (1 + i)
    let ok := decide (l / 64 = line / 64) && (up || decide (i < line)) && decide (homeOf s (64 * l) = some st) &&
      (l3Find sl l).isNone && !(sl.pack.any fun e => decide (e.1 = l)) && !sl.pref.contains l && decide (slotOcc s st < 96)
    if ok then memFetch (countScope (slicePut s st { sl with pref := sl.pref ++ [l] }) st 0x10 1 (some w)) st none false l else s) s

/-- A demand miss at the home drives the stream detector and the pack prefetcher (R288, R289): the state, and whether its fill is
flagged as streaming. -/
def demandMiss (s : State) (st : Stop) (w : World) (line : Nat) : State × Bool :=
  let m := streamMiss (sliceGet s st) line
  let s1 := slicePut s st m.1
  let flag := decide (8 ≤ m.2.2.2) && rbit s st 5 L3_CTL 0
  (if m.2.1 && rbit s st 5 L3_CTL 1 && l3Enabled s st then packPrefetch s1 st w line m.2.2.1 else s1, flag)

/-- A fill of a missing line for a request, at age 3 where it is streaming and at age 1 otherwise (Table 8-2). -/
def missFill (s : State) (st : Stop) (w : World) (line : Nat) (dirty nt flag : Bool) : State :=
  let age := if nt || flag then 3 else 1
  let s1 := countScope (l3Fill s st line dirty age) st (0x0A + age) 1 (some w)
  if flag then countScope s1 st 0x0E 1 (some w) else s1

/-- A line served from a way that disables itself leaves it, a dirty one through the eviction buffer once there is room (R291, R295). -/
def l3FailOut (s : State) (st : Stop) (line : Nat) : State :=
  let sl := sliceGet s st
  match l3Find sl line with
  | none => s
  | some (w, e) =>
    let out := e.dirty && !l2Owned s line
    if !setHas s.cache.disab (disKey st (48 + w)) || (out && decide (32 ≤ sl.evb.length)) then s
    else slicePut s st { l3Put sl line w none with evb := if out then sl.evb ++ [⟨line, false, []⟩] else sl.evb }

/-- A read served at the home (Table 8-2): a hit, the pack buffer, or memory with a fill, but for a device's read. -/
def homeRead (s : State) (st : Stop) (w : World) (a : Agent) (line : Nat) (nt demand : Bool) : State :=
  let sl := sliceGet s st
  if (l3Find sl line).isSome then
    let s1 := countScope s st 0x08 1 (some w)
    l3FailOut (if nt then s1 else l3SetAge s1 st line 0) st line
  else if sl.pack.any fun e => decide (e.1 = line) then
    let s1 := countScope s st 0x11 1 (some w)
    if demand then l3Fill (packFree s1 st line) st line false 0 else s1
  else
    let s1 := countScope s st 0x09 1 (some w)
    let m := if demand then demandMiss (memFetch s1 st (agentSrc a) (agentCourier a) line) st w line
      else (memFetch s1 st (agentSrc a) (agentCourier a) line, false)
    match a with
    | .device _ _ => m.1
    | _ => missFill m.1 st w line false nt m.2

/-! ## Requests at the home (Table 8-4) -/

/-- The world whose request is counted: of the thread or port that made it; a core's requests count as the normal world's unless
both its threads run secure. -/
def agentWorld (s : State) (a : Agent) : World :=
  match a with
  | .core n =>
    let st := coreStop n.val
    let sec := fun t : Fin 2 => decide ((tget s (.drover st (coreOf n.val) t)).world = .secure)
    if sec 0 && sec 1 then .secure else .normal
  | .courier h => (tget s h).world
  | .device p _ => worldOf (b2n (rbit s (wsStop 0) 11 WA_PORT_SEC p.val))
  | .pkg _ _ => .normal

/-- Whether an AMO or STX of a locked pair other than `me` has pinned a line (R285, R472): a request of another agent for it waits. -/
def linePinned (s : State) (a : Agent) (line : Nat) : Bool :=
  s.lock.pins.any fun e => decide (e.2 = line) && (match a with
    | .core n => decide (e.1 / 4 ≠ stopIdx (coreStop n.val))
    | _ => true)

/-- A core takes a line into its L2: into a free way, or in place of the line that the pseudo-LRU tree gives and that no AMO or STX has
pinned (R276). -/
def l2Take (s : State) (n line v : Nat) (nt : Bool) : State :=
  if !l2Enabled s n then s
  else
    let set := line % 2048
    match l2Find s n line with
    | some (w, _) => plruUse (l2Put s n line w v) n set 4 w false
    | none =>
      let at_ := fun w => mapGet (fun _ => (0, 0)) s.cache.l2 (l2Key n line w)
      let ok := fun w => l2WayOk s n w && !(s.lock.pins.any fun e => decide (e.2 = (at_ w).1) && decide ((at_ w).2 ≠ 0))
      let free := (List.range 16).find? fun w => l2WayOk s n w && decide ((at_ w).2 = 0)
      match free.orElse fun _ => plruVictim 4 (plruGet s n set) ok with
      | none => s
      | some w =>
        let old := (at_ w).1
        plruUse (l2Put (if (at_ w).2 = 0 then s else l2Leave s (homeOf s (64 * old)) n old) n line w v) n set 4 w nt

/-- The answer to a request of another package: Data with the granted state (0 S, 1 E, 2 M) and the line's bytes, or Ack
(R337). -/
def answerPkg (s : State) (a : Agent) (line : Nat) (grant : Option Nat) : State :=
  match a, grant with
  | .pkg p tag, some g => sendMsg s 0x30 (pkgLocus p.val) tag (64 * line) g (memRead s (64 * line) 64)
  | .pkg p tag, none => sendMsg s 0x31 (pkgLocus p.val) tag (64 * line) 0 []
  | _, _ => s

/-- ReadShared at the home once neither eviction buffer nor retirement stands in its way (R282). -/
def doReadShared (s : State) (st : Stop) (a : Agent) (line : Nat) (nt demand : Bool) : State :=
  let w := agentWorld s a
  let s1 := homeRead s st w a line nt demand
  let hs := (l2Holders s1 line).filter fun e => match a with | .core n => decide (e.1 ≠ n.val) | _ => true
  let s2 := hs.foldl (fun s e =>
    if e.2 = l2M then countScope (sfOwner (l2Move s e.1 line l2O) st line (some (e.1, l2O))) st 0x1A 1 (some w)
    else if e.2 = l2E then countScope (sfOwner (l2Move s e.1 line l2S) st line none) st 0x1A 1 (some w)
    else s) s1
  let others := !hs.isEmpty || (match sfFind (sliceGet s2 st) line with | some (_, e) => decide (e.pkgs ≠ 0 ∨ e.courier ≠ 0) | none => false)
  match a with
  | .core n =>
    if !l2Enabled s2 n.val then s2
    else
      let v := match l2Find s2 n.val line with | some (_, v) => v | none => if others then l2S else l2E
      let s3 := l2Take (sfAddCore s2 st w line n.val) n.val line v nt
      if v = l2E then sfOwner s3 st line (some (n.val, l2E)) else s3
  | .pkg p _ =>
    let g := if others then 0 else 1
    answerPkg (lend (sfPkg s2 st w line p.val true) line p.val (some g)) a line (some g)
  | .courier h => sfCourier s2 st w line h
  | .device _ _ => s2

/-- ReadOwn or Upgrade at the home: every other copy is invalidated and the requester holds M (R279). -/
def doReadOwn (s : State) (st : Stop) (a : Agent) (line : Nat) (nt : Bool) (data : Bool) : State :=
  let w := agentWorld s a
  let s0 := packFree s st line
  let s1 := if data then homeRead s0 st w a line nt true else s0
  match a with
  | .core n =>
    let s2 := invOthers s1 st w line (some a)
    if l2Enabled s2 n.val then sfOwner (l2Take (sfAddCore s2 st w line n.val) n.val line l2M nt) st line (some (n.val, l2M)) else s2
  | .pkg p _ =>
    let s2 := invOthers s1 st w line (some a)
    answerPkg (lend (sfPkg s2 st w line p.val true) line p.val (some 2)) a line (if data then some 2 else none)
  | _ => invOthers s1 st w line (some a)

/-- ReadOnce at the home: data only (Table 8-4). -/
def doReadOnce (s : State) (st : Stop) (a : Agent) (line : Nat) (nt : Bool) : State :=
  let w := agentWorld s a
  answerPkg (homeRead (countScope s st 0x0F 1 (some w)) st w a line nt true) a line (some 0)

/-- What a write at the home does but for the bytes (Tables 8-2, 8-4, 8-5): every copy but one agent's is invalidated and the home's is
dirty. -/
def writeAtHome (s : State) (st : Stop) (w : World) (keep : Option Agent) (line : Nat) (nt : Bool) : State :=
  let s2 := invOthers (packFree s st line) st w line keep
  if (l3Find (sliceGet s2 st) line).isSome then l3Fill s2 st line true 1 (if nt then none else some 0)
  else
    let m := demandMiss s2 st w line
    missFill m.1 st w line true nt m.2

/-- WriteOnce at the home but for the bytes (Table 8-4). -/
def doWriteOnce (s : State) (st : Stop) (a : Agent) (line : Nat) (nt : Bool) : State :=
  let w := agentWorld s a
  writeAtHome (countScope s st 0x0F 1 (some w)) st w (match a with | .core _ => none | _ => some a) line nt

/-- The requests of Table 8-4 by their Table 9-9 numbers. -/
def doRequest (s : State) (st : Stop) (op : Nat) (a : Agent) (line : Nat) (nt demand : Bool) : State :=
  match op with
  | 1 => doReadShared s st a line nt demand
  | 2 => doReadOwn s st a line nt true
  | 3 => doReadOwn s st a line nt false
  | 5 => doWriteOnce s st a line nt
  | _ => doReadOnce s st a line nt

/-- Whether a request waits in the eviction buffer for the acknowledgement of its line's write (R292). -/
def evbWaits (sl : SliceSt) (op : Nat) (a : Agent) (line : Nat) : Bool :=
  sl.evb.any fun e => decide (e.line = line) && e.waiting.any fun x => decide (x.1 = op ∧ x.2.1 = a)

/-- A request for a line in the eviction buffer (R292): before its write is issued the write is cancelled and the line
reinstalled, after it the request waits; whether it is served. A write with its bytes waits where it came from. -/
def evbRace (s : State) (st : Stop) (op : Nat) (a : Agent) (line : Nat) (nt demand : Bool) : State × Bool :=
  let sl := sliceGet s st
  let w := agentWorld s a
  match sl.evb.find? fun e => e.line = line with
  | none => (doRequest s st op a line nt demand, true)
  | some e =>
    if e.issued then
      if op = 5 ∨ evbWaits sl op a line = true then (s, false)
      else
        let l := sl.evb.map fun x => if x.line = line then { x with waiting := x.waiting ++ [(op, a, nt)] } else x
        (countScope (slicePut s st { sl with evb := l }) st 0x16 1 (some w), false)
    else
      let s1 := slicePut s st { sl with evb := sl.evb.filter fun x => x.line ≠ line }
      (doRequest (countScope (l3Fill s1 st line true 0) st 0x15 1 (some w)) st op a line nt demand, true)

/-- The stop that an agent's requests leave by: none for another package's. -/
def agentStop : Agent → Option Stop
  | .core n => some (coreStop n.val)
  | .courier h => some (hartStop h)
  | .device p _ => some (portStop p)
  | .pkg _ _ => none

/-- A request to a home crosses the mesh, and an answer comes back (R314, R321): whether it arrives. -/
def agentSend (s : State) (a : Agent) (st : Stop) : State × Bool :=
  match agentStop a with
  | some f => meshSend s f st
  | none => (s, true)
def agentReply (s : State) (a : Agent) (st : Stop) : State :=
  match agentStop a with
  | some f => (meshSend s st f).1
  | none => s

/-- The package a request comes from, where it is another one. -/
def agentPkg (a : Agent) : Option Nat := match a with | .pkg p _ => some p.val | _ => none

/-- A request accepted at its home that waits for a snoop keeps a slot (R284, R285), and gives it back once it is served. -/
def slotTake (s : State) (st : Stop) (r : Nat × Agent × Nat) : State :=
  sliceMod s st fun sl => { sl with waits := if sl.waits.contains r then sl.waits else sl.waits ++ [r] }
def slotFree (s : State) (st : Stop) (r : Nat × Agent × Nat) : State :=
  sliceMod s st fun sl => { sl with waits := sl.waits.filter (· ≠ r) }

/-- A request at its home, which is on and not retiring (R279, R284, R285): with no slot free it waits in the mesh; a pinned line and
copies in other packages that stand in the way keep it in its slot, the latter snooped first (R283). -/
def serveLine (s : State) (st : Stop) (op : Nat) (a : Agent) (line : Nat) (nt demand : Bool) : State × Bool :=
  let sl := sliceGet s st
  let known := sl.waits.contains (op, a, line) || evbWaits sl op a line
  let sent := if known then (s, true) else agentSend s a st
  if !known && decide (128 ≤ slotOcc s st) then (s, false)
  else if !sent.2 then (sent.1, false)
  else
    let wr := decide (op = 2 ∨ op = 3 ∨ op = 5)
    let s1 := if known then s else countScope sent.1 st (op - 1) 1 (some (agentWorld s a))
    if linePinned s a line then (slotTake s1 st (op, a, line), false)
    else if !lentReady s line wr (agentPkg a) then (snoopLent (slotTake s1 st (op, a, line)) line wr (agentPkg a), false)
    else
      let r := evbRace (slotFree s1 st (op, a, line)) st op a line nt demand
      (if r.2 then agentReply r.1 a st else r.1, r.2)

/-- A request for a line, and whether it has been served (R279): a home that is off is woken (R27), one that retires answers with Retry,
a line of another package is requested over a Caravan link. -/
def request (s : State) (op : Nat) (a : Agent) (line : Nat) (nt demand : Bool) : State × Bool :=
  match homeOf s (64 * line) with
  | none =>
    match paTarget s (64 * line) with
    | .remoteMem p =>
      if (s.link.waiting.any fun m => decide (m.1.op = op ∧ m.1.addr = 64 * line)) || proxyFull s (64 * line) then (s, false)
      else (sendFrom s (agentSrc a) none op (pkgLocus p) (64 * line) 0 [], false)
    | _ => (s, false)
  | some st =>
    if setHas s.cache.retiring (stopIdx st) then (s, false)
    else if domState s st 2 ≠ dON then (if pkgState s = 0 then domWake s st 2 wkHomed else s, false)
    else serveLine s st op a line nt demand

/-! ## CXL memory whose link is down (R435) -/

/-- Whether the protocol layer of a port in CXL mode has its link up. -/
def cxlUp (s : State) (n : Fin 12) : Bool := rbit s (portStop n) 5 CXL_STAT 0

/-- The port of this package behind which a line of CXL memory lies. -/
def cxlPort (s : State) (pa : Nat) : Option (Fin 12) :=
  match paTarget s pa with
  | .cxl n => if h : n < 12 then some ⟨n, h⟩ else none
  | _ => none

/-- Whether a line of CXL memory is in no cache while its link is down, so that a read returns it poisoned (R435). -/
def cxlGone (s : State) (pa : Nat) : Bool :=
  match cxlPort s pa with
  | some n =>
    !cxlUp s n && !(s.cache.l2.any fun e => decide (e.2.1 = pa / 64)) &&
    !(s.cache.slices.any fun e => (e.2.arr.any fun a => match a.2 with | some x => decide (x.line = pa / 64) | none => false) ||
      e.2.evb.any fun v => decide (v.line = pa / 64))
  | none => false

/-- The state after a read of a line: DOWN_EVT is set where the line's link is down and no cache holds it. -/
def cxlDown (s : State) (pa : Nat) : State :=
  if cxlGone s pa then (match cxlPort s pa with | some n => rsetB s (portStop n) 5 CXL_STAT 1 true | none => s) else s

/-! ## Lines for an access (R277 to R279, R299) -/

/-- Whether the tile of a thread runs locked, so that its stores wait for their retire group's comparison (R467). -/
def hartLocked (s : State) (h : Hart) : Bool :=
  match h with
  | .drover st _ _ => decide (tileMode s st = 1)
  | _ => false

/-- Whether a request of a thread may leave its core: in a locked tile only once it has been compared (R467); the state with the
request presented for comparison where it has not. -/
def lockGate (s : State) (h : Hart) : Bool × State :=
  if !hartLocked s h then (true, s)
  else
    let k := hartKey h
    match mapGet (fun _ => 0) s.lock.req k with
    | 2 => (true, s)
    | 0 => (false, { s with lock := { s.lock with req := mapSet (fun _ => 0) s.lock.req k 1 } })
    | _ => (false, s)

/-- How an access uses its line: whether it writes, whether its fill is streaming, whether it keeps no copy, the L1 it goes through (0
instruction, 1 data, 2 none), and its virtual address. -/
structure LineUse where
  write : Bool
  nt : Bool
  nc : Bool
  side : Nat
  va : Nat
deriving DecidableEq, Repr

/-- The use of a line by a table walk (R243): through the L2, whatever the type of any page. -/
def walkUse (write : Bool) : LineUse := ⟨write, false, false, 2, 0⟩

/-- The use of a line by a data access to a page of a type (R241). -/
def dataUse (write : Bool) (attr va : Nat) : LineUse := ⟨write, decide (attr = 1), decide (attr = 2), 1, va⟩

/-- Whether a line is pinned by an AMO or STX of another thread, so that an access waits (R217, R472): a read of the same pair does not. -/
def pinHolds (s : State) (h : Hart) (line : Nat) (write : Bool) : Bool :=
  s.lock.pins.any fun e => decide (e.2 = line) && decide (e.1 ≠ hartKey h) && (write || decide (e.1 / 4 ≠ hartKey h / 4))

/-- An access to a line that the core holds in its L2 (R274, R276, R278): a write moves E silently to M. A line in a way that disables
itself serves it and leaves (R295). -/
def lineHit (s : State) (n line : Nat) (u : LineUse) : State :=
  match l2Find s n line with
  | none => s
  | some (w, v) =>
    let s1 := if u.write && decide (v = l2E) then l2Put s n line w l2M else s
    let s2 := plruUse s1 n (line % 2048) 4 w false
    let s3 := if u.side < 2 then l1Use s2 n u.side u.va line u.nt else s2
    if setHas s.cache.disab (disKey (coreStop n) (16 * (n % 2) + w)) then l2Leave s3 (homeOf s (64 * line)) n line else s3

/-- An access to a line that the request before it brought: into the L1, the trees as the fill left them. -/
def lineFilled (s : State) (n line : Nat) (u : LineUse) : State :=
  if (l2Find s n line).isSome && decide (u.side < 2) then l1Use s n u.side u.va line u.nt else s

/-! ### Requests that found no route (R322) -/

/-- The source of the report of an access to memory that found no route (Table 13-2): NOROUTE_RCVD of a Drover core, and the consumption
source of the others. -/
def noRouteSource (h : Hart) : Nat :=
  match h with
  | .drover _ c _ => 0x1005 + c.val * 0x100
  | _ => consumeSource h 3

/-- A thread receives NOROUTE for an access to normal memory: a recoverable machine check, taken at its next boundary. -/
def noRouteCheck (s : State) (h : Hart) (pa : Nat) : State :=
  let src := noRouteSource h
  let s1 := reportErr s (hartStop h) src tyTIMEOUT (some pa) 0 (thrBits h)
  tmod s1 h fun t => { t with park := none, mchk := t.mchk ++ [(src, mchkInfo src false true true false, pa)] }

/-- Whether a packet from one stop to another is discarded on its way. -/
def routeGone (s : State) (a b : Stop) : Bool := (routeLegs s a b).any fun e => (legRoute s e.1 e.2).2.isSome

/-- A thread's request for a line of this package, and whether it has been served; one that is discarded on its way is answered with
NOROUTE. -/
def hartRequest (s : State) (h : Hart) (op : Nat) (a : Agent) (line : Nat) (nt : Bool) : State × Bool :=
  let r := request s op a line nt true
  match homeOf s (64 * line), agentStop a with
  | some st, some f => if !r.2 && routeGone s f st then (noRouteCheck r.1 h (64 * line), false) else r
  | _, _ => r

/-- The package that an address of memory or of device-class space lies in, by its locus. -/
def dstOf (s : State) (pa : Nat) : Nat :=
  match paTarget s pa with
  | .remoteMem p => pkgLocus p
  | .remoteDepot p => pkgLocus p
  | .remotePcie p => pkgLocus p
  | .regs cfg => pkgLocus (cfg / 2 ^ 30)
  | _ => pkgLocus (pkgNum s)

/-- Whether a class C request of a thread has to wait (R225, R395): an earlier one of it to another package has not been acknowledged. -/
def srcHeld (s : State) (h : Hart) (dst : Nat) : Bool :=
  (hartSrc h).isSome && s.link.waiting.any fun m => decide (m.2 = some h) && decide (m.1.dst ≠ dst)

/-- A Drover core's request for a line of this package, compared first in a locked tile (R467), and whether it has been served. -/
def lineAsk (s : State) (h : Hart) (op : Nat) (line : Nat) (u : LineUse) : State × Bool :=
  let n := hartCache s h
  let g := lockGate s h
  if !g.1 then (g.2, false)
  else
    let r := hartRequest g.2 h op (.core ⟨n % 192, by omega⟩) line u.nt
    if r.2 then (lineFilled r.1 n line u, true) else r

/-- The state in which this package's cores hold a line of another package, from its state there (Table 9-9). -/
def heldL2 (v : Nat) : Nat := match v with | 0 => l2S | 1 => l2E | 2 => l2M | _ => l2O

/-- A line of another package is used: the answer to a ReadOnce serves one read, a write moves E to M. -/
def heldUsed (s : State) (line : Nat) (u : LineUse) : State :=
  let l := if u.write then s.link.held.map fun e => if e.1 = line ∧ e.2 = 1 then (line, 2) else e
    else if u.nc then s.link.held.filter fun e => !decide (e.1 = line ∧ e.2 = 4)
    else s.link.held
  { s with link := { s.link with held := l } }

/-- The proxy slice records a core that takes a line of another package, and its owner (R337). -/
def proxyAdd (s : State) (line n v : Nat) : State :=
  match proxyOf s (64 * line) with
  | some st =>
    let s1 := sfAddCore s st (agentWorld s (.core ⟨n % 192, by omega⟩)) line n
    if v = l2E ∨ v = l2M then sfOwner s1 st line (some (n, v)) else s1
  | none => s

/-- Copies of a line of another package in line caches are invalidated, and the proxy slice's Courier bits cleared (R389). -/
def proxyCourier (s : State) (line : Nat) : State :=
  let s1 := invCourier s line 3 none
  match proxyOf s (64 * line) with
  | some st =>
    match sfFind (sliceGet s1 st) line with
    | some (i, e) =>
      let e1 := { e with courier := 0 }
      slicePut s1 st (sfPut (sliceGet s1 st) line i (if sfFree e1 then none else some e1))
    | none => s1
  | none => s1

/-- A core takes a line of another package that this package holds: other cores of the package share it, or lose it to a write. -/
def remoteUse (s : State) (n line : Nat) (u : LineUse) : State :=
  let v := ((s.link.held.find? fun e => decide (e.1 = line ∧ e.2 ≤ 3)).map Prod.snd).getD 0
  let hs := (l2Holders s line).filter fun e => decide (e.1 ≠ n)
  let s1 := hs.foldl (fun s e =>
    if u.write then (match l2Find s e.1 line with | some (w, _) => proxyDrop (l2Lose s e.1 line w) line e.1 | none => s)
    else l2Move s e.1 line (if e.2 = l2M ∨ e.2 = l2O then l2O else l2S)) s
  let s2 := heldUsed (if u.write then proxyCourier s1 line else s1) line u
  if u.nc || !l2Enabled s2 n then s2
  else
    match l2Find s2 n line with
    | some (_, old) => lineHit (if u.write then l2Move s2 n line l2M else l2Move s2 n line old) n line u
    | none =>
      let v1 := if u.write then l2M else if hs.isEmpty then heldL2 v else l2S
      lineFilled (l2Take (proxyAdd s2 line n v1) n line v1 u.nt) n line u

/-- Whether this package holds a line of another package for an access; a line that a ReadOnce has brought serves a read that keeps no
copy. -/
def heldReady (s : State) (line : Nat) (write nc : Bool) : Bool :=
  s.link.held.any fun l => decide (l.1 = line) &&
    (if write then decide (l.2 = 1 ∨ l.2 = 2) else decide (l.2 ≤ 3) || (nc && decide (l.2 = 4)))

/-- The request for a line of another package (Table 9-9), unless it is on its way: ReadShared, ReadOnce where no copy is kept, ReadOwn
or, where a copy is held, Upgrade. -/
def remoteAsk (s : State) (h : Hart) (p line : Nat) (write nc : Bool) : State :=
  let op := if write then (if s.link.held.any fun l => decide (l.1 = line ∧ l.2 ≤ 3) then 3 else 2) else if nc then 4 else 1
  if (s.link.waiting.any fun m => decide (m.1.op = op ∧ m.1.addr = 64 * line) && (decide (op ≠ 4) || decide (m.2 = some h))) ||
    proxyFull s (64 * line) then s
  else sendWait s (some h) op (pkgLocus p) (64 * line) 0 []

/-- A Drover core's access to a line of memory (R278, R279): whether the line is there in a state that allows it, and the state with what
it takes to have it, or after what it takes to ask for it.  With its caches disabled, or in an NC page, the access is performed at
the home (R241, R299). -/
def droverLine (s : State) (h : Hart) (u : LineUse) (pa : Nat) : State × Bool :=
  let line := pa / 64
  let n := hartCache s h
  let ask := fun op => lineAsk s h op line u
  if pinHolds s h line u.write then (s, false)
  else
    match paTarget s pa with
    | .remoteMem p =>
      if heldReady s line u.write u.nc then (remoteUse s n line u, true)
      else
        let g := lockGate s h
        (if g.1 then remoteAsk g.2 h p line u.write u.nc else g.2, false)
    | _ =>
      if homeOf s pa = none then (s, true)
      else if u.nc || !l2Enabled s n then ask (if u.write then 5 else 4)
      else
        match l2Find s n line with
        | some (_, v) => if !u.write || decide (v = l2E) || decide (v = l2M) then (lineHit s n line u, true) else ask 3
        | none => ask (if u.write then 2 else 1)

/-! ### The Courier port (R397) -/

/-- Whether a read of some Outrider of a die for stack `k` has been outstanding for PANIC_AGE. -/
def cpAged (s : State) (die : Fin 2) (k : Nat) : Bool :=
  (List.finRange 8).any fun i => (orGet s (orOf die i)).aged.contains k

/-- Requests of an Outrider for lines of stack `k` that are in its Courier port's buffer: those that wait at their home slices, and reads in
the stack's controllers, of which it has at most a fetch, a data access and a refill at once (R394). -/
def cpMine (s : State) (n : Fin 16) (k : Nat) : Nat :=
  let reads := ((List.range 8).map fun ch =>
    (mcQueue s (8 * k + ch) ++ mcStage s (8 * k + ch)).countP fun e => e.courier && !e.write && decide (e.src = some n.val)).sum
  let waits := (s.cache.slices.map fun e => e.2.waits.countP fun w =>
    decide (w.2.1 = .courier (.outrider n)) && decide (paTarget s (64 * w.2.2) = .hbm) && decide ((hbmLoc s (64 * w.2.2)).stack = k)).sum
  max (min 3 reads) (b2n ((orGet s n).aged.contains k)) + waits

/-- The requests for stack `k` in a die's Courier port (CP_STK_OCC). -/
def cpCount (s : State) (die : Fin 2) (k : Nat) : Nat := ((List.finRange 8).map fun i => cpMine s (orOf die i) k).sum

/-- A port raises panic for a stack where it is enabled and does not hold it. -/
def cpRaise (s : State) (die : Fin 2) (k : Nat) : State :=
  let st := orStop die
  if rbit s st 2 CP_CTL 24 = true ∧ rbit s st 2 CP_STAT k = false then
    let s2 := rsetB (rsetB s st 2 CP_STAT k true) st 2 CP_STAT 6 true
    let s3 := countScope s2 st 129 1 none
    rput s3 st 2 CP_PANIC_CNT (BitVec.ofNat 32 (satAdd 32 (rget s3 st 2 CP_PANIC_CNT).toNat 1))
  else s

/-- A request of an Outrider has entered its port's buffer: a count that has reached PANIC_HI raises panic for the line's stack. -/
def cpEntered (s : State) (h : Hart) (pa : Nat) : State :=
  match h, paTarget s pa with
  | .outrider n, .hbm =>
    let die := (orRegs n).1.die
    let k := (hbmLoc s pa).stack
    if rfld s (orStop die) 2 CP_CTL 0 7 ≤ cpCount s die k then cpRaise s die k else s
  | _, _ => s

/-- An Outrider's or the Waystation's access to a line of memory through the Courier port (Table 8-2): a resident line of an Outrider's
line cache serves a read, one that is not is filled (R387, R389); a read that keeps no copy and a write are performed at the home. -/
def courierLine (s : State) (h : Hart) (u : LineUse) (pa : Nat) : State × Bool :=
  let line := pa / 64
  let cached : Option (Fin 16) := match h with
    | .outrider n => if u.write || u.nc then none else some n
    | _ => none
  let fill := fun (s : State) => match cached, proxyOf s pa with
    | some n, some st => sfCourier (lcFill s n line false) st (agentWorld s (.courier h)) line h
    | some n, none => lcFill s n line false
    | none, _ => s
  let held := (proxyOf s pa).isNone || heldReady s line false false
  if (match cached with | some n => lcHas s n pa | none => false) && held then (s, true)
  else if pinHolds s h line u.write || srcHeld s h (dstOf s pa) then (s, false)
  else
    match paTarget s pa with
    | .remoteMem p =>
      if heldReady s line u.write u.nc then (fill (heldUsed s line u), true) else (remoteAsk s h p line u.write u.nc, false)
    | _ =>
      if homeOf s pa = none then (s, true)
      else
        let r := hartRequest s h (if u.write then 5 else if cached.isSome then 1 else 4) (.courier h) line false
        let s1 := cpEntered r.1 h pa
        (if r.2 then fill s1 else s1, r.2)

/-- A line of memory for an access of a thread: what it takes to have it, and whether it is there. A core's own memory needs none. -/
def lineTake (s : State) (h : Hart) (u : LineUse) (pa : Nat) : State × Bool :=
  if 2 ^ 52 ≤ pa then (s, true)
  else
    match h with
    | .drover _ _ _ => droverLine s h u pa
    | _ => courierLine s h u pa

/-- The lines of some accesses taken in order, until one is not there. -/
def linesTake (s : State) (h : Hart) : List (LineUse × Nat) → State × Bool
  | [] => (s, true)
  | (u, pa) :: l =>
    let r := lineTake s h u pa
    if r.2 then linesTake r.1 h l else r

/-- A line of memory for a port (Table 8-2): read or written at its home, or held from another package. -/
def portLine (s : State) (n : Fin 12) (stream : Fin 64) (write nt : Bool) (line : Nat) : State × Bool :=
  match paTarget s (64 * line) with
  | .remoteMem p =>
    if heldReady s line write false then (s, true)
    else
      let op := if write then 2 else 1
      if s.link.waiting.any fun m => decide (m.1.op = op ∧ m.1.addr = 64 * line) then (s, false)
      else (sendFrom s (streamSrc n.val stream.val) none op (pkgLocus p) (64 * line) 0 [], false)
  | _ => if homeOf s (64 * line) = none then (s, true) else request s (if write then 5 else 4) (.device n stream) line nt true

end Sys2Proof.Machine
end

