-- ==== Sys2Proof/Machine/Translate.lean ====
section
/-!
DEFINITION. Store queues, table walks, permission checks, accessed and dirty bits, and cached translations (chapters 5 and 7).
-/

namespace Sys2Proof.Machine

/-! ## Committed stores -/

/-- The package that a store goes to as a WriteOnce (R279, R379): one whose memory holds its address, for an Outrider's store or one to an
NC page. -/
def writeOnceTo (s : State) (h : Hart) (e : StoreEnt) : Option Nat :=
  match h, paTarget s e.pa with
  | .outrider _, .remoteMem p => some p
  | .drover _ _ _, .remoteMem p => if e.attr = 2 then some p else none
  | _, _ => none

/-- The oldest committed store of a thread is written once its line is there (R182), or the oldest entry of an Outrider's store buffer
(R379); in a locked tile only after its group has compared good (R467).  A WriteOnce to another package goes when it is
acknowledged. -/
def drainOne (s : State) (h : Hart) : State :=
  match (tget s h).stores with
  | [] => s
  | e :: r =>
    if hartLocked s h && !e.good then s
    else
      match writeOnceTo s h e with
      | some p =>
        if s.link.waiting.any fun m => decide (m.1.op = 5) && decide (m.2 = some h) then s
        else sendWait s (some h) 5 (pkgLocus p) e.pa 0 e.bytes
      | none =>
        let l := lineTake s h (dataUse true e.attr e.va) e.pa
        if l.2 then agentWrite (tmod l.1 h fun t => { t with stores := r }) (some h) e.pa e.bytes else l.1

/-- Committed stores of a thread are written, oldest first, until one has to wait. -/
def drainStores (s : State) (h : Hart) (n : Nat) : State :=
  match n with
  | 0 => s
  | n + 1 => drainStores (drainOne s h) h n

/-- Every committed store of a thread that can be written is written. -/
def drainAll (s : State) (h : Hart) : State := drainStores s h (tget s h).stores.length

/-- Whether a thread has no committed store left to write. -/
def drained (s : State) (h : Hart) : Bool := (tget s h).stores.isEmpty

/-! ## Walks -/

/-- What an access does to its page (Table 7-9): the kinds of Table 7-6. -/
inductive AKind where
  | read | write | fetch | rw
deriving DecidableEq, Repr

/-- L_INFO.ACCESS (Table 7-9). -/
def AKind.code : AKind → Nat
  | .read => 0 | .write => 1 | .fetch => 2 | .rw => 3

/-- Whether an access of this kind writes. -/
def AKind.writes : AKind → Bool
  | .write => true | .rw => true | _ => false

/-- Why a translation gives no address. -/
inductive TErr where
  /-- A fault of Table 7-10: code, level, stage, whether it arose translating a table address, guest physical address [51:12]. -/
  | fault (code lvl stage table gpa : Nat)
  /-- The entry's address maps to nothing. -/
  | abort (ea : Nat)
  /-- The entry's address is device-class. -/
  | dev (ea : Nat)
  /-- The entry is poisoned. -/
  | poison (ea : Nat)
  /-- An entry's line, an earlier store or a comparison has to be waited for. -/
  | busy
deriving DecidableEq, Repr

/-- A regime with its registers (Table 7-1), and the pointers that a walk of it may use (R253); an I/O translation unit's context in the
same form (R269), with its port. -/
structure Regime where
  world : World
  level : Level
  /-- U and X are checked: not in an I/O translation unit. -/
  core : Bool
  tag : Nat
  asid : Nat
  vmid : Nat
  s1 : Bool
  root1 : Nat
  l5 : Bool
  hwad1 : Bool
  sua : Bool
  s2 : Bool
  root2 : Nat
  hwad2 : Bool
  me : Option Hart
  port : Option (Fin 12)
  attr1 : Nat
  attr2 : Nat
  wc : List WcEnt
deriving DecidableEq, Repr

/-- The core of a Drover thread. -/
def hartCore : Hart → Option Nat
  | .drover st c _ => some (coreKey st c)
  | _ => none

/-- The pointers that a thread's core caches (R253). -/
def wcOf (s : State) (h : Hart) : List WcEnt :=
  match hartCore h with
  | some k => (cget s k).wc
  | none => []

/-- The regime of a thread's accesses (Table 7-1, R235). -/
def regimeOf (h : Hart) (t : Thread) : Regime :=
  let guest := decide (t.world = .normal)
  let r : Regime := {
    world := t.world, level := t.level, core := true, tag := 2, asid := 0, vmid := 0, s1 := false, root1 := 0, l5 := false,
    hwad1 := false, sua := false, s2 := false, root2 := 0, hwad2 := false, me := some h, port := none, attr1 := 0, attr2 := 0, wc := [] }
  match t.level with
  | .m => r
  | .h => { r with
      tag := 1, asid := ctxAsid t, s1 := sbit t snH_TR_CTL 0, root1 := (sget t snH_TR_ROOT).toNat, l5 := sbit t snH_TR_CTL 1,
      hwad1 := sbit t snH_TR_CTL 2, attr1 := (sget t snH_TR_ATTR).toNat }
  | _ => { r with
      tag := if guest then 0 else 2, asid := ctxAsid t, vmid := ctxVmid t, s1 := sbit t snTR_CTL 0,
      root1 := (sget t snTR_ROOT).toNat, l5 := sbit t snTR_CTL 1, hwad1 := sbit t snTR_CTL 2, sua := sbit t snTR_CTL 3,
      s2 := guest && sbit t snVM_CTL 0, root2 := (sget t snVM_ROOT).toNat, hwad2 := sbit t snVM_CTL 2,
      attr1 := (sget t snTR_ATTR).toNat, attr2 := (sget t snVM_ATTR).toNat }

/-- The line of a table entry for a walk, or for an update of the entry (R243, R247). -/
def walkLine (s : State) (r : Regime) (ea : Nat) (write : Bool) : State × Bool :=
  match r.me, r.port with
  | some h, _ => lineTake s h (walkUse write) ea
  | none, some n => portLine s n 0 write false (ea / 64)
  | none, none => (s, true)

/-- An entry read by a walk (R243): memory only, coherent, of the world of the access. -/
def readEntry (s : State) (r : Regime) (ea : Nat) : State × Except TErr Nat :=
  if seenTarget s r.world ea = .nothing then (s, .error (.abort ea))
  else if isDevice ea then (s, .error (.dev ea))
  else if cxlGone s ea then (cxlDown s ea, .error (.poison ea))
  else
    let l := walkLine s r ea false
    if !l.2 then (l.1, .error .busy)
    else if poisoned l.1 ea 8 then (l.1, .error (.poison ea))
    else (l.1, .ok (leNat (memRead l.1 ea 8)))

/-- What an entry at level `k` is (R239, R240, R243). -/
inductive EntKind where
  | bad (code : Nat)
  | pointer (table : Nat)
  | leaf
deriving DecidableEq, Repr

/-- Whether SIZE is legal at level `k` (Table 7-4). -/
def sizeLegal (k size : Nat) : Bool := if k = 4 then decide (size = 36) else decide (9 * k ≤ size ∧ size ≤ 9 * k + 9)

/-- The kind of an entry at level `k`, in the order of the walk (R243). -/
def entKind (k e : Nat) : EntKind :=
  if !bit e 0 then .bad 2
  else if bits e 1 3 = 0 then
    if k = 0 ∨ bits e 1 11 ≠ 0 ∨ bits e 52 6 ≠ 0 then .bad 3 else .pointer (bits e 12 40 * 4096)
  else if bit e 11 || (bit e 2 && !bit e 1) then .bad 3
  else if !sizeLegal k (bits e 52 6) then .bad 4
  else .leaf

/-- The checks of Table 7-6 on a leaf, in order: the fault code of the first that fails. `needD` says whether the access
writes its page. -/
def permFault (r : Regime) (stage : Nat) (hwad : Bool) (kind : AKind) (needD : Bool) (e : Nat) : Option Nat :=
  let userChecked := decide (stage = 0) && r.core && decide (r.level ≠ .h)
  let userBad := if r.level = .u then !bit e 4 else bit e 4 && !(r.sua && decide (kind ≠ .fetch))
  if userChecked && userBad then some 5
  else if r.core && decide (kind = .fetch) && !bit e 3 then some 8
  else if (decide (kind = .read) || decide (kind = .rw)) && !bit e 1 then some 6
  else if kind.writes && !bit e 2 then some 7
  else if !hwad && !bit e 6 then some 9
  else if !hwad && needD && !bit e 7 then some 10
  else none

/-- The address a leaf gives for an input address (R243). -/
def leafOut (e ia : Nat) : Nat :=
  let sz := 12 + bits e 52 6
  (bits e 12 40 * 4096) / 2 ^ sz * 2 ^ sz + ia % 2 ^ sz

/-- A hardware update of an entry: a compare-and-swap that takes one place in coherence order (R247). -/
def writeEntry (s : State) (me : Option Hart) (ea v : Nat) : State := agentWrite s me ea (natLe 8 v)

/-- Events of an update of A or D in a leaf. -/
def countAd (s : State) (me : Option Hart) (ev : Nat) : State :=
  match me with
  | some h => countThread s h ev 1
  | none => s

/-- Whether the update of an entry may be made now: in a locked tile it has been compared (R251), and its line is there to be
written. -/
def adReady (s : State) (r : Regime) (ea : Nat) : State × Bool :=
  match r.me with
  | some h =>
    let g := lockGate s h
    if g.1 then walkLine g.2 r ea true else (g.2, false)
  | none => walkLine s r ea true

/-- The pointer of lowest level that a walk may start from (R253): the table it names and its level; without one the root. -/
def wcStart (r : Regime) (stage ia root levels : Nat) : Nat × Nat :=
  r.wc.foldl (fun (a : Nat × Nat) e =>
    if e.stage = stage ∧ e.regime = r.tag ∧ e.vmid = r.vmid ∧ (stage = 1 ∨ e.asid = r.asid) ∧ e.lvl < a.2 ∧
        ia / 2 ^ (12 + 9 * e.lvl) = e.base / 2 ^ (12 + 9 * e.lvl) then (e.table, e.lvl) else a) (root, levels)

/-- The pointer of an entry of level `k` that a walk for an input address has read. -/
def wcPtr (r : Regime) (stage ia k table : Nat) : WcEnt :=
  ⟨stage, r.tag, r.vmid, if stage = 0 then r.asid else 0, k, ia / 2 ^ (12 + 9 * k) * 2 ^ (12 + 9 * k), table⟩

/-- What stage 2 gives: the address, the leaf used and the pointers read. -/
structure Walk2 where
  pa : Nat
  leaf : TLeaf
  ptrs : List WcEnt
deriving DecidableEq, Repr

/-- The walk of stage 2 from the table of level `k - 1` on (R243); A is set where it is clear (R247). -/
def walk2 (s : State) (r : Regime) (kind : AKind) (needD : Bool) (table ia : Nat) (tbl : Nat) : Nat → State × Except TErr Walk2
  | 0 => (s, .error (.fault 2 0 1 tbl (ia / 4096)))
  | k + 1 =>
    let ea := table + 8 * bits ia (12 + 9 * k) 9
    match readEntry s r ea with
    | (s1, .error e) => (s1, .error e)
    | (s1, .ok e) =>
      match entKind k e with
      | .bad c => (s1, .error (.fault c k 1 tbl (ia / 4096)))
      | .pointer t =>
        match walk2 s1 r kind needD t ia tbl k with
        | (s2, .ok w) => (s2, .ok { w with ptrs := wcPtr r 1 ia k t :: w.ptrs })
        | (s2, .error x) => (s2, .error x)
      | .leaf =>
        match permFault r 1 r.hwad2 kind needD e with
        | some c => (s1, .error (.fault c k 1 tbl (ia / 4096)))
        | none =>
          if r.hwad2 && !bit e 6 then
            let u := adReady s1 r ea
            if u.2 then (countAd (writeEntry u.1 r.me ea (e + 64)) r.me evA_SET, .ok ⟨leafOut e ia, ⟨ea, 0, e + 64, k⟩, []⟩)
            else (u.1, .error .busy)
          else (s1, .ok ⟨leafOut e ia, ⟨ea, 0, e, k⟩, []⟩)

/-- Translation by stage 2 (R243); an input with bits [63:48] nonzero faults GPA_RANGE (R238). -/
def stage2 (s : State) (r : Regime) (kind : AKind) (needD : Bool) (ia tbl : Nat) : State × Except TErr Walk2 :=
  if 2 ^ 48 ≤ ia then (s, .error (.fault 11 0 1 tbl (ia / 4096 % 2 ^ 40)))
  else
    let b := wcStart r 1 ia r.root2 4
    walk2 s r kind needD b.1 ia tbl b.2

/-- A write of a leaf's D where it is clear, with A (R247, R250). -/
def setD (s : State) (r : Regime) (ea : Nat) : State :=
  let e := leNat (memRead s ea 8)
  if bit e 7 then s else countAd (writeEntry s r.me ea (e + 128 + (if bit e 6 then 0 else 64))) r.me evD_SET

/-- What a hardware update of a stage-1 entry needs under stage 2 (R250): W there and D of that leaf, set with it. -/
def updateReady (s : State) (r : Regime) (ea gpa : Nat) : State × Except TErr (Option TLeaf) :=
  let go := fun (s : State) (l : Option TLeaf) =>
    let u := adReady s r ea
    if u.2 then (u.1, (Except.ok l : Except TErr (Option TLeaf))) else (u.1, .error .busy)
  if r.s2 then
    match stage2 s r .write true gpa 1 with
    | (s1, .error e) => (s1, .error e)
    | (s1, .ok w) =>
      if r.hwad2 && !bit w.leaf.val 7 then
        let u := adReady s1 r w.leaf.ea
        if u.2 then go u.1 (some w.leaf) else (u.1, .error .busy)
      else go s1 none
  else go s none

/-- A of a stage-1 leaf set (R247, R250). -/
def setA1 (s : State) (r : Regime) (ea gpa e : Nat) : State × Except TErr Unit :=
  match updateReady s r ea gpa with
  | (s1, .error x) => (s1, .error x)
  | (s1, .ok l) =>
    let s2 := match l with
      | some l => setD s1 r l.ea
      | none => s1
    (countAd (writeEntry s2 r.me ea (e + 64)) r.me evA_SET, .ok ())

/-- The physical address of a stage-1 entry, translated by stage 2 where that is on (R243), and the pointers read. -/
def entryAddr (s : State) (r : Regime) (gpa : Nat) : State × Except TErr (Nat × List WcEnt) :=
  if r.s2 then
    match stage2 s r .read false gpa 1 with
    | (s1, .error e) => (s1, .error e)
    | (s1, .ok w) => (s1, .ok (w.pa, w.ptrs))
  else (s, .ok (gpa, []))

/-- A completed translation: the address, the page's size, the leaves, and the pointers that its walk has read. -/
structure Tran where
  pa : Nat
  logSize : Nat
  s1 : Option TLeaf
  s2 : Option TLeaf
  ptrs : List WcEnt
deriving DecidableEq, Repr

/-- The output of a stage-1 leaf, through stage 2 where that is on (R243). -/
def finish1 (s : State) (r : Regime) (kind : AKind) (needD : Bool) (out : Nat) (l : TLeaf) : State × Except TErr Tran :=
  let sz := 12 + bits l.val 52 6
  if r.s2 then
    match stage2 s r kind needD out 0 with
    | (s1, .error e) => (s1, .error e)
    | (s1, .ok w) => (s1, .ok ⟨w.pa, min sz (12 + bits w.leaf.val 52 6), some l, some w.leaf, w.ptrs⟩)
  else (s, .ok ⟨out, sz, some l, none, []⟩)

/-- The walk of stage 1 from the table of level `k - 1` on (R243). -/
def walk1 (s : State) (r : Regime) (kind : AKind) (needD : Bool) (table ia : Nat) : Nat → State × Except TErr Tran
  | 0 => (s, .error (.fault 2 0 0 0 0))
  | k + 1 =>
    let gpa := table + 8 * bits ia (12 + 9 * k) 9
    match entryAddr s r gpa with
    | (s1, .error e) => (s1, .error e)
    | (s1, .ok (ea, ps)) =>
      match readEntry s1 r ea with
      | (s2, .error e) => (s2, .error e)
      | (s2, .ok e) =>
        match entKind k e with
        | .bad c => (s2, .error (.fault c k 0 0 0))
        | .pointer t =>
          match walk1 s2 r kind needD t ia k with
          | (s3, .ok w) => (s3, .ok { w with ptrs := wcPtr r 0 ia k t :: ps ++ w.ptrs })
          | (s3, .error x) => (s3, .error x)
        | .leaf =>
          match permFault r 0 r.hwad1 kind needD e with
          | some c => (s2, .error (.fault c k 0 0 0))
          | none =>
            if r.hwad1 && !bit e 6 then
              match setA1 s2 r ea gpa e with
              | (s3, .error er) => (s3, .error er)
              | (s3, .ok ()) => finish1 s3 r kind needD (leafOut e ia) ⟨ea, gpa, e + 64, k⟩
            else finish1 s2 r kind needD (leafOut e ia) ⟨ea, gpa, e, k⟩

/-- Whether a stage-1 input address is canonical (R238). -/
def canonical (l5 : Bool) (va : Nat) : Bool :=
  if l5 then decide (bits va 56 8 = 0) || decide (bits va 56 8 = 2 ^ 8 - 1)
  else decide (bits va 47 17 = 0) || decide (bits va 47 17 = 2 ^ 17 - 1)

/-- A translation by a walk (R236, R238, R243); where the access writes and D of the stage-1 leaf is clear, stage 2 has to let the entry
be written (R250). -/
def walk (s : State) (r : Regime) (kind : AKind) (needD : Bool) (va : Nat) : State × Except TErr Tran :=
  if r.s1 then
    if !canonical r.l5 va then (s, .error (.fault 1 0 0 0 0))
    else
      let b := wcStart r 0 va r.root1 (if r.l5 then 5 else 4)
      match walk1 s r kind needD b.1 va b.2 with
      | (s1, .error e) => (s1, .error e)
      | (s1, .ok t) =>
        match t.s1 with
        | some l =>
          if needD && r.hwad1 && r.s2 && !bit l.val 7 then
            match stage2 s1 r .write true l.gpa 1 with
            | (s2, .ok _) => (s2, .ok t)
            | (s2, .error e) => (s2, .error e)
          else (s1, .ok t)
        | none => (s1, .ok t)
  else if r.s2 then
    match stage2 s r kind needD va 0 with
    | (s1, .error e) => (s1, .error e)
    | (s1, .ok w) => (s1, .ok ⟨w.pa, 12 + bits w.leaf.val 52 6, none, some w.leaf, w.ptrs⟩)
  else if 2 ^ 52 ≤ va then (s, .error (.fault 1 0 0 0 0))
  else (s, .ok ⟨va, 12, none, none, []⟩)

/-- The type that an attribute table gives a leaf (R241, Table 7-3): 0 WB, 1 NT, 2 NC, which 3 falls back to. -/
def leafType (table val : Nat) : Nat := min 2 (bits table (8 * bits val 8 3) 2)

/-- The type of a page: under two stages the higher code of the two (R241). -/
def pageType (r : Regime) (t : Tran) : Nat :=
  let f := fun (table : Nat) (l : Option TLeaf) => match l with
    | some l => leafType table l.val
    | none => 0
  max (f r.attr1 t.s1) (f r.attr2 t.s2)

/-! ## Cached translations -/

/-- Whether a cached translation serves an address in a regime (R253): its context, or a global leaf of its regime. -/
def tlbHit (r : Regime) (va : Nat) (e : TlbEnt) : Bool :=
  decide (e.regime = r.tag) && decide (e.vmid = r.vmid) && decide (va / 2 ^ e.logSize = e.base / 2 ^ e.logSize) &&
  decide (e.s1.isSome = r.s1) && decide (e.s2.isSome = r.s2) &&
  (decide (e.asid = r.asid) || (match e.s1 with | some l => bit l.val 5 | none => false))

/-- Whether a cached translation permits an access, with every D bit it needs set (Table 7-6, R248). -/
def tlbPermits (r : Regime) (kind : AKind) (needD : Bool) (e : TlbEnt) : Bool :=
  (match e.s1 with
   | some l => (permFault r 0 r.hwad1 kind needD l.val).isNone && (!needD || bit l.val 7)
   | none => true) &&
  (match e.s2 with
   | some l => (permFault r 1 r.hwad2 kind needD l.val).isNone && (!needD || bit l.val 7)
   | none => true)

/-- The core's cached translations. -/
def tlbOf (s : State) (h : Hart) : List TlbEnt :=
  match hartCore h with
  | some k => (cget s k).tlb
  | none => []

/-- The state with a thread's core's cached translations replaced. -/
def tlbPut (s : State) (h : Hart) (l : List TlbEnt) : State :=
  match hartCore h with
  | some k => cput s k { cget s k with tlb := l }
  | none => s

/-- The state with the cached translations that serve an address dropped. -/
def tlbDrop (s : State) (h : Hart) (r : Regime) (va : Nat) : State :=
  tlbPut s h ((tlbOf s h).filter fun e => !tlbHit r va e)

/-- Pointers put in front of those that a walk cache holds, the oldest leaving it (log entry 92). -/
def wcAdd (size : Nat) (new old : List WcEnt) : List WcEnt :=
  (new ++ old.filter fun e => !(new.any fun x => decide ({ x with table := e.table } = e))).take size

/-- A translation as a cached entry. -/
def tlbEnt (r : Regime) (va : Nat) (t : Tran) : TlbEnt :=
  ⟨r.tag, r.vmid, r.asid, va / 2 ^ t.logSize * 2 ^ t.logSize, t.logSize, t.pa / 2 ^ t.logSize * 2 ^ t.logSize, t.s1, t.s2⟩

/-- The state with a translation and the pointers of its walk cached (R168, R253), the oldest leaving (log entry 92); nothing is cached
while every stage is off. -/
def tlbAdd (s : State) (h : Hart) (r : Regime) (va : Nat) (t : Tran) : State :=
  match hartCore h with
  | none => s
  | some k =>
    if t.s1.isNone && t.s2.isNone then s
    else
      let c := cget s k
      cput s k { c with
        tlb := (tlbEnt r va t :: c.tlb.filter fun e => !tlbHit r va e).take 4096
        wc := wcAdd 64 t.ptrs c.wc }

/-- A translation by a thread (R253, R256): a cached one that permits the access, else a walk; a fault is raised only by a
second walk, made without cached pointers after the thread's earlier stores have been written. -/
def translate (s : State) (h : Hart) (kind : AKind) (needD : Bool) (va : Nat) : State × Except TErr Tran :=
  let r := regimeOf h (tget s h)
  match (tlbOf s h).find? fun e => tlbHit r va e && tlbPermits r kind needD e with
  | some e => (s, .ok ⟨e.out + va % 2 ^ e.logSize, e.logSize, e.s1, e.s2, []⟩)
  | none =>
    match walk s { r with wc := wcOf s h } kind needD va with
    | (s1, .ok t) => (tlbAdd s1 h r va t, .ok t)
    | (s1, .error (.fault _ _ _ _ _)) =>
      let s2 := drainAll (tlbDrop s1 h r va) h
      if !drained s2 h then (s2, .error .busy)
      else
        match walk s2 r kind needD va with
        | (s3, .ok t) => (tlbAdd s3 h r va t, .ok t)
        | (s3, .error e) => (s3, .error e)
    | (s1, .error e) => (s1, .error e)

/-! ## D of the pages that an instruction writes (R247 to R251) -/

/-- Whether a leaf now in memory gives what the walk found: every field but A, D and SW (R248). -/
def sameLeaf (a b : Nat) : Bool := decide (bits a 0 6 = bits b 0 6 ∧ bits a 8 50 = bits b 8 50)

/-- Whether D of a leaf is to be set by hardware. -/
def dDue (hwad : Bool) (l : TLeaf) : Bool := hwad && !bit l.val 7

/-- Whether D can be set in the leaves of a page, every line at hand and each leaf still the one the walk found. -/
def pageReady (s : State) (r : Regime) (s1 s2 : Option TLeaf) : State × Bool :=
  let one := fun (s : State) (l : TLeaf) =>
    let u := adReady s r l.ea
    (u.1, u.2 && sameLeaf (leNat (memRead u.1 l.ea 8)) l.val)
  let a : State × Bool := match s1 with
    | some l =>
      if dDue r.hwad1 l then
        match updateReady s r l.ea l.gpa with
        | (x, .ok _) => (x, sameLeaf (leNat (memRead x l.ea 8)) l.val)
        | (x, .error _) => (x, false)
      else (s, true)
    | none => (s, true)
  match s2 with
  | some l => if a.2 && dDue r.hwad2 l then one a.1 l else a
  | none => a

/-- D set in the leaves of a page. -/
def pageCommit (s : State) (r : Regime) (s1 s2 : Option TLeaf) : State :=
  let a := match s1 with
    | some l =>
      if dDue r.hwad1 l then
        let b := if r.s2 then (match stage2 s r .write true l.gpa 1 with
          | (x, .ok w) => if r.hwad2 then setD x r w.leaf.ea else x
          | (x, .error _) => x) else s
        setD b r l.ea
      else s
    | none => s
  match s2 with
  | some l => if dDue r.hwad2 l then setD a r l.ea else a
  | none => a

/-- The pages that an instruction writes: address and leaves of both stages. -/
abbrev Pages := List (Nat × Option TLeaf × Option TLeaf)

/-- Whether the D updates of an instruction can be made as one (R249); where not, the translations that are no longer those in memory are
dropped, so that the instruction walks again. -/
def commitReady (s : State) (h : Hart) (ps : Pages) : State × Bool :=
  let r := regimeOf h (tget s h)
  ps.foldl (fun (a : State × Bool) p =>
    if !a.2 then a
    else
      let x := pageReady a.1 r p.2.1 p.2.2
      (if x.2 then x.1 else tlbDrop x.1 h r p.1, x.2)) (s, true)

/-- The D updates of an instruction that commits; what is cached of the pages is read again. -/
def commitPages (s : State) (h : Hart) (ps : Pages) : State :=
  let r := regimeOf h (tget s h)
  ps.foldl (fun s p =>
    let due := (match p.2.1 with | some l => dDue r.hwad1 l | none => false) || (match p.2.2 with | some l => dDue r.hwad2 l | none => false)
    if due then tlbDrop (pageCommit s r p.2.1 p.2.2) h r p.1 else s) s

/-- L_INFO of a translation fault (Table 7-9). -/
def tfaultInfo (code lvl stage table gpa access half : Nat) : Nat :=
  code + lvl * 2 ^ 8 + stage * 2 ^ 11 + access * 2 ^ 12 + half * 2 ^ 14 + table * 2 ^ 15 + gpa * 2 ^ 16

/-- The exception of a failed translation (Table 3-8, R244, R245), and the state after it is reported; none where the thread waits. -/
def tranExc (s : State) (h : Hart) (kind : AKind) (va half : Nat) : TErr → State × Option Exc
  | .fault c l st tb g =>
    (s, some ⟨if kind = .fetch then cITRANS else cDTRANS, va, tfaultInfo c l st tb g kind.code half, none⟩)
  | .abort ea =>
    let s1 :=
      match violationKind s (tget s h).world ea with
      | some k => violation s (hartLocus (pkgNum s) h) k 0
      | none => s
    (s1, some ⟨cWALK_ABORT, va, ea, none⟩)
  | .dev ea => (s, some ⟨cWALK_DEV, va, ea, none⟩)
  | .poison ea =>
    let c := consume s h 4 ea
    (c.1, some c.2)
  | .busy => (s, none)

end Sys2Proof.Machine
end

