-- ==== Sys2Proof/Machine/Run.lean ====
section
/-!
DEFINITION. Running one instruction: instruction words, what a boundary does before it, the checks in the order of Table 3-11,
and retirement with its counters, samples and single step.
-/

namespace Sys2Proof.Machine

/-! ## Instruction words (Table 4-1) -/

/-- Predicate field and MAJOR of a word (R84, R133). -/
def encTop (q : BitVec 4) (major : BitVec 6) : BitVec 32 := q.setWidth 32 <<< 28 ||| major.setWidth 32 <<< 22

/-- Format R. -/
def encR (q : BitVec 4) (major : BitVec 6) (rd rs1 rs2 : Reg) (fn7 : BitVec 7) : BitVec 32 :=
  encTop q major ||| rd.setWidth 32 <<< 17 ||| rs1.setWidth 32 <<< 12 ||| rs2.setWidth 32 <<< 7 ||| fn7.setWidth 32

/-- Formats I and S. -/
def encI (q : BitVec 4) (major : BitVec 6) (r rs1 : Reg) (imm : BitVec 12) : BitVec 32 :=
  encTop q major ||| r.setWidth 32 <<< 17 ||| rs1.setWidth 32 <<< 12 ||| imm.setWidth 32

/-- Format U. -/
def encU (q : BitVec 4) (major : BitVec 6) (rd : Reg) (imm : BitVec 17) : BitVec 32 :=
  encTop q major ||| rd.setWidth 32 <<< 17 ||| imm.setWidth 32

/-- Format J. -/
def encJ (q : BitVec 4) (major : BitVec 6) (imm : BitVec 22) : BitVec 32 := encTop q major ||| imm.setWidth 32

/-- Format K. -/
def encK (q : BitVec 4) (op6 : BitVec 6) (imm : BitVec 16) : BitVec 32 :=
  encTop q 0x2A ||| op6.setWidth 32 <<< 16 ||| imm.setWidth 32

/-- Formats V and VM. -/
def encV (q : BitVec 4) (major : BitVec 6) (vd vs1 vs2 : Reg) (msk : PReg) (z : Bool) (esz : BitVec 2) (f : Bool) : BitVec 32 :=
  encTop q major ||| vd.setWidth 32 <<< 17 ||| vs1.setWidth 32 <<< 12 ||| vs2.setWidth 32 <<< 7 ||| msk.setWidth 32 <<< 4 |||
    (if z then 8 else 0) ||| esz.setWidth 32 <<< 1 ||| (if f then 1 else 0)

/-! ## Threads that run -/

/-- Whether a hart is a place of the package: a Drover thread lies in a compute tile. -/
def hartExists (h : Hart) : Bool :=
  match h with
  | .drover st _ _ => decide (stopKind st = .tile)
  | _ => true

/-- Whether a thread's pair is in recovery or under self-test (R475, R478). -/
def recovering (s : State) (h : Hart) : Bool :=
  match h with
  | .drover st _ _ => rbit s st 0 LOCK_STAT 3 || rbit s st 0 LOCK_STAT 4
  | _ => false

/-- Whether a thread runs and has no instruction in progress; one that is told to stop begins none (R207). -/
def canRun (s : State) (h : Hart) : Bool :=
  hartExists h && !recovering s h && decide ((tget s h).run = .running) && (tget s h).park.isNone && (tget s h).wait.isNone &&
  !(tget s h).stopReq

/-- Retire groups of a locked thread that have not been compared. -/
def groupsOf (s : State) (h : Hart) : List LockGroup := mapGet (fun _ => []) s.lock.groups (hartKey h)

/-- What a new group of a locked thread is: it holds the thread's latest waybill operation or the operation of its latch, where no
group before it does. -/
def groupKind (s : State) (h : Hart) : Nat :=
  let k := hartKey h
  let g := groupsOf s h
  let mine := s.wb.prov.countP fun p => decide (p.hart = k)
  let known := g.countP (fun e => decide (e.kind = 1)) + mapGet (fun _ => 0) s.lock.confirm k
  if known < mine then 1
  else if (mapGet (fun _ => none) s.lock.latch k).isSome && !(g.any fun e => decide (e.kind = 2)) then 2 else 0

/-- The signature of the group that a locked thread's latest instruction makes, since the group before it (R468). -/
def newSig (s : State) (h : Hart) (r : GroupRec) : BitVec 64 :=
  let last := (groupsOf s h).getLast?
  let before := (last.map LockGroup.after).getD (mapGet (fun _ => Thread.initial) s.lock.cairn (hartKey h))
  let seq := (last.map LockGroup.seq).getD 0
  groupSig r before (tget s h) ((tget s h).stores.filter fun e => !e.good && decide (seq ≤ e.seq))

/-- A group joins those of a locked thread that wait for comparison (R467). -/
def addGroup (s : State) (h : Hart) (kind : Nat) (r : GroupRec) : State :=
  let e : LockGroup := ⟨{ tget s h with stores := [] }, s.cpu.seqNo, kind, newSig s h r⟩
  { s with lock := { s.lock with
      groups := mapSet (fun _ => []) s.lock.groups (hartKey h) (groupsOf s h ++ [e])
      req := mapSet (fun _ => 0) s.lock.req (hartKey h) 0 } }

/-- A retire group of a locked thread waits for its comparison: the state after it, the stores in it and its signature (R467, R468). -/
def pushGroup (s : State) (h : Hart) (r : GroupRec) : State := if hartLocked s h then addGroup s h (groupKind s h) r else s

/-- An interrupt taken to a level (R111): L_VAL is 0 and L_EPC the next unexecuted instruction (Table 3-8). -/
def takeInterrupt (s : State) (h : Hart) (l : Level) : State :=
  pushGroup (takeAt s h l cINT 0 0 (tget s h).pc 0x100 evINT) h ⟨(tget s h).pc, 0, true, some cINT⟩

/-- The oldest machine check that waits for a boundary is taken (R447, R448). -/
def takeMchk (s : State) (h : Hart) : State :=
  match (tget s h).mchk with
  | [] => s
  | (src, info, val) :: r =>
    let s1 := tmod s h fun t => { t with mchk := r }
    let s2 := takeAt s1 h (mchkLevelOf s h src) cMCHK (BitVec.ofNat 64 val) (BitVec.ofNat 64 info) (tget s h).pc 0x180 evMCHK
    pushGroup s2 h ⟨(tget s h).pc, 0, true, some cMCHK⟩

/-- A thread halts for debug (R209). -/
def haltNow (s : State) (h : Hart) : State := tmod s h fun t => { t with run := .halted, haltReq := false, slotA := none }

/-- Whether a halt request takes effect at this boundary: invasive debug is enabled for the thread's world, and its pair is not
in recovery (R209). -/
def haltDue (s : State) (h : Hart) : Bool :=
  (tget s h).haltReq && dbgInv s (tget s h).world &&
  !(match h with | .drover st _ _ => rbit s st 0 LOCK_STAT 3 | _ => false)

/-- Whether a locked thread is to write its whole state into its cairn at its next boundary (R474). -/
def refreshDue (s : State) (h : Hart) : Bool :=
  hartLocked s h && setHas s.lock.bad (hartKey h) &&
  !((groupsOf s h).any fun e => decide (e.kind = 3))

/-- The cairn of a locked thread takes its state, and no group of it waits (R473). -/
def cairnSync (s : State) (h : Hart) : State :=
  if hartLocked s h then
    let k := hartKey h
    { s with lock := { s.lock with
        cairn := mapSet (fun _ => Thread.initial) s.lock.cairn k { tget s h with stores := [] }
        groups := mapSet (fun _ => []) s.lock.groups k []
        req := mapSet (fun _ => 0) s.lock.req k 0
        latch := mapSet (fun _ => none) s.lock.latch k none } }
  else s

/-- A thread halts for debug at a boundary (R209): its committed stores drain, and a locked thread's cairn holds the halt; one whose groups
have not all been compared waits for that first. -/
def haltAt (s : State) (h : Hart) : State :=
  if (groupsOf s h).isEmpty then cairnSync (haltNow (drainAll s h) h) h else s

/-- What a boundary does before the next instruction: a debug halt, a machine check or an interrupt; none where the instruction
is next (R114, R188, R209). -/
def atBoundary (s : State) (h : Hart) : Option State :=
  if refreshDue s h then some (addGroup s h 3 ⟨(tget s h).pc, 0, true, none⟩)
  else if haltDue s h then some (haltAt s h)
  else if !(tget s h).mchk.isEmpty then some (takeMchk s h)
  else (deliverable s h).map fun c => takeInterrupt s h c.2

/-! ## Retirement -/

/-- What an instruction's body answers. -/
inductive Eff where
  /-- It completes: the state, the next PC, and what its retirement records. -/
  | done (s : State) (pc : Word) (info : RetInfo)
  /-- It raises an exception and has no other effect. -/
  | exc (s : State) (e : Exc)
  /-- It has not completed: it waits (a park in the thread says for what) or is to be issued again. -/
  | stay (s : State)

/-- The world and level, identifiers and guest status a sample's CTX, ASID and VMID hold (Table 18-4). -/
def sampleCtx (t : Thread) : Nat := levelCode t.level + 4 * worldCode t.world + 8 * b2n (inGuest t)

/-- A sample record's bytes (Table 18-4); latencies, cache and TLB outcomes and data sources are free values (log entry 1). -/
def sampleRecord (s : State) (h : Hart) (pc : Word) (info : RetInfo) (m : Nat) (precise : Bool) : List Byte :=
  let t := tget s h
  let f := (freeVal s).toNat
  let load := info.events.contains evLOAD
  natLe 8 (tbNow s) ++ natLe 8 pc.toNat ++ natLe 8 info.va ++ natLe 8 info.pa ++ natLe 4 info.word.toNat ++
  natLe 4 (bits f 0 32) ++ natLe 2 (if load then bits f 32 16 else 0) ++ natLe 1 ((if load then bits f 48 4 else 0) + 16 * m) ++
  natLe 1 (sampleCtx t) ++ natLe 2 (ctxAsid t) ++ natLe 2 (ctxVmid t) ++ natLe 2 (hartLocus (pkgNum s) h) ++
  natLe 2 (b2n precise + info.flags + bits f 56 2 * 16 + 512 * b2n (hartLocked s h) + 1024 * b2n t.smpDropped) ++
  natLe 4 (sget t snSMP_WR).toNat ++ natLe 8 0

/-- The size of the sample buffer in records. -/
def smpSize (t : Thread) : Nat := 2 ^ sfld t snSMP_CTL 1 5

/-- Whether a record is dropped: the buffer is full, or its address cannot be written (R569). -/
def sampleDropped (s : State) (t : Thread) (a : Nat) : Bool :=
  decide (((sget t snSMP_WR).toNat + 2 ^ 32 - (sget t snSMP_RD).toNat) % 2 ^ 32 = smpSize t) ||
  decide (paTarget s a = .nothing) || isDevice a || (decide (t.world = .normal) && inSecureRange s a)

/-- A selected instruction's record is written or dropped (R568, R569); in a locked tile it waits for its group (R570). -/
def sample (s : State) (h : Hart) (pc : Word) (info : RetInfo) : State :=
  let t := tget s h
  match t.smpSel with
  | none => s
  | some (m, precise) =>
    let s0 := tmod s h fun t => { t with smpSel := none }
    if !sbit t snSMP_CTL 0 || !dbgNonInv s t.world then s0
    else
      let wr := (sget t snSMP_WR).toNat
      let a := (sget t snSMP_BASE).toNat + 64 * (wr % smpSize t)
      if sampleDropped s t a then
        tmod s0 h fun t => { sput t snSMP_LOST (BitVec.ofNat 64 (satAdd 32 (sget t snSMP_LOST).toNat 1)) with smpDropped := true }
      else
        let d := sampleRecord s h pc info m precise
        let s1 := useFree s0
        let s2 :=
          if hartLocked s h then
            let q := s1.cpu.seqNo
            let s1 := tmod s1 h fun t => { t with stores := t.stores ++ [⟨q, a, a, d, false, true, false, false, 0⟩] }
            { s1 with cpu := { s1.cpu with seqNo := q + 1 } }
          else agentWrite s1 none a d
        tmod s2 h fun t => { sput t snSMP_WR (BitVec.ofNat 64 ((wr + 1) % 2 ^ 32)) with smpDropped := false }

/-- In Bennak mode each instruction counts toward the write that takes effect for instruction n + 3 (R392). -/
def bennakTick (t : Thread) : Thread :=
  let l := t.pend.map fun w => (w.1, w.2.1, w.2.2 - 1)
  let t1 := (l.filter fun w => w.2.2 = 0).foldl (fun t w => applyOne t w.1 w.2.1) t
  { t1 with pend := l.filter fun w => w.2.2 ≠ 0 }

/-- Whether an Outrider runs in Bennak mode (R391). -/
def bennak (s : State) (h : Hart) : Bool :=
  match h with
  | .outrider n => rbit s (hartStop h) 1 (n.val % 8 * 0x1000 + OR_CTL) 2
  | _ => false

/-- Whether an instruction that completes raises STEP (R551). -/
def stepArmed (s : State) (t : Thread) : Bool :=
  sbit t snDSTEP 0 && sbit t snDSTEP (1 + levelCode t.level) && dbgInv s t.world

/-- Whether an instruction is the second of a group of two (R375). -/
def inSlotB (t : Thread) (word : BitVec 32) : Bool := t.slotA.any fun a => wordPairs a word

/-- The word that the next instruction of an Outrider or the Waystation may form a group with: that of an instruction alone in its group so
far that may lead one (R375, R607). -/
def slotNext (h : Hart) (t0 : Thread) (word : BitVec 32) : Option (BitVec 32) :=
  match h with
  | .drover _ _ _ => none
  | _ => if wordLeads word && !inSlotB t0 word then some word else none

/-- Retirement: the PC moves, events count, a selected sample is recorded, the group waits for its comparison, and STEP is raised
where it is armed (R86, R467, R551, R563, R567). `t0` is the thread as it was when the instruction began; the second instruction of an
Outrider's group begins none (R375). -/
def retire (s : State) (h : Hart) (t0 : Thread) (pc : Word) (info : RetInfo) : State :=
  let s0 := tmod s h fun t => { (if bennak s h then bennakTick t else t) with
    pc := pc, smpSel := t.smpSel.map fun e => (e.1, false) }
  let s1 := tmod s0 h fun t => { t with slotA := slotNext h t0 info.word }
  let s2 := countEvents s1 h (evINST :: (if inSlotB t0 info.word then [] else [evGROUPS]) ++ info.events)
  let s3 := sample s2 h t0.pc info
  let s4 := pushGroup s3 h ⟨t0.pc, info.word, decide (info.flags ≠ 2), none⟩
  if stepArmed s4 t0 then takeException s4 h ⟨cSTEP, 0, 0, none⟩ pc else s4

/-! ## Running -/

/-- The retirement record of an instruction that accesses no memory. -/
def plain (word : BitVec 32) : RetInfo := ⟨word, 0, 0, [], 0⟩

/-- An instruction that completes and goes on at the next word. -/
def fin (s : State) (h : Hart) (word : BitVec 32) : Eff := .done s ((tget s h).pc + 4) (plain word)

/-- Whether an instruction reads or writes vector state, and whether it writes it (R91). -/
inductive VecUse where
  | none | reads | writes
deriving DecidableEq, Repr

/-- The state with THR_CTL.VDIRTY set after an instruction that writes v, m or VCSR (R91). -/
def vdirty (s : State) (h : Hart) (v : VecUse) : State :=
  if v = .writes then tmod s h fun t => sput t snTHR_CTL (sget t snTHR_CTL ||| 0x10) else s

/-- Whether an address of instruction fetch is refused (R39, R43): anything device-class but the boot window. -/
def fetchBad (s : State) (w : World) (pa : Nat) : Bool :=
  match seenTarget s w pa with
  | .nothing => true
  | .boot _ => false
  | _ => isDevice pa

/-- The physical address memory is read at: the boot window is an alias of depot SRAM (R42). -/
def memAddr (s : State) (pa : Nat) : Nat :=
  match paTarget s pa with
  | .boot a => a
  | _ => pa

/-- The check of a fetch by a Drover thread (order 1 of Table 3-11): ITRANS, IBUS, poison (R39, R176, R445). -/
def fetchCheck (s : State) (h : Hart) : State × Option Exc × Bool :=
  let t := tget s h
  match translate s h .fetch false t.pc.toNat with
  | (s1, .error e) => let r := tranExc s1 h .fetch t.pc.toNat 0 e; (r.1, r.2, r.2.isNone)
  | (s1, .ok tr) =>
    if fetchBad s1 t.world tr.pa then
      let s2 :=
        match violationKind s1 t.world tr.pa with
        | some k => violation s1 (hartLocus (pkgNum s) h) k 0
        | none => s1
      (s2, some ⟨cIBUS, t.pc.toNat, 0, none⟩, false)
    else if cxlGone s1 tr.pa then
      let c := consume (cxlDown s1 tr.pa) h 3 tr.pa
      (c.1, some c.2, false)
    else
      let ty := pageType (regimeOf h t) tr
      let l := lineTake s1 h ⟨false, decide (ty = 1), decide (ty = 2), 0, t.pc.toNat⟩ tr.pa
      if !l.2 then (l.1, none, true)
      else if poisoned l.1 (memAddr l.1 tr.pa) 4 then
        let c := consume l.1 h 3 (firstPoison l.1 (memAddr l.1 tr.pa) 4)
        (c.1, some c.2, false)
      else (l.1, none, false)

/-! ## Cores that do not translate (Tables 11-1, 20-1) -/

/-- Where an Outrider's tightly coupled memory and a Waystation pair's own memory and boot ROM lie in the model's memory. -/
def tcmBase (n : Nat) : Nat := 2 ^ 52 + n * 2 ^ 19
def wsMemBase (d : Nat) : Nat := 2 ^ 53 + d * 2 ^ 21

/-- The place in the model's memory that a core's private alias names (R368, R607). -/
def ownMem (h : Hart) (a : Nat) : Option Nat :=
  match h with
  | .drover _ _ _ => none
  | .outrider n => if 0x40000000000 ≤ a ∧ a < 0x40000080000 then some (tcmBase n.val + (a - 0x40000000000)) else none
  | .waystation d => if 0x40000000000 ≤ a ∧ a < 0x40000110000 then some (wsMemBase d.val + (a - 0x40000000000)) else none

/-- The REGr_ATTR value of the lowest-numbered enabled region of an Outrider that contains an address (R370). -/
def orRegion (s : State) (n : Fin 16) (a : Nat) : Option Reg32 :=
  (List.range 8).findSome? fun r =>
    let st := hartStop (.outrider n)
    let o := n.val % 8 * 0x1000 + 0x10 * r
    let at_ := rget s st 1 (o + REG_ATTR)
    let sz := 2 ^ (12 + getF at_ 1 6)
    let base := (rget s st 1 (o + REG_BASE_LO)).toNat + rfld s st 1 (o + REG_BASE_HI) 0 20 * 2 ^ 32
    if getB at_ 0 && decide (a / sz = base / sz) then some at_ else none

/-- The fault code of an Outrider's access that a region refuses (R370). -/
def orRefused (s : State) (n : Fin 16) (u : Bool) (kind : AKind) (a : Nat) : Option Nat :=
  match orRegion s n a with
  | none => if u then (match kind with | .fetch => some 8 | .write => some 7 | _ => some 6) else none
  | some r =>
    let b := if u then 7 else 10
    match kind with
    | .fetch => if getB r (b + 2) then none else some 8
    | .read => if getB r b then none else some 6
    | .write => if getB r (b + 1) then none else some 7
    | .rw => if !getB r b then some 6 else if getB r (b + 1) then none else some 7

/-- The check and decode of a physical address by a core that does not translate: the fault code, or the address (R368, R370). -/
def physAddr (s : State) (h : Hart) (kind : AKind) (a : Nat) : Except Nat Nat :=
  if 2 ^ 52 ≤ a then .error 1
  else
    match h with
    | .outrider n =>
      match orRefused s n (decide ((tget s h).level = .u)) kind a with
      | some c => .error c
      | none => .ok ((ownMem h a).getD a)
    | _ => .ok ((ownMem h a).getD a)

/-- The active Waystation pair's die (WS_STAT.ACTIVE_DIE). -/
def activeDie (s : State) : Nat := rfld s (wsStop 0) 3 WS_STAT 0 1

/-- What an address names for an access by a core: its own memory, or the package's map. The standby pair is no initiator of register
accesses before a takeover (R62): one of its own meets nothing (DESIGN CHOICE, log entry 99). -/
def coreTarget (s : State) (h : Hart) (pa : Nat) : Target :=
  if 2 ^ 52 ≤ pa then .tcm pa
  else
    match h with
    | .waystation d =>
      match seenTarget s .secure pa with
      | .regs cfg => if activeDie s = d.val then .regs cfg else .nothing
      | .pcie _ _ => .nothing
      | .remotePcie _ => .nothing
      | .boot _ => .nothing
      | t => t
    | _ => seenTarget s (tget s h).world pa

/-- Whether a core's access to normal memory keeps no copy: the Waystation's, and an Outrider's in an NC region (R370, R607). -/
def uncached (s : State) (h : Hart) (pa : Nat) : Bool :=
  match h with
  | .outrider n => (match orRegion s n pa with | some r => getB r 13 | none => false)
  | .waystation _ => true
  | _ => false

/-- Whether an Outrider's read of normal memory needs the Courier port: no resident line holds it. -/
def needsCourier (s : State) (h : Hart) (pa : Nat) : Bool :=
  match h with
  | .outrider n => decide (pa < 2 ^ 52) && (uncached s h pa || !lcHas s n pa)
  | _ => false

/-- The line of a word that a core that does not translate fetches: an Outrider's fetch that misses its line cache stalls (R373, R378,
R387). -/
def fetchLine (s : State) (h : Hart) (a : Nat) : State × Bool :=
  let c := if needsCourier s h a then courier s h 1 else (s, true)
  if c.2 then lineTake c.1 h ⟨false, false, uncached c.1 h a, 2, a⟩ a else c

/-- The check of a fetch by an Outrider or the Waystation (R368, R370, R384, R607). -/
def physFetch (s : State) (h : Hart) : State × Option Exc × Bool :=
  let pc := (tget s h).pc.toNat
  match physAddr s h .fetch pc with
  | .error c => (s, some ⟨cITRANS, pc, tfaultInfo c 0 0 0 0 2 0, none⟩, false)
  | .ok a =>
    let dead := match h with
      | .waystation _ => decide (a < 2 ^ 52) && decide (pkgState s ≠ 0)
      | _ => false
    match coreTarget s h a with
    | .nothing => (s, some ⟨cIBUS, pc, 0, none⟩, false)
    | .boot b =>
      if poisoned s b 4 then let c := consume s h 3 (firstPoison s b 4); (c.1, some c.2, false) else (s, none, false)
    | .depot _ _ => (s, some ⟨cIBUS, pc, 0, none⟩, false)
    | .remoteDepot _ => (s, some ⟨cIBUS, pc, 0, none⟩, false)
    | .regs _ => (s, some ⟨cIBUS, pc, 0, none⟩, false)
    | .pcie _ _ => (s, some ⟨cIBUS, pc, 0, none⟩, false)
    | .remotePcie _ => (s, some ⟨cIBUS, pc, 0, none⟩, false)
    | _ =>
      if dead then (s, some ⟨cIBUS, pc, 0, none⟩, false)
      else
        let c := fetchLine s h a
        if !c.2 then (c.1, none, true)
        else if poisoned c.1 a 4 then let e := consume c.1 h 3 (firstPoison c.1 a 4); (e.1, some e.2, false)
        else (c.1, none, false)

/-! ## One instruction -/

/-- Whether a hart is a Drover thread. -/
def isDrover : Hart → Bool
  | .drover _ _ _ => true
  | _ => false

/-- What the checks before an instruction's operation need of it: its word, whether the word encodes no instruction on this core
(R87, R130), the x registers it names (R163), its PRIV and HTRAP check, its use of vector state (R91), and its UNDEF check under
R98 or R107. -/
structure Ins where
  word : BitVec 32
  undef : Bool := false
  xs : List Reg := []
  pre : State → Option Exc := fun _ => none
  vec : VecUse := .none
  post : State → Option Exc := fun _ => none
  /-- Events its retirement counts when its predicate is false. -/
  fevs : List Nat := []

/-- UNDEF, PRIV, HTRAP and VDIS carry the instruction word (Table 3-8). -/
def wordExc (cause : Nat) (word : BitVec 32) : Exc := ⟨cause, word.toNat, 0, none⟩

/-- Whether an instruction names a register that waits for a waybill result (R163). -/
def busyReg (t : Thread) (xs : List Reg) : Bool :=
  t.nb.any fun o => decide (o.rd ≠ 0) && xs.contains o.rd

/-- The exception that the checks of order 4 of Table 3-11 find. -/
def orderFour (s : State) (h : Hart) (i : Ins) : Option Exc :=
  match i.pre s with
  | some e => some e
  | none =>
    if decide (i.vec ≠ .none) && !sbit (tget s h) snTHR_CTL 3 then some (wordExc cVDIS i.word)
    else i.post s

/-- An exception of the instruction at the PC, whose word is `word`, is taken; in a locked tile it ends a group (R468). -/
def raise (s : State) (h : Hart) (e : Exc) (word : BitVec 32) : State :=
  pushGroup (takeException s h e (tget s h).pc) h ⟨(tget s h).pc, word, true, some e.cause⟩

/-- What comes before an instruction: nothing where it is the second of its group (R385), else what its boundary does first. -/
def boundary (s : State) (h : Hart) (word : BitVec 32) : Option State :=
  if inSlotB (tget s h) word then none else atBoundary s h

/-- The instruction after its fetch: the checks of Table 3-11 in order, then its operation (R113). -/
def runFetched (s : State) (h : Hart) (q : BitVec 4) (i : Ins) (body : State → Eff) : State :=
  let t := tget s h
  if q = 8 || i.undef then raise s h (wordExc cUNDEF i.word) i.word
  else if !predTrue t q then retire s h t (t.pc + 4) ⟨i.word, 0, 0, evPRED_FALSE :: i.fevs, 2⟩
  else if busyReg t i.xs then stall s h 7
  else
    match orderFour s h i with
    | some e => raise s h e i.word
    | none =>
      match body s with
      | .done s1 pc info => retire (vdirty s1 h i.vec) h t pc info
      | .exc s1 e => raise s1 h e i.word
      | .stay s1 => s1

/-- One instruction of a thread: nothing where the thread does not run, what its boundary does first where that is not the
instruction, the fetch, and the rest (R113, R114). -/
def runInstr (s : State) (h : Hart) (q : BitVec 4) (i : Ins) (body : State → Eff) : Host.Outcome State Fault Refusal :=
  if !canRun s h then .next s
  else
    match boundary s h i.word with
    | some s1 => .next s1
    | none =>
      let f := if isDrover h then fetchCheck s h else physFetch s h
      match f.2.1 with
      | some e => .next (raise f.1 h e 0)
      | none => if f.2.2 then .next f.1 else .next (runFetched f.1 h q i body)

/-- An instruction that writes one x register from the thread's state. -/
def runX (s : State) (h : Hart) (q : BitVec 4) (i : Ins) (rd : Reg) (f : Thread → Word) : Host.Outcome State Fault Refusal :=
  runInstr s h q i fun s => fin (tmod s h fun t => xset t rd (f t)) h i.word

end Sys2Proof.Machine
end

