-- ==== Sys2Proof/Machine/Alu.lean ====
section
/-!
DEFINITION. Integer operations: OP, immediates, upper immediates and MULDIV (Tables 4-3 to 4-5).
-/

namespace Sys2Proof.Machine

/-- The low 32 bits of a value, sign-extended. -/
def sext32 (v : BitVec 64) : Word := (v.setWidth 32).signExtend 64

/-- Leading zeros of a value of which `n` bits are still to be looked at. -/
def clzFrom (v : Word) : Nat → Nat
  | 0 => 0
  | n + 1 => if v.getLsbD n then 0 else 1 + clzFrom v n

/-- Trailing zeros of a value from bit `64 - n` on. -/
def ctzFrom (v : Word) : Nat → Nat
  | 0 => 0
  | n + 1 => if v.getLsbD (63 - n) then 0 else 1 + ctzFrom v n

/-- The number of 1 bits among the low `n`. -/
def popcFrom (v : Word) : Nat → Nat
  | 0 => 0
  | n + 1 => b2n (v.getLsbD n) + popcFrom v n

/-- The byte order reversed. -/
def rev8 (v : Word) : Word := BitVec.ofNat 64 (leNat (natLe 8 v.toNat).reverse)

/-- Rotate right. -/
def ror64 (v : Word) (n : Nat) : Word := v >>> n ||| v <<< (64 - n)

/-- Signed quotient: all ones for a zero divisor, the most negative value for its division by -1 (R139). -/
def divS (n : Nat) (a b : BitVec n) : BitVec n := if b = 0 then BitVec.ofInt n (-1) else BitVec.ofInt n (Int.tdiv a.toInt b.toInt)

/-- Unsigned quotient (R139). -/
def divU (n : Nat) (a b : BitVec n) : BitVec n := if b = 0 then BitVec.ofInt n (-1) else BitVec.ofNat n (a.toNat / b.toNat)

/-- Signed remainder, with the sign of the dividend (R139). -/
def remS (n : Nat) (a b : BitVec n) : BitVec n := if b = 0 then a else BitVec.ofInt n (Int.tmod a.toInt b.toInt)

/-- Unsigned remainder (R139). -/
def remU (n : Nat) (a b : BitVec n) : BitVec n := if b = 0 then a else BitVec.ofNat n (a.toNat % b.toNat)

/-- ADD (R136). Integer add of two registers into a destination register. -/
def execAdd (h : Hart) (q : BitVec 4) (rd rs1 rs2 : Reg) (s : State) : Host.Outcome State Fault Refusal :=
  runX s h q { word := encR q 0x01 rd rs1 rs2 0x00, xs := [rd, rs1, rs2] } rd fun t =>
    xget t rs1 + xget t rs2

/-- SUB (R136). Integer subtract of two registers. -/
def execSub (h : Hart) (q : BitVec 4) (rd rs1 rs2 : Reg) (s : State) : Host.Outcome State Fault Refusal :=
  runX s h q { word := encR q 0x01 rd rs1 rs2 0x01, xs := [rd, rs1, rs2] } rd fun t =>
    xget t rs1 - xget t rs2

/-- AND (R136). Bitwise AND of two registers. -/
def execAnd (h : Hart) (q : BitVec 4) (rd rs1 rs2 : Reg) (s : State) : Host.Outcome State Fault Refusal :=
  runX s h q { word := encR q 0x01 rd rs1 rs2 0x02, xs := [rd, rs1, rs2] } rd fun t =>
    xget t rs1 &&& xget t rs2

/-- OR (R136). Bitwise OR of two registers. -/
def execOr (h : Hart) (q : BitVec 4) (rd rs1 rs2 : Reg) (s : State) : Host.Outcome State Fault Refusal :=
  runX s h q { word := encR q 0x01 rd rs1 rs2 0x03, xs := [rd, rs1, rs2] } rd fun t =>
    xget t rs1 ||| xget t rs2

/-- XOR (R136). Bitwise XOR of two registers. -/
def execXor (h : Hart) (q : BitVec 4) (rd rs1 rs2 : Reg) (s : State) : Host.Outcome State Fault Refusal :=
  runX s h q { word := encR q 0x01 rd rs1 rs2 0x04, xs := [rd, rs1, rs2] } rd fun t =>
    xget t rs1 ^^^ xget t rs2

/-- ANDN (R136). AND of the first register with the complement of the second. -/
def execAndn (h : Hart) (q : BitVec 4) (rd rs1 rs2 : Reg) (s : State) : Host.Outcome State Fault Refusal :=
  runX s h q { word := encR q 0x01 rd rs1 rs2 0x05, xs := [rd, rs1, rs2] } rd fun t =>
    xget t rs1 &&& ~~~(xget t rs2)

/-- SLL (R136). Logical left shift by a register amount. -/
def execSll (h : Hart) (q : BitVec 4) (rd rs1 rs2 : Reg) (s : State) : Host.Outcome State Fault Refusal :=
  runX s h q { word := encR q 0x01 rd rs1 rs2 0x06, xs := [rd, rs1, rs2] } rd fun t =>
    xget t rs1 <<< ((xget t rs2).toNat % 64)

/-- SRL (R136). Logical right shift by a register amount. -/
def execSrl (h : Hart) (q : BitVec 4) (rd rs1 rs2 : Reg) (s : State) : Host.Outcome State Fault Refusal :=
  runX s h q { word := encR q 0x01 rd rs1 rs2 0x07, xs := [rd, rs1, rs2] } rd fun t =>
    xget t rs1 >>> ((xget t rs2).toNat % 64)

/-- SRA (R136). Arithmetic right shift by a register amount. -/
def execSra (h : Hart) (q : BitVec 4) (rd rs1 rs2 : Reg) (s : State) : Host.Outcome State Fault Refusal :=
  runX s h q { word := encR q 0x01 rd rs1 rs2 0x08, xs := [rd, rs1, rs2] } rd fun t =>
    (xget t rs1).sshiftRight ((xget t rs2).toNat % 64)

/-- ROR (R136). Rotate right by a register amount. -/
def execRor (h : Hart) (q : BitVec 4) (rd rs1 rs2 : Reg) (s : State) : Host.Outcome State Fault Refusal :=
  runX s h q { word := encR q 0x01 rd rs1 rs2 0x09, xs := [rd, rs1, rs2] } rd fun t =>
    ror64 (xget t rs1) ((xget t rs2).toNat % 64)

/-- SLT (R136). Set destination to 1 when the first register is less, signed. -/
def execSlt (h : Hart) (q : BitVec 4) (rd rs1 rs2 : Reg) (s : State) : Host.Outcome State Fault Refusal :=
  runX s h q { word := encR q 0x01 rd rs1 rs2 0x0A, xs := [rd, rs1, rs2] } rd fun t =>
    if (xget t rs1).slt (xget t rs2) then 1 else 0

/-- SLTU (R136). Set destination to 1 when the first register is less, unsigned. -/
def execSltu (h : Hart) (q : BitVec 4) (rd rs1 rs2 : Reg) (s : State) : Host.Outcome State Fault Refusal :=
  runX s h q { word := encR q 0x01 rd rs1 rs2 0x0B, xs := [rd, rs1, rs2] } rd fun t =>
    if (xget t rs1).ult (xget t rs2) then 1 else 0

/-- MIN (R136). Signed minimum of two registers. -/
def execMin (h : Hart) (q : BitVec 4) (rd rs1 rs2 : Reg) (s : State) : Host.Outcome State Fault Refusal :=
  runX s h q { word := encR q 0x01 rd rs1 rs2 0x0C, xs := [rd, rs1, rs2] } rd fun t =>
    if (xget t rs1).slt (xget t rs2) then xget t rs1 else xget t rs2

/-- MAX (R136). Signed maximum of two registers. -/
def execMax (h : Hart) (q : BitVec 4) (rd rs1 rs2 : Reg) (s : State) : Host.Outcome State Fault Refusal :=
  runX s h q { word := encR q 0x01 rd rs1 rs2 0x0D, xs := [rd, rs1, rs2] } rd fun t =>
    if (xget t rs1).slt (xget t rs2) then xget t rs2 else xget t rs1

/-- MINU (R136). Unsigned minimum of two registers. -/
def execMinu (h : Hart) (q : BitVec 4) (rd rs1 rs2 : Reg) (s : State) : Host.Outcome State Fault Refusal :=
  runX s h q { word := encR q 0x01 rd rs1 rs2 0x0E, xs := [rd, rs1, rs2] } rd fun t =>
    if (xget t rs1).ult (xget t rs2) then xget t rs1 else xget t rs2

/-- MAXU (R136). Unsigned maximum of two registers. -/
def execMaxu (h : Hart) (q : BitVec 4) (rd rs1 rs2 : Reg) (s : State) : Host.Outcome State Fault Refusal :=
  runX s h q { word := encR q 0x01 rd rs1 rs2 0x0F, xs := [rd, rs1, rs2] } rd fun t =>
    if (xget t rs1).ult (xget t rs2) then xget t rs2 else xget t rs1

/-- ADDW (R136). 32-bit add with sign extension of the result. -/
def execAddw (h : Hart) (q : BitVec 4) (rd rs1 rs2 : Reg) (s : State) : Host.Outcome State Fault Refusal :=
  runX s h q { word := encR q 0x01 rd rs1 rs2 0x10, xs := [rd, rs1, rs2] } rd fun t =>
    sext32 (xget t rs1 + xget t rs2)

/-- SUBW (R136). 32-bit subtract with sign extension of the result. -/
def execSubw (h : Hart) (q : BitVec 4) (rd rs1 rs2 : Reg) (s : State) : Host.Outcome State Fault Refusal :=
  runX s h q { word := encR q 0x01 rd rs1 rs2 0x11, xs := [rd, rs1, rs2] } rd fun t =>
    sext32 (xget t rs1 - xget t rs2)

/-- SLLW (R136). 32-bit logical left shift, result sign-extended. -/
def execSllw (h : Hart) (q : BitVec 4) (rd rs1 rs2 : Reg) (s : State) : Host.Outcome State Fault Refusal :=
  runX s h q { word := encR q 0x01 rd rs1 rs2 0x12, xs := [rd, rs1, rs2] } rd fun t =>
    ((xget t rs1).setWidth 32 <<< ((xget t rs2).toNat % 32)).signExtend 64

/-- SRLW (R136). 32-bit logical right shift, result sign-extended. -/
def execSrlw (h : Hart) (q : BitVec 4) (rd rs1 rs2 : Reg) (s : State) : Host.Outcome State Fault Refusal :=
  runX s h q { word := encR q 0x01 rd rs1 rs2 0x13, xs := [rd, rs1, rs2] } rd fun t =>
    ((xget t rs1).setWidth 32 >>> ((xget t rs2).toNat % 32)).signExtend 64

/-- SRAW (R136). 32-bit arithmetic right shift, result sign-extended. -/
def execSraw (h : Hart) (q : BitVec 4) (rd rs1 rs2 : Reg) (s : State) : Host.Outcome State Fault Refusal :=
  runX s h q { word := encR q 0x01 rd rs1 rs2 0x14, xs := [rd, rs1, rs2] } rd fun t =>
    (((xget t rs1).setWidth 32).sshiftRight ((xget t rs2).toNat % 32)).signExtend 64

/-- CLZ (R136). Count leading zeros of a register. -/
def execClz (h : Hart) (q : BitVec 4) (rd rs1 : Reg) (s : State) : Host.Outcome State Fault Refusal :=
  runX s h q { word := encR q 0x01 rd rs1 0 0x18, xs := [rd, rs1] } rd fun t => BitVec.ofNat 64 (clzFrom (xget t rs1) 64)

/-- CTZ (R136). Count trailing zeros of a register. -/
def execCtz (h : Hart) (q : BitVec 4) (rd rs1 : Reg) (s : State) : Host.Outcome State Fault Refusal :=
  runX s h q { word := encR q 0x01 rd rs1 0 0x19, xs := [rd, rs1] } rd fun t => BitVec.ofNat 64 (ctzFrom (xget t rs1) 64)

/-- POPC (R136). Count the 1 bits of a register. -/
def execPopc (h : Hart) (q : BitVec 4) (rd rs1 : Reg) (s : State) : Host.Outcome State Fault Refusal :=
  runX s h q { word := encR q 0x01 rd rs1 0 0x1A, xs := [rd, rs1] } rd fun t => BitVec.ofNat 64 (popcFrom (xget t rs1) 64)

/-- REV8 (R136). Reverse the byte order of a register. -/
def execRev8 (h : Hart) (q : BitVec 4) (rd rs1 : Reg) (s : State) : Host.Outcome State Fault Refusal :=
  runX s h q { word := encR q 0x01 rd rs1 0 0x1B, xs := [rd, rs1] } rd fun t => rev8 (xget t rs1)

/-- ADDI (R134). Add a sign-extended 12-bit immediate. -/
def execAddi (h : Hart) (q : BitVec 4) (rd rs1 : Reg) (imm : BitVec 12) (s : State) : Host.Outcome State Fault Refusal :=
  runX s h q { word := encI q 0x02 rd rs1 imm, xs := [rd, rs1] } rd fun t => xget t rs1 + imm.signExtend 64

/-- ANDI (R134). AND with a sign-extended immediate. -/
def execAndi (h : Hart) (q : BitVec 4) (rd rs1 : Reg) (imm : BitVec 12) (s : State) : Host.Outcome State Fault Refusal :=
  runX s h q { word := encI q 0x03 rd rs1 imm, xs := [rd, rs1] } rd fun t => xget t rs1 &&& imm.signExtend 64

/-- ORI (R134). OR with a sign-extended immediate. -/
def execOri (h : Hart) (q : BitVec 4) (rd rs1 : Reg) (imm : BitVec 12) (s : State) : Host.Outcome State Fault Refusal :=
  runX s h q { word := encI q 0x04 rd rs1 imm, xs := [rd, rs1] } rd fun t => xget t rs1 ||| imm.signExtend 64

/-- XORI (R134). XOR with a sign-extended immediate. -/
def execXori (h : Hart) (q : BitVec 4) (rd rs1 : Reg) (imm : BitVec 12) (s : State) : Host.Outcome State Fault Refusal :=
  runX s h q { word := encI q 0x05 rd rs1 imm, xs := [rd, rs1] } rd fun t => xget t rs1 ^^^ imm.signExtend 64

/-- The IMM12 of a shift by an immediate (Table 4-4): KIND, W and SHAMT. -/
def shiImm (kind : BitVec 2) (w : Bool) (shamt : BitVec 6) : BitVec 12 :=
  kind.setWidth 12 <<< 10 ||| (if w then 0x200 else 0) ||| shamt.setWidth 12

/-- SLLI (R138). Logical left shift by an immediate amount. -/
def execSlli (h : Hart) (q : BitVec 4) (rd rs1 : Reg) (shamt : BitVec 6) (s : State) : Host.Outcome State Fault Refusal :=
  runX s h q { word := encI q 0x06 rd rs1 (shiImm 0 false shamt), xs := [rd, rs1] } rd fun t =>
    xget t rs1 <<< shamt.toNat

/-- SRLI (R138). Logical right shift by an immediate amount. -/
def execSrli (h : Hart) (q : BitVec 4) (rd rs1 : Reg) (shamt : BitVec 6) (s : State) : Host.Outcome State Fault Refusal :=
  runX s h q { word := encI q 0x06 rd rs1 (shiImm 1 false shamt), xs := [rd, rs1] } rd fun t =>
    xget t rs1 >>> shamt.toNat

/-- SRAI (R138). Arithmetic right shift by an immediate amount. -/
def execSrai (h : Hart) (q : BitVec 4) (rd rs1 : Reg) (shamt : BitVec 6) (s : State) : Host.Outcome State Fault Refusal :=
  runX s h q { word := encI q 0x06 rd rs1 (shiImm 2 false shamt), xs := [rd, rs1] } rd fun t =>
    (xget t rs1).sshiftRight shamt.toNat

/-- RORI (R138). Rotate right by an immediate amount. -/
def execRori (h : Hart) (q : BitVec 4) (rd rs1 : Reg) (shamt : BitVec 6) (s : State) : Host.Outcome State Fault Refusal :=
  runX s h q { word := encI q 0x06 rd rs1 (shiImm 3 false shamt), xs := [rd, rs1] } rd fun t =>
    ror64 (xget t rs1) shamt.toNat

/-- SLLIW (R138). 32-bit immediate left shift with sign extension. A shift amount with bit 5 set encodes no instruction. -/
def execSlliw (h : Hart) (q : BitVec 4) (rd rs1 : Reg) (shamt : BitVec 6) (s : State) : Host.Outcome State Fault Refusal :=
  runX s h q { word := encI q 0x06 rd rs1 (shiImm 0 true shamt), undef := shamt.getLsbD 5, xs := [rd, rs1] } rd fun t =>
    ((xget t rs1).setWidth 32 <<< shamt.toNat).signExtend 64

/-- SRLIW (R138). 32-bit immediate logical right shift with sign extension. A shift amount with bit 5 set encodes no instruction. -/
def execSrliw (h : Hart) (q : BitVec 4) (rd rs1 : Reg) (shamt : BitVec 6) (s : State) : Host.Outcome State Fault Refusal :=
  runX s h q { word := encI q 0x06 rd rs1 (shiImm 1 true shamt), undef := shamt.getLsbD 5, xs := [rd, rs1] } rd fun t =>
    ((xget t rs1).setWidth 32 >>> shamt.toNat).signExtend 64

/-- SRAIW (R138). 32-bit immediate arithmetic right shift with sign extension. A shift amount with bit 5 set encodes no instruction. -/
def execSraiw (h : Hart) (q : BitVec 4) (rd rs1 : Reg) (shamt : BitVec 6) (s : State) : Host.Outcome State Fault Refusal :=
  runX s h q { word := encI q 0x06 rd rs1 (shiImm 2 true shamt), undef := shamt.getLsbD 5, xs := [rd, rs1] } rd fun t =>
    (((xget t rs1).setWidth 32).sshiftRight shamt.toNat).signExtend 64

/-- RORIW (R138). 32-bit immediate rotate with sign extension. A shift amount with bit 5 set encodes no instruction. -/
def execRoriw (h : Hart) (q : BitVec 4) (rd rs1 : Reg) (shamt : BitVec 6) (s : State) : Host.Outcome State Fault Refusal :=
  runX s h q { word := encI q 0x06 rd rs1 (shiImm 3 true shamt), undef := shamt.getLsbD 5, xs := [rd, rs1] } rd fun t =>
    ((xget t rs1).setWidth 32 >>> shamt.toNat ||| (xget t rs1).setWidth 32 <<< (32 - shamt.toNat)).signExtend 64

/-- LUI (R134). Load a sign-extended 17-bit immediate shifted left by 12. -/
def execLui (h : Hart) (q : BitVec 4) (rd : Reg) (imm : BitVec 17) (s : State) : Host.Outcome State Fault Refusal :=
  runX s h q { word := encU q 0x08 rd imm, xs := [rd] } rd fun _ => imm.signExtend 64 <<< 12

/-- AUIPC (R134). Add a shifted immediate to PC into a register. -/
def execAuipc (h : Hart) (q : BitVec 4) (rd : Reg) (imm : BitVec 17) (s : State) : Host.Outcome State Fault Refusal :=
  runX s h q { word := encU q 0x09 rd imm, xs := [rd] } rd fun t => t.pc + imm.signExtend 64 <<< 12

/-- MUL (R139). Low 64 bits of a product. -/
def execMul (h : Hart) (q : BitVec 4) (rd rs1 rs2 : Reg) (s : State) : Host.Outcome State Fault Refusal :=
  runX s h q { word := encR q 0x0A rd rs1 rs2 0x00, xs := [rd, rs1, rs2] } rd fun t =>
    xget t rs1 * xget t rs2

/-- MULH (R139). High 64 bits of a signed product. -/
def execMulh (h : Hart) (q : BitVec 4) (rd rs1 rs2 : Reg) (s : State) : Host.Outcome State Fault Refusal :=
  runX s h q { word := encR q 0x0A rd rs1 rs2 0x01, xs := [rd, rs1, rs2] } rd fun t =>
    BitVec.ofInt 64 ((xget t rs1).toInt * (xget t rs2).toInt / 2 ^ 64)

/-- MULHU (R139). High 64 bits of an unsigned product. -/
def execMulhu (h : Hart) (q : BitVec 4) (rd rs1 rs2 : Reg) (s : State) : Host.Outcome State Fault Refusal :=
  runX s h q { word := encR q 0x0A rd rs1 rs2 0x02, xs := [rd, rs1, rs2] } rd fun t =>
    BitVec.ofNat 64 ((xget t rs1).toNat * (xget t rs2).toNat / 2 ^ 64)

/-- MULW (R139). Sign-extended low 32 bits of a product. -/
def execMulw (h : Hart) (q : BitVec 4) (rd rs1 rs2 : Reg) (s : State) : Host.Outcome State Fault Refusal :=
  runX s h q { word := encR q 0x0A rd rs1 rs2 0x03, xs := [rd, rs1, rs2] } rd fun t =>
    sext32 (xget t rs1 * xget t rs2)

/-- DIV (R139). Signed quotient, never trapping. -/
def execDiv (h : Hart) (q : BitVec 4) (rd rs1 rs2 : Reg) (s : State) : Host.Outcome State Fault Refusal :=
  runX s h q { word := encR q 0x0A rd rs1 rs2 0x08, xs := [rd, rs1, rs2] } rd fun t =>
    divS 64 (xget t rs1) (xget t rs2)

/-- DIVU (R139). Unsigned quotient, never trapping. -/
def execDivu (h : Hart) (q : BitVec 4) (rd rs1 rs2 : Reg) (s : State) : Host.Outcome State Fault Refusal :=
  runX s h q { word := encR q 0x0A rd rs1 rs2 0x09, xs := [rd, rs1, rs2] } rd fun t =>
    divU 64 (xget t rs1) (xget t rs2)

/-- REM (R139). Signed remainder with the sign of the dividend. -/
def execRem (h : Hart) (q : BitVec 4) (rd rs1 rs2 : Reg) (s : State) : Host.Outcome State Fault Refusal :=
  runX s h q { word := encR q 0x0A rd rs1 rs2 0x0A, xs := [rd, rs1, rs2] } rd fun t =>
    remS 64 (xget t rs1) (xget t rs2)

/-- REMU (R139). Unsigned remainder. -/
def execRemu (h : Hart) (q : BitVec 4) (rd rs1 rs2 : Reg) (s : State) : Host.Outcome State Fault Refusal :=
  runX s h q { word := encR q 0x0A rd rs1 rs2 0x0B, xs := [rd, rs1, rs2] } rd fun t =>
    remU 64 (xget t rs1) (xget t rs2)

/-- DIVW (R139). Signed 32-bit quotient, sign-extended. -/
def execDivw (h : Hart) (q : BitVec 4) (rd rs1 rs2 : Reg) (s : State) : Host.Outcome State Fault Refusal :=
  runX s h q { word := encR q 0x0A rd rs1 rs2 0x0C, xs := [rd, rs1, rs2] } rd fun t =>
    (divS 32 ((xget t rs1).setWidth 32) ((xget t rs2).setWidth 32)).signExtend 64

/-- DIVUW (R139). Unsigned 32-bit quotient, sign-extended. -/
def execDivuw (h : Hart) (q : BitVec 4) (rd rs1 rs2 : Reg) (s : State) : Host.Outcome State Fault Refusal :=
  runX s h q { word := encR q 0x0A rd rs1 rs2 0x0D, xs := [rd, rs1, rs2] } rd fun t =>
    (divU 32 ((xget t rs1).setWidth 32) ((xget t rs2).setWidth 32)).signExtend 64

end Sys2Proof.Machine
end

