-- ==== Sys2Proof/Machine/Branch.lean ====
section
/-!
DEFINITION. Branches and calls with the return stack's hints (Tables 4-6, 4-7), and predicate instructions (Tables 4-8, 4-9).
-/

namespace Sys2Proof.Machine

/-! ## The return stack -/

/-- The current seal of a Drover thread (Table 5-10). -/
def sealOf (s : State) (h : Hart) : Option Seal :=
  match hartCore h with
  | some k =>
    let t := tget s h
    some ⟨t.world, t.level, ctxAsid t, ctxVmid t, (cget s k).key⟩
  | none => none

/-- A push: the pointer advances modulo 32 and the new top takes the address (R191). -/
def rsPush (s : State) (h : Hart) (a : Word) : State :=
  match sealOf s h with
  | none => s
  | some k =>
    tmod s h fun t =>
      let i := t.rtop + 1
      { t with rtop := i, rstack := t.rstack.set i.toNat (a, some k) (by have := i.isLt; omega) }

/-- A pop: the pointer falls modulo 32 (R191). -/
def rsPop (s : State) (h : Hart) : State := tmod s h fun t => { t with rtop := t.rtop - 1 }

/-- The address a pop predicts (R191): none where the entry was made under another seal (R196). -/
def rsTop (s : State) (h : Hart) : Option Word :=
  let t := tget s h
  let e := t.rstack[t.rtop.toNat]'(by have := t.rtop.isLt; omega)
  if e.2.isSome && decide (e.2 = sealOf s h) then some e.1 else none

/-- Whether a register is a link register (Table 4-7). -/
def isLink (r : Reg) : Bool := decide (r = 1) || decide (r = 5)

/-- What a JALR does to the return stack (Table 4-7), unless THR_CTL.IPRED_OFF is 1 (R141). -/
def rsHint (s : State) (h : Hart) (rd rs1 : Reg) (ret : Word) : State :=
  if !isDrover h || sbit (tget s h) snTHR_CTL 0 then s
  else if isLink rd && !isLink rs1 then rsPush s h ret
  else if decide (rd = 0) && isLink rs1 then rsPop s h
  else if isLink rd && isLink rs1 then rsPush (rsPop s h) h ret
  else s

/-! ## Branches -/

/-- The retirement record of a taken branch. -/
def taken (word : BitVec 32) : RetInfo := ⟨word, 0, 0, [evBR, evBR_TAKEN], 4⟩

/-- J (R175). Jump to a PC-relative target. -/
def execJ (h : Hart) (q : BitVec 4) (imm : BitVec 22) (s : State) : Host.Outcome State Fault Refusal :=
  let w := encJ q 0x10 imm
  runInstr s h q { word := w, fevs := [evBR] } fun s =>
    .done s ((tget s h).pc + imm.signExtend 64 <<< 2) (taken w)

/-- JL (R141). Jump and link in x1; the return stack takes PC + 4. -/
def execJl (h : Hart) (q : BitVec 4) (imm : BitVec 22) (s : State) : Host.Outcome State Fault Refusal :=
  let w := encJ q 0x11 imm
  runInstr s h q { word := w, xs := [1], fevs := [evBR] } fun s =>
    let pc := (tget s h).pc
    .done (tmod (rsPush s h (pc + 4)) h fun t => xset t 1 (pc + 4)) (pc + imm.signExtend 64 <<< 2) (taken w)

/-- JALR (R140). Jump to a register target and link; a misaligned target raises IALIGN and nothing is written. -/
def execJalr (h : Hart) (q : BitVec 4) (rd rs1 : Reg) (imm : BitVec 12) (s : State) : Host.Outcome State Fault Refusal :=
  let w := encI q 0x12 rd rs1 imm
  runInstr s h q { word := w, xs := [rd, rs1], fevs := [evBR] } fun s =>
    let t := tget s h
    let tgt := xget t rs1 + imm.signExtend 64
    if tgt &&& 3 ≠ 0 then .exc s ⟨cIALIGN, tgt.toNat, 0, none⟩
    else .done (tmod (rsHint s h rd rs1 (t.pc + 4)) h fun t => xset t rd (t.pc + 4)) tgt (taken w)

/-! ## Predicates -/

/-- The comparison a COND code names (Table 4-8). -/
def condHolds (cond : BitVec 3) (a b : Word) : Bool :=
  match cond.toNat with
  | 0 => a == b
  | 1 => a != b
  | 2 => a.slt b
  | 3 => !a.slt b
  | 4 => a.ult b
  | 5 => !a.ult b
  | 6 => a &&& b != 0
  | _ => a &&& b == 0

/-- CMP (R142). Compare two registers into two predicates; PT = PF other than p0 encodes no instruction. -/
def execCmp (h : Hart) (q : BitVec 4) (pt pf : PReg) (rs1 rs2 : Reg) (cond : BitVec 3) (s : State) :
    Host.Outcome State Fault Refusal :=
  let w := encTop q 0x14 ||| pt.setWidth 32 <<< 19 ||| pf.setWidth 32 <<< 16 ||| rs1.setWidth 32 <<< 11 |||
    rs2.setWidth 32 <<< 6 ||| cond.setWidth 32
  runInstr s h q { word := w, undef := decide (pt = pf ∧ pt ≠ 0), xs := [rs1, rs2] } fun s =>
    let r := condHolds cond (xget (tget s h) rs1) (xget (tget s h) rs2)
    fin (tmod s h fun t => pset (pset t pt r) pf (!r)) h w

/-- CMPI (R142). Compare a register with a sign-extended immediate. -/
def execCmpi (h : Hart) (q : BitVec 4) (pt pf : PReg) (rs1 : Reg) (imm : BitVec 8) (cond : BitVec 3) (s : State) :
    Host.Outcome State Fault Refusal :=
  let w := encTop q 0x15 ||| pt.setWidth 32 <<< 19 ||| pf.setWidth 32 <<< 16 ||| rs1.setWidth 32 <<< 11 |||
    imm.setWidth 32 <<< 3 ||| cond.setWidth 32
  runInstr s h q { word := w, undef := decide (pt = pf ∧ pt ≠ 0), xs := [rs1] } fun s =>
    let r := condHolds cond (xget (tget s h) rs1) (imm.signExtend 64)
    fin (tmod s h fun t => pset (pset t pt r) pf (!r)) h w

/-- The operation a PLOG names (Table 4-9). -/
def plogOp (op : BitVec 2) (a b : Bool) : Bool :=
  match op.toNat with
  | 0 => a && b
  | 1 => a || b
  | 2 => xor a b
  | _ => a

/-- PLOG (R143). Logic of two predicates; with OP = 3, PB and NB must be 0 (R136). -/
def execPlog (h : Hart) (q : BitVec 4) (pd pa pb : PReg) (na nb : Bool) (op : BitVec 2) (s : State) :
    Host.Outcome State Fault Refusal :=
  let w := encTop q 0x16 ||| pd.setWidth 32 <<< 19 ||| pa.setWidth 32 <<< 16 ||| pb.setWidth 32 <<< 13 |||
    (if na then 0x1000 else 0) ||| (if nb then 0x800 else 0) ||| op.setWidth 32
  runInstr s h q { word := w, undef := decide (op = 3) && (decide (pb ≠ 0) || nb) } fun s =>
    let t := tget s h
    fin (tmod s h fun t' => pset t' pd (plogOp op (xor (pget t pa) na) (xor (pget t pb) nb))) h w

/-- The predicates as bits (Table 4-9). -/
def predBits (t : Thread) : Nat :=
  b2n (pget t 0) + 2 * b2n (pget t 1) + 4 * b2n (pget t 2) + 8 * b2n (pget t 3) + 16 * b2n (pget t 4) + 32 * b2n (pget t 5) +
  64 * b2n (pget t 6) + 128 * b2n (pget t 7)

/-- PRD (R143). Read the predicates into a register. -/
def execPrd (h : Hart) (q : BitVec 4) (rd : Reg) (s : State) : Host.Outcome State Fault Refusal :=
  runX s h q { word := encR q 0x2F rd 0 0 0x10, xs := [rd] } rd fun t => BitVec.ofNat 64 (predBits t)

/-- PWR (R143). Write p1 to p7 from a register's bits. -/
def execPwr (h : Hart) (q : BitVec 4) (rs1 : Reg) (s : State) : Host.Outcome State Fault Refusal :=
  let w := encR q 0x2F 0 rs1 0 0x11
  runInstr s h q { word := w, xs := [rs1] } fun s =>
    let v := xget (tget s h) rs1
    fin (tmod s h fun t =>
      pset (pset (pset (pset (pset (pset (pset t 1 (v.getLsbD 1)) 2 (v.getLsbD 2)) 3 (v.getLsbD 3)) 4 (v.getLsbD 4))
        5 (v.getLsbD 5)) 6 (v.getLsbD 6)) 7 (v.getLsbD 7)) h w

end Sys2Proof.Machine
end

