-- ==== Sys2Proof/Machine/Predict.lean ====
section
/-!
DEFINITION. Prediction of branches and loads, and what instructions that are discarded and prefetches leave behind (R175 to R177, R183, R184,
R192 to R196, R202, R203).
-/

namespace Sys2Proof.Machine

/-! ## Predictor entries -/

/-- Entries of a predictor (Table 5-1): direction, target, dependence. -/
def predCap (kind : Nat) : Nat := if kind = 0 then 32768 else if kind = 1 then 8192 else 2048

/-- The newest `n` entries of a predictor, and those of the others. -/
def takeKind (kind n : Nat) : List PredEnt → List PredEnt
  | [] => []
  | p :: l =>
    if p.kind ≠ kind then p :: takeKind kind n l
    else match n with
      | 0 => takeKind kind 0 l
      | m + 1 => p :: takeKind kind m l

/-- The prediction of a branch or load of a thread's current context is made or replaced (R177); the oldest entry of a full predictor leaves
it (log entry 92). -/
def train (s : State) (h : Hart) (kind : Nat) (pc val : Word) : State :=
  match hartCore h, sealOf s h with
  | some k, some e =>
    let c := cget s k
    let old := c.preds.filter fun p => !(decide (p.kind = kind) && decide (p.tag = e) && decide (p.pc = pc))
    cput s k { c with preds := takeKind kind (predCap kind) (⟨kind, e, pc, val⟩ :: old) }
  | _, _ => s

/-- What a predictor holds for an instruction of a thread's current context (R196). -/
def predLookup (s : State) (h : Hart) (kind : Nat) (pc : Word) : Option Word :=
  match hartCore h, sealOf s h with
  | some k, some e => ((cget s k).preds.find? fun p => decide (p.kind = kind ∧ p.tag = e ∧ p.pc = pc)).map (·.val)
  | _, _ => none

/-! ## Branches (Table 5-4) -/

/-- THR_CTL.IPRED_OFF and PRED_CTL.DIR_STATIC. -/
def ipredOff (s : State) (h : Hart) : Bool := sbit (tget s h) snTHR_CTL 0
def dirStatic (s : State) (h : Hart) : Bool := sbit (tget s h) snPRED_CTL 1

/-- Whether a branch has a pop hint (Table 4-7). -/
def isReturn (b : BrKind) : Bool :=
  match b with
  | .direct _ => false
  | .indirect rd rs1 => isLink rs1 && (decide (rd = 0) || isLink rd)

/-- Whether the target buffer predicts another target than a branch takes. -/
def targetMissed (s : State) (h : Hart) (pc : Word) (tkn : Bool) (target : Word) : Bool :=
  (predLookup s h 1 pc).any fun t => !tkn || decide (t ≠ target)

/-- Whether a branch was mispredicted (Table 5-4, R193): in its direction, or in its target. Where nothing predicts a target, fetch waits. -/
def mispredicted (s : State) (h : Hart) (pc : Word) (b : BrKind) (dir tkn : Bool) (target : Word) : Bool :=
  match b with
  | .direct cond =>
    let guess := if !cond then true else if dirStatic s h then false else dir
    guess != tkn || (tkn && targetMissed s h pc tkn target)
  | .indirect _ _ =>
    if ipredOff s h then false
    else if isReturn b then !tkn || decide (rsTop s h ≠ some target)
    else targetMissed s h pc tkn target

/-- What the resolution of a branch trains (R177): its direction where it has one to predict, its target where it is taken. -/
def trainBranch (s : State) (h : Hart) (pc : Word) (b : BrKind) (tkn : Bool) (target : Word) : State :=
  let s1 := match b with
    | .direct true => if dirStatic s h then s else train s h 0 pc (BitVec.ofNat 64 (b2n tkn))
    | _ => s
  let off := match b with
    | .indirect _ _ => ipredOff s h
    | _ => false
  if tkn && !off then train s1 h 1 pc target else s1

/-! ## Loads (R183, R184) -/

/-- A bit of CORE_CTL of a thread's core. -/
def coreCtl (s : State) (h : Hart) (k : Nat) : Bool :=
  match h with
  | .drover st c _ => rbit s st (1 + c.val) CORE_CTL k
  | _ => false

/-- Whether a load waits for the addresses of all older stores: MDP_OFF or MDP_EN = 0 says so, or the dependence predictor marks it. -/
def loadWaits (s : State) (h : Hart) (pc : Word) : Bool :=
  sbit (tget s h) snPRED_CTL 0 || !coreCtl s h 3 || (predLookup s h 2 pc).isSome

/-! ## Prefetches -/

/-- Whether a thread's core holds a line that it may write. -/
def ownsLine (s : State) (h : Hart) (pa : Nat) : Bool := (l2Find s (hartCache s h) (pa / 64)).any fun e => decide (e.2 = l2E ∨ e.2 = l2M)

/-- A prefetch (R153): it may set A and ask for the line; where its address does not translate, maps to nothing, is device-class or lies in
a page that keeps no copy it does nothing, as on an Outrider and the Waystation. -/
def prefetch (s : State) (h : Hart) (va : Nat) (own nt : Bool) (side : Nat) : State :=
  if !isDrover h then s
  else
    match translate s h .read false va with
    | (s1, .ok t) =>
      let ty := pageType (regimeOf h (tget s1 h)) t
      if isDevice t.pa || decide (seenTarget s1 (tget s1 h).world t.pa = .nothing) || decide (ty = 2) then s1
      else (lineTake s1 h ⟨own && !ownsLine s1 h t.pa, nt || decide (ty = 1), false, side, va⟩ t.pa).1
    | (_, .error _) => s

/-- A prefetch by a core's L1 data or L2 stream prefetcher for an access at `trig` (R203): within its 4 KiB, where the prefetcher is enabled and
no table walk is needed; which lines it chooses the spec leaves open (log entry 102). -/
def hwPrefetch (s : State) (h : Hart) (l2 : Bool) (trig va : Nat) : State :=
  let on := if l2 then coreCtl s h 2 && !sbit (tget s h) snPRED_CTL 3 else coreCtl s h 1 && !sbit (tget s h) snPRED_CTL 2
  let r := regimeOf h (tget s h)
  if !on || decide (va / 4096 ≠ trig / 4096) || hartLocked s h then s
  else
    match (tlbOf s h).find? fun e => tlbHit r va e && tlbPermits r .read false e with
    | none => s
    | some e =>
      let pa := e.out + va % 2 ^ e.logSize
      let ty := pageType r ⟨pa, e.logSize, e.s1, e.s2, []⟩
      if isDevice pa || decide (seenTarget s (tget s h).world pa = .nothing) || decide (ty = 2) then s
      else (lineTake s h ⟨false, decide (ty = 1), false, if l2 then 2 else 1, va⟩ pa).1

/-! ## Instructions that are discarded (Table 5-14) -/

/-- The access of an instruction that is discarded: it may fill caches and TLBs and set A, and reaches no device-class address (R176,
R202); the pair's own request compare keeps one of a locked tile from leaving it. -/
def touch (s : State) (h : Hart) (va : Nat) (fetch : Bool) : State :=
  if hartLocked s h then s
  else
    match translate s h (if fetch then .fetch else .read) false va with
    | (s1, .ok t) =>
      let ty := pageType (regimeOf h (tget s1 h)) t
      if isDevice t.pa || decide (seenTarget s1 (tget s1 h).world t.pa = .nothing) || decide (ty = 2) then s1
      else (lineTake s1 h ⟨false, decide (ty = 1), false, if fetch then 0 else 1, va⟩ t.pa).1
    | (_, .error _) => s

/-- A trace that stays (R192, R202): pops come from JALR alone, which changes nothing while IPRED_OFF is 1 (R141). -/
def leaveTrace (h : Hart) (s : State) (e : Trace) : State :=
  match e with
  | .push a => rsPush s h a
  | .pop => if ipredOff s h then s else rsPop s h
  | .touch va fetch => touch s h va.toNat fetch
  | .learn kind pc val => if decide (kind = 0) && dirStatic s h then s else train s h kind.val pc val
  | .prefetch l2 trig va => hwPrefetch s h l2 trig.toNat va.toNat

end Sys2Proof.Machine
end

