-- ==== Sys2Proof/Machine/SysRegs.lean ====
section
/-!
DEFINITION. State registers: which numbers each core has, what a read returns, what a write leaves (Tables 3-6, 7-3, 17-7, 18-3).
-/

namespace Sys2Proof.Machine

/-- The class of a state number: the lowest level that may access it (R97). -/
def sysClass (n : Nat) : Nat := n / 0x400 % 4

/-- Whether a state number's class is not accessible from a level (R94, R98). -/
def sysPriv (l : Level) (n : Nat) : Bool :=
  match l with
  | .u => decide (1 ≤ sysClass n)
  | .s => decide (2 ≤ sysClass n)
  | .h => decide (3 ≤ sysClass n)
  | .m => false

/-- Registers 0 to 8 of an exception group (Table 3-6). -/
def inGroup (base n : Nat) : Bool := decide (base ≤ n ∧ n ≤ base + 8)

/-- Whether a state number is assigned in a core's profile (Tables 3-5, 3-6, 3-20). DESIGN CHOICE (log entry 88): VCSR (0x003), which Table
3-20 names both as vector state that is UNDEF and within 0x000 to 0x004, is unassigned on an Outrider. -/
def sysAssigned (h : Hart) (n : Nat) : Bool :=
  match h with
  | .outrider _ => decide (n ≤ 4 ∧ n ≠ 3) || inGroup 0x400 n || decide (n = snTHR_CTL) || decide (n = snINTMASK)
  | .waystation _ => decide (n ≤ 2) || inGroup 0xC00 n || decide (n = snM_CTL) || decide (n = snINTMASK)
  | .drover _ _ _ =>
    decide (n ≤ 4) || decide (0x100 ≤ n ∧ n ≤ 0x18F) || inGroup 0x400 n || inGroup 0x800 n || inGroup 0xC00 n ||
    decide (n = snTHR_CTL ∨ n = snINTMASK) || decide (0x420 ≤ n ∧ n ≤ 0x423) || decide (n = snPRED_CTL ∨ n = snSEAL_GEN) ||
    decide (0x470 ≤ n ∧ n ≤ 0x484) || decide (n = snH_CTL ∨ n = snH_ROUTE) || decide (0x820 ≤ n ∧ n ≤ 0x827) ||
    decide (n = snPMV_CTL ∨ n = snPMV_TALLY) || decide (n = snM_CTL ∨ n = snM_ROUTE) || decide (0xC20 ≤ n ∧ n ≤ 0xC28)

/-- Whether a state register is read-only. -/
def sysRO (n : Nat) : Bool :=
  decide (n ≤ 2) || decide (0x100 ≤ n ∧ n ≤ 0x18F) || decide (n = snSEAL_GEN ∨ n = snSMP_WR ∨ n = snSMP_LOST)

/-- Whether a state register is marked Sync. -/
def sysSync (n : Nat) : Bool :=
  decide (n = 0x405 ∨ n = 0x805 ∨ n = 0xC05 ∨ n = snTHR_CTL ∨ n = snH_CTL ∨ n = snH_ROUTE ∨ n = snM_CTL ∨ n = snM_ROUTE) ||
  decide (0x420 ≤ n ∧ n ≤ 0x423) || decide (0x820 ≤ n ∧ n ≤ 0x827) || decide (n = snPRED_CTL)

/-- Whether a number names a performance register that a guest reads as zero and cannot write (R572). -/
def sysGuestHidden (t : Thread) (n : Nat) : Bool := inGuest t && decide (0x470 ≤ n ∧ n ≤ 0x4FF)

/-- The bits of a routing register that can be set (R110). -/
def routeMask (hyp : Bool) : Word :=
  BitVec.ofNat 64 (2 ^ 21 - 2 - 2 ^ 0x0B - (if hyp then 2 ^ 0x0A else 0))

/-- An attribute table with type 3 taking the fallback 2 (Table 7-3). -/
def attrLegal (v : Word) : Word :=
  BitVec.ofNat 64 ((List.range 8).map fun n =>
    let ty := bits v.toNat (8 * n) 2
    (if ty = 3 then 2 else ty) * 2 ^ (8 * n)).sum

/-- SMP_CTL with SIZE_LOG2 and WM in their ranges (Table 18-3). -/
def smpCtlLegal (v : Word) : Word :=
  let sz := max 6 (min 20 (bits v.toNat 1 5))
  let wm := max 1 (min (2 ^ sz) (bits v.toNat 6 21))
  BitVec.ofNat 64 (v.toNat % 2 + 2 * sz + 64 * wm)

/-- PMU_CMPn_CTL with an event above 143 taking the fallback 255 (Table 18-3). -/
def cmpCtlLegal (v : Word) : Word :=
  let e := v.toNat % 256
  BitVec.ofNat 64 (v.toNat % 0x1000 / 256 * 256 + (if 144 ≤ e then 255 else e))

/-- WPn_CTL with MASK above 56 clamped (Table 17-7). -/
def wpCtlLegal (v : Word) : Word :=
  let n := v.toNat % 0x2000
  BitVec.ofNat 64 (n % 8 + min 56 (bits n 3 6) * 8 + n / 512 * 512)

/-- The low `n` bits of a value. -/
def lowBits (v : Word) (n : Nat) : Word := BitVec.ofNat 64 (v.toNat % 2 ^ n)

/-- The value of bits [51:lo] of a value. -/
def midBits (v : Word) (lo : Nat) : Word := BitVec.ofNat 64 (v.toNat % 2 ^ 52 / 2 ^ lo * 2 ^ lo)

/-- What a state register holds after a write of `v` (R99): reserved bits zero, values outside a range clamped. -/
def sysLegal (h : Hart) (n : Nat) (v : Word) : Word :=
  if n = snVCSR then lowBits v 8
  else if n = 0x400 ∨ n = 0x800 ∨ n = 0xC00 then lowBits v 4
  else if n = 0x401 ∨ n = 0x801 ∨ n = 0xC01 then v &&& ~~~(3 : Word)
  else if n = 0x402 ∨ n = 0x802 ∨ n = 0xC02 then lowBits v 6
  else if n = 0x405 ∨ n = 0x805 ∨ n = 0xC05 then v &&& ~~~(0xFFF : Word)
  else if n = snTHR_CTL then (if isOutrider h then v &&& 0x27 else v &&& 0x3F)
  else if n = snINTMASK then lowBits v 1
  else if n = snTR_CTL then lowBits v 4
  else if n = snH_TR_CTL then lowBits v 3
  else if n = snVM_CTL then v &&& 5
  else if n = snTR_ROOT ∨ n = snH_TR_ROOT ∨ n = snVM_ROOT then midBits v 12
  else if n = snTR_ASID ∨ n = snH_TR_ASID ∨ n = snVMID then lowBits v 16
  else if n = snTR_ATTR ∨ n = snH_TR_ATTR ∨ n = snVM_ATTR then attrLegal v
  else if n = snPRED_CTL then lowBits v 4
  else if n = snPMU_CTL then lowBits v 2
  else if 0x474 ≤ n ∧ n ≤ 0x477 then cmpCtlLegal v
  else if 0x478 ≤ n ∧ n ≤ 0x47B then lowBits v 48
  else if 0x47C ≤ n ∧ n ≤ 0x47F then (if lowBits v 48 = 0 then 1 else lowBits v 48)
  else if n = snSMP_BASE then midBits v 12
  else if n = snSMP_CTL then smpCtlLegal v
  else if n = snSMP_RD then lowBits v 32
  else if n = snH_CTL then lowBits v 3
  else if n = snH_ROUTE then v &&& routeMask true
  else if n = snPMV_CTL then lowBits v 2
  else if n = snPMV_TALLY then midBits v 11
  else if n = snM_CTL then lowBits v 1
  else if n = snM_ROUTE then v &&& routeMask false
  else if n = snDSTEP then lowBits v 5
  else if 0xC25 ≤ n ∧ n ≤ 0xC28 then wpCtlLegal v
  else v

/-! ## Reads -/

/-- CORE_ID (Table 3-7). -/
def coreId (s : State) (h : Hart) : Word :=
  match h with
  | .drover st _ t =>
    let lk := tileLocked s st
    BitVec.ofNat 64 (hartLocus (pkgNum s) (if lk then .drover st 0 t else h) + b2n lk * 2 ^ 22)
  | .outrider n => BitVec.ofNat 64 (hartLocus (pkgNum s) h + n.val % 8 * 2 ^ 16 + 2 ^ 20)
  | .waystation _ => BitVec.ofNat 64 (hartLocus (pkgNum s) h + 2 ^ 21)

/-- PMU_OVFk: overflow bits of events 64k to 64k + 63 (Table 18-3). -/
def ovfWord (s : State) (h : Hart) (k : Nat) : Word :=
  BitVec.ofNat 64 ((List.range 64).map fun j =>
    if 64 * k + j < 144 ∧ setHas s.pm.ovf (thrCnt h (64 * k + j)) = true then 2 ^ j else 0).sum

/-- The counter view of event `e` (R563, R564, R572, R574); counts the model does not keep are free values (log entry 4). -/
def pmcRead (s : State) (h : Hart) (e : Nat) : State × Word :=
  let t := tget s h
  if t.world = .normal ∧ dbgNonInv s .normal = false then (s, 0)
  else if pmListed e && !pmKept e then (useFree s, lowBits (freeVal s) 48)
  else if inGuest t then
    let d := guestDelta s h e
    (s, BitVec.ofNat 64 (if tallyBad s t then d else (tallyVal s t e + d) % 2 ^ 48))
  else (s, (pmGet s (thrCnt h e)).setWidth 64)

/-- What MFS of a state register of a thread returns, its class and profile apart (R97, R102). -/
def sysRead (s : State) (h : Hart) (n : Nat) : State × Word :=
  let t := tget s h
  if sysGuestHidden t n then (s, 0)
  else if n = snTB then (s, s.tbase.tb)
  else if n = snCORE_ID then (s, coreId s h)
  else if n = snCURSTATE then (s, BitVec.ofNat 64 (levelCode t.level + 4 * worldCode t.world + 8 * b2n (bennak s h)))
  else if 0x100 ≤ n ∧ n ≤ 0x18F then
    let r := pmcRead s h (n - 0x100)
    -- A tally read marks a bad tally block (R574).
    if inGuest t && tallyBad s t then (tmod r.1 h fun t => sput t snPMV_CTL (sget t snPMV_CTL ||| 2), r.2) else r
  else if n = snSEAL_GEN then
    (s, match hartCore h with
        | some k => (cget s k).sealGen.setWidth 64
        | none => 0)
  else if 0x471 ≤ n ∧ n ≤ 0x473 then (s, ovfWord s h (n - 0x471))
  else (s, sgetPend t n)

/-! ## Writes -/

/-- An MTS of PMU_OVFk clears each bit written 0 (Table 18-3). -/
def ovfWrite (s : State) (h : Hart) (k : Nat) (v : Word) : State :=
  { s with pm := { s.pm with ovf := s.pm.ovf.filter fun x =>
      !(decide (x / 256 = hartKey h) && decide (x % 256 / 64 = k) && !v.getLsbD (x % 64)) } }

/-- Whether a write of a performance register is ignored: the normal world without its non-invasive enable (R563). -/
def pmWriteIgnored (s : State) (w : World) (n : Nat) : Bool :=
  decide (w = .normal) && !dbgNonInv s .normal && (decide (0x470 ≤ n ∧ n ≤ 0x4FF) || decide (0x870 ≤ n ∧ n ≤ 0x8FF))

/-- When a pending Sync write of a Bennak-mode Outrider takes effect, counted at retirements: for instruction n + 3 (R392). -/
def bennakDelay : Nat := 3

/-- What MTS of a state register of a thread does, its class and profile apart (R97 to R103); VDIRTY of THR_CTL is written at
once (Table 3-17), and INTMASK waits in Bennak mode only (R392). -/
def sysWrite (s : State) (h : Hart) (n : Nat) (v : Word) : State :=
  let t := tget s h
  let x := sysLegal h n v
  if sysGuestHidden t n || sysRO n || pmWriteIgnored s t.world n then s
  else if 0x471 ≤ n ∧ n ≤ 0x473 then ovfWrite s h (n - 0x471) v
  else if n = snINTMASK ∧ bennak s h = false then tput s h { t with im := x.getLsbD 0 }
  else if sysSync n || decide (n = snINTMASK) then
    let t1 := if n = snTHR_CTL then sput t n ((sget t n &&& ~~~(0x10 : Word)) ||| (x &&& 0x10)) else t
    tput s h { t1 with pend := t1.pend ++ [(n, x, bennakDelay)] }
  else tput s h (sput t n x)

end Sys2Proof.Machine
end

