-- ==== Sys2Proof/Machine/Gate.lean ====
section
/-!
DEFINITION. Requests that leave a locked pair, boundaries of threads, WAIT's reasons, and TLB invalidation (R258 to R262, R467).
-/

namespace Sys2Proof.Machine

/-- Whether a thread's instruction in progress can be given up at a boundary: one that has sent a device-class access or a waybill
request is let to finish (R188). -/
def atRest (t : Thread) : Bool :=
  match t.park with
  | none => true
  | some (.replay _ _) => true
  | some _ => false

/-- Whether a waiting or running thread has a boundary now. -/
def hasBoundary (s : State) (h : Hart) : Bool :=
  let t := tget s h
  hartExists h && !recovering s h && (decide (t.run = .running) || decide (t.run = .waiting)) && atRest t

/-! ## WAIT (Table 3-16) -/

/-- The reason bits of a WAIT with a deadline. OTHER is a debug halt request, a mode command or a change of mode that a WAIT given up by
recovery has met, and a stop by the clearing of the core's EN (log entry 39). -/
def waitReasons (s : State) (h : Hart) (deadline : Word) : Nat :=
  let t := tget s h
  let busy := match h with
    | .drover st c _ => rbit s st 0 LOCK_STAT 5 || (t.stopReq && !rbit s st (1 + c.val) BLOCK_CTL 0) || decide (t.modeWait = some true)
    | _ => false
  b2n (!(pendEnabled s h).isEmpty) + 2 * b2n (decide (deadline ≠ 0) && decide (deadline.toNat ≤ tbNow s)) +
  4 * b2n t.resvLost + 8 * b2n (t.haltReq || busy)

/-- A WAIT that is woken writes its reasons and retires (R126). -/
def wakeWait (s : State) (h : Hart) (w : WaitSt) (reasons : Nat) : State :=
  let t0 := tget s h
  let s1 := tput s h { xset t0 w.rd (BitVec.ofNat 64 reasons) with run := .running, wait := none, modeWait := none, resvLost := false }
  retire s1 h t0 (t0.pc + 4) w.info

/-! ## TLB invalidation -/

/-- Whether a cached translation is covered by an invalidation (Table 7-8); the page is the stage-1 leaf's where it has one. -/
def invCovers (m : InvMsg) (e : TlbEnt) : Bool :=
  let g := match e.s1 with
    | some l => bit l.val 5
    | none => false
  let sz := match e.s1 with
    | some l => 12 + bits l.val 52 6
    | none => e.logSize
  let hit := decide (m.addr % 2 ^ m.width / 2 ^ sz = e.base % 2 ^ m.width / 2 ^ sz)
  decide (e.regime = m.regime) && decide (e.vmid = m.vmid) &&
  match m.scope with
  | 0 => hit && (decide (e.asid = m.asid) || g)
  | 1 => decide (e.asid = m.asid) && !g
  | 2 => true
  | _ => hit && (decide (e.asid = m.asid) || g)

/-- Whether a cached pointer is covered by an invalidation (Table 7-8): AS removes those of its ASID, TBL those of stage 1 whose span
contains the address, VM all; VA none. -/
def invPtr (m : InvMsg) (e : WcEnt) : Bool :=
  decide (e.regime = m.regime) && decide (e.vmid = m.vmid) &&
  match m.scope with
  | 0 => false
  | 1 => decide (e.stage = 0) && decide (e.asid = m.asid)
  | 2 => true
  | _ => decide (e.stage = 0) && decide (m.addr % 2 ^ m.width / 2 ^ (12 + 9 * e.lvl) = e.base % 2 ^ m.width / 2 ^ (12 + 9 * e.lvl))

/-- The state with the covered translations and pointers of a core removed. -/
def invCore (s : State) (k : Nat) (m : InvMsg) : State :=
  cput s k { cget s k with
    tlb := (cget s k).tlb.filter fun e => !invCovers m e
    wc := (cget s k).wc.filter fun e => !invPtr m e }

/-- The places that must acknowledge a broadcast sent from a core (R258 to R260): every core whose domain is not off, that of the sender
among them, the translation unit of every port whose domain is not off, and every other package of the node. -/
def invPlaces (s : State) (me : Option Nat) : List Nat :=
  let cores := allTiles.flatMap fun st => [(0 : Fin 2), 1].filterMap fun c =>
    if domState s st c.val = dOFF then none else some (coreKey st c)
  let ports := (List.finRange 12).filterMap fun n =>
    if domState s (portStop n) 0 = dOFF then none else some (512 + n.val)
  let pkgs := (List.range 4).filterMap fun p =>
    if p ≠ pkgNum s ∧ bit s.pkg.members p = true then some (1024 + p) else none
  cores ++ ports ++ (if me.isSome then pkgs else [])

/-- The fields of an invalidation as a Caravan message carries them. -/
def invWord (m : InvMsg) : Nat := m.scope + 4 * m.regime + 16 * m.vmid + 2 ^ 20 * m.asid + 2 ^ 36 * m.width

/-- A broadcast leaves a core: local removal is done, every other place has it to acknowledge, other packages get TlbInval
messages (R258, R339). -/
def sendInv (s : State) (h : Hart) (k : Nat) (m : InvMsg) : State :=
  let s1 := invCore s k m
  let ps := invPlaces s1 (some k)
  let id := s1.cpu.seqNo
  let b : Bcast := ⟨id, some h, 0, m, ps⟩
  let s2 := { s1 with cpu := { s1.cpu with
    bcasts := if ps.isEmpty then s1.cpu.bcasts else s1.cpu.bcasts ++ [b], seqNo := id + 1 } }
  (ps.filter fun p => decide (1024 ≤ p)).foldl (fun s p =>
    sendWait s (some h) 0xC (pkgLocus (p - 1024)) m.addr (invWord m + 2 ^ 44 * id) []) s2

/-- The broadcasts of a thread that are not acknowledged everywhere. -/
def invsOf (s : State) (h : Hart) : List Bcast := s.cpu.bcasts.filter fun b => decide (b.origin = some h)

/-- The state after a place has acknowledged a broadcast. -/
def ackInv (s : State) (id p : Nat) : State :=
  let l := s.cpu.bcasts.map fun b => if b.id = id then { b with left := b.left.filter (· ≠ p) } else b
  { s with cpu := { s.cpu with bcasts := l.filter fun b => !b.left.isEmpty } }

end Sys2Proof.Machine
end

