-- ==== Sys2Proof/Machine/System.lean ====
section
/-!
DEFINITION. System instructions: state registers, calls, returns, waits, prediction barriers and TLB invalidation (Table 4-22).
-/

namespace Sys2Proof.Machine

/-- A PRIV check: raised where `bad` holds. -/
def privIf (bad : Bool) (word : BitVec 32) : Option Exc := if bad then some (wordExc cPRIV word) else none

/-- Whether a thread is at U or S of the normal world, where H_CTL traps (R164). -/
def hctlServes (t : Thread) : Bool := decide (t.world = .normal) && (decide (t.level = .u) || decide (t.level = .s))

/-- PRIV, then HTRAP under a bit of H_CTL. -/
def privHtrap (s : State) (h : Hart) (bad : Bool) (trap : Nat) (word : BitVec 32) : Option Exc :=
  let t := tget s h
  if bad then some (wordExc cPRIV word)
  else if hctlServes t && isDrover h && sbit t snH_CTL trap then some (wordExc cHTRAP word)
  else none

/-- The PRIV and HTRAP checks of MFS (R98, R121, R564); a guest's hidden registers raise nothing (R572). -/
def mfsPre (h : Hart) (n : Nat) (word : BitVec 32) (s : State) : Option Exc :=
  let t := tget s h
  let isPmc := isDrover h && decide (0x100 ≤ n ∧ n ≤ 0x18F)
  let bad := sysPriv t.level n || (decide (n = snTB) && decide (t.level = .u) && !sbit t snTHR_CTL 2) ||
    (isPmc && decide (t.level = .u) && !sbit t snPMU_CTL 0)
  if sysGuestHidden t n then none
  else if decide (n = snTB) || isPmc then privHtrap s h bad 1 word
  else privIf bad word

/-- MFS (R97). Copy a state register into an x register. -/
def execMfs (h : Hart) (q : BitVec 4) (rd : Reg) (sn : BitVec 12) (s : State) : Host.Outcome State Fault Refusal :=
  let w := encI q 0x2D rd 0 sn
  let n := sn.toNat
  runInstr s h q
    { word := w, xs := [rd], pre := mfsPre h n w, vec := if isDrover h && decide (n = snVCSR) then .reads else .none,
      post := fun s => if sysGuestHidden (tget s h) n || sysAssigned h n then none else some (wordExc cUNDEF w) }
    fun s =>
      let r := sysRead s h n
      fin (tmod r.1 h fun t => xset t rd r.2) h w

/-- MTS (R97). Copy an x register into a state register; Sync registers wait (R101). -/
def execMts (h : Hart) (q : BitVec 4) (sn : BitVec 12) (rs1 : Reg) (s : State) : Host.Outcome State Fault Refusal :=
  let w := encI q 0x2E 0 rs1 sn
  let n := sn.toNat
  runInstr s h q
    { word := w, xs := [rs1],
      pre := fun s => if sysGuestHidden (tget s h) n then none else privIf (sysPriv (tget s h).level n) w,
      vec := if isDrover h && decide (n = snVCSR) then .writes else .none,
      post := fun s =>
        if sysGuestHidden (tget s h) n || (sysAssigned h n && !sysRO n) then none else some (wordExc cUNDEF w) }
    fun s => fin (sysWrite s h n (xget (tget s h) rs1)) h w

/-! ## Calls -/

/-- A call exception: the call has completed and the return address is the next instruction (Table 3-8). -/
def callExc (s : State) (h : Hart) (cause : Nat) (imm : BitVec 16) : Eff :=
  let s1 := countEvents s h [evINST, evGROUPS]
  .exc (tmod s1 h fun t => { t with pc := t.pc + 4 }) ⟨cause, imm.toNat, 0, none⟩

/-- CALL.S (R107). Raise CALL_S; legal at U and S. -/
def execCallS (h : Hart) (q : BitVec 4) (imm : BitVec 16) (s : State) : Host.Outcome State Fault Refusal :=
  let w := encK q 0 imm
  runInstr s h q
    { word := w, undef := (match h with | .waystation _ => true | _ => false),
      pre := fun s => privIf (decide ((tget s h).level = .h) || decide ((tget s h).level = .m)) w }
    fun s => callExc s h cCALL_S imm

/-- CALL.H (R107). Raise CALL_H; legal at S and H of the normal world. -/
def execCallH (h : Hart) (q : BitVec 4) (imm : BitVec 16) (s : State) : Host.Outcome State Fault Refusal :=
  let w := encK q 1 imm
  runInstr s h q
    { word := w, undef := !isDrover h, pre := fun s => privIf (decide ((tget s h).level = .u)) w,
      post := fun s => if (tget s h).world = .secure then some (wordExc cUNDEF w) else none }
    fun s => callExc s h cCALL_H imm

/-- CALL.M (R107). Raise CALL_M; legal at S, H and M. -/
def execCallM (h : Hart) (q : BitVec 4) (imm : BitVec 16) (s : State) : Host.Outcome State Fault Refusal :=
  let w := encK q 2 imm
  runInstr s h q { word := w, undef := !isDrover h, pre := fun s => privIf (decide ((tget s h).level = .u)) w }
    fun s => callExc s h cCALL_M imm

/-- BREAK (R106). Raise BREAK; the return address is the BREAK itself. -/
def execBreak (h : Hart) (q : BitVec 4) (imm : BitVec 16) (s : State) : Host.Outcome State Fault Refusal :=
  runInstr s h q { word := encK q 3 imm } fun s => .exc s ⟨cBREAK, imm.toNat, 0, none⟩

/-! ## SYNC.ST, XRET and WAIT -/

/-- SYNC.ST (R104). Every pending write takes effect; in Bennak mode it is no operation (R130). -/
def execSyncSt (h : Hart) (q : BitVec 4) (s : State) : Host.Outcome State Fault Refusal :=
  let w := encR q 0x2F 0 0 0 0x00
  runInstr s h q { word := w } fun s =>
    let s1 := if bennak s h then s else countThread (tmod s h applySync) h evSYNC 1
    fin s1 h w

/-- XRET (R112). Return to the saved level, world and mask; pending writes take effect first. -/
def execXret (h : Hart) (q : BitVec 4) (s : State) : Host.Outcome State Fault Refusal :=
  let w := encR q 0x2F 0 0 0 0x01
  runInstr s h q { word := w, pre := fun s => privIf (decide ((tget s h).level = .u)) w } fun s =>
    let t := applySync (tget s h)
    if xretIllegal h t then .exc s ⟨cILLRET, (sget t (snLev t.level exSTATUS)).toNat, 0, none⟩
    else
      let t1 := xretThread h t
      let s1 := tput s h t1
      let s2 := if inGuest t1 && !inGuest t then guestEntry s1 h else s1
      .done s2 t1.pc (plain w)

/-- WAIT (R126). Suspend until a wake condition holds, or retire at once where one does. -/
def execWait (h : Hart) (q : BitVec 4) (rd rs1 : Reg) (s : State) : Host.Outcome State Fault Refusal :=
  let w := encR q 0x2F rd rs1 0 0x02
  runInstr s h q
    { word := w, xs := [rd, rs1],
      pre := fun s => privHtrap s h (decide ((tget s h).level = .u) && !sbit (tget s h) snTHR_CTL 1) 0 w }
    fun s =>
      let dl := xget (tget s h) rs1
      let r := waitReasons s h dl
      if r ≠ 0 then fin (tmod s h fun t => { xset t rd (BitVec.ofNat 64 r) with modeWait := none, resvLost := false }) h w
      else .stay (tmod s h fun t => { t with run := .waiting, wait := some ⟨rd, dl, plain w⟩ })

/-! ## Prediction -/

/-- The return stack with the entries pushed under a seal holding no prediction. -/
def rsForget (k : Option Seal) (t : Thread) : Thread :=
  { t with rstack := t.rstack.map fun e => if e.2 = k then (e.1, none) else e }

/-- BP.FLUSH (R199). Discard the predictions of the current context. -/
def execBpFlush (h : Hart) (q : BitVec 4) (s : State) : Host.Outcome State Fault Refusal :=
  let w := encR q 0x2F 0 0 0 0x03
  runInstr s h q { word := w, pre := fun s => privHtrap s h false 2 w } fun s =>
    match hartCore h, sealOf s h with
    | some k, some e =>
      let s1 := cput s k { cget s k with preds := (cget s k).preds.filter fun p => p.tag ≠ e }
      match h with
      | .drover st c _ => fin ([Hart.drover st c 0, Hart.drover st c 1].foldl (fun s g => tmod s g (rsForget (some e))) s1) h w
      | _ => fin s1 h w
    | _, _ => fin s h w

/-- BP.BAR (R200). No later instruction is fetched on an earlier prediction; predictor contents stay. -/
def execBpBar (h : Hart) (q : BitVec 4) (s : State) : Host.Outcome State Fault Refusal :=
  let w := encR q 0x2F 0 0 0 0x04
  runInstr s h q { word := w } fun s => fin s h w

/-- SEAL.ROT (R201). A new seal key for the core, once older instructions of both threads have retired. -/
def execSealRot (h : Hart) (q : BitVec 4) (s : State) : Host.Outcome State Fault Refusal :=
  let w := encR q 0x2F 0 0 0 0x05
  runInstr s h q { word := w, pre := fun s => privHtrap s h (decide ((tget s h).level = .u)) 2 w } fun s =>
    match h with
    | .drover st c _ =>
      let both := [Hart.drover st c 0, Hart.drover st c 1]
      if both.all fun g => atRest (tget s g) then
        let k := coreKey st c
        let cs := cget s k
        let s1 := cput (useFree s) k { cs with key := freeVal s, sealGen := cs.sealGen + 1, preds := [] }
        fin (both.foldl (fun s g => tmod s g fun t =>
          { t with rstack := t.rstack.map fun e => (e.1, none), park := none }) s1) h w
      else .stay s
    | _ => fin s h w

/-! ## TLB invalidation -/

/-- The message of a TLB.INV of scope `sc` by a thread (Tables 7-7, 7-8): the guest regime of the current VMID at S of the normal
world, the host regime at H, the secure regime in the secure world, and for the VM scope the guest regime named. -/
def invMsg (t : Thread) (sc : Nat) (addr : Word) (id : Word) : InvMsg :=
  let l5 := if t.level = .h then sbit t snH_TR_CTL 1 else sbit t snTR_CTL 1
  let r := if sc = 2 then 0 else if t.level = .h then 1 else if t.world = .secure then 2 else 0
  let vm := if sc = 2 then bits id.toNat 0 16 else if r = 0 then sfld t snVMID 0 16 else 0
  ⟨sc, r, vm, if sc = 2 then 0 else bits id.toNat 0 16, addr.toNat, if l5 then 57 else 48⟩

/-- A TLB.INV (R257, R258): earlier stores are written first, at most 16 broadcasts are outstanding, a locked pair's is compared. -/
def runInv (s : State) (h : Hart) (q : BitVec 4) (w : BitVec 32) (xs : List Reg) (sc : Nat) (addr id : Thread → Word) :
    Host.Outcome State Fault Refusal :=
  runInstr s h q
    { word := w, undef := !isDrover h, xs := xs,
      pre := fun s =>
        let l := (tget s h).level
        privIf (decide (l = .u) || (decide (sc = 2) && decide (l = .s))) w }
    fun s =>
      let s1 := drainAll s h
      if !drained s1 h || decide (16 ≤ (invsOf s1 h).length) then .stay s1
      else
        let g := lockGate s1 h
        if !g.1 then .stay g.2
        else
          let t := tget s1 h
          match hartCore h with
          | some k => .done (sendInv s1 h k (invMsg t sc (addr t) (id t))) (t.pc + 4) ⟨w, 0, 0, [evTLB_INV], 0⟩
          | none => .stay s1

/-- TLB.INV.VA (R165). Scope address. -/
def execTlbInvVa (h : Hart) (q : BitVec 4) (rs1 rs2 : Reg) (s : State) : Host.Outcome State Fault Refusal :=
  runInv s h q (encR q 0x2F 0 rs1 rs2 0x08) [rs1, rs2] 0 (fun t => xget t rs1) (fun t => xget t rs2)

/-- TLB.INV.AS (R165). Scope address space. -/
def execTlbInvAs (h : Hart) (q : BitVec 4) (rs1 : Reg) (s : State) : Host.Outcome State Fault Refusal :=
  runInv s h q (encR q 0x2F 0 rs1 0 0x09) [rs1] 1 (fun _ => 0) (fun t => xget t rs1)

/-- TLB.INV.VM (R165). Scope virtual machine; legal at H and M. -/
def execTlbInvVm (h : Hart) (q : BitVec 4) (rs1 : Reg) (s : State) : Host.Outcome State Fault Refusal :=
  runInv s h q (encR q 0x2F 0 rs1 0 0x0A) [rs1] 2 (fun _ => 0) (fun t => xget t rs1)

/-- TLB.INV.TBL (R165). Scope table. -/
def execTlbInvTbl (h : Hart) (q : BitVec 4) (rs1 rs2 : Reg) (s : State) : Host.Outcome State Fault Refusal :=
  runInv s h q (encR q 0x2F 0 rs1 rs2 0x0B) [rs1, rs2] 3 (fun t => xget t rs1) (fun t => xget t rs2)

/-- TLB.SYNC (R261). Completes when every earlier broadcast of the thread has been acknowledged. -/
def execTlbSync (h : Hart) (q : BitVec 4) (s : State) : Host.Outcome State Fault Refusal :=
  let w := encR q 0x2F 0 0 0 0x0C
  runInstr s h q { word := w, undef := !isDrover h, pre := fun s => privIf (decide ((tget s h).level = .u)) w } fun s =>
    if (invsOf s h).isEmpty then fin s h w else .stay s

end Sys2Proof.Machine
end

