-- ==== Sys2Proof/Machine/ThreadCtl.lean ====
section
/-!
DEFINITION. Starting, stopping and halting threads, debug access to their registers, and events at their boundaries (R207 to R210,
R501, R550, R554).
-/

namespace Sys2Proof.Machine

/-! ## Start and stop -/

/-- The block, offsets and bit that start and stop a thread: TSTART_LO of a Drover thread, OR_START_LO of an Outrider. -/
def startRegs (h : Hart) : Stop × Nat × Nat :=
  match h with
  | .drover st c t => (st, 1 + c.val, TSTART_LO + 16 * t.val)
  | .outrider n => (hartStop h, 1, 0x1000 * (n.val % 8) + OR_START_LO)
  | .waystation _ => (hartStop h, 0, 0)

/-- The state with STARTERR of a thread set (Tables 5-19, 11-8). -/
def setStartErr (s : State) (h : Hart) : State :=
  match h with
  | .drover st c t => rsetB s st (1 + c.val) (TSTATE + 16 * t.val) 2 true
  | .outrider n => rsetB s (hartStop h) 1 (0x1000 * (n.val % 8) + OR_STAT) 2 true
  | .waystation _ => s

/-- Whether the block of a thread is enabled to run it (R208, R401). -/
def hartEnabled (s : State) (h : Hart) : Bool :=
  match h with
  | .waystation _ => true
  | _ => rbit s (startRegs h).1 (startRegs h).2.1 BLOCK_CTL 0

/-- Whether a GO is refused whatever the thread's state: t1 without SMT_EN, a tile in mode 3 (Table 5-19, R210). -/
def goRefused (s : State) (h : Hart) : Bool :=
  match h with
  | .drover st c t => (decide (t = 1) && !rbit s st (1 + c.val) CORE_CTL 0) || decide (tileMode s st = 3)
  | _ => false

/-- GO of a thread (R207, R208, R401): the start address is captured and a start is pending; otherwise STARTERR is set. -/
def startGo (s : State) (h : Hart) : State :=
  let t := tget s h
  if t.run ≠ .stopped ∨ t.startAt.isSome = true ∨ hartEnabled s h = false ∨ goRefused s h = true then setStartErr s h
  else
    let r := startRegs h
    let s1 := emptyRunStacks s h
    tmod s1 h fun t => { t with startAt := some (BitVec.ofNat 64 (rget64 s r.1 r.2.1 r.2.2) &&& ~~~(3 : Word)) }

/-- STOP of a thread (R207): a pending start is cancelled, a thread that runs stops at its next boundary. -/
def startStop (s : State) (h : Hart) : State :=
  let t := tget s h
  match h with
  | .drover st _ _ =>
    if tileMode s st = 3 then s
    else if t.run = .stopped then tput s h { t with startAt := none }
    else tput s h { t with stopReq := true }
  | _ => if t.run = .stopped then tput s h { t with startAt := none } else tput s h { t with stopReq := true }

/-- GO and STOP written together act as STOP (R207, R401). -/
def startCtl (s : State) (h : Hart) (go stop : Bool) : State :=
  if stop then startStop s h else if go then startGo s h else s

/-- The state a thread starts in (Tables 3-19, 11-6); what it keeps is its return stack and a halt request. -/
def startThread (s : State) (h : Hart) (pc : Word) : Thread :=
  let t := tget s h
  let t1 : Thread := { Thread.initial with
    pc := pc, run := .running, rstack := t.rstack, rtop := t.rtop, haltReq := t.haltReq
    level := (match h with | .outrider _ => .s | _ => .m)
    world := (match h with
      | .outrider n => worldOf (b2n (rbit s (wsStop 0) 11 WA_OR_SEC n.val))
      | _ => .secure) }
  let t2 := xset t1 10 (BitVec.ofNat 64 (bits (coreId s h).toNat 0 16))
  match h with
  | .outrider n => xset t2 11 (BitVec.ofNat 64 (n.val % 8))
  | _ => t2

/-- The overflow bits of a thread's counters cleared, the reset value of PMU_OVF0 to PMU_OVF2 (R129). -/
def ovfClear (s : State) (h : Hart) : State :=
  { s with pm := { s.pm with ovf := s.pm.ovf.filter fun k => decide (k / 256 ≠ hartKey h) } }

/-- A pending start completes (R207): its core's domain is on. GO clears OR_RUN, OR_STALL and the reason of the latest stall. -/
def startDone (s : State) (h : Hart) : State :=
  match (tget s h).startAt with
  | none => s
  | some a =>
    if hartExists h && decide (domState s (hartStop h) (hartDom s h) = dON) then
      cairnSync (stall (tput (ovfClear s h) h (startThread s h a)) h 0) h
    else s

/-- Whether an Outrider has a request outstanding that a STOP waits for (R401). -/
def nbWaiting (t : Thread) : Bool := !t.nb.isEmpty

/-- A stopping thread reaches its boundary and, once its committed stores have drained, reads STOPPED (R207, R401, R501). -/
def stopDone (s : State) (h : Hart) : State :=
  let t := tget s h
  if t.stopReq && (decide (t.run = .halted) || hasBoundary s h) && (groupsOf s h).isEmpty && !nbWaiting t then
    let s1 := drainAll s h
    if drained s1 h then cairnSync (emptyRunStacks (stopThread s1 h) h) h else s1
  else s

/-- Clearing EN of a core block stops both its threads, of the Outrider cluster's block 1 all eight (R208, R401). -/
def stopAll (s : State) (l : List Hart) : State := l.foldl startStop s

/-! ## Debug halts -/

/-- The thread a debug bit of a core block names (Table 5-20). -/
def dbgHart (st : Stop) (c : Fin 2) (t : Nat) : Hart := .drover st c (if t = 1 then 1 else 0)

/-- A request by an initiator without invasive debug for the thread's world sets REFUSED (R209). -/
def dbgRefuse (s : State) (st : Stop) (c : Fin 2) : State := rsetB s st (1 + c.val) DBG_STAT 4 true

/-- HALT of a thread (R209). -/
def haltReq (s : State) (w : World) (st : Stop) (c : Fin 2) (t : Nat) : State :=
  let h := dbgHart st c t
  if dbgHolds s w (tget s h).world then
    (if (tget s h).run = .halted then s else tmod s h fun t => { t with haltReq := true })
  else dbgRefuse s st c

/-- The thread runs on from where it halted; register writes made meanwhile to Sync registers take effect (R105, R554). -/
def resumeNow (s : State) (h : Hart) : State :=
  let t := tget s h
  if t.run = .halted then cairnSync (tput s h { applySync t with run := .running }) h else s

/-- RESUME of a thread (R209). -/
def resumeReq (s : State) (w : World) (st : Stop) (c : Fin 2) (t : Nat) : State :=
  let h := dbgHart st c t
  if dbgHolds s w (tget s h).world then resumeNow s h else dbgRefuse s st c

/-- A write of DBG_CTL (Table 5-20). -/
def dbgCtl (s : State) (w : World) (st : Stop) (c : Fin 2) (v : Nat) : State :=
  let s1 := if bit v 0 then haltReq s w st c 0 else s
  let s2 := if bit v 1 then haltReq s1 w st c 1 else s1
  let s3 := if bit v 2 then resumeReq s2 w st c 0 else s2
  if bit v 3 then resumeReq s3 w st c 1 else s3

/-- A held halt request takes effect at a boundary (R209): a WAIT wakes with its reasons, committed stores drain, groups of a
locked pair have compared. -/
def haltDone (s : State) (h : Hart) : State :=
  if haltDue s h && hasBoundary s h && (groupsOf s h).isEmpty then
    let s1 := match (tget s h).wait with
      | some w => wakeWait s h w (waitReasons s h w.deadline)
      | none => tmod s h fun t => { t with park := none }
    haltAt s1 h
  else s

/-- A debug enable of a world is withdrawn: held requests are cancelled and halted threads resume (R550). -/
def dbgWithdraw (s : State) (w : World) : State :=
  (allTiles.flatMap tileHarts).foldl (fun s h =>
    let t := tget s h
    if t.world = w ∧ (t.haltReq = true ∨ t.run = .halted) then
      resumeNow (tmod s h fun t => { t with haltReq := false }) h else s) s

/-! ## Debug access to a halted thread's registers (R554) -/

/-- What DBG_RSEL selects: thread, class and number (Table 17-8). -/
def dbgSel (s : State) (st : Stop) (c : Fin 2) : Hart × Nat × Nat :=
  let v := rget s st (1 + c.val) DBG_RSEL
  (dbgHart st c (getF v 0 1), getF v 1 3, getF v 4 12)

/-- Whether a normal-world initiator may reach a state register: of class U, S or H, or DSTEP or a watchpoint register. -/
def dbgNormalMay (n : Nat) : Bool := decide (sysClass n ≤ 2) || decide (0xC20 ≤ n ∧ n ≤ 0xC28)

/-- Whether a debug register access may take effect (R554). -/
def dbgMay (s : State) (w : World) (st : Stop) (c : Fin 2) : Bool :=
  let e := dbgSel s st c
  let t := tget s e.1
  decide (t.run = .halted) && dbgHolds s w t.world &&
  (decide (w = .secure) || decide (e.2.1 ≠ 5) || dbgNormalMay e.2.2)

/-- The value of the selected register; a number that names no register reads zero. -/
def dbgGet (s : State) (e : Hart × Nat × Nat) : State × Nat :=
  let t := tget s e.1
  let n := e.2.2
  match e.2.1 with
  | 1 => (s, if n < 8 then b2n (pget t (BitVec.ofNat 3 n)) else 0)
  | 2 => (s, if n < 128 then bits (vget t (BitVec.ofNat 5 (n / 4))).toNat (64 * (n % 4)) 64 else 0)
  | 3 => (s, if n < 8 then (mget t (BitVec.ofNat 3 n)).toNat else 0)
  | 4 => (s, t.pc.toNat)
  | 5 => if sysAssigned e.1 n then (let r := sysRead s e.1 n; (r.1, r.2.toNat)) else (s, 0)
  | _ => (s, if n < 32 then (xget t (BitVec.ofNat 5 n)).toNat else 0)

/-- A vector register with one 64-bit chunk replaced. -/
def vecChunk (v : Vec) (i x : Nat) : Vec :=
  BitVec.ofNat 256 (v.toNat - bits v.toNat (64 * i) 64 * 2 ^ (64 * i) + x * 2 ^ (64 * i))

/-- The state with the selected register written; a number that names no register is ignored. -/
def dbgPut (s : State) (e : Hart × Nat × Nat) (x : Nat) : State :=
  let t := tget s e.1
  let n := e.2.2
  match e.2.1 with
  | 1 => if n < 8 then tput s e.1 (pset t (BitVec.ofNat 3 n) (bit x 0)) else s
  | 2 => if n < 128 then tput s e.1 (vset t (BitVec.ofNat 5 (n / 4)) (vecChunk (vget t (BitVec.ofNat 5 (n / 4))) (n % 4) x)) else s
  | 3 => if n < 8 then tput s e.1 (mset t (BitVec.ofNat 3 n) (BitVec.ofNat 32 x)) else s
  | 4 => tput s e.1 { t with pc := BitVec.ofNat 64 x &&& ~~~(3 : Word) }
  | 5 => if sysAssigned e.1 n then sysWrite s e.1 n (BitVec.ofNat 64 x) else s
  | _ => if n < 32 then tput s e.1 (xset t (BitVec.ofNat 5 n) (BitVec.ofNat 64 x)) else s

/-- A write of DBG_RCMD: READ or WRITE, both together acting as READ; one that may not take effect sets RERR (R554). -/
def dbgRcmd (s : State) (w : World) (st : Stop) (c : Fin 2) (v : Nat) : State :=
  if !bit v 0 && !bit v 1 then s
  else if !dbgMay s w st c then rsetB s st (1 + c.val) DBG_STAT 5 true
  else if bit v 0 then
    let r := dbgGet s (dbgSel s st c)
    rput64 r.1 st (1 + c.val) DBG_RDATA_LO r.2
  else dbgPut s (dbgSel s st c) (rget64 s st (1 + c.val) DBG_RDATA_LO)

/-! ## Events at threads -/

/-- TAKE_INTERRUPT (R116). A deliverable interrupt, or a machine check before it (R114), is taken at a boundary. -/
def execTakeInterrupt (h : Hart) (s : State) : Host.Outcome State Fault Refusal :=
  if !hasBoundary s h then .next s
  else if !(tget s h).mchk.isEmpty then .next (takeMchk s h)
  else if (tget s h).wait.isSome then .next s
  else
    match deliverable s h with
    | some c => .next (takeInterrupt s h c.2)
    | none => .next s

/-- A wake condition of a waiting thread reaches its core's domain: in Run the domain is powered, counted as DOMAIN_WAKES (R513, R578); out
of Run it is a package wake (R523). -/
def threadWake (s : State) (h : Hart) : State :=
  if pkgState s ≠ 0 then pkgWake s 2 (hartLocus (pkgNum s) h)
  else
    let s1 := domWake s (hartStop h) (hartDom s h) wkThread
    let d := fun s => domState s (hartStop h) (hartDom s h)
    if d s1 = dWAKING ∧ d s ≠ dWAKING then countThread s1 h evWAKES 1 else s1

/-- WAIT_WAKE (R126). A wake condition ends a WAIT; a core whose domain is off is powered up first (R513). -/
def execWaitWake (h : Hart) (s : State) : Host.Outcome State Fault Refusal :=
  match (tget s h).wait with
  | none => .next s
  | some w =>
    let r := waitReasons s h w.deadline
    if r = 0 then .next s
    else if isDrover h && decide (domState s (hartStop h) (hartDom s h) ≠ dON) then
      .next (threadWake s h)
    else .next (wakeWait s h w r)

/-- TIMER_SOURCE_PENDING (R122). The timebase has reached a level's timer compare; an enabled source powers up a core that is off
(R513). -/
def execTimerSourcePending (h : Hart) (l : Level) (s : State) : Host.Outcome State Fault Refusal :=
  let n := match l with | .u => 0 | .s => 0 | .h => 1 | .m => 2
  if privPending s h n && privEnabled s h n && isDrover h && decide ((tget s h).run = .waiting) &&
      decide (domState s (hartStop h) (hartDom s h) ≠ dON) then
    .next (threadWake s h)
  else .next s

/-- BRANCH_RESOLVE (R172). A branch resolves, before it retires: predictors are trained under its seal, a misprediction is counted, and the
traces that younger instructions and prefetches have left stay (R192, R202). `dir` is what the direction predictor gave, where it was
used. -/
def execBranchResolve (h : Hart) (pc : Word) (b : BrKind) (dir tkn : Bool) (target : Word) (traces : List Trace) (s : State) :
    Host.Outcome State Fault Refusal :=
  if !isDrover h || !hasBoundary s h then .next s
  else
    let s1 := trainBranch s h pc b tkn target
    let s2 := if mispredicted s h pc b dir tkn target then countThread s1 h evBR_MISPRED 1 else s1
    let s3 := if mispredicted s h pc b dir tkn target && isReturn b then countThread s2 h evRET_MISPRED 1 else s2
    .next (traces.foldl (leaveTrace h) s3)

/-- MEMORY_ORDER_VIOLATION (R184). The load and every younger instruction are discarded, and the dependence predictor is
trained; a load that was parked is refetched. One that waits for its older stores violates no order (R183). -/
def execMemoryOrderViolation (h : Hart) (load : Reissue) (s : State) : Host.Outcome State Fault Refusal :=
  if !isDrover h || !hasBoundary s h || loadWaits s h load.pc then .next s
  else
    let s1 := countThread (train s h 2 load.pc 1) h evMO 1
    .next (load.traces.foldl (leaveTrace h) (tmod s1 h fun t => { t with park := if atRest t then none else t.park }))

/-- PENDING_START_DONE (R207). A pending start completes and the thread reads RUNNING. -/
def execPendingStartDone (h : Hart) (s : State) : Host.Outcome State Fault Refusal := .next (startDone s h)

/-- HALT_TAKES_EFFECT (R209). A held halt request takes effect at a permitted boundary. -/
def execHaltTakesEffect (h : Hart) (s : State) : Host.Outcome State Fault Refusal := .next (haltDone s h)

end Sys2Proof.Machine
end

