-- ==== Sys2Proof/Machine/Caches.lean ====
section
/-!
DEFINITION. The rows of caches and coherence: failing ways, drains, depot conversion, slice retirement and the requests of Table 8-4
(chapter 8).
-/

namespace Sys2Proof.Machine

/-! ## Failing ways (R293 to R297) -/

/-- The register block of a core's L2. -/
def l2Blk (c : Fin 2) : Nat := 3 + c.val

/-- One more correctable error of a way: WIN and TOTAL saturate (R294). -/
def wayCount (s : State) (st : Stop) (blk off : Nat) : State := rsat (rsat s st blk off 0 16 1) st blk off 16 16 1

/-- A way begins to disable itself (R295). -/
def wayDisable (s : State) (st : Stop) (place : Nat) : State :=
  let s1 := { s with cache := { s.cache with disab := setAdd s.cache.disab (disKey st place) } }
  if place < 48 then rsetB s1 st (3 + place / (if place < 32 then 16 else 8) % 2) L2_STAT 1 true
  else rsetB s1 st 5 L3_STAT 2 true

/-- A correctable error of a way: counted, reported, and the way disabled past its threshold (R293, R294, R295). -/
def wayCe (s : State) (st : Stop) (blk cnt thr place src addr : Nat) (may : Bool) : State :=
  let s1 := reportErr (wayCount s st blk cnt) st src tyCE (some addr)
  if may && decide (rfld s1 st blk thr 0 8 < rfld s1 st blk cnt 0 16) then wayDisable s1 st place else s1

/-- An uncorrectable error of a dirty line: the granule is poisoned, reported, and the way disables itself at once. -/
def wayUe (s : State) (st : Stop) (place src addr : Nat) : State :=
  wayDisable (reportErr (markPoison s addr) st src (tyUE + tyPOISON) (some addr)) st place

/-- A clean line in which an uncorrectable error was found is invalidated; it is refetched as the access that met the error goes on
(Table 8-7, log entry 105). -/
def cleanDrop (s : State) (arr : CacheArr) (addr : Nat) : State :=
  match arr with
  | .l1i st c => l1SideDrop s (coreNum st c) 0 (addr / 64)
  | .l1d st c _ => l1SideDrop s (coreNum st c) 1 (addr / 64)
  | .l2 st c _ =>
    match l2Find s (coreNum st c) (addr / 64), homeOf s addr with
    | some (w, _), some h => sfDropCore (l2Lose s (coreNum st c) (addr / 64) w) h (addr / 64) (coreNum st c)
    | some (w, _), none => remoteLeave (l2Lose s (coreNum st c) (addr / 64) w) (addr / 64)
    | none, _ => s
  | .l3 st _ =>
    match l3Find (sliceGet s st) (addr / 64) with
    | some (w, _) => slicePut s st (l3Put (sliceGet s st) (addr / 64) w none)
    | none => s
  | _ => s

/-- An entry of the tags or of the snoop filter is unreadable in both copies (R293, R444): its line cannot be located; a dirty one is lost,
its bytes free values, and the record says so and gives the set and the way. -/
def tagLost (s : State) (st : Stop) (place addr : Nat) (dirty : Bool) (src : Nat) : State :=
  let line := addr / 64
  let s1 :=
    if place < 32 then
      let n := coreNum st ⟨place / 16 % 2, by omega⟩
      match l2Find s n line with
      | some (w, _) => l2Lose s n line w
      | none => s
    else
      let sl := sliceGet s st
      match l3Find sl line with
      | some (w, _) => slicePut s st (l3Put sl line w none)
      | none => s
  let set := if place < 32 then line % 2048 else l3SetOf line
  let synd := set + place % 16 * 2 ^ 16
  if dirty then reportErr (freeLine s1 line) st src (tyPARITY + tyLOST) (some addr) synd else reportErr s1 st src tyPARITY (some addr)

/-- CACHE_ARRAY_ERROR (R293). An error in a cache array: correctable, uncorrectable in a clean line, or uncorrectable in a dirty
line (`ue` and `dirty`), at a physical address. -/
def execCacheArrayError (arr : CacheArr) (addr : Nat) (ue dirty : Bool) (s : State) : Host.Outcome State Fault Refusal :=
  let s1 := if ue then cleanDrop s arr addr else s
  match arr with
  | .l1i st c => .next (reportErr (cleanDrop s arr addr) st (0x1001 + 0x100 * c.val) tyPARITY (some addr))
  | .l1d st c w =>
    if ue && dirty then .next (wayUe s st (32 + 8 * c.val + w.val) (0x1002 + 0x100 * c.val) addr)
    else .next (wayCe s1 st (l2Blk c) (L1D_WAY_CECNT + 4 * w.val) L2_ERR_THRESH (32 + 8 * c.val + w.val) (0x1001 + 0x100 * c.val) addr true)
  | .l2 st c w =>
    if ue && dirty then .next (wayUe s st (16 * c.val + w.val) (0x2002 + 0x100 * c.val) addr)
    else .next (wayCe s1 st (l2Blk c) (L2_WAY_CECNT + 4 * w.val) L2_ERR_THRESH (16 * c.val + w.val) (0x2001 + 0x100 * c.val) addr true)
  | .l2tag st c w =>
    if ue then .next (tagLost s st (16 * c.val + w.val) addr dirty (0x2004 + 0x100 * c.val))
    else .next (wayCe s st (l2Blk c) (L2_WAY_CECNT + 4 * w.val) L2_ERR_THRESH (16 * c.val + w.val) (0x2003 + 0x100 * c.val) addr true)
  | .l3 st w =>
    if bit (depotMask s st) w.val then
      if ue then .next (reportErr (markPoison s addr) st 0x3006 (tyUE + tyPOISON) (some addr))
      else .next (wayCe s st 5 (L3_WAY_CECNT + 4 * w.val) L3_ERR_THRESH (48 + w.val) 0x3001 addr false)
    else if ue && dirty then .next (wayUe s st (48 + w.val) 0x3002 addr)
    else .next (wayCe s1 st 5 (L3_WAY_CECNT + 4 * w.val) L3_ERR_THRESH (48 + w.val) 0x3001 addr true)
  | .l3tag st w =>
    if ue then .next (tagLost s st (48 + w.val) addr dirty 0x3004)
    else .next (wayCe s st 5 (L3_WAY_CECNT + 4 * w.val) L3_ERR_THRESH (48 + w.val) 0x3003 addr (!bit (depotMask s st) w.val))

/-- The lines of a way leave it (R295, step 2); dirty lines of a slice's way leave while the eviction buffer has room (R291). -/
def wayEmpty (s : State) (st : Stop) (place : Nat) : State :=
  if place < 32 then
    let n := coreNum st ⟨place / 16 % 2, by omega⟩
    let ls := s.cache.l2.filter fun e => decide (e.1 / 32768 = n) && decide (e.1 % 16 = place % 16)
    ls.foldl (fun s e => l2Leave s (homeOf s (64 * e.2.1)) n e.2.1) s
  else if place < 48 then
    let n := coreNum st ⟨place / 8 % 2, by omega⟩
    { s with cache := { s.cache with
        l1 := s.cache.l1.filter fun e => !(decide (e.1 / 1024 = 2 * n + 1) && decide (e.1 % 8 = place % 8)) } }
  else
    let sl := sliceGet s st
    let mine := fun e : Nat × Option L3Line => decide (e.1 % 12 = place - 48)
    let dirty := fun e : Nat × Option L3Line => match e.2 with
      | some l => l.dirty && !l2Owned s l.line
      | none => false
    let go := (sl.arr.filter fun e => mine e && dirty e).take (32 - sl.evb.length)
    let out := go.filterMap fun e => e.2.map fun l => (⟨l.line, false, []⟩ : EvbEnt)
    slicePut s st { sl with arr := sl.arr.filter (fun e => !mine e || (dirty e && !go.contains e)), evb := sl.evb ++ out }

/-- WAY_DISABLE_DONE (R295). A disabling way is empty and is marked failed; a slice with no cache way left sets NOCACHE (R298). A slice's
way that still holds dirty lines goes on. -/
def execWayDisableDone (st : Stop) (place : Nat) (s : State) : Host.Outcome State Fault Refusal :=
  if !setHas s.cache.disab (disKey st place) then .next s
  else
    let s1 := wayEmpty s st place
    if decide (48 ≤ place) && (sliceGet s1 st).arr.any fun e => decide (e.1 % 12 = place - 48) then .next s1
    else
    let s2 := { s1 with cache := { s1.cache with disab := setDel s1.cache.disab (disKey st place) } }
    if place < 48 then
      let c := if place < 32 then place / 16 % 2 else place / 8 % 2
      let blk := 3 + c
      let more := s2.cache.disab.any fun k => decide (k / 64 = stopIdx st) &&
        decide (k % 64 < 48) && decide ((if k % 64 < 32 then k % 64 / 16 % 2 else k % 64 / 8 % 2) = c)
      let s3 := if place < 32 then rsetB s2 st blk L2_WAY_FAILED (place % 16) true else rsetB s2 st blk L1D_WAY_FAILED (place % 8) true
      let s4 := rsetB (rsetB s3 st blk L2_STAT 1 more) st blk L2_STAT 2 true
      let synd := if place < 32 then place % 16 else 2 ^ 31 + place % 8
      .next (reportErr s4 st (0x2005 + 0x100 * c) 0 none synd)
    else
      let more := s2.cache.disab.any fun k => decide (k / 64 = stopIdx st) && decide (48 ≤ k % 64)
      let s3 := rsetB s2 st 5 L3_WAY_FAILED (place - 48) true
      let s4 := rsetB (rsetB s3 st 5 L3_STAT 2 more) st 5 L3_STAT 5 true
      let s5 := rsetB s4 st 5 L3_STAT 3 (l3Ways s4 st).isEmpty
      .next (reportErr s5 st 0x3005 0 none (place - 48))

/-- Ways re-enabled by a write (R296): they start empty with WIN cleared. -/
def reenable (s : State) (st : Stop) (blk failed cnt n v : Nat) : State :=
  (List.range n).foldl (fun s w =>
    if bit v w && rbit s st blk failed w then rputF (rsetB s st blk failed w false) st blk (cnt + 4 * w) 0 16 0 else s) s

/-- L3 ways re-enabled; NOCACHE follows (R296, R298). -/
def reenableL3 (s : State) (st : Stop) (v : Nat) : State :=
  let s1 := reenable s st 5 L3_WAY_FAILED L3_WAY_CECNT 12 v
  rsetB s1 st 5 L3_STAT 3 (l3Ways s1 st).isEmpty

/-- WIN counts of some ways cleared (R294). -/
def winClear (s : State) (st : Stop) (blk cnt n : Nat) : State :=
  (List.range n).foldl (fun s w => rputF s st blk (cnt + 4 * w) 0 16 0) s

/-! ## Draining (R299 to R304) -/

/-- A write of EN of an L2 block (R299, R302). -/
def l2En (s : State) (st : Stop) (c : Fin 2) (on : Bool) : State :=
  let was := rbit s st (l2Blk c) BLOCK_CTL 0
  let s1 := rsetB s st (l2Blk c) BLOCK_CTL 0 on
  if was && !on then rsetB s1 st (l2Blk c) L2_STAT 0 true else s1

/-- L2_DRAIN_DONE (R299). The core's caches are empty and DRAINING clears. -/
def execL2DrainDone (st : Stop) (c : Fin 2) (s : State) : Host.Outcome State Fault Refusal :=
  if stopKind st = .tile ∧ rbit s st (l2Blk c) L2_STAT 0 = true then
    .next (rsetB (l2Empty s (coreNum st c)) st (l2Blk c) L2_STAT 0 false)
  else .next s

/-- A write of EN of the slice block (R300): the pack buffer is freed and the slice drains. -/
def l3En (s : State) (st : Stop) (on : Bool) : State :=
  let was := rbit s st 5 BLOCK_CTL 0
  let s1 := rsetB s st 5 BLOCK_CTL 0 on
  if was && !on then
    sliceMod (rsetB s1 st 5 L3_STAT 0 true) st fun sl => { sl with pack := [], pref := [] }
  else s1

/-- A slice writes back and drops every line of its cache ways; requests that waited are served from memory. -/
def l3Empty (s : State) (st : Stop) : State :=
  let sl := sliceGet s st
  let s1 := slicePut s st { sl with arr := [], evb := [], fills := [], pack := [], pref := [] }
  (sl.evb.flatMap fun e => e.waiting.map fun x => (e.line, x)).foldl (fun s e => doRequest s st e.2.1 e.2.2.1 e.1 e.2.2.2 true) s1

/-- L3_DRAIN_DONE (R300). The slice's cache ways and eviction buffer are empty; a slice that retires is then retired and its domain
powered down (R311). -/
def execL3DrainDone (st : Stop) (s : State) : Host.Outcome State Fault Refusal :=
  if stopKind st ≠ .tile ∨ rbit s st 5 L3_STAT 0 = false then .next s
  else
    let s1 := rsetB (l3Empty s st) st 5 L3_STAT 0 false
    if setHas s1.cache.retiring (stopIdx st) then
      let s2 := l3Empty (sfEmpty s1 st) st
      let s3 := { s2 with cache := { s2.cache with retiring := setDel s2.cache.retiring (stopIdx st) }
                          pkg := { s2.pkg with retired := setAdd s2.pkg.retired (stopIdx st) } }
      .next (domOff (rsetB s3 st 5 L3_STAT 4 true) st 2)
    else .next s1

/-- Whether a slice can be retired: no depot way, no enabled queue, not the last live slice of its section (R311). -/
def mayRetire (s : State) (st : Stop) : Bool :=
  decide (stopKind st = .tile) && decide (depotMask s st = 0) && decide (rget s st 5 L3_DEPOT = 0) &&
  !(s.wb.enabled.any fun k => decide (k / 128 = stopIdx st)) &&
  decide (2 ≤ (allTiles.filter fun t => decide (stackOf t = stackOf st) && !setHas s.pkg.retired (stopIdx t)).length)

/-- Retirement begins: the slice enters drain state and answers new requests with Retry (R311, steps 1 and 2). -/
def retireSlice (s : State) (st : Stop) : State :=
  let s1 := l3En (rsetB s st 5 BLOCK_CTL 0 true) st false
  { s1 with cache := { s1.cache with retiring := setAdd s1.cache.retiring (stopIdx st) } }

/-! ## Depot conversion (R306, R307) -/

/-- A write of L3_DEPOT: a normal-world write leaves the bits of secure ways (R309); a write that would convert a failed way or
return one that holds an enabled queue changes nothing and sets CFGERR (R306). -/
def depotWrite (s : State) (w : World) (st : Stop) (v : Nat) : State :=
  let old := rget s st 5 L3_DEPOT
  let keep := fun i => decide (w = .normal) && secWay s st i
  let new := ((List.range 8).map fun i =>
    let k := 4 + i
    (if (if keep k then getB old k else bit v k) then 2 ^ k else 0)).sum
  let queueIn := fun k => s.wb.enabled.any fun e =>
    decide (e / 128 = stopIdx st) && decide (wbqFld s st (e % 128) WBQ_CFG 7 1 = 0) &&
    decide (wbqRing s st (e % 128) < depotBase (pkgNum s) st + 0x40000 * (k - 3)) &&
    decide (depotBase (pkgNum s) st + 0x40000 * (k - 4) < wbqRing s st (e % 128) + wbqDepth s st (e % 128) * wbqSize s st (e % 128))
  let bad := (List.range 8).any fun i =>
    let k := 4 + i
    (bit new k && !getB old k && rbit s st 5 L3_WAY_FAILED k) || (!bit new k && getB old k && queueIn k)
  if bad then rsetB s st 5 BLOCK_STAT 0 true
  else rsetB (rput s st 5 L3_DEPOT (BitVec.ofNat 32 new)) st 5 L3_STAT 1 true

/-- A slice's conversion takes effect: new ways are filled with zeros, returned ones are forgotten. -/
def depotApply (s : State) (st : Stop) : State :=
  let new := (rget s st 5 L3_DEPOT).toNat
  let old := depotMask s st
  let s1 := (List.range 8).foldl (fun s i =>
    if bit new (4 + i) ≠ bit old (4 + i) then memZero s (depotBase (pkgNum s) st + 0x40000 * i) 0x40000 else s) s
  { s1 with pkg := { s1.pkg with depot := mapSet (fun _ => 0) s1.pkg.depot (stopIdx st) new } }

/-- CONVERT_DONE (R307). A depot conversion completes and CONVERTING clears. -/
def execConvertDone (st : Stop) (s : State) : Host.Outcome State Fault Refusal :=
  if rbit s st 5 L3_STAT 1 then .next (rsetB (depotApply s st) st 5 L3_STAT 1 false) else .next s

/-! ## The rows -/

/-- READ_SHARED (R282). A shared copy of a line from its home. -/
def execReadShared (a : Agent) (line : Nat) (nt demand : Bool) (s : State) : Host.Outcome State Fault Refusal :=
  .next (request s 1 a line nt demand).1

/-- READ_OWN (R279). An exclusive modified copy of a line. -/
def execReadOwn (a : Agent) (line : Nat) (nt : Bool) (s : State) : Host.Outcome State Fault Refusal :=
  .next (request s 2 a line nt true).1

/-- UPGRADE (R279). A held S or O line becomes M; a core that no longer holds it has nothing to upgrade. -/
def execUpgrade (a : Agent) (line : Nat) (s : State) : Host.Outcome State Fault Refusal :=
  let held := match a with
    | .core n => (match l2Find s n.val line with | some (_, v) => decide (v = l2S ∨ v = l2O) | none => false)
    | _ => true
  .next (if held then (request s 3 a line false true).1 else s)

/-- READ_ONCE (R279). An uncached read performed at the home. -/
def execReadOnce (a : Agent) (line : Nat) (s : State) : Host.Outcome State Fault Refusal := .next (request s 4 a line false true).1

/-- Whose own copies and reservation a WriteOnce leaves: those of an Outrider that writes (R383, R389). -/
def agentHart (a : Agent) : Option Hart := match a with | .courier h => some h | _ => none

/-- WRITE_ONCE (R279). An uncached write performed at the home, within one line. -/
def execWriteOnce (a : Agent) (pa : Nat) (data : List Byte) (s : State) : Host.Outcome State Fault Refusal :=
  if data = [] ∨ pa / 64 ≠ (pa + data.length - 1) / 64 then .next s
  else
    match homeOf s pa with
    | none =>
      match paTarget s pa with
      | .remoteMem p => .next (sendWait s none 5 (pkgLocus p) pa 0 data)
      | _ => .next s
    | some _ =>
      let r := request s 5 a (pa / 64) false true
      .next (if r.2 then answerPkg (agentWrite r.1 (agentHart a) pa data) a (pa / 64) none else r.1)

/-- WRITE_BACK (R279). A dirty line is evicted to its home; another package's carries the line's bytes. -/
def execWriteBack (a : Agent) (line : Nat) (data : List Byte) (s : State) : Host.Outcome State Fault Refusal :=
  match a with
  | .core n =>
    match l2Find s n.val line with
    | some (_, v) =>
      if v < 3 then .next s
      else
        match homeOf s (64 * line) with
        | some st => .next (l2Leave (countScope s st 5 1 (some (agentWorld s a))) (some st) n.val line)
        | none => .next (l2Leave s none n.val line)
    | none =>
      match paTarget s (64 * line) with
      | .remoteMem p =>
        if s.link.held.any fun l => decide (l.1 = line ∧ 2 ≤ l.2) then
          let s1 := { s with link := { s.link with held := s.link.held.filter fun l => l.1 ≠ line } }
          .next (sendWait s1 none 6 (pkgLocus p) (64 * line) 0 (memRead s (64 * line) 64))
        else .next s
      | _ => .next s
  | .pkg p _ =>
    match homeOf s (64 * line) with
    | some st =>
      let s0 := lend (countScope s st 5 1 (some .normal)) line p.val none
      let s1 := sfPkg s0 st .normal line p.val false
      .next (answerPkg (l3Fill (agentWrite (packFree s1 st line) none (64 * line) (data.take 64)) st line true 1) a line none)
    | none => .next s
  | _ => .next s

/-- NOTIFY (R279). A clean line is evicted; its home is told. -/
def execNotify (a : Agent) (line : Nat) (s : State) : Host.Outcome State Fault Refusal :=
  match a with
  | .core n =>
    match l2Find s n.val line with
    | some (_, v) =>
      if 3 ≤ v then .next s
      else
        match homeOf s (64 * line) with
        | some st => .next (l2Leave (countScope s st 6 1 (some (agentWorld s a))) (some st) n.val line)
        | none => .next (l2Leave s none n.val line)
    | none =>
      match paTarget s (64 * line) with
      | .remoteMem p =>
        if s.link.held.any fun l => decide (l.1 = line ∧ l.2 < 2) then
          let s1 := { s with link := { s.link with held := s.link.held.filter fun l => l.1 ≠ line } }
          .next (sendWait s1 none 7 (pkgLocus p) (64 * line) 0 [])
        else .next s
      | _ => .next s
  | .pkg p _ =>
    match homeOf s (64 * line) with
    | some st =>
      let s1 := lend (countScope s st 6 1 (some .normal)) line p.val none
      .next (answerPkg (sfPkg s1 st .normal line p.val false) a line none)
    | none => .next s
  | _ => .next s

/-- MEMORY_ACK (R292). The write is in the channel controller's queue, which it enters once there is room: the entry is freed, a waiting
fill enters the array, and requests that waited read from memory. -/
def execMemoryAck (st : Stop) (line : Nat) (s : State) : Host.Outcome State Fault Refusal :=
  match (sliceGet s st).evb.find? fun e => e.line = line with
  | none => .next s
  | some e =>
    let s := if e.issued then mcAccept s line else s
    if !e.issued || mcWaits s line then .next s
    else
      let sl := sliceGet s st
      let s1 := slicePut s st { sl with evb := sl.evb.filter fun x => x.line ≠ line, fills := sl.fills.drop 1 }
      let s2 := match sl.fills with
        | (l, d, a) :: _ => l3Fill s1 st l d a
        | [] => s1
      .next (e.waiting.foldl (fun s x => doRequest s st x.1 x.2.1 line x.2.2 true) s2)

/-- The slice cycle in which the timer of a pack entry made now reaches zero (Table 8-5): slice cycles are those of the 2.0 GHz mesh clock,
20 to a tick of the timebase. -/
def packEnd (s : State) (st : Stop) : Nat := 20 * tbNow s + rfld s st 5 L3_CTL 8 8 * 512

/-- PACK_EN of a slice cleared: every pack entry is freed, and prefetches on their way make none (Table 8-5). -/
def packOff (s : State) (st : Stop) (v : Reg32) : State :=
  if getB v 1 then s else sliceMod s st fun sl => { sl with pack := [], pref := [] }

/-- PACK_FILL (R290). Prefetch data returns into the pack buffer; poisoned data makes no entry. -/
def execPackFill (st : Stop) (line : Nat) (s : State) : Host.Outcome State Fault Refusal :=
  let sl := sliceGet s st
  if !sl.pref.contains line then .next s
  else
    let sl1 := { sl with pref := setDel sl.pref line }
    if poisoned s (64 * line) 64 then .next (countScope (slicePut s st sl1) st 0x13 1 (some .normal))
    else
      let e := (line, packEnd s st)
      let low := (sl1.pack.map fun x => x.2).foldl min (2 ^ 80)
      let pack := if sl1.pack.length < 16 then sl1.pack
        else match sl1.pack.find? fun x => x.2 = low with
          | some x => sl1.pack.erase x
          | none => sl1.pack
      .next (slicePut s st { sl1 with pack := pack ++ [e] })

/-- PACK_EXPIRE (R290). A pack entry's timer reaches zero and it is freed. -/
def execPackExpire (st : Stop) (line : Nat) (s : State) : Host.Outcome State Fault Refusal :=
  if (sliceGet s st).pack.any fun e => decide (e.1 = line) then
    .next (countScope (sliceMod s st fun sl => { sl with pack := sl.pack.filter fun e => e.1 ≠ line }) st 0x12 1 (some .normal))
  else .next s

/-- STREAM_EXPIRE (R288). A stream with no miss for 4,096 cycles is dropped. -/
def execStreamExpire (st : Stop) (page : Nat) (s : State) : Host.Outcome State Fault Refusal :=
  .next (sliceMod s st fun sl => { sl with streams := sl.streams.filter fun e => e.page ≠ page })

/-- RETRY (R311). A request at a retiring slice is answered with Retry. -/
def execRetry (op : Nat) (a : Agent) (line : Nat) (s : State) : Host.Outcome State Fault Refusal :=
  match homeOf s (64 * line) with
  | some st =>
    if setHas s.cache.retiring (stopIdx st) then
      let s1 := countScope s st 0x1C 1 (some (agentWorld s a))
      match a with
      | .pkg p tag => .next (sendMsg s1 0x32 (pkgLocus p.val) tag (64 * line) 0 [])
      | _ => .next { s1 with cache := { s1.cache with retries := s1.cache.retries ++ [(op, a, line)] } }
    else .next s
  | none => .next s

/-- RETRY_REISSUE (R311). A retried request is issued again, its home computed afresh. -/
def execRetryReissue (op : Nat) (a : Agent) (line : Nat) (s : State) : Host.Outcome State Fault Refusal :=
  if s.cache.retries.contains (op, a, line) then
    let s1 := { s with cache := { s.cache with retries := s.cache.retries.erase (op, a, line) } }
    .next (request s1 op a line false true).1
  else .next s

end Sys2Proof.Machine
end

