-- ==== Sys2Proof/Machine/Mesh.lean ====
section
/-!
DEFINITION. Mesh links and Ford pairs: replays, dead links, drops and revival (R319 to R325).
-/

namespace Sys2Proof.Machine

/-- The state with that field replaced. -/
def setLinkState (s : State) (l : NetLink) (v : Nat) : State :=
  match l with
  | .mesh st d => rputF s st 0 RT_LINK_STAT (2 * d.val) 2 v
  | .ford die k => rputF s (fordStop die k) 1 FORD_STAT 0 2 v

/-- The state with DEAD_EVT of a link end set. -/
def setDeadEvt (s : State) : NetLink → State
  | .mesh st d => rsetB s st 0 RT_LINK_STAT (8 + d.val) true
  | .ford die k => rsetB s (fordStop die k) 1 FORD_STAT 2 true

/-- Both ends of a link. -/
def linkEnds (l : NetLink) : List NetLink := l :: (linkPeer l).toList

/-- SUBST of every dead pair follows the live ones. -/
def fordSubsts (s : State) : State :=
  (List.finRange 2).foldl (fun s die => (List.finRange 4).foldl (fun s k =>
    if 2 ≤ linkState s (.ford die k) then
      match fordSubst s die k with
      | some j => rputF s (fordStop die k) 1 FORD_STAT 3 2 j.val
      | none => s
    else rputF s (fordStop die k) 1 FORD_STAT 3 2 0) s) s

/-- How many replays in a row have failed at a link end. -/
def linkFails (s : State) (l : NetLink) : Nat := mapGet (fun _ => 0) s.link.fails (linkKey l)

/-- The state with that number replaced. -/
def setLinkFails (s : State) (l : NetLink) (n : Nat) : State :=
  { s with link := { s.link with fails := mapSet (fun _ => 0) s.link.fails (linkKey l) n } }

/-- The two ends declare a link dead (R320, R325); each end's stop reports it (R342). -/
def linkDead (s : State) (l : NetLink) : State :=
  let s1 := (linkEnds l).foldl (fun s e =>
    let s1 := setLinkFails (setDeadEvt (setLinkState s e 2) e) e 0
    reportErr s1 (linkStop e) (match e with | .mesh _ _ => 0x0002 | .ford _ _ => 0x7002) tyLINK) s
  match l with
  | .ford _ _ => fordSubsts s1
  | .mesh _ _ => s1

/-- The CRC and replay counters of a link end, advanced by one each (R319, Tables 9-3 and 9-5). -/
def countReplay (s : State) : NetLink → State
  | .mesh st d => rsat (rsat s st 0 (RT_ERR + 4 * d.val) 0 16 1) st 0 (RT_ERR + 4 * d.val) 16 16 1
  | .ford die k => rsat (rsat s (fordStop die k) 2 FORD_ERR 0 16 1) (fordStop die k) 2 FORD_ERR 16 16 1

/-- FLIT_CRC_FAIL (R319, R325). A flit fails CRC at a link's receiving end, which asks for a replay; `good` says whether that replay
succeeds.  A replay that succeeds is a corrected error; the eighth failure in a row makes the link dead (R320). -/
def execFlitCrcFail (l : NetLink) (good : Bool) (s : State) : Host.Outcome State Fault Refusal :=
  if 2 ≤ linkState s l then .next s
  else
    let s1 := countReplay s l
    if good then
      .next (reportErr (setLinkFails (setLinkState s1 l 0) l 0) (linkStop l)
        (match l with | .mesh _ _ => 0x0001 | .ford _ _ => 0x7001) (tyCE ||| tyLINK))
    else
      let n := linkFails s1 l + 1
      if 8 ≤ n then .next (linkDead s1 l)
      else .next (setLinkFails (setLinkState s1 l 1) l n)

/-- ROUTE_DROP (R322). An escape-class packet whose next hop crosses a dead link is discarded and counted; a router with no dead link
discards none. -/
def execRouteDrop (st : Stop) (s : State) : Host.Outcome State Fault Refusal :=
  if (List.finRange 4).any fun d => decide (linkState s (.mesh st d) = 2) then
    .next (routeDrop s st)
  else .next s

/-- The links that are being retrained are named by their E or N end, a Ford pair by its end on die 0. -/
def trainKey (l : NetLink) : Nat := (linkEnds l).foldl (fun k e => min k (linkKey e)) (linkKey l)

/-- A dead link begins to be revived (R323): it is retrained.  A Ford pair reads 3 meanwhile (Table 9-5). -/
def reviveLink (s : State) (l : NetLink) : State :=
  if linkState s l ≠ 2 then s
  else
    let s1 := { s with link := { s.link with training := setAdd s.link.training (trainKey l) } }
    match l with
    | .ford _ _ => (linkEnds l).foldl (fun s e => setLinkState s e 3) s1
    | .mesh _ _ => s1

/-- LINK_RETRAINED (R323). A revived link finishes retraining and is up at both ends, or stays dead with DEAD_EVT set again. -/
def execLinkRetrained (l : NetLink) (ok : Bool) (s : State) : Host.Outcome State Fault Refusal :=
  if !setHas s.link.training (trainKey l) then .next s
  else
    let s1 := { s with link := { s.link with training := setDel s.link.training (trainKey l) } }
    let s2 := (linkEnds l).foldl (fun s e => if ok then setLinkState s e 0 else setDeadEvt (setLinkState s e 2) e) s1
    match l with
    | .ford _ _ => .next (fordSubsts s2)
    | .mesh _ _ => .next s2

end Sys2Proof.Machine
end

