-- ==== Sys2Proof/Machine/Timebase.lean ====
section
/-!
DEFINITION. The timebase and its discipline (R118 to R125).
-/

namespace Sys2Proof.Machine

/-- The timebase with a new value, which it takes only forward: it never decreases (R119).  DESIGN CHOICE (log entry 87): the spec does not
say what becomes of a value that has fallen behind when it is to be loaded; here the timebase goes on without it. -/
def tbSet (s : State) (v : Nat) : State := { s with tbase := { s.tbase with tb := BitVec.ofNat 64 (max v (tbNow s)) } }

/-- The timebase advances by one tick; a load due at that tick replaces it (R118, R125) where that is no step back (`tbSet`). -/
def tbTick (s : State) : State :=
  let n := s.tbase.tb + 1
  match s.tbase.load with
  | some (l, v) =>
    if l ≤ n.toNat then tbSet { s with tbase := { s.tbase with tb := n, load := none } } v
    else { s with tbase := { s.tbase with tb := n } }
  | none => { s with tbase := { s.tbase with tb := n } }

/-- The error of a capture: its remainder modulo 100,000,000 as a signed value (R124). -/
def ppsError (tb : Nat) : Int :=
  let r : Int := (tb % 100000000 : Nat)
  if r ≤ 50000000 then r else r - 100000000

/-- The rate correction after an edge: toward zero error, at most SLEW_PPM; its size is a free value (R124, log entry 1). -/
def ppsCorr (e : Int) (slew free : Nat) : Int :=
  let m : Int := (free % (slew + 1) : Nat)
  if e < 0 then m else if e = 0 then 0 else -m

/-- An accepted PPS edge (R124): the capture and its error, then a forward step or a change of rate; LOCKED follows the last 8
edges. -/
def ppsEdge (s : State) : State :=
  let w := wsStop 0
  let tb := tbNow s
  let e := ppsError tb
  let s1 := rput64 s w 13 TB_PPS_LO tb
  let s2 := rput s1 w 13 TB_ERR (BitVec.ofInt 32 e)
  let good := if e.natAbs ≤ 2 then min 8 (s.tbase.good + 1) else 0
  let s3 := rsetB (rsetB s2 w 13 TB_STAT 0 true) w 13 TB_STAT 1 (decide (8 ≤ good))
  let s4 := { s3 with tbase := { s3.tbase with good := good, seen := true } }
  if e < -1000 ∧ rbit s w 13 TB_CTL 2 = true then
    rsetB { s4 with tbase := { s4.tbase with tb := s4.tbase.tb + BitVec.ofInt 64 (-e) } } w 13 TB_STAT 3 true
  else
    let c := ppsCorr e (rfld s w 13 TB_CTL 8 8) (freeVal s).toNat
    useFree { s4 with tbase := { s4.tbase with corr := c } }

/-- PPS_EDGE (R124). An edge of the PPS_IN land, accepted in package 0 with PPS_EN set and the edge PPS_EDGE selects, while the
package is in Run (R120, R123). -/
def execPpsEdge (falling : Bool) (s : State) : Host.Outcome State Fault Refusal :=
  if pkgNum s = 0 ∧ pkgState s = 0 ∧ rbit s (wsStop 0) 13 TB_CTL 0 = true ∧ rbit s (wsStop 0) 13 TB_CTL 1 = falling then
    .next (ppsEdge s)
  else .next s

/-- PPS_LOST (R124, Table 3-15). No edge came for 1.5 s after one was accepted; the last rate correction is held. -/
def execPpsLost (s : State) : Host.Outcome State Fault Refusal :=
  if pkgNum s = 0 ∧ rbit s (wsStop 0) 13 TB_CTL 0 = true ∧ s.tbase.seen = true then
    .next (rsetB { s with tbase := { s.tbase with seen := false } } (wsStop 0) 13 TB_STAT 2 true)
  else .next s

/-- The discipline after Camp or Dormant, in which it was suspended: LOCKED reads 0 and edges count anew (R120). -/
def ppsResume (s : State) : State :=
  rsetB { s with tbase := { s.tbase with good := 0, seen := false } } (wsStop 0) 13 TB_STAT 1 false

/-- TB_LOAD (R125). The load tick has come: the new value replaces the timebase. -/
def execTbLoad (s : State) : Host.Outcome State Fault Refusal :=
  match s.tbase.load with
  | some (l, _) => if l ≤ tbNow s + 1 then .next (tbTick s) else .next s
  | none => .next s

end Sys2Proof.Machine
end

