-- ==== Sys2Proof/Machine/Caravan.lean ====
section
/-!
DEFINITION. Caravan links: training, flits and acknowledgements, death and relay, node formation, and the messages that complete line
requests and snoops (R326 to R342).
-/

namespace Sys2Proof.Machine

/-! ## Relays and death -/

/-- Numbers of what a port sends beside the messages of Table 9-9: control flits by 0x100 + CTYPE, NAK, and an acknowledgement. -/
def cfIDENT : Nat := 0x101
def cfTBSYNC : Nat := 0x102
def cfDEADNOTE : Nat := 0x103
def cfNAK : Nat := 0x140
def cfACK : Nat := 0x141

/-- The state with a control flit, or the acknowledgement fields of a flit, sent by a port. -/
def cvControl (s : State) (n : Fin 12) (op addr arg : Nat) : State :=
  let c := cvGet s n.val
  let s1 := if op < cfNAK then cvPut s n.val { c with tx := (c.tx + 1) % 1024, buf := c.buf ++ [c.tx] } else s
  { s1 with link := { s1.link with sent := s1.link.sent ++ [⟨op, pkgLocus (cvPartner s n), n.val, addr, arg, [], none⟩] } }

/-- The dead Caravan partners of this package, as bits: those it has a Caravan port for and no live link to. -/
def deadMap (s : State) : Nat :=
  (List.range 4).foldl (fun m p =>
    if (cvPorts s).any (fun n => decide (cvPartner s n = p ∧ cvState s n = 4)) && (cvDirect s p).isNone then m + 2 ^ p else m) 0

/-- Whether a link to `q` beside that of port `n` lives. -/
def otherLink (s : State) (n : Fin 12) : Bool :=
  (cvPorts s).any fun k => decide (k ≠ n) && decide (cvPartner s k = cvPartner s n) && decide (cvState s k = 2)

/-- CV_RELAY of a port (R336): the other link of the pair or a third package carries a dead link's traffic. -/
def relayWord (s : State) (n : Fin 12) : Reg32 :=
  if cvState s n ≠ 4 then 0
  else if otherLink s n then BitVec.ofNat 32 (cvPartner s n + 4)
  else match relayFor s (cvPartner s n) with
    | some r => BitVec.ofNat 32 (r + 4)
    | none => 0

/-- CV_RELAY of every port follows the live links; a relay that begins is reported, and messages that waited are sent (R336). -/
def relayUpdate (s : State) : State :=
  pump ((cvPorts s).foldl (fun s n =>
    let v := relayWord s n
    let old := rget s (portStop n) cvBlk CV_RELAY
    let s1 := rput s (portStop n) cvBlk CV_RELAY v
    if getB v 2 && !getB old 2 then reportErr s1 (portStop n) 0x6209 tyLINK else s1) s)

/-- A link dies (R330, R336): it is reported, every live partner is told, and traffic takes the relay. What its replay buffer held is
re-sent over the relay. -/
def cvDead (s : State) (n : Fin 12) : State :=
  let s1 := cvStatPut (cvStatPut (cvStatPut s n 0 3 4) n 3 2 3) n 8 1 1
  let s2 := cvPut s1 n.val { CvLink.initial with trains := [] }
  let s3 := reportErr s2 (portStop n) 0x6208 tyLINK
  let m := deadMap s3
  let s4 := (cvPorts s3).foldl (fun s k => if cvState s k = 2 then cvControl s k cfDEADNOTE 0 m else s) s3
  relayUpdate s4

/-- A link enters RETRAIN (R330): the third within 10 ms makes it dead. -/
def cvRetrain (s : State) (n : Fin 12) : State :=
  let c := cvGet s n.val
  let t := c.trains.filter fun x => decide (tbNow s < x + 1000000)
  let s1 := rput s (portStop n) cvBlk CV_RETRAIN_CNT
    (BitVec.ofNat 32 (satAdd 32 (rget s (portStop n) cvBlk CV_RETRAIN_CNT).toNat 1))
  let s2 := cvStatPut s1 n 7 1 1
  let s3 := cvPut s2 n.val { c with trains := t ++ [tbNow s], fails := 0, lastNak := none }
  if 3 ≤ t.length + 1 then cvDead s3 n else cvStatPut s3 n 0 3 3

/-- A dead or down link begins to train (R327). -/
def cvTrain (s : State) (n : Fin 12) : State :=
  cvPut (cvStatPut s n 0 3 1) n.val CvLink.initial

/-! ## Training -/

/-- The widest width that working lanes support (R327): 0 x16, 1 x8, 2 x4. -/
def laneWidth (lanes : BitVec 16) : Option Nat :=
  let l := lanes.toNat
  if l = 0xFFFF then some 0
  else if bits l 0 8 = 0xFF ∨ bits l 8 8 = 0xFF then some 1
  else if bits l 0 4 = 0xF ∨ bits l 12 4 = 0xF then some 2
  else none

/-- CARAVAN_TRAINING_TIMEOUT (R327). A training state exceeds its limit: the link is dead. -/
def execCaravanTrainingTimeout (port : Fin 12) (s : State) : Host.Outcome State Fault Refusal :=
  if portProto s port.val = 2 ∧ (cvState s port = 1 ∨ cvState s port = 3) then .next (cvDead s port) else .next s

/-- IDENT (R335, step 2). The partner's number and die identifier; a number that is not the manifest's, or is this package's own, holds
the link down. -/
def execIdent (port : Fin 12) (pkg : Fin 4) (die : Word) (s : State) : Host.Outcome State Fault Refusal :=
  if portProto s port.val ≠ 2 ∨ cvState s port ≠ 1 then .next s
  else
    let s1 := rput64 (cvStatPut s port 5 2 pkg.val) (portStop port) cvBlk CV_PARTNER_LO die.toNat
    if pkg.val ≠ cvPartner s port ∨ pkg.val = pkgNum s then
      .next (cvStatPut (cvStatPut s1 port 0 3 5) port 9 1 1)
    else .next (cvPut s1 port.val { cvGet s1 port.val with ident := true })

/-- The packages reached directly or by relay, this one among them (R335, step 4). -/
def reached (s : State) : Nat :=
  (List.range 4).foldl (fun m p => if p = pkgNum s ∨ (cvRoute { s with pkg := { s.pkg with members := 15 } } p).isSome then m + 2 ^ p else m) 0

/-- Node formation ends (R335, steps 4 and 5): PKG_PRESENT is what is reached, and package 0 sends its timebase on every link. -/
def formNode (s : State) : State :=
  let s1 := { s with pkg := { s.pkg with members := reached s }, link := { s.link with forming := false } }
  if pkgNum s = 0 then
    (cvPorts s1).foldl (fun s n => if cvState s n = 2 then cvControl s n cfTBSYNC (tbNow s) 0 else s) s1
  else s1

/-- Whether every expected partner link is active (R335, step 3). -/
def nodeComplete (s : State) : Bool := (cvPorts s).all fun n => decide (cvState s n = 2)

/-! ## Flits (R328 to R331) -/

/-- The replay buffer after everything up to `ack` is acknowledged. -/
def ackBuf (buf : List Nat) (ack : Nat) : List Nat :=
  if buf.contains ack then (buf.dropWhile fun x => x ≠ ack).drop 1 else buf

/-- The link after an acknowledgement: progress ends a run of failed replays, and a replay that succeeded is a corrected error. -/
def cvAcked (s : State) (n : Fin 12) (ack : Nat) : State :=
  let c := cvGet s n.val
  if c.buf.contains ack then
    let s1 := cvPut s n.val { c with buf := ackBuf c.buf ack, fails := 0, lastNak := none }
    pump (if c.lastNak.isSome then reportErr s1 (portStop n) 0x6207 (tyCE ||| tyLINK) else s1)
  else s

/-- The link after an acknowledgement is sent. -/
def cvAck (s : State) (n : Fin 12) : State :=
  let c := cvGet s n.val
  cvControl (cvPut s n.val { c with unacked := 0 }) n cfACK 0 c.rx

/-- CARAVAN_FLIT (R329 to R331). A flit arrives: the FEC has corrected `fec` symbols; `crc` says whether its CRC holds then.  A bad one is
answered with NAK and everything is discarded up to the replay; a good one returns credits, acknowledges, and, in order, is
received: an acknowledgement goes out at least once in 64 flits. `idle` flits carry no new SEQ. -/
def execCaravanFlit (port : Fin 12) (fec : Nat) (crc idle : Bool) (seq : BitVec 10) (ackv : Bool) (ackseq : BitVec 10)
    (crvc : Fin 8) (crn : BitVec 9) (s : State) : Host.Outcome State Fault Refusal :=
  if portProto s port.val ≠ 2 ∨ cvState s port ≠ 2 then .next s
  else
    let st := portStop port
    let s1 := rput s st cvBlk CV_FEC_CNT (BitVec.ofNat 32 (satAdd 32 (rget s st cvBlk CV_FEC_CNT).toNat fec))
    if !crc then
      let s2 := rput s1 st cvBlk CV_CRC_CNT (BitVec.ofNat 32 (satAdd 32 (rget s1 st cvBlk CV_CRC_CNT).toNat 1))
      let c := cvGet s2 port.val
      .next (if c.nak then s2 else cvControl (cvPut s2 port.val { c with nak := true }) port cfNAK 0 c.rx)
    else
      let c := cvGet s1 port.val
      let u := mapGet (fun _ => 0) c.used crvc.val
      let s2 := cvPut s1 port.val { c with used := mapSet (fun _ => 0) c.used crvc.val (u - crn.toNat) }
      let s3 := if ackv then cvAcked s2 port ackseq.toNat else pump s2
      let c3 := cvGet s3 port.val
      if idle ∨ seq.toNat ≠ (c3.rx + 1) % 1024 then .next s3
      else
        let s4 := cvPut s3 port.val { c3 with rx := seq.toNat, nak := false, unacked := c3.unacked + 1 }
        .next (if 64 ≤ c3.unacked + 1 then cvAck s4 port else s4)

/-- NAK (R330). The partner's last good flit is ACKSEQ: every later flit is replayed.  When replays of one flit fail 8 times in a row,
the link enters RETRAIN. -/
def execNak (port : Fin 12) (ackseq : BitVec 10) (s : State) : Host.Outcome State Fault Refusal :=
  if portProto s port.val ≠ 2 ∨ cvState s port ≠ 2 then .next s
  else
    let st := portStop port
    let s1 := cvAcked s port ackseq.toNat
    let s2 := rput s1 st cvBlk CV_REPLAY_CNT (BitVec.ofNat 32 (satAdd 32 (rget s1 st cvBlk CV_REPLAY_CNT).toNat 1))
    let c := cvGet s2 port.val
    let n := if c.lastNak = some ackseq.toNat then c.fails + 1 else 0
    let s3 := cvPut s2 port.val { c with lastNak := some ackseq.toNat, fails := n }
    .next (if 8 ≤ n then cvRetrain s3 port else s3)

/-- ACK_TIMER (R330). A microsecond has passed: the latest good flit is acknowledged. -/
def execAckTimer (port : Fin 12) (s : State) : Host.Outcome State Fault Refusal :=
  if portProto s port.val = 2 ∧ cvState s port = 2 then .next (cvAck s port) else .next s

/-- DEADNOTE (R336). A partner's dead partners; relays follow. -/
def execDeadnote (port : Fin 12) (map : BitVec 4) (s : State) : Host.Outcome State Fault Refusal :=
  if portProto s port.val ≠ 2 ∨ cvState s port ≠ 2 then .next s
  else
    .next (relayUpdate { s with link := { s.link with
      deadOf := mapSet (fun _ => 0) s.link.deadOf (cvPartner s port) map.toNat } })

/-! ## Timebase (R125) -/

/-- The members that package 0 reaches only through this package (R336). -/
def relayedFrom0 (s : State) : List Nat :=
  (List.range 4).filter fun q =>
    decide (q ≠ 0 ∧ q ≠ pkgNum s) && bit s.pkg.members q && bit (deadOf s 0) q && (cvDirect s q).isSome &&
    (List.range (pkgNum s)).all fun r => decide (r = 0 ∨ r = q) || bit (deadOf s r) 0 || bit (deadOf s r) q

/-- TBSYNC (R333). The timebase value of package 0, to be loaded at once or at a tick; it is forwarded to members that package 0
reaches only by relay. -/
def execTbsync (port : Fin 12) (value : Word) (at_ : Word) (s : State) : Host.Outcome State Fault Refusal :=
  if portProto s port.val ≠ 2 ∨ cvState s port ≠ 2 ∨ pkgNum s = 0 then .next s
  else
    let s1 := (relayedFrom0 s).foldl (fun s q => match cvDirect s q with
      | some n => cvControl s n cfTBSYNC value.toNat at_.toNat
      | none => s) s
    if at_ = 0 then .next (tbSet s1 value.toNat)
    else .next { s1 with tbase := { s1.tbase with load := some (at_.toNat, value.toNat) } }

/-- A COMMIT of block 13 (R125): the new value of the timebase, or none where the consistency check fails. Package 0 of a node chooses a
tick at least 400 ahead (the excess is a free value) and sends both on every live link. -/
def tbCommit (s : State) (v : Nat) : Option State :=
  if v < tbNow s then none
  else if s.pkg.members = 2 ^ pkgNum s ∨ s.pkg.members = 0 then
    some { s with tbase := { s.tbase with load := some (tbNow s + 1, v) } }
  else if pkgNum s ≠ 0 then none
  else
    let l := tbNow s + 400 + (freeVal s).toNat % 2 ^ 20
    let s1 := { useFree s with tbase := { s.tbase with load := some (l, v) } }
    some ((cvPorts s1).foldl (fun s n => if cvState s n = 2 then cvControl s n cfTBSYNC v l else s) s1)

/-! ## Answers and snoops -/

/-- The waiting message that an answer from package `p` with a tag completes. -/
def waitingFor (s : State) (p tag : Nat) : Option (NodeMsg × Option Hart) :=
  s.link.waiting.find? fun m => decide (m.1.tag = tag ∧ m.1.dst / 16384 = p)

/-- The state with that message no longer waiting, and the inbound request that it carried performed. -/
def unwait (s : State) (p tag : Nat) : State :=
  { s with
    link := { s.link with waiting := s.link.waiting.filter fun m => !decide (m.1.tag = tag ∧ m.1.dst / 16384 = p) }
    io := { s.io with inq := s.io.inq.filter fun r => decide (r.sent ≠ some (p, tag)) } }

/-- The state with this package holding a line of another package in a state of Table 9-9, or no longer. -/
def hold (s : State) (line : Nat) (v : Option Nat) : State :=
  let l := s.link.held.filter fun e => e.1 ≠ line
  { s with link := { s.link with held := match v with | some k => l ++ [(line, k)] | none => l } }

/-- A write is acknowledged: an Upgrade gives the line exclusively, a WriteOnce of an Outrider's store frees its entry (R279, R379). -/
def ackDone (s : State) (m : NodeMsg) (who : Option Hart) : State :=
  match who with
  | some h =>
    if m.op = 3 then hold s (m.addr / 64) (some 2)
    else if m.op = 5 then
      match (tget s h).stores with
      | e :: r => if e.pa = m.addr then agentWrite (tmod s h fun t => { t with stores := r }) (some h) e.pa e.bytes else s
      | [] => s
    else s
  | none => s

/-- A line that arrives: its bytes and the marks of its granules. -/
def landLine (s : State) (line : Nat) (data : List Byte) (poison : BitVec 8) : State :=
  (List.range 8).foldl (fun s i => if poison.getLsbD i then markPoison s (64 * line + 8 * i) else s)
    (memStore s (64 * line) (data.take 64))

/-- Whether a snoop of a line waits: an AMO or STX of a locked pair has pinned it (R285, R472, R477). -/
def snoopWaits (s : State) (line : Nat) : Bool := s.lock.pins.any fun e => decide (e.2 = line)

/-- This package's cores after a snoop of a line of another package that they hold (R338): they lose it, or keep it in O or S;
the line caches of the Outriders lose it (R389). -/
def coresSnooped (s : State) (line : Nat) (inv : Bool) : State :=
  let s1 := (l2Holders s line).foldl (fun s e =>
    if inv then (match l2Find s e.1 line with | some (w, _) => proxyDrop (l2Lose s e.1 line w) line e.1 | none => s)
    else l2Move s e.1 line (if e.2 = l2M ∨ e.2 = l2O then l2O else l2S)) s
  if inv then proxyCourier s1 line
  else match proxyOf s (64 * line) with
    | some st => sfOwner s1 st line none
    | none => s1

/-- What this package answers to a snoop of a line it holds (R338): SnpData with the line where it is dirty, SnpAck otherwise, with the
state kept. -/
def snoopAnswer (s : State) (p tag line : Nat) (inv : Bool) : State :=
  match s.link.held.find? fun e => e.1 = line ∧ e.2 ≤ 3 with
  | none => sendMsg s 0x34 (pkgLocus p) tag (64 * line) 0 []
  | some (_, v) =>
    let dirty := decide (2 ≤ v)
    let keep := if v = 2 ∨ v = 3 then 3 else 0
    let s1 := coresSnooped (sendMsg s (if dirty then 0x33 else 0x34) (pkgLocus p) tag (64 * line) (if inv then 0 else keep)
      (if dirty then memRead s (64 * line) 64 else [])) line inv
    if inv then clearResv (hold s1 line none) none (64 * line) 64 else hold s1 line (some keep)

/-- A core of this package is snooped by a home of this package: SnpShared leaves O or S, SnpInv takes the line away and with it
reservations of the core's threads (R148, R282). -/
def snoopCore (s : State) (n : Fin 192) (line : Nat) (inv : Bool) : State :=
  match l2Find s n.val line with
  | none => s
  | some (_, v) =>
    if inv then l2Leave s (homeOf s (64 * line)) n.val line
    else if v = l2M then l2Move s n.val line l2O
    else if v = l2E then l2Move s n.val line l2S
    else s

/-- A snoop of a holder: a core, the line cache of an Outrider, or this package's proxy slice for another package's home (R338).  A pinned
line waits, and the snoop is given again. -/
def snoop (s : State) (a : Agent) (line : Nat) (inv : Bool) : State :=
  if snoopWaits s line then s
  else
    match a with
    | .core n => snoopCore s n line inv
    | .pkg p tag => snoopAnswer s p.val tag line inv
    | _ => s

/-- SNP_SHARED (R282). A holder is asked to share a line. -/
def execSnpShared (a : Agent) (line : Nat) (s : State) : Host.Outcome State Fault Refusal := .next (snoop s a line false)

/-- The answer of another package to a snoop: what it keeps of the line is recorded (R338). -/
def snoopDone (s : State) (p tag kept : Nat) (data : Option (List Byte)) : State :=
  match waitingFor s p tag with
  | some (m, _) =>
    if m.op = 0x20 ∨ m.op = 0x21 then
      let line := m.addr / 64
      let s1 := unwait s p tag
      let s2 := match data with
        | some d => memStore s1 (64 * line) (d.take 64)
        | none => s1
      if m.op = 0x21 then
        let s3 := lend s2 line p none
        match homeOf s3 (64 * line) with
        | some st => sfPkg s3 st .normal line p false
        | none => s3
      else lend s2 line p (some kept)
    else s
  | none => s

/-- SNP_DATA (R338). A snooped package answers with the line. -/
def execSnpData (p : Fin 4) (tag : Nat) (kept : Fin 4) (data : List Byte) (s : State) : Host.Outcome State Fault Refusal :=
  if data.length = 64 then .next (snoopDone s p.val tag kept.val (some data)) else .next s

/-- SNP_ACK (R338). A snooped package answers without data. -/
def execSnpAck (p : Fin 4) (tag : Nat) (kept : Fin 4) (s : State) : Host.Outcome State Fault Refusal :=
  .next (snoopDone s p.val tag kept.val none)

/-- INV_ACK (R339). Another package has acknowledged a TLB.INV broadcast. -/
def execInvAck (p : Fin 4) (tag : Nat) (s : State) : Host.Outcome State Fault Refusal :=
  match waitingFor s p.val tag with
  | some (m, _) =>
    if m.op = 0xC then .next (ackInv (unwait s p.val tag) (m.arg / 2 ^ 44) (1024 + p.val)) else .next s
  | none => .next s

/-! ## Commands -/

/-- A write of CV_CMD by a secure initiator (R341): RETRAIN of an active link, REVIVE of a dead one. -/
def cvCommand (s : State) (n : Fin 12) (v : Nat) : State :=
  let s1 := if bit v 0 && decide (cvState s n = 2) then cvRetrain s n else s
  if bit v 1 && decide (cvState s1 n = 4) then cvTrain s1 n else s1

end Sys2Proof.Machine
end

