-- ==== Sys2Proof/Machine/IntCtl.lean ====
section
/-!
DEFINITION. Setting and clearing interrupt sources, by number and by locus, and the tables' errors (R486 to R496, R504, R647).
-/

namespace Sys2Proof.Machine

/-- Whether a thread's page of its interrupt unit is inert (R505): pages 2 and 3 of a locked or degraded tile, every page in mode 3,
those of a fuse-absent core. -/
def pageInert (s : State) (h : Hart) : Bool :=
  match h with
  | .drover st c _ => decide (tileMode s st = 3) || (tileLocked s st && decide (c = 1)) || coreAbsent s st c
  | _ => false

/-- Whether a normal-world initiator may not touch a private source: its WORLD is 1 (R488). -/
def privSecret (s : State) (h : Hart) (w : World) (n : Nat) : Bool :=
  decide (w = .normal) && decide ((privLevel s h n).2 = .secure)

/-- INT_SET as an initiator of a world writes it (R488). -/
def intSet (s : State) (w : World) (h : Hart) (n : Nat) : State :=
  if pageInert s h || decide (n < 16) || decide (47 < n) || privSecret s h w n then s else privSet s h n

/-- INT_CLR as an initiator of a world writes it (R488). -/
def intClr (s : State) (w : World) (h : Hart) (n : Nat) : State :=
  if pageInert s h || privSecret s h w n || !privUsed s h n then s else privClear s h n

/-! ## Shared sources -/

/-- A set that is dropped (R493). -/
def badSet (s : State) (k : Nat) : State :=
  let p := shTable k
  let s1 := rput s p.1 p.2 SH_BADSET_CNT (BitVec.ofNat 32 (satAdd 32 (rget s p.1 p.2 SH_BADSET_CNT).toNat 1))
  reportErr (rsetB s1 p.1 p.2 SH_STAT 0 true) p.1 0xB102 tyPROTOCOL

/-- SH_SET of table `k` as a setter of a world writes it (R493); `port` marks an inbound write, whose port's world must be the
source's. -/
def shSet (s : State) (w : World) (port : Bool) (k i : Nat) : State :=
  if shSize k ≤ i then badSet s k
  else if shSecure s k i && decide (w = .normal) then badSet (violation s (stopLocus (pkgNum s) (shTable k).1) 4 0) k
  else if port && decide (shSecure s k i = false) && decide (w = .secure) then badSet s k
  else { s with intr := { s.intr with shPend := setAdd s.intr.shPend (k * 512 + i) } }

/-- SH_CLR of table `k` (R647): the withdrawal comes first. -/
def shClr (s : State) (w : World) (k i : Nat) : State :=
  if shSize k ≤ i || (shSecure s k i && decide (w = .normal)) then s
  else
    let s1 := shWithdraw s k i
    shOfferAll { s1 with intr := { s1.intr with shPend := setDel s1.intr.shPend (k * 512 + i) } }

/-- The table offers a source; an invalid target is an error (R494, R495). -/
def shOfferOne (s : State) (k i : Nat) : State :=
  if shSize k ≤ i then s
  else if shPending s k i && getB (shCfg s k i) 8 && (shTarget s k i).isNone then
    let p := shTable k
    reportErr (rsetB s p.1 p.2 SH_STAT 1 true) p.1 0xB101 tyPROTOCOL
  else shOffer s k i

/-- SHARED_OFFER (R495). A pending and enabled source is offered to its target's list, which takes it while it has room. -/
def execSharedOffer (k : Fin 14) (i : Nat) (s : State) : Host.Outcome State Fault Refusal := .next (shOfferOne s k.val i)

/-! ## Sets that name their target by locus (R489, R490) -/

/-- The world a setter carries as a bit of an Interrupt message. -/
def intArg (w : World) (locus : Nat) (shared : Bool) (src : Nat) : Nat :=
  locus + b2n shared * 2 ^ 16 + src % 4096 * 2 ^ 17 + worldCode w * 2 ^ 29

/-- A set of a private source by locus in this package: the state after it, or none where the sender refuses the locus (R490). -/
def privSetAt (s : State) (w : World) (locus src : Nat) : Option State :=
  if !locusNamesPlace locus then none
  else
    match stopOf (bits locus 6 8) with
    | none => none
    | some st =>
      match stopKind st with
      | .cluster =>
        let i := src / 64
        some (if h : i < 8 then intSet s w (.outrider ⟨8 * st.die.val + i, by have := st.die.isLt; omega⟩) (src % 64) else s)
      | .tile =>
        let t : Fin 2 := if bit locus 4 then 1 else 0
        let c : Fin 2 := if tileLocked s st then 0 else if bit locus 5 then 1 else 0
        if tileMode s st = 3 ∨ coreAbsent s st c = true then
          some (reportErr s st 0xB002 tyPROTOCOL none (src % 64 + locus * 65536))
        else some (intSet s w (.drover st c t) src)
      | _ => none

/-- A set of a shared source by the locus of its table's stop in this package. -/
def shSetAt (s : State) (w : World) (locus src : Nat) : Option State :=
  if locus % 64 ≠ 0 then none
  else
    match stopOf (bits locus 6 8) with
    | some st => (shTableOf st).map fun k => shSet s w false k src
    | none => none

/-- A set of a source named by locus, kind and number (R361, R490): in this package at once, in another member by an Interrupt
message; none where the locus is refused. -/
def setAt (s : State) (w : World) (locus : Nat) (shared : Bool) (src : Nat) : Option State :=
  let p := locus / 16384
  if 4 ≤ p then none
  else if p = pkgNum s then (if shared then shSetAt s w locus src else privSetAt s w locus src)
  else if !bit s.pkg.members p || !locusNamesPlace locus then none
  else
    match stopOf (bits locus 6 8) with
    | none => none
    | some st =>
      let ok := if shared then (shTableOf st).isSome else decide (stopKind st = .tile) || decide (stopKind st = .cluster)
      if ok then some (sendMsg s 0xD (pkgLocus p) 0 0 (intArg w locus shared src) []) else none

/-- INTERRUPT (R488, R490). An Interrupt message of another package sets a private or shared source; one whose locus is refused is
discarded and recorded as a protocol error (where it is recorded is the model's choice, log entry 97). -/
def execInterrupt (w : World) (locus : BitVec 16) (shared : Bool) (src : BitVec 12) (s : State) : Host.Outcome State Fault Refusal :=
  if locus.toNat / 16384 ≠ pkgNum s then .next s
  else
    match setAt s w locus.toNat shared src.toNat with
    | some t => .next t
    | none => .next { s with link := { s.link with perr := s.link.perr ++ [locus.toNat] } }

/-! ## Errors (R504) -/

/-- INT_STATE_UE (R504). An uncorrectable error: in a bank's pending or configuration state every enabled latched source becomes
pending, in a running-priority stack the stack empties. -/
def unitUe (s : State) (h : Hart) (stack : Option World) : State :=
  let s1 := match stack with
    | some w => setRunStack s h w []
    | none => (List.range 48).foldl (fun s n => if privLatched n && privEnabled s h n then privSet s h n else s) s
  reportErr s1 (hartStop h) 0xB001 tyPARITY none 0 (thrBits h)

/-- At a table every enabled source becomes pending. -/
def tableUe (s : State) (k : Nat) : State :=
  let s1 := (List.range (shSize k)).foldl (fun s i =>
    if getB (shCfg s k i) 8 then { s with intr := { s.intr with shPend := setAdd s.intr.shPend (k * 512 + i) } } else s) s
  reportErr s1 (shTable k).1 0xB103 tyPARITY

/-- INT_STATE_UE (R504). An uncorrectable error in interrupt state: of a thread's bank (`stack` none) or one of its running-priority
stacks, or, with `table`, of a shared table. -/
def execIntStateUe (h : Hart) (stack : Option World) (table : Option (Fin 14)) (s : State) : Host.Outcome State Fault Refusal :=
  match table with
  | some k => .next (tableUe s k.val)
  | none => match h with
    | .waystation _ => .next s
    | _ => .next (unitUe s h stack)

end Sys2Proof.Machine
end

