-- ==== Sys2Proof/Machine/Waybill.lean ====
section
/-!
DEFINITION. The waybill engine of a slice: queues, their operations, doorbells, interrupts and provisional operations (chapter 10).
-/

namespace Sys2Proof.Machine

/-! ## Descriptors -/

/-- The number of a queue in the state. -/
def wbqNum (st : Stop) (q : Nat) : Nat := stopIdx st * 128 + q

/-- A descriptor register. -/
def wq (s : State) (st : Stop) (q off : Nat) : Nat := (rget s st 5 (wbqBase q + off)).toNat

/-- The state with a descriptor register replaced. -/
def wqPut (s : State) (st : Stop) (q off v : Nat) : State := rput s st 5 (wbqBase q + off) (BitVec.ofNat 32 v)

/-- The state with a bit of WBQ_STAT replaced: 0 CFGERR, 1 BADPOST, 2 MODE_VIOL, 3 ARMED, 4 BROKEN, 5 BUSY, 6 TGTERR. -/
def wqStat (s : State) (st : Stop) (q i : Nat) (b : Bool) : State := rsetB s st 5 (wbqBase q + WBQ_STAT) i b

/-- The state with a counter of a queue advanced. -/
def wqCount (s : State) (st : Stop) (q off n : Nat) : State := wqPut s st q off (satAdd 32 (wq s st q off) n)

/-- Whether a queue is enabled. -/
def wqOn (s : State) (st : Stop) (q : Nat) : Bool := setHas s.wb.enabled (wbqNum st q)

/-- The world a queue serves (R346). -/
def wqWorld (s : State) (st : Stop) (q : Nat) : World := if slotSecure s st q then .secure else .normal

/-- Occupancy: TAIL − HEAD modulo 2^32 (R352). -/
def wqOcc (s : State) (st : Stop) (q : Nat) : Nat := (wq s st q WBQ_TAIL + 2 ^ 32 - wq s st q WBQ_HEAD) % 2 ^ 32

/-- The number from which PUTs count occupied slots: the oldest lent message, or HEAD (R352, R362). -/
def wqFloor (s : State) (st : Stop) (q : Nat) : Nat :=
  match s.wb.prov.find? fun p => p.queue = wbqNum st q ∧ p.get = true with
  | some p => p.num
  | none => wq s st q WBQ_HEAD

/-- Whether a PUT or post finds the queue full (R352). -/
def wqFull (s : State) (st : Stop) (q : Nat) : Bool :=
  decide ((wq s st q WBQ_TAIL + 2 ^ 32 - wqFloor s st q) % 2 ^ 32 = wbqDepth s st q)

/-- Where message number `k` lies (R344). -/
def wqSlot (s : State) (st : Stop) (q k : Nat) : Nat := wbqRing s st q + k % wbqDepth s st q * wbqSize s st q

/-- THRESH in effect: 1 to the depth (Table 10-5). -/
def wqThresh (s : State) (st : Stop) (q : Nat) : Nat := min (wbqDepth s st q) (max 1 (wbqFld s st q WBQ_IRQ 0 17))

/-! ## The ring (R344, R366) -/

/-- What reading or writing a slot of a memory ring does at its line's home slice, as a ReadOnce or WriteOnce of the queue's slice (Table
10-1): a home that is off is woken (R27); the stall is time only (log entry 105). -/
def ringTouch (s : State) (st : Stop) (q pa : Nat) (write : Bool) : State :=
  if wbqFld s st q WBQ_CFG 7 1 = 0 then s
  else
    match homeOf s pa with
    | none => s
    | some home =>
      let w := wqWorld s st q
      let s1 := if domState s home 2 ≠ dON then domWake s home 2 wkHomed else s
      let s2 := countScope (countScope s1 home (if write then 4 else 3) 1 (some w)) home 0x0F 1 (some w)
      if write then writeAtHome s2 home w none (pa / 64) false
      else homeRead s2 home w (.pkg ⟨pkgNum s % 4, by omega⟩ 0) (pa / 64) false true

/-- A message written into its slot. -/
def ringPut (s : State) (st : Stop) (q k : Nat) (msg : List Byte) : State :=
  agentWrite (ringTouch s st q (wqSlot s st q k) true) none (wqSlot s st q k) msg

/-! ## Interrupts (R360, R361) -/

/-- An armed queue whose occupancy has reached THRESH sets its source and is no longer armed. -/
def wqIrq (s : State) (st : Stop) (q : Nat) : State :=
  if wbqFld s st q WBQ_CTL 2 1 = 1 ∧ wbqFld s st q WBQ_STAT 3 1 = 1 ∧ wqThresh s st q ≤ wqOcc s st q then
    let s1 := wqStat s st q 3 false
    let t := wq s st q WBQ_IRQ_TGT
    match setAt s1 (wqWorld s st q) (bits t 0 16) (bit t 16) (bits t 17 12) with
    | some s2 => s2
    | none => wqStat s1 st q 6 true
  else s

/-! ## Operations (R352 to R358) -/

/-- Results of a waybill operation (Table 4-21). -/
def wbDONE : Nat := 0
def wbEMPTY : Nat := 1
def wbFULL : Nat := 2
def wbDROPPED : Nat := 3
def wbSIZE : Nat := 4
def wbDISABLED : Nat := 5
def wbPOISONED : Nat := 6

/-- Who sends an operation, as WBQ_PROD and WBQ_CONS name it: a Drover thread's locus, or a class C identifier with KIND 1. -/
def srcDrover (locus : Nat) : Nat := locus
def srcClassC (id : Nat) : Nat := id * 65536 + 2 ^ 28

/-- The source a thread is. -/
def srcHart (s : State) (h : Hart) : Nat :=
  match h with
  | .drover _ _ _ => srcDrover (hartLocus (pkgNum s) h)
  | .outrider n => srcClassC n.val
  | .waystation _ => srcClassC 0x10

/-- Whether two descriptions of a source name the same one: LOCUS counts with KIND 0 and CSRC with KIND 1. -/
def srcSame (a b : Nat) : Bool :=
  decide (bit a 28 = bit b 28) && (if bit a 28 then decide (bits a 16 12 = bits b 16 12) else decide (bits a 0 16 = bits b 0 16))

/-- An operation of a side in single mode from another source sets MODE_VIOL, and that side is served at the multiple-mode rate from
then on (R358). -/
def wqMode (s : State) (st : Stop) (q : Nat) (get : Bool) (src : Nat) : State :=
  let single := wbqFld s st q WBQ_CFG (if get then 10 else 9) 1 = 1
  if single ∧ srcSame src (wq s st q (if get then WBQ_CONS else WBQ_PROD)) = false then
    let s1 := wqStat s st q 2 true
    { s1 with wb := { s1.wb with viol := setAdd s1.wb.viol (2 * wbqNum st q + b2n get) } }
  else s

/-- A message enters the queue at slot TAIL mod depth; `who` marks a tentative one of a locked pair (R362). -/
def wqEnter (s : State) (st : Stop) (q : Nat) (msg : List Byte) (who : Option Nat) : State :=
  let w := wqWorld s st q
  let k := wq s st q WBQ_TAIL
  let s1 := ringPut s st q k msg
  let s2 := wqPut s1 st q WBQ_TAIL ((k + 1) % 2 ^ 32)
  let s3 := match who with
    | some h => { s2 with wb := { s2.wb with prov := s2.wb.prov ++ [⟨h, wbqNum st q, false, k, []⟩] } }
    | none => s2
  wqIrq (countScope (countScope s3 st 0x29 1 (some w)) st 0x2C 1 (some w)) st q

/-- PUT (Table 10-6): the state after it and its STATUS. -/
def wqPutMsg (s : State) (st : Stop) (q : Nat) (msg : List Byte) (bad : Bool) (src : Nat) (who : Option Nat) : State × Nat :=
  let w := wqWorld s st q
  let s := countScope s st 0x28 1 (some w)
  if !wqOn s st q then (s, wbDISABLED)
  else
    let s1 := wqMode s st q false src
    if msg.length ≠ wbqSize s st q then (s1, wbSIZE)
    else if bad then (countScope (wqCount s1 st q WBQ_DROP_POISON 1) st 0x2B 1 (some w), wbPOISONED)
    else if !wqFull s st q then (wqEnter s1 st q msg who, wbDONE)
    else if wbqFld s st q WBQ_CFG 8 1 = 0 then
      (countScope (wqCount s1 st q WBQ_DROP_FULL 1) st 0x2B 1 (some w), wbDROPPED)
    else (wqCount s1 st q WBQ_REFUSED 1, wbFULL)

/-- Whether message number `k` of a queue is tentative. -/
def wqTentative (s : State) (st : Stop) (q k : Nat) : Bool :=
  s.wb.prov.any fun p => decide (p.queue = wbqNum st q) && !p.get && decide (p.num = k)

/-- Holes and damaged messages at the head leave the queue: a hole is not counted, a damaged message is counted in DROP_POISON and
reported (R356, R362). -/
def wqSkip (s : State) (st : Stop) (q : Nat) : Nat → State
  | 0 => s
  | n + 1 =>
    let k := wq s st q WBQ_HEAD
    if wqOcc s st q = 0 then s
    else if s.wb.holes.contains (wbqNum st q, k) then
      let s1 := wqPut s st q WBQ_HEAD ((k + 1) % 2 ^ 32)
      wqSkip { s1 with wb := { s1.wb with holes := s1.wb.holes.filter (· ≠ (wbqNum st q, k)) } } st q n
    else if wqTentative s st q k then s
    else
      let s := ringTouch s st q (wqSlot s st q k) false
      if !poisoned s (wqSlot s st q k) (wbqSize s st q) then s
      else
      let s1 := wqCount (wqPut s st q WBQ_HEAD ((k + 1) % 2 ^ 32)) st q WBQ_DROP_POISON 1
      wqSkip (reportErr (countScope s1 st 0x2B 1 (some (wqWorld s st q))) st 0x3008 tyDROP (some (wqSlot s st q k))) st q n

/-- GET (Table 10-6): the state after it, its STATUS and the message. -/
def wqGetMsg (s : State) (st : Stop) (q n src : Nat) (who : Option Nat) : State × Nat × List Byte :=
  let w := wqWorld s st q
  let s := countScope s st 0x28 1 (some w)
  if !wqOn s st q then (s, wbDISABLED, [])
  else
    let s1 := wqMode s st q true src
    if n ≠ wbqSize s st q then (s1, wbSIZE, [])
    else
      let s2 := wqSkip s1 st q (wqOcc s1 st q)
      let k := wq s2 st q WBQ_HEAD
      if wqOcc s2 st q = 0 ∨ wqTentative s2 st q k = true then (s2, wbEMPTY, [])
      else
        let m := memRead s2 (wqSlot s2 st q k) n
        let s3 := wqPut s2 st q WBQ_HEAD ((k + 1) % 2 ^ 32)
        let s4 := match who with
          | some h => { s3 with wb := { s3.wb with prov := s3.wb.prov ++ [⟨h, wbqNum st q, true, k, m⟩] } }
          | none => s3
        (countScope (countScope s4 st 0x2A 1 (some w)) st 0x2C 1 (some w), wbDONE, m)

/-- POLL (Table 10-6). -/
def wqPoll (s : State) (st : Stop) (q : Nat) : State × Nat :=
  (countScope s st 0x28 1 (some (wqWorld s st q)), if wqOn s st q then wbDONE else wbDISABLED)

/-- A doorbell or Camp watch post (R354): `bad` is a malformed one, `unavail` one whose memory ring cannot be reached (R355). -/
def wqPost (s : State) (st : Stop) (q : Nat) (msg : List Byte) (bad poison unavail : Bool) (src : Nat) : State :=
  let w := wqWorld s st q
  if bad || decide (msg.length ≠ wbqSize s st q) then wqStat s st q 1 true
  else
    let s := countScope s st 0x28 1 (some w)
    let drop := fun off => countScope (wqCount s st q off 1) st 0x2B 1 (some w)
    if !wqOn s st q || unavail then drop WBQ_DROP_UNAVAIL
    else if poison then drop WBQ_DROP_POISON
    else if wqFull s st q then (if wbqFld s st q WBQ_CFG 8 1 = 0 then drop WBQ_DROP_FULL else drop WBQ_DROP_UNAVAIL)
    else wqEnter (wqMode s st q false src) st q msg none

/-! ## Provisional operations of locked pairs (R362) -/

/-- BUSY clears once nothing of a disabled queue is in progress (R351). -/
def wqIdle (s : State) (k : Nat) : State :=
  match stopOf (k / 128) with
  | some st =>
    if s.wb.prov.any fun p => decide (p.queue = k) then s
    else if wqOn s st (k % 128) then s else wqStat s st (k % 128) 5 false
  | none => s

/-- The oldest provisional operation of a thread is confirmed: a tentative message becomes ordinary, a lent slot is released. -/
def wqConfirm (s : State) (h : Nat) : State :=
  match s.wb.prov.find? fun p => p.hart = h with
  | some p => { s with wb := { s.wb with prov := s.wb.prov.erase p } }
  | none => s

/-- A lent message returns to the head (R362): HEAD is one less, and the message lies before every other, but after returned ones that
are older. -/
def wqReturn (s : State) (st : Stop) (q num : Nat) (msg : List Byte) : State :=
  let hd := wq s st q WBQ_HEAD
  let d := (num + 1 + 2 ^ 32 - hd) % 2 ^ 32
  let older := if d ≤ wqOcc s st q then d else 0
  let s1 := (List.range older).foldl (fun s i =>
    ringPut s st q (hd + 2 ^ 32 + i - 1) (memRead s (wqSlot s st q (hd + i)) (wbqSize s st q))) s
  wqIrq (wqPut (ringPut s1 st q (hd + 2 ^ 32 + older - 1) msg) st q WBQ_HEAD ((hd + 2 ^ 32 - 1) % 2 ^ 32)) st q

/-- The latest provisional operation of a thread is cancelled: a tentative message becomes a hole, a lent one returns to the head. -/
def wqCancel (s : State) (h : Nat) : State :=
  match s.wb.prov.reverse.find? fun p => p.hart = h with
  | none => s
  | some p =>
    let s1 := { s with wb := { s.wb with prov := (s.wb.prov.reverse.erase p).reverse } }
    match stopOf (p.queue / 128) with
    | none => s1
    | some st =>
      let q := p.queue % 128
      if p.get then wqReturn s1 st q p.num p.data
      else { s1 with wb := { s1.wb with holes := s1.wb.holes ++ [(p.queue, p.num)] } }


/-- Provisional operations of a thread, and those of them whose group has compared good. -/
def provOf (s : State) (h : Hart) : Nat := s.wb.prov.countP fun p => decide (p.hart = hartKey h)
def confirmOf (s : State) (h : Hart) : Nat := mapGet (fun _ => 0) s.lock.confirm (hartKey h)

/-- The state with the confirmations on their way of a thread replaced. -/
def setConfirm (s : State) (h : Hart) (n : Nat) : State :=
  { s with lock := { s.lock with confirm := mapSet (fun _ => 0) s.lock.confirm (hartKey h) n } }

/-- WAYBILL_CONFIRM (R362). The confirmation of a locked pair's waybill operation, whose group has compared good, arrives. -/
def execWaybillConfirm (h : Hart) (s : State) : Host.Outcome State Fault Refusal :=
  if confirmOf s h = 0 then .next s else .next (wqConfirm (setConfirm s h (confirmOf s h - 1)) (hartKey h))

/-- WAYBILL_CANCEL (R362). Recovery discards a locked pair's waybill operation. -/
def execWaybillCancel (h : Hart) (s : State) : Host.Outcome State Fault Refusal :=
  if recovering s h && decide (confirmOf s h < provOf s h) then .next (wqCancel s (hartKey h)) else .next s

/-- Every provisional operation of a thread is settled: those whose group has compared good are confirmed, the others cancelled,
latest first (R481). -/
def wqSettle (s : State) (h : Hart) : State :=
  let s1 := (List.range (confirmOf s h)).foldl (fun s _ => wqConfirm s (hartKey h)) s
  (List.range (provOf s1 h)).foldl (fun s _ => wqCancel s (hartKey h)) (setConfirm s1 h 0)

/-! ## Configuration and enable (R349 to R351, R357) -/

/-- The state with a queue empty. -/
def wqEmpty (s : State) (st : Stop) (q : Nat) : State :=
  let s1 := wqPut (wqPut s st q WBQ_HEAD 0) st q WBQ_TAIL 0
  { s1 with wb := { s1.wb with holes := s1.wb.holes.filter fun e => e.1 ≠ wbqNum st q } }

/-- A write of WBQ_CFG, WBQ_BASE_LO, WBQ_BASE_HI, WBQ_PROD or WBQ_CONS with its legal value (R349): one to the first three empties the
queue, one to WBQ_CFG clears BROKEN and the violated modes. -/
def wqConfig (s : State) (st : Stop) (q off v : Nat) : State :=
  if wqOn s st q ∨ wbqFld s st q WBQ_STAT 5 1 = 1 then wqStat s st q 0 true
  else
    let s1 := wqPut s st q off v
    if off = WBQ_PROD ∨ off = WBQ_CONS then s1
    else
      let s2 := wqEmpty s1 st q
      if off = WBQ_CFG then
        let s3 := wqStat s2 st q 4 false
        { s3 with wb := { s3.wb with viol := s3.wb.viol.filter fun k => k / 2 ≠ wbqNum st q } }
      else s2

/-- The legal value of WBQ_CFG (Table 10-5). -/
def wqCfgLegal (v : Nat) : Nat :=
  let d := min 16 (max 4 (bits v 0 5))
  let m := if bits v 5 2 = 3 then 2 else bits v 5 2
  d + m * 32 + bits v 7 4 * 128

/-- Whether every byte of a queue's ring lies where Table 10-1 and R346 require. -/
def ringPlaced (s : State) (st : Stop) (q : Nat) : Bool :=
  let base := wbqRing s st q
  let n := wbqDepth s st q * wbqSize s st q
  let sec := slotSecure s st q
  if wbqFld s st q WBQ_CFG 7 1 = 0 then
    let win := depotBase (pkgNum s) st
    decide (win ≤ base ∧ base + n ≤ win + 0x200000) &&
    (List.range ((n + 0x3FFFF) / 0x40000 + 1)).all fun i =>
      let a := base - win + 0x40000 * i
      let way := 4 + (if a < base - win + n then a else base - win + n - 1) / 0x40000
      wayIsDepot s st way && decide (secWay s st way = sec)
  else
    decide (base / 2 ^ 40 = pkgNum s) && decide (base + n ≤ (pkgNum s + 1) * 2 ^ 40) &&
    hbmPopulated s (base % 2 ^ 40) && hbmPopulated s ((base + n - 1) % 2 ^ 40) &&
    (List.range (n / 0x1000 + 1)).all fun i => hbmPopulated s ((base + min (0x1000 * i) (n - 1)) % 2 ^ 40) &&
      decide (inSecureRange s (base + min (0x1000 * i) (n - 1)) = sec)

/-- Whether a depot ring overlaps that of another enabled queue of its slice (R350). -/
def ringOverlaps (s : State) (st : Stop) (q : Nat) : Bool :=
  let b := wbqRing s st q
  let e := b + wbqDepth s st q * wbqSize s st q
  s.wb.enabled.any fun k =>
    let r := k % 128
    decide (k / 128 = stopIdx st ∧ r ≠ q) && decide (wbqFld s st r WBQ_CFG 7 1 = 0) &&
    decide (wbqRing s st r < e ∧ b < wbqRing s st r + wbqDepth s st r * wbqSize s st r)

/-- Whether an enable is accepted (R350). -/
def mayEnable (s : State) (st : Stop) (q : Nat) : Bool :=
  decide (wbqRing s st q % (wbqDepth s st q * wbqSize s st q) = 0) && ringPlaced s st q &&
  !(decide (wbqFld s st q WBQ_CFG 7 1 = 0) && ringOverlaps s st q) &&
  !setHas s.pkg.retired (stopIdx st) && !setHas s.cache.retiring (stopIdx st) && decide (wbqFld s st q WBQ_STAT 4 1 = 0)

/-- A write of EN = 1. -/
def wqEnable (s : State) (st : Stop) (q : Nat) : State :=
  if wqOn s st q then s
  else if mayEnable s st q then
    let s1 := { s with wb := { s.wb with enabled := setAdd s.wb.enabled (wbqNum st q) } }
    wqIrq (rsetB (wqStat s1 st q 5 false) st 5 (wbqBase q + WBQ_CTL) 0 true) st q
  else wqStat s st q 0 true

/-- A write of EN = 0: BUSY reads 1 until what was accepted has finished (R351). -/
def wqDisable (s : State) (st : Stop) (q : Nat) : State :=
  if !wqOn s st q then s
  else
    let s1 := { s with wb := { s.wb with enabled := setDel s.wb.enabled (wbqNum st q) } }
    wqStat (rsetB s1 st 5 (wbqBase q + WBQ_CTL) 0 false) st q 5 true

/-- A write of CNT_CLR: the four counters become zero together. -/
def wqClear (s : State) (st : Stop) (q : Nat) : State :=
  [WBQ_DROP_FULL, WBQ_DROP_POISON, WBQ_DROP_UNAVAIL, WBQ_REFUSED].foldl (fun s o => wqPut s st q o 0) s

/-- A write of WBQ_CTL (Table 10-5). -/
def wqControl (s : State) (st : Stop) (q v : Nat) : State :=
  let s1 := if bit v 1 then wqClear s st q else s
  let s2 := rsetB s1 st 5 (wbqBase q + WBQ_CTL) 2 (bit v 2)
  let s3 := if bit v 0 then wqEnable s2 st q else wqDisable s2 st q
  wqIrq s3 st q

/-- A write of 1 to WBQ_ARM (R360). -/
def wqArm (s : State) (st : Stop) (q : Nat) : State := wqIrq (wqStat s st q 3 true) st q

/-- QUEUE_BUSY_CLEAR (R351). Every operation accepted before a disable has completed and nothing is lent or tentative. -/
def execQueueBusyClear (st : Stop) (q : Fin 128) (s : State) : Host.Outcome State Fault Refusal :=
  if stopKind st = .tile then .next (wqIdle s (wbqNum st q.val)) else .next s

/-- WBQ_STATE_PARITY_ERROR (R357). A parity error in one copy of HEAD, TAIL or the enable state is corrected from the other; one in both
sets BROKEN and disables the queue. -/
def execWbqStateParityError (st : Stop) (q : Fin 128) (both : Bool) (s : State) : Host.Outcome State Fault Refusal :=
  if stopKind st ≠ .tile ∨ !both then .next s
  else
    let s1 := { s with wb := { s.wb with enabled := setDel s.wb.enabled (wbqNum st q.val) } }
    let s2 := rsetB (wqStat s1 st q.val 4 true) st 5 (wbqBase q.val + WBQ_CTL) 0 false
    .next (reportErr s2 st 0x3009 tyPARITY none 0 0 false 0 (some (wqWorld s st q.val)))

/-! ## Queue addresses (R343, R359) -/

/-- The queue that a physical address names in this package: an address of the first register of a descriptor slot of a present tile. -/
def queueAt (pkg pa : Nat) : Option (Stop × Nat) :=
  let c := pa - 0xFFF0000000000
  let off := c % 0x10000
  if pa < 0xFFF0000000000 ∨ 0xFFF0100000000 ≤ pa ∨ c / 2 ^ 30 ≠ pkg ∨ c / 0x10000 % 64 ≠ 5 then none
  else if off < 0x1000 ∨ 0x3000 ≤ off ∨ off % 0x40 ≠ 0 then none
  else
    match stopOf (c / 0x400000 % 256) with
    | some st => if stopKind st = .tile then some (st, (off - 0x1000) / 0x40) else none
    | none => none

/-- Whether a physical address names a queue of another member of the node. -/
def remoteQueue (s : State) (pa : Nat) : Option Nat :=
  let p := (pa - 0xFFF0000000000) / 2 ^ 30
  if p ≠ pkgNum s ∧ p < 4 ∧ bit s.pkg.members p = true ∧ (queueAt p pa).isSome then some p else none

/-- WBILL's subcode for a queue address (Table 10-8), none where the queue can be used. -/
def wbillCode (s : State) (w : World) (pa : Nat) : Option Nat :=
  match queueAt (pkgNum s) pa with
  | some (st, q) => if w = .normal ∧ slotSecure s st q = true then some 2 else none
  | none => if (remoteQueue s pa).isSome then none else some 1

/-- A waybill operation served at its home slice in this package (R352): the STATUS and OCCUPANCY in the form of Table 4-21, and the
message of a GET. -/
def wqServe (s : State) (st : Stop) (q op n : Nat) (msg : List Byte) (bad : Bool) (src : Nat) (who : Option Nat) :
    State × Nat × List Byte :=
  let r := match op with
    | 0 => let r := wqPutMsg s st q msg bad src who; (r.1, r.2, [])
    | 1 => wqGetMsg s st q n src who
    | _ => let r := wqPoll s st q; (r.1, r.2, [])
  (r.1, r.2.1 + wqOcc r.1 st q * 2 ^ 32, r.2.2)

/-- WAYBILL (R339, R353). A waybill operation of another package: OP 0 PUT, 1 GET, 2 POLL, with message size code `sz`, at a queue
address of this package, from a source of that package.  Its answer is a DevResp with the result and the message.  A queue that
is none, or a secure slot named by the normal world, is not served. -/
def execWaybill (p : Fin 4) (tag : Nat) (w : World) (op : Fin 3) (sz : Fin 3) (pa : Nat) (classC : Bool) (source : Nat)
    (msg : List Byte) (poison : Bool) (s : State) : Host.Outcome State Fault Refusal :=
  if p.val = pkgNum s then .next s
  else
    match queueAt (pkgNum s) pa with
    | none => .next (sendMsg s 0x37 (pkgLocus p.val) tag pa 0 [])
    | some (st, q) =>
      if w = .normal ∧ slotSecure s st q = true then .next (sendMsg s 0x37 (pkgLocus p.val) tag pa 0 [])
      else
        let src := if classC then srcClassC source else srcDrover source
        let r := wqServe s st q op.val (16 * 2 ^ sz.val) msg poison src none
        .next (sendMsg r.1 0x35 (pkgLocus p.val) tag pa 0 (natLe 8 r.2.1 ++ r.2.2))

end Sys2Proof.Machine
end

