-- ==== Sys2Proof/Machine/Outrider.lean ====
section
/-!
DEFINITION. Outriders: line caches, start and stop, faults, and the Courier port (chapter 11).
-/

namespace Sys2Proof.Machine

/-! ## The line cache (R387 to R390) -/

/-- Every unlocked entry is invalidated (FLUSH, STOP). -/
def lcFlush (s : State) (n : Fin 16) : State :=
  let o := orGet s n
  let gone := o.lc.filterMap fun e => match e.2 with | some (l, false) => some l | _ => none
  let s1 := gone.foldl (fun s l => lcDropped s n l) s
  orPut s1 n { o with lc := o.lc.filter fun e => match e.2 with | some (_, l) => l | none => false }

/-- Whether a line cache may hold a line for its Outrider: normal memory outside the TCM, permitted to it at S and not NC (R370,
R372, R387, R388). -/
def lcMay (s : State) (n : Fin 16) (line : Nat) : Bool :=
  let a := 64 * line
  (match seenTarget s (tget s (.outrider n)).world a with
    | .hbm => true
    | .cxl _ => true
    | .remoteMem _ => true
    | _ => false) &&
  (orRefused s n false .read a).isNone &&
  (match orRegion s n a with | some r => !getB r 13 | none => true)

/-- Sets a bit of LC_STAT: 7 LOCKFULL, 8 BADADDR, 9 CMDERR. -/
def lcStat (s : State) (n : Fin 16) (i : Nat) : State := rsetB s (orRegs n).1 1 ((orRegs n).2 + LC_STAT) i true

/-- A write of LC_CMD (R388). -/
def lcCommand (s : State) (n : Fin 16) (op : Nat) : State :=
  let o := orGet s n
  let r := orRegs n
  let line := ((rget s r.1 1 (r.2 + LC_ADDR_LO)).toNat + rfld s r.1 1 (r.2 + LC_ADDR_HI) 0 20 * 2 ^ 32) / 64
  if op = 0 ∨ 5 < op then s
  else if o.cmd.isSome then lcStat s n 9
  else if op ≤ 3 ∧ lcMay s n line = false then lcStat s n 8
  else if op = 2 ∧ 47 ≤ lcLocked o ∧ (o.lc.any fun e => decide (e.2 = some (line, true))) = false then lcStat s n 7
  else orPut s n { o with cmd := some (op, line) }

/-- LC_CMD_DONE (R388). A line-cache command has been carried out in the background; a preload whose line cannot be had yet goes on. -/
def execLcCmdDone (n : Fin 16) (s : State) : Host.Outcome State Fault Refusal :=
  let o := orGet s n
  match o.cmd with
  | none => .next s
  | some (op, line) =>
    let s1 := orPut s n { o with cmd := none }
    let got := courierLine s (.outrider n) (dataUse false 0 (64 * line)) (64 * line)
    let s2 := orPut got.1 n { orGet got.1 n with cmd := none }
    match op with
    | 1 => .next (if got.2 then s2 else got.1)
    | 2 => .next (if got.2 then lcFill s2 n line true else got.1)
    | 3 =>
      match lcFind o line with
      | some k => .next (orPut s1 n (lcSet (orGet s1 n) k (some (line, false))))
      | none => .next s1
    | 4 => .next (orPut s1 n { orGet s1 n with lc := o.lc.map fun e => (e.1, e.2.map fun x => (x.1, false)) })
    | _ => .next (lcFlush s1 n)

/-- SNP_INV (R282, R389). A holder's line is invalidated; a Courier port invalidates it in every line cache of its cluster, where a
locked entry is refilled at once. -/
def execSnpInv (a : Agent) (line : Nat) (s : State) : Host.Outcome State Fault Refusal :=
  match a with
  | .courier (.outrider n) =>
    let s1 := { s with orr := (s.orr.map fun e =>
        if e.1 / 8 = n.val / 8 then (e.1, lcSnoop e.2 (64 * line) 64) else e).filter fun e => e.2 ≠ OrSt.initial }
    .next ((List.finRange 8).foldl (fun s i => lcDropped s (orOf ⟨n.val / 8, by omega⟩ i) line) s1)
  | _ => .next (snoop s a line true)

/-! ## Start, stop, mode and faults (R391, R401, R402) -/

/-- A write of OR_CTL by a secure initiator (Table 11-8): the mode changes only while the Outrider is STOPPED. -/
def orControl (s : State) (n : Fin 16) (v : Nat) : State :=
  let r := orRegs n
  let h : Hart := .outrider n
  let old := rbit s r.1 1 (r.2 + OR_CTL) 2
  let s1 :=
    if bit v 2 = old then s
    else if (tget s h).run = .stopped then rsetB s r.1 1 (r.2 + OR_CTL) 2 (bit v 2)
    else rsetB s r.1 1 BLOCK_STAT 0 true
  startCtl s1 h (bit v 0) (bit v 1)

/-- An Outrider reaches the boundary at which it stops (R390, R401): its unlocked lines go. -/
def orStopped (s : State) (n : Fin 16) : State :=
  let h : Hart := .outrider n
  let s1 := stopDone s h
  if (tget s h).run ≠ .stopped ∧ (tget s1 h).run = .stopped then lcFlush s1 n else s1

/-- THREAD_STOP_DONE (R207, R401). A stopping thread reaches its boundary and reads STOPPED. -/
def execThreadStopDone (h : Hart) (s : State) : Host.Outcome State Fault Refusal :=
  match h with
  | .outrider n => .next (orStopped s n)
  | _ => .next (stopDone s h)

/-- OUTRIDER_FAULT (R402). An uncorrectable fault inside an Outrider's logic stops that Outrider alone. -/
def execOutriderFault (n : Fin 16) (s : State) : Host.Outcome State Fault Refusal :=
  let r := orRegs n
  let s1 := reportErr s r.1 (0x8004 + n.val % 8 * 0x100) tyUE
  let s2 := stopThread s1 (.outrider n)
  let s3 := rsetB s2 r.1 1 (r.2 + OR_STAT) 3 true
  .next (addEvent s3 7 (stopLocus (pkgNum s) r.1) (0x8004 + n.val % 8 * 0x100) (decide ((tget s (.outrider n)).world = .secure)))

/-! ## The Courier port (R394 to R400, R404) -/

/-- Requests in the buffer of a die's Courier port: waybill operations under way, reads and writes of lines of other packages that have
not been answered, and those of this package's stacks. -/
def cpOcc (s : State) (die : Fin 2) : Nat :=
  ((List.finRange 8).map fun i =>
    let n := orOf die i
    (tget s (.outrider n)).nb.length +
    (s.link.waiting.countP fun m => decide (m.2 = some (.outrider n)) && decide (m.1.op ≤ 6))).sum +
  ((List.range 6).map (cpCount s die)).sum

/-- PANIC_AGE (R397). A read of an Outrider for stack `k` has been outstanding for PANIC_AGE: with PANIC_EN the port raises panic. -/
def execPanicAge (n : Fin 16) (k : Fin 6) (s : State) : Host.Outcome State Fault Refusal :=
  let st := (orRegs n).1
  let o := orGet s n
  let s1 := if o.aged.contains k.val then s else orPut s n { o with aged := o.aged ++ [k.val] }
  .next (cpRaise s1 st.die k.val)

/-- A Courier read of an Outrider has returned after `ns` nanoseconds (R400): the longest and the late ones are kept, and the reads that
had aged are no longer outstanding. -/
def courierRead (s : State) (n : Fin 16) (ns : Nat) : State :=
  let st := (orRegs n).1
  let s1 := rputF s st 2 CP_LAT_MAX 0 16 (max (rfld s st 2 CP_LAT_MAX 0 16) (min ns 65535))
  let s2 := if 1200 < ns then
      countScope (rput s1 st 2 CP_LATE (BitVec.ofNat 32 (satAdd 32 (rget s1 st 2 CP_LATE).toNat 1))) st 143 1 none
    else s1
  orPut s2 n { orGet s2 n with aged := [] }

/-- The counters of a Courier port cleared together (R404). -/
def cpClear (s : State) (st : Stop) : State :=
  rput (rput (rput s st 2 CP_PANIC_CNT 0) st 2 CP_LAT_MAX 0) st 2 CP_LATE 0

/-- The consistency check of a commit of block 2 (R404). -/
def cpCommitOk (v : Reg32) : Bool := decide (getF v 8 7 < getF v 0 7)

/-! ## The TCM window (R406) -/

/-- Where the word at an offset of TCM_WIN lies in the model's memory. -/
def tcmWin (s : State) (die : Fin 2) (off : Nat) : Nat :=
  let v := rget s (orStop die) 3 TCMW_SEL
  tcmBase (8 * die.val + getF v 0 3) + getF v 8 5 * 0x4000 + (off - TCM_WIN)

/-- A window write; it clears a reservation of the Outrider on its granule. -/
def tcmWinWrite (s : State) (die : Fin 2) (off : Nat) (v : Reg32) : State :=
  agentWrite s none (tcmWin s die off) (natLe 4 v.toNat)

/-- A window read; one of a poisoned granule is counted (R406). -/
def tcmWinRead (s : State) (die : Fin 2) (off : Nat) : State × Reg32 :=
  let a := tcmWin s die off
  let i := rfld s (orStop die) 3 TCMW_SEL 0 3
  let s1 := if poisoned s a 4 then rsat s (orStop die) 3 (TCM_ERR + 4 * i) 16 16 1 else s
  (s1, BitVec.ofNat 32 (leNat (memRead s a 4)))

end Sys2Proof.Machine
end

