-- ==== Sys2Proof/Machine/Hbm.lean ====
section
/-!
DEFINITION. HBM stacks, their controllers and PHYs, and CXL memory (chapter 12).
-/

namespace Sys2Proof.Machine

/-- Refreshes owed by a pseudo-channel. -/
def owedOf (s : State) (p : Nat) : Nat := mapGet (fun _ => 0) s.hbm.owed p

/-- The state with refreshes owed replaced; MC_STAT.REF_OWED shows the larger of the two pseudo-channels. -/
def setOwed (s : State) (st : Stop) (c : Fin 2) (pc n : Nat) : State :=
  let s1 := hbmMod s fun h => { h with owed := mapSet (fun _ => 0) h.owed (pcNum st c pc) n }
  rputF s1 st (mcBlk c) MC_STAT 5 4 (max (owedOf s1 (pcNum st c 0)) (owedOf s1 (pcNum st c 1)))

/-- Every owed refresh of a pseudo-channel issues, after every open bank is precharged. -/
def refreshAll (s : State) (st : Stop) (c : Fin 2) (pc : Nat) : State :=
  let n := owedOf s (pcNum st c pc)
  if n = 0 then s
  else setOwed (closeRows (mcCount s st c 5 n) fun b => decide (b / 48 = pcNum st c pc)) st c pc 0

/-- REFRESH_DUE (R419). A tREFI interval has passed: while some read is eligible the refresh is postponed. Or a per-bank interval: `bank` is
the next of the rotation, whose order the spec leaves open. -/
def execRefreshDue (st : Stop) (c pc : Fin 2) (bank : Fin 48) (s : State) : Host.Outcome State Fault Refusal :=
  if stopKind st ≠ .memory ∨ rbit s st (mcBlk c) BLOCK_CTL 0 = false ∨ rbit s st (mcBlk c) MC_STAT 2 = true then .next s
  else if rbit s st (mcBlk c) MC_CTL 0 then .next (setRow (mcCount s st c 5 1) (pcNum st c pc.val * 48 + bank.val) none)
  else
    let n := owedOf s (pcNum st c pc.val) + 1
    let s1 := setOwed s st c pc.val n
    if anyReadOk s (mcQueue s (chanNum st c)) (pcNum st c pc.val) && !panicHeld s (stackOf st) then
      let post := min 8 (rfld s st (mcBlk c) MC_CTL 1 4)
      if n ≤ post then .next s1
      else .next (closeRows (setOwed (mcCount s1 st c 5 1) st c pc.val post) fun b => decide (b / 48 = pcNum st c pc.val))
    else .next (refreshAll s1 st c pc.val)

/-- IDLE_TIMER_EXPIRE (R414). A bank's idle timer expires and no entry of its queue hits the open row: the bank is precharged. -/
def execIdleTimerExpire (st : Stop) (c pc : Fin 2) (bank : Fin 48) (s : State) : Host.Outcome State Fault Refusal :=
  let b := pcNum st c pc.val * 48 + bank.val
  let hit := (mcQueue s (chanNum st c)).any fun e => decide (locBank (reqLoc s e) = b) && rowHit s e
  if stopKind st = .memory ∧ (openRow s b).isSome = true ∧ hit = false then .next (mcCount (setRow s b none) st c 3 1) else .next s

/-! ## Panic at the memory stops (R398, R418) -/

/-- MC_STAT.PANIC of a stack's controllers follows the ports that hold panic. -/
def showPanic (s : State) (k : Fin 6) : State :=
  (stackChans k).foldl (fun s e => rsetB s e.1 (mcBlk e.2) MC_STAT 0 (panicHeld s k.val)) s

/-- PANIC_RAISE (R398). The signal reaches the stack's memory stops: holds are dropped and refresh is no longer postponed (R418,
R419). -/
def execPanicRaise (die : Fin 2) (k : Fin 6) (s : State) : Host.Outcome State Fault Refusal :=
  if rbit s (orStop die) 2 CP_STAT k.val = false then .next s
  else
    let s1 := hbmMod s fun h => { h with panic := setAdd h.panic (die.val * 6 + k.val) }
    let s2 := closeRows s1 fun b => decide (b / 48 / 16 = k.val)
    let s3 := (stackChans k).foldl (fun s e => refreshAll (refreshAll s e.1 e.2 0) e.1 e.2 1) s2
    .next (showPanic s3 k)

/-- PANIC_WITHDRAW (R397). The port withdraws panic, no read of it having aged and its count being below PANIC_LO, and the withdrawal
reaches the memory stops. -/
def execPanicWithdraw (die : Fin 2) (k : Fin 6) (s : State) : Host.Outcome State Fault Refusal :=
  if cpAged s die k.val ∨ rbit s (orStop die) 2 CP_STAT k.val = false ∨ rfld s (orStop die) 2 CP_CTL 8 7 ≤ cpCount s die k.val then .next s
  else
    let s1 := rsetB s (orStop die) 2 CP_STAT k.val false
    .next (showPanic (hbmMod s1 fun h => { h with panic := setDel h.panic (die.val * 6 + k.val) }) k)

/-! ## Lane repair (R428, R429) -/

/-- Counts of a lane. -/
def laneGet (s : State) (p lane : Nat) : Nat × Nat := mapGet (fun _ => (0, 0)) s.hbm.lanes (p * 72 + lane)

/-- The spare half of a lane, as h of PHY_REMAP: 2 × PC + half (Table 12-6). -/
def laneHalf (pc lane : Nat) : Nat := 2 * pc + lane / 36

/-- A remap of a lane begins, or finds its half's spare used (R429). -/
def remapLane (s : State) (st : Stop) (c : Fin 2) (pc lane : Nat) : State :=
  let h := laneHalf pc lane
  if rbit s st (phyBlk c) PHY_REMAP (8 * h + 7) then
    reportErr (rsetB s st (phyBlk c) PHY_STAT 6 true) st (0x5002 + (chanOf st c).2 * 0x100) tyDROP none (pc * 128 + lane)
  else
    rsetB (hbmMod s fun x => { x with remap := mapSet (fun _ => none) x.remap (chanNum st c) (some (pc * 72 + lane)) })
      st (phyBlk c) PHY_STAT 4 true

/-- A write of PHY_REMAP_CMD with GO (Table 12-6): LANE 127 names no lane. -/
def remapCommand (s : State) (st : Stop) (c : Fin 2) (v : Nat) : State :=
  if !bit v 8 || rbit s st (phyBlk c) PHY_STAT 4 then s
  else if 71 < bits v 0 7 then rsetB s st (phyBlk c) PHY_STAT 7 true
  else remapLane s st c (bits v 7 1) (bits v 0 7)

/-- REMAP_DONE (R429, steps 2 and 3). The lane's beats go to the spare and traffic resumes. -/
def execRemapDone (st : Stop) (c : Fin 2) (s : State) : Host.Outcome State Fault Refusal :=
  match mapGet (fun _ => none) s.hbm.remap (chanNum st c) with
  | some x =>
    if stopKind st ≠ .memory then .next s
    else
      let pc := x / 72
      let h := laneHalf pc (x % 72)
      let s1 := hbmMod s fun y => { y with remap := mapSet (fun _ => none) y.remap (chanNum st c) none }
      let s2 := rputF s1 st (phyBlk c) PHY_REMAP (8 * h) 8 (x % 72 + 128)
      let s3 := rsat s2 st (phyBlk c) PHY_STAT (2 * pc) 2 1
      let s4 := rsetB (rsetB s3 st (phyBlk c) PHY_STAT 4 false) st (phyBlk c) PHY_STAT 5 true
      .next (reportErr s4 st (0x5001 + (chanOf st c).2 * 0x100) tyCE none (pc * 128 + x % 72))
  | none => .next s

/-- A corrected symbol of a lane is counted (R428); past the threshold the lane is remapped (R429). -/
def laneError (s : State) (st : Stop) (c : Fin 2) (pc lane : Nat) : State :=
  let p := pcNum st c pc
  let v := laneGet s p lane
  let w := (satAdd 16 v.1 1, satAdd 16 v.2 1)
  let s1 := hbmMod s fun h => { h with lanes := mapSet (fun _ => (0, 0)) h.lanes (p * 72 + lane) w }
  if rfld s st (phyBlk c) PHY_LANE_THRESH 0 8 < w.1 ∧ rbit s st (phyBlk c) PHY_LANE_THRESH 24 = true ∧
      rbit s st (phyBlk c) PHY_STAT 4 = false then remapLane s1 st c pc lane
  else s1

/-- The windows of a channel's lanes elapse (R428). -/
def laneWindow (s : State) (st : Stop) (c : Fin 2) : State :=
  hbmMod s fun h => { h with lanes := (h.lanes.map fun e =>
    if e.1 / 144 = chanNum st c then (e.1, (0, e.2.2)) else e).filter fun e => e.2 ≠ (0, 0) }

/-! ## Row sparing (R430) -/

/-- The row a controller is sparing. -/
def sparingOf (s : State) (st : Stop) (c : Fin 2) : Option Nat := mapGet (fun _ => none) s.hbm.sparing (chanNum st c)

/-- The offset of controller `c` in block 5. -/
def scrubOff (c : Fin 2) : Nat := 0x100 * c.val

/-- Spares used by pseudo-channel `pc`: USED0 or USED1. -/
def spareUsed (s : State) (st : Stop) (c : Fin 2) (pc : Nat) : Nat := rfld s st 5 (scrubOff c + SPARE_STAT) (7 * pc) 7

/-- Sparing of a row begins, or finds no spare (R430). -/
def spareRow (s : State) (st : Stop) (c : Fin 2) (row : Nat) : State :=
  if 64 ≤ spareUsed s st c (bits row 21 1) then
    reportErr (rsetB s st 5 (scrubOff c + SPARE_STAT) 16 true) st (0x4004 + c.val * 0x100) tyDROP none row
  else
    rsetB (hbmMod s fun h => { h with sparing := mapSet (fun _ => none) h.sparing (chanNum st c) (some row) })
      st 5 (scrubOff c + SPARE_STAT) 14 true

/-- An automatic sparing falls due (R430): it starts, is queued, or is dropped. -/
def spareAuto (s : State) (st : Stop) (c : Fin 2) (row : Nat) : State :=
  let k := chanNum st c
  let q := mapGet (fun _ => []) s.hbm.queued k
  match sparingOf s st c with
  | none => spareRow s st c row
  | some r =>
    if r = row ∨ q.contains row = true then s
    else if 8 ≤ q.length then rsetB s st 5 (scrubOff c + SPARE_STAT) 18 true
    else hbmMod s fun h => { h with queued := mapSet (fun _ => []) h.queued k (q ++ [row]) }

/-- A write of SPARE_CMD with GO (Table 12-7): ignored while BUSY; SID 3 names no row. -/
def spareCommand (s : State) (st : Stop) (c : Fin 2) (v : Nat) : State :=
  let row := (rget s st 5 (scrubOff c + SPARE_ROW)).toNat
  if !bit v 0 || (sparingOf s st c).isSome then s
  else if bits row 19 2 = 3 then rsetB s st 5 (scrubOff c + SPARE_STAT) 17 true
  else spareRow s st c row

/-- SPARING_DONE (R430, step 3). The row is copied to its spare and redirected; the next queued sparing starts. -/
def execSparingDone (st : Stop) (c : Fin 2) (s : State) : Host.Outcome State Fault Refusal :=
  match sparingOf s st c with
  | none => .next s
  | some row =>
    if stopKind st ≠ .memory then .next s
    else
      let k := chanNum st c
      let o := scrubOff c + SPARE_STAT
      let l := mapGet (fun _ => []) s.hbm.spared k
      let q := mapGet (fun _ => []) s.hbm.queued k
      let s1 := hbmMod s fun h => { h with
        sparing := mapSet (fun _ => none) h.sparing k none
        spared := mapSet (fun _ => []) h.spared k (if l.contains row then l else l ++ [row])
        queued := mapSet (fun _ => []) h.queued k (q.drop 1) }
      let s2 := rsat s1 st 5 o (7 * bits row 21 1) 7 1
      let s3 := rsetB (rsetB s2 st 5 o 14 false) st 5 o 15 true
      match q with
      | r :: _ => .next (spareRow s3 st c r)
      | [] => .next s3

/-! ## Reads (R425 to R427, R431) -/

/-- The first error since VALID was cleared is kept (Table 12-4). -/
def mcCapture (s : State) (l : HbmLoc) (ue scrub : Bool) (lane : Nat) : State :=
  let st := locStop l
  let b := mcBlk (locCtl l)
  if rbit s st b MC_ERR_INFO 0 then s
  else
    let v := 1 + l.pc * 2 + b2n ue * 4 + lane * 8 + b2n scrub * 2 ^ 10 + l.sid * 2 ^ 11
    let s1 := rput s st b MC_ERR_INFO (BitVec.ofNat 32 v)
    rput (rput s1 st b MC_ERR_ADDR_LO (BitVec.ofNat 32 (l.so / 64 * 64))) st b MC_ERR_ADDR_HI (BitVec.ofNat 32 (l.so / 2 ^ 32 % 8))

/-- Whether what memory holds of a line is no longer its value: a cache or another package holds it modified, or a write of it is on its
way (R432). -/
def dirtyAbove (s : State) (line : Nat) : Bool :=
  let home := (homeOf s (64 * line)).map fun st => sliceGet s st
  l2Owned s line || mcNewer s line ||
  home.any fun sl => (l3Find sl line).any (fun e => e.2.dirty) || sl.evb.any (fun e => decide (e.line = line)) ||
    (sfFind sl line).any fun e => e.2.owner.isSome

/-- Whether some cache holds a line as memory held it. -/
def heldClean (s : State) (line : Nat) : Bool :=
  !(l2Holders s line).isEmpty || ((homeOf s (64 * line)).map fun st => sliceGet s st).any fun sl => (l3Find sl line).isSome

/-- A corrective rewrite of a line goes to its write queue, unless a newer write of it has entered it (R432). -/
def rewriteLine (s : State) (line : Nat) : State := if mcNewer s line then s else mcArrive s ⟨line, true, none, false, true⟩

/-- Memory's copy of a line is found poisoned (R427, R432): a newer value of the line stands; where only the scrubber has read it, copies that
caches hold sound stay so, and the line is poisoned once its home reads memory. -/
def memPoison (s : State) (line : Nat) (scrub : Bool) : State :=
  if dirtyAbove s line then s
  else if scrub && heldClean s line then hbmMod s fun h => { h with marked := setAdd h.marked line }
  else poisonLine s (64 * line)

/-- What a read of a line does by its outcome (Table 12-2). -/
def readOutcome (s : State) (pa : Nat) (out : HbmRead) (scrub : Bool) : State :=
  let l := hbmLoc s pa
  let st := locStop l
  let c := locCtl l
  let line := pa / 64 * 64
  let ty := if scrub then tySCRUB else 0
  let count := fun (s : State) off => rput s st (mcBlk c) off (BitVec.ofNat 32 (satAdd 32 (rget s st (mcBlk c) off).toNat 1))
  match out with
  | .clean => s
  | .corrected lane =>
    let s1 := mcCount (count s MC_CE_CNT) st c 11 1
    let s2 := mcCapture s1 l false scrub ((lane.map Fin.val).getD 0)
    let s3 := match lane with | some n => laneError s2 st c l.pc n.val | none => s2
    let s4 := if scrub then rsat s3 st 5 (scrubOff c + SCRUB_CNT) 0 16 1 else s3
    let s4 := if scrub || rbit s4 st (mcBlk c) MC_CTL 5 then rewriteLine s4 (pa / 64) else s4
    reportErr s4 st (0x4001 + c.val * 0x100) (tyCE ||| ty) (some line) ((lane.map Fin.val).getD 0)
  | .uncorrectable =>
    let s1 := mcCount (count (rewriteLine (memPoison s (pa / 64) scrub) (pa / 64)) MC_UE_CNT) st c 12 1
    let s2 := mcCapture s1 l true scrub 0
    let s3 := if scrub then rsat s2 st 5 (scrubOff c + SCRUB_CNT) 16 16 1 else s2
    let s4 := reportErr s3 st (0x4002 + c.val * 0x100) (tyUE ||| ty) (some line)
    if rbit s4 st 5 (scrubOff c + SCRUB_CTL) 1 then spareAuto s4 st c (locRow l) else s4
  | .marked => count (memPoison s (pa / 64) scrub) MC_POISON_RD

/-- Whether the controller of an address serves reads. -/
def mcServes (s : State) (pa : Nat) : Bool :=
  decide (paTarget s pa = .hbm) && chanServes s (locChan (hbmLoc s pa))

/-- HBM_READ_RETURN (R412, R426). A line read from HBM is decoded and handled by outcome, once its bursts have been issued after those that
the scheduler puts before them; at a controller that is off or in self-refresh it waits in staging, and wakes one that is off (R513). -/
def execHbmReadReturn (pa : Nat) (out : HbmRead) (s : State) : Host.Outcome State Fault Refusal :=
  let r := mcRead s (pa / 64)
  .next (if !mcServes s pa then (if paTarget s pa = .hbm then mcAsk s (pa / 64) else s) else if r.2 then readOutcome r.1 pa out false else r.1)

/-- SCRUB_READ (R431). The patrol scrubber reads its next line, which lies at `pa`, and SCRUB_POS advances. -/
def execScrubRead (pa : Nat) (out : HbmRead) (s : State) : Host.Outcome State Fault Refusal :=
  let l := hbmLoc s pa
  let st := locStop l
  let o := scrubOff (locCtl l)
  let r := mcRead s (pa / 64)
  if mcServes s pa && rbit s st 5 (o + SCRUB_CTL) 0 then
    let s1 := mcCount r.1 st (locCtl l) 9 1
    if !r.2 then .next r.1
    else .next (readOutcome (rputF s1 st 5 (o + SCRUB_POS) 0 26 ((rfld s1 st 5 (o + SCRUB_POS) 0 26 + 1) % 50331648)) pa out true)
  else .next s

/-! ## Self-refresh, training and temperature (R420 to R424) -/

/-- A controller enters self-refresh: its queues are completed and what it owes is refreshed first (R421). -/
def selfRefresh (s : State) (st : Stop) (c : Fin 2) : State :=
  let s0 := mcFinish s (chanNum st c)
  let s1 := refreshAll (refreshAll s0 st c 0) st c 1
  rsetB (closeRows s1 fun b => decide (b / 48 / 2 = chanNum st c)) st (mcBlk c) MC_STAT 2 true

/-- A controller leaves self-refresh with one all-bank refresh of each pseudo-channel, before any request (R421). -/
def selfRefreshExit (s : State) (st : Stop) (c : Fin 2) : State :=
  if rbit s st (mcBlk c) MC_STAT 2 then mcAdmit (rsetB (mcCount s st c 5 2) st (mcBlk c) MC_STAT 2 false) (chanNum st c) else s

/-- STK_STAT.STATE (Table 12-8): 0 off, 1 training, 2 ready, 3 self-refresh, 4 retraining, 5 failed. -/
def stkState (s : State) (k : Fin 6) : Nat := rfld s (stkStop k) 6 STK_STAT 0 3
def setStk (s : State) (k : Fin 6) (v : Nat) : State := rputF s (stkStop k) 6 STK_STAT 0 3 v

/-- The work of a stack that training ends. -/
def setWork (s : State) (k : Fin 6) (v : Nat) : State := hbmMod s fun h => { h with work := mapSet (fun _ => 0) h.work k.val v }

/-- A channel begins to retrain, in self-refresh (R424). -/
def retrainChannel (s : State) (st : Stop) (c : Fin 2) : State := rsetB (selfRefresh s st c) st (mcBlk c) MC_STAT 3 true

/-- A STK_CTL command (Table 12-8); one written while the stack trains or retrains is ignored. -/
def stkCommand (s : State) (k : Fin 6) (cmd : Nat) (ch : Fin 8) : State :=
  let st := stkState s k
  if st = 1 ∨ st = 4 then s
  else
    match cmd with
    | 1 => setWork (setStk s k 1) k 1
    | 2 => setWork (setStk s k 1) k 2
    | 3 => if st = 2 then setWork (setStk ((stackChans k).foldl (fun s e => selfRefresh s e.1 e.2) s) k 4) k 3 else s
    | 4 => if st = 2 then retrainChannel s (chanStop k ch) (chanCtl ch) else s
    | 5 =>
      let serial := rget64 s (stkStop k) 6 STK_SERIAL_LO
      let temp := rfld s (stkStop k) 6 STK_TEMP 0 8
      rsetB (hbmMod s fun h => { h with saved := mapSet (fun _ => (0, 0)) h.saved k.val (serial, temp) }) (stkStop k) 6 STK_STAT 3 true
    | _ => s

/-- Whether a byte of memory lies in a stack of this package. -/
def inStack (s : State) (k : Fin 6) (a : Nat) : Bool :=
  decide (a / 2 ^ 40 = pkgNum s) && decide (a % 2 ^ 40 < 6 * stackSize) && decide (hbmStack s (a % 2 ^ 40) = k.val)

/-- Memory of a stack overwritten with zeros (R422, step 5). -/
def zeroStack (s : State) (k : Fin 6) : State :=
  { s with mem :=
    { bytes := s.mem.bytes.filter fun c => !inStack s k c.1
      poison := s.mem.poison.filter fun g => !inStack s k (8 * g) } }

/-- A stack that is ready: its controllers are ON and enabled (R422). -/
def stackReady (s : State) (k : Fin 6) : State :=
  let s1 := (stackChans k).foldl (fun s e =>
    rsetB (selfRefreshExit (setDom s e.1 e.2.val dON) e.1 e.2) e.1 (mcBlk e.2) BLOCK_CTL 0 true) (setStk s k 2)
  { s1 with pkg := { s1.pkg with stackSet := s1.pkg.stackSet ||| 2 ^ k.val } }

/-- A stack that has failed training: it is absent, its controllers stay disabled and their domains are off (R422). -/
def stackFailed (s : State) (k : Fin 6) : State :=
  let s1 := (stackChans k).foldl (fun s e =>
    setDom (rsetB s e.1 (mcBlk e.2) BLOCK_CTL 0 false) e.1 e.2.val dOFF) (setStk s k 5)
  let s2 := { s1 with pkg := { s1.pkg with stackSet := if bit s1.pkg.stackSet k.val then s1.pkg.stackSet - 2 ^ k.val else s1.pkg.stackSet } }
  reportErr (rsetB s2 (stkStop k) 6 STK_STAT 4 true) (stkStop k) 0x5803 tyTIMEOUT

/-- COMMAND_PARITY_FAILURE (R426). The command sequence is repeated; after three failures within 1 ms the channel is retrained
(R424). -/
def execCommandParityFailure (st : Stop) (c : Fin 2) (s : State) : Host.Outcome State Fault Refusal :=
  if stopKind st ≠ .memory ∨ rbit s st (mcBlk c) BLOCK_CTL 0 = false then .next s
  else
    let k := chanNum st c
    let t := ((mapGet (fun _ => []) s.hbm.capar k).filter fun x => decide (tbNow s < x + 100000)) ++ [tbNow s]
    let s1 := reportErr (rsetB s st (mcBlk c) MC_STAT 4 true) st (0x4003 + c.val * 0x100) tyPARITY
    let keep := if 3 ≤ t.length then [] else t
    let s2 := hbmMod s1 fun h => { h with capar := mapSet (fun _ => []) h.capar k keep }
    .next (if 3 ≤ t.length then retrainChannel s2 st c else s2)

/-- STACK_TEMP_READ (R420, R530). The stack's temperature: HOT at 85 °C or above, until 83 °C or below, while its controllers halve
tREFI; at HBM_THROTTLE its activate rate is halved, at 105 °C the package trips. -/
def execStackTempRead (k : Fin 6) (deg : BitVec 8) (s : State) : Host.Outcome State Fault Refusal :=
  let was := rbit s (stkStop k) 6 STK_TEMP 8
  let hot := decide (85 ≤ deg.toNat) || (was && decide (83 < deg.toNat))
  let die := (stkStop k).die
  let s1 := rput s (stkStop k) 6 STK_TEMP (BitVec.ofNat 32 (deg.toNat + 256 * b2n hot))
  let s2 := (stackChans k).foldl (fun s e => rsetB s e.1 (mcBlk e.2) MC_STAT 1 hot) s1
  let lim := rfld s (wsStop die) 4 THERM_CTL 8 8
  let any := (List.finRange 6).any fun j => decide ((stkStop j).die = die) && decide (lim ≤ rfld s2 (stkStop j) 6 STK_TEMP 0 8)
  let s3 := rsetB s2 (wsStop die) 4 THERM_STAT 10 any
  .next (if 105 ≤ deg.toNat then thermalTrip s3 die else s3)

/-! ## The IEEE 1500 port (Table 12-8) -/

/-- W1500_GO: the port shifts. -/
def w1500Go (s : State) (k : Fin 6) : State :=
  if setHas s.hbm.shifting k.val then s
  else rsetB (hbmMod s fun h => { h with shifting := setAdd h.shifting k.val }) (stkStop k) 6 W1500_STAT 0 true

/-- W1500_SHIFT_DONE (R422). The first W1500_LEN bits of the shift buffer are exchanged for those the stack gave. -/
def execW1500ShiftDone (k : Fin 6) (out : BitVec 1024) (s : State) : Host.Outcome State Fault Refusal :=
  if !setHas s.hbm.shifting k.val then .next s
  else
    let n := min 1024 (max 1 (mapGet (fun _ => (0, 0)) s.hbm.w1500 k.val).2)
    let s1 := rsetB (hbmMod s fun h => { h with shifting := setDel h.shifting k.val }) (stkStop k) 6 W1500_STAT 0 false
    .next ((List.range ((n + 31) / 32)).foldl (fun s i =>
      let m := min 32 (n - 32 * i)
      rputF s (stkStop k) 6 (W1500_DR + 4 * i) 0 m (bits out.toNat (32 * i) m)) s1)

/-! ## CXL memory (R433 to R435) -/

/-- A write of CXWw_CTL (R433): EN = 1 is refused for a window that leaves the CXL range or has SIZE 0. -/
def cxlWindowCtl (s : State) (n : Fin 12) (w v : Nat) : State :=
  let st := portStop n
  let base := rfld s st 5 (CXW_BASE + 0x10 * w) 0 24 * 2 ^ 28
  let size := min 65536 (rfld s st 5 (CXW_SIZE + 0x10 * w) 0 17) * 2 ^ 28
  let home := if 5 < bits v 1 3 then 0 else bits v 1 3
  let ok := decide (0 < size) && decide (0x100000000000 ≤ base) && decide (base + size ≤ 0x1000000000000)
  let s1 := rput s st 5 (CXW_CTL + 0x10 * w) (BitVec.ofNat 32 (b2n (bit v 0 && ok) + 2 * home))
  if bit v 0 && !ok then rsetB s1 st 5 BLOCK_STAT 0 true else s1

/-- CXL_MEM_COMPLETION (R434, R435). A MemRd or MemWr completes; read data that arrives poisoned keeps its mark. -/
def execCxlMemCompletion (pa : Nat) (write poison : Bool) (s : State) : Host.Outcome State Fault Refusal :=
  match cxlPort s pa with
  | some n =>
    if poison && !write then .next (rsetB (poisonLine s pa) (portStop n) 5 CXL_STAT 3 true) else .next s
  | none => .next s

/-- CXL_TIMEOUT (R435). A request has no completion within CXL_TMO: a read returns a poisoned line, a write is reported. -/
def execCxlTimeout (pa : Nat) (write : Bool) (s : State) : Host.Outcome State Fault Refusal :=
  match cxlPort s pa with
  | some n =>
    let st := portStop n
    if write then .next (reportErr s st 0x6205 tyTIMEOUT (some (pa / 64 * 64)))
    else .next (reportErr (rsetB (poisonLine s pa) st 5 CXL_STAT 2 true) st 0x6204 tyTIMEOUT (some (pa / 64 * 64)))
  | none => .next s

/-- CXL_LINK_DOWN (R435). The link of a port in CXL mode goes down. -/
def execCxlLinkDown (port : Fin 12) (s : State) : Host.Outcome State Fault Refusal :=
  if portProto s port.val ≠ 1 ∨ cxlUp s port = false then .next s
  else
    let st := portStop port
    let s1 := rsetB (rsetB (rsetB s st 5 CXL_STAT 0 false) st 5 CXL_STAT 1 true) st 1 PORT_STAT 0 false
    .next (reportErr s1 st 0x6206 tyLINK)

/-- A line of CXL memory is written back while the link is down (R435): the write is dropped and counted, and what the device holds is
not what was written: its bytes are free values. -/
def cxlDropped (s : State) (n : Fin 12) (line : Nat) : State :=
  let st := portStop n
  let s1 := rput s st 5 CXL_DROP (BitVec.ofNat 32 (satAdd 32 (rget s st 5 CXL_DROP).toNat 1))
  freeLine s1 line

/-- Whether an eviction-buffer write can be sent: the memory stop of its line grants a Request credit (R291, R410). -/
def evbCredit (s : State) (line : Nat) : Bool := decide (paTarget s (64 * line) ≠ .hbm) || mcCredit s line

/-- The write of a line reaches memory (R427): one with any poisoned granule is stored with the poison marker and reads poisoned whole; what
memory held marked is replaced. -/
def memStored (s : State) (line : Nat) : State :=
  let s1 := hbmMod s fun h => { h with marked := setDel h.marked line }
  if poisoned s1 (64 * line) 64 then poisonLine s1 (64 * line) else s1

/-- EVICTION_WRITE_ISSUE (R291). An eviction-buffer write is issued, once there is a credit for it: to the controller of its line, or to CXL
memory. -/
def execEvictionWriteIssue (st : Stop) (line : Nat) (s : State) : Host.Outcome State Fault Refusal :=
  if evbCredit s line && (sliceGet s st).evb.any fun e => decide (e.line = line) && !e.issued then
    let s1 := sliceMod s st fun sl => { sl with evb := sl.evb.map fun e => if e.line = line then { e with issued := true } else e }
    let s2 := countScope s1 st 0x14 1 (some .normal)
    match paTarget s2 (64 * line) with
    | .hbm =>
      let r := meshSend (memStored s2 line) st (locStop (hbmLoc s2 (64 * line)))
      .next (if r.2 then mcArrive r.1 ⟨line, true, none, false, false⟩ else r.1)
    | .cxl n =>
      if h : n < 12 then .next (if cxlUp s2 ⟨n, h⟩ then s2 else cxlDropped s2 ⟨n, h⟩ line) else .next s2
    | _ => .next s2
  else .next s

end Sys2Proof.Machine
end

