-- ==== Sys2Proof/Machine/Errors.lean ====
section
/-!
DEFINITION. Faults in cores, transaction timers, the ledger, acknowledgement and injection (R443, R447, R449, R453 to R463).
-/

namespace Sys2Proof.Machine

/-! ## The ledger -/

/-- LEDGER_RECORD (R454). The oldest report of a band's queue reaches the die supervisor's ledger. -/
def execLedgerRecord (die : Fin 2) (band : Fin 6) (s : State) : Host.Outcome State Fault Refusal :=
  let k := bandKey die band.val
  match mapGet (fun _ => []) s.err.queues k with
  | [] => .next s
  | r :: q => .next (ledgerEnter { s with err := { s.err with queues := mapSet (fun _ => []) s.err.queues k q } } r)

/-- REPORT_LOST (R455). A band queue that discarded reports has room again. -/
def execReportLost (die : Fin 2) (band : Fin 6) (s : State) : Host.Outcome State Fault Refusal :=
  let k := bandKey die band.val
  if setHas s.err.lost k ∧ (mapGet (fun _ => []) s.err.queues k).length < 16 then
    .next (reportErr { s with err := { s.err with lost := setDel s.err.lost k } } (wsStop die) (0xA003 + band.val * 0x100) tyDROP)
  else .next s

/-- A write of 1 to ERR_CAPp_ACK (R453): the path is released and its ledger record reads ACKED. -/
def errAck (s : State) (st : Stop) (p : Nat) : State :=
  let o := 0x40 * p
  if !getB (rget s st 8 (ERR_CAP_SRC + o)) 31 then s
  else
    let q := rget s st 8 (ERR_CAP_SEQ + o)
    let s1 := match (if getB q 16 then ledgerFind s st.die (getF q 0 16) else none) with
      | some i => ledgerSeal (rsetB s (wsStop st.die) 10 (ledgerOff i + 12) 6 true) st.die i
      | none => s
    let s2 := rsetB (rsetB s1 st 8 (ERR_CAP_SRC + o) 31 false) st 8 ERR_STAT p false
    rput s2 st 8 (ERR_CAP_SEQ + o) 0

/-- A CLEAR of a die's ledger (R463); NEXT_SEQ is unchanged. -/
def ledgerClear (s : State) (d : Fin 2) : State :=
  let ws := wsStop d
  let s1 := (List.range 256).foldl (fun s j => rput s ws 10 (LEDGER_REC + 4 * j) 0) s
  rputF (rput s1 ws 10 LEDGER_LOST 0) ws 10 LEDGER_STAT 0 6 0

/-! ## Injection (R460, R461) -/

/-- Whether an initiator of a world may arm the injection engine of a stop: invasive debug is enabled for the world that owns the source,
and the initiator is of that world or secure. -/
def injMay (s : State) (w : World) (st : Stop) : Bool :=
  let o := srcWorld s st (rfld s st 8 INJ_SRC 0 16)
  dbgInv s o && (decide (w = o) || decide (w = .secure))

/-- A write of INJ_CTL with its legal value (R460). -/
def injWrite (s : State) (w : World) (st : Stop) (v : Reg32) : State :=
  if (getB v 0 = true ∨ rbit s st 8 INJ_CTL 0 = true) ∧ injMay s w st = false then rsetB s st 8 INJ_STAT 1 true
  else
    let s1 := rput s st 8 INJ_CTL v
    let s2 := rsetB s1 st 8 INJ_STAT 0 (getB v 0)
    if getB v 0 && !rbit s st 8 INJ_CTL 0 then rputF s2 st 8 INJ_STAT 8 8 (getF v 8 8)
    else if getB v 0 then s2 else rputF s2 st 8 INJ_STAT 8 8 0

/-- An engine disarms. -/
def injDisarm (s : State) (st : Stop) : State :=
  rputF (rsetB (rsetB s st 8 INJ_CTL 0 false) st 8 INJ_STAT 0 false) st 8 INJ_STAT 8 8 0

/-- Engines armed at sources of a world disarm when its invasive debug is withdrawn (R460). -/
def injWithdraw (s : State) (w : World) : State :=
  allStops.foldl (fun s st =>
    if rbit s st 8 INJ_STAT 0 && decide (srcWorld s st (rfld s st 8 INJ_SRC 0 16) = w) then injDisarm s st else s) s

/-- An armed engine injects one error at its source (R461): a stored one leaves the granules of the line it touches bad. -/
def injFire (s : State) (st : Stop) (addr : Option Nat) : State :=
  let src := rfld s st 8 INJ_SRC 0 16
  let ue := decide (rfld s st 8 INJ_CTL 1 2 ≠ 0)
  let persist := rbit s st 8 INJ_CTL 3
  let s1 := match addr with
    | some a => if persist && ue && !isDevice a then poisonLine s a else s
    | none => s
  let s2 := rsetB (reportErr s1 st src (if ue then tyUE else tyCE) addr 0 0 true) st 8 INJ_STAT 2 true
  let left := rfld s2 st 8 INJ_STAT 8 8 - 1
  if left = 0 then injDisarm s2 st else rputF s2 st 8 INJ_STAT 8 8 left

/-- INJ_TRIGGER (R461). An access through the detector of an armed engine: any (TRIGGER 0), or to the line at INJ_ADDR (TRIGGER 1). -/
def execInjTrigger (st : Stop) (addr : Nat) (s : State) : Host.Outcome State Fault Refusal :=
  let line := (rget64 s st 8 INJ_ADDR_LO) % 2 ^ 52 / 64
  let trig := rfld s st 8 INJ_CTL 4 2
  if rbit s st 8 INJ_STAT 0 ∧ (trig = 0 ∨ trig = 3 ∨ (trig = 1 ∧ addr / 64 = line)) then .next (injFire s st (some addr)) else .next s

/-- INJ_TIME (R461). The timebase has reached INJ_TIME (TRIGGER 2). -/
def execInjTime (st : Stop) (s : State) : Host.Outcome State Fault Refusal :=
  if rbit s st 8 INJ_STAT 0 ∧ rfld s st 8 INJ_CTL 4 2 = 2 ∧ rget64 s st 8 INJ_TIME_LO ≤ tbNow s then .next (injFire s st none) else .next s

/-! ## Cores and timers -/

/-- The threads of a core that a fault may reach. -/
def coreThreads (st : Stop) (c : Fin 2) (t0 t1 : Bool) : List Hart :=
  (if t0 then [Hart.drover st c 0] else []) ++ (if t1 then [Hart.drover st c 1] else [])

/-- CORE_UE (R447). An uncorrectable fault inside a core's logic, of an unlocked tile: each thread it may reach takes a machine check at
its next boundary.  In a locked tile the same fault shows as a mismatch (R469), which GROUP_COMPARE brings. -/
def execCoreUe (st : Stop) (c : Fin 2) (t0 t1 restartable : Bool) (s : State) : Host.Outcome State Fault Refusal :=
  if stopKind st ≠ .tile ∨ tileMode s st = 1 ∨ tileMode s st = 3 ∨ domState s st c.val ≠ dON then .next s
  else
    let src := 0x1006 + c.val * 0x100
    let hs := (coreThreads st c t0 t1).filter fun h => decide ((tget s h).run ≠ .stopped)
    let s1 := reportErr s st src tyUE none 0 (c.val * 32)
    .next (hs.foldl (fun s h => tmod s h fun t => { t with mchk := t.mchk ++ [(src, mchkInfo src false restartable false false, 0)] }) s1)

/-- The waiting messages to other packages that name a line, with the operations `ops`, given up. -/
def dropWaiting (s : State) (line : Nat) (ops : List Nat) : State :=
  { s with link := { s.link with
      waiting := s.link.waiting.filter fun m => !(decide (m.1.addr / 64 = line) && ops.contains m.1.op) } }

/-- TXN_TIMEOUT (R449). The timer of a core's miss-queue entry, or of a slice's transaction slot, expires: 0 a read completes poisoned,
1 a home takes the snooped holder `a` as holding nothing, 2 a write of `a` is taken as acknowledged and reported at severity 2 to its
world. -/
def execTxnTimeout (st : Stop) (core : Option (Fin 2)) (kind : Fin 3) (a : Agent) (line : Nat) (s : State) :
    Host.Outcome State Fault Refusal :=
  if stopKind st ≠ .tile then .next s
  else
    let src := match core with | some c => 0x1007 + c.val * 0x100 | none => 0x3007
    let rep := fun (s : State) => reportErr s st src tyTIMEOUT (some (64 * line))
    match kind with
    | 0 =>
      let s1 := dropWaiting s line [1, 2, 4]
      let s2 := match s.link.waiting.find? fun m => decide (m.1.addr / 64 = line) && [1, 2, 4].contains m.1.op with
        | some m => hold s1 line (some (if m.1.op = 4 then 4 else if m.1.op = 2 then 2 else 0))
        | none => s1
      .next (rep (poisonLine s2 (64 * line)))
    | 1 =>
      match a with
      | .core n =>
        match l2Find s n.val line with
        | some (w, v) =>
          let s1 := sfDropCore (l2Lose s n.val line w) st line n.val
          .next (rep (if 3 ≤ v then poisonLine s1 (64 * line) else s1))
        | none => .next (rep s)
      | .pkg p _ =>
        let dirty := s.link.lent.any fun e => decide (e.1 = line ∧ e.2.1 = p.val ∧ 2 ≤ e.2.2)
        let s1 := sfPkg (lend (dropWaiting s line [0x20, 0x21]) line p.val none) st .normal line p.val false
        .next (rep (if dirty then poisonLine s1 (64 * line) else s1))
      | .courier (.outrider n) => .next (rep (invCourier s line (2 ^ (n.val / 8)) none))
      | _ => .next (rep s)
    | 2 =>
      let l := s.link.waiting.filter fun m => decide (m.1.addr / 64 = line) && [3, 5, 6, 7].contains m.1.op
      let s1 := l.foldl (fun s m => ackDone s m.1 m.2) (dropWaiting s line [3, 5, 6, 7])
      .next (reportErr s1 st src tyTIMEOUT (some (64 * line)) 0 0 false 2 (some (agentWorld s a)))

end Sys2Proof.Machine
end

