-- ==== Sys2Proof/Machine/Lock.lean ====
section
/-!
DEFINITION. Split-lock pairs: mode commands, comparison, the cairn, recovery, self-test and halt (chapter 14).
-/

namespace Sys2Proof.Machine

/-- The two threads of a tile's one logical core (R466, R480). -/
def pairHarts (st : Stop) : List Hart := [.drover st 0 0, .drover st 0 1]

/-! ## Recording (R482) -/

/-- Mismatches of a pair in the last 1 ms, 100,000 ticks of the timebase (R478). -/
def winCount (s : State) (st : Stop) : Nat :=
  (mapGet (fun _ => []) s.lock.window (stopIdx st)).countP fun t => decide (tbNow s < t + 100000)

/-- Syndrome of Table 14-7. -/
def lockSynd (kind thread core win outcome survivor ns : Nat) : Nat :=
  kind + thread * 2 ^ 4 + core * 2 ^ 5 + min win 3 * 2 ^ 6 + outcome * 2 ^ 8 + survivor * 2 ^ 10 + min ns (2 ^ 21 - 1) * 2 ^ 11

/-- The latest event of a tile. -/
def lockLast (s : State) (st : Stop) (synd : Nat) : State :=
  rput64 (rput s st 0 LOCK_LAST (BitVec.ofNat 32 synd)) st 0 LOCK_LAST_TS_LO (tbNow s)

/-- An event of a pair is recorded: the report, LOCK_LAST and the longest stall. -/
def lockRecord (s : State) (st : Stop) (ty synd ns sevUp : Nat) : State :=
  let s1 := lockLast s st synd
  let s2 := rputF s1 st 0 LOCK_REC_MAX 0 20 (max (rfld s1 st 0 LOCK_REC_MAX 0 20) (min ns (2 ^ 20 - 1)))
  reportErr s2 st 0x1008 ty none synd 0 false sevUp

/-! ## Discarding and halting -/

/-- Lines that an uncompared write of a thread still pins (R472). -/
def unpin (s : State) (h : Hart) : State :=
  let l := (tget s h).stores
  let keep := s.lock.pins.filter fun e => decide (e.1 ≠ hartKey h) || l.any fun x => !x.good && decide (x.pa / 64 = e.2)
  { s with lock := { s.lock with pins := keep } }

/-- Steps 1 and 2 of recovery for one thread (R475): its uncompared work and the stores in it are discarded, its lines unpinned and its
reservation cleared; a device-class access that has been sent stays in flight. -/
def discardWork (s : State) (h : Hart) : State :=
  let k := hartKey h
  let s1 := tmod s h fun t => { t with
    stores := t.stores.filter fun e => e.good
    resv := none
    resvLost := t.resvLost || t.resv.isSome
    park := if atRest t then none else t.park
    modeWait := t.modeWait.orElse fun _ => if t.wait.isSome then some false else none
    wait := none
    smpSel := none }
  let s2 := { s1 with lock := { s1.lock with
    groups := mapSet (fun _ => []) s1.lock.groups k []
    req := mapSet (fun _ => 0) s1.lock.req k 0 } }
  unpin s2 h

/-- A mode of a tile is set; modes 2 and 3 are an event (Table 14-9). -/
def setTileMode (s : State) (st : Stop) (m : Nat) : State :=
  let s1 := rputF s st 0 LOCK_STAT 0 2 m
  if 2 ≤ m then rsetB s1 st 0 LOCK_STAT 8 true else s1

/-- What a pair keeps for its comparison and recovery is forgotten. -/
def lockForget (s : State) (st : Stop) : State :=
  let s1 := (pairHarts st).foldl (fun s h =>
    let k := hartKey h
    { s with lock := { s.lock with
        cairn := mapSet (fun _ => Thread.initial) s.lock.cairn k Thread.initial
        groups := mapSet (fun _ => []) s.lock.groups k []
        req := mapSet (fun _ => 0) s.lock.req k 0
        latch := mapSet (fun _ => none) s.lock.latch k none
        bad := setDel s.lock.bad k
        pins := s.lock.pins.filter fun e => e.1 ≠ k } }) s
  { s1 with lock := { s1.lock with
      window := mapSet (fun _ => []) s1.lock.window (stopIdx st) []
      event := mapSet (fun _ => none) s1.lock.event (stopIdx st) none } }

/-- The tile halts (R481): its provisional effects are removed, its threads stop, both core domains are reset by a domain-fatal report,
and MODE is 3. -/
def tileHalt (s : State) (st : Stop) (kind thread core ns : Nat) : State :=
  let win := winCount s st
  let s1 := (pairHarts st).foldl (fun s h => wqSettle (discardWork s h) h) s
  let s2 := lockRecord s1 st tyUE (lockSynd kind thread core win 3 0 ns) ns 3
  let s3 := domainReset s2 st 1
  let s4 := rputF s3 st 0 LOCK_STAT 3 2 0
  addEvent (lockForget (setTileMode s4 st 3) st) 3 (stopLocus (pkgNum s) st) 0x1008 (domSecure s st 0)

/-! ## Mismatch and recovery (R475, R478) -/

/-- Whether step 3 of recovery is done: every cancellation acknowledged, no device-class access in flight. -/
def recoverReady (s : State) (st : Stop) : Bool :=
  (pairHarts st).all fun h => atRest (tget s h) && decide (provOf s h ≤ confirmOf s h)

/-- What both cores of a pair have cached of translations, predictions and return addresses is forgotten (R475, step 4). -/
def pairForget (s : State) (st : Stop) : State :=
  let s1 := [(0 : Fin 2), 1].foldl (fun s c =>
    cput s (coreKey st c) (cget s (coreKey st c)).forget) s
  (pairHarts st).foldl (fun s h => tmod s h fun t => { t with rstack := Vector.replicate 32 (0, none), rtop := 0 }) s1

/-- A thread's state loaded from its cairn (R475, step 5); what is no architectural state stays. -/
def fromCairn (s : State) (h : Hart) : State :=
  let c := mapGet (fun _ => Thread.initial) s.lock.cairn (hartKey h)
  countThread (tmod s h fun t => { c with
    stores := t.stores, resv := none, resvLost := t.resvLost, park := none, wait := none, modeWait := t.modeWait, nb := t.nb
    startAt := t.startAt, stopReq := t.stopReq, haltReq := t.haltReq, mchk := t.mchk, smpSel := none
    rstack := t.rstack, rtop := t.rtop }) h evRECOVER 1

/-- Whether a word of a pair's cairns is uncorrectable and not refreshed, so that its threads cannot be recovered (R474, R481). -/
def cairnLost (s : State) (st : Stop) : Bool := (pairHarts st).any fun h => setHas s.lock.bad (hartKey h)

/-- Step 2 of a persistent-fault stop on (R478): the lead's caches are emptied and both core domains are under self-test. -/
def selftestStart (s : State) (st : Stop) : State :=
  let s1 := rputF s st 0 LOCK_STAT 3 2 2
  pairForget (l2Empty s1 (coreNum st 0)) st

/-- Recovery goes on once step 3 is done. -/
def recoverStep (s : State) (st : Stop) (ns : Nat) : State :=
  match mapGet (fun _ => none) s.lock.event (stopIdx st) with
  | none => s
  | some (kind, thread, core, stop) =>
    if !recoverReady s st then s
    else if stop then selftestStart s st
    else if cairnLost s st then tileHalt s st kind thread core ns
    else
      let s1 := (pairHarts st).foldl fromCairn (pairForget s st)
      let s2 := rsetB { s1 with lock := { s1.lock with event := mapSet (fun _ => none) s1.lock.event (stopIdx st) none } }
        st 0 LOCK_STAT 3 false
      lockRecord s2 st tyCE (lockSynd kind thread core (winCount s2 st) 0 0 ns) ns 0

/-- A mismatch (R475): it is counted and its work discarded; a pair with an unrefreshed uncorrectable cairn word halts, the third
mismatch within 1 ms makes a persistent-fault stop. -/
def mismatch (s : State) (st : Stop) (kind thread core : Nat) : State :=
  let i := stopIdx st
  let w := (mapGet (fun _ => []) s.lock.window i).filter (fun t => decide (tbNow s < t + 100000)) ++ [tbNow s]
  let s1 := { s with lock := { s.lock with window := mapSet (fun _ => []) s.lock.window i w } }
  let s2 := rsat (rsetB s1 st 0 LOCK_STAT 7 true) st 0 LOCK_CNT 0 24 1
  if cairnLost s2 st then tileHalt s2 st kind thread core 0
  else
    let stop := decide (3 ≤ w.length)
    let s3 := if stop then rsat s2 st 0 LOCK_CNT 24 8 1 else s2
    let s4 := (pairHarts st).foldl discardWork (rsetB s3 st 0 LOCK_STAT 3 true)
    let s5 := { s4 with lock := { s4.lock with event := mapSet (fun _ => none) s4.lock.event i (some (kind, thread, core, stop)) } }
    if stop then recoverStep s5 st 0 else s5

/-- A group compares good (R470, R473): the cairn advances, its stores may drain, its waybill operation is confirmed, its latch and pins
are released. -/
def groupGood (s : State) (h : Hart) : State :=
  let k := hartKey h
  match mapGet (fun _ => []) s.lock.groups k with
  | [] => s
  | g :: r =>
    let s1 := { s with lock := { s.lock with
      cairn := mapSet (fun _ => Thread.initial) s.lock.cairn k g.after
      groups := mapSet (fun _ => []) s.lock.groups k r
      latch := if g.kind = 2 then mapSet (fun _ => none) s.lock.latch k none else s.lock.latch
      bad := if g.kind = 3 then setDel s.lock.bad k else s.lock.bad } }
    let s2 := tmod s1 h fun t => { t with stores := t.stores.map fun e => if e.seq < g.seq then { e with good := true } else e }
    let s2 := if s2.lock.pins.any fun e => decide (e.1 = k) then drainAll s2 h else s2
    unpin (if g.kind = 1 then setConfirm s2 h (confirmOf s2 h + 1) else s2) h

/-- Whether a thread belongs to a pair that runs locked and is not under self-test. -/
def comparing (s : State) (st : Stop) (c : Fin 2) : Bool :=
  decide (stopKind st = .tile) && decide (tileMode s st = 1) && decide (c = 0) && !rbit s st 0 LOCK_STAT 4

/-- Whether a signature is that of the oldest group of a thread that has not been compared, as the lead's core computed it (R468). -/
def signatureGood (s : State) (h : Hart) (check : BitVec 64) : Bool := (groupsOf s h).head?.all fun g => decide (g.sig = check)

/-- The code of a mismatch's kind (Table 14-7), and the core that raised it where one did. -/
def mismatchKind (m : Mismatch) : Nat := match m with | .signature => 1 | .access => 2 | .request => 3 | .coreUe _ => 4
def mismatchCore (m : Mismatch) : Nat := match m with | .coreUe c => c.val | _ => 0

/-- GROUP_COMPARE (R467, R468). The signature `check` of a retire group that the second core computed is compared with the lead's: good, or a
mismatch; `bad` is one found at the other points of Table 14-2 or by a core's error. -/
def execGroupCompare (h : Hart) (check : BitVec 64) (bad : Option Mismatch) (s : State) : Host.Outcome State Fault Refusal :=
  match h with
  | .drover st c t =>
    if !comparing s st c then .next s
    else
      match bad with
      | none => if signatureGood s h check then .next (groupGood s h) else .next (mismatch s st 1 t.val 0)
      | some m => .next (mismatch s st (mismatchKind m) (if mismatchKind m = 4 then 0 else t.val) (mismatchCore m))
  | _ => .next s

/-- REQUEST_COMPARE (R467). A request that waits to leave a pair is compared; one that compares good may be sent, once. -/
def execRequestCompare (h : Hart) (good : Bool) (s : State) : Host.Outcome State Fault Refusal :=
  match h with
  | .drover st c t =>
    let k := hartKey h
    if !comparing s st c || decide (mapGet (fun _ => 0) s.lock.req k ≠ 1) then .next s
    else if good then .next { s with lock := { s.lock with req := mapSet (fun _ => 0) s.lock.req k 2 } }
    else .next (mismatch s st 3 t.val 0)
  | _ => .next s

/-- RECOVERY_RESUME (R475). The acknowledgements that recovery waits for are there: the threads are loaded from the cairn and resume
`ns` after the mismatch, or a persistent-fault stop goes on to its self-test. -/
def execRecoveryResume (st : Stop) (ns : Nat) (s : State) : Host.Outcome State Fault Refusal :=
  if stopKind st = .tile ∧ rbit s st 0 LOCK_STAT 3 = true then .next (recoverStep s st ns) else .next s

/-! ## Self-test (R479) -/

/-- The threads of a tested pair run on from the cairn. -/
def selftestResume (s : State) (st : Stop) : State :=
  let s1 := (pairHarts st).foldl fromCairn (rsetB s st 0 LOCK_STAT 4 false)
  { s1 with lock := { s1.lock with
      event := mapSet (fun _ => none) s1.lock.event (stopIdx st) none
      window := mapSet (fun _ => []) s1.lock.window (stopIdx st) [] } }

/-- One core has failed: the tile runs degraded on the other, and the failed core's domain is powered down. A WAIT that recovery has given
up meets the change of mode (Table 3-16). -/
def degrade (s : State) (st : Stop) (survivor : Fin 2) : State :=
  let f : Fin 2 := if survivor = 0 then 1 else 0
  let s0 := (pairHarts st).foldl (fun s h => tmod s h fun t => { t with modeWait := t.modeWait.map fun _ => true }) s
  let s1 := setTileMode (rputF s0 st 0 LOCK_STAT 2 1 survivor.val) st 2
  let s2 := setDom (cput s1 (coreKey st f) (cget s1 (coreKey st f)).forget) st f.val dOFF
  addEvent s2 2 (stopLocus (pkgNum s) st) 0x1008 (domSecure s st 0)

/-- The reports of a persistent-fault stop (R482): the mismatch that made it and the stop itself. -/
def stopRecord (s : State) (st : Stop) (event : Option (Nat × Nat × Nat × Bool)) (outcome survivor ns : Nat) : State :=
  let win := winCount s st
  let s1 := match event with
    | some (kind, thread, core, _) => lockRecord s st tyCE (lockSynd kind thread core win outcome survivor ns) ns 0
    | none => s
  lockRecord s1 st tyCE (lockSynd 7 0 0 win outcome survivor ns) ns 0

/-- SELFTEST_DONE (R479). The results of the self-test decide (Table 14-6); threads whose cairn is lost cannot resume (R474, R481). -/
def execSelftestDone (st : Stop) (p0 p1 : Bool) (ns : Nat) (s : State) : Host.Outcome State Fault Refusal :=
  if stopKind st ≠ .tile ∨ rbit s st 0 LOCK_STAT 4 = false then .next s
  else
    let e := mapGet (fun _ => none) s.lock.event (stopIdx st)
    match p0 && !cairnLost s st, p1 && !cairnLost s st with
    | true, true => .next (selftestResume (stopRecord s st e 1 0 ns) st)
    | false, true => .next (selftestResume (degrade (stopRecord s st e 2 1 ns) st 1) st)
    | true, false => .next (selftestResume (degrade (stopRecord s st e 2 0 ns) st 0) st)
    | false, false =>
      let s1 := match e with
        | some (kind, thread, core, _) => lockRecord s st tyCE (lockSynd kind thread core (winCount s st) 3 0 ns) ns 0
        | none => s
      .next (tileHalt s1 st 7 0 0 ns)

/-! ## The cairn's own errors (R474) -/

/-- CAIRN_SCRUB (R474). The scrub, or a recovery that restores them, reads a thread's cairn words: all sound, one corrected, or one
uncorrectable, which makes the pair refresh that cairn. -/
def execCairnScrub (h : Hart) (err : Option Bool) (s : State) : Host.Outcome State Fault Refusal :=
  match h, err with
  | .drover st c t, some ue =>
    if stopKind st ≠ .tile ∨ tileMode s st ≠ 1 ∨ c ≠ 0 then .next s
    else
      let s1 := rsat s st 0 LOCK_CAIRN_ERR (if ue then 16 else 0) 16 1
      let s2 := if ue then { s1 with lock := { s1.lock with bad := setAdd s1.lock.bad (hartKey h) } } else s1
      .next (lockRecord s2 st (if ue then tyUE else tyCE) (lockSynd (if ue then 6 else 5) t.val 0 (winCount s st) 0 0 0) 0 0)
  | _, _ => .next s

/-! ## Mode commands (R465, R480) -/

/-- Whether a core has a line request outstanding (R208): one to another package, or one that its home keeps. -/
def coreAsks (s : State) (st : Stop) (c : Fin 2) : Bool :=
  let mine := fun a : Agent => match a with | .core n => decide (n.val = coreNum st c) | _ => false
  (s.link.waiting.any fun m => match m.2 with | some (.drover t d _) => decide (t = st) && decide (d = c) && decide (m.1.op ≤ 7) | _ => false) ||
  s.cache.slices.any fun e => (e.2.waits.any fun w => mine w.2.1) || e.2.evb.any fun v => v.waiting.any fun w => mine w.2.1

/-- BLOCK_STAT.ACTIVE of blocks 1 to 5 of a tile (R208, R301). -/
def tileActive (s : State) (st : Stop) (blk : Nat) : Bool :=
  let on := rbit s st blk BLOCK_CTL 0
  match blk with
  | 1 | 2 => ((domHarts s st (blk - 1)).any fun h => decide ((tget s h).run ≠ .stopped) || (tget s h).startAt.isSome) ||
    coreAsks s st ⟨(blk - 1) % 2, by omega⟩
  | 3 | 4 => on || rbit s st blk L2_STAT 0 || rbit s st blk L2_STAT 1
  | 5 => on || rbit s st blk L3_STAT 0 || rbit s st blk L3_STAT 1 || rbit s st blk L3_STAT 2
  | _ => false

/-- Whether a tile is quiesced. -/
def quiesced (s : State) (st : Stop) : Bool :=
  (tileHarts st).all (fun h => decide ((tget s h).run = .stopped)) &&
  [1, 2, 3, 4].all fun b => !rbit s st b BLOCK_CTL 0 && !tileActive s st b

/-- A write of LOCK_CMD by a secure initiator: 1 LOCK, 2 UNLOCK, 3 RETEST; one that is refused sets CMDERR. -/
def lockCmd (s : State) (st : Stop) (cmd : Nat) : State :=
  if cmd < 1 ∨ 3 < cmd then s
  else
    let m := tileMode s st
    if !quiesced s st || rbit s st 0 LOCK_STAT 5 || (decide (cmd ≤ 2) != decide (m ≤ 1)) then rsetB s st 0 LOCK_STAT 6 true
    else
      let s1 := { s with lock := { s.lock with cmd := mapSet (fun _ => 0) s.lock.cmd (stopIdx st) cmd } }
      rsetB s1 st 0 LOCK_STAT 5 true

/-- Both core domains are reset. -/
def coresReset (s : State) (st : Stop) : State := domainReset (domainReset s st 0) st 1

/-- The seal key of core 0 becomes core 1's too. -/
def keyCopy (s : State) (st : Stop) : State :=
  cput s (coreKey st 1) { cget s (coreKey st 1) with key := (cget s (coreKey st 0)).key, sealGen := (cget s (coreKey st 0)).sealGen }

/-- A tile becomes locked: both cores start alike. -/
def makeLocked (s : State) (st : Stop) : State := setTileMode (lockForget (keyCopy (coresReset s st) st) st) st 1

/-- A tile becomes unlocked: core 1 draws a fresh key. -/
def makeUnlocked (s : State) (st : Stop) : State :=
  let s1 := coresReset s st
  let s2 := cput (useFree s1) (coreKey st 1) { cget s1 (coreKey st 1) with key := freeVal s1 }
  setTileMode (lockForget s2 st) st 0

/-- Both core domains powered for a self-test (R512). -/
def coresOn (s : State) (st : Stop) : State := setDom (setDom s st 0 dON) st 1 dON

/-- A RETEST with the results of the self-test: of the failed core in mode 2, of both in mode 3. -/
def retested (s : State) (st : Stop) (p0 p1 : Bool) : State :=
  if tileMode s st = 2 then
    let failed := if rbit s st 0 LOCK_STAT 2 then p0 else p1
    if failed then makeLocked (coresOn s st) st else s
  else
    match p0, p1 with
    | true, true => makeLocked (coresOn s st) st
    | true, false => degrade (lockForget (coresReset (coresOn s st) st) st) st 0
    | false, true => degrade (lockForget (coresReset (coresOn s st) st) st) st 1
    | false, false => s

/-- LOCK_CMD_DONE (R465). The mode command in progress completes; `p0` and `p1` are the results of a RETEST's self-test. -/
def execLockCmdDone (st : Stop) (p0 p1 : Bool) (s : State) : Host.Outcome State Fault Refusal :=
  if stopKind st ≠ .tile ∨ rbit s st 0 LOCK_STAT 5 = false then .next s
  else
    let i := stopIdx st
    let cmd := mapGet (fun _ => 0) s.lock.cmd i
    let s1 := rsetB { s with lock := { s.lock with cmd := mapSet (fun _ => 0) s.lock.cmd i 0 } } st 0 LOCK_STAT 5 false
    match cmd with
    | 1 => .next (if tileMode s1 st = 1 then s1 else makeLocked s1 st)
    | 2 => .next (if tileMode s1 st = 0 then s1 else makeUnlocked s1 st)
    | 3 => .next (retested s1 st p0 p1)
    | _ => .next s1

/-- A write of 1 to LOCK_CLR (R483). -/
def lockClear (s : State) (st : Stop) : State :=
  [LOCK_CNT, LOCK_REC_MAX, LOCK_CAIRN_ERR].foldl (fun s o => rput s st 0 o 0) s

end Sys2Proof.Machine
end

