-- ==== Sys2Proof/Machine/Power.lean ====
section
/-!
DEFINITION. Power, clocks and temperature: band frequencies, domain events, package entry and exit, throttling and rails (chapter 16).
-/

namespace Sys2Proof.Machine

/-! ## Band frequency (R508 to R510) -/

/-- The base frequency that a power limit guarantees (Table 16-3), in 100 MHz. -/
def baseFreq (watts : Nat) : Nat := if 500 ≤ watts then 26 else if 440 ≤ watts then 23 else if 380 ≤ watts then 20 else 17

/-- The grant and the thermal limit of a band; neither lowers anything until something lowers it. -/
def bandGrant (s : State) (k : Nat) : Nat := mapGet (fun _ => 32) s.pow.grant k
def bandTherm (s : State) (k : Nat) : Nat := (mapGet (fun _ => (32, 0)) s.pow.therm k).1

/-- Whether a band has a PLL: b1 to b4. -/
def bandHasPll (b : Nat) : Bool := decide (1 ≤ b ∧ b ≤ 4)

/-- The frequency of a band: the least of the request, the ceiling, the grant and the thermal limit (R508). -/
def bandTarget (s : State) (die : Fin 2) (b : Nat) : Nat :=
  let req := rfld s (wsStop die) 5 (bandBase b + BAND_CTL) 0 6
  let k := bandKey die b
  min (min req (freqCeiling (bandCores s die b))) (min (bandGrant s k) (bandTherm s k))

/-- BAND_STAT.FREQ of a band, and the state with it replaced. -/
def bandFreq (s : State) (die : Fin 2) (b : Nat) : Nat := rfld s (wsStop die) 5 (bandBase b + BAND_STAT) 0 6
def setBandFreq (s : State) (die : Fin 2) (b v : Nat) : State := rputF s (wsStop die) 5 (bandBase b + BAND_STAT) 0 6 v

/-- The bands with a PLL. -/
def pllBands : List (Fin 2 × Nat) := [((0 : Fin 2), 1), (0, 2), (0, 3), (0, 4), (1, 1), (1, 2), (1, 3), (1, 4)]

/-- Every band PLL locked at its band's frequency (R508), as the boot and a Camp exit leave it (log entry 28). -/
def bandsRun (s : State) : State := pllBands.foldl (fun s e => setBandFreq s e.1 e.2 (bandTarget s e.1 e.2)) s

/-- BAND_FREQUENCY_CHANGE (R510). A band goes to its frequency: a lower one at once, the PLL first; a higher one once the regulator
reports the higher voltage. -/
def execBandFrequencyChange (die : Fin 2) (b : Fin 6) (s : State) : Host.Outcome State Fault Refusal :=
  let t := bandTarget s die b.val
  if !bandHasPll b.val then .next s
  else if t < bandFreq s die b.val then .next (setBandFreq s die b.val t)
  else if bandFreq s die b.val < t then
    .next { s with pow := { s.pow with volt := setAdd s.pow.volt (bandKey die b.val) } }
  else .next s

/-- REGULATOR_REPORT (R510). The regulator reports the voltage a band has asked for, and its PLL switches. -/
def execRegulatorReport (die : Fin 2) (b : Fin 6) (s : State) : Host.Outcome State Fault Refusal :=
  let k := bandKey die b.val
  if setHas s.pow.volt k then
    .next (setBandFreq { s with pow := { s.pow with volt := setDel s.pow.volt k } } die b.val (bandTarget s die b.val))
  else .next s

/-- The state with a band's grant replaced. -/
def setGrant (s : State) (k v : Nat) : State := { s with pow := { s.pow with grant := mapSet (fun _ => 32) s.pow.grant k v } }

/-- Whether the base frequency is guaranteed: every core domain that can be on is ON and no band is thermally limited (R509). -/
def baseHolds (s : State) : Bool :=
  (pllBands.all fun e => decide (bandTherm s (bandKey e.1 e.2) = 32)) &&
  allTiles.all fun st => [0, 1].all fun d => !domUsable s st d || decide (domState s st d = dON)

/-- The band whose grant is lowered first: the one of the highest frequency. -/
def highestBand (s : State) : Option (Fin 2 × Nat) :=
  pllBands.foldl (fun m e =>
    match m with
    | none => some e
    | some f => if bandFreq s f.1 f.2 < bandFreq s e.1 e.2 then some e else some f) none

/-- Grants after an estimate (R509): over the limit, that of the band of the highest frequency falls by 100 MHz, but not under a
guaranteed base; within it, free values say which grants rise again (log entry 1). -/
def adjustGrants (s : State) (watts limit : Nat) : State :=
  if limit < watts then
    match highestBand s with
    | some e =>
      let k := bandKey e.1 e.2
      let g := min (bandGrant s k) (bandFreq s e.1 e.2)
      let low := if baseHolds s then baseFreq limit else 8
      if low < g then setGrant s k (g - 1) else s
    | none => s
  else
    let f := (freeVal s).toNat
    pllBands.foldl (fun s e =>
      let k := bandKey e.1 e.2
      if bit f k then setGrant s k (min 32 (bandGrant s k + 1)) else s) (useFree s)

/-- POWER_ESTIMATE (R509). The estimate of the last 100 µs, and the grants it gives. -/
def execPowerEstimate (watts : BitVec 10) (s : State) : Host.Outcome State Fault Refusal :=
  let limit := rfld s (wsStop 0) 4 PKG_PWR_LIMIT 0 10
  let v := BitVec.ofNat 32 (watts.toNat + baseFreq limit * 65536)
  .next (adjustGrants (rput (rput s (wsStop 0) 4 PKG_PWR_EST v) (wsStop 1) 4 PKG_PWR_EST v) watts.toNat limit)

/-! ## Domains (R512 to R515) -/

/-- DOMAIN_AUTO_ENTRY (R512). A core or slice domain that has been quiet for IDLE_US enters OFF, as far as abort point `ap`, 6 being
OFF. -/
def execDomainAutoEntry (st : Stop) (d : Fin 3) (ap : Fin 7) (s : State) : Host.Outcome State Fault Refusal :=
  if stopKind st = .tile ∧ rbit s st 9 (0x10 * d.val + DSEQ_CTL) 0 = true ∧ domUsable s st d.val = true then
    .next (domEnter s st d.val ap.val)
  else .next s

/-- WAKE_EVENT (R513). A wake event of a kind of DSEQ_STAT.LAST_WAKE reaches a domain; out of Run it is a package wake of a kind of
Table 16-8. -/
def execWakeEvent (st : Stop) (d : Fin 16) (kind : Fin 7) (pkgKind : Fin 8) (arg : BitVec 16) (s : State) :
    Host.Outcome State Fault Refusal :=
  if !domExists st d.val || decide (d = 15) || decide (kind = 0) then .next s
  else if pkgState s = 0 then .next (domWake s st d.val kind.val)
  else if pkgKind = 0 then .next s
  else .next (pkgWake s pkgKind.val arg.toNat)

/-- SEQ_TIMEOUT (R515). A sequencer has not reached its state within 1 ms: isolation is forced and the domain is reset. -/
def execSeqTimeout (st : Stop) (d : Fin 16) (s : State) : Host.Outcome State Fault Refusal :=
  if domExists st d.val && decide (d ≠ 15) && decide (domState s st d.val = dENTERING ∨ domState s st d.val = dWAKING) then
    .next (reportErr s st (0xC901 + 0x10 * d.val) tyTIMEOUT)
  else .next s

/-- A section is powered: its stack's controllers, its slices and its core domains (R26). -/
def sectionWake (s : State) (die : Fin 2) (k : Nat) : State :=
  (allStops.filter fun st => decide (st.die = die) && decide (st.x.val / 4 = k)).foldl (fun s st =>
    match stopKind st with
    | .tile => [0, 1, 2].foldl (fun s d => domWake s st d wkBand) s
    | .memory => [0, 1].foldl (fun s d => domWake s st d wkBand) s
    | _ => s) s

/-! ## Package entry and exit (R520 to R525) -/

/-- Whether a slice keeps its power in Camp (R305). -/
def sliceKept (s : State) (st : Stop) : Bool :=
  decide (depotMask s st ≠ 0) || s.wb.enabled.any fun k => decide (k / 128 = stopIdx st)

/-- Every Drover thread of a package. -/
def allDrovers : List Hart := allTiles.flatMap tileHarts

/-- Whether a Camp entry is accepted from a world (R520). -/
def mayCamp (s : State) (w : World) : Bool :=
  decide (pkgState s = 0) &&
  (allDrovers.all fun h =>
    let t := tget s h
    decide (t.run ≠ .running) && decide (t.run ≠ .halted) && !(decide (t.run = .waiting) && t.resv.isSome)) &&
  (decide (w = .secure) ||
    allStops.all fun st => (List.range 8).all fun d =>
      !(domExists st d && decide (domState s st d = dON) && domGuarded s w st d))

/-- Whether a Dormant entry is accepted from a world (R520). -/
def mayDormant (s : State) (w : World) : Bool :=
  mayCamp s w && (allDrovers.all fun h => decide ((tget s h).run = .stopped)) &&
  (List.finRange 16).all fun n => decide ((tget s (.outrider n)).run = .stopped)

/-- An accepted entry begins: CAMP_ENTRY 1 or DORMANT_ENTRY 4 (R521, step 1). -/
def pkgEnter (s : State) (dormant : Bool) : State :=
  let s1 := setPkgState (rput s (wsStop 0) 4 WAKE_LATCH 0) (if dormant then 4 else 1)
  { s1 with pow := { s1.pow with latched := [] } }

/-- Core domains go OFF (R521, step 2). -/
def coresDown (s : State) : State :=
  allTiles.foldl (fun s st =>
    [0, 1].foldl (fun s d => if domState s st d = dOFF then s else domOff ((domHarts s st d).foldl drainAll s) st d) s) s

/-- Slices go OFF but for those that are kept, which empty their cache ways and are RETAINED (R521, step 3). -/
def slicesDown (s : State) (dormant : Bool) : State :=
  allTiles.foldl (fun s st =>
    if domState s st 2 = dOFF then s
    else if !dormant && sliceKept s st then setDom (l3Empty s st) st 2 dRETAINED
    else domOff (l3Empty s st) st 2) s

/-- Stacks enter self-refresh and their controller domains go OFF (R521, step 4). -/
def stacksDown (s : State) : State :=
  (List.finRange 6).foldl (fun s k =>
    if stkState s k = 2 then
      (stackChans k).foldl (fun s e => setDom (selfRefresh s e.1 e.2) e.1 e.2.val dOFF) (setStk s k 3)
    else s) s

/-- Band rails in Camp: at retention voltage where a slice of the row is kept, off otherwise; the PLLs stop (R521, step 6). -/
def bandsDown (s : State) (dormant : Bool) : State :=
  pllBands.foldl (fun s e =>
    let kept := !dormant && (List.finRange 12).any fun x => sliceKept s ⟨e.1, ⟨e.2 % 6, by omega⟩, x⟩
    let s1 := rputF (setBandFreq s e.1 e.2 0) (wsStop e.1) 5 (bandBase e.2 + BAND_STAT) 6 2 (if kept then 1 else 0)
    rputF s1 (wsStop 0) 3 RAIL_STAT (4 * e.1.val + e.2 - 1) 1 (b2n kept)) s

/-- What VDD_UNC's loss in Dormant leaves of the registers: the Waystation stops', and what the Waystation restores on exit: queue
configurations and enables, secure slots, depot conversions, CXL windows, tile modes, retired slices, the domains' owners, the
ports' protocols and the stacks' repairs (R310, R366, R423, R525). -/
def dormantKept (key : Nat) : Bool :=
  let blk := key / 0x10000 % 64
  let off := key % 0x10000
  match stopOf (key / 0x400000) with
  | none => false
  | some st =>
    match stopKind st with
    | .waystation => true
    | .tile =>
      (decide (blk = 5) && (decide (off = WB_SLICE ∨ off = L3_DEPOT ∨ off = L3_STAT) ||
        decide (0x1000 ≤ off ∧ off < 0x3000 ∧ off % 0x40 < 0x20))) ||
      (decide (blk = 0) && decide (off = LOCK_STAT)) || (decide (blk = 9) && decide (off % 0x10 = DSEQ_STAT))
    | .memory => decide (3 ≤ blk ∧ blk ≤ 6) || (decide (blk = 9) && decide (off % 0x10 = DSEQ_STAT))
    | .io => (decide (blk = 5) && decide (0x100 ≤ off)) || (decide (blk = 1) && decide (off = PORT_CAP)) ||
        (decide (blk = 9) && decide (off % 0x10 = DSEQ_STAT))
    | _ => decide (blk = 9) && decide (off % 0x10 = DSEQ_STAT)

/-- Whether a counter is held on VDD_STBY: a Waystation stop's (R561). -/
def stbyCounter (k : Nat) : Bool :=
  decide (0x100000 ≤ k) && (match stopOf ((k - 0x100000) / 256) with | some st => decide (stopKind st = .waystation) | none => false)

/-- Dormant: every rail but VDD_STBY is off; contents and most registers are lost, queues are empty. -/
def dormantDown (s : State) : State :=
  let s1 := contentsLost (rputF s (wsStop 0) 3 RAIL_STAT 0 13 0)
  { s1 with
    reg := { s1.reg with vals := s1.reg.vals.filter fun e => dormantKept e.1, latch := [], held := [], heldStage := [] }
    wb := { s1.wb with prov := [], holes := [], viol := [] }
    pm := { s1.pm with cnt := s1.pm.cnt.filter fun e => stbyCounter e.1, ovf := s1.pm.ovf.filter stbyCounter,
                       shd := s1.pm.shd.filter fun e => stbyCounter e.1 }
    intr := ⟨[], [], [], []⟩
    link := { s1.link with out := [], sent := [], waiting := [], held := [], lent := [], cv := [], fails := [], training := [] }
    io := { s1.io with reqs := [], posted := [], wire := [], rp := [], ep := [], flr := false, rom := [], cpl := [], inq := [] } }

/-- CAMP_ENTRY_DONE (R521, R522). A package entry completes; a wake event latched meanwhile starts the exit at once. -/
def execCampEntryDone (s : State) : Host.Outcome State Fault Refusal :=
  let fin := fun (s : State) (v : Nat) =>
    let s1 := setPkgState s v
    match s1.pow.latched with
    | (k, a) :: _ => startExit s1 k a
    | [] => s1
  match pkgState s with
  | 1 => .next (fin (bandsDown (stacksDown (slicesDown (coresDown s) false)) false) 2)
  | 4 => .next (fin (dormantDown (bandsDown (stacksDown (slicesDown (coresDown s) true)) true)) 5)
  | _ => .next s

/-- A section action taken on the way into Camp, in it or on the way out is performed after the exit (Table 16-10); it waits among the
latched events under kind 16, which is no kind of Table 16-8. -/
def deferSection (s : State) (die : Fin 2) (k : Nat) : State :=
  if 1 ≤ pkgState s ∧ pkgState s ≤ 3 then { s with pow := { s.pow with latched := s.pow.latched ++ [(16, 4 * die.val + k)] } } else s

/-- A latched package wake event is replayed to its target (R522): a thread's core is powered; a section action is performed. -/
def replayWake (s : State) (e : Nat × Nat) : State :=
  if e.1 = 2 then
    match droverOf (pkgNum s) e.2 with
    | some h => domWake s (hartStop h) (hartDom s h) wkThread
    | none => s
  else if e.1 = 16 then sectionWake s (if e.2 / 4 = 0 then 0 else 1) (e.2 % 4)
  else s

/-- The package is in Run again: notifications are delivered and wakes replayed, among them the one that started the exit (R441,
R522). -/
def toRun (s : State) : State :=
  let w := rget s (wsStop 0) 4 WAKE_LAST_SRC
  let l := (getF w 0 4, getF w 4 16) :: s.pow.latched
  let s1 := rsetB (setPkgState s 0) (wsStop 0) 4 PKG_STATE 4 false
  let s2 := ppsResume { s1 with pow := { s1.pow with latched := [] } }
  deliverLatched (l.foldl replayWake s2)

/-! ## Temperature (R530) -/

/-- The temperature last read at a stop. -/
def stopTemp (s : State) (st : Stop) : Nat := mapGet (fun _ => 0) s.pow.temps (stopIdx st)

/-- The hottest of some stops. -/
def hottest (s : State) (l : List Stop) : Nat := l.foldl (fun m st => max m (stopTemp s st)) 0

/-- The stops of a row of a die, and of a die. -/
def rowStops (die : Fin 2) (b : Nat) : List Stop := allStops.filter fun st => decide (st.die = die) && decide (st.y.val = b)
def dieStops (die : Fin 2) : List Stop := allStops.filter fun st => decide (st.die = die)

/-- The state with a band's thermal limit and the time of its latest step replaced. -/
def setTherm (s : State) (k : Nat) (v : Nat × Nat) : State :=
  { s with pow := { s.pow with therm := mapSet (fun _ => (32, 0)) s.pow.therm k v } }

/-- A band's thermal limit after its sensors are read: the first step down at once, then one a millisecond while a tile stays at or above
the limit, one up a millisecond once the band is 3 °C below it. -/
def thermStep (s : State) (die : Fin 2) (b : Nat) : State :=
  let k := bandKey die b
  let w := wsStop die
  let lim := rfld s w 4 THERM_CTL 0 8
  let hot := hottest s (rowStops die b)
  let (v, t) := mapGet (fun _ => (32, 0)) s.pow.therm k
  let due := decide (t + 100000 ≤ tbNow s)
  let down := fun (s : State) => setTherm s k (max 8 (min v (bandFreq s die b) - 1), tbNow s)
  if lim ≤ hot then
    if v = 32 then reportErr (rsetB (down s) w 4 THERM_STAT 9 true) w 0xC803 0
    else if due then down s else s
  else if hot + 3 ≤ lim ∧ v < 32 ∧ due then setTherm s k (v + 1, tbNow s)
  else s

/-- THERMAL_SAMPLE (R530). The sensor of a stop reads `deg` °C: maxima, throttling of its band, and a trip at 115 °C. -/
def execThermalSample (st : Stop) (deg : BitVec 8) (s : State) : Host.Outcome State Fault Refusal :=
  let w := wsStop st.die
  let s1 := { s with pow := { s.pow with temps := mapSet (fun _ => 0) s.pow.temps (stopIdx st) deg.toNat } }
  let s2 := rputF s1 w 5 (bandBase st.y.val + BAND_STAT) 16 8 (hottest s1 (rowStops st.die st.y.val))
  let s3 := rputF s2 w 4 THERM_STAT 0 8 (hottest s2 (dieStops st.die))
  let s4 := if stopKind st = .tile then thermStep s3 st.die st.y.val else s3
  let any := [1, 2, 3, 4].any fun b => decide (bandTherm s4 (bandKey st.die b) < 32)
  let s5 := rsetB s4 w 4 THERM_STAT 8 any
  .next (if 115 ≤ deg.toNat then thermalTrip s5 st.die else s5)

/-! ## Rails (R531) -/

/-- A rail of a die by the band it belongs to; bands 0 and 5 draw on VDD_UNC. -/
def railOf (b : Nat) : Nat := if bandHasPll b then b else 0

/-- RAIL_DROOP (R531). A rail falls below 92 % of nominal: the clocks of its domains halve, the episode is counted and recorded. -/
def execRailDroop (die : Fin 2) (b : Fin 6) (s : State) : Host.Outcome State Fault Refusal :=
  let k := bandKey die (railOf b.val)
  if setHas s.pow.droop k then .next s
  else
    let w := wsStop die
    let s1 := { s with pow := { s.pow with droop := setAdd s.pow.droop k } }
    let s2 := rsetB s1 w 5 (bandBase b.val + BAND_STAT) 15 true
    let s3 := rsat s2 w 5 (bandBase b.val + BAND_DROOP_CNT) 0 32 1
    .next (reportErr s3 w (0xC001 + 0x100 * b.val) 0)

/-- RAIL_RECOVERS (R531). The rail is above 92 % of nominal again and the clocks run at full frequency. -/
def execRailRecovers (die : Fin 2) (b : Fin 6) (s : State) : Host.Outcome State Fault Refusal :=
  .next { s with pow := { s.pow with droop := setDel s.pow.droop (bandKey die (railOf b.val)) } }

/-- The domains on a rail of a die (Table 1-5). -/
def railDoms (die : Fin 2) (b : Nat) : List (Stop × Nat) :=
  if bandHasPll b then bandDoms die b
  else (dieStops die).flatMap fun st =>
    match stopKind st with
    | .memory => [(st, 0), (st, 1)]
    | .ford => [(st, 0)]
    | .cluster => (List.range 8).map fun d => (st, d)
    | _ => []

/-- RAIL_UV (R531). A rail has left its envelope: every domain of it in the die is reset as domain-fatal. -/
def execRailUv (die : Fin 2) (b : Fin 6) (s : State) : Host.Outcome State Fault Refusal :=
  let s1 := reportErr s (wsStop die) (0xC002 + 0x100 * b.val) 0
  .next ((railDoms die b.val).foldl (fun s e => domainReset s e.1 e.2) s1)

end Sys2Proof.Machine
end

