-- ==== Sys2Proof/Machine/Worlds.lean ====
section
/-!
DEFINITION. World assignment, debug tokens and grants, and the package-wide counter commands (R536 to R550, R575, R576).
-/

namespace Sys2Proof.Machine

/-! ## World assignment (R545, Table 17-10) -/

/-- BLOCK_STAT bits of a block: 0 CFGERR, 1 LOCKERR, 2 ACTIVE, 3 STAGED, 4 COMMIT_BUSY (Table 2-6). -/
def blkStat (s : State) (st : Stop) (blk i : Nat) (b : Bool) : State := rsetB s st blk BLOCK_STAT i b

/-- A write of WA_LOCK: only 1 is accepted (R545, R557). -/
def waLock (s : State) (v : Nat) : State := if bit v 0 then rsetB s (wsStop 0) 11 WA_LOCK 0 true else s

/-- A write of WA_ASSIGN (Table 17-10): a domain, or a depot way, is assigned to a world; ignored with LOCKERR once the assignment is
locked. -/
def waAssign (s : State) (v : Nat) : State :=
  if worldLock s then blkStat s (wsStop 0) 11 1 true
  else
    match stopOfLocus (pkgNum s) (bits v 0 16) with
    | none => s
    | some st =>
      let i := bits v 16 4
      let sec := bit v 21
      if bit v 20 then
        (if stopKind st = .tile ∧ 4 ≤ i ∧ i ≤ 11 then
          let k := stopIdx st * 16 + i
          { s with pkg := { s.pkg with secWays := if sec then setAdd s.pkg.secWays k else setDel s.pkg.secWays k } }
        else s)
      else if domExists st i then dstatPut s st i 6 1 (b2n sec) else s

/-! ## Debug grants (R547 to R550) -/

/-- DBG_EFF, kept at die 0: effective enables, grant and signer. -/
def dbgReg (s : State) : Reg32 := rget s (wsStop 0) 12 DBG_EFF

/-- The fused enables of die 0. -/
def dbgFuse (s : State) : Nat := rfld s (wsStop 0) 12 FUSE_CFG 17 4

/-- A grant takes effect: an enable withdrawn by it has its consequences at once (R550). -/
def setGrantDbg (s : State) (grant signer : Nat) : State :=
  let eff := dbgFuse s ||| grant % 16
  let s1 := rput s (wsStop 0) 12 DBG_EFF (BitVec.ofNat 32 (eff + grant % 16 * 16 + signer * 256))
  let drop := fun (t : State) (w : World) => if dbgInv s w && !dbgInv s1 w then injWithdraw (dbgWithdraw t w) w else t
  drop (drop s1 .normal) .secure

/-- The four words of DBG_NONCE are drawn afresh (R549; log entry 1). -/
def freshNonce (s : State) : State :=
  let a := (freeVal s).toNat
  let s1 := useFree s
  let b := (freeVal s1).toNat
  rput64 (rput64 (useFree s1) (wsStop 0) 12 DBG_NONCE a) (wsStop 0) 12 (DBG_NONCE + 8) b

/-- The grant is revoked (R550). -/
def dbgRevoke (s : State) : State := setGrantDbg s 0 0

/-- What a debug token presents (Table 17-5): whether MAGIC, VERSION and the zero fields are right, its fields, whether the key is
the owner's, and whether the signature verifies. -/
structure Token where
  formed : Bool
  enables : BitVec 4
  dieId : Word
  nonceLo : Word
  nonceHi : Word
  signer : Nat
  ownKey : Bool
  sigOk : Bool
deriving DecidableEq, Repr

/-- DBG_TOK_STAT.RESULT of a token, the checks in the order of R549. -/
def tokenResult (s : State) (t : Token) : Nat :=
  let w := wsStop 0
  if rbit s w 12 FUSE_CFG 21 then 6
  else if !t.formed || decide (2 ≤ t.signer) then 7
  else if t.dieId.toNat ≠ rget64 s w 12 ID_DIE_LO then 4
  else if t.nonceLo.toNat ≠ rget64 s w 12 DBG_NONCE ∨ t.nonceHi.toNat ≠ rget64 s w 12 (DBG_NONCE + 8) then 3
  else if !t.sigOk || (decide (t.signer = 1) && !t.ownKey) then 2
  else if t.signer = 1 ∧ bits t.enables.toNat 2 2 ≠ 0 then 5
  else 1

/-- A token is presented: its result is written, and an accepted one replaces the grant and draws a new nonce. -/
def presentToken (s : State) (t : Token) : State :=
  let r := tokenResult s t
  let s1 := rsetB (rputF s (wsStop 0) 12 DBG_TOK_STAT 0 3 r) (wsStop 0) 12 DBG_TOK_STAT 3 true
  if r = 1 then freshNonce (setGrantDbg s1 t.enables.toNat (t.signer + 1)) else s1

/-! ## Counter commands (R575, R576) -/

/-- A write of PM_GCTL (R575): one that changes FREEZE or sets SNAP starts a command, which acts at tick T. -/
def pmCommand (s : State) (v : Nat) : State :=
  let w := wsStop 0
  let freeze := bit v 0
  if freeze = rbit s w 7 PM_GCTL 0 ∧ bit v 1 = false then s
  else if rbit s w 7 PM_GSTAT 1 then blkStat s w 7 0 true
  else
    let least := tbNow s + (if pkgState s = 0 then 1000 else 100000)
    let at_ := rget64 s w 7 PM_AT_LO
    let s1 := rsetB (rsetB s w 7 PM_GCTL 0 freeze) w 7 PM_GSTAT 1 true
    let s2 := if at_ < least then rsetB s1 w 7 PM_GSTAT 2 true else s1
    { s2 with pm := { s2.pm with cmd := some (freeze, bit v 1, max at_ least) } }

/-- The stops that act on a counter command: those whose stop domain is on. -/
def pmStops (s : State) : List Stop := if uncUp s then allStops else [wsStop 0, wsStop 1]

/-- A snapshot: every counter of the stops that act is copied, and takes the new sequence number. -/
def pmSnap (s : State) (t : Nat) : State :=
  let w := wsStop 0
  let seq := (rfld s w 7 PM_GSTAT 16 16 + 1) % 65536
  let s1 := rput64 (rputF s w 7 PM_GSTAT 16 16 seq) w 7 PM_SNAP_TS_LO t
  let shd := if uncUp s then s.pm.cnt
    else s.pm.cnt.filter fun e => stbyCounter e.1
  let s2 := { s1 with pm := { s1.pm with shd := shd } }
  (pmStops s).foldl (fun s st => rput s st 7 PM_SNAP_SEQ (BitVec.ofNat 32 seq)) s2

/-- PM_ACTION (R576). The tick of the command in progress has come: every stop freezes, unfreezes or copies its counters. -/
def execPmAction (s : State) : Host.Outcome State Fault Refusal :=
  match s.pm.cmd with
  | none => .next s
  | some (freeze, snap, t) =>
    if tbNow s < t then .next s
    else
      let s1 := rsetB (rsetB s (wsStop 0) 7 PM_GSTAT 0 freeze) (wsStop 0) 7 PM_GSTAT 1 false
      let s2 := if snap then pmSnap s1 t else s1
      .next { s2 with pm := { s2.pm with cmd := none } }

end Sys2Proof.Machine
end

