-- ==== Sys2Proof/Machine/MemFin.lean ====
section
/-!
DEFINITION. Device-class accesses that leave their core: root ports, other packages, depot SRAM, their responses, and the completion of
memory instructions (R38, R115, R146, R219, R220, R582 to R587).
-/

namespace Sys2Proof.Machine

/-! ## Completion of a memory instruction -/

/-- A vector register with elements of `eb` bytes replaced by consecutive bytes. -/
def vecPut (eb : Nat) (v : Vec) (elems : List Nat) (b : List Byte) : Vec :=
  match elems with
  | [] => v
  | i :: r =>
    let lo := 8 * eb * i
    let x := leNat (b.take eb)
    vecPut eb (BitVec.ofNat 256 (v.toNat - bits v.toNat lo (8 * eb) * 2 ^ lo + x * 2 ^ lo)) r (b.drop eb)

/-- What a memory instruction writes with the bytes it has read. -/
def finWrite (t : Thread) (f : MFin) (b : List Byte) : Thread :=
  match f with
  | .none => t
  | .x rd n sext =>
    let v := leNat (b.take n)
    let neg := sext && bit v (8 * n - 1)
    xset t rd (BitVec.ofNat 64 (if neg then 2 ^ 64 - 2 ^ (8 * n) + v else v))
  | .v vd eb elems base =>
    let t1 := vset t vd (vecPut eb base elems b)
    sput t1 snTHR_CTL (sget t1 snTHR_CTL ||| 0x10)

/-- A memory instruction that has made its accesses completes. -/
def memDone (s : State) (h : Hart) (f : MFin) (b : List Byte) (info : RetInfo) : State :=
  let t0 := { tget s h with park := none }
  retire (tput s h (finWrite t0 f b)) h t0 (t0.pc + 4) info

/-- A memory instruction in progress raises an exception. -/
def memFault (s : State) (h : Hart) (e : Exc) (word : BitVec 32) : State :=
  raise (tmod s h fun t => { t with park := none }) h e word

/-- DBUS with its KIND and CODE (Table 3-12); L_VAL is the lowest faulting physical address (Table 3-8). -/
def dbus (pa kind code half : Nat) : Exc := ⟨cDBUS, pa, code + 16 * kind + 256 * half, none⟩

/-! ## What an access outside the core answers -/

/-- The answer to a device-class access: data, with the first poisoned address where it is poisoned; an error, as DBUS reports it;
or none yet. -/
inductive DRes where
  | data (b : List Byte) (poison : Option Nat)
  | err (kind code : Nat)
  | wait
deriving DecidableEq, Repr

/-- Memory that an access reads or writes at once: depot SRAM or an alias of it. -/
def directAcc (s : State) (me : Option Hart) (a : Nat) (n : Nat) (d : List Byte) : State × DRes :=
  if d.isEmpty then (s, .data (memRead s a n) (if poisoned s a n then some (firstPoison s a n) else none))
  else (agentWrite s me a d, .data [] none)

/-! ## Root ports (R583 to R587) -/

/-- Whether a port's link is up. -/
def linkUp (s : State) (n : Fin 12) : Bool :=
  if portProto s n.val = 3 then rbit s (portStop n) 6 EP_STAT 0 else rbit s (portStop n) 1 PORT_STAT 0

/-- The header of a root port after reset, by doubleword (R584): identifiers and class of a bridge, everything else 0. -/
def rpReset (k : Nat) : Reg32 :=
  match k % 1024 with
  | 0 => 0x01931C7B
  | 2 => 0x06040000
  | 3 => 0x00010000
  | _ => 0

/-- A doubleword of a root port's configuration space. -/
def rpGet (s : State) (n : Nat) (dw : Nat) : Reg32 := mapGet rpReset s.io.rp (n * 1024 + dw)

/-- The bits of a doubleword of a type-1 header that can be written. -/
def rpMask (dw : Nat) : Nat :=
  match dw with
  | 1 => 0x0547
  | 3 => 0xFF
  | 6 => 0xFFFFFF
  | 8 => 0xFFF0FFF0
  | 9 => 0xFFF0FFF0
  | 10 => 0xFFFFFFFF
  | 11 => 0xFFFFFFFF
  | 15 => 0x005F00FF
  | _ => 0

/-- The state with bytes of a root port's header written. -/
def rpPut (s : State) (n : Nat) (reg : Nat) (d : List Byte) : State :=
  let dw := reg / 4
  let sh := 8 * (reg % 4)
  let m := BitVec.ofNat 32 (rpMask dw) &&& BitVec.ofNat 32 ((2 ^ (8 * d.length) - 1) * 2 ^ sh)
  let v := (rpGet s n dw &&& ~~~m) ||| (BitVec.ofNat 32 (leNat d * 2 ^ sh) &&& m)
  { s with io := { s.io with rp := mapSet rpReset s.io.rp (n * 1024 + dw) v } }

/-- Whether a bus number lies behind a root port: secondary to subordinate. -/
def rpBus (s : State) (n bus : Nat) : Bool :=
  let v := (rpGet s n 6).toNat
  decide (bits v 8 8 ≤ bus ∧ bus ≤ bits v 16 8)

/-- Whether a bus address lies in a root port's memory or prefetchable window, with Memory Space on (R585). -/
def rpWindow (s : State) (n a : Nat) : Bool :=
  let m := (rpGet s n 8).toNat
  let p := (rpGet s n 9).toNat
  let pb := bits p 4 12 + (rpGet s n 10).toNat * 4096
  let pl := bits p 20 12 + (rpGet s n 11).toNat * 4096
  (rpGet s n 1).getLsbD 1 &&
  (decide (bits m 4 12 ≤ a / 2 ^ 20 ∧ a / 2 ^ 20 ≤ bits m 20 12) || decide (pb ≤ a / 2 ^ 20 ∧ a / 2 ^ 20 ≤ pl))

/-- How an outbound non-posted request completes. -/
inductive Cpl where
  | ok (data : List Byte) (ep : Bool)
  | ur | ca | crs | timeout | down
deriving DecidableEq, Repr

/-- The outcome of a request (Table 19-3A): `kind` 0 memory read, 1 AtomicOp, 2 configuration read, 3 configuration write. -/
def cplRes (kind addr n : Nat) (c : Cpl) : DRes :=
  let ones := List.replicate n (0xFF : Byte)
  match kind, c with
  | 3, .ok _ _ => .data [] none
  | _, .ok d ep => .data (d.take n) (if ep then some addr else none)
  | 2, .crs => .data (if addr % 4096 = 0 then ([0x01, 0x00, 0xFF, 0xFF] : List Byte).take n else ones) none
  | 2, _ => .data ones none
  | 3, .crs => .err 4 3
  | _, .crs => .err 4 1
  | _, .ur => .err 4 1
  | _, .ca => .err 4 2
  | _, .timeout => .err 4 3
  | _, .down => .err 4 1

/-- The first `k` posted writes that wait in a port leave it (R220). -/
def portSend (s : State) (n k : Nat) : State :=
  let mine := s.io.posted.filter fun p => decide (p.port = n)
  { s with io := { s.io with
      posted := s.io.posted.filter (fun p => decide (p.port ≠ n)) ++ mine.drop k
      wire := s.io.wire ++ mine.take k } }

/-- The posted writes of a port up to the last of a requester's leave it, in the order accepted (R220). -/
def portFlush (s : State) (n : Nat) (who : Requester) : State :=
  let mine := s.io.posted.filter fun p => decide (p.port = n)
  portSend s n (mine.length - (mine.reverse.takeWhile fun p => decide (p.who ≠ who)).length)

/-- A non-posted request leaves a port, behind the posted writes of its requester, and is outstanding (R220). -/
def portRequest (s : State) (n : Fin 12) (who : Requester) (kind addr size amo : Nat) (d : List Byte) : State × DRes :=
  let s := portFlush s n.val who
  let r : OutReq := ⟨n.val, s.io.nextTag, who, kind, addr, size, d, amo⟩
  ({ s with io := { s.io with reqs := s.io.reqs ++ [r], nextTag := s.io.nextTag + 1 } }, .wait)

/-- A configuration access at an ECAM offset (R584): bus 0 is served in the root port; capability structures, whose places the spec does
not give, read free values and take no write (log entry 1). -/
def ecamAcc (s : State) (n : Fin 12) (who : Requester) (off size : Nat) (d : List Byte) : State × DRes :=
  let bus := off / 2 ^ 20
  let dev := bits off 12 8
  let reg := off % 4096
  let kind := if d.isEmpty then 2 else 3
  if 4 < size then (s, .err 4 1)
  else if bus = 0 then
    if dev ≠ 0 then (s, cplRes kind off size .ur)
    else if d.isEmpty then
      (if reg < 0x40 then
        (s, .data (((natLe 4 (rpGet s n.val (reg / 4)).toNat).drop (reg % 4)).take size) none)
      else (useFree s, .data (natLe size ((freeVal s).toNat)) none))
    else if reg < 0x40 then (rpPut s n.val reg d, .data [] none)
    else (s, .data [] none)
  else if !rpBus s n.val bus then (s, cplRes kind off size .ur)
  else if !linkUp s n then (s, cplRes kind off size .down)
  else portRequest s n who kind off size 0 d

/-- A posted write that is dropped while the link is down (R587). -/
def portDrop (s : State) (n : Fin 12) (k : Nat) : State :=
  let st := portStop n
  rsetB (rsat s st 1 PORT_DROP 0 32 k) st 1 PORT_STAT 9 true

/-- Whether a store at an offset of a port's region is a posted write: one of a memory request (R583). -/
def portPosted (s : State) (n : Nat) (off : Nat) (store : Bool) : Bool :=
  store && (decide (portProto s n = 3) || decide (0x10000000 ≤ off))

/-- Whether a request to an address of this package's port regions can be made now: the port's domain is ON, where one that is off is woken
by the request (R513), and it has fewer than 256 non-posted requests outstanding, or the request is posted (Table 19-1). -/
def portReady (s : State) (pa : Nat) (store : Bool) : State × Bool :=
  match paTarget s pa with
  | .pcie p off =>
    let n := p % 12
    let st := portStop ⟨n, by omega⟩
    if domState s st 0 = dON then
      (s, portPosted s n off store || decide (s.io.reqs.countP (fun r => decide (r.port = n)) < 256))
    else (if pkgState s = 0 then domWake s st 0 wkHomed else s, false)
  | _ => (s, true)

/-- A load or store at an offset of a port region (R583, R585, R587): a store of a memory request retires once accepted. `amo` is the
AtomicOp, none for a load or store. -/
def portAcc (s : State) (n : Fin 12) (who : Requester) (off size : Nat) (d : List Byte) (amo : Option Nat) : State × DRes :=
  let face := decide (portProto s n.val = 3)
  let store := !d.isEmpty && amo.isNone
  if !face && decide (off < 0x10000000) then (if amo.isSome then (s, .err 4 1) else ecamAcc s n who off size d)
  else
    let reach := if face then rbit s (portStop n) 6 EP_STAT 1 else rpWindow s n.val off
    if !reach then (if store then (s, .data [] none) else (s, .err 4 1))
    else if !linkUp s n then (if store then (portDrop s n 1, .data [] none) else (s, .err 4 1))
    else if store then
      ({ s with io := { s.io with posted := s.io.posted ++ [⟨n.val, who, off, d⟩] } }, .data [] none)
    else portRequest s n who (if amo.isSome then 1 else 0) off size (amo.getD 0) d

/-! ## Other packages -/

/-- The logarithm of an access size. -/
def sizeLog (n : Nat) : Nat := if n = 1 then 0 else if n = 2 then 1 else if n = 4 then 2 else 3

/-- The attributes of a device-class message (Tables 9-8, 9-9): size, offset in the granule, level, world, AMO. -/
def devArg (a n : Nat) (i : Init) (amo : Option Nat) : Nat :=
  sizeLog n + 8 * (a % 8) + 64 * levelCode i.level + 256 * worldCode i.world +
    (match amo with | some o => 512 + 1024 * o | none => 0)

/-- A device-class access goes to another package as a DevRead, DevWrite or Atomic message. -/
def remoteAcc (s : State) (h : Option Hart) (i : Init) (p a n : Nat) (d : List Byte) (amo : Option Nat) : State × DRes :=
  let op := if amo.isSome then 0xA else if d.isEmpty then 8 else 9
  (sendWait s h op (pkgLocus p) a (devArg a n i amo) d, .wait)

/-! ## Atomic operations -/

/-- A value of `n` bytes as a signed number. -/
def sInt (n v : Nat) : Int := if 2 ^ (8 * n - 1) ≤ v then (v : Int) - 2 ^ (8 * n) else v

/-- The new value of an AMO on `n` bytes, none where nothing is written (Table 4-13): `x` is x[rs2], `e` what CAS expects. -/
def amoNew (op n old x e : Nat) : Option Nat :=
  let m := 2 ^ (8 * n)
  match op with
  | 0 => some x
  | 1 => some ((old + x) % m)
  | 2 => some (old &&& x)
  | 3 => some (old ||| x)
  | 4 => some (old ^^^ x)
  | 5 => some (if sInt n old ≤ sInt n x then old else x)
  | 6 => some (if sInt n old ≤ sInt n x then x else old)
  | 7 => some (min old x)
  | 8 => some (max old x)
  | 9 => if old = e then some x else none
  | _ => none

/-- An atomic operation performed indivisibly at an address of memory: its operands are x[rs2] and, for CAS, what it expects; it answers
what the location held. -/
def amoAt (s : State) (me : Option Hart) (a n op : Nat) (d : List Byte) : State × DRes :=
  let old := memRead s a n
  if poisoned s a n then (s, .data old (some (firstPoison s a n)))
  else
    match amoNew op n (leNat old) (leNat (d.take n)) (leNat (d.drop n)) with
    | some v => (agentWrite s me a (natLe n v), .data old none)
    | none => (s, .data old none)

/-! ## Running the accesses of an instruction -/

/-- Who an access of a thread answers to. -/
def devTarget (s : State) (h : Hart) (pa : Nat) : Target :=
  if isDrover h then seenTarget s (tget s h).world pa else coreTarget s h pa

/-- One access of a thread that is performed under the device-class rules, outside register space (R38, R187). -/
def devSend (s : State) (h : Hart) (kind : Nat) (a : MAcc) : State × DRes :=
  let amo := if 16 ≤ kind then some (kind - 16) else none
  match devTarget s h a.pa with
  | .depot _ _ => match amo with
    | some op => amoAt s (some h) a.pa a.n op a.data
    | none => directAcc s (some h) a.pa a.n a.data
  | .boot m => if a.data.isEmpty then directAcc s (some h) m a.n [] else (s, .err 3 0)
  | .pcie p off => portAcc s ⟨p % 12, by omega⟩ (.hart h) off a.n a.data amo
  | .remotePcie p => remoteAcc s (some h) (hartInit s h) p a.pa a.n a.data amo
  | .remoteDepot p => remoteAcc s (some h) (hartInit s h) p a.pa a.n a.data amo
  | .nothing => (s, .err 0 0)
  | .regs _ => (s, .err 1 0)
  | _ => directAcc s (some h) a.pa a.n a.data

/-- Whether the response of an access is kept in a locked thread's replay latch: that of a load, AMO or STX (R471). -/
def latched (kind : Nat) (a : MAcc) : Bool := a.data.isEmpty || decide (2 ≤ kind)

/-- The state with a locked thread's replay latch holding the response of its device-class instruction (R471): `a` is the last access,
`got` what the ones before it returned. -/
def latchPut (s : State) (h : Hart) (kind : Nat) (a : MAcc) (got b : List Byte) (info : RetInfo) (err : Option (Nat × Nat)) : State :=
  if hartLocked s h && latched kind a then
    let l : Latch := ⟨kind, info.pa, got.length + a.n, a.data, got ++ b, err, a.pa, a.half⟩
    { s with lock := { s.lock with latch := mapSet (fun _ => none) s.lock.latch (hartKey h) (some l) } }
  else s

/-- A device-class store of a locked thread forms a group that its request compare has served (R470). -/
def storeGood (s : State) (h : Hart) (kind : Nat) (a : MAcc) : State :=
  if hartLocked s h && !latched kind a then groupGood s h else s

/-- An exclusive is done: LDX takes the reservation, STX clears it (R148). -/
def exclEnd (kind pa n : Nat) (t : Thread) : Thread :=
  match kind with
  | 1 => { t with resv := some ⟨pa, n⟩, resvLost := false }
  | 2 => { t with resv := none, resvLost := false }
  | _ => t

/-- The pages in which an instruction that has completed sets D (R149, R248): none for an AMO.CAS whose comparison failed, `b` being what
it read and `arg` its operands. -/
def dirtyDone (kind n : Nat) (b arg : List Byte) (ps : Pages) : Pages :=
  if kind = 25 ∧ leNat (b.take n) ≠ leNat (arg.drop n) then [] else ps

/-- Every access of an instruction has been made: it completes, D set in the pages it wrote; in recovery a latched response waits for the
re-executed instruction (R232, R248, R471). -/
def devDone (s : State) (h : Hart) (kind : Nat) (a : MAcc) (got b : List Byte) (f : MFin) (info : RetInfo) (ps : Pages) : State :=
  let s1 := latchPut s h kind a got b info none
  if recovering s h && latched kind a then tmod s1 h fun t => { t with park := none }
  else
    let s2 := commitPages s1 h (dirtyDone kind a.n b a.data ps)
    storeGood (memDone (tmod s2 h (exclEnd kind info.pa a.n)) h f (got ++ b) info) h kind a

/-- An access ends with an error: as DBUS, or with KIND 16 poison at an address (R115, R445). -/
def devFail (s : State) (h : Hart) (kind : Nat) (a : MAcc) (got : List Byte) (info : RetInfo) (k c : Nat) : State :=
  let s1 := latchPut s h kind a got [] info (some (k, c))
  if recovering s h && latched kind a then tmod s1 h fun t => { t with park := none }
  else if k = 16 then
    let e := consume s1 h 3 c
    memFault e.1 h e.2 info.word
  else storeGood (memFault s1 h (dbus a.pa k c a.half) info.word) h kind a

/-- The remaining accesses of an instruction performed under the device-class rules, in order, until one has to wait; it completes once
all are made. -/
def devRun (s : State) (h : Hart) (kind : Nat) (got : List Byte) (f : MFin) (info : RetInfo) (ps : Pages) (l : List MAcc) : State :=
  match l with
  | [] => memDone s h f got info
  | a :: r =>
    let s0 := if isDevice a.pa then countThread s h evDEVICE 1 else s
    match devSend s0 h kind a with
    | (s1, .data b none) => if r.isEmpty then devDone s1 h kind a got b f info ps else devRun s1 h kind (got ++ b) f info ps r
    | (s1, .data _ (some p)) => devFail s1 h kind a got info 16 p
    | (s1, .err k c) => devFail s1 h kind a got info k c
    | (s1, .wait) => tmod s1 h fun t => { t with park := some (.device ⟨kind, a :: r, got, f, info, ps⟩) }

/-- The answer to the access that a thread waits for. -/
def devAnswer (s : State) (h : Hart) (r : DRes) : State :=
  match (tget s h).park with
  | some (.device op) =>
    match op.accs with
    | [] => s
    | a :: l =>
      match r with
      | .data b none =>
        if l.isEmpty then devDone s h op.kind a op.got b op.fin op.info op.dirty
        else devRun s h op.kind (op.got ++ b) op.fin op.info op.dirty l
      | .data _ (some p) => devFail s h op.kind a op.got op.info 16 p
      | .err k c => devFail s h op.kind a op.got op.info k c
      | .wait => s
  | _ => s

/-- The codes of a DevResp (Table 9-9): the register response code and the PCIe code. -/
def devCodes (r : DRes) : Nat :=
  match r with
  | .err 2 c => c
  | .err 4 c => 8 * c
  | .err _ _ => 1
  | _ => 0

/-- The bytes of an answer. -/
def resBytes (r : DRes) : List Byte := match r with | .data b _ => b | _ => []

/-- An answer reaches who waits for it. -/
def answer (s : State) (who : Requester) (r : DRes) : State :=
  match who with
  | .hart h => devAnswer s h r
  | .pkg p tag => sendMsg s 0x35 (pkgLocus p) tag 0 (devCodes r) (resBytes r)
  | .env => { s with reg := { s.reg with resp := ⟨devCodes r, BitVec.ofNat 32 (leNat (resBytes r))⟩ } }
  | .watch _ _ => s

end Sys2Proof.Machine
end

