-- ==== Sys2Proof/Machine/Iotu.lean ====
section
/-!
DEFINITION. The I/O translation units, and inbound requests by target (R268 to R272, R588 to R591).
-/

namespace Sys2Proof.Machine

/-- An I/O translation unit that has done nothing. -/
def IotuSt.initial : IotuSt := ⟨[], [], [], [], none⟩

/-- The translation unit of port `n`. -/
def ioGet (s : State) (n : Fin 12) : IotuSt := mapGet (fun _ => IotuSt.initial) s.iotu n.val

/-- The state with the translation unit of port `n` replaced. -/
def ioPut (s : State) (n : Fin 12) (u : IotuSt) : State :=
  { s with iotu := mapSet (fun _ => IotuSt.initial) s.iotu n.val u }

/-- The world of a port (Table 17-1). -/
def portWorld (s : State) (n : Fin 12) : World := worldOf (b2n (rbit s (wsStop 0) 11 WA_PORT_SEC n.val))

/-- An event of the I/O stop's catalogue (Table 18-9): 0 reads, 1 writes, 2 units in, 3 units out, 4 posted and 5 non-posted requests out,
6 IOTLB misses, 7 walks, 8 faults, 9 Unsupported Requests, 10 doorbell posts, 11 shared-source sets. -/
def ioCount (s : State) (n : Fin 12) (e k : Nat) : State := countScope s (portStop n) e k (some (portWorld s n))

/-- An inbound request that completes as UR or CA, or is dropped (R588). -/
def portUr (s : State) (n : Fin 12) : State :=
  let st := portStop n
  ioCount (rsetB (rsat s st 1 PORT_UR_CNT 0 32 1) st 1 PORT_STAT 11 true) n 9 1

/-! ## Faults (R270) -/

/-- A fault record (Table 7-13): it enters the queue of 16, or is counted as lost; it sets the shared source FLT_SRC names. -/
def ioFault (s : State) (n : Fin 12) (code lvl stage : Nat) (write : Bool) (rid addr : Nat) : State :=
  let st := portStop n
  let u := ioGet s n
  let s0 := ioCount s n 8 1
  if 16 ≤ u.flt.length then rsetB (rsat s0 st 3 IOTU_FLT_DROP 0 32 1) st 3 IOTU_STAT 1 true
  else
    let w := code + lvl * 2 ^ 8 + stage * 2 ^ 11 + b2n write * 2 ^ 12 + rid * 2 ^ 16
    let s1 := ioPut s0 n { u with flt := u.flt ++ [(w, addr)] }
    if rbit s st 3 IOTU_CTL 1 then shSet s1 (portWorld s n) false n.val (rfld s st 3 IOTU_CTL 16 12) else s1

/-- The oldest record is removed (R270). -/
def ioPop (s : State) (n : Fin 12) : State := ioPut s n { ioGet s n with flt := (ioGet s n).flt.tail }

/-! ## Context entries (R268) -/

/-- What a context lookup gives: the four doublewords, a fault of IOTU_FLT_INFO, or a line to wait for. -/
inductive CtxRes where
  | ok (dw : List Nat)
  | bad (code : Nat)
  | wait
deriving DecidableEq, Repr

/-- The address of a requester's context entry. -/
def ctxAddr (s : State) (n : Fin 12) (rid : Nat) : Nat :=
  (rget s (portStop n) 3 IOTU_CTX_LO).toNat / 2 ^ 21 * 2 ^ 21 + rfld s (portStop n) 3 IOTU_CTX_HI 0 20 * 2 ^ 32 + 32 * rid

/-- The regime in which a port's translation unit reads context entries: its world, no translation. -/
def portRegime (s : State) (n : Fin 12) : Regime := {
  world := portWorld s n, level := .s, core := false, tag := 0, asid := 0, vmid := 0, s1 := false, root1 := 0, l5 := false, hwad1 := false,
  sua := false, s2 := false, root2 := 0, hwad2 := false, me := none, port := some n, attr1 := 0, attr2 := 0, wc := [] }

/-- A context entry read from memory, doubleword by doubleword. -/
def ctxRead (s : State) (n : Fin 12) (ea : Nat) (k : Nat) : State × CtxRes :=
  match k with
  | 0 => (s, .ok [])
  | k + 1 =>
    match readEntry s (portRegime s n) ea with
    | (s1, .error (.poison _)) => (s1, .bad 0x12)
    | (s1, .error .busy) => (s1, .wait)
    | (s1, .error _) => (s1, .bad 0x13)
    | (s1, .ok v) =>
      match ctxRead s1 n (ea + 8) k with
      | (s2, .ok l) => (s2, .ok (v :: l))
      | r => r

/-- A requester's context entry: the cached one, or the one in memory. -/
def ctxLookup (s : State) (n : Fin 12) (rid : Nat) : State × CtxRes :=
  match (ioGet s n).ctx.find? fun e => e.1 = rid with
  | some e => (s, .ok e.2)
  | none => ctxRead s n (ctxAddr s n rid) 4

/-- MODE of a context entry; 5 to 7 take 0 (Table 7-11). -/
def ctxMode (dw : List Nat) : Nat := let m := bits (dw.headD 0) 2 3; if 5 ≤ m then 0 else m

/-- Whether a context entry can be used: valid, every must-be-0 bit 0, no root for a stage that is not used, WORLD = 1 at a port of the
secure world only (R268, R269). -/
def ctxValid (s : State) (n : Fin 12) (dw : List Nat) : Bool :=
  match dw with
  | [d0, d1, d2, d3] =>
    let m := ctxMode dw
    bit d0 0 && decide (bits d0 6 10 = 0 ∧ bits d0 48 16 = 0) &&
    decide (bits d1 0 12 = 0 ∧ bits d1 52 12 = 0) && decide (bits d2 0 12 = 0 ∧ bits d2 52 12 = 0) && decide (d3 = 0) &&
    (decide (m = 2 ∨ m = 4) || decide (d1 = 0)) && (decide (m = 3 ∨ m = 4) || decide (d2 = 0)) &&
    (!bit d0 1 || decide (portWorld s n = .secure))
  | _ => false

/-- The regime of a context entry (R269), with the pointers cached for its requester. An ATTR of 1 is type NT, every other WB (log
entry 93). -/
def ctxRegime (s : State) (n : Fin 12) (rid : Nat) (dw : List Nat) : Regime :=
  let d0 := dw.headD 0
  let m := ctxMode dw
  let hwad := rbit s (portStop n) 3 IOTU_CTL 0
  { portRegime s n with
    world := worldOf (b2n (bit d0 1)), tag := if bit d0 1 then 2 else 0
    asid := bits d0 16 16, vmid := bits d0 32 16
    s1 := decide (m = 2 ∨ m = 4), root1 := bits (dw.getD 1 0) 12 40 * 4096, l5 := bit d0 5, hwad1 := hwad
    s2 := decide (m = 3 ∨ m = 4), root2 := bits (dw.getD 2 0) 12 40 * 4096, hwad2 := hwad
    attr1 := 0x100, attr2 := 0x100
    wc := ((ioGet s n).wc.filter fun e => decide (e.1 = rid)).map Prod.snd }

/-! ## Translation (R269 to R271) -/

/-- What becomes of an inbound address: a physical address and whether its fills are streaming, a fault recorded (whether Completer Abort
answers it), or a line to wait for. -/
inductive IoRes where
  | ok (pa : Nat) (nt : Bool)
  | fault (ca : Bool)
  | wait
deriving DecidableEq, Repr

/-- The state with a translation and the pointers of its walk cached for a requester, the oldest leaving (R268; log entry 92). -/
def ioCache (s : State) (n : Fin 12) (rid : Nat) (r : Regime) (va : Nat) (t : Tran) : State :=
  if t.s1.isNone && t.s2.isNone then s
  else
    let u := ioGet s n
    let new := t.ptrs.map fun e => (rid, e)
    ioPut s n { u with
      tlb := ((rid, tlbEnt r va t) :: u.tlb.filter fun x => !(decide (x.1 = rid) && tlbHit r va x.2)).take 1024
      wc := (new ++ u.wc.filter fun e => !(new.any fun x => decide (x.1 = e.1 ∧ { x.2 with table := e.2.table } = e.2))).take 32 }

/-- A walk that gave no address: its fault record, or nothing yet. -/
def ioWalkErr (s : State) (n : Fin 12) (write : Bool) (rid addr : Nat) : TErr → State × IoRes
  | .fault c l st _ _ => (ioFault s n c l st write rid addr, .fault false)
  | .abort _ => (ioFault s n 0x11 0 0 write rid addr, .fault false)
  | .dev _ => (ioFault s n 0x10 0 0 write rid addr, .fault false)
  | .poison ea =>
    (ioFault (reportErr s (portStop n) 0x6103 tyPOISON (some ea)) n 0x12 0 0 write rid addr, .fault true)
  | .busy => (s, .wait)

/-- A walk for an inbound request that has given an address: a write sets D in its leaves first (R247, R248), and walks again where
they have changed. -/
def ioWalked (s : State) (n : Fin 12) (rid : Nat) (r : Regime) (write : Bool) (addr : Nat) (t : Tran) : State × IoRes :=
  let nt := decide (pageType r t = 1)
  if !write then (ioCache s n rid r addr t, .ok t.pa nt)
  else
    let c := pageReady s r t.s1 t.s2
    if !c.2 then (c.1, .wait)
    else
      let due := (match t.s1 with | some l => dDue r.hwad1 l | none => false) || (match t.s2 with | some l => dDue r.hwad2 l | none => false)
      (if due then pageCommit c.1 r t.s1 t.s2 else ioCache c.1 n rid r addr t, .ok t.pa nt)

/-- The translation of an inbound request of a root port (R268 to R271). -/
def ioTranslate (s : State) (n : Fin 12) (rid : Nat) (kind : AKind) (addr : Nat) : State × IoRes :=
  let write := kind.writes
  if !rbit s (portStop n) 3 BLOCK_CTL 0 then (ioFault s n 0x14 0 0 write rid addr, .fault false)
  else
    match ctxLookup s n rid with
    | (s0, .bad 0x12) =>
      (ioFault (reportErr s0 (portStop n) 0x6103 tyPOISON (some (ctxAddr s n rid))) n 0x12 0 0 write rid addr, .fault true)
    | (s0, .bad c) => (ioFault s0 n c 0 0 write rid addr, .fault false)
    | (s0, .wait) => (s0, .wait)
    | (s0, .ok dw) =>
      let u := ioGet s0 n
      let s1 := ioPut s0 n { u with ctx := ((rid, dw) :: u.ctx.filter fun e => decide (e.1 ≠ rid)).take 64 }
      if !ctxValid s n dw then (ioFault s1 n 0x13 0 0 write rid addr, .fault false)
      else if ctxMode dw = 0 then (ioFault s1 n 0x14 0 0 write rid addr, .fault false)
      else
        let r := ctxRegime s1 n rid dw
        match (ioGet s1 n).tlb.find? fun x => decide (x.1 = rid) && tlbHit r addr x.2 && tlbPermits r kind write x.2 with
        | some x => (s1, .ok (x.2.out + addr % 2 ^ x.2.logSize) (decide (pageType r ⟨0, 0, x.2.s1, x.2.s2, []⟩ = 1)))
        | none =>
          match walk (ioCount (ioCount s1 n 6 1) n 7 1) r kind write addr with
          | (s2, .ok t) => ioWalked s2 n rid r write addr t
          | (s2, .error e) => ioWalkErr s2 n write rid addr e

/-- A write of IOTU_INV: with GO a command begins, unless one is in progress (R271). -/
def ioInvWrite (s : State) (n : Fin 12) (v : Nat) : State :=
  let u := ioGet s n
  if bit v 17 && u.inv.isNone then
    rsetB (ioPut s n { u with inv := some (if bit v 16 then none else some (bits v 0 16)) }) (portStop n) 3 IOTU_STAT 2 true
  else s

/-- Whether a port has a request under way that used a translation: one that a home keeps, or that has gone to another package (R259). -/
def portBusy (s : State) (n : Fin 12) : Bool :=
  let mine := fun a : Agent => match a with | .device p _ => decide (p = n) | _ => false
  (s.io.inq.any fun r => decide (r.port = n.val) && r.sent.isSome) ||
  s.cache.slices.any fun e => (e.2.waits.any fun w => mine w.2.1) || e.2.evb.any fun v => v.waiting.any fun w => mine w.2.1

/-- IOTU_INV_DONE (R271). The removal is complete, every request that used what it removes performed (R259): the context entries and
what was derived from them are gone. -/
def execIotuInvDone (port : Fin 12) (s : State) : Host.Outcome State Fault Refusal :=
  let u := ioGet s port
  if portBusy s port then .next s
  else
  match u.inv with
  | none => .next s
  | some rid =>
    let keep := fun (r : Nat) => match rid with | some x => decide (r ≠ x) | none => false
    let u1 := { u with ctx := u.ctx.filter (fun e => keep e.1), tlb := u.tlb.filter (fun e => keep e.1), wc := u.wc.filter (fun e => keep e.1), inv := none }
    .next (rsetB (ioPut s port u1) (portStop port) 3 IOTU_STAT 2 false)

/-! ## Inbound requests by target (Table 19-3) -/

/-- What an inbound request reaches. -/
inductive InTarget where
  /-- Memory, of this package or another's, and depot SRAM. -/
  | memory
  | remoteDepot (p : Nat)
  /-- SH_SET of the stop's own table. -/
  | shared
  /-- The doorbell of a queue of this package, with the offset in it. -/
  | doorbell (st : Stop) (q off : Nat)
  | refused
deriving DecidableEq, Repr

/-- The target of an inbound request from a port (R61, Table 19-3). -/
def inTarget (s : State) (n : Fin 12) (w : World) (pa : Nat) : InTarget :=
  match seenTarget s w pa with
  | .hbm => .memory
  | .cxl _ => .memory
  | .remoteMem _ => .memory
  | .depot _ _ => .memory
  | .remoteDepot p => .remoteDepot p
  | .regs cfg =>
    if cfg / 2 ^ 30 ≠ pkgNum s then .refused
    else
      match stopOf (cfg / 0x400000 % 256) with
      | none => .refused
      | some st =>
        let blk := cfg / 0x10000 % 64
        let off := cfg % 0x10000
        if st = portStop n ∧ blk = 4 ∧ off = SH_SET then .shared
        else if stopKind st = .tile ∧ blk = 5 ∧ 0x4000 ≤ off ∧ off < 0x6000 then .doorbell st ((off - 0x4000) / 0x40) (off % 0x40)
        else .refused
  | _ => .refused

/-- The stream of a request (R590): the lowest-numbered enabled entry that matches, 0 where none does. -/
def streamOf (s : State) (n : Fin 12) (rid tc : Nat) : Nat :=
  if portProto s n.val = 3 then 0
  else
    ((List.range 64).find? fun k =>
      let v := (rget s (portStop n) 1 (0x100 + 4 * k)).toNat
      decide (1 ≤ k) && bit v 25 && decide (rid / 2 ^ min 16 (bits v 16 5) = bits v 0 16 / 2 ^ min 16 (bits v 16 5)) &&
      (!bit v 24 || decide (tc = bits v 21 3))).getD 0

/-- The lines that `n` bytes from an address touch. -/
def linesOf (pa n : Nat) : List Nat := (List.range ((pa + n + 63) / 64 - pa / 64)).map fun i => pa / 64 + i

/-- The lines of an inbound request of a stream, each read or written at its home (Table 8-2); whether all of them are there. -/
def inboundLines (s : State) (n : Fin 12) (stream pa len : Nat) (write nt : Bool) : State × Bool :=
  (linesOf pa len).foldl (fun (a : State × Bool) l =>
    let r := portLine a.1 n ⟨stream % 64, by omega⟩ write nt l
    (r.1, a.2 && r.2)) (s, true)

/-- The completion that answers a port's non-posted request. -/
def inboundCpl (s : State) (n : Fin 12) (code : Nat) (d : List Byte) (ep : Bool) : State :=
  { s with io := { s.io with cpl := mapSet (fun _ => (0, [], false)) s.io.cpl n.val (code, d, ep) } }

/-- A request that is refused: counted, and answered with UR 1 or CA 2 where it is non-posted. -/
def inRefuse (s : State) (n : Fin 12) (nonPosted ca : Bool) : State :=
  let s1 := portUr s n
  if nonPosted then inboundCpl s1 n (if ca then 2 else 1) [] false else s1

/-- A world violation by an inbound request (R541). -/
def inViolation (s : State) (n : Fin 12) (w : World) (pa : Nat) : State :=
  match violationKind s w pa with
  | some k => violation s (stopLocus (pkgNum s) (portStop n)) k 0
  | none => s

/-- What carrying out an inbound request comes to: it has been performed or refused, it waits, or it has gone to another package under a
tag. -/
inductive InRes where
  | done
  | wait
  | sent (p tag : Nat)
deriving DecidableEq, Repr

/-- A request to a depot of another package: its answer completes it. -/
def inRemote (s : State) (n : Fin 12) (stream p op pa arg : Nat) (d : List Byte) : State × InRes :=
  let l := if op = 9 then s.link.ports else mapSet (fun _ => 0) s.link.ports s.link.nextTag (n.val + 1)
  (sendFrom { s with link := { s.link with ports := l } } (streamSrc n.val stream) none op (pkgLocus p) pa arg d, .sent p s.link.nextTag)

/-- A read of `len` bytes at a physical address for a port: data with EP where any granule is poisoned (R588, R589). -/
def inRead (s : State) (n : Fin 12) (w : World) (stream : Nat) (nt : Bool) (pa len : Nat) : State × InRes :=
  match inTarget s n w pa with
  | .memory =>
    if (linesOf pa len).all fun l => decide (inTarget s n w (max pa (64 * l)) = .memory) then
      let r := inboundLines s n stream pa len false nt
      if r.2 then (inboundCpl (ioCount (ioCount r.1 n 0 1) n 3 ((len + 63) / 64)) n 0 (memRead r.1 pa len) (poisoned r.1 pa len), .done)
      else (r.1, .wait)
    else (inRefuse s n true false, .done)
  | .remoteDepot p => inRemote s n stream p 8 pa (devArg pa len ⟨.s, w, true, none⟩ none) []
  | _ => (inRefuse (inViolation s n w pa) n true false, .done)

/-- A write at a physical address for a port (R588, R589): poisoned data leaves its granules poisoned; a shared source is set, a doorbell
post is judged (R493, R354). A stream-marked write is a streaming one (Table 8-2). -/
def inWrite (s : State) (n : Fin 12) (w : World) (stream : Nat) (nt : Bool) (pa : Nat) (d : List Byte) (ep : Bool) : State × InRes :=
  let s := if ep then rsetB s (portStop n) 1 PORT_STAT 10 true else s
  match inTarget s n w pa with
  | .memory =>
    if (linesOf pa d.length).all fun l => decide (inTarget s n w (max pa (64 * l)) = .memory) then
      let r := inboundLines s n stream pa d.length true (nt || decide (stream ≠ 0))
      if r.2 then
        let s1 := agentWrite (ioCount (ioCount r.1 n 1 1) n 2 ((d.length + 63) / 64)) none pa d
        (if ep then (List.range d.length).foldl (fun s i => markPoison s (pa + i)) s1 else s1, .done)
      else (r.1, .wait)
    else (inRefuse s n false false, .done)
  | .remoteDepot p => inRemote s n stream p 9 pa (devArg pa d.length ⟨.s, w, true, none⟩ none) d
  | .shared =>
    (if d.length ≠ 4 then badSet s n.val else ioCount (shSet s w true n.val (bits (leNat d) 0 12)) n 11 1, .done)
  | .doorbell st q off =>
    let bad := decide (off ≠ 0) || decide (slotSecure s st q ≠ decide (w = .secure))
    (wqPost (ioCount s n 10 1) st q d bad ep false (srcClassC (0x400 + 64 * n.val + stream)), .done)
  | .refused => (inRefuse (inViolation s n w pa) n false false, .done)

/-- An AtomicOp at a physical address for a port: FetchAdd 1, Swap 0 and CAS 9 on 4 or 8 bytes (R588). -/
def inAtomic (s : State) (n : Fin 12) (w : World) (stream pa len op : Nat) (d : List Byte) : State × InRes :=
  match inTarget s n w pa with
  | .memory =>
    if (decide (len = 4) || decide (len = 8)) && decide (pa % len = 0) then
      let r := inboundLines s n stream pa len true (decide (stream ≠ 0))
      if r.2 then
        match amoAt r.1 none pa len op d with
        | (s1, .data old p) => (inboundCpl s1 n 0 old p.isSome, .done)
        | (s1, _) => (s1, .done)
      else (r.1, .wait)
    else (inRefuse s n true false, .done)
  | .remoteDepot p => inRemote s n stream p 0xA pa (devArg pa len ⟨.s, w, true, none⟩ (some op)) d
  | _ => (inRefuse (inViolation s n w pa) n true false, .done)

/-! ## The order of inbound requests (R225, R228, R229, R591) -/

/-- Whether a write at an address signals software, and the other package whose depot it names. -/
def signalAt (s : State) (n : Fin 12) (w : World) (pa : Nat) : Bool :=
  match inTarget s n w pa with
  | .shared => true
  | .doorbell _ _ _ => true
  | _ => false
def depotAt (s : State) (n : Fin 12) (w : World) (pa : Nat) : Option Nat :=
  match inTarget s n w pa with
  | .remoteDepot p => some p
  | _ => none

/-- Whether a request has to follow an earlier one of its port that has not been performed: one of its stream, for class D every posted write
without Relaxed Ordering, for a write that signals software every write. `p` is the other package it goes to, where the order to that
package keeps it behind one that has gone there. -/
def mustFollow (p : Option Nat) (signal : Bool) (r e : InReq) : Bool :=
  let ahead := e.sent.any fun k => decide (p = some k.1)
  let kept := if r.stream ≠ 0 then decide (e.stream = r.stream)
    else decide (e.stream = 0 ∧ e.op = 0) && !e.ro && !(decide (r.op = 0) && r.ro)
  (signal && decide (e.op = 0)) || (kept && !ahead)

/-- The requests that a port received before a request; one that waits keeps its place (log entry 96). -/
def inEarlier (s : State) (r : InReq) : List InReq :=
  (s.io.inq.takeWhile fun e => decide (e ≠ r)).filter fun e => decide (e.port = r.port)

/-- The state with the list of inbound requests that wait replaced. -/
def inqSet (s : State) (l : List InReq) : State := { s with io := { s.io with inq := l } }

/-- A request waits; a request waits no longer. -/
def inKeep (s : State) (r : InReq) : State := if s.io.inq.contains r then s else inqSet s (s.io.inq ++ [r])
def inDrop (s : State) (r : InReq) : State := if s.io.inq.contains r then inqSet s (s.io.inq.erase r) else s

/-- A request as it waits already, if it does. -/
def inWaiting (s : State) (r : InReq) : Option InReq := s.io.inq.find? fun e => decide ({ e with hdr := none } = r)

/-- An inbound request is carried out by `run` once nothing that it has to follow is before it. -/
def inOrder (s : State) (r : InReq) (p : Option Nat) (signal : Bool) (run : State → State × InRes) : State :=
  if (inEarlier s r).any (mustFollow p signal r) then inKeep s r
  else
    match run s with
    | (s1, .done) => inDrop s1 r
    | (s1, .wait) => inKeep s1 r
    | (s1, .sent k tag) =>
      let s2 := inKeep s1 r
      inqSet s2 (s2.io.inq.replace r { r with sent := some (k, tag) })

end Sys2Proof.Machine
end

