-- ==== Sys2Proof/Machine/Face.lean ====
section
/-!
DEFINITION. Mailboxes and their states, and the endpoint face's virtual wire and resets (R600 to R603, R612 to R617).
-/

namespace Sys2Proof.Machine

/-! ## Mailboxes (Tables 20-3, 20-4) -/

/-- A register of mailbox `m`; mailboxes 24 to 27 stand for commands of mailboxes 8 to 11 that a reset of the endpoint face has cut off
from them (R603).  Both dies' block 1 hold the same values (R610), kept at die 0. -/
def mb (s : State) (m off : Nat) : Reg32 := rget s (wsStop 0) 1 (0x800 * m + off)
def mbPut (s : State) (m off : Nat) (v : Reg32) : State := rput s (wsStop 0) 1 (0x800 * m + off) v

/-- MB_STATUS.STATE: 0 IDLE, 1 BUSY, 2 DONE. -/
def mbState (s : State) (m : Nat) : Nat := getF (mb s m MB_STATUS) 0 2
def mbSetState (s : State) (m v : Nat) : State := mbPut s m MB_STATUS (setF (mb s m MB_STATUS) 0 2 v)

/-- The request buffer as bytes. -/
def mbReq (s : State) (m : Nat) : List Byte := (List.range 64).flatMap fun i => natLe 4 (mb s m (4 * i)).toNat

/-- OPCODE of a request (R618). -/
def mbOpcode (s : State) (m : Nat) : Nat := getF (mb s m 0) 0 16

/-- The state with the response buffer replaced; bytes beyond the response are zero. -/
def mbSetRsp (s : State) (m : Nat) (d : List Byte) : State :=
  (List.range 64).foldl (fun s i => mbPut s m (0x100 + 4 * i) (BitVec.ofNat 32 (leNat ((d.drop (4 * i)).take 4)))) s

/-- The response-ready condition (R614). -/
def mbReady (s : State) (m : Nat) : Bool := decide (mbState s m = 2) && getB (mb s m MB_CTL) 16

/-- The classes and mailboxes of the commands (Tables 20-6 to 20-8): whether class R, whether in the background, the mailboxes as bits
N 1, S 2, E 4, P 8, and the length of the request. -/
def mbCat (op : Nat) : Option (Bool × Bool × Nat × Option Nat) :=
  match op with
  | 0x0100 => some (false, false, 15, some 0)
  | 0x0101 => some (false, false, 15, some 0)
  | 0x0102 => some (false, false, 15, some 2)
  | 0x0103 => some (false, false, 15, some 0)
  | 0x0200 => some (false, false, 11, some 2)
  | 0x0201 => some (true, true, 3, some 2)
  | 0x0202 => some (true, true, 3, some 2)
  | 0x0203 => some (false, false, 3, some 2)
  | 0x0204 => some (false, false, 11, some 5)
  | 0x0300 => some (true, true, 3, some 2)
  | 0x0301 => some (true, false, 3, some 6)
  | 0x0302 => some (true, true, 3, some 5)
  | 0x0303 => some (true, false, 3, some 5)
  | 0x0304 => some (true, false, 3, some 8)
  | 0x0305 => some (true, true, 3, some 2)
  | 0x0306 => some (false, false, 15, some 3)
  | 0x0307 => some (false, false, 2, some 1)
  | 0x0400 => some (true, false, 3, some 3)
  | 0x0401 => some (false, false, 15, some 2)
  | 0x0500 => some (false, false, 3, some 1)
  | 0x0501 => some (false, false, 2, some 24)
  | 0x0502 => some (false, false, 15, some 1)
  | 0x0600 => some (true, true, 3, some 76)
  | 0x0601 => some (true, false, 3, some 1)
  | 0x0602 => some (false, false, 15, some 1)
  | 0x0700 => some (false, true, 10, some 8)
  | 0x0701 => some (false, false, 10, none)
  | 0x0702 => some (false, true, 10, some 0)
  | 0x0703 => some (false, true, 10, some 1)
  | 0x0704 => some (false, false, 10, some 0)
  | 0x0705 => some (false, false, 2, some 0)
  | 0x0800 => some (false, false, 15, none)
  | 0x0801 => some (false, false, 15, some 240)
  | 0x0802 => some (false, false, 15, some 0)
  | 0x0900 => some (false, false, 15, some 0)
  | 0x0901 => some (false, false, 15, some 0)
  | 0x0902 => some (false, false, 15, some 4)
  | _ => none

/-- Whether the command in a mailbox needs the package in Run (R615). -/
def mbClassR (s : State) (m : Nat) : Bool := match mbCat (mbOpcode s m) with | some (r, _) => r | none => false

/-- Whether a command that has been begun runs in the background. -/
def mbBg (s : State) (m : Nat) : Bool :=
  match mapGet (fun _ => none) s.ws.run m with | some r => r.bg | none => false

/-- Whether commands of the class are served now: class A once boot step 2 is over, class R with WORLD_LOCK set and the package in
Run (R615, R617). -/
def mbOpen (s : State) (m : Nat) : Bool :=
  decide (3 ≤ rfld s (wsStop 0) 3 BOOT_STAT 0 4) && (!mbClassR s m || (worldLock s && decide (pkgState s = 0)))

/-- Whether a submitted command may be begun: nothing submitted earlier goes before it (R616). -/
def mbNext (s : State) (m : Nat) : Bool :=
  decide (mbState s m = 1) && (mapGet (fun _ => none) s.ws.run m).isNone && mbOpen s m &&
  (s.ws.order.takeWhile fun k => decide (k ≠ m)).all fun k =>
    match mapGet (fun _ => none) s.ws.run k with
    | some r => r.bg
    | none => !mbOpen s k

/-- MB_STATUS as it reads: HELD while a submitted command has not begun and cannot (Table 20-4). -/
def mbStatus (s : State) (m : Nat) : Reg32 :=
  let held := decide (mbState s m = 1) && (mapGet (fun _ => none) s.ws.run m).isNone && !mbNext s m
  setB (mb s m MB_STATUS) 4 held

/-! ## The virtual wire (R600) -/

/-- A doubleword of the face's configuration header that the host has written. -/
def epGet (s : State) (dw : Nat) : Reg32 := mapGet (fun _ => 0) s.io.ep dw
def epPut (s : State) (dw : Nat) (v : Reg32) : State := { s with io := { s.io with ep := mapSet (fun _ => (0 : Reg32)) s.io.ep dw v } }

/-- Whether port d0.io0 is strapped as the endpoint face (R579). -/
def epStrapped (s : State) : Bool := rbit s (wsStop 0) 3 STRAP 2

/-- The interrupt level. -/
def epLevel (s : State) : Bool := [8, 9, 10, 11].any fun m => mbReady s m

/-- The wire: the level, unless Interrupt Disable, D3hot, a link that is down or an FLR forces it to 0. -/
def epWire (s : State) : Bool :=
  epLevel s && !(epGet s 1).getLsbD 10 && decide (rfld s (portStop 0) 6 EP_STAT 5 2 ≠ 3) && rbit s (portStop 0) 6 EP_STAT 0 && !s.io.flr

/-- A change of the wire is sent as Assert_INTA or Deassert_INTA, while the link is up. -/
def epIntx (s : State) : State :=
  if rbit s (portStop 0) 6 EP_STAT 0 then rsetB s (portStop 0) 6 EP_STAT 4 (epWire s) else s

/-! ## Submitting, completing and releasing (R613, R614) -/

/-- A refused write. -/
def mbOverrun (s : State) (m : Nat) : State :=
  let s1 := mbPut s m MB_STATUS (setB (mb s m MB_STATUS) 2 true)
  mbPut s1 m MB_CNT (setF (mb s1 m MB_CNT) 16 16 (satAdd 16 (getF (mb s1 m MB_CNT) 16 16) 1))

/-- SUBMIT while IDLE: the command waits to be served; a class R command out of Run starts an exit (R615). -/
def mbSubmit (s : State) (m : Nat) : State :=
  let s1 := mbSetState s m 1
  let s2 := { s1 with ws := { s1.ws with order := s1.ws.order ++ [m] } }
  if mbClassR s2 m && decide (pkgState s2 ≠ 0) && decide (pkgState s2 ≠ 7) then
    pkgWake (mbPut s2 m MB_STATUS (setB (mb s2 m MB_STATUS) 3 true)) 6 m
  else s2

/-- ACK while DONE: the response is released. -/
def mbAck (s : State) (m : Nat) : State := epIntx (mbSetState s m 0)

/-- A write of MB_DOORBELL (R613). -/
def mbDoorbell (s : State) (m v : Nat) : State :=
  match mbState s m, bit v 0, bit v 1 with
  | 0, true, _ => mbSubmit s m
  | 1, true, _ => mbOverrun s m
  | 2, true, true => mbSubmit (mbAck s m) m
  | 2, true, false => mbOverrun s m
  | 2, false, true => mbAck s m
  | _, _, _ => s

/-- A write of a word of the request buffer (R613). -/
def mbReqWrite (s : State) (m off : Nat) (v : Reg32) : State := if mbState s m = 1 then mbOverrun s m else mbPut s m off v

/-- The response-ready condition has become true (R614): a shared source of mailboxes 0 to 7, the face's level for 8 to 11. -/
def mbRaise (s : State) (m : Nat) : State :=
  if m < 8 then
    let i := getF (mb s m MB_CTL) 0 9
    shSet s (if m < 4 then .normal else .secure) false 12 i
  else if m < 12 then epIntx s else s

/-- A write of MB_CTL (R614). -/
def mbCtlWrite (s : State) (m : Nat) (v : Reg32) : State :=
  let was := mbReady s m
  let s1 := mbPut s m MB_CTL (BitVec.ofNat 32 (bits v.toNat 0 9 + b2n (getB v 16) * 65536))
  if mbReady s1 m && !was then mbRaise s1 m else epIntx s1

/-- A command leaves the order and the commands begun. -/
def mbForget (s : State) (m : Nat) : State :=
  { s with ws := { s.ws with order := s.ws.order.filter (· ≠ m), run := mapSet (fun _ => none) s.ws.run m none } }

/-- A response (R618): header, and the payload that its status carries. -/
def mbResponse (s : State) (m status : Nat) (data : List Byte) : List Byte :=
  let d := if status = 0 ∨ status = 0xB ∨ status = 6 ∨ status = 0xA then data.take 248 else []
  natLe 2 status ++ natLe 2 d.length ++ natLe 4 (mb s m 4).toNat ++ d

/-- A message leaves the sideband port. -/
def sbSend (s : State) (d : List Byte) : State := { s with ws := { s.ws with sent := s.ws.sent ++ [d] } }

/-- The command in a mailbox completes (R613): the response is written and the mailbox reads DONE; the sideband's response leaves and its
mailbox is released (R626); a response whose mailbox was reset is discarded (R603). -/
def mbComplete (s : State) (m status : Nat) (data : List Byte) : State :=
  let r := mbResponse s m status data
  let s1 := mbForget s m
  if 16 ≤ m then mbSetState s1 m 0
  else
    let s2 := mbSetState (mbSetRsp s1 m r) m 2
    let s3 := mbPut s2 m MB_STATUS (setB (mb s2 m MB_STATUS) 3 false)
    let s4 := mbPut s3 m MB_CNT (setF (mb s3 m MB_CNT) 0 16 (satAdd 16 (getF (mb s3 m MB_CNT) 0 16) 1))
    if m = 12 ∨ m = 13 then sbSend (mbSetState s4 m 0) (natLe 1 (mapGet (fun _ => 0) s4.ws.peer m) ++ natLe 1 0x7E ++ r)
    else if mbReady s4 m then mbRaise s4 m else s4

/-- A BUSY command completes with ABORTED (R611, R617). -/
def mbAbort (s : State) (m : Nat) : State := if mbState s m = 1 then mbComplete s m 0xC [] else s

/-! ## Resets of the endpoint face (Table 19-8) -/

/-- A mailbox of the face reads IDLE: a response is discarded, and a command that is accepted runs on apart from it (R603). -/
def mbFaceReset (s : State) (m : Nat) : State :=
  if mbState s m = 1 then
    let o := m + 16
    let s1 := (List.range 64).foldl (fun s i => mbPut s o (4 * i) (mb s m (4 * i))) (mbSetState s o 1)
    let s2 := mbSetState s1 m 0
    { s2 with ws := { s2.ws with
        order := s2.ws.order.map fun k => if k = m then o else k
        run := mapSet (fun _ => none) (mapSet (fun _ => none) s2.ws.run o (mapGet (fun _ => none) s2.ws.run m)) m none } }
  else mbSetState s m 0

/-- Mailboxes 8 to 11 read IDLE. -/
def mbFaceResets (s : State) : State := [8, 9, 10, 11].foldl mbFaceReset s

/-- The configuration space of the face at its reset values. -/
def epConfigReset (s : State) : State :=
  let s1 := { s with io := { s.io with ep := [] } }
  rputF (rputF s1 (portStop 0) 6 EP_STAT 1 2 0) (portStop 0) 6 EP_STAT 5 2 0

/-- Every outstanding outbound request of a port completes. -/
def endRequests (s : State) (n : Nat) (c : Cpl) : State :=
  let l := s.io.reqs.filter fun r => decide (r.port = n)
  let s1 := { s with io := { s.io with reqs := s.io.reqs.filter fun r => decide (r.port ≠ n) } }
  l.foldl (fun s r => answer s r.who (cplRes r.kind r.addr r.n c)) s1

/-- Inbound requests of the face that wait keep the header they were received under: a reset does not undo them (R603). -/
def epKeep (s : State) : State :=
  { s with io := { s.io with inq := s.io.inq.map fun r => if r.port = 0 then { r with hdr := some (r.hdr.getD s.io.ep) } else r } }

/-- What every reset of the face reaches: mailboxes, configuration space, outbound requests. -/
def epReset (s : State) : State := endRequests (epConfigReset (mbFaceResets (epKeep s))) 0 .ur

/-- A port's link goes down with its last `lost` posted writes not sent: they are dropped, those before them have left it (R220, R587). -/
def postedDown (s : State) (n : Fin 12) (lost : Nat) : State :=
  let m := s.io.posted.countP fun p => decide (p.port = n.val)
  let s1 := portSend s n.val (m - min lost m)
  portDrop { s1 with io := { s1.io with posted := s1.io.posted.filter fun p => decide (p.port ≠ n.val) } } n (min lost m)

/-- The face's link goes down, its last `lost` posted writes not sent. -/
def epLinkDown (s : State) (lost : Nat) : State :=
  epReset (if linkUp s 0 then postedDown (rsetB s (portStop 0) 6 EP_STAT 0 false) 0 lost else s)

/-- PERST_N is asserted (R602), apart from PERST_WARM. -/
def epPerst (s : State) : State :=
  let s1 := rsetB (epLinkDown s s.io.posted.length) (portStop 0) 6 EP_STAT 7 true
  { s1 with io := { s1.io with flr := false, perst := true } }

/-- HOT_RESET (R602): the link retrains. -/
def execHotReset (s : State) : Host.Outcome State Fault Refusal :=
  if !epStrapped s || !rbit s (portStop 0) 6 EP_STAT 0 then .next s
  else .next (rsetB (epLinkDown s s.io.posted.length) (portStop 0) 6 EP_STAT 8 true)

/-- FLR (R603): a function-level reset begins; Deassert_INTA is sent where the wire was asserted. -/
def execFlr (s : State) : Host.Outcome State Fault Refusal :=
  if !epStrapped s || !rbit s (portStop 0) 6 EP_STAT 0 then .next s
  else
    let s1 := { s with io := { s.io with flr := true } }
    .next (rsetB (epIntx (epReset s1)) (portStop 0) 6 EP_STAT 9 true)

/-- FLR_DONE (R603): requests are accepted again. -/
def execFlrDone (s : State) : Host.Outcome State Fault Refusal :=
  if s.io.flr then .next (epIntx { s with io := { s.io with flr := false } }) else .next s

/-- MB_SUBMIT (R613). An initiator that a mailbox serves writes its doorbell with SUBMIT, and with ACK too. -/
def execMbSubmit (m : Fin 16) (ack : Bool) (s : State) : Host.Outcome State Fault Refusal :=
  .next (mbDoorbell s m.val (1 + 2 * b2n ack))

/-- MB_ACK (R613). An initiator that a mailbox serves writes its doorbell with ACK. -/
def execMbAck (m : Fin 16) (s : State) : Host.Outcome State Fault Refusal := .next (mbDoorbell s m.val 2)

end Sys2Proof.Machine
end

