-- ==== Sys2Proof/Machine/Boot.lean ====
section
/-!
DEFINITION. Resets and the boot sequence (chapter 21), and the boot manifest (R542 to R545).
-/

namespace Sys2Proof.Machine

/-! ## Boot progress (Table 21-11) -/

/-- BOOT_STAT.STEP, kept at die 0. -/
def bootStep (s : State) : Nat := rfld s (wsStop 0) 3 BOOT_STAT 0 4
def setBootStep (s : State) (v : Nat) : State := rputF s (wsStop 0) 3 BOOT_STAT 0 4 v

/-- BOOT_STAT.FAIL: 1 crystal, 2 no valid firmware, 3 rail. -/
def setBootFail (s : State) (v : Nat) : State := rputF s (wsStop 0) 3 BOOT_STAT 4 4 v

/-- The path of the boot in progress: 0 none, 1 cold, 2 warm, 3 Dormant exit. -/
def setPath (s : State) (v : Nat) : State := { s with ws := { s.ws with path := v } }

/-- The cause of the latest reset. -/
def setCause (s : State) (k : Nat) : State := rputF s (wsStop 0) 3 RST_CAUSE 0 3 k

/-- A measurement is replaced, or extended (Table 17-9). -/
def measureSet (s : State) (i : Nat) (d : List Byte) : State :=
  { s with ws := { s.ws with measure := mapSet (fun _ => []) s.ws.measure i (Config.sha384 d) } }
def measureExtend (s : State) (i : Nat) (d : List Byte) : State :=
  measureSet s i (mapGet (fun _ => []) s.ws.measure i ++ Config.sha384 d)

/-! ## The boot manifest (R542 to R545) -/

/-- The records of a manifest: at most COUNT of them, within LENGTH. -/
def manRecords : Nat → List Byte → List (Nat × List Byte)
  | 0, _ => []
  | n + 1, l =>
    if l.length < 4 then []
    else
      let len := leNat ((l.drop 2).take 2)
      (leNat (l.take 2), (l.drop 4).take len) :: manRecords n (l.drop (4 + len))

/-- Bytes 8 to 11, LENGTH. -/
def manLength (m : List Byte) : Nat := leNat ((m.drop 8).take 4)

/-- Whether a copy passes (R543): with OWNER_SET the owner's key, the signature and the SVN. -/
def manOk (s : State) (m : List Byte) : Bool :=
  let n := manLength m
  let key := (m.drop n).take 96
  decide (m.take 6 = [0x4F, 0x4D, 0x42, 0x4D, 1, 0]) && decide (16 ≤ n) && decide (n + 192 ≤ m.length) &&
  (!rbit s (wsStop 0) 12 FUSE_CFG 16 ||
    (decide (Config.sha384 key = (List.range 12).flatMap fun i => natLe 4 (rget s (wsStop 0) 12 (OWNER_HASH + 4 * i)).toNat) &&
      Config.ecdsa key (m.take (n + 96)) ((m.drop (n + 96)).take 96) &&
      decide (rfld s (wsStop 0) 12 FUSE_CFG 0 8 ≤ leNat ((m.drop 12).take 4))))

/-- Whether a secure range is one that R538 allows: whole 2 MiB units within one HBM or CXL window of the package. -/
def rangeOk (s : State) (base size : Nat) : Bool :=
  decide (base % 2 ^ 21 = 0) && decide (size % 2 ^ 21 = 0) && decide (size / 2 ^ 21 < 2 ^ 24) &&
  (decide (size = 0) || decide (base / 2 ^ 40 = pkgNum s ∧ (base + size - 1) / 2 ^ 40 = pkgNum s) ||
    s.ws.flash.cxl.any fun e => e.2.2.1 && decide (e.2.2.2.1 ≤ base ∧ base + size ≤ e.2.2.2.1 + e.2.2.2.2.1 * 2 ^ 28))

/-- The state with RECERR set: a record is skipped (R544). -/
def recErr (s : State) : State := rsetB s (wsStop 0) 11 WA_STAT 3 true

/-- A port takes its protocol, partner and least width (R334, R341, R579). -/
def portProtoSet (s : State) (n : Fin 12) (proto partner width : Nat) : State :=
  let s1 := rputF s (portStop n) 1 PORT_CAP 8 2 proto
  if proto = 2 then rput s1 (portStop n) cvBlk CV_CTL (BitVec.ofNat 32 (partner % 4 + min 2 (width % 4) * 4)) else s1

/-- One record applied (Table 17-3); its fields follow one another with the widths of log entry 13. -/
def manRecord (s : State) (r : Nat × List Byte) : State :=
  let b := fun (i n : Nat) => leNat ((r.2.drop i).take n)
  match r.1 with
  | 1 =>
    let v := b 0 2 % 4096
    let s1 := rput s (wsStop 0) 11 WA_PORT_SEC (BitVec.ofNat 32 (if epStrapped s then v / 2 * 2 else v))
    if epStrapped s && bit v 0 then recErr s1 else s1
  | 2 =>
    if h : b 0 1 < 12 then
      if (epStrapped s && decide (b 0 1 = 0)) || decide (2 < b 1 1) then recErr s
      else portProtoSet s ⟨b 0 1, h⟩ (b 1 1) (b 2 1) (b 3 1)
    else recErr s
  | 3 => rput s (wsStop 0) 11 WA_OR_SEC (BitVec.ofNat 32 (b 0 2))
  | 4 =>
    let i := b 0 1
    if i < 16 ∧ rangeOk s (b 1 8) (b 9 8) = true then
      let s1 := rput s (wsStop 0) 11 (SR_BASE_LO + 0x10 * i) (BitVec.ofNat 32 (b 1 8 % 2 ^ 32))
      rput (rput s1 (wsStop 0) 11 (SR_BASE_HI + 0x10 * i) (BitVec.ofNat 32 (b 1 8 / 2 ^ 32)))
        (wsStop 0) 11 (SR_SIZE + 0x10 * i) (BitVec.ofNat 32 (b 9 8 / 2 ^ 21))
    else recErr s
  | 5 =>
    match stopOfLocus (pkgNum s) (b 0 2) with
    | some st =>
      if stopKind st = .tile then
        (List.range 8).foldl (fun s i => waAssign s (b 0 2 + (4 + i) * 2 ^ 16 + 2 ^ 20 + b2n (bit (b 2 2) (4 + i)) * 2 ^ 21)) s
      else recErr s
    | none => recErr s
  | 6 =>
    match stopOfLocus (pkgNum s) (b 0 2) with
    | some st => if stopKind st = .tile ∧ b 2 1 ≤ 128 then rputF s st 5 WB_SLICE 0 8 (b 2 1) else recErr s
    | none => recErr s
  | 7 =>
    if b 0 2 + b 2 2 ≤ 4096 then
      (List.range (b 2 2)).foldl (fun s i => rsetB s (wsStop 0) 11 (WA_SHI_SEC + 4 * ((b 0 2 + i) / 32)) ((b 0 2 + i) % 32) true) s
    else recErr s
  | 8 =>
    match stopOfLocus (pkgNum s) (b 0 2) with
    | some st => if domExists st (b 2 1) then waAssign s (b 0 2 + b 2 1 * 2 ^ 16 + 2 ^ 21) else recErr s
    | none => recErr s
  | 9 =>
    match stopOfLocus (pkgNum s) (b 0 2) with
    | some st =>
      if stopKind st = .tile ∧ b 2 1 ≤ 1 then
        (if b 2 1 = 1 then setTileMode (keyCopy s st) st 1 else setTileMode s st 0)
      else recErr s
    | none => recErr s
  | _ => recErr s

/-- WA_STAT.SOURCE, and UNSIGNED while OWNER_SET is 0. -/
def waSource (s : State) (v : Nat) : State :=
  let s1 := rputF s (wsStop 0) 11 WA_STAT 0 2 v
  rsetB s1 (wsStop 0) 11 WA_STAT 2 (!rbit s (wsStop 0) 12 FUSE_CFG 16)

/-- The manifest verified and applied (R543, R544): the primary copy, else the backup, else the default assignment, in which nothing is
secure. -/
def manifestApply (s : State) : State :=
  let run := fun (s : State) (m : List Byte) =>
    (manRecords (leNat ((m.drop 6).take 2)) ((m.take (manLength m)).drop 16)).foldl manRecord s
  let note := fun (s : State) (m : List Byte) => measureSet s 3 (m ++ natLe 4 (rget s (wsStop 0) 11 WA_STAT).toNat)
  let f := s.ws.flash
  let s1 := if epStrapped s then rputF s (portStop 0) 1 PORT_CAP 8 2 3 else s
  if manOk s f.manifest then note (waSource (run s1 f.manifest) 1) f.manifest
  else if manOk s f.backup then note (waSource (run s1 f.backup) 2) f.backup
  else note (waSource s1 3) []

/-! ## Firmware (R624, R644) -/

/-- What a slot holds: true for B. -/
def slotBytes (s : State) (b : Bool) : List Byte := if b then s.ws.flash.slotB else s.ws.flash.slotA

/-- The image of a slot, where it verifies and is new enough. -/
def slotImage (s : State) (b : Bool) : Option FwImage :=
  match Config.image (slotBytes s b) with
  | some i => if i.signed && decide (rfld s (wsStop 0) 12 FUSE_CFG 8 8 ≤ i.svn) then some i else none
  | none => none

/-- WS_STAT.SLOT, kept at die 0. -/
def wsSlot (s : State) : Bool := rbit s (wsStop 0) 3 WS_STAT 4

/-- The image that runs. -/
def wsImage (s : State) : Option FwImage := Config.image (slotBytes s (wsSlot s))

/-- FW_AUTH_FAIL at the active pair's mailbox and flash logic (Table 20-12). -/
def fwAuthFail (s : State) : State := reportErr s (wsStop 0) 0x9108 tyPROTOCOL

/-- A Waystation pair starts in its boot ROM (Table 20-1), at M in the secure world. -/
def wsStart (s : State) (d : Fin 2) : State :=
  let t : Thread := { Thread.initial with pc := 0x40000100000, run := .running }
  tput s (.waystation d) (xset t 10 (BitVec.ofNat 64 (stopLocus (pkgNum s) (wsStop d))))

/-- Both pairs run the firmware of a slot. -/
def pairsStart (s : State) (b : Bool) : State :=
  let s1 := wsStart (wsStart (measureSet s 2 (slotBytes s b)) 0) 1
  rputF (rsetB s1 (wsStop 0) 3 WS_STAT 4 b) (wsStop 0) 3 WS_STAT 1 2 2

/-- The rails of a group come up in turn from VDD_18 (R637). -/
def railStart (s : State) : State := setBootStep { s with ws := { s.ws with rail := 1 } } 3

/-- Boot step 2: the flagged slot, or the other one. Answers whether firmware runs. -/
def bootFirmware (s : State) (b : Bool) : State × Bool :=
  if (slotImage s b).isSome then (pairsStart s b, true)
  else
    let s1 := fwAuthFail s
    if (slotImage s (!b)).isSome then (rsetB (pairsStart s1 (!b)) (wsStop 0) 3 BOOT_STAT 8 true, true)
    else (setBootFail (setBootStep s1 2) 2, false)

/-! ## Steps 4 to 8 (Table 21-8) -/

/-- Step 4: stacks train, or on a Dormant exit are restored where their serial number is the saved one and they are within 15 °C of it
(R422, R423). -/
def bootTrain (s : State) : State :=
  let s1 := setBootStep s 4
  (List.finRange 6).foldl (fun s k =>
    let v := mapGet (fun _ => (0, 0)) s.hbm.saved k.val
    let t := rfld s (stkStop k) 6 STK_TEMP 0 8
    let good := decide (v.1 = rget64 s (stkStop k) 6 STK_SERIAL_LO) && decide (t ≤ v.2 + 15 ∧ v.2 ≤ t + 15) &&
      rbit s (stkStop k) 6 STK_STAT 3
    stkCommand s k (if s.ws.path = 3 && good then 2 else 1) 0) s1

/-- The repair log applied (R430): lanes and rows. -/
def repairsApply (s : State) : State :=
  s.ws.flash.repairs.foldl (fun s r =>
    if h : r.2.1 < 48 then
      let k : Fin 6 := ⟨r.2.1 / 8, by omega⟩
      let ch : Fin 8 := ⟨r.2.1 % 8, by omega⟩
      let st := chanStop k ch
      let c := chanCtl ch
      if r.1 = 0 then
        rsat (rputF s st (phyBlk c) PHY_REMAP (8 * laneHalf (r.2.2 / 128) (r.2.2 % 128)) 8 (r.2.2 % 128 + 128))
          st (phyBlk c) PHY_STAT (2 * (r.2.2 / 128)) 2 1
      else
        let l := mapSet (fun _ => []) s.hbm.spared r.2.1 (mapGet (fun _ => []) s.hbm.spared r.2.1 ++ [r.2.2])
        rsat (hbmMod s fun x => { x with spared := l })
          st 5 (scrubOff c + SPARE_STAT) (7 * bits r.2.2 21 1) 7 1
    else s) s

/-- Step 6: the firmware's Outrider boot images are loaded and measured; one whose digest differs is skipped. -/
def bootImages (s : State) : State :=
  match wsImage s with
  | none => s
  | some i => i.outriders.foldl (fun s o =>
      if o.ok then
        let s1 := memWriteBytes s (tcmBase o.n.val + o.off) o.data
        let r := orRegs o.n
        measureExtend (rput64 s1 r.1 1 (r.2 + OR_START_LO) o.start.toNat) 5 o.data
      else fwAuthFail s) s

/-- The stored CXL windows set, and WORLD_LOCK after them (R34, R545). -/
def windowsSet (s : State) : State :=
  s.ws.flash.cxl.foldl (fun s e =>
    if h : e.1 / 4 < 12 then
      let n : Fin 12 := ⟨e.1 / 4, h⟩
      let o := 0x10 * (e.1 % 4)
      let st := portStop n
      if portProto s n.val ≠ 1 then s
      else
        let s1 := rput s st 5 (CXW_BASE + o) (BitVec.ofNat 32 (e.2.2.2.1 / 2 ^ 28))
        let s2 := rput (rput s1 st 5 (CXW_SIZE + o) (BitVec.ofNat 32 e.2.2.2.2.1)) st 5 (CXW_DPA + o) (BitVec.ofNat 32 (e.2.2.2.2.2 / 2 ^ 28))
        cxlWindowCtl s2 n (e.1 % 4) (b2n e.2.2.1 + 2 * e.2.1)
    else s) s

/-- The state of every domain when step 8 ends (R511). -/
def domainsOn (s : State) : State :=
  allStops.foldl (fun s st => ((List.range 8).filter fun d => domExists st d).foldl (fun s d =>
    let off := match stopKind st with
      | .tile => decide (d ≤ 1) && !domUsable s st d
      | .memory => !bit s.pkg.stackSet (chanOf st (if d = 0 then 0 else 1)).1
      | .io => !bit s.pkg.portSet (portOf st)
      | _ => false
    setDom s st d (if off then dOFF else dON)) s) s

/-- Core and cache EN, the slices' and the Outrider clusters' EN set. -/
def blocksOn (s : State) : State :=
  let s1 := allTiles.foldl (fun s st =>
    let two := decide (tileMode s st = 0)
    let s1 := l2En (rsetB s st 1 BLOCK_CTL 0 true) st 0 true
    let s2 := if two then l2En (rsetB s1 st 2 BLOCK_CTL 0 true) st 1 true else s1
    l3En s2 st true) s
  [0, 1].foldl (fun s d => rsetB s (orStop d) 1 BLOCK_CTL 0 true) s1

/-- The Drover boot image in ways 4 to 7 of the slice at d0:(0,1) (R42). -/
def bootPlace (s : State) (image : List Byte) : State :=
  let st := bootSlice
  let v := depotMask s st ||| 0xF0
  let s1 := rput s st 5 L3_DEPOT (BitVec.ofNat 32 v)
  let s2 := { s1 with pkg := { s1.pkg with depot := mapSet (fun _ => 0) s1.pkg.depot (stopIdx st) v } }
  memWriteBytes (memZero s2 (depotBase (pkgNum s) st) 0x100000) (depotBase (pkgNum s) st) (image.take 0x100000)

/-- GO of the Outriders whose boot images are flagged to start. -/
def imagesGo (s : State) : State :=
  match wsImage s with
  | none => s
  | some i => i.outriders.foldl (fun s o => if o.ok && o.go then startDone (startGo s (.outrider o.n)) (.outrider o.n) else s) s

/-- The release of p0.d0:(0,1).c0.t0 at the boot window (R129). -/
def release (s : State) : State :=
  if pkgNum s ≠ 0 then s
  else
    let h : Hart := .drover bootSlice 0 0
    cairnSync (tput (ovfClear s h) h (startThread s h 0xFFFFFFFF00000)) h

/-- Step 8. A Drover boot image whose digest differs makes the package restart from step 2 on the other slot (R644). -/
def bootFinish (s : State) : State :=
  let s0 := setBootStep s 8
  match wsImage s0 with
  | none => s0
  | some i =>
    if !i.droverOk then
      (if rbit s0 (wsStop 0) 3 BOOT_STAT 8 then setBootFail (setBootStep (fwAuthFail s0) 2) 2
      else
        let b := !wsSlot s0
        let s1 := rsetB (fwAuthFail s0) (wsStop 0) 3 BOOT_STAT 8 true
        if (slotImage s1 b).isSome then bootTrain (setPath (pairsStart s1 b) 1) else setBootFail (setBootStep s1 2) 2)
    else
      let s1 := imagesGo (blocksOn (bandsRun (domainsOn (bootPlace s0 i.drover))))
      let s2 := if pkgState s1 = 6 then toRun s1 else s1
      setPath (setBootStep (release s2) 9) 0

/-- The node is formed: step 7 ends, on a cold boot with the windows and WORLD_LOCK. -/
def bootFormed (s : State) : State :=
  bootFinish (if s.ws.path = 1 then waLock (windowsSet s) 1 else s)

/-- Step 7: the manifest, or the saved assignment; the ports train; a package without Caravan ports is a node of its own (R335). -/
def bootWorlds (s : State) : State :=
  let s1 := setBootStep (if s.ws.path = 1 then manifestApply s else s) 7
  let s2 := (List.finRange 12).foldl (fun s n =>
    match portProto s n.val with
    | 2 => cvTrain (rsetB s (portStop n) 5 BLOCK_CTL 0 true) n
    | 3 => s
    | _ => rsetB s (portStop n) 1 BLOCK_CTL 0 true) s1
  if (cvPorts s2).isEmpty then bootFormed { s2 with pkg := { s2.pkg with members := 2 ^ pkgNum s2 } }
  else { s2 with link := { s2.link with forming := true } }

/-- Steps 5 and 6 after the stacks: the mapping mode is applied where all six are present (R46), by a Dormant exit where it performs a warm
reset (R642); images are loaded. DESIGN CHOICE (log entry 85): all twelve ports are enabled. -/
def bootOn (s : State) : State :=
  let s1 := if s.ws.path = 1 then repairsApply s else s
  let keep := decide (s.ws.path = 3) && s.ws.trigger.isNone
  let mode := decide (s1.pkg.stackSet = 63) && (if keep then s1.pkg.interleaved else s1.ws.flash.hbm)
  bootWorlds (bootImages { s1 with
    pkg := { s1.pkg with interleaved := mode, portSet := 4095 }
    ws := { s1.ws with trigger := if s.ws.path = 3 then none else s1.ws.trigger } })

/-- The stacks have all finished: step 4 ends. -/
def bootTrained (s : State) : State :=
  if bootStep s = 4 ∧ (List.finRange 6).all (fun k => decide (mapGet (fun _ => 0) s.hbm.work k.val = 0)) = true then bootOn s else s

/-! ## Warm reset (Table 21-7) -/

/-- Registers that a warm reset clears: waybill descriptors, error handling paths, the endpoint face's block 6 and mailboxes 8 to 11. -/
def warmClears (key : Nat) : Bool :=
  let blk := key / 0x10000 % 64
  let off := key % 0x10000
  match stopOf (key / 0x400000) with
  | none => false
  | some st =>
    match stopKind st with
    | .tile => (decide (blk = 5) && decide (0x1000 ≤ off ∧ off < 0x3000)) || (decide (blk = 8) && decide (off < 0x100))
    | .io => (decide (blk = 6)) || (decide (blk = 8) && decide (off < 0x100))
    | .waystation => (decide (blk = 1) && decide (0x4000 ≤ off ∧ off < 0x6000)) || (decide (blk = 8) && decide (off < 0x100))
    | _ => decide (blk = 8) && decide (off < 0x100)

/-- Every thread stops, its committed stores drained and its state lost. -/
def threadsStop (s : State) : State :=
  let s1 := allTiles.foldl (fun s st => if tileLocked s st then lockForget ((pairHarts st).foldl wqSettle s) st else s) s
  let s2 := allDrovers.foldl (fun s h => emptyRunStacks (stopThread s h) h) s1
  (List.finRange 16).foldl (fun s n => emptyRunStacks (stopThread s (.outrider n)) (.outrider n)) s2

/-- What a warm reset clears beyond registers and threads. -/
def warmClear (s : State) : State :=
  { s with
    reg := { s.reg with vals := s.reg.vals.filter fun e => !warmClears e.1, held := [] }
    cpu := { s.cpu with bcasts := [] }
    cache := { s.cache with slices := [], l2 := [], l1 := [], plru := [], retiring := [], retries := [] }
    hbm := { s.hbm with queue := [], stage := [], out := [] }
    wb := ⟨[], [], [], []⟩
    pm := { s.pm with cnt := [], ovf := [] }
    orr := []
    io := { s.io with reqs := [], posted := [], wire := [], ep := [], flr := false, cpl := [], inq := [] }
    link := { s.link with out := [], sent := [], waiting := [], held := [], lent := [], ports := [] } }

/-- Ports and their links are down until they are trained again. -/
def portsDown (s : State) : State :=
  (List.finRange 12).foldl (fun s n => rputF (rputF s (portStop n) 1 PORT_STAT 0 9 0) (portStop n) 5 CXL_STAT 0 1 0) s

/-- A mapping mode that changes loses the contents of HBM (R45). DESIGN CHOICE (log entry 84): they read 0 and are not poisoned. -/
def hbmModeReset (s : State) : State :=
  let mode := s.ws.flash.hbm && decide (s.pkg.stackSet = 63)
  if mode = s.pkg.interleaved then s
  else
    let a := pkgNum s * 2 ^ 40
    memZero { s with pkg := { s.pkg with interleaved := mode } } a (2 ^ 40)

/-- A warm reset with its RST_CAUSE kind (R640, R641): the members of the node follow. -/
def warmReset (s : State) (kind : Nat) : State :=
  let s0 := if kind = 4 then s else (cvPorts s).foldl (fun s n => if cvState s n = 2 then cvControl s n 0x104 0 0 else s) s
  let s1 := freshNonce (setGrantDbg (setCause s0 kind) 0 0)
  let s2 := mbFaceResets ([0, 1, 2, 3, 4, 5, 6, 7].foldl (fun s m => if mbState s m = 1 then mbSetState (mbAbort s m) m 0 else s) s1)
  let s3 := portsDown (warmClear (threadsStop s2))
  let s4 := hbmModeReset s3
  bootWorlds (bootImages (setBootStep (setPath { s4 with ws := { s4.ws with trigger := none } } 2) 6))

/-- A warm reset that was latched is acted on once the boot is complete and the package in Run (R642). -/
def settle (s : State) : State :=
  match s.ws.trigger with
  | some k => if bootStep s = 9 ∧ pkgState s = 0 then warmReset s k else s
  | none => s

/-- A warm-reset trigger (R642). -/
def warmTrigger (s : State) (kind : Nat) : State :=
  let latch := { s with ws := { s.ws with trigger := some (s.ws.trigger.getD kind) } }
  if bootStep s = 0 ∨ pkgState s = 7 ∨ s.ws.path = 2 then s
  else if s.ws.path = 3 then setCause (if bootStep s ≤ 4 then latch else s) kind
  else if s.ws.path = 1 then latch
  else
    match pkgState s with
    | 0 => warmReset s kind
    | 1 => pkgWake latch 7 0
    | 2 => pkgWake latch 7 0
    | 3 => latch
    | _ => pkgWake (setCause latch kind) 7 0

/-! ## Cold reset -/

/-- What a cold reset leaves: the ledger, RST_CAUSE and BOOT_STAT, the flash; with `stby` false the ledger is lost too (R458, R641). -/
def coldClear (s : State) (kind : Nat) (stby : Bool) : State :=
  let tripped := decide (pkgState s = 7)
  let keep := s.reg.vals.filter fun e =>
    stby && (decide (e.1 / 0x10000 = (rkey (wsStop 0) 10 0) / 0x10000) || decide (e.1 / 0x10000 = (rkey (wsStop 1) 10 0) / 0x10000))
  let f := s.ws.flash
  let s1 : State := { State.reset with
    pending := s.pending
    fresh := s.fresh
    reg := { State.reset.reg with vals := keep }
    ws := { WsSt.initial with flash := f } }
  let s2 := if stby then rput s1 (wsStop 0) 3 BOOT_STAT (setF (rget s (wsStop 0) 3 BOOT_STAT) 0 4 0) else s1
  rput s2 (wsStop 0) 3 RST_CAUSE (BitVec.ofNat 32 (kind + 8 * b2n tripped))

/-- The fuses of both dies (Table 17-11; log entry 2). -/
def fusesLoad (s : State) : State :=
  let s1 := [(0 : Fin 2), 1].foldl (fun s d =>
    ([ID_DIE_LO, ID_DIE_HI, FUSE_CFG] ++ (List.range 12).flatMap fun i => [ID_KEY_DIG + 4 * i, OWNER_HASH + 4 * i]).foldl (fun s o =>
      rput s (wsStop d) 12 o (Config.fuse (rkey (wsStop d) 12 o))) s) s
  setGrantDbg s1 0 0

/-- Each core's seal key is drawn from the die's random source. -/
def sealKeys (s : State) : State :=
  allTiles.foldl (fun s st => [(0 : Fin 2), 1].foldl (fun s c =>
    let s1 := useFree s
    cput s1 (coreKey st c) { cget s1 (coreKey st c) with key := freeVal s }) s) s

/-- PWRGOOD has risen with straps and flash: step 1 (R639, R643). A manifest marked for this reset becomes the primary copy (R622). -/
def powerGood (s : State) (straps : BitVec 6) (flash : Option Flash) : State :=
  let f := flash.getD s.ws.flash
  let f := if f.swap then { f with manifest := f.backup, backup := f.manifest, swap := false } else f
  let s1 := { s with ws := { s.ws with flash := f, path := 1 } }
  let s2 := rput s1 (wsStop 0) 3 STRAP (BitVec.ofNat 32 straps.toNat)
  sealKeys (rput s2 (wsStop 0) 3 BOOT_STAT 1)

/-- PWRGOOD_RISE (R643). The straps are latched and the cold boot starts; `flash` is what the board's flash holds when power first comes,
none where it holds what the package left in it. -/
def execPwrgoodRise (straps : BitVec 6) (flash : Option Flash) (s : State) : Host.Outcome State Fault Refusal :=
  if bootStep s ≠ 0 then .next s else .next (powerGood s straps flash)

/-- CRYSTAL_CONFIRMED (R643). Step 1 ends; the boot ROM verifies the firmware, the fuses are applied and the rails enabled. -/
def execCrystalConfirmed (s : State) : Host.Outcome State Fault Refusal :=
  if bootStep s ≠ 1 then .next s
  else
    let s1 := freshNonce (fusesLoad (setBootStep s 2))
    let r := bootFirmware s1 s1.ws.flash.slot
    .next (if r.2 then railStart r.1 else r.1)

/-- RAIL_STAT bits of a group of R637: VDD_18; VDD_UNC and VDD_SERDES; VDD_HBM_PP; VDD_HBM_Q; the bands. -/
def railBits (g : Nat) : Nat :=
  match g with
  | 1 => 0x1000 | 2 => 0x300 | 3 => 0x400 | 4 => 0x800 | 5 => 0xFF | _ => 0

/-- RAIL_IN_REGULATION (R637). The group that is coming up is up and the next one is enabled; after the bands, step 4 begins. -/
def execRailInRegulation (s : State) : Host.Outcome State Fault Refusal :=
  let g := s.ws.rail
  if g = 0 then .next s
  else
    let s1 := rput s (wsStop 0) 3 RAIL_STAT (rget s (wsStop 0) 3 RAIL_STAT ||| BitVec.ofNat 32 (railBits g))
    if g < 5 then .next { s1 with ws := { s1.ws with rail := g + 1 } }
    else
      let s2 := { s1 with ws := { s1.ws with rail := 0 } }
      .next (bootTrain (pllBands.foldl (fun s e => rputF s (wsStop e.1) 5 (bandBase e.2 + BAND_STAT) 6 2 2) s2))

/-- RAIL_ALLOWANCE_EXPIRE (R638). A sensed rail has missed the rail allowance: every VR_EN drops. -/
def execRailAllowanceExpire (s : State) : Host.Outcome State Fault Refusal :=
  if s.ws.rail = 0 then .next s
  else
    let s1 := rputF { s with ws := { s.ws with rail := 0 } } (wsStop 0) 3 RAIL_STAT 0 13 0
    .next (setBootFail s1 3)

/-- RAIL_RETRY (R638). A second has passed: the sequence is retried, once. -/
def execRailRetry (s : State) : Host.Outcome State Fault Refusal :=
  if bootStep s = 3 ∧ s.ws.rail = 0 ∧ rfld s (wsStop 0) 3 BOOT_STAT 4 4 = 3 ∧ rbit s (wsStop 0) 3 BOOT_STAT 9 = false ∧
      rfld s (wsStop 0) 3 RAIL_STAT 0 13 = 0 then
    .next (rsetB { s with ws := { s.ws with rail := 1 } } (wsStop 0) 3 BOOT_STAT 9 true)
  else .next s

/-- PWRGOOD_FALL (R637, R640). Every VR_EN drops: a cold reset. -/
def execPwrgoodFall (s : State) : Host.Outcome State Fault Refusal :=
  if bootStep s = 0 then .next s else .next (coldClear s 0 true)

/-- VDD_STBY_LOSS (R640). The loss of VDD_STBY is a cold reset, and the ledger is lost with it. -/
def execVddStbyLoss (s : State) : Host.Outcome State Fault Refusal := .next (coldClear s 0 false)

/-- RESET_N (R640). RESET_N is held low for at least 1 µs. -/
def execResetN (s : State) : Host.Outcome State Fault Refusal := .next (warmTrigger s 1)

/-- CARAVAN_WARM_RESET (R640). A member of the node signals its warm reset over a Caravan link. -/
def execCaravanWarmReset (port : Fin 12) (s : State) : Host.Outcome State Fault Refusal :=
  if portProto s port.val = 2 ∧ cvState s port = 2 then .next (warmTrigger s 4) else .next s

/-- PERST_N (R602, R639, R640). PERST_N is asserted; with PERST_WARM strapped it also starts a warm reset. -/
def execPerstN (s : State) : Host.Outcome State Fault Refusal :=
  if !epStrapped s || decide (bootStep s = 0) then .next s
  else
    let s1 := epPerst s
    .next (if rbit s (wsStop 0) 3 STRAP 5 then warmTrigger s1 3 else s1)

/-- DORMANT_EXIT (R525). The package leaves Dormant: the rails come up, then boot steps 4 to 8 follow; with `clock` false REFCLK25 is still
stopped and the exit waits for it. -/
def execDormantExit (clock : Bool) (s : State) : Host.Outcome State Fault Refusal :=
  if pkgState s = 6 ∧ s.ws.path = 0 ∧ clock = true then .next (railStart (setPath s 3)) else .next s

/-- REFCLK25_STABLE (R525). REFCLK25 has returned and the exit from Dormant proceeds. -/
def execRefclk25Stable (s : State) : Host.Outcome State Fault Refusal :=
  if pkgState s = 6 ∧ s.ws.path = 0 then .next (railStart (setPath s 3)) else .next s

/-! ## What boot waits for -/

/-- STACK_TRAINING_DONE (R422 to R424). Training, restoration or retraining of a stack, or retraining of channel `ch`, has finished;
training reads the stack's serial number.  A restoration that fails is followed by a full training. -/
def execStackTrainingDone (k : Fin 6) (ch : Option (Fin 8)) (ok : Bool) (serial : Word) (s : State) :
    Host.Outcome State Fault Refusal :=
  match ch with
  | some n =>
    let st := chanStop k n
    let c := chanCtl n
    if rbit s st (mcBlk c) MC_STAT 3 = false then .next s
    else
      let s1 := selfRefreshExit (rsetB s st (mcBlk c) MC_STAT 3 false) st c
      .next (if ok then s1 else reportErr (rsetB s1 (stkStop k) 6 STK_STAT 4 true) (stkStop k) 0x5803 tyTIMEOUT)
  | none =>
    let w := mapGet (fun _ => 0) s.hbm.work k.val
    let s1 := setWork s k 0
    let fin := fun (s : State) => settle (bootTrained s)
    match w with
    | 1 => if ok then .next (fin <| stackReady (zeroStack (rput64 s1 (stkStop k) 6 STK_SERIAL_LO serial.toNat) k) k)
           else .next (fin <| stackFailed s1 k)
    | 2 => if ok then .next (fin <| stackReady (rput64 s1 (stkStop k) 6 STK_SERIAL_LO serial.toNat) k)
           else .next (setWork s1 k 1)
    | 3 => .next (fin <| if ok then stackReady s1 k else stackFailed s1 k)
    | _ => .next s

/-- CARAVAN_LINK_ACTIVE (R327). A link finishes training or RETRAIN at the widest width its working lanes support; below MIN_WIDTH it
is dead. The last expected link ends node formation (R335). -/
def execCaravanLinkActive (port : Fin 12) (lanes : BitVec 16) (s : State) : Host.Outcome State Fault Refusal :=
  let st := cvState s port
  if portProto s port.val ≠ 2 ∨ ¬ (st = 3 ∨ (st = 1 ∧ (cvGet s port.val).ident = true)) then .next s
  else
    let least := min 2 (rfld s (portStop port) cvBlk CV_CTL 2 2)
    match laneWidth lanes with
    | none => .next (cvDead s port)
    | some w =>
      if least < w then .next (cvDead s port)
      else
        let s1 := relayUpdate (cvStatPut (cvStatPut s port 0 3 2) port 3 2 w)
        .next (if s1.link.forming && nodeComplete s1 then settle (bootFormed (formNode s1)) else s1)

/-- NODE_FORMATION_TIMEOUT (R335, step 3; R643). The wait is over: the node is formed of what is reached. On a warm reset and on a Dormant
exit a link that is not active by then is dead. -/
def execNodeFormationTimeout (s : State) : Host.Outcome State Fault Refusal :=
  if !s.link.forming then .next s
  else
    let s1 := if s.ws.path = 1 then s else (cvPorts s).foldl (fun s n => if cvState s n = 2 then s else cvDead s n) s
    .next (settle (bootFormed (formNode s1)))

/-- CAMP_EXIT (R524). Bands are up, stacks leave self-refresh, links are retrained, and the package is in Run. -/
def execCampExit (s : State) : Host.Outcome State Fault Refusal :=
  if pkgState s ≠ 3 then .next s
  else
    let s1 := pllBands.foldl (fun s e =>
      rputF (rputF s (wsStop e.1) 5 (bandBase e.2 + BAND_STAT) 6 2 2) (wsStop 0) 3 RAIL_STAT (4 * e.1.val + e.2 - 1) 1 1) s
    let s2 := (List.finRange 6).foldl (fun s k =>
      if stkState s k = 3 then
        (stackChans k).foldl (fun s e => setDom (selfRefreshExit s e.1 e.2) e.1 e.2.val dON) (setStk s k 2)
      else s) s1
    let s3 := allTiles.foldl (fun s st => if domState s st 2 = dRETAINED then dstatPut (setDom s st 2 dON) st 2 12 3 wkExit else s) s2
    .next (settle (toRun (bandsRun s3)))


end Sys2Proof.Machine
end

