-- ==== Sys2Proof/Machine/Mbox.lean ====
section
/-!
DEFINITION. The commands of the Chocel Management Interface (R615 to R622).
-/

namespace Sys2Proof.Machine

/-! ## Registers that are computed -/

/-- PKG_MEMMAP (Table 1-10): MODE and BOOTWIN. -/
def pkgMemmap (s : State) : Nat := b2n s.pkg.interleaved + 2 * b2n (bootWin s)

/-- STATE of a thread as its status register shows it. -/
def runCode (t : Thread) : Nat :=
  match t.run with
  | .stopped => 0 | .running => 1 | .waiting => 2 | .halted => 3

/-- OR_STAT of an Outrider (Table 11-8). -/
def orStat (s : State) (n : Fin 16) : Reg32 :=
  let r := orRegs n
  let v := setF (rget s r.1 1 (r.2 + OR_STAT)) 0 2 (runCode (tget s (.outrider n)))
  setB v 4 (rbit s (wsStop 0) 11 WA_OR_SEC n.val)

/-- LOCK_STAT of a tile (Table 14-9). -/
def lockStat (s : State) (st : Stop) : Reg32 := setF (rget s st 0 LOCK_STAT) 9 2 (winCount s st)

/-- Several free bytes. -/
def freeBytes (s : State) (n : Nat) : State × List Byte :=
  (List.range ((n + 7) / 8)).foldl (fun (a : State × List Byte) _ =>
    (useFree a.1, (a.2 ++ natLe 8 (freeVal a.1).toNat).take n)) (s, [])

/-! ## Serving a command (R616, R618, R619) -/

/-- The bit of Tables 20-6 to 20-8 that stands for a mailbox: N 1, S 2, E 4, P 8; mailbox 15 is the Waystation's own. -/
def mbSide (m : Nat) : Nat :=
  if m < 4 then 1 else if m < 8 then 2 else if m = 12 ∨ m = 13 then 8 else if m = 14 then 0 else if m = 15 then 15 else 4

/-- The world a mailbox acts for. -/
def mbWorld (m : Nat) : World := if (4 ≤ m ∧ m < 8) ∨ m = 15 then .secure else .normal

/-- A field of a request's payload. -/
def pl (p : List Byte) (i n : Nat) : Nat := leNat ((p.drop i).take n)

/-- The payload of the request in a mailbox. -/
def mbPayload (s : State) (m : Nat) : List Byte := ((mbReq s m).drop 8).take (getF (mb s m 0) 16 16)

/-- What a command changes, for the rule that one place is changed by one command at a time (R616). -/
def mbPlace (s : State) (m : Nat) : Option Nat :=
  let p := mbPayload s m
  let memStack := fun (l : Nat) => match stopOfLocus (pkgNum s) l with | some st => stackOf st | none => 6
  match mbOpcode s m with
  | 0x0300 => some (2 ^ 32 + pl p 0 2)
  | 0x0301 => some (2 ^ 32 + pl p 0 2)
  | 0x0400 => some (2 ^ 32 + pl p 0 2)
  | 0x0302 => some (2 ^ 33 + pl p 0 5)
  | 0x0303 => some (2 ^ 41 + memStack (pl p 0 2))
  | 0x0304 => some (2 ^ 41 + memStack (pl p 0 2))
  | 0x0305 => some (2 ^ 41 + pl p 0 1)
  | 0x0600 => some (2 ^ 42 + pl p 0 1)
  | 0x0601 => some (2 ^ 42 + pl p 0 1)
  | 0x0201 => some (2 ^ 43)
  | 0x0202 => some (2 ^ 43)
  | o => if 0x0700 ≤ o ∧ o ≤ 0x0705 then some (2 ^ 44) else none

/-- Whether an earlier command is changing the place that a command names. -/
def mbBusyPlace (s : State) (m : Nat) : Bool :=
  (mbPlace s m).isSome && (s.ws.run.any fun e =>
    decide (e.1 ≠ m) && (match e.2 with | some r => r.bg && decide (r.status = 0) | none => false) && decide (mbPlace s e.1 = mbPlace s m))

/-- The command of a mailbox has been begun, with this status and payload so far. -/
def mbBegin (s : State) (m : Nat) (r : MbRun) : State :=
  { s with ws := { s.ws with run := mapSet (fun _ => none) s.ws.run m (some r) } }

/-- What serving a command answers: the state, its status, its payload, and whether it runs on in the background. -/
structure Served where
  s : State
  status : Nat
  data : List Byte
  bg : Bool

/-- An answer at once. -/
def done (s : State) (data : List Byte) : Served := ⟨s, 0, data, false⟩
def fails (s : State) (status : Nat) : Served := ⟨s, status, [], false⟩

/-- REFUSED, or HW_TIMEOUT, names the locus of the place that blocked the command. -/
def refused (s : State) (locus : Nat) : Served := ⟨s, 6, natLe 2 locus, false⟩

/-- Begin the command with opcode `op` in mailbox `m`: the mailbox may give it (NOT_PERMITTED), its length is right (BAD_LENGTH), its place
is free (BUSY); then `f` carries it out for the mailbox's world. -/
def serve (s : State) (m op : Nat) (f : State → World → List Byte → Served) : Host.Outcome State Fault Refusal :=
  if mbOpcode s m ≠ op ∨ mbNext s m = false then .next s
  else
    match mbCat op with
    | none => .next s
    | some (_, _, side, len) =>
      let n := getF (mb s m 0) 16 16
      let r :=
        if side &&& mbSide m = 0 then fails s 4
        else if 248 < n ∨ (match len with | some k => decide (n ≠ k) | none => false) = true then fails s 2
        else if mbBusyPlace s m then fails s 5
        else f s (mbWorld m) (mbPayload s m)
      .next (mbBegin r.s m ⟨r.status, r.data, r.bg, tbNow r.s⟩)

/-- The compute tile, or the stop of another kind, that a command names. -/
def namedStop (s : State) (locus : Nat) (k : Kind) : Option Stop :=
  match stopOfLocus (pkgNum s) locus with
  | some st => if stopKind st = k then some st else none
  | none => none

/-- The answer where no place of this package is named (Table 20-5): NOT_PRESENT for a place of another package, BAD_FIELD for a locus
that names no place or a place of another kind (log entry 78). -/
def noPlace (s : State) (locus : Nat) : Nat := if locusNamesPlace locus ∧ locus / 16384 ≠ pkgNum s then 7 else 3

/-- Whether a command of a world names a secure resource that it may not touch (R619): one of these domains is secure. -/
def namesSecure (s : State) (w : World) (l : List (Stop × Nat)) : Bool := decide (w = .normal) && l.any fun e => domSecure s e.1 e.2

/-! ## Query commands (Table 20-6) -/

/-- The capability word. -/
def capWord (s : State) : Nat :=
  let src := rfld s (wsStop 0) 11 WA_STAT 0 2
  let ready := decide (rfld s (wsStop 0) 3 WS_STAT 1 2 = 2)
  b2n ready + 2 * b2n (epStrapped s) + 4 * b2n (decide (s.pkg.stackSet = 63)) +
  8 * b2n (decide (src = 1 ∨ src = 2) && !rbit s (wsStop 0) 11 WA_STAT 2) +
  16 * b2n (allTiles.any fun st => decide (tileMode s st = 1)) + 32 * b2n ready

/-- Bits in order as bytes, `w` bits each. -/
def packBits (w : Nat) (l : List Nat) : List Byte :=
  natLe ((l.length * w + 7) / 8) ((l.zipIdx.map fun e => e.1 % 2 ^ w * 2 ^ (w * e.2)).sum)

/-- GET_INFO (R619). -/
def execGetInfo (m : Fin 28) (s : State) : Host.Outcome State Fault Refusal :=
  serve s m.val 0x0100 fun s _ _ =>
    let v := match wsImage s with | some i => i.version | none => 0
    done s (natLe 4 v ++ natLe 2 3 ++ natLe 2 0 ++ natLe 1 (rfld s (wsStop 0) 12 FUSE_CFG 8 8) ++ natLe 1 (pkgNum s) ++
      natLe 1 s.pkg.members ++ natLe 1 (activeDie s) ++ natLe 8 (capWord s) ++ natLe 8 (rget64 s (wsStop 0) 12 ID_DIE_LO))

/-- GET_TOPOLOGY (R619). -/
def execGetTopology (m : Fin 28) (s : State) : Host.Outcome State Fault Refusal :=
  serve s m.val 0x0101 fun s _ _ =>
    let tiles := (List.finRange 2).flatMap fun d => [1, 2, 3, 4].flatMap fun y => (List.finRange 12).map fun x => (⟨d, y, x⟩ : Stop)
    done s (natLe 4 (pkgTopo s) ++ natLe 4 (pkgMemmap s) ++
      packBits 1 (tiles.map fun st => b2n !(coreAbsent s st 0 && coreAbsent s st 1)) ++
      packBits 2 (tiles.map fun st => tileMode s st) ++ natLe 2 0xFFFF ++
      packBits 2 ((List.range 12).map fun n => portProto s n) ++ natLe 1 0 ++
      packBits 1 (tiles.map fun st => b2n (setHas s.pkg.retired (stopIdx st))))

/-- Cores of this package that are present in the tiles that `f` picks. -/
def coresIn (s : State) (f : Stop → Bool) : Nat :=
  ((allTiles.filter f).map fun st => b2n (!coreAbsent s st 0) + b2n (!coreAbsent s st 1)).sum

/-- The HBM nodes of a package of the node (Table 1-12): of another member those of the stacks that this package's decode holds, every core
present (log entry 100). -/
def hbmNodes (s : State) (p : Nat) : List (Nat × Nat × Nat × Nat × Nat × Nat) :=
  let own := decide (p = pkgNum s)
  let set := if own then s.pkg.stackSet else 63 - mapGet (fun _ => 0) s.pkg.farStacks p
  if s.pkg.interleaved && decide (set = 63) then
    [(6 * p, 0, 0, p * 2 ^ 40, 576, if own then coresIn s fun _ => true else 192)]
  else ((List.range 6).filter fun k => bit set k).map fun k =>
    (6 * p + k, 0, k, p * 2 ^ 40 + k * stackSize, 96,
      if own then coresIn s fun st => decide (3 * st.die.val + st.x.val / 4 = k) else 32)

/-- The nodes of a package's CXL windows (R48). -/
def cxlNodes (s : State) (p : Nat) : List (Nat × Nat × Nat × Nat × Nat × Nat) :=
  if p = pkgNum s then
    (List.finRange 12).flatMap fun n => (List.range 4).filterMap fun w =>
      let st := portStop n
      let o := 0x10 * w
      if portProto s n.val = 1 ∧ rbit s st 5 (CXW_CTL + o) 0 = true then
        some (24 + 48 * p + 4 * n.val + w, 1, rfld s st 5 (CXW_CTL + o) 1 3, rfld s st 5 (CXW_BASE + o) 0 24 * 2 ^ 28,
          rfld s st 5 (CXW_SIZE + o) 0 17, 0)
      else none
  else
    (s.pkg.farCxl.filter fun e => decide (e.1 = p)).map fun e => (24 + 48 * p + e.2.1, 1, 0, e.2.2.1, e.2.2.2 / 2 ^ 28, 0)

/-- The NUMA nodes of the node's packages (R46, R48): number, kind, home section, base, size in 256 MiB, cores. -/
def numaNodes (s : State) : List (Nat × Nat × Nat × Nat × Nat × Nat) :=
  let ps := (List.range 4).filter fun p => decide (p = pkgNum s) || bit s.pkg.members p
  ps.flatMap (hbmNodes s) ++ ps.flatMap (cxlNodes s)

/-- GET_NUMA (R619). -/
def execGetNuma (m : Fin 28) (s : State) : Host.Outcome State Fault Refusal :=
  serve s m.val 0x0102 fun s _ p =>
    let l := (numaNodes s).filter fun e => decide (pl p 0 2 ≤ e.1)
    let next := match l.drop 12 with | e :: _ => e.1 | [] => 0xFFFF
    done s (natLe 2 (min 12 l.length) ++ natLe 2 next ++ (l.take 12).flatMap fun e =>
      natLe 2 e.1 ++ natLe 1 e.2.1 ++ natLe 1 e.2.2.1 ++ natLe 8 e.2.2.2.1 ++ natLe 4 e.2.2.2.2.1 ++ natLe 2 e.2.2.2.2.2 ++ natLe 2 0)

/-- GET_STATUS (R619). -/
def execGetStatus (m : Fin 28) (s : State) : Host.Outcome State Fault Refusal :=
  serve s m.val 0x0103 fun s _ _ =>
    let w := wsStop 0
    let seq := fun (d : Fin 2) => rfld s (wsStop d) 10 LEDGER_STAT 16 16
    done s (natLe 1 (pkgState s) ++ natLe 1 0 ++ natLe 2 (rfld s w 4 PKG_PWR_EST 0 10) ++ natLe 2 (rfld s w 4 PKG_PWR_LIMIT 0 10) ++
      natLe 1 (rfld s w 4 THERM_STAT 0 8) ++ natLe 1 (rfld s (wsStop 1) 4 THERM_STAT 0 8) ++ natLe 2 (seq 0) ++ natLe 2 (seq 1) ++
      natLe 4 (rget s w 4 WAKE_LAST_SRC).toNat ++ natLe 8 (rget64 s w 4 WAKE_LAST_TS_LO) ++ natLe 8 (tbNow s))

/-! ## Power and reset commands -/

/-- The power limit takes effect, and with it the base frequency (R3, R508). -/
def setPowerLimit (s : State) (watts : Nat) : State :=
  let v := max 320 (min 500 watts)
  let s1 := rputF s (wsStop 0) 4 PKG_PWR_LIMIT 0 10 v
  [(0 : Fin 2), 1].foldl (fun s d => rputF s (wsStop d) 4 PKG_PWR_EST 16 6 (baseFreq v)) s1

/-- SET_POWER_LIMIT (R3). -/
def execSetPowerLimit (m : Fin 28) (s : State) : Host.Outcome State Fault Refusal :=
  serve s m.val 0x0200 fun s _ p =>
    let s1 := setPowerLimit s (pl p 0 2)
    let v := rfld s1 (wsStop 0) 4 PKG_PWR_LIMIT 0 10
    done s1 (natLe 2 v ++ natLe 1 (baseFreq v))

/-- The Drover thread that blocks an entry (R520, R620): the first that runs, is halted, or waits with a reservation; for Dormant, that is
not STOPPED. -/
def entryBlocker (s : State) (dormant : Bool) : Nat :=
  match allDrovers.find? fun h =>
    let t := tget s h
    decide (t.run = .running ∨ t.run = .halted) || (decide (t.run = .waiting) && t.resv.isSome) || (dormant && decide (t.run ≠ .stopped)) with
  | some h => hartLocus (pkgNum s) h
  | none => 0xFFFF

/-- Whether another mailbox holds a class R command (R615). -/
def otherClassR (s : State) (m : Nat) : Bool := s.ws.order.any fun k => decide (k ≠ m) && mbClassR s k

/-- A package entry command (R520, R620): once the conditions hold the entry begins; with `late`, the grace time has passed and it is
refused. -/
def entryCommand (s : State) (m : Nat) (dormant late : Bool) : Host.Outcome State Fault Refusal :=
  let op := if dormant then 0x0202 else 0x0201
  let w := mbWorld m
  let may := (if dormant then mayDormant s w else mayCamp s w) && !otherClassR s m
  match mapGet (fun _ => none) s.ws.run m with
  | none =>
    serve s m op fun s _ p =>
      if 1000 < pl p 0 2 then fails s 3
      else if may then ⟨pkgEnter s dormant, 0, [1], true⟩
      else if late || decide (pl p 0 2 = 0) then refused s (entryBlocker s dormant)
      else ⟨s, 0, [], true⟩
  | some r =>
    if mbOpcode s m ≠ op ∨ r.status ≠ 0 ∨ r.data ≠ [] then .next s
    else if may then .next (mbBegin (pkgEnter s dormant) m ⟨0, [1], true, tbNow s⟩)
    else if late then .next (mbBegin s m ⟨6, natLe 2 (entryBlocker s dormant), true, r.t0⟩)
    else .next s

/-- ENTER_CAMP (R521). -/
def execEnterCamp (m : Fin 28) (late : Bool) (s : State) : Host.Outcome State Fault Refusal := entryCommand s m.val false late

/-- ENTER_DORMANT (R521). -/
def execEnterDormant (m : Fin 28) (late : Bool) (s : State) : Host.Outcome State Fault Refusal := entryCommand s m.val true late

/-- SET_WATCH (R619): the Camp watch of a die. -/
def execSetWatch (m : Fin 28) (s : State) : Host.Outcome State Fault Refusal :=
  serve s m.val 0x0203 fun s _ p =>
    if h : pl p 0 1 < 2 then
      if 1 < pl p 1 1 then fails s 3
      else done (rsetB s (wsStop ⟨pl p 0 1, h⟩) 6 WCH_GCTL 0 (decide (pl p 1 1 = 1))) []
    else fails s 3

/-- The reset that a RESET command asked for, 10 ms after its response (R640): warm, cold or of one domain. -/
def resetFollows (s : State) (straps : BitVec 6) : State :=
  match s.ws.reset with
  | none => s
  | some (kind, i, d) =>
    let s1 := { s with ws := { s.ws with reset := none } }
    if pkgState s = 7 then s1
    else
      match kind with
      | 0 => warmTrigger s1 2
      | 1 => powerGood (coldClear s1 6 true) straps none
      | _ => match stopOf i with | some st => setCause (domainReset s1 st d) 5 | none => s1

/-- RESET (R640). The command is served; with `go`, its response has been out for 10 ms and the reset follows, `straps` being the strap
lands. -/
def execReset (m : Fin 28) (go : Bool) (straps : BitVec 6) (s : State) : Host.Outcome State Fault Refusal :=
  if go then
    (if (mapGet (fun _ => none) s.ws.run m.val).isSome then .next s else .next (resetFollows s straps))
  else
    serve s m.val 0x0204 fun s w p =>
      let kind := pl p 0 1
      let d := pl p 4 1
      let side := mbSide m.val
      if 2 < kind ∨ pl p 1 1 ≠ 0 then fails s 3
      else if (if kind = 2 then decide (side &&& 3 = 0) else decide (side &&& 10 = 0)) then fails s 4
      else if kind < 2 then done { s with ws := { s.ws with reset := some (kind, 0, 0) } } []
      else
        match stopOfLocus (pkgNum s) (pl p 2 2) with
        | none => fails s (noPlace s (pl p 2 2))
        | some st =>
          if d = 15 ∨ domExists st d = false then fails s 3
          else if domSecure s st d && decide (w = .normal) then fails s 4
          else done { s with ws := { s.ws with reset := some (2, stopIdx st, d) } } []

/-! ## RAS commands -/

/-- RETIRE_SLICE (R311). -/
def execRetireSlice (m : Fin 28) (s : State) : Host.Outcome State Fault Refusal :=
  serve s m.val 0x0300 fun s w p =>
    match namedStop s (pl p 0 2) .tile with
    | none => fails s (noPlace s (pl p 0 2))
    | some st =>
      if domSecure s st 2 && decide (w = .normal) then fails s 4
      else if setHas s.pkg.retired (stopIdx st) then done s []
      else if !mayRetire s st then refused s (pl p 0 2)
      else ⟨retireSlice s st, 0, [], true⟩

/-- The registers of the way arrays of a tile: block, WAY_FAILED, counters, ways (Table 20-6). -/
def wayArray (a : Nat) : Nat × Nat × Nat × Nat :=
  match a with
  | 0 => (3, L2_WAY_FAILED, L2_WAY_CECNT, 16)
  | 1 => (4, L2_WAY_FAILED, L2_WAY_CECNT, 16)
  | 2 => (5, L3_WAY_FAILED, L3_WAY_CECNT, 12)
  | 3 => (3, L1D_WAY_FAILED, L1D_WAY_CECNT, 8)
  | _ => (4, L1D_WAY_FAILED, L1D_WAY_CECNT, 8)

/-- Ways of an array re-enabled. -/
def waysBack (s : State) (st : Stop) (a v : Nat) : State :=
  let r := wayArray a
  if a = 2 then reenableL3 s st v else reenable s st r.1 r.2.1 r.2.2.1 r.2.2.2 v

/-- REENABLE_WAYS (R296). -/
def execReenableWays (m : Fin 28) (s : State) : Host.Outcome State Fault Refusal :=
  serve s m.val 0x0301 fun s w p =>
    match namedStop s (pl p 0 2) .tile with
    | none => fails s (noPlace s (pl p 0 2))
    | some st =>
      let a := pl p 2 1
      let r := wayArray a
      if 4 < a ∨ pl p 3 1 ≠ 0 ∨ 2 ^ r.2.2.2 ≤ pl p 4 2 then fails s 3
      else if domSecure s st (if a = 2 then 2 else if a = 1 ∨ a = 4 then 1 else 0) && decide (w = .normal) then fails s 4
      else
        let s1 := waysBack s st a (pl p 4 2)
        done s1 (natLe 2 (rfld s1 st r.1 r.2.1 0 16))

/-- The links that REVIVE_LINK names (Table 20-6). -/
def namedLinks (s : State) (p : List Byte) : List NetLink :=
  match stopOfLocus (pkgNum s) (pl p 2 2) with
  | none => []
  | some st =>
    if pl p 0 1 = 0 then ((List.finRange 4).filter fun d => bit (pl p 4 1) d.val).map fun d => .mesh st d
    else ((List.finRange 4).filter fun k => decide (fordStop st.die k = st)).map fun k => .ford st.die k

/-- The Caravan port that REVIVE_LINK names. -/
def namedPort (s : State) (p : List Byte) : Option (Fin 12) :=
  (List.finRange 12).find? fun n => decide (stopLocus (pkgNum s) (portStop n) = pl p 2 2) && decide (portProto s n.val = 2)

/-- The state that a link named by REVIVE_LINK reads: of the last one named. -/
def namedLinkState (s : State) (p : List Byte) : Nat :=
  if pl p 0 1 = 2 then (match namedPort s p with | some n => cvState s n | none => 0)
  else (namedLinks s p).foldl (fun _ l => linkState s l) 0

/-- REVIVE_LINK (R323). -/
def execReviveLink (m : Fin 28) (s : State) : Host.Outcome State Fault Refusal :=
  serve s m.val 0x0302 fun s w p =>
    if 2 < pl p 0 1 ∨ pl p 1 1 ≠ 0 then fails s 3
    else if pl p 0 1 = 2 then
      match namedPort s p with
      | none => fails s (noPlace s (pl p 2 2))
      | some n =>
        if w = .normal ∧ portWorld s n = .secure ∨ namesSecure s w [(portStop n, 0)] = true then fails s 4
        else if cvState s n ≠ 4 then refused s (pl p 2 2) else ⟨cvTrain s n, 0, [], true⟩
    else
      let l := namedLinks s p
      if l = [] then fails s (noPlace s (pl p 2 2))
      else if namesSecure s w (l.filterMap fun x => match x with | .ford d k => some (fordStop d k, 0) | .mesh _ _ => none) then fails s 4
      else if l.any fun x => decide (linkState s x ≠ 2) then refused s (pl p 2 2)
      else ⟨l.foldl reviveLink s, 0, [], true⟩

/-- A repair enters the log in flash (R430). -/
def logRepair (s : State) (r : Nat × Nat × Nat) : State :=
  { s with ws := { s.ws with flash := { s.ws.flash with repairs := s.ws.flash.repairs ++ [r] } } }

/-- LANE_REMAP (R429). -/
def execLaneRemap (m : Fin 28) (s : State) : Host.Outcome State Fault Refusal :=
  serve s m.val 0x0303 fun s w p =>
    match namedStop s (pl p 0 2) .memory with
    | none => fails s (noPlace s (pl p 0 2))
    | some st =>
      if h : pl p 2 1 < 2 ∧ pl p 3 1 < 2 ∧ pl p 4 1 < 72 then
        let c : Fin 2 := ⟨pl p 2 1, h.1⟩
        if !bit s.pkg.stackSet (chanOf st c).1 then fails s 7
        else if namesSecure s w [(st, c.val)] then fails s 4
        else if rbit s st (phyBlk c) PHY_STAT 4 || rbit s st (phyBlk c) PHY_REMAP (8 * laneHalf (pl p 3 1) (pl p 4 1) + 7) then
          refused (remapCommand s st c (pl p 4 1 + 128 * pl p 3 1 + 256)) (pl p 0 2)
        else
          let s1 := remapCommand s st c (pl p 4 1 + 128 * pl p 3 1 + 256)
          done (logRepair s1 (0, chanNum st c, pl p 3 1 * 128 + pl p 4 1)) []
      else fails s 3

/-- SPARE_ROW (R430). -/
def execSpareRow (m : Fin 28) (s : State) : Host.Outcome State Fault Refusal :=
  serve s m.val 0x0304 fun s w p =>
    match namedStop s (pl p 0 2) .memory with
    | none => fails s (noPlace s (pl p 0 2))
    | some st =>
      if h : pl p 2 1 < 2 ∧ pl p 3 1 < 2 ∧ pl p 4 1 < 3 ∧ pl p 5 1 < 16 ∧ pl p 6 2 < 2 ^ 15 then
        let c : Fin 2 := ⟨pl p 2 1, h.1⟩
        let row := pl p 6 2 + pl p 5 1 * 2 ^ 15 + pl p 4 1 * 2 ^ 19 + pl p 3 1 * 2 ^ 21
        if !bit s.pkg.stackSet (chanOf st c).1 then fails s 7
        else if namesSecure s w [(st, c.val)] then fails s 4
        else if (sparingOf s st c).isSome then refused s (pl p 0 2)
        else
          let s1 := spareCommand (rput s st 5 (scrubOff c + SPARE_ROW) (BitVec.ofNat 32 row)) st c 1
          if 64 ≤ spareUsed s st c (pl p 3 1) then refused s1 (pl p 0 2)
          else done (logRepair s1 (1, chanNum st c, row)) []
      else fails s 3

/-- RETRAIN (R424). -/
def execRetrain (m : Fin 28) (s : State) : Host.Outcome State Fault Refusal :=
  serve s m.val 0x0305 fun s w p =>
    if h : pl p 0 1 < 6 then
      let k : Fin 6 := ⟨pl p 0 1, h⟩
      let ch := pl p 1 1
      if 7 < ch ∧ ch ≠ 0xFF then fails s 3
      else if !bit s.pkg.stackSet k.val then fails s 7
      else if namesSecure s w (((stackChans k).zipIdx.filter fun e => decide (ch = 0xFF ∨ e.2 = ch)).map fun e => (e.1.1, e.1.2.val)) then fails s 4
      else if stkState s k ≠ 2 then refused s (stopLocus (pkgNum s) (stkStop k))
      else if hc : ch < 8 then ⟨stkCommand s k 4 ⟨ch, hc⟩, 0, [], true⟩
      else ⟨stkCommand s k 3 0, 0, [], true⟩
    else fails s 3

/-- A ledger record as bytes, zero for a normal-world reader where its WORLD is 1 (R458). -/
def ledgerBytes (s : State) (d : Fin 2) (i : Nat) (w : World) : List Byte :=
  if w = .normal ∧ rbit s (wsStop d) 10 (ledgerOff i + 12) 2 = true then List.replicate 32 0
  else (List.range 8).flatMap fun j => natLe 4 (rget s (wsStop d) 10 (ledgerOff i + 4 * j)).toNat

/-- LEDGER_READ (R458). -/
def execLedgerRead (m : Fin 28) (s : State) : Host.Outcome State Fault Refusal :=
  serve s m.val 0x0306 fun s w p =>
    if h : pl p 0 1 < 2 then
      let d : Fin 2 := ⟨pl p 0 1, h⟩
      let n := pl p 2 1
      if 31 < pl p 1 1 ∨ n < 1 ∨ 7 < n then fails s 3
      else
        done s (natLe 2 (rfld s (wsStop d) 10 LEDGER_STAT 16 16) ++ natLe 1 n ++ natLe 1 0 ++
          natLe 4 (rget s (wsStop d) 10 LEDGER_LOST).toNat ++
          (List.range n).flatMap fun j => ledgerBytes s d ((pl p 1 1 + j) % 32) w)
    else fails s 3

/-- LEDGER_CLEAR (R463). -/
def execLedgerClear (m : Fin 28) (s : State) : Host.Outcome State Fault Refusal :=
  serve s m.val 0x0307 fun s _ p => if h : pl p 0 1 < 2 then done (ledgerClear s ⟨pl p 0 1, h⟩) [] else fails s 3

/-! ## Split-lock commands -/

/-- The thread that keeps a tile from quiescing. -/
def tileBlocker (s : State) (st : Stop) : Nat :=
  match (tileHarts st).find? fun h => decide ((tget s h).run ≠ .stopped) with
  | some h => hartLocus (pkgNum s) h
  | none => stopLocus (pkgNum s) st

/-- Step 1 of a mode change (R465): EN of blocks 1 to 4 cleared and the caches emptied. -/
def tileQuiesce (s : State) (st : Stop) : State :=
  let s1 := [0, 1].foldl (fun s (c : Fin 2) =>
    rsetB (l2Empty (l2En (rsetB s st (1 + c.val) BLOCK_CTL 0 false) st c false) (coreNum st c)) st (l2Blk c) L2_STAT 0 false) s
  s1

/-- Step 3: EN of blocks 1 and 3, and of 2 and 4 in an unlocked tile. -/
def tileResume (s : State) (st : Stop) : State :=
  let s1 := l2En (rsetB s st 1 BLOCK_CTL 0 true) st 0 true
  if tileMode s1 st = 0 then l2En (rsetB s1 st 2 BLOCK_CTL 0 true) st 1 true else s1

/-- SET_TILE_MODE (R465). -/
def execSetTileMode (m : Fin 28) (s : State) : Host.Outcome State Fault Refusal :=
  serve s m.val 0x0400 fun s w p =>
    match namedStop s (pl p 0 2) .tile with
    | none => fails s (noPlace s (pl p 0 2))
    | some st =>
      let cmd := pl p 2 1
      if cmd < 1 ∨ 3 < cmd then fails s 3
      else if (domSecure s st 0 || domSecure s st 1) && decide (w = .normal) then fails s 4
      else if !((tileHarts st).all fun h => decide ((tget s h).run = .stopped) && (tget s h).startAt.isNone) then refused s (tileBlocker s st)
      else if decide (cmd ≤ 2) != decide (tileMode s st ≤ 1) then refused (lockCmd s st cmd) (pl p 0 2)
      else done (lockCmd (tileQuiesce s st) st cmd) []

/-- GET_TILE_LOCK (R619). -/
def execGetTileLock (m : Fin 28) (s : State) : Host.Outcome State Fault Refusal :=
  serve s m.val 0x0401 fun s _ p =>
    match namedStop s (pl p 0 2) .tile with
    | none => fails s (noPlace s (pl p 0 2))
    | some st => done s (natLe 4 (lockStat s st).toNat ++ [LOCK_CNT, LOCK_REC_MAX, LOCK_LAST].flatMap fun o => natLe 4 (rget s st 0 o).toNat)

/-! ## Memory commands (Table 20-7) -/

/-- The flash changed. -/
def flashMod (s : State) (f : Flash → Flash) : State := { s with ws := { s.ws with flash := f s.ws.flash } }

/-- SET_HBM_MODE (R46). -/
def execSetHbmMode (m : Fin 28) (s : State) : Host.Outcome State Fault Refusal :=
  serve s m.val 0x0500 fun s _ p =>
    let v := pl p 0 1
    if 1 < v then fails s 3
    else
      let got := if s.pkg.stackSet = 63 then v else 0
      ⟨flashMod s fun f => { f with hbm := decide (v = 1) }, if got = v then 0 else 0xB, natLe 1 v ++ natLe 1 got, false⟩

/-- Whether stored windows satisfy R433, do not overlap and stay within the package limits (R34, R621). -/
def windowsOk (l : List (Nat × Nat × Bool × Nat × Nat × Nat)) : Bool :=
  let en := l.filter fun e => e.2.2.1
  (en.all fun e => decide (e.2.2.2.1 % 2 ^ 28 = 0) && decide (0x100000000000 ≤ e.2.2.2.1) && decide (0 < e.2.2.2.2.1) &&
    decide (e.2.2.2.1 + e.2.2.2.2.1 * 2 ^ 28 ≤ 0x1000000000000) && decide (e.2.2.2.2.2 % 2 ^ 28 = 0)) &&
  (en.all fun e => en.all fun g => decide (e.1 = g.1) || decide (e.2.2.2.1 + e.2.2.2.2.1 * 2 ^ 28 ≤ g.2.2.2.1) ||
    decide (g.2.2.2.1 + g.2.2.2.2.1 * 2 ^ 28 ≤ e.2.2.2.1)) &&
  decide ((en.map fun e => e.2.2.2.2.1).sum ≤ 65536) &&
  decide (((List.range 12).filter fun n => en.any fun e => decide (e.1 / 4 = n)).length ≤ 8)

/-- SET_CXL_WINDOW (R621). -/
def execSetCxlWindow (m : Fin 28) (s : State) : Host.Outcome State Fault Refusal :=
  serve s m.val 0x0501 fun s _ p =>
    let k := pl p 0 1 * 4 + pl p 1 1
    let e := (k, pl p 2 1, decide (pl p 3 1 = 1), pl p 4 8, pl p 12 4, pl p 16 8)
    let l := (s.ws.flash.cxl.filter fun g => decide (g.1 ≠ k)) ++ [e]
    if 11 < pl p 0 1 ∨ 3 < pl p 1 1 ∨ 5 < pl p 2 1 ∨ 1 < pl p 3 1 ∨ windowsOk l = false then fails s 3
    else done (flashMod s fun f => { f with cxl := l }) (natLe 1 (48 * pkgNum s + k))

/-- GET_CXL_WINDOWS (R619). -/
def execGetCxlWindows (m : Fin 28) (s : State) : Host.Outcome State Fault Refusal :=
  serve s m.val 0x0502 fun s _ p =>
    let l := (List.range 48).filter fun k =>
      decide (pl p 0 1 ≤ 48 * pkgNum s + k) && decide (portProto s (k / 4) = 1) &&
      rbit s (portStop ⟨k / 4 % 12, by omega⟩) 5 (CXW_CTL + 0x10 * (k % 4)) 0
    let next := match l.drop 10 with | k :: _ => 48 * pkgNum s + k | [] => 0xFF
    done s (natLe 1 (min 10 l.length) ++ natLe 1 next ++ (l.take 10).flatMap fun k =>
      let st := portStop ⟨k / 4 % 12, by omega⟩
      let o := 0x10 * (k % 4)
      natLe 1 (48 * pkgNum s + k) ++ natLe 1 (k / 4) ++ natLe 1 (k % 4) ++ natLe 1 (rfld s st 5 (CXW_CTL + o) 1 3) ++
      natLe 8 (rfld s st 5 (CXW_BASE + o) 0 24 * 2 ^ 28) ++ natLe 4 (rfld s st 5 (CXW_SIZE + o) 0 17) ++
      natLe 8 (rfld s st 5 (CXW_DPA + o) 0 24 * 2 ^ 28))

/-! ## Outrider commands -/

/-- OR_LOAD (R621). -/
def execOrLoad (m : Fin 28) (s : State) : Host.Outcome State Fault Refusal :=
  serve s m.val 0x0600 fun s w p =>
    if h : pl p 0 1 < 16 then
      let n : Fin 16 := ⟨pl p 0 1, h⟩
      let r := orRegs n
      let off := pl p 4 4
      let len := pl p 8 4
      let src := pl p 12 8
      if 3 < pl p 1 1 ∨ pl p 2 2 ≠ 0 ∨ len % 8 ≠ 0 ∨ 0x80000 < off + len ∨ 2 ^ 52 ≤ src then fails s 3
      else if (tget s (.outrider n)).run ≠ .stopped then refused s (stopLocus (pkgNum s) r.1)
      else if w = .normal ∧ (rbit s (wsStop 0) 11 WA_OR_SEC n.val = true ∨ (List.range (len / 8)).any (fun i => inSecureRange s (src + 8 * i)) = true) then fails s 4
      else
        let image := memRead s src len
        let s1 := clearResv (memWriteBytes s (tcmBase n.val + off) image) none (tcmBase n.val + off) len
        if Config.sha384 image ≠ (p.drop 28).take 48 then fails s1 9
        else
          let s2 := rput64 (measureExtend s1 5 image) r.1 1 (r.2 + OR_START_LO) (pl p 20 8)
          let s3 := rsetB s2 r.1 1 (r.2 + OR_CTL) 2 (bit (pl p 1 1) 1)
          ⟨if bit (pl p 1 1) 0 then startGo s3 (.outrider n) else s3, 0, [], true⟩
    else fails s 3

/-- OR_STOP (R619). -/
def execOrStop (m : Fin 28) (s : State) : Host.Outcome State Fault Refusal :=
  serve s m.val 0x0601 fun s w p =>
    if h : pl p 0 1 < 16 then
      let n : Fin 16 := ⟨pl p 0 1, h⟩
      if w = .normal ∧ rbit s (wsStop 0) 11 WA_OR_SEC n.val = true then fails s 4
      else done (startStop s (.outrider n)) []
    else fails s 3

/-- OR_STATUS (R619). OR_RUN and OR_STALL are free values (log entry 4). -/
def execOrStatus (m : Fin 28) (s : State) : Host.Outcome State Fault Refusal :=
  serve s m.val 0x0602 fun s w p =>
    if h : pl p 0 1 < 16 then
      let n : Fin 16 := ⟨pl p 0 1, h⟩
      if w = .normal ∧ rbit s (wsStop 0) 11 WA_OR_SEC n.val = true then fails s 4
      else
        let f := freeBytes s 16
        done f.1 (natLe 4 (orStat s n).toNat ++ f.2)
    else fails s 3

/-! ## Firmware update (R622) -/

/-- The update in progress replaced. -/
def setFwu (s : State) (f : FwuSt) : State := { s with ws := { s.ws with fwu := f } }

/-- FWU_BEGIN: the inactive slot, or the backup manifest, is erased. -/
def fwuBegin (s : State) (comp len : Nat) : Served :=
  if 1 < comp ∨ len = 0 ∨ (if comp = 0 then 0x800000 else 0x10000) < len then fails s 3
  else if s.ws.fwu.stage ≠ 0 then fails s 0xD
  else
    let s1 := flashMod s fun f =>
      if comp = 1 then { f with backup := [] } else if wsSlot s then { f with slotA := [] } else { f with slotB := [] }
    ⟨setFwu s1 ⟨1, comp, len, []⟩, 0, [], true⟩

/-- FWU_DATA: bytes at the next offset. -/
def fwuData (s : State) (off : Nat) (d : List Byte) : Served :=
  let u := s.ws.fwu
  if u.stage ≠ 1 ∨ off ≠ u.data.length then fails s 0xD
  else if u.len < off + d.length then fails s 3
  else
    let data := u.data ++ d
    let s1 := flashMod s fun f =>
      if u.comp = 1 then { f with backup := data } else if wsSlot s then { f with slotA := data } else { f with slotB := data }
    done (setFwu s1 { u with data := data }) []

/-- FWU_VERIFY: the staged image, as the boot would check it. -/
def fwuVerify (s : State) : Served :=
  let u := s.ws.fwu
  if u.stage ≠ 1 ∨ u.data.length ≠ u.len then fails s 0xD
  else if (if u.comp = 0 then (slotImage s (!wsSlot s)).isSome else manOk s s.ws.flash.backup) then
    ⟨setFwu s { u with stage := 2 }, 0, Config.sha384 u.data, true⟩
  else fails s 9

/-- The standby pair takes over (Table 20-2, step 3): ACTIVE_DIE changes. -/
def flipActive (s : State) : State := rsetB s (wsStop 0) 3 WS_STAT 0 (!rbit s (wsStop 0) 3 WS_STAT 0)

/-- FWU_ACTIVATE: at the next cold reset, or now on the standby pair; the former active pair then boots as standby. -/
def fwuActivate (s : State) (now : Nat) : Served :=
  let u := s.ws.fwu
  let new := !wsSlot s
  if 1 < now ∨ (now = 1 ∧ u.comp = 1) then fails s 3
  else if u.stage ≠ 2 then fails s 0xD
  else if now = 1 ∧ rfld s (wsStop 0) 3 WS_STAT 1 2 ≠ 2 then refused s 0xFFFF
  else
    let s1 := setFwu (flashMod s fun f => if u.comp = 0 then { f with slot := new } else { f with swap := true }) ⟨0, 0, 0, []⟩
    if now = 0 then ⟨s1, 0, [], true⟩
    else
      let s2 := measureSet (rputF (rsetB (flipActive s1) (wsStop 0) 3 WS_STAT 4 new) (wsStop 0) 3 WS_STAT 1 2 1) 2 (slotBytes s1 new)
      ⟨addEvent (wsStart (wsStart s2 0) 1) 5 (stopLocus (pkgNum s) (wsStop 0)) 0 false, 0, [], true⟩

/-- FWU_ABORT: back to the start. -/
def fwuAbort (s : State) : Served := done (setFwu s ⟨0, 0, 0, []⟩) []

/-- FWU_BEGIN (R622). -/
def execFwuBegin (m : Fin 28) (s : State) : Host.Outcome State Fault Refusal :=
  serve s m.val 0x0700 fun s _ p => if pl p 1 3 ≠ 0 then fails s 3 else fwuBegin s (pl p 0 1) (pl p 4 4)

/-- FWU_DATA (R622). -/
def execFwuData (m : Fin 28) (s : State) : Host.Outcome State Fault Refusal :=
  serve s m.val 0x0701 fun s _ p =>
    let n := pl p 4 2
    if p.length < 8 ∨ p.length ≠ 8 + n then fails s 2
    else if 240 < n ∨ pl p 6 2 ≠ 0 then fails s 3
    else fwuData s (pl p 0 4) (p.drop 8)

/-- FWU_VERIFY (R622). -/
def execFwuVerify (m : Fin 28) (s : State) : Host.Outcome State Fault Refusal := serve s m.val 0x0702 fun s _ _ => fwuVerify s

/-- FWU_ACTIVATE (R622). -/
def execFwuActivate (m : Fin 28) (s : State) : Host.Outcome State Fault Refusal :=
  serve s m.val 0x0703 fun s _ p => fwuActivate s (pl p 0 1)

/-- FWU_ABORT (R622). -/
def execFwuAbort (m : Fin 28) (s : State) : Host.Outcome State Fault Refusal := serve s m.val 0x0704 fun s _ _ => fwuAbort s

/-- FWU_COMMIT_SVN (R622). -/
def execFwuCommitSvn (m : Fin 28) (s : State) : Host.Outcome State Fault Refusal :=
  serve s m.val 0x0705 fun s _ _ =>
    let svn := match wsImage s with | some i => i.svn | none => 0
    let v := max (rfld s (wsStop 0) 12 FUSE_CFG 8 8) (min svn 255)
    done (rputF (rputF s (wsStop 0) 12 FUSE_CFG 8 8 v) (wsStop 1) 12 FUSE_CFG 8 8 v) (natLe 1 v)

/-! ## Debug, telemetry (Table 20-8) -/

/-- A token from its 240 bytes (Table 17-5). -/
def parseToken (s : State) (b : List Byte) : Token :=
  let key := (b.drop 48).take 96
  let signer := pl b 32 4
  { formed := decide (b.take 6 = [0x4F, 0x4D, 0x44, 0x54, 1, 0]) && decide (bits (pl b 6 2) 4 12 = 0) && decide (pl b 36 12 = 0) &&
      (decide (signer = 1) || decide (pl b 48 96 = 0))
    enables := BitVec.ofNat 4 (pl b 6 2)
    dieId := BitVec.ofNat 64 (pl b 8 8)
    nonceLo := BitVec.ofNat 64 (pl b 16 8)
    nonceHi := BitVec.ofNat 64 (pl b 24 8)
    signer := signer
    ownKey := decide (Config.sha384 key = (List.range 12).flatMap fun i => natLe 4 (rget s (wsStop 0) 12 (OWNER_HASH + 4 * i)).toNat)
    sigOk := Config.ecdsa (if signer = 1 then key else Config.debugKey) (b.take 144) ((b.drop 144).take 96) }

/-- DEBUG_TOKEN (R549). -/
def execDebugToken (m : Fin 28) (s : State) : Host.Outcome State Fault Refusal :=
  serve s m.val 0x0801 fun s _ p =>
    let s1 := presentToken s (parseToken s p)
    done s1 (natLe 1 (rfld s1 (wsStop 0) 12 DBG_TOK_STAT 0 3) ++ natLe 1 (getF (dbgReg s1) 0 4) ++
      natLe 8 (rget64 s1 (wsStop 0) 12 DBG_NONCE) ++ natLe 8 (rget64 s1 (wsStop 0) 12 (DBG_NONCE + 8)))

/-- DEBUG_REVOKE (R550). -/
def execDebugRevoke (m : Fin 28) (s : State) : Host.Outcome State Fault Refusal :=
  serve s m.val 0x0802 fun s _ _ =>
    let s1 := dbgRevoke s
    done s1 (natLe 1 (getF (dbgReg s1) 0 4))

/-- GET_SENSORS (R619): the spec does not lay out the throttling bits, which are a free value. -/
def execGetSensors (m : Fin 28) (s : State) : Host.Outcome State Fault Refusal :=
  serve s m.val 0x0900 fun s _ _ =>
    let t := [(0 : Fin 2), 1].flatMap fun d => (List.range 6).flatMap fun b => natLe 1 (rfld s (wsStop d) 5 (bandBase b + BAND_STAT) 16 8)
    let f := freeBytes s 1
    done f.1 (t ++ ((List.finRange 6).flatMap fun k => natLe 1 (rfld s (stkStop k) 6 STK_TEMP 0 8)) ++
      natLe 2 (rfld s (wsStop 0) 4 PKG_PWR_EST 0 10) ++ f.2)

/-- Bits set in a number of `n` bits. -/
def popBits (v n : Nat) : Nat := (List.range n).countP fun i => bit v i

/-- The counts of GET_HEALTH. -/
def healthCounts (s : State) : List Nat :=
  let tiles := fun (k : Nat) => allTiles.countP fun st => decide (tileMode s st = k)
  let l2 := (allTiles.map fun st => popBits (rget s st 3 L2_WAY_FAILED).toNat 16 + popBits (rget s st 4 L2_WAY_FAILED).toNat 16).sum
  let l3 := (allTiles.map fun st => popBits (rget s st 5 L3_WAY_FAILED).toNat 12).sum
  let mem := allStops.filter fun st => decide (stopKind st = .memory)
  let rows := (mem.map fun st => ([(0 : Fin 2), 1].map fun c => spareUsed s st c 0 + spareUsed s st c 1).sum).sum
  let lanes := (mem.map fun st => ([(0 : Fin 2), 1].map fun c => rfld s st (phyBlk c) PHY_STAT 0 2 + rfld s st (phyBlk c) PHY_STAT 2 2).sum).sum
  let mesh := (allStops.map fun st => ([0, 1, 2, 3] : List (Fin 4)).countP fun d => decide (linkState s (.mesh st d) = 2)).sum
  let ford := ([(0 : Fin 2), 1].map fun d => ([0, 1, 2, 3] : List (Fin 4)).countP fun k => decide (linkState s (.ford d k) = 2)).sum
  let cv := (cvPorts s).countP fun n => decide (cvState s n = 4)
  let faults := (List.finRange 16).countP fun n => (orStat s n).getLsbD 3
  [tiles 2, tiles 3, s.pkg.retired.length, l2, l3, rows, lanes, mesh / 2, ford / 2, cv, faults,
    rfld s (wsStop 0) 3 WS_STAT 16 16, rfld s (wsStop 0) 3 WS_STAT 1 2]

/-- GET_HEALTH (R619). -/
def execGetHealth (m : Fin 28) (s : State) : Host.Outcome State Fault Refusal :=
  serve s m.val 0x0901 fun s _ _ => done s ((healthCounts s).flatMap fun v => natLe 2 (min v 65535))

/-- GET_EVENTS (R619): at most 14 records from a sequence number on, of the normal world for a normal-world mailbox. -/
def execGetEvents (m : Fin 28) (s : State) : Host.Outcome State Fault Refusal :=
  serve s m.val 0x0902 fun s w p =>
    let first := s.ws.evNext - s.ws.events.length
    let l := (s.ws.events.zipIdx.map fun e => (first + e.2, e.1)).filter fun e =>
      decide (pl p 0 4 ≤ e.1) && (decide (w = .secure) || !e.2.secure)
    let next := match l.drop 14 with | e :: _ => e.1 | [] => s.ws.evNext
    done s (natLe 4 next ++ natLe 1 (min 14 l.length) ++ (l.take 14).flatMap fun e =>
      natLe 8 e.2.tb ++ natLe 2 e.2.kind ++ natLe 2 e.2.locus ++ natLe 2 e.2.source ++ natLe 2 (e.1 % 65536))

end Sys2Proof.Machine
end

