-- ==== Sys2Proof/Machine/Waystation.lean ====
section
/-!
DEFINITION. Completion of mailbox commands, the SPDM responder, the sideband port, and the two Waystation pairs (chapter 20).
-/

namespace Sys2Proof.Machine

/-! ## Completion (R613, R620, R621) -/

/-- What a command that has been carried out is answered with: none while its effect is still in progress. -/
def mbOutcome (s : State) (m : Nat) (r : MbRun) : Option (State × Nat × List Byte) :=
  let p := mbPayload s m
  let st := (stopOfLocus (pkgNum s) (pl p 0 2)).getD ⟨0, 0, 0⟩
  let c : Fin 2 := if pl p 2 1 = 0 then 0 else 1
  if r.status ≠ 0 then some (s, r.status, r.data)
  else
    match mbOpcode s m with
    | 0x0201 | 0x0202 =>
      if r.data ≠ [] ∧ pkgState s = 0 then
        some (s, 0, natLe 4 (rget s (wsStop 0) 4 WAKE_LAST_SRC).toNat ++ natLe 4 0 ++ natLe 8 r.t0 ++ natLe 8 (tbNow s))
      else none
    | 0x0300 => if setHas s.pkg.retired (stopIdx st) then some (s, 0, []) else none
    | 0x0302 =>
      let busy := if pl p 0 1 = 2 then decide (namedLinkState s p = 1 ∨ namedLinkState s p = 3)
        else (namedLinks s p).any fun l => setHas s.link.training (trainKey l)
      if busy then none else some (s, 0, natLe 1 (namedLinkState s p))
    | 0x0303 =>
      if rbit s st (phyBlk c) PHY_STAT 4 then none else some (s, 0, natLe 1 (rfld s st (phyBlk c) PHY_STAT (2 * (pl p 3 1 % 2)) 2))
    | 0x0304 => if (sparingOf s st c).isSome then none else some (s, 0, natLe 1 (spareUsed s st c (pl p 3 1)))
    | 0x0305 =>
      let k : Fin 6 := ⟨pl p 0 1 % 6, by omega⟩
      let ch : Fin 8 := ⟨pl p 1 1 % 8, by omega⟩
      let busy := if pl p 1 1 = 0xFF then decide (stkState s k = 4)
        else rbit s (chanStop k ch) (mcBlk (chanCtl ch)) MC_STAT 3
      if busy then none
      else if stkState s k = 5 then some (s, 0xA, natLe 2 (stopLocus (pkgNum s) (stkStop k)))
      else some (s, 0, [])
    | 0x0400 =>
      if rbit s st 0 LOCK_STAT 5 then none
      else
        let s1 := tileResume s st
        some (s1, 0, natLe 1 (tileMode s1 st) ++ natLe 1 (rfld s1 st 0 LOCK_STAT 2 1))
    | 0x0600 => some (s, 0, natLe 1 (getF (orStat s ⟨pl p 0 1 % 16, by omega⟩) 0 2))
    | 0x0601 =>
      let n : Fin 16 := ⟨pl p 0 1 % 16, by omega⟩
      if (tget s (.outrider n)).run = .stopped then some (s, 0, natLe 1 0) else none
    | _ => some (s, 0, r.data)

/-- COMMAND_COMPLETE (R613). The Waystation writes the response of a command that it has carried out; an opcode that is not in the
catalogue is answered with BAD_OPCODE (R618). -/
def execCommandComplete (m : Fin 28) (s : State) : Host.Outcome State Fault Refusal :=
  match mapGet (fun _ => none) s.ws.run m.val with
  | some r =>
    match mbOutcome s m.val r with
    | some (s1, st, d) => .next (mbComplete s1 m.val st d)
    | none => .next s
  | none =>
    if mbNext s m.val && (mbCat (mbOpcode s m.val)).isNone then .next (mbComplete s m.val 1 []) else .next s

/-! ## The SPDM responder (R556, R623; message layouts as in log entry 14) -/

/-- How far a connection has come: 0 nothing, 1 version, 2 capabilities, 3 algorithms. -/
def spdmState (s : State) (c : Nat) : Nat := mapGet (fun _ => 0) s.ws.spdm c
def spdmPut (s : State) (c v : Nat) : State := { s with ws := { s.ws with spdm := mapSet (fun _ => 0) s.ws.spdm c v } }

/-- An ERROR response. -/
def spdmError (code : Nat) : List Byte := [0x12, 0x7F] ++ natLe 1 code ++ [0]

/-- The digest of the certificate chain in flash. -/
def chainHash (s : State) : List Byte := Config.sha384 s.ws.flash.chain

/-- What a measurement index reports (Table 17-9): digests of the boot ROM, of FUSE_CFG and OWNER_HASH, of DBG_EFF, or the kept one; none
where nothing has been measured. -/
def measured (s : State) (i : Nat) : List Byte :=
  let w := wsStop 0
  match i with
  | 1 => Config.sha384 Config.bootRom
  | 4 => Config.sha384 (natLe 4 (rget s w 12 FUSE_CFG).toNat ++ (List.range 12).flatMap fun j => natLe 4 (rget s w 12 (OWNER_HASH + 4 * j)).toNat)
  | 6 => Config.sha384 (natLe 4 (dbgReg s).toNat)
  | _ => mapGet (fun _ => []) s.ws.measure i

/-- One measurement block (Table 17-9): its value type is a free byte, and so is a digest of what has not been measured. -/
def measureBlock (s : State) (i : Nat) : State × List Byte :=
  let f := freeBytes s 1
  let d := measured s i
  let g := if d = [] then freeBytes f.1 48 else (f.1, d)
  (g.1, natLe 1 i ++ [1] ++ natLe 2 51 ++ f.2 ++ natLe 2 48 ++ g.2)

/-- The response to an SPDM request on a connection. -/
def spdmAnswer (s : State) (c : Nat) (q : List Byte) : State × List Byte :=
  let st := spdmState s c
  let slot := pl q 2 1
  match pl q 1 1 with
  | 0x84 => (spdmPut s c 1, [0x10, 0x04, 0, 0, 0, 1, 0x00, 0x12])
  | 0xE1 =>
    if st < 1 then (s, spdmError 4)
    else
      let f := freeBytes s 1
      (spdmPut f.1 c 2, [0x12, 0x61, 0, 0, 0] ++ f.2 ++ natLe 2 0 ++ natLe 4 0x16 ++ natLe 4 248 ++ natLe 4 248)
  | 0xE3 =>
    if st < 2 then (s, spdmError 4)
    else (spdmPut s c 3, [0x12, 0x63, 0, 0] ++ natLe 2 36 ++ [1, 0] ++ natLe 4 4 ++ natLe 4 0x80 ++ natLe 4 2 ++ List.replicate 16 0)
  | 0x81 => if st < 3 then (s, spdmError 4) else (s, [0x12, 0x01, 0, 1] ++ chainHash s)
  | 0x82 =>
    if st < 3 then (s, spdmError 4)
    else if slot ≠ 0 ∨ s.ws.flash.chain.length ≤ pl q 4 2 then (s, spdmError 1)
    else
      let d := (s.ws.flash.chain.drop (pl q 4 2)).take (min (pl q 6 2) 240)
      (s, [0x12, 0x02, 0, 0] ++ natLe 2 d.length ++ natLe 2 (s.ws.flash.chain.length - pl q 4 2 - d.length) ++ d)
  | 0x83 =>
    if st < 3 then (s, spdmError 4)
    else if slot ≠ 0 then (s, spdmError 1)
    else
      let f := freeBytes s 32
      let all := [1, 2, 3, 4, 5, 6].foldl (fun (a : State × List Byte) i => let b := measureBlock a.1 i; (b.1, a.2 ++ b.2)) (f.1, [])
      let sum := if pl q 3 1 = 0 then [] else Config.sha384 all.2
      let g := freeBytes all.1 96
      (g.1, [0x12, 0x03, 0, 1] ++ chainHash s ++ f.2 ++ sum ++ natLe 2 0 ++ g.2)
  | 0xE0 =>
    let i := pl q 3 1
    if st < 3 then (s, spdmError 4)
    else if 6 < i then (s, spdmError (if i = 0xFF then 0xD else 1))
    else
      let b := if i = 0 then (s, []) else measureBlock s i
      let f := freeBytes b.1 32
      let g := if bit slot 0 then freeBytes f.1 96 else (f.1, [])
      (g.1, [0x12, 0x60] ++ natLe 1 (if i = 0 then 6 else 0) ++ [0] ++ natLe 1 (if i = 0 then 0 else 1) ++ natLe 3 b.2.length ++ b.2 ++
        f.2 ++ natLe 2 0 ++ g.2)
  | _ => (s, spdmError 7)

/-- An SPDM request on a connection: mailbox `c`, whose BUSY command carries it, or 16, the sideband, on which `q` arrives from endpoint
`peer`.  `code` is the request code, none for any. -/
def spdmServe (s : State) (c : Fin 17) (code : Option Nat) (peer : Nat) (q : List Byte) : Host.Outcome State Fault Refusal :=
  let is := fun (q : List Byte) => match code with | some k => decide (pl q 1 1 = k) | none => true
  if c.val < 16 then
    if is (mbPayload s c.val) then
      serve s c.val 0x0800 fun s _ p => let r := spdmAnswer s c.val p; done r.1 r.2
    else .next s
  else if is q then
    let r := spdmAnswer s 16 q
    .next (sbSend r.1 (natLe 1 peer ++ [0x05] ++ r.2))
  else .next s

/-- SPDM (R623). An SPDM request carried by a mailbox command. -/
def execSpdm (m : Fin 16) (s : State) : Host.Outcome State Fault Refusal := spdmServe s ⟨m.val, by omega⟩ none 0 []

/-- GET_VERSION (R556). -/
def execGetVersion (c : Fin 17) (peer : BitVec 8) (q : List Byte) (s : State) : Host.Outcome State Fault Refusal :=
  spdmServe s c (some 0x84) peer.toNat q

/-- GET_CAPABILITIES (R556). -/
def execGetCapabilities (c : Fin 17) (peer : BitVec 8) (q : List Byte) (s : State) : Host.Outcome State Fault Refusal :=
  spdmServe s c (some 0xE1) peer.toNat q

/-- NEGOTIATE_ALGORITHMS (R556). -/
def execNegotiateAlgorithms (c : Fin 17) (peer : BitVec 8) (q : List Byte) (s : State) : Host.Outcome State Fault Refusal :=
  spdmServe s c (some 0xE3) peer.toNat q

/-- GET_DIGESTS (R556). -/
def execGetDigests (c : Fin 17) (peer : BitVec 8) (q : List Byte) (s : State) : Host.Outcome State Fault Refusal :=
  spdmServe s c (some 0x81) peer.toNat q

/-- GET_CERTIFICATE (R556). -/
def execGetCertificate (c : Fin 17) (peer : BitVec 8) (q : List Byte) (s : State) : Host.Outcome State Fault Refusal :=
  spdmServe s c (some 0x82) peer.toNat q

/-- CHALLENGE (R556). -/
def execChallenge (c : Fin 17) (peer : BitVec 8) (q : List Byte) (s : State) : Host.Outcome State Fault Refusal :=
  spdmServe s c (some 0x83) peer.toNat q

/-- GET_MEASUREMENTS (R556, R623). -/
def execGetMeasurements (c : Fin 17) (peer : BitVec 8) (q : List Byte) (s : State) : Host.Outcome State Fault Refusal :=
  spdmServe s c (some 0xE0) peer.toNat q

/-! ## The sideband port (R625, R626) -/

/-- ENTDAA (R625). The bus assigns the port a dynamic address. -/
def execEntdaa (addr : BitVec 7) (s : State) : Host.Outcome State Fault Refusal :=
  .next { s with ws := { s.ws with addr := addr.toNat } }

/-- SETDASA (R625). A dynamic address set from the static address 0x58 + SB_ADDR; another static address is another target's. -/
def execSetdasa (static addr : BitVec 7) (s : State) : Host.Outcome State Fault Refusal :=
  if static.toNat = 0x58 + rfld s (wsStop 0) 3 STRAP 3 2 then .next { s with ws := { s.ws with addr := addr.toNat } } else .next s

/-- An MCTP message leaves for an endpoint: type and body. -/
def mctpSend (s : State) (peer type : Nat) (body : List Byte) : State := sbSend s (natLe 1 peer ++ natLe 1 type ++ body)

/-- SET_ENDPOINT_ID (R625). The bus owner assigns the endpoint identifier; 0 and 0xFF are no identifiers. -/
def execSetEndpointId (peer eid : BitVec 8) (s : State) : Host.Outcome State Fault Refusal :=
  if eid = 0 ∨ eid = 0xFF then .next (mctpSend s peer.toNat 0 [0x01, 0x02])
  else .next (mctpSend { s with ws := { s.ws with eid := eid.toNat } } peer.toNat 0 ([0x01, 0, 0] ++ natLe 1 eid.toNat ++ [0]))

/-- GET_ENDPOINT_ID (R625). -/
def execGetEndpointId (peer : BitVec 8) (s : State) : Host.Outcome State Fault Refusal :=
  .next (mctpSend s peer.toNat 0 ([0x02, 0] ++ natLe 1 s.ws.eid ++ [0, 0]))

/-- GET_MCTP_VERSION_SUPPORT (R625): the version's four bytes are free values. -/
def execGetMctpVersionSupport (peer : BitVec 8) (s : State) : Host.Outcome State Fault Refusal :=
  let f := freeBytes s 4
  .next (mctpSend f.1 peer.toNat 0 ([0x04, 0, 1] ++ f.2))

/-- GET_MESSAGE_TYPE_SUPPORT (R625): the types of Table 20-10. -/
def execGetMessageTypeSupport (peer : BitVec 8) (s : State) : Host.Outcome State Fault Refusal :=
  .next (mctpSend s peer.toNat 0 [0x05, 0, 4, 0x00, 0x01, 0x05, 0x7E])

/-- The value of a sensor of Table 20-10. -/
def sensorValue (s : State) (n : Nat) : Option Nat :=
  if n = 1 then some (rfld s (wsStop 0) 4 THERM_STAT 0 8)
  else if n = 2 then some (rfld s (wsStop 1) 4 THERM_STAT 0 8)
  else if h : 3 ≤ n ∧ n ≤ 8 then some (rfld s (stkStop ⟨n - 3, by omega⟩) 6 STK_TEMP 0 8)
  else if n = 9 then some (rfld s (wsStop 0) 4 PKG_PWR_EST 0 10)
  else if n = 10 then some (rfld s (wsStop 0) 4 PKG_PWR_LIMIT 0 10)
  else if n = 20 then some (pkgState s)
  else none

/-- PLDM_MONITORING (R625). A sensor is read: completion code and value. -/
def execPldmMonitoring (peer : BitVec 8) (sensor : BitVec 16) (s : State) : Host.Outcome State Fault Refusal :=
  match sensorValue s sensor.toNat with
  | some v => .next (mctpSend s peer.toNat 1 ([2, 0] ++ natLe 2 v))
  | none => .next (mctpSend s peer.toNat 1 [2, 0x80])

/-- PLDM_FIRMWARE_UPDATE (R622, R625): a step of the update, 0 BEGIN, 1 DATA, 2 VERIFY, 3 ACTIVATE, 4 ABORT, with its two numbers and
bytes; the status is returned. -/
def execPldmFirmwareUpdate (peer : BitVec 8) (step : Fin 5) (a b : BitVec 32) (data : List Byte) (s : State) :
    Host.Outcome State Fault Refusal :=
  let busy := s.ws.run.any fun e => decide (mbPlace s e.1 = some (2 ^ 44)) && e.2.isSome
  let r :=
    if busy then fails s 5
    else
      match step.val with
      | 0 => fwuBegin s a.toNat b.toNat
      | 1 => fwuData s a.toNat data
      | 2 => fwuVerify s
      | 3 => fwuActivate s a.toNat
      | _ => fwuAbort s
  .next (mctpSend r.s peer.toNat 1 ([5] ++ natLe 1 r.status))

/-- PLDM_BASE (R625): the types supported, 0, 2 and 5. -/
def execPldmBase (peer : BitVec 8) (s : State) : Host.Outcome State Fault Refusal :=
  .next (mctpSend s peer.toNat 1 [0, 0, 0x25])

/-- VENDOR_DEFINED (R626). A message in the format of R618 enters mailbox 12 from the bus owner's endpoint, 13 from any other; a mailbox
that is not IDLE answers BUSY. -/
def execVendorDefined (owner : Bool) (peer : BitVec 8) (msg : List Byte) (s : State) : Host.Outcome State Fault Refusal :=
  let m := if owner then 12 else 13
  if mbState s m ≠ 0 then .next (mctpSend s peer.toNat 0x7E (natLe 2 5 ++ natLe 2 0 ++ (msg.drop 4).take 4))
  else
    let s1 := (List.range 64).foldl (fun s i => mbPut s m (4 * i) (BitVec.ofNat 32 (pl msg (4 * i) 4))) s
    .next (mbDoorbell { s1 with ws := { s1.ws with peer := mapSet (fun _ => 0) s1.ws.peer m peer.toNat } } m 1)

/-! ## The two pairs (R606 to R611) -/

/-- WS_STAT.STANDBY: 0 absent, 1 booting, 2 ready, 3 failed. -/
def standby (s : State) : Nat := rfld s (wsStop 0) 3 WS_STAT 1 2
def setStandby (s : State) (v : Nat) : State := rputF s (wsStop 0) 3 WS_STAT 1 2 v

/-- The die of the active pair. -/
def activeStop (s : State) : Stop := wsStop (if activeDie s = 0 then 0 else 1)

/-- The active pair has failed (R609, R611): the standby pair takes over where it is ready, and the failed pair self-tests; otherwise the
active pair is reset and its commands in progress are ABORTED. -/
def pairFailed (s : State) : State :=
  let d : Fin 2 := if activeDie s = 0 then 0 else 1
  if standby s = 2 then
    let s1 := tput (setStandby (flipActive s) 1) (.waystation d) Thread.initial
    let s2 := rsetB s1 (wsStop 0) 3 WS_STAT 5 true
    let s3 := rsat s2 (wsStop 0) 3 WS_STAT 16 16 1
    reportErr (addEvent s3 4 (stopLocus (pkgNum s) (activeStop s3)) 0x9005 true) (activeStop s3) 0x9005 0
  else
    let s1 := (List.range 14).foldl mbAbort s
    let s2 := [24, 25, 26, 27].foldl (fun s m => if mbState s m = 1 then mbComplete s m 0xC [] else s) s1
    wsStart s2 d

/-- A pair of a die halts: the active one fails, the standby one is out until its self-test. -/
def pairHalt (s : State) (d : Fin 2) (src : Nat) : State :=
  let s1 := reportErr s (wsStop d) src 0
  if activeDie s = d.val then pairFailed s1
  else if standby s = 2 then tput (setStandby s1 1) (.waystation d) Thread.initial else s1

/-- LOCKSTEP_HALT (R606). The cores of a pair differ. -/
def execLockstepHalt (d : Fin 2) (s : State) : Host.Outcome State Fault Refusal :=
  if bootStep s < 3 then .next s else .next (pairHalt s d 0x9003)

/-- WATCHDOG_EXPIRE (R608). A stop's watchdog has counted down to zero. -/
def execWatchdogExpire (d : Fin 2) (s : State) : Host.Outcome State Fault Refusal :=
  if bootStep s < 3 then .next s else .next (pairHalt (rputF s (wsStop d) 3 WS_WDOG_LEFT 0 16 0) d 0x9004)

/-- WS_WDOG_KICK (R608, R629). The active pair restarts its stop's count. -/
def execWsWdogKick (s : State) : Host.Outcome State Fault Refusal :=
  let w := activeStop s
  .next (rputF s w 3 WS_WDOG_LEFT 0 16 (rfld s w 3 WS_WDOG_CTL 0 16))

/-- STANDBY_SELFTEST_DONE (R609, step 5). The failed pair boots the running firmware as standby, or has failed. -/
def execStandbySelftestDone (pass : Bool) (s : State) : Host.Outcome State Fault Refusal :=
  if standby s ≠ 1 then .next s
  else
    let d : Fin 2 := if activeDie s = 0 then 1 else 0
    if pass then .next (wsStart (setStandby s 2) d)
    else .next (addEvent (reportErr (setStandby s 3) (wsStop d) 0x9006 0) 6 (stopLocus (pkgNum s) (wsStop d)) 0x9006 true)

end Sys2Proof.Machine
end

