-- ==== Sys2Proof/Machine/Ports.lean ====
section
/-!
DEFINITION. Ports: inbound and outbound requests, link and error events, the endpoint face's windows (chapter 19).
-/

namespace Sys2Proof.Machine

/-! ## The Manifest table (R598, R599) -/

/-- CRC-32 with polynomial 0x04C1_1DB7, reflected (Table 19-6). -/
def crc32Step (c : Nat) (b : Byte) : Nat :=
  (List.range 8).foldl (fun c _ => if c % 2 = 1 then (c / 2) ^^^ 0xEDB88320 else c / 2) (c ^^^ b.toNat)
def crc32 (l : List Byte) : Nat := (l.foldl crc32Step 0xFFFFFFFF) ^^^ 0xFFFFFFFF

/-- An entry: TYPE, LEN, value, padding to a multiple of 4. -/
def romEntry (ty : Nat) (v : List Byte) : List Byte :=
  natLe 2 ty ++ natLe 2 v.length ++ v ++ List.replicate ((4 - v.length % 4) % 4) 0

/-- BAR2_LOG2, clamped (R594). -/
def epLog (s : State) : Nat := max 28 (min 36 (rfld s (portStop 0) 6 EP_CTL 0 6))

/-- EP_WIN, its bits below the BAR2 size ignored (Table 19-12; log entry 106). -/
def epWin (s : State) : Nat :=
  (rfld s (portStop 0) 6 EP_WIN_LO 28 4 * 2 ^ 28 + rfld s (portStop 0) 6 EP_WIN_HI 0 20 * 2 ^ 32) / 2 ^ epLog s * 2 ^ epLog s

/-- A doorbell of the face: enabled, and the tile and slot it names (R596). -/
def epDoor (s : State) (q : Nat) : Option (Stop × Nat) :=
  let v := rget s (portStop 0) 6 (EP_DB + 4 * q)
  if getB v 23 then
    match stopOfLocus (pkgNum s) (getF v 0 16) with
    | some st => if stopKind st = .tile then some (st, getF v 16 7) else none
    | none => none
  else none

/-- The certificate entry: the chain follows the fields of Table 19-7 in the entry, at its ROM offset (log entry 15). -/
def romCert (s : State) (off : Nat) : List Byte :=
  romEntry 6 (natLe 4 (off + 68) ++ natLe 4 s.ws.flash.chain.length ++ natLe 8 0 ++ (chainHash s).take 48 ++ s.ws.flash.chain)

/-- The table as the Waystation builds it before it sets EN of block 6. -/
def romBuild (s : State) : List Byte :=
  let ver := match wsImage s with | some i => i.version | none => 0
  let kind := match paTarget s (epWin s) with | .cxl _ => 1 | .depot _ _ => 2 | .remoteDepot _ => 2 | _ => 0
  let doors := (List.range 64).filter fun q => rbit s (portStop 0) 6 (EP_DB + 4 * q) 23
  let es := [romEntry 1 (natLe 2 3 ++ natLe 2 0 ++ natLe 4 ver ++ natLe 1 (rfld s (wsStop 0) 12 FUSE_CFG 8 8))] ++
    ((List.range 4).map fun k => romEntry 2 (natLe 1 (8 + k) ++ natLe 3 0 ++ natLe 4 (0x1000 * k) ++ natLe 2 256 ++ natLe 2 256)) ++
    (doors.map fun q =>
      let msz := match epDoor s q with | some (st, k) => wbqFld s st k WBQ_CFG 0 2 | none => 0
      romEntry 3 (natLe 1 q ++ natLe 1 msz ++ natLe 2 0 ++ natLe 4 (0x20000 + 0x40 * q))) ++
    [romEntry 4 (natLe 1 2 ++ natLe 1 (epLog s) ++ natLe 1 kind ++ natLe 5 0 ++ natLe 8 (epWin s)),
     romEntry 5 (natLe 8 (capWord s))]
  let head := es.flatten
  let body := head ++ romCert s (16 + head.length) ++ romEntry 7 (natLe 8 (rget64 s (wsStop 0) 12 ID_DIE_LO) ++ natLe 1 (pkgNum s)) ++
    romEntry 0xFFFF []
  let n := es.length + 3
  let pre := ([0x4F, 0x4D, 0x4D, 0x46] : List Byte) ++ natLe 2 1 ++ natLe 2 n ++ natLe 4 (16 + body.length)
  pre ++ natLe 4 (crc32 (pre ++ natLe 4 0 ++ body)) ++ body

/-! ## Mailbox registers as a host or an initiator sees them (Table 20-3) -/

/-- A read of a mailbox register. -/
def mbRead (s : State) (m off : Nat) : Reg32 :=
  if off < 0x100 then mb s m off
  else if off < 0x200 then (if mbState s m = 1 then 0 else mb s m off)
  else if off = MB_STATUS then mbStatus s m
  else if off = MB_CTL ∨ off = MB_CNT then mb s m off
  else 0

/-- A write of a mailbox register. -/
def mbWrite (s : State) (m off : Nat) (v : Reg32) : State :=
  if off < 0x100 then mbReqWrite s m off v
  else if off = MB_DOORBELL then mbDoorbell s m v.toNat
  else if off = MB_STATUS then (if getB v 2 then mbPut s m MB_STATUS (setB (mb s m MB_STATUS) 2 false) else s)
  else if off = MB_CTL then mbCtlWrite s m v
  else s

/-! ## The windows of the endpoint face (R593 to R598) -/

/-- What an address of the host reaches. -/
inductive FaceWin where
  | bar0 (off : Nat)
  | bar2 (off : Nat)
  | rom (off : Nat)
  | none
deriving DecidableEq, Repr

/-- The BAR an address falls in, with Memory Space on and the function in D0. -/
def faceWin (s : State) (a : Nat) : FaceWin :=
  let b0 := (epGet s 4).toNat / 2 ^ 18 * 2 ^ 18 + (epGet s 5).toNat * 2 ^ 32
  let k := epLog s
  let b2 := ((epGet s 6).toNat + (epGet s 7).toNat * 2 ^ 32) / 2 ^ k * 2 ^ k
  let r := (epGet s 12).toNat / 2 ^ 16 * 2 ^ 16
  if !rbit s (portStop 0) 6 EP_STAT 2 || decide (rfld s (portStop 0) 6 EP_STAT 5 2 = 3) then .none
  else if b0 ≤ a ∧ a < b0 + 2 ^ 18 then .bar0 (a - b0)
  else if b2 ≤ a ∧ a < b2 + 2 ^ k then .bar2 (a - b2)
  else if rbit s (portStop 0) 6 EP_CTL 6 && (epGet s 12).getLsbD 0 && decide (r ≤ a ∧ a < r + 2 ^ 16) then .rom (a - r)
  else .none

/-- Whether the face accepts host requests: EN of block 6, the link up, no FLR in progress. -/
def faceOpen (s : State) : Bool := rbit s (portStop 0) 6 BLOCK_CTL 0 && rbit s (portStop 0) 6 EP_STAT 0 && !s.io.flr

/-- A host write to doorbell `q` (R596). -/
def epPost (s : State) (q off : Nat) (d : List Byte) (ep : Bool) : State :=
  match epDoor s q with
  | none => rsat s (portStop 0) 6 EP_DROP 0 32 1
  | some (st, k) => wqPost (ioCount s 0 10 1) st k d (decide (off ≠ 0) || slotSecure s st k) ep false (srcClassC 0x400)

/-- A host read at the face. -/
def faceRead (s : State) (a len : Nat) : State × InRes :=
  match faceWin s a with
  | .bar0 o =>
    if len ≠ 4 ∨ o % 4 ≠ 0 then (inRefuse s 0 true true, .done)
    else (inboundCpl s 0 0 (natLe 4 (if o < 0x4000 then (mbRead s (8 + o / 0x1000) (o % 0x1000)).toNat else 0)) false, .done)
  | .bar2 o => inRead s 0 .normal 0 false (epWin s + o) len
  | .rom o => (inboundCpl s 0 0 ((List.range len).map fun i => s.io.rom.getD (o + i) 0) false, .done)
  | .none => (inRefuse s 0 true false, .done)

/-- A host write at the face. -/
def faceWrite (s : State) (a : Nat) (d : List Byte) (ep : Bool) : State × InRes :=
  match faceWin s a with
  | .bar0 o =>
    if 0x20000 ≤ o ∧ o < 0x21000 then (epPost s ((o - 0x20000) / 0x40) (o % 0x40) d ep, .done)
    else if d.length ≠ 4 ∨ o % 4 ≠ 0 then (rsetB s (portStop 0) 6 EP_STAT 10 true, .done)
    else if o < 0x4000 then (mbWrite s (8 + o / 0x1000) (o % 0x1000) (BitVec.ofNat 32 (leNat d)), .done)
    else (s, .done)
  | .bar2 o => inWrite s 0 .normal 0 false (epWin s + o) d ep
  | .rom _ => (s, .done)
  | .none => (inRefuse s 0 false false, .done)

/-- A host AtomicOp at the face. -/
def faceAtomic (s : State) (a len op : Nat) (d : List Byte) : State × InRes :=
  match faceWin s a with
  | .bar2 o => inAtomic s 0 .normal 0 (epWin s + o) len op d
  | .bar0 _ => (inRefuse s 0 true true, .done)
  | _ => (inRefuse s 0 true false, .done)

/-- The face with another header: its doublewords, MSE and BME, and power state. -/
def epWith (s : State) (ep : SMap Reg32) (en d : Nat) : State :=
  rputF (rputF { s with io := { s.io with ep := ep } } (portStop 0) 6 EP_STAT 1 2 en) (portStop 0) 6 EP_STAT 5 2 d

/-- A request at the face carried out under the header it was received under, where a reset has replaced that (R603). -/
def asReceived (r : InReq) (run : State → State × InRes) (s : State) : State × InRes :=
  match r.hdr with
  | none => run s
  | some ep =>
    let c := mapGet (fun _ => 0) ep 1
    let x := run (epWith s ep (b2n (getB c 2) + 2 * b2n (getB c 1)) 0)
    (epWith x.1 s.io.ep (rfld s (portStop 0) 6 EP_STAT 1 2) (rfld s (portStop 0) 6 EP_STAT 5 2), x.2)

/-- Whether a host write at the face signals software, and the other package that a request names. -/
def faceSignal (s : State) (a : Nat) : Bool :=
  match faceWin s a with
  | .bar0 o => decide (0x20000 ≤ o ∧ o < 0x21000)
  | .bar2 o => signalAt s 0 .normal (epWin s + o)
  | _ => false
def faceDepot (s : State) (a : Nat) : Option Nat :=
  match faceWin s a with
  | .bar2 o => depotAt s 0 .normal (epWin s + o)
  | _ => none

/-! ## Inbound requests (R588 to R591) -/

/-- Out of Run, inbound activity is a wake event and the request waits (R523); a Tripped package answers nothing. -/
def inboundHeld (s : State) (n : Fin 12) : Option State :=
  if pkgState s = 0 then none else if pkgState s = 7 then some s else some (pkgWake s 3 n.val)

/-- An inbound request of a port, in the order R591 keeps: the face's windows, or the address that the translation unit gives; `face` and
`run` carry it out, `bad` answers a request that faults. One that was received before its link went down is performed (R603). -/
def inbound (s : State) (n : Fin 12) (r : InReq) (kind : AKind) (face : State → State × InRes)
    (run : State → Bool → Nat → State × InRes) (bad : State → Bool → State) : Host.Outcome State Fault Refusal :=
  match inboundHeld s n with
  | some s1 => .next s1
  | none =>
    if portProto s n.val = 3 then
      let e := (inWaiting s r).getD r
      let u := match e.hdr with | none => s | some ep => epWith s ep 2 0
      (if faceOpen s || (inWaiting s r).isSome then
        .next (inOrder s e (faceDepot u r.addr) (decide (r.op = 0) && faceSignal u r.addr) (asReceived e face))
      else .next s)
    else if portProto s n.val = 2 ∨ (linkUp s n = false ∧ inWaiting s r = none) ∨ r.len = 0 ∨ 4096 < r.addr % 4096 + r.len then .next s
    else
      match ioTranslate s n r.rid kind r.addr with
      | (s1, .ok pa nt) =>
        let w := portWorld s1 n
        .next (inOrder s1 r (depotAt s1 n w pa) (decide (r.op = 0) && signalAt s1 n w pa) fun s => run s nt pa)
      | (s1, .fault ca) => .next (inDrop (bad s1 ca) r)
      | (s1, .wait) => .next (inKeep s1 r)

/-- INBOUND_MEMORY_READ (R588, R589). -/
def execInboundMemoryRead (port : Fin 12) (src : TlpSrc) (addr : Word) (len : BitVec 13) (s : State) :
    Host.Outcome State Fault Refusal :=
  let k := streamOf s port src.rid.toNat src.tc.val
  inbound s port ⟨port.val, 1, 0, src.rid.toNat, addr.toNat, len.toNat, [], false, k, none, none⟩ .read (fun s => faceRead s addr.toNat len.toNat)
    (fun s nt pa => inRead s port (portWorld s port) k nt pa len.toNat) (fun s ca => inRefuse s port true ca)

/-- A write received by a port. -/
def writeReq (s : State) (port : Fin 12) (src : TlpSrc) (ro : Bool) (addr : Word) (data : List Byte) : InReq :=
  ⟨port.val, 0, 0, src.rid.toNat, addr.toNat, data.length, data, ro, streamOf s port src.rid.toNat src.tc.val, none, none⟩

/-- INBOUND_MEMORY_WRITE (R588, R589). `ro` is its Relaxed Ordering attribute (R228). -/
def execInboundMemoryWrite (port : Fin 12) (src : TlpSrc) (ro : Bool) (addr : Word) (data : List Byte) (ep : Bool) (s : State) :
    Host.Outcome State Fault Refusal :=
  let r := writeReq s port src ro addr data
  inbound s port r .write (fun s => faceWrite s addr.toNat data ep)
    (fun s nt pa => inWrite s port (portWorld s port) r.stream nt pa data ep) (fun s _ => inRefuse s port false false)

/-- The atomic operation of an AtomicOp: FetchAdd, Swap, CAS. -/
def atomicOf (op : Fin 3) : Nat := match op with | 0 => 1 | 1 => 0 | 2 => 9

/-- INBOUND_ATOMICOP (R588): on 4 or 8 bytes; any other size completes as UR (R580). -/
def execInboundAtomicop (port : Fin 12) (src : TlpSrc) (addr : Word) (len : Fin 17) (op : Fin 3) (data : List Byte)
    (s : State) : Host.Outcome State Fault Refusal :=
  let k := streamOf s port src.rid.toNat src.tc.val
  inbound s port ⟨port.val, 2, atomicOf op, src.rid.toNat, addr.toNat, len.val, data, false, k, none, none⟩ .rw
    (fun s => faceAtomic s addr.toNat len.val (atomicOf op) data)
    (fun s _ pa => inAtomic s port (portWorld s port) k pa len.val (atomicOf op) data) (fun s ca => inRefuse s port true ca)

/-- DOORBELL_POST (R354). An inbound write of a port that its translation takes to a waybill doorbell. -/
def execDoorbellPost (port : Fin 12) (rid : BitVec 16) (tc : Fin 8) (addr : Word) (data : List Byte) (ep : Bool) (s : State) :
    Host.Outcome State Fault Refusal :=
  if portProto s port.val = 3 then .next s
  else
    let r := writeReq s port ⟨rid, tc⟩ false addr data
    inbound s port r .write (fun s => (s, .done))
      (fun s nt pa => match inTarget s port (portWorld s port) pa with
        | .doorbell _ _ _ => inWrite s port (portWorld s port) r.stream nt pa data ep
        | _ => (s, .done))
      (fun s _ => inRefuse s port false false)

/-- EP_DOORBELL (R596). A host write to doorbell `q` of the face, after every earlier write of the host (R229). -/
def execEpDoorbell (q : Fin 64) (data : List Byte) (ep : Bool) (s : State) : Host.Outcome State Fault Refusal :=
  match inboundHeld s 0 with
  | some s1 => .next s1
  | none =>
    let r : InReq := ⟨0, 0, 0, 0, 0x20000 + 0x40 * q.val, data.length, data, false, 0, none, none⟩
    let e := (inWaiting s r).getD r
    if portProto s 0 = 3 ∧ (faceOpen s || (inWaiting s r).isSome) = true then
      .next (inOrder s e none true fun s => (epPost s q.val 0 data ep, .done))
    else .next s

/-- TRANSLATION_REQUEST (R270). It completes as an Unsupported Request; a requester that is blocked is recorded as one. -/
def execTranslationRequest (port : Fin 12) (rid : BitVec 16) (addr : Word) (s : State) : Host.Outcome State Fault Refusal :=
  if portProto s port.val = 2 ∨ linkUp s port = false then .next s
  else if portProto s port.val = 3 then .next (inRefuse s port true false)
  else
    match ctxLookup s port rid.toNat with
    | (s1, .ok dw) =>
      let bad := fun code => ioFault s1 port code 0 0 false rid.toNat addr.toNat
      let s2 :=
        if !rbit s1 (portStop port) 3 BLOCK_CTL 0 || (ctxValid s1 port dw && decide (ctxMode dw = 0)) then bad 0x14
        else if !ctxValid s1 port dw then bad 0x13 else s1
      .next (inRefuse s2 port true false)
    | (s1, .wait) => .next s1
    | (s1, .bad _) => .next (inRefuse s1 port true false)

/-! ## Outbound requests (R586, R587) -/

/-- The physical address of an offset of a port's region (R582). -/
def portAddr (s : State) (n : Fin 12) (off : Nat) : Nat := 0xF000000000000 + (12 * pkgNum s + n.val) * 2 ^ 41 + off

/-- An outstanding request of a port completes. -/
def outDone (s : State) (n : Fin 12) (tag : Nat) (c : Cpl) : State :=
  match s.io.reqs.find? fun r => decide (r.port = n.val ∧ r.tag = tag) with
  | none => s
  | some r =>
    let s1 := { s with io := { s.io with reqs := s.io.reqs.filter fun x => !decide (x.port = n.val ∧ x.tag = tag) } }
    answer s1 r.who (cplRes r.kind (portAddr s n r.addr) r.n c)

/-- OUTBOUND_COMPLETION (R586). The completion of an outstanding request arrives, with all its data. -/
def execOutboundCompletion (port : Fin 12) (tag : Nat) (cpl : PortCpl) (s : State) : Host.Outcome State Fault Refusal :=
  match s.io.reqs.find? fun r => decide (r.port = port.val ∧ r.tag = tag) with
  | none => .next s
  | some r =>
    match cpl with
    | .ok d ep => if r.kind ≠ 3 ∧ d.length < r.n then .next s else .next (outDone s port tag (.ok d ep))
    | .ur => .next (outDone s port tag .ur)
    | .ca => .next (outDone s port tag .ca)
    | .crs => if r.kind < 2 then .next s else .next (outDone s port tag .crs)

/-- COMPLETION_TIMEOUT (R586). 50 µs have passed without a completion. -/
def execCompletionTimeout (port : Fin 12) (tag : Nat) (s : State) : Host.Outcome State Fault Refusal :=
  .next (outDone s port tag .timeout)

/-! ## Events (R592) -/

/-- An event of a port sets the shared source that PORT_EVT_SRC names. -/
def portEvent (s : State) (n : Fin 12) : State :=
  if rbit s (portStop n) 1 PORT_EVT_SRC 8 then shSet s (portWorld s n) false n.val (rfld s (portStop n) 1 PORT_EVT_SRC 0 8) else s

/-- A root port's link goes down, its last `lost` posted writes not sent (R586, R587). -/
def portLinkDown (s : State) (n : Fin 12) (lost : Nat) : State :=
  portEvent (endRequests (postedDown (rputF s (portStop n) 1 PORT_STAT 0 9 0) n lost) n.val .down) n

/-- PCIE_LINK_DOWN (R587, R602). A port's link goes down; `lost` of the posted writes it accepted have not been sent. -/
def execPcieLinkDown (port : Fin 12) (lost : Nat) (s : State) : Host.Outcome State Fault Refusal :=
  if portProto s port.val = 2 ∨ linkUp s port = false then .next s
  else if portProto s port.val = 3 then .next (rsetB (epLinkDown s lost) (portStop 0) 6 EP_STAT 8 true)
  else .next (portLinkDown s port lost)

/-- SECONDARY_BUS_RESET (R592). Software recovers the link through the root port: it goes down and trains again. -/
def execSecondaryBusReset (port : Fin 12) (lost : Nat) (s : State) : Host.Outcome State Fault Refusal :=
  if 2 ≤ portProto s port.val ∨ linkUp s port = false then .next s else .next (portLinkDown s port lost)

/-- PORT_LINK_UP (R594, R600). A link becomes active at a rate and width: the face's only with EN of block 6 set and PERST_N high, a root
port's with EN of block 1; `mem` says whether CXL.mem comes up (R581). -/
def execPortLinkUp (port : Fin 12) (rate : Fin 8) (width : Fin 32) (mem : Bool) (s : State) : Host.Outcome State Fault Refusal :=
  let st := portStop port
  if portProto s port.val = 2 ∨ linkUp s port = true ∨ domState s st 0 ≠ dON then .next s
  else if portProto s port.val = 3 then
    (if rbit s st 6 BLOCK_CTL 0 && !s.io.perst then .next (epIntx (rsetB s st 6 EP_STAT 0 true)) else .next s)
  else if !rbit s st 1 BLOCK_CTL 0 then .next s
  else
    let s1 := rputF s st 1 PORT_STAT 0 9 (1 + 2 * min rate.val (rfld s st 1 PORT_CTL 0 3) + 16 * width.val)
    let s2 := if portProto s port.val = 1 ∧ mem = true then rsetB s1 st 5 CXL_STAT 0 true else s1
    .next (portEvent s2 port)

/-- A received or detected error (R592): SYND holds the AER status bit and the requester. -/
def portError (s : State) (n : Fin 12) (src aer rid : Nat) : State :=
  if 2 ≤ portProto s n.val then s
  else portEvent (reportErr s (portStop n) src tyPROTOCOL none (aer % 32 + rid * 65536)) n

/-- ERR_COR (R592). -/
def execErrCor (port : Fin 12) (aer : Fin 32) (rid : BitVec 16) (s : State) : Host.Outcome State Fault Refusal :=
  .next (portError s port 0x6001 aer.val rid.toNat)

/-- ERR_NONFATAL (R592). -/
def execErrNonfatal (port : Fin 12) (aer : Fin 32) (rid : BitVec 16) (s : State) : Host.Outcome State Fault Refusal :=
  .next (portError s port 0x6002 aer.val rid.toNat)

/-- ERR_FATAL (R592). -/
def execErrFatal (port : Fin 12) (aer : Fin 32) (rid : BitVec 16) (s : State) : Host.Outcome State Fault Refusal :=
  .next (portError s port 0x6002 aer.val rid.toNat)

/-- PME (R592). -/
def execPme (port : Fin 12) (s : State) : Host.Outcome State Fault Refusal :=
  if 2 ≤ portProto s port.val then .next s else .next (portEvent s port)

/-! ## The host's configuration writes (R593, R600) -/

/-- The bits of a doubleword of the face's type-0 header that can be written: Command, the BARs above their size, the ROM BAR. -/
def epMask (s : State) (dw : Nat) : Nat :=
  match dw with
  | 1 => 0x0546
  | 3 => 0xFF
  | 4 => 0xFFFC0000
  | 5 => 0xFFFFFFFF
  | 6 => if epLog s < 32 then 2 ^ 32 - 2 ^ epLog s else 0
  | 7 => if epLog s < 32 then 0xFFFFFFFF else 2 ^ 32 - 2 ^ (epLog s - 32)
  | 12 => if rbit s (portStop 0) 6 EP_CTL 6 then 0xFFFF0001 else 0
  | 15 => 0xFF
  | _ => 0

/-- CONFIGURATION_WRITE (R600). A host write changes the face's header or its power state, and with them the virtual wire. -/
def execConfigurationWrite (w : EpWrite) (s : State) : Host.Outcome State Fault Refusal :=
  if portProto s 0 ≠ 3 ∨ faceOpen s = false then .next s
  else
    match w with
    | .other => .next s
    | .power d3 => .next (epIntx (rputF s (portStop 0) 6 EP_STAT 5 2 (if d3 then 3 else 0)))
    | .header dw be v =>
      let lanes := ((List.range 4).map fun i => if be.getLsbD i then 0xFF * 2 ^ (8 * i) else 0).sum
      let m := BitVec.ofNat 32 (epMask s dw.val) &&& BitVec.ofNat 32 lanes
      let s1 := epPut s dw.val ((epGet s dw.val &&& ~~~m) ||| (v &&& m))
      let c := epGet s1 1
      .next (epIntx (rputF s1 (portStop 0) 6 EP_STAT 1 2 (b2n (getB c 2) + 2 * b2n (getB c 1))))

/-- PERST_N_DEASSERT (R602). PERST_N rises and the face's link is released to train. -/
def execPerstNDeassert (s : State) : Host.Outcome State Fault Refusal :=
  .next { s with io := { s.io with perst := false } }

end Sys2Proof.Machine
end

