-- ==== Sys2Proof/Machine/RegRead.lean ====
section
/-!
DEFINITION. What registers read: where an offset is kept, the block header, and the values that hardware computes (chapter 2 and the
register tables of each chapter).
-/

namespace Sys2Proof.Machine

/-! ## Places -/

/-- The block that keeps the registers of a block number: block 5 of an I/O stop has one set for each mode (Table 2-3). -/
def regBlk (s : State) (st : Stop) (blk : Nat) : Nat :=
  if stopKind st = .io ∧ blk = 5 ∧ portProto s (portOf st) = 2 then cvBlk else blk

/-- The stop that keeps a register: those of die 1's Waystation stop that return die 0's values are kept there (R57, R123, R533, R557,
R558, R575, R629). -/
def regHome (st : Stop) (blk off : Nat) : Stop :=
  let mirror := match blk with
    | 3 => decide (off = WS_STAT) || decide (BOOT_STAT ≤ off ∧ off ≤ RAIL_STAT)
    | 4 => decide (off ≤ PKG_PWR_LIMIT) || decide (WAKE_LAST_SRC ≤ off ∧ off ≤ WAKE_LATCH)
    | 7 => decide (PM_GCTL ≤ off ∧ off < 0x8000)
    | 11 | 13 => true
    | 12 => decide (DBG_EFF ≤ off ∧ off < ID_KEY_DIG)
    | _ => false
  if stopKind st = .waystation ∧ mirror = true then wsStop 0 else st

/-- Whether a register of die 1's Waystation stop is a mirror that ignores writes (R57, R123, R575). -/
def regMirror (st : Stop) (blk off : Nat) : Bool :=
  decide (st = wsStop 1) && (decide (blk = 11) || decide (blk = 13) || (decide (blk = 7) && decide (PM_GCTL ≤ off ∧ off < 0x8000)))

/-- The register at an offset of a block, with its index in a repeated group; none at a reserved offset. -/
def regFind (s : State) (st : Stop) (blk off : Nat) : Option (RegDef × Nat) :=
  if stopKind st = .io ∧ blk = 5 ∧ portProto s (portOf st) ≠ 1 then none
  else if stopKind st = .waystation ∧ blk = 1 ∧ 0x8000 ≤ off then none
  else if blk = 9 ∧ domExists st (off / 0x10) = false then none
  else
    match regAt st blk off with
    | some (r, k) =>
      match shTableOf st with
      | some t => if blk ≠ 9 ∧ SH_TGT ≤ off ∧ (blk = 2 ∨ (blk = 4 ∧ t < 12)) ∧ shSize t ≤ k then none else some (r, k)
      | none => some (r, k)
    | none => none

/-- The tile core or pair that a core block of a tile controls. -/
def blkCore (blk : Nat) : Fin 2 := if blk = 1 ∨ blk = 3 then 0 else 1

/-! ## The block header (R58) -/

/-- Whether a block has an EN bit (Table 2-5). -/
def hasEn (st : Stop) (blk : Nat) : Bool :=
  match stopKind st with
  | .tile => decide (1 ≤ blk ∧ blk ≤ 5)
  | .memory => decide (blk = 1 ∨ blk = 2)
  | .io => decide (blk = 1 ∨ blk = 3 ∨ blk = cvBlk ∨ blk = 6)
  | .cluster => decide (blk = 1)
  | _ => false

/-- Whether a block has staged fields (Table 2-5). -/
def hasStaging (st : Stop) (blk : Nat) : Bool :=
  (decide (stopKind st = .cluster) && decide (blk = 2)) || (decide (stopKind st = .waystation) && decide (blk = 13))

/-- BLOCK_ID (Table 2-5). -/
def blockId (st : Stop) (blk : Nat) : Nat :=
  16 * (stopKind st).code + (if blk = cvBlk then 5 else blk) + 0x100 + b2n (hasEn st blk) * 2 ^ 16 + b2n (hasStaging st blk) * 2 ^ 17

/-- BLOCK_STAT.ACTIVE (Table 2-7, R208, R301, R312). -/
def regActive (s : State) (st : Stop) (blk : Nat) : Bool :=
  hasEn st blk &&
  match stopKind st with
  | .tile =>
    if blk = 5 then decide (domState s st 2 ≠ dOFF) && tileActive s st 5
    else if blk = 3 ∧ tileLocked s st = true then tileActive s st 3 || tileActive s st 4
    else tileActive s st blk
  | .cluster =>
    rbit s st 1 BLOCK_CTL 0 || (List.finRange 8).any fun i => decide ((tget s (.outrider (orOf st.die i))).run ≠ .stopped)
  | _ => rbit s st blk BLOCK_CTL 0

/-- A word of the block header. -/
def headerRead (s : State) (st : Stop) (blk off : Nat) : Reg32 :=
  if off = BLOCK_ID then BitVec.ofNat 32 (blockId st blk)
  else if off = BLOCK_CTL then BitVec.ofNat 32 (if hasEn st blk then b2n (rbit s st blk BLOCK_CTL 0) else 1)
  else if off = BLOCK_STAT then setB (rget s st blk BLOCK_STAT) 2 (regActive s st blk)
  else 0

/-! ## Computed values -/

/-- STOP_ID (Table 1-8); no function is fuse-disabled. -/
def stopIdWord (s : State) (st : Stop) : Nat :=
  stopLocus (pkgNum s) st + (stopKind st).code * 2 ^ 16 + (if st.y = 5 then 3 else st.x.val / 4) * 2 ^ 19 + st.y.val * 2 ^ 21 + 2 ^ 24

/-- A free value of 32 bits, for a count the model does not keep (log entry 4). -/
def freeReg (s : State) : State × Reg32 := (useFree s, (freeVal s).setWidth 32)

/-- Block 0. -/
def readAgent (s : State) (st : Stop) (off : Nat) : Option (State × Reg32) :=
  if off = STOP_ID then some (s, BitVec.ofNat 32 (stopIdWord s st))
  else if off = PKG_TOPO then some (s, BitVec.ofNat 32 (pkgTopo s))
  else if off = PKG_MEMMAP then some (s, BitVec.ofNat 32 (pkgMemmap s))
  else if off = LOCK_STAT ∧ stopKind st = .tile then some (s, lockStat s st)
  else none

/-- Core blocks (Tables 5-18 to 5-20, R210). -/
def readCore (s : State) (st : Stop) (blk off : Nat) : Option (State × Reg32) :=
  let c := blkCore blk
  let h := fun t => tget s (dbgHart st c t)
  let m := tileMode s st
  if off = CORE_STAT then
    some (s, BitVec.ofNat 32 (if m = 3 then 0 else b2n ((h 0).run = .running) + 2 * b2n ((h 1).run = .running) +
      4 * b2n (tileLocked s st) + 8 * b2n (m = 2)))
  else if off = TSTATE ∨ off = TSTATE + 16 then some (s, setF (rget s st blk off) 0 2 (runCode (h ((off - TSTATE) / 16))))
  else if DBG_CTL ≤ off ∧ m = 3 then some (s, 0)
  else if off = DBG_STAT then
    some (s, setF (rget s st blk off) 0 4 (b2n ((h 0).run = .halted) + 2 * b2n ((h 1).run = .halted) +
      4 * b2n (h 0).haltReq + 8 * b2n (h 1).haltReq))
  else none

/-- The L3 slice and the waybill descriptors (Tables 8-11, 10-3, 10-5). -/
def readSlice (s : State) (st : Stop) (off : Nat) : Option (State × Reg32) :=
  let sl := sliceGet s st
  if off = L3_OCC then some (s, BitVec.ofNat 32 (slotOcc s st + min 32 sl.evb.length * 2 ^ 8 + min 16 sl.pack.length * 2 ^ 14))
  else if off = WB_SLICE then some (s, setF (rget s st 5 off) 16 8 (s.wb.enabled.countP fun k => decide (k / 128 = stopIdx st)))
  else if 0x1000 ≤ off ∧ off < 0x3000 ∧ off % 0x40 = WBQ_IRQ then some (s, BitVec.ofNat 32 (wqThresh s st ((off - 0x1000) / 0x40)))
  else none

/-- The thread that owns a page of an interrupt unit. -/
def pageHart (st : Stop) (off : Nat) : Hart :=
  let p := off / 0x1000
  if stopKind st = .tile then .drover st (if p / 2 = 0 then 0 else 1) (if p % 2 = 0 then 0 else 1)
  else .outrider (orOf st.die ⟨p % 8, by omega⟩)

/-- The pending bits of 32 sources of a thread. -/
def pendWord (s : State) (h : Hart) (base : Nat) : Reg32 :=
  BitVec.ofNat 32 ((List.range 32).map fun j => if privPending s h (base + j) then 2 ^ j else 0).sum

/-- PSRC_CFG of a source (Table 15-6, R487). -/
def psrcRead (s : State) (h : Hart) (n : Nat) : Reg32 :=
  let t := tget s h
  let lw := privLevel s h n
  let v := setF (psrcCfg s h n) 9 2 (levelCode lw.1)
  let v := setF v 11 1 (if n = 0 ∧ isOutrider h = false ∧ t.run = .stopped then 0 else worldCode lw.2)
  setF (setF v 12 1 (b2n (privPending s h n))) 13 1 (b2n (decide (n ≤ 3)))

/-- INT_RUNPRI of a world (Table 15-6). -/
def runpriRead (s : State) (h : Hart) (w : World) (v : Reg32) : Reg32 :=
  setF (setF v 0 9 (runPri s h w)) 9 5 (runStack s h w).length

/-- A read of INT_ACK (R499): only the owning thread acknowledges. -/
def ackRead (s : State) (i : Init) (h : Hart) (w : World) : State × Reg32 := if i.hart = some h then intAck s h w else (s, 0x2000)

/-- A page of an interrupt unit (Table 15-5, R505). -/
def readIntPage (s : State) (i : Init) (st : Stop) (blk off : Nat) : Option (State × Reg32) :=
  let h := pageHart st off
  let o := off % 0x1000
  let secret := decide (i.world = .normal)
  if pageInert s h then some (s, 0)
  else if o = INT_PEND_LO then some (s, pendWord s h 0)
  else if o = INT_PEND_HI then some (s, pendWord s h 32)
  else if o = INT_ACK_N then some (ackRead s i h .normal)
  else if o = INT_RUNPRI_N then some (s, runpriRead s h .normal (rget s st blk off))
  else if o = INT_ACK_S then some (if secret then (s, 0) else ackRead s i h .secure)
  else if o = INT_RUNPRI_S then some (s, if secret then 0 else runpriRead s h .secure (rget s st blk off))
  else if o = INT_SHLIST then some (s, BitVec.ofNat 32 (shListOf s h).length)
  else if PSRC_CFG ≤ o ∧ o < PSRC_CFG + 256 then some (s, psrcRead s h ((o - PSRC_CFG) / 4))
  else none

/-- SH_CFG of a source (Table 15-8): TGTERR reads 1 while a pending and enabled source has an invalid target (log entry 17). -/
def shCfgRead (s : State) (k i : Nat) : Reg32 :=
  let lw := shLevel s k i
  let v := setF (setF (shCfg s k i) 9 2 (levelCode lw.1)) 11 1 (worldCode lw.2)
  let v := setF (setF v 12 1 (b2n (shPending s k i))) 13 1 (b2n (shFwd s k i))
  setF v 14 1 (b2n (shPending s k i && getB (shCfg s k i) 8 && (shTarget s k i).isNone))

/-- A shared table (Table 15-7). -/
def readShTable (s : State) (k off : Nat) : Option (State × Reg32) :=
  if SH_PEND ≤ off ∧ off < SH_PEND + 64 then
    let b := 32 * ((off - SH_PEND) / 4)
    some (s, BitVec.ofNat 32 ((List.range 32).map fun j => if shPending s k (b + j) then 2 ^ j else 0).sum)
  else if SH_TGT ≤ off ∧ off % 8 = 4 then some (s, shCfgRead s k ((off - SH_CFG) / 8))
  else none

/-! ## The error block (R462) -/

/-- Whether a source belongs to a stop (Tables 13-1, 13-2, 15-4, 16-11, 20-12). -/
def srcAt (st : Stop) (src : Nat) : Bool :=
  (srcInfo src).isSome &&
  let i := src / 256 % 16
  let k := stopKind st
  match src / 4096 with
  | 0 => true
  | 1 | 2 | 3 => decide (k = .tile)
  | 4 => decide (k = .memory)
  | 5 => decide (k = .memory) && (decide (i = 2 * (st.x.val % 4)) || decide (i = 2 * (st.x.val % 4) + 1) || (decide (i = 8) && decide (st.x.val % 4 = 0)))
  | 6 => decide (k = .io)
  | 7 => decide (k = .ford)
  | 8 => decide (k = .cluster)
  | 9 | 10 => decide (k = .waystation)
  | 11 => if i = 0 then decide (k = .tile) || decide (k = .cluster) else decide (k = .io) || decide (k = .waystation)
  | 12 => if i = 9 then domExists st (src / 16 % 16) && decide (src / 16 % 16 ≠ 15) else decide (k = .waystation)
  | _ => false

/-- ERR_CAP: the number of sources of a stop. -/
def srcCount (st : Stop) : Nat :=
  let ids := (List.range 13).flatMap fun c => (List.range 10).flatMap fun i => (List.range 10).map fun e => c * 4096 + i * 256 + e
  let seqs := (List.range 15).flatMap fun d => [0xC901 + 16 * d, 0xC902 + 16 * d]
  ((ids.filter fun k => !(decide (0xC900 ≤ k) && decide (k < 0xCA00))) ++ seqs).countP (srcAt st)

/-- ERR_SRC_SEL as a world sees it. -/
def errSel (s : State) (w : World) (st : Stop) : Nat :=
  match w with
  | .normal => rfld s st 8 ERR_SRC_SEL 0 16
  | .secure => getF (mapGet (fun _ => 0) s.err.selS (stopIdx st)) 0 16

/-- ERR_SRC_CFG of the selected source as a world sees it (Table 13-10). -/
def errCfgRead (s : State) (w : World) (st : Stop) : Reg32 :=
  let src := errSel s w st
  if !srcAt st src || (decide (w = .normal) && decide (srcWorld s st src = .secure)) then 0
  else
    let v := setF (srcCfg s st src) 0 2 (srcSev s st src)
    setF v 6 1 (worldCode (srcWorld s st src))

/-- The error block: the normal world sees nothing of the secure world's paths and sources (R462). -/
def readErr (s : State) (w : World) (st : Stop) (off : Nat) : Option (State × Reg32) :=
  let n := decide (w = .normal)
  if off = ERR_CAP then some (s, BitVec.ofNat 32 (srcCount st))
  else if off = ERR_CTL then some (s, if n then rget s st 8 off &&& 1 else rget s st 8 off)
  else if off = ERR_STAT then some (s, if n then rget s st 8 off &&& 3 else rget s st 8 off)
  else if off = ERR_TGT_S ∧ n = true then some (s, 0)
  else if off = ERR_SRC_SEL then some (s, BitVec.ofNat 32 (errSel s w st))
  else if off = ERR_SRC_CFG then some (s, errCfgRead s w st)
  else if ERR_CAP_SRC + 0x80 ≤ off ∧ off < INJ_CTL ∧ n = true then some (s, 0)
  else none

/-! ## Performance monitoring (R577) -/

/-- The number of scope events of a stop (Table 18-1). -/
def scopeEvents (st : Stop) : Nat :=
  match stopKind st with
  | .tile => 64 | .memory => 48 | .io => 32 | .cluster => 144 | .ford => 16 | .waystation => 16

/-- Scope events of Table 18-9. -/
def scopeListed (st : Stop) (e : Nat) : Bool :=
  match stopKind st with
  | .tile => decide (e ≤ 0x1C) || decide (e = 0x20) || decide (e = 0x21) || decide (0x28 ≤ e ∧ e ≤ 0x2C)
  | .memory => decide (e % 24 ≤ 15)
  | .cluster => decide (128 ≤ e) || decide (e % 16 ≤ 11)
  | _ => true

/-- Scope events that the model counts; the others read free values (log entry 4). -/
def scopeKept (st : Stop) (e : Nat) : Bool :=
  match stopKind st with
  | .tile => (decide (e ≤ 0x1C) && decide (e ≠ 0x17)) || decide (0x28 ≤ e ∧ e ≤ 0x2B)
  | .memory => decide (e % 24 ≤ 5) || decide (e % 24 = 11) || decide (e % 24 = 12)
  | .io => decide (e ≤ 3) || (decide (6 ≤ e) && decide (e ≤ 10))
  | .cluster => decide (e = 129)
  | _ => false

/-- Half of a counter or of its shadow. -/
def pmHalf (s : State) (kept : Bool) (v : BitVec 48) (high : Bool) : State × Reg32 :=
  let r := if kept then (s, v.setWidth 64) else (useFree s, lowBits (freeVal s) 48)
  (r.1, if high then BitVec.ofNat 32 (r.2.toNat / 2 ^ 32) else r.2.setWidth 32)

/-- A counter or shadow of a thread page or of the scope. -/
def pmCounter (s : State) (key n off : Nat) (listed kept : Nat → Bool) : State × Reg32 :=
  let e := off % 0x500 / 8
  let shadow := decide (0x800 ≤ off)
  let e := if shadow then (off - 0x800) / 8 else e
  if n ≤ e || !listed e then (s, 0)
  else pmHalf s (kept e) (mapGet (fun _ => 0) (if shadow then s.pm.shd else s.pm.cnt) (key + e)) (decide (off % 8 = 4))

/-- Overflow bits of 32 events of a scope. -/
def pmOvf (s : State) (key k n : Nat) : Reg32 :=
  BitVec.ofNat 32 ((List.range 32).map fun j => if 32 * k + j < n ∧ setHas s.pm.ovf (key + 32 * k + j) = true then 2 ^ j else 0).sum

/-- The key of the first counter of a page of block 7 and the number of its events: page 4 is the scope, a tile's pages 0 to 3 its
threads (R561). -/
def pmPage (s : State) (st : Stop) (p : Nat) : Option (Nat × Nat) :=
  if p = 4 then some (scopeCnt st 0, scopeEvents st)
  else if stopKind st = .tile ∧ p < 4 ∧ ¬(tileLocked s st = true ∧ 2 ≤ p) then
    some (thrCnt (.drover st (if p / 2 = 0 then 0 else 1) (if p % 2 = 0 then 0 else 1)) 0, 144)
  else none

/-- The performance monitor block. -/
def readPm (s : State) (w : World) (st : Stop) (off : Nat) : Option (State × Reg32) :=
  let p := off / 0x1000
  let o := off % 0x1000
  if w = .normal ∧ dbgNonInv s .normal = false then some (s, 0)
  else if off = 0x6004 then some (s, BitVec.ofNat 32 (scopeEvents st % 256 + if stopKind st = .tile then 0x400 else 0))
  else if 0x5000 ≤ off then none
  else
    match pmPage s st p with
    | none => some (s, 0)
    | some (key, n) =>
      if 0x500 ≤ o ∧ o < 0x514 then some (s, pmOvf s key ((o - 0x500) / 4) n)
      else if o < 0x500 ∨ (0x800 ≤ o ∧ o < 0xD00) then
        some (if p = 4 then pmCounter s key n o (scopeListed st) (scopeKept st) else pmCounter s key n o pmListed pmKept)
      else some (s, 0)

/-! ## Stops by kind -/

/-- Lane counts (Table 12-6): a selected lane's count in its window and in all. -/
def readPhy (s : State) (st : Stop) (blk off : Nat) : Option (State × Reg32) :=
  if off = PHY_LANE_CNT then
    let v := rget s st blk PHY_LANE_SEL
    let c := laneGet s (pcNum st (blkCore blk) (getF v 7 1)) (getF v 0 7)
    some (s, BitVec.ofNat 32 (min c.1 65535 + min c.2 65535 * 65536))
  else none

/-- The translation unit (Table 7-13) and the endpoint face (Table 19-12). -/
def readIo (s : State) (st : Stop) (blk off : Nat) : Option (State × Reg32) :=
  let n : Fin 12 := ⟨portOf st % 12, by omega⟩
  let u := ioGet s n
  let f := u.flt.head?.getD (0, 0)
  if blk = 3 then
    if portProto s n.val = 3 then some (s, 0)
    else if off = IOTU_STAT then some (s, setF (setB (rget s st 3 off) 0 (!u.flt.isEmpty)) 2 1 (b2n u.inv.isSome))
    else if off = IOTU_FLT_INFO then some (s, BitVec.ofNat 32 f.1)
    else if off = IOTU_FLT_ADDR_LO then some (s, BitVec.ofNat 32 f.2)
    else if off = IOTU_FLT_ADDR_HI then some (s, BitVec.ofNat 32 (f.2 / 2 ^ 32))
    else none
  else if blk = 4 then readShTable s n.val off
  else if blk = 6 ∧ off = EP_STAT then some (s, setB (rget s st 6 off) 3 (epLevel s))
  else none

/-- The Outrider cluster (Tables 11-8, 11-10, 11-12). -/
def readCluster (s : State) (i : Init) (st : Stop) (blk off : Nat) : Option (State × Reg32) :=
  if blk = 1 then
    let n := orOf st.die ⟨off / 0x1000 % 8, by omega⟩
    let o := off % 0x1000
    if o = OR_STAT then some (s, orStat s n)
    else if OR_RUN_LO ≤ o ∧ o ≤ OR_STALL_HI then some (freeReg s)
    else if o = LC_STAT then some (s, setF (setF (rget s st 1 off) 0 1 (b2n (orGet s n).cmd.isSome)) 1 6 (lcLocked (orGet s n)))
    else none
  else if blk = 2 then
    if off = CP_OCC then some (s, BitVec.ofNat 32 (min 72 (cpOcc s st.die)))
    else if CP_STK_OCC ≤ off ∧ off < CP_STK_OCC + 24 then
      let k := (off - CP_STK_OCC) / 4
      some (s, BitVec.ofNat 32 (min 127 (cpCount s st.die k) + 128 * b2n (cpAged s st.die k)))
    else none
  else if blk = 3 ∧ TCM_WIN ≤ off then some (tcmWinRead s st.die off)
  else if blk = 4 then readIntPage s i st blk off
  else none

/-- Whether the mailboxes are served at a Waystation stop (R57). -/
def mbHere (s : State) (st : Stop) : Bool := decide (st.die.val = activeDie s)

/-- A mailbox read through register space (R612). -/
def mbRegRead (s : State) (i : Init) (st : Stop) (off : Nat) : Reg32 :=
  let m := off / 0x800
  let sec := decide (i.world = .secure)
  let may := if m < 4 then guardOk i else if m < 14 then sec else false
  if !mbHere s st || !may then 0 else mbRead s m (off % 0x800)

/-- The Waystation stop. -/
def readWs (s : State) (i : Init) (st : Stop) (blk off : Nat) : Option (State × Reg32) :=
  if blk = 1 then some (s, mbRegRead s i st off)
  else if blk = 2 then readShTable s (12 + st.die.val) off
  else if blk = 3 ∧ off = WS_STAT then some (s, setB (rget s (wsStop 0) 3 off) 3 (mbHere s st))
  else if blk = 5 ∧ off % 0x1000 = BAND_STAT then some (s, setF (rget s st 5 off) 8 5 (bandCores s st.die (off / 0x1000)))
  else if blk = 10 ∧ LEDGER_REC ≤ off then
    some (s, if i.world = .normal ∧ rbit s st 10 (off / 0x20 * 0x20 + 12) 2 = true then 0 else rget s st 10 off)
  else if blk = 13 ∧ off = TB_LO then some (s, BitVec.ofNat 32 (tbNow s))
  else if blk = 13 ∧ off = TB_HI then some (s, BitVec.ofNat 32 (tbNow s / 2 ^ 32))
  else none

/-- A value that hardware computes, where a register holds one. -/
def readComputed (s : State) (i : Init) (st : Stop) (blk off : Nat) : Option (State × Reg32) :=
  if blk = 0 then readAgent s st off
  else if blk = 7 then readPm s i.world st off
  else if blk = 8 then readErr s i.world st off
  else if blk = 9 then none
  else
    match stopKind st with
    | .tile =>
      if blk ≤ 2 then readCore s st blk off
      else if blk = 5 then readSlice s st off
      else if blk = 6 then (if off < 0x4000 then readIntPage s i st blk off else none)
      else none
    | .memory =>
      if blk = 3 ∨ blk = 4 then readPhy s st blk off
      else if blk ≤ 2 ∧ off = MC_OCC then some (s, BitVec.ofNat 32 (mcOcc s st (if blk = 1 then 0 else 1)))
      else none
    | .io => readIo s st blk off
    | .cluster => readCluster s i st blk off
    | .waystation => readWs s i st blk off
    | .ford => if blk = 2 ∧ FORD_FLITS_LO ≤ off then some (freeReg s) else none

/-- A tile block that presents nothing (R210, R303): blocks 2 and 4 of a locked or degraded tile, block 2 of a tile in mode 3. -/
def blkInert (s : State) (st : Stop) (blk : Nat) : Bool :=
  decide (stopKind st = .tile) &&
  ((tileLocked s st && (decide (blk = 2) || decide (blk = 4))) || (decide (tileMode s st = 3) && decide (blk = 2)))

/-- A block that reads zero and ignores writes, its header among its registers (DEDUCED: R58 gives every present block a header, and
these rules say of the whole block that it reads zero; log entry 81): an inert block of a tile, block 1 of the Waystation stop that
does not serve the mailboxes (R57), block 3 of the endpoint face (R605). -/
def blkSilent (s : State) (st : Stop) (blk : Nat) : Bool :=
  blkInert s st blk ||
  match stopKind st with
  | .waystation => decide (blk = 1) && !mbHere s st
  | .io => decide (blk = 3) && decide (portProto s (portOf st) = 3)
  | _ => false

/-- Whether an offset of a block holds a guarded register (R12): one whose row says so, or overflow bits (R577). -/
def regGuarded (s : State) (st : Stop) (blk off : Nat) : Bool :=
  (blk = 7 && decide (off < 0x5000) && decide (0x500 ≤ off % 0x1000) && decide (off % 0x1000 < 0x514)) ||
  ((regFind s st blk off).any fun r => r.1.guarded)

/-- What a read of a register of a block returns (R12, R69, R75, R77). -/
def regRead (s : State) (i : Init) (st : Stop) (blk off : Nat) : State × Reg32 :=
  let home := regHome st blk off
  if blkSilent s st blk then (s, 0)
  else if BLOCK_ID ≤ off then (s, headerRead s home blk off)
  else if 0x8000 ≤ off then
    match regAt st blk (off - 0x8000) with
    | some (r, _) => (s, if r.staged then rget s home blk off else 0)
    | none => (s, 0)
  else if (regFind s st blk off).isNone && !decide (blk = 7) then (s, 0)
  else if regGuarded s st blk off && !guardOk i then (s, 0)
  else (readComputed s i st blk off).getD (s, rget s home blk off)

end Sys2Proof.Machine
end

