-- ==== Sys2Proof/Machine/RegWrite.lean ====
section
/-!
DEFINITION. What a write of a register does at its stop agent: access codes, legal values, latched halves, staging copies, and the
registers that act (chapter 2 and the register tables of each chapter).
-/

namespace Sys2Proof.Machine

/-! ## Fields (Table 0-9, R71, R72, R74) -/

/-- The value that takes effect (R74). -/
def legalVal (l : Legal) (x : Nat) : Nat :=
  match l with
  | .any => x
  | .range lo hi => max lo (min hi x)
  | .fallback lo hi c => if lo ≤ x ∧ x ≤ hi then x else c

/-- A register's value after a write, and whether a field was refused as RWE or as RWL. -/
structure WRes where
  val : Reg32
  cfg : Bool
  lck : Bool
deriving DecidableEq, Repr

/-- One field of a write: `busy` while RWE fields are closed, `lock` while RWL fields are. -/
def putFld (v : Reg32) (busy lock : Bool) (a : WRes) (f : Fld) : WRes :=
  let x := getF v f.lo f.w
  let new := setF a.val f.lo f.w (legalVal f.legal x)
  match f.acc with
  | .ro | .wo => a
  | .rw => { a with val := new }
  | .w1c => { a with val := setF a.val f.lo f.w (getF (a.val &&& ~~~v) f.lo f.w) }
  | .rwe => if busy then { a with cfg := true } else { a with val := new }
  | .rwl => if lock then { a with lck := true } else { a with val := new }

/-- A register's value after a write of every field. -/
def putFlds (old v : Reg32) (busy lock : Bool) (l : List Fld) : WRes := l.foldl (putFld v busy lock) ⟨old, false, false⟩

/-- The state with what a write refuses shown in BLOCK_STAT (R71, R72). -/
def showErr (s : State) (st : Stop) (blk : Nat) (w : WRes) : State :=
  let s1 := if w.cfg then blkStat s st blk 0 true else s
  if w.lck then blkStat s1 st blk 1 true else s1

/-- Whether RWE fields of a block are closed (R71). -/
def rweBusy (s : State) (st : Stop) (blk : Nat) : Bool := rbit s st blk BLOCK_CTL 0 || regActive s st blk

/-- Whether an offset is the low half of a writable 64-bit value that is not staged (R76). -/
def pairLow (st : Stop) (blk off : Nat) : Bool :=
  match stopKind st, blk with
  | _, 8 => decide (off = INJ_ADDR_LO ∨ off = INJ_TIME_LO)
  | .tile, 1 => decide (off = TSTART_LO ∨ off = TSTART_LO + 16 ∨ off = DBG_RDATA_LO)
  | .tile, 2 => decide (off = TSTART_LO ∨ off = TSTART_LO + 16 ∨ off = DBG_RDATA_LO)
  | .tile, 5 => decide (0x1000 ≤ off ∧ off < 0x3000 ∧ off % 0x40 = WBQ_BASE_LO)
  | .io, 3 => decide (off = IOTU_CTX_LO)
  | .io, 6 => decide (off = EP_WIN_LO)
  | .cluster, 1 =>
    let o := off % 0x1000
    decide (o = OR_START_LO ∨ o = LC_ADDR_LO) || decide (REG_BASE_LO ≤ o ∧ o < 0x180 ∧ o % 16 = 0)
  | .waystation, 7 => decide (off = PM_AT_LO)
  | .waystation, 11 => decide (SR_BASE_LO ≤ off ∧ off < 0x200 ∧ off % 16 = 0)
  | _, _ => false

/-- The latched low half of a value (R76). -/
def latchOf (s : State) (st : Stop) (blk off : Nat) : Option Reg32 := mapGet (fun _ => none) s.reg.latch (rkey st blk off)

/-- The state with that half replaced. -/
def setLatch (s : State) (st : Stop) (blk off : Nat) (v : Option Reg32) : State :=
  { s with reg := { s.reg with latch := mapSet (fun _ => none) s.reg.latch (rkey st blk off) v } }

/-- A write of a register with no behaviour of its own: its fields by their access codes, a low half latched until its high half comes
(R76). -/
def plainWrite (s : State) (st : Stop) (blk off : Nat) (r : RegDef) (v : Reg32) : State :=
  let busy := rweBusy s st blk
  let lock := worldLock s
  let w := putFlds (rget s st blk off) v busy lock r.flds
  if pairLow st blk off then
    (if w.cfg || w.lck then showErr s st blk w else setLatch s st blk off (some v))
  else
    let s1 := showErr (rput s st blk off w.val) st blk w
    if 4 ≤ off && pairLow st blk (off - 4) then
      match latchOf s1 st blk (off - 4), regAt st blk (off - 4) with
      | some lo, some (rl, _) =>
        let wl := putFlds (rget s1 st blk (off - 4)) lo busy lock rl.flds
        setLatch (rput s1 st blk (off - 4) wl.val) st blk (off - 4) none
      | _, _ => s1
    else s1

/-! ## Staging (R77 to R81) -/

/-- The staged registers of a block. -/
def stagedOffs (st : Stop) (blk : Nat) : List Nat :=
  if !hasStaging st blk then [] else if blk = 2 then [CP_CTL] else [TB_SET_LO, TB_SET_HI]

/-- The state with a value put into a staging copy (R77). -/
def stagePut (s : State) (st : Stop) (blk off : Nat) (v : Reg32) : State :=
  match regAt st blk off with
  | some (r, _) =>
    let w := putFlds (rget s st blk (off + 0x8000)) v false false r.flds
    blkStat (rput s st blk (off + 0x8000) w.val) st blk 3 true
  | none => s

/-- A write to a staged field, held while a commit is in progress (R80). -/
def stageWrite (s : State) (st : Stop) (blk off : Nat) (v : Reg32) : State :=
  if rbit s st blk BLOCK_STAT 4 then
    { s with reg := { s.reg with heldStage := s.reg.heldStage ++ [(rkey st blk off, v)] } }
  else stagePut s st blk off v

/-- DISCARD (R81).  DESIGN CHOICE: the spec does not say what a DISCARD does to a commit that is in progress; here the copies are
reloaded at once, and the commit then applies what they hold (log entry 82). -/
def stageDiscard (s : State) (st : Stop) (blk : Nat) : State :=
  blkStat ((stagedOffs st blk).foldl (fun s o => rput s st blk (o + 0x8000) (rget s st blk o)) s) st blk 3 false

/-- COMMIT (R78, R79): the block's check across its staging copies, then the commit is in progress.  DESIGN CHOICE: the spec does not
say what a COMMIT does while one is in progress; here it has no effect (log entry 82). -/
def stageCommit (s : State) (st : Stop) (blk : Nat) : State :=
  if !rbit s st blk BLOCK_STAT 3 || rbit s st blk BLOCK_STAT 4 then s
  else
    let checked :=
      if blk = 2 then (if cpCommitOk (rget s st 2 (CP_CTL + 0x8000)) then some s else none)
      else tbCommit s (rget64 s st 13 (TB_SET_LO + 0x8000))
    match checked with
    | none => blkStat s st blk 0 true
    | some s1 => blkStat s1 st blk 4 true

/-- A commit completes: the live values take the copies together, and writes held meanwhile enter the copies (R78, R80). -/
def commitDone (s : State) (st : Stop) (blk : Nat) : State :=
  if !rbit s st blk BLOCK_STAT 4 then s
  else
    let s1 := (stagedOffs st blk).foldl (fun s o => rput s st blk o (rget s st blk (o + 0x8000))) s
    let s2 := blkStat (blkStat s1 st blk 4 false) st blk 3 false
    let mine := fun e : Nat × Reg32 => decide (e.1 / 0x10000 = rkey st blk 0 / 0x10000)
    let held := s2.reg.heldStage.filter mine
    let s3 := { s2 with reg := { s2.reg with heldStage := s2.reg.heldStage.filter fun e => !mine e } }
    held.foldl (fun s e => stagePut s st blk (e.1 % 0x10000) e.2) s3

/-! ## Enables -/

/-- Whether EP_WIN suits the endpoint face (R597). -/
def epWinOk (s : State) : Bool :=
  let a := epWin s
  let n := 2 ^ epLog s
  let within := fun lo hi : Nat => decide (lo ≤ a) && decide (a + n ≤ hi)
  decide (a % n = 0) &&
  (within 0 (2 ^ 42) || within 0x100000000000 0x1000000000000 || within 0xFC00000000000 0xFC00080000000)

/-- A write of BLOCK_CTL.EN (R208, R299, R300, R303, R401, R597). -/
def enWrite (s : State) (st : Stop) (blk : Nat) (on : Bool) : State :=
  if !hasEn st blk then s
  else
    let was := rbit s st blk BLOCK_CTL 0
    let s1 := rsetB s st blk BLOCK_CTL 0 on
    match stopKind st with
    | .tile =>
      if blk ≤ 2 then (if was && !on then stopAll s1 [.drover st (blkCore blk) 0, .drover st (blkCore blk) 1] else s1)
      else if blk = 5 then l3En s st on
      else if blk = 3 ∧ tileLocked s st = true then l2En (l2En s st 0 on) st 1 on
      else l2En s st (blkCore blk) on
    | .cluster => if was && !on then stopAll s1 ((List.finRange 8).map fun i => .outrider (orOf st.die i)) else s1
    | .io =>
      if blk = 6 ∧ on = true ∧ was = false then
        (if epWinOk s then { s1 with io := { s1.io with rom := romBuild s1 } } else blkStat s st 6 0 true)
      else s1
    | _ => s1

/-- A write to a word of the block header (R58, R78, R81). -/
def headerWrite (s : State) (st : Stop) (blk off : Nat) (v : Reg32) : State :=
  if off = BLOCK_CTL then
    let s1 := if getB v 0 = rbit s st blk BLOCK_CTL 0 then s else enWrite s st blk (getB v 0)
    if !hasStaging st blk then s1
    else if getB v 2 then stageDiscard s1 st blk
    else if getB v 1 then stageCommit s1 st blk
    else s1
  else if off = BLOCK_STAT then
    rput s st blk BLOCK_STAT (rget s st blk BLOCK_STAT &&& ~~~(v &&& 3))
  else s

/-! ## Registers that act -/

/-- Block 0 (Tables 9-3, 14-9). -/
def writeAgent (s : State) (st : Stop) (off : Nat) (v : Reg32) : Option State :=
  if off = RT_LINK_CMD then
    some ((List.finRange 4).foldl (fun s d => if getB v d.val then reviveLink s (.mesh st d) else s) s)
  else if off = LOCK_CMD then some (lockCmd s st (legalVal (.fallback 0 3 0) (getF v 0 3)))
  else if off = LOCK_CLR then some (if getB v 0 then lockClear s st else s)
  else none

/-- Core blocks (Tables 5-19, 5-20). -/
def writeCore (s : State) (w : World) (st : Stop) (blk off : Nat) (v : Reg32) : Option State :=
  let c := blkCore blk
  if off = TSTART_CTL then some (startCtl s (.drover st c 0) (getB v 0) (getB v 1))
  else if off = TSTART_CTL + 16 then some (startCtl s (.drover st c 1) (getB v 0) (getB v 1))
  else if DBG_CTL ≤ off ∧ tileMode s st = 3 then some s
  else if off = DBG_CTL then some (dbgCtl s w st c (getF v 0 4))
  else if off = DBG_RCMD then some (dbgRcmd s w st c (getF v 0 2))
  else none

/-- A write to the base of a queue: the low half waits for the high half (R76), and both are refused as configuration (R349). -/
def baseWrite (s : State) (st : Stop) (q off : Nat) (v : Reg32) : State :=
  let at_ := wbqBase q + WBQ_BASE_LO
  if off = WBQ_BASE_LO then
    let s1 := wqConfig s st q WBQ_BASE_LO (wq s st q WBQ_BASE_LO)
    if wqOn s st q ∨ wbqFld s st q WBQ_STAT 5 1 = 1 then s1 else setLatch s1 st 5 at_ (some (v &&& 0xFFFFFF00))
  else
    let s1 := match latchOf s st 5 at_ with
      | some lo => wqConfig s st q WBQ_BASE_LO lo.toNat
      | none => s
    setLatch (wqConfig s1 st q WBQ_BASE_HI (getF v 0 20)) st 5 at_ none

/-- A waybill descriptor (Table 10-5). -/
def writeQueue (s : State) (st : Stop) (q off : Nat) (v : Reg32) : Option State :=
  if off = WBQ_CTL then some (wqControl s st q v.toNat)
  else if off = WBQ_CFG then some (wqConfig s st q off (wqCfgLegal v.toNat))
  else if off = WBQ_BASE_LO ∨ off = WBQ_BASE_HI then some (baseWrite s st q off v)
  else if off = WBQ_PROD ∨ off = WBQ_CONS then some (wqConfig s st q off (getF v 0 29))
  else if off = WBQ_IRQ then some (wqIrq (wqPut s st q off (getF v 0 17)) st q)
  else if off = WBQ_ARM then some (if getB v 0 then wqArm s st q else s)
  else none

/-- The cache blocks and the slice (Tables 8-9, 8-11). -/
def writeCache (s : State) (w : World) (st : Stop) (blk off : Nat) (v : Reg32) : Option State :=
  if blk ≤ 4 then
    (if off = L2_WAY_REENABLE then some (reenable s st blk L2_WAY_FAILED L2_WAY_CECNT 16 v.toNat)
    else if off = L1D_WAY_REENABLE then some (reenable s st blk L1D_WAY_FAILED L1D_WAY_CECNT 8 v.toNat)
    else none)
  else if off = L3_CTL then (regFind s st blk off).map fun r => packOff (plainWrite s st blk off r.1 v) st v
  else if off = L3_DEPOT then some (if rweBusy s st 5 then blkStat s st 5 0 true else depotWrite s w st v.toNat)
  else if off = L3_WAY_REENABLE then some (reenableL3 s st v.toNat)
  else if 0x1000 ≤ off ∧ off < 0x3000 then writeQueue s st ((off - 0x1000) / 0x40) (off % 0x40) v
  else none

/-- PSRC_CFG of a source (Table 15-6, R487, R505): fixed fields keep what Table 15-1 gives them. -/
def psrcWrite (s : State) (w : World) (st : Stop) (blk off n : Nat) (v : Reg32) : State :=
  let h := pageHart st off
  if privSecret s h w n then s
  else
    let old := rget s st blk off
    let s1 := setF (setF old 0 8 (getF v 0 8)) 8 1 (getF v 8 1)
    if !privConfigurable h n then rput s st blk off s1
    else
      let wd := if w = .secure then getF v 11 1 else getF old 11 1
      let lv := if getF v 9 2 = 0 then 1 else getF v 9 2
      let lv := if wd = 0 ∧ lv = 3 then 2 else if wd = 1 ∧ lv = 2 then 3 else lv
      rput s st blk off (setF (setF s1 9 2 lv) 11 1 wd)

/-- A page of an interrupt unit (Table 15-5, R488, R500, R505). -/
def writeIntPage (s : State) (i : Init) (st : Stop) (blk off : Nat) (v : Reg32) : Option State :=
  let h := pageHart st off
  let o := off % 0x1000
  let secret := decide (i.world = .normal)
  if pageInert s h then some s
  else if o = INT_SET then some (intSet s i.world h (getF v 0 6))
  else if o = INT_CLR then some (intClr s i.world h (getF v 0 6))
  else if o = INT_EOI_N then some (if i.hart = some h then intEoi s h .normal else s)
  else if o = INT_EOI_S then some (if secret || !decide (i.hart = some h) then s else intEoi s h .secure)
  else if o = INT_RUNPRI_S ∧ secret = true then some s
  else if PSRC_CFG ≤ o ∧ o < PSRC_CFG + 256 then some (psrcWrite s i.world st blk off ((o - PSRC_CFG) / 4) v)
  else none

/-- A write to SH_TGT or SH_CFG (R496, R506): a forwarded source is withdrawn first and, still pending, offered again. -/
def shConfig (s : State) (k off i : Nat) (v : Reg32) : State :=
  let p := shTable k
  let old := rget s p.1 p.2 off
  let cfg := decide (off % 8 = 4)
  let lv := if getF v 9 2 = 0 then 1 else getF v 9 2
  let new := if cfg then setF (setF (setF old 0 8 (getF v 0 8)) 8 1 (getF v 8 1)) 9 2 lv else BitVec.ofNat 32 (getF v 0 20)
  let moves := !cfg || (getB old 8 && !getB new 8) || decide (getF old 0 8 ≠ getF new 0 8) || decide (getF old 9 2 ≠ getF new 9 2)
  if moves && shFwd s k i then shOfferAll (rput (shWithdraw s k i) p.1 p.2 off new)
  else rput s p.1 p.2 off new

/-- A shared table (Table 15-7). -/
def writeShTable (s : State) (w : World) (k off : Nat) (v : Reg32) : Option State :=
  if off = SH_SET then some (shSet s w false k (getF v 0 12))
  else if off = SH_CLR then some (shClr s w k (getF v 0 12))
  else if SH_TGT ≤ off then
    let i := (off - SH_TGT) / 8
    some (if shSecure s k i && decide (w = .normal) then s else shConfig s k off i v)
  else none

/-- ERR_SRC_CFG of the selected source (Table 13-10, R440). -/
def errCfgWrite (s : State) (w : World) (st : Stop) (v : Reg32) : State :=
  let src := errSel s w st
  if !srcAt st src || (decide (w = .normal) && decide (srcWorld s st src = .secure)) then s
  else
    let old := srcCfg s st src
    let tl := if getF v 4 2 = 0 then 1 else getF v 4 2
    setSrcCfg s st src (setF (setF old 0 2 (max (getF v 0 2) (getF old 2 2))) 4 2 tl)

/-- The error block (Table 13-9, R462). -/
def writeErr (s : State) (w : World) (st : Stop) (off : Nat) (v : Reg32) : Option State :=
  let n := decide (w = .normal)
  if off = ERR_CTL then some (rput s st 8 off (if n then setF (rget s st 8 off) 0 1 (getF v 0 1) else v &&& 3))
  else if off = ERR_TGT_S ∧ n = true then some s
  else if off = ERR_SRC_SEL then
    some (if n then rput s st 8 off (v &&& 0xFFFF)
      else { s with err := { s.err with selS := mapSet (fun _ => 0) s.err.selS (stopIdx st) (v &&& 0xFFFF) } })
  else if off = ERR_SRC_CFG then some (errCfgWrite s w st v)
  else if ERR_CAP_SRC ≤ off ∧ off < INJ_CTL then
    let p := (off - ERR_CAP_SRC) / 0x40
    some (if off % 0x40 = ERR_CAP_ACK % 0x40 ∧ p < 4 ∧ ¬(n = true ∧ 2 ≤ p) ∧ getB v 0 = true then errAck s st p else s)
  else if off = INJ_CTL then
    match regAt st 8 INJ_CTL with
    | some (r, _) => some (injWrite s w st (putFlds 0 v false false r.flds).val)
    | none => some s
  else none

/-- The performance monitor block (R563, R575, R577). -/
def writePm (s : State) (i : Init) (st : Stop) (off : Nat) (v : Reg32) : Option State :=
  let o := off % 0x1000
  if i.world = .normal ∧ dbgNonInv s .normal = false then some s
  else if off < 0x5000 ∧ 0x500 ≤ o ∧ o < 0x514 then
    some (match pmPage s st (off / 0x1000) with
      | some (key, n) =>
        let k := (o - 0x500) / 4
        if guardOk i then
          { s with pm := { s.pm with ovf := s.pm.ovf.filter fun x =>
              !(decide (key + 32 * k ≤ x) && decide (x < key + min n (32 * k + 32)) && getB v (x - key - 32 * k)) } }
        else s
      | none => s)
  else if off = PM_GCTL then some (if guardOk i then pmCommand s v.toNat else s)
  else none

/-- A domain sequencer (Tables 16-13, 16-14, R518). -/
def writeDseq (s : State) (i : Init) (st : Stop) (off : Nat) (v : Reg32) : Option State :=
  let d := off / 0x10
  let o := off % 0x10
  let sec := decide (i.world = .secure)
  let ws := match i.hart with | some (.waystation _) => true | _ => false
  if o = DSEQ_CTL then
    some (if domGuarded s i.world st d then secRefused s st d
      else
        let old := rget s st 9 off
        let v1 := setF old 4 12 (legalVal (.range 1 4095) (getF v 4 12))
        let v2 := if sec || !domSecure s st d then setF v1 0 1 (getF v 0 1) else v1
        rput s st 9 off (if sec then setF v2 1 1 (getF v 1 1) else v2))
  else if o = DSEQ_CMD then
    some (if getF v 0 2 = 1 then seqUp s st d else if getF v 0 2 = 2 then seqDown s i.world ws st d 6 else s)
  else none

/-- Memory stops (Tables 12-6 to 12-8). -/
def writeMemory (s : State) (st : Stop) (blk off : Nat) (v : Reg32) : Option State :=
  let k : Fin 6 := ⟨stackOf st % 6, by omega⟩
  let ir := mapGet (fun _ => (0, 0)) s.hbm.w1500 k.val
  let setIr := fun e => hbmMod s fun h => { h with w1500 := mapSet (fun _ => (0, 0)) h.w1500 k.val e }
  if (blk = 3 ∨ blk = 4) ∧ off = PHY_REMAP_CMD then some (remapCommand s st (blkCore blk) v.toNat)
  else if blk = 5 ∧ off % 0x100 = SPARE_CMD then some (spareCommand s st (if off < 0x100 then 0 else 1) v.toNat)
  else if blk = 6 ∧ off = STK_CTL then some (stkCommand s k (getF v 0 3) ⟨getF v 3 3 % 8, by omega⟩)
  else if blk = 6 ∧ off = W1500_IR then some (setIr (getF v 0 12, ir.2))
  else if blk = 6 ∧ off = W1500_LEN then some (setIr (ir.1, legalVal (.range 1 1024) (getF v 0 11)))
  else if blk = 6 ∧ off = W1500_GO then some (if getB v 0 then w1500Go s k else s)
  else none

/-- I/O stops (Tables 7-13, 9-13, 12-9). -/
def writeIo (s : State) (w : World) (st : Stop) (blk off : Nat) (v : Reg32) : Option State :=
  let n : Fin 12 := ⟨portOf st % 12, by omega⟩
  if blk = 3 then
    (if portProto s n.val = 3 then some s
    else if off = IOTU_INV then some (ioInvWrite s n v.toNat)
    else if off = IOTU_FLT_POP then some (if getB v 0 then ioPop s n else s)
    else none)
  else if blk = 4 then writeShTable s w n.val off v
  else if blk = 5 ∧ CXW_BASE ≤ off ∧ off % 16 = CXW_CTL % 16 then
    some (if worldLock s then blkStat s st 5 1 true else cxlWindowCtl s n ((off - CXW_BASE) / 16) v.toNat)
  else if blk = cvBlk ∧ off = CV_CMD then some (cvCommand s n (getF v 0 2))
  else none

/-- Whether an initiator may write the regions and line-cache command of an Outrider (R371, R388). -/
def orMay (i : Init) (n : Fin 16) : Bool :=
  decide (i.world = .secure) || (decide (i.hart = some (.outrider n)) && decide (i.level = .s))

/-- The Outrider cluster (Tables 11-8, 11-10, 11-12). -/
def writeCluster (s : State) (i : Init) (st : Stop) (blk off : Nat) (v : Reg32) : Option State :=
  if blk = 1 then
    let n := orOf st.die ⟨off / 0x1000 % 8, by omega⟩
    let o := off % 0x1000
    if o = OR_CTL then some (orControl s n (getF v 0 3))
    else if o = LC_CMD then some (if orMay i n then lcCommand s n (legalVal (.fallback 0 5 0) (getF v 0 3)) else s)
    else if REG_BASE_LO ≤ o ∧ orMay i n = false then some s
    else none
  else if blk = 2 ∧ off = CP_CLR then some (if getB v 0 then cpClear s st else s)
  else if blk = 3 ∧ TCM_WIN ≤ off then some (tcmWinWrite s st.die off v)
  else if blk = 4 then writeIntPage s i st blk off v
  else none

/-! ## The Waystation stop -/

/-- A mailbox write through register space (R612). -/
def mbRegWrite (s : State) (i : Init) (st : Stop) (off : Nat) (v : Reg32) : State :=
  let m := off / 0x800
  let may := if m < 4 then guardOk i else decide (m < 8) && decide (i.world = .secure)
  if mbHere s st && may then mbWrite s m (off % 0x800) v else s

/-- Whether ACTION 2 of a watch entry names an Outrider of another world than `w` (R528). -/
def wchOther (s : State) (st : Stop) (n : Nat) (w : World) : Bool :=
  let a := getF (rget s st 6 (wchBase n + WCH_ACT)) 0 3
  rbit s (wsStop 0) 11 WA_OR_SEC (8 * st.die.val + a) != decide (w = .secure)

/-- A write to WCH_CTL (R528, R535). An entry that has just been enabled is due at the next tick (log entry 18). -/
def wchControl (s : State) (w : World) (st : Stop) (n : Nat) (v : Reg32) : State :=
  let at_ := wchBase n + WCH_CTL
  let old := rget s st 6 at_
  let op := if getF v 3 3 = 7 then 6 else getF v 3 3
  let act := if getF v 6 3 = 7 then 0 else getF v 6 3
  let fired := getB old 11 && !getB v 11
  let new := fun en : Bool => BitVec.ofNat 32 (b2n en + getF v 1 2 * 2 + op * 8 + act * 64 + getF v 9 1 * 512 +
    worldCode w * 1024 + b2n fired * 2048)
  if getB old 0 then
    if getB v 0 then
      let s1 := rput s st 6 at_ (setB old 11 fired)
      if getF old 1 2 ≠ getF v 1 2 ∨ getF old 3 3 ≠ op ∨ getF old 6 3 ≠ act ∨ getF old 9 1 ≠ getF v 9 1 then blkStat s1 st 6 0 true
      else s1
    else rput s st 6 at_ (new false)
  else if getB v 0 && decide (act = 2) && wchOther s st n w then blkStat (rput s st 6 at_ (new false)) st 6 0 true
  else if getB v 0 then
    let s1 := rput s st 6 at_ (new true)
    { s1 with pow := { s1.pow with wch := mapSet (fun _ => WchSt.initial) s1.pow.wch (st.die.val * 32 + n) ⟨3600000, none⟩ } }
  else rput s st 6 at_ (new false)

/-- A write to an entry of the Camp watch (R528, R535). -/
def writeWatch (s : State) (w : World) (st : Stop) (off : Nat) (v : Reg32) : Option State :=
  if off < 0x100 then none
  else
    let n := (off - 0x100) / 0x40
    let ctl := rget s st 6 (wchBase n + WCH_CTL)
    let o := off - wchBase n
    if w = .normal ∧ getB ctl 10 = true then some s
    else if o = WCH_CTL then some (wchControl s w st n v)
    else if o ≤ WCH_ACT ∧ getB ctl 0 = true then some (blkStat s st 6 0 true)
    else none

/-- The Waystation stop. -/
def writeWs (s : State) (i : Init) (st : Stop) (blk off : Nat) (v : Reg32) : Option State :=
  if blk = 1 then some (mbRegWrite s i st off v)
  else if blk = 2 then writeShTable s i.world (12 + st.die.val) off v
  else if blk = 3 ∧ off = WS_WDOG_KICK then
    some (if getB v 0 = true ∧ i.hart = some (.waystation st.die) ∧ mbHere s st = true then
      rputF s st 3 WS_WDOG_LEFT 0 16 (rfld s st 3 WS_WDOG_CTL 0 16) else s)
  else if blk = 4 ∧ off = PKG_PWR_LIMIT then some (setPowerLimit s (getF v 0 10))
  else if blk = 5 ∧ off % 0x1000 = BAND_CMD then
    let b := off / 0x1000
    some (if getF v 0 2 = 1 then bandGate s i.world st.die b else if getF v 0 2 = 2 then bandUp s st.die b else s)
  else if blk = 6 then writeWatch s i.world st off v
  else if blk = 10 ∧ off = LEDGER_CLR then some (if getB v 0 then ledgerClear s st.die else s)
  else if blk = 11 ∧ off = WA_LOCK then some (waLock s v.toNat)
  else if blk = 11 ∧ off = WA_ASSIGN then some (waAssign s v.toNat)
  else if blk = 12 ∧ off = DBG_REVOKE then some (if getB v 0 then dbgRevoke s else s)
  else none

/-- What a register that acts does, where it acts. -/
def writeActs (s : State) (i : Init) (st : Stop) (blk off : Nat) (v : Reg32) : Option State :=
  if blk = 0 then writeAgent s st off v
  else if blk = 7 then writePm s i st off v
  else if blk = 8 then writeErr s i.world st off v
  else if blk = 9 then writeDseq s i st off v
  else
    match stopKind st with
    | .tile => if blk ≤ 2 then writeCore s i.world st blk off v else if blk ≤ 5 then writeCache s i.world st blk off v
      else if blk = 6 then writeIntPage s i st blk off v else none
    | .memory => writeMemory s st blk off v
    | .io => writeIo s i.world st blk off v
    | .cluster => writeCluster s i st blk off v
    | .waystation => writeWs s i st blk off v
    | .ford => if blk = 1 ∧ off = FORD_CMD then
        some (if getB v 0 then reviveLink s (.ford st.die ⟨(st.x.val - 8) % 4, by omega⟩) else s)
      else none

/-- Registers that only secure initiators write, beside those whose table row says so (R123, R324, R341, R404, R463, R483, R533, R557,
R605, R629). -/
def writeSecure (st : Stop) (blk off : Nat) : Bool :=
  match stopKind st, blk with
  | _, 0 => decide (off = RT_LINK_CMD) || (decide (stopKind st = .tile) && decide (off = LOCK_CMD ∨ off = LOCK_CLR))
  | .io, 6 => true
  | .io, 21 => decide (off = CV_CMD)
  | .cluster, 2 => decide (off = CP_CTL ∨ off = CP_CLR)
  | .waystation, 3 => true
  | .waystation, 4 => decide (off = PKG_PWR_LIMIT ∨ off = THERM_CTL)
  | .waystation, 6 => decide (off = WCH_GCTL)
  | .waystation, 10 => decide (off = LEDGER_CLR)
  | .waystation, 11 => true
  | .waystation, 13 => true
  | _, _ => false

/-- A write of a register of a block that the stop agent has admitted. -/
def regWrite (s : State) (i : Init) (st : Stop) (blk off : Nat) (v : Reg32) : State :=
  let home := regHome st blk off
  let normal := decide (i.world = .normal)
  if regMirror st blk off || blkSilent s st blk || (normal && writeSecure st blk off) then s
  else if BLOCK_ID ≤ off then headerWrite s home blk off v
  else if 0x8000 ≤ off then s
  else
    match regFind s st blk off with
    | none => if blk = 7 then (writePm s i st off v).getD s else s
    | some (r, _) =>
      if (r.guarded && !guardOk i) || (r.secureOnly && normal) then s
      else if r.staged then stageWrite s home blk off v
      else (writeActs s i home blk off v).getD (plainWrite s home blk off r v)

end Sys2Proof.Machine
end

