-- ==== Sys2Proof/Machine/RegAccess.lean ====
section
/-!
DEFINITION. An access to register space: its target, the world and power of the target, and its response (R40, R54 to R68).
-/

namespace Sys2Proof.Machine

/-- The stop, block and offset that a configuration address names; none answers NOTARGET (R40, R52, R54, R56). -/
def regPlace (s : State) (cfg : Nat) : Option (Stop × Nat × Nat) :=
  if cfg / 2 ^ 30 ≠ pkgNum s ∨ bits cfg 20 2 ≠ 0 then none
  else
    match stopOf (bits cfg 22 8) with
    | none => none
    | some st =>
      let blk := bits cfg 16 4
      if !blockExists st blk then none
      else if stopKind st = .io ∧ blk = 6 ∧ epStrapped s = false then none
      else some (st, blk, cfg % 0x10000)

/-- The waybill slot whose registers or doorbell hold an offset of a slice's block 5. -/
def slotAt (off : Nat) : Option Nat :=
  if 0x1000 ≤ off ∧ off < 0x3000 then some ((off - 0x1000) / 0x40)
  else if 0x4000 ≤ off ∧ off < 0x6000 then some ((off - 0x4000) / 0x40)
  else none

/-- What the normal world may not reach (R66, R347, R405): none, refused without being counted, or a world violation of a kind. -/
inductive Refuse where
  | no
  | quiet
  | violation (kind : Nat)
deriving DecidableEq, Repr

/-- Whether an access is refused for its world. -/
def regRefuse (s : State) (w : World) (st : Stop) (blk off : Nat) : Refuse :=
  if w = .secure then .no
  else if domSecure s st (blkDomain st blk off) then .violation 0
  else if stopKind st = .io ∧ blk = 3 ∧ rbit s (wsStop 0) 11 WA_PORT_SEC (portOf st) = true then .violation 0
  else if stopKind st = .tile ∧ blk = 5 ∧ ((slotAt off).any fun q => slotSecure s st q) = true then .violation 3
  else if stopKind st = .cluster ∧ blk = 3 then .quiet
  else .no

/-- The domain that has to be ON for an access: in degraded operation that of the surviving core, and none for block 1 of a tile in
mode 3, which always answers (R210, R312). -/
def accDomain (s : State) (st : Stop) (blk off : Nat) : Nat :=
  if stopKind st = .tile ∧ tileMode s st = 2 ∧ (blk = 1 ∨ blk = 3) then rfld s st 0 LOCK_STAT 2 1
  else if stopKind st = .tile ∧ (blkInert s st blk = true ∨ (tileMode s st = 3 ∧ blk = 1)) then 15
  else blkDomain st blk off

/-- Whether a stop agent has power: VDD_STBY for the Waystation stops, VDD_UNC for the others. -/
def stopPowered (s : State) (st : Stop) : Bool := decide (stopKind st = .waystation) || uncUp s

/-- The access itself at an admitted register (R67). -/
def regDo (s : State) (i : Init) (st : Stop) (blk off : Nat) (w : Option Reg32) : State × RegResp :=
  let b := regBlk s st blk
  match w with
  | some v => (regWrite s i st b off v, ⟨0, 0⟩)
  | none =>
    let r := regRead s i st b off
    (r.1, ⟨0, r.2⟩)

/-- The report of an access that ends with TIMEOUT or LINKERR (R64). -/
def postError (s : State) (st : Stop) (timeout : Bool) : State :=
  reportErr s (wsStop st.die) (if timeout then 0xA801 else 0xA802) (if timeout then tyTIMEOUT else tyLINK)

/-- Whether an access that arrived earlier still waits at the stop agent for the same block (R67): stalled on its domain (R65), or a
write to a staged field that a commit holds (R80). -/
def blockHeld (s : State) (cfg : Nat) : Bool :=
  (s.reg.held.any fun a => decide (a.addr / 0x10000 = cfg / 0x10000)) ||
  (s.reg.heldStage.any fun e => decide (e.1 / 0x10000 = cfg % 2 ^ 30 / 0x10000))

/-- An access whose path fails: a parity or CRC failure is an input of the block (log entry 98), which the access uses up. -/
def pathFails (s : State) (st : Stop) : Bool := s.reg.pathErr.contains (stopIdx st)
def pathUsed (s : State) (st : Stop) : State := { s with reg := { s.reg with pathErr := setDel s.reg.pathErr (stopIdx st) } }

/-- An access to register space: its response, or none while it stalls for its domain (R65) or behind an earlier access to the
block (R67). LINKERR answers one that fails on its path, and a write is not performed (R63). -/
def regAcc (s : State) (i : Init) (who : Requester) (cfg : Nat) (w : Option Reg32) : State × Option RegResp :=
  match regPlace s cfg with
  | none => (s, some ⟨1, 0⟩)
  | some (st, blk, off) =>
    if pathFails s st then (postError (pathUsed s st) st false, some ⟨4, 0⟩) else
    match regRefuse s i.world st blk off with
    | .quiet => (s, some ⟨0, 0⟩)
    | .violation k => (violation s (stopLocus (pkgNum s) st) k (if k = 0 then blk else 0), some ⟨0, 0⟩)
    | .no =>
      let d := accDomain s st blk off
      let go := fun s : State => let r := regDo s i st blk off w; (r.1, some r.2)
      if !stopPowered s st then
        (if pkgState s ≠ 0 then (s, some ⟨2, 0⟩) else (postError s st true, some ⟨3, 0⟩))
      else
        let on := fun s : State => decide (d = 15) || decide (domState s st d = dON)
        if !on s && decide (pkgState s ≠ 0) then (s, some ⟨2, 0⟩)
        else
        let s1 := if on s then s else domWake s st d wkAccess
        if on s1 && !blockHeld s1 cfg then go s1
        else ({ s1 with reg := { s1.reg with held := s1.reg.held ++ [⟨cfg, i, w, who⟩] } }, none)

/-- A response as the answer to a device-class access (R63, Table 3-12). -/
def respRes (r : RegResp) (read : Bool) : DRes :=
  if r.code ≠ 0 then .err 2 r.code else .data (if read then natLe 4 r.data.toNat else []) none

/-- The state with the response of an access of a row of the table. -/
def setResp (s : State) (r : RegResp) : State := { s with reg := { s.reg with resp := r } }

/-- A write of a register by a row of the table. -/
def regCmd (s : State) (i : Init) (st : Stop) (blk off : Nat) (v : Reg32) : State :=
  match regAcc s i .env (pkgNum s * 2 ^ 30 + rkey st blk off) (some v) with
  | (s1, some r) => setResp s1 r
  | (s1, none) => s1

/-! ## The Camp watch (R527 to R529) -/

/-- Whether a compare operation hits (Table 16-9): the masked sample against VALUE, and against the sample before it where there is
one. -/
def wchHit (op m v : Nat) (last : Option Nat) : Bool :=
  match op with
  | 0 => decide (m = v)
  | 1 => decide (m ≠ v)
  | 2 => decide (m < v)
  | 3 => decide (v ≤ m)
  | 4 => (match last with | some l => decide (m ≠ l) | none => false)
  | 5 => (match last with | some l => decide (m = v) && decide (l ≠ v) | none => false)
  | _ => true

/-- A register of a watch entry. -/
def wchReg (s : State) (die : Fin 2) (n off : Nat) : Nat := (rget s (wsStop die) 6 (wchBase n + off)).toNat

/-- A saturating counter of a watch entry advances. -/
def wchCount (s : State) (die : Fin 2) (n off : Nat) : State := rsat s (wsStop die) 6 (wchBase n + off) 0 32 1

/-- The message that a watch entry posts (R529). -/
def wchMessage (s : State) (die : Fin 2) (n size v : Nat) : List Byte :=
  (natLe 8 (tbNow s) ++ natLe 4 v ++ natLe 1 n ++ natLe 1 die.val ++ natLe 2 (wchReg s die n WCH_MATCH) ++ List.replicate size 0).take size

/-- Action 5: a post to a waybill queue; none where it cannot be performed (R355, R528, R529). -/
def wchPost (s : State) (die : Fin 2) (n v : Nat) (w : World) : Option State :=
  match queueAt (pkgNum s) (0xFFF0000000000 + wchReg s die n WCH_ACT) with
  | none => none
  | some (st, q) =>
    if pkgState s = 5 ∨ uncUp s = false then none
    else if w = .normal ∧ slotSecure s st q = true then none
    else
      let camp := decide (pkgState s ≠ 0) && decide (wbqFld s st q WBQ_CFG 7 1 = 1)
      some (wqPost s st q (wchMessage s die n (wbqSize s st q) v) false false camp (srcClassC (0x18 + die.val)))

/-- The violation that a refused post is (R529, R541). -/
def wchViolation (s : State) (die : Fin 2) (n : Nat) (w : World) : State :=
  match queueAt (pkgNum s) (0xFFF0000000000 + wchReg s die n WCH_ACT) with
  | some (st, q) => if w = .normal ∧ slotSecure s st q = true then violation s (stopLocus (pkgNum s) st) 3 0 else s
  | none => s

/-- Action 4: the CAMP_WAKE source of the locus that WCH_ACT names (R488, R490); none where the locus is refused. -/
def wchInterrupt (s : State) (die : Fin 2) (n : Nat) (w : World) : Option State :=
  setAt s w (wchReg s die n WCH_ACT % 65536) false 12

/-- The action of a hit (Table 16-10): none where it cannot be performed. -/
def wchAct (s : State) (die : Fin 2) (n v : Nat) : Option State :=
  let ctl := wchReg s die n WCH_CTL
  let w := worldOf (bits ctl 10 1)
  let arg := wchReg s die n WCH_ACT
  let wake := fun s : State => pkgWake s 1 (n + 32 * die.val)
  match bits ctl 6 3 with
  | 0 => some s
  | 1 =>
    let h : Hart := .waystation (if activeDie s = 0 then 0 else 1)
    some (match (tget s h).wait with | some ws => wakeWait s h ws 8 | none => s)
  | 2 =>
    let h : Hart := .outrider ⟨8 * die.val + arg % 8, by omega⟩
    some (if pkgState s = 5 then wake s else privSet s h 12)
  | 3 =>
    if arg % 4 = 3 then none
    else some (if pkgState s = 0 then sectionWake s die (arg % 4) else deferSection (wake s) die (arg % 4))
  | 4 =>
    (wchInterrupt s die n w).map fun t => wake (if pkgState s = 5 then s else t)
  | 5 => wchPost s die n v w
  | 6 => some (reportErr s (wsStop die) 0xC805 0 (some (wchReg s die n WCH_SRC)) v)
  | _ => some s

/-- A sample of a watch entry: none where it failed. -/
def wchSample (s : State) (die : Fin 2) (n : Nat) (r : Option Nat) : State :=
  let key := die.val * 32 + n
  match r with
  | none => wchCount s die n WCH_SKIP
  | some v =>
    let m := v &&& wchReg s die n WCH_MASK
    let ctl := wchReg s die n WCH_CTL
    let e := mapGet (fun _ => WchSt.initial) s.pow.wch key
    let hit := wchHit (bits ctl 3 3) m (wchReg s die n WCH_VALUE) e.last
    let s1 := rput s (wsStop die) 6 (wchBase n + WCH_LAST) (BitVec.ofNat 32 v)
    let s2 := { s1 with pow := { s1.pow with wch := mapSet (fun _ => WchSt.initial) s1.pow.wch key { e with last := some m } } }
    if !hit then s2
    else
      let s3 := rsetB (wchCount s2 die n WCH_MATCH) (wsStop die) 6 (wchBase n + WCH_CTL) 11 true
      let s4 := match wchAct s3 die n v with
        | some s4 => s4
        | none => wchCount (if bits ctl 6 3 = 5 then wchViolation s3 die n (worldOf (bits ctl 10 1)) else s3) die n WCH_SKIP
      if bit ctl 9 then rsetB s4 (wsStop die) 6 (wchBase n + WCH_CTL) 0 false else s4

/-- The response of a register access reaches who made it. -/
def regAnswer (s : State) (who : Requester) (r : RegResp) (read : Bool) : State :=
  match who with
  | .watch die n => if rbit s (wsStop die) 6 (wchBase n) 0 then wchSample s die n (if r.code = 0 then some r.data.toNat else none) else s
  | .env => setResp s r
  | w => answer s w (respRes r read)

/-- An access that stalled is performed. -/
def heldRun (s : State) (a : HeldAcc) : State :=
  match regAcc s a.init a.who a.addr a.write with
  | (s1, some r) => regAnswer s1 a.who r a.write.isNone
  | (s1, none) => s1

/-- Whether a held access waits for a domain. -/
def heldFor (s : State) (st : Stop) (d : Nat) (a : HeldAcc) : Bool :=
  match regPlace s a.addr with
  | some (st', blk, off) => decide (st' = st) && (domGroup s st d).contains (accDomain s st blk off)
  | none => false

/-- Held accesses of some blocks are made again, in order of arrival (R67): each that still has to wait is held again. -/
def heldRelease (s : State) (p : HeldAcc → Bool) : State :=
  (s.reg.held.filter p).foldl heldRun { s with reg := { s.reg with held := s.reg.held.filter fun a => !p a } }

/-- The accesses that waited for a domain proceed, and those that waited behind them (R65, R67). -/
def heldProceed (s : State) (st : Stop) (d : Nat) : State :=
  heldRelease s fun a => s.reg.held.any fun b => heldFor s st d b && decide (b.addr / 0x10000 = a.addr / 0x10000)

/-- The accesses that waited behind an earlier one to the block of a configuration address proceed (R67). -/
def blockProceed (s : State) (cfg : Nat) : State := heldRelease s fun a => decide (a.addr / 0x10000 = cfg / 0x10000)

/-- The sample of an entry by its KIND: the register access, the I3C read, the pins or the timebase (R527). -/
def wchTake (s : State) (die : Fin 2) (n : Nat) (i3c : List (Option (BitVec 32))) (pins : BitVec 8) : State :=
  let ctl := wchReg s die n WCH_CTL
  match bits ctl 1 2 with
  | 0 =>
    let i : Init := ⟨.s, worldOf (bits ctl 10 1), false, none⟩
    match regAcc s i (.watch die n) (wchReg s die n WCH_SRC) none with
    | (s1, some r) => wchSample s1 die n (if r.code = 0 then some r.data.toNat else none)
    | (s1, none) => s1
  | 1 =>
    let size := 8 * (bits (wchReg s die n WCH_SRC) 16 2 + 1)
    wchSample s die n (((i3c[n]?).getD none).map fun v => v.toNat % 2 ^ size)
  | 2 => wchSample s die n (some pins.toNat)
  | _ => wchSample s die n (some (tbNow s % 2 ^ 32))

/-- One entry at a tick: it ages, and is sampled when it is due and the tick reaches it. -/
def wchTickOne (i3c : List (Option (BitVec 32))) (pins : BitVec 8) (reach : Nat) (die : Fin 2) (a : State × Bool) (n : Nat) : State × Bool :=
  let s := a.1
  let key := die.val * 32 + n
  let e := mapGet (fun _ => WchSt.initial) s.pow.wch key
  if !rbit s (wsStop die) 6 (wchBase n) 0 then a
  else
    let due := decide (wchReg s die n WCH_PERIOD ≤ e.age + 1)
    let put := fun age : Nat =>
      { s with pow := { s.pow with wch := mapSet (fun _ => WchSt.initial) s.pow.wch key { e with age := age } } }
    if !due then (put (e.age + 1), a.2)
    else if reach ≤ n then (put (e.age + 1), true)
    else (wchTake (put 0) die n i3c pins, a.2)

/-- WATCH_TICK (R527). A 1 ms tick of a die: due entries are sampled in increasing order, with what the I3C targets and the pins give;
entries from `reach` on are not sampled before the next tick, which is an overrun. -/
def execWatchTick (die : Fin 2) (i3c : List (Option (BitVec 32))) (pins : BitVec 8) (reach : Nat) (s : State) :
    Host.Outcome State Fault Refusal :=
  if !rbit s (wsStop die) 6 WCH_GCTL 0 then .next s
  else
    let r := (List.range 32).foldl (wchTickOne i3c pins reach die) (s, false)
    .next (if r.2 then reportErr (rsetB r.1 (wsStop die) 6 WCH_STAT 1 true) (wsStop die) 0xC806 0 else r.1)

end Sys2Proof.Machine
end

