-- ==== Sys2Proof/Machine/Fp.lean ====
section
/-!
DEFINITION. IEEE 754 binary16, binary32 and binary64 arithmetic on exact values, rounded once (R90, R157).
-/

namespace Sys2Proof.Machine

/-- A binary format: exponent bits and fraction bits. -/
structure Fmt where
  eb : Nat
  mb : Nat
deriving DecidableEq, Repr

/-- The format of an element size (R90); ESZ 0 encodes no floating-point instruction (R157). -/
def fmtOf (esz : Nat) : Fmt := if esz = 1 then ⟨5, 10⟩ else if esz = 2 then ⟨8, 23⟩ else ⟨11, 52⟩

def fmtBias (f : Fmt) : Nat := 2 ^ (f.eb - 1) - 1

/-- The all-ones exponent field. -/
def fmtMaxExp (f : Fmt) : Nat := 2 ^ f.eb - 1

/-! Flag bits at their places in VCSR (Table 3-2). -/

def fNV : Nat := 4
def fDZ : Nat := 8
def fOF : Nat := 16
def fUF : Nat := 32
def fNX : Nat := 64

/-- The value of an operand; a finite one is `m × 2^e` with its sign. -/
inductive FVal where
  | nan (signaling : Bool)
  | inf (neg : Bool)
  | fin (neg : Bool) (m : Nat) (e : Int)
deriving DecidableEq, Repr

/-- The value of an encoding; with FTZ a subnormal is zero of the same sign (Table 3-2). -/
def fUnpack (f : Fmt) (ftz : Bool) (v : Nat) : FVal :=
  let fr := bits v 0 f.mb
  let ex := bits v f.mb f.eb
  let neg := bit v (f.mb + f.eb)
  if ex = fmtMaxExp f then (if fr = 0 then .inf neg else .nan (!bit fr (f.mb - 1)))
  else if ex = 0 then .fin neg (if ftz then 0 else fr) (1 - (fmtBias f : Int) - f.mb)
  else .fin neg (fr + 2 ^ f.mb) ((ex : Int) - fmtBias f - f.mb)

/-- The encoding of fields. -/
def fPack (f : Fmt) (neg : Bool) (ex fr : Nat) : Nat := fr + ex * 2 ^ f.mb + b2n neg * 2 ^ (f.mb + f.eb)

/-- The default quiet NaN (R157). -/
def fNan (f : Fmt) : Nat := fPack f false (fmtMaxExp f) (2 ^ (f.mb - 1))

def fInf (f : Fmt) (neg : Bool) : Nat := fPack f neg (fmtMaxExp f) 0

def fZero (f : Fmt) (neg : Bool) : Nat := fPack f neg 0 0

/-- Whether rounding goes away from zero: `q` is the truncated value, `r` the part cut off of `2 * half`, `st` whether more
lies below (VCSR.RM: 0 to nearest even, 1 toward zero, 2 toward -infinity, 3 toward +infinity). -/
def roundsUp (rm : Nat) (neg : Bool) (q r half : Nat) (st : Bool) : Bool :=
  match rm with
  | 0 => decide (half < r) || (decide (r = half) && decide (0 < half) && (st || decide (q % 2 = 1)))
  | 1 => false
  | 2 => neg && (decide (r ≠ 0) || st)
  | _ => !neg && (decide (r ≠ 0) || st)

/-- `m × 2^e`, with something more below where `st`, cut at the unit `2^t` and rounded: the integer and whether it is inexact. -/
def cutRound (rm : Nat) (neg : Bool) (m : Nat) (e t : Int) (st : Bool) : Nat × Bool :=
  let sh := (t - e).toNat
  if sh = 0 then (m * 2 ^ (e - t).toNat + (if st && ((rm = 2 && neg) || (rm = 3 && !neg)) then 1 else 0), st)
  else
    let q := m / 2 ^ sh
    let r := m % 2 ^ sh
    (if roundsUp rm neg q r (2 ^ (sh - 1)) st then q + 1 else q, decide (r ≠ 0) || st)

/-- What an overflow gives (IEEE 754): infinity or the largest finite value, by rounding direction. -/
def fOverflow (f : Fmt) (rm : Nat) (neg : Bool) : Nat :=
  if rm = 0 ∨ (rm = 2 ∧ neg = true) ∨ (rm = 3 ∧ neg = false) then fInf f neg
  else fPack f neg (fmtMaxExp f - 1) (2 ^ f.mb - 1)

/-- A nonzero exact value rounded to a format, with its flags. -/
def fRound (f : Fmt) (rm : Nat) (ftz : Bool) (neg : Bool) (m : Nat) (e : Int) (st : Bool) : Nat × Nat :=
  let emin : Int := 1 - (fmtBias f : Int)
  let top : Int := e + Nat.log2 m
  let t := max (top - f.mb) (emin - f.mb)
  let c := cutRound rm neg m e t st
  let nx := if c.2 then fNX else 0
  let un := cutRound rm neg m e (top - f.mb) st
  let tinyAfter : Bool := if un.1 = 2 ^ (f.mb + 1) then decide (top + 1 < emin) else decide (top < emin)
  let tiny := if Config.tinyAfterRounding then tinyAfter else decide (top < emin)
  let uf := if tiny && c.2 then fUF else 0
  if c.1 < 2 ^ f.mb then
    if ftz && decide (c.1 ≠ 0) then
      (fZero f neg, (if Config.flushFlag 0 then fUF else 0) + (if Config.flushFlag 1 then fNX else 0))
    else (fPack f neg 0 c.1, uf + nx)
  else
    let ex := (t + f.mb + fmtBias f).toNat + (if c.1 = 2 ^ (f.mb + 1) then 1 else 0)
    let fr := if c.1 = 2 ^ (f.mb + 1) then 0 else c.1 - 2 ^ f.mb
    if fmtMaxExp f ≤ ex then (fOverflow f rm neg, fOF + fNX)
    else (fPack f neg ex fr, uf + nx)

/-- An exact dyadic value rounded; an exact zero takes the sign given. -/
def fRoundZ (f : Fmt) (rm : Nat) (ftz : Bool) (v : Int) (e : Int) (zneg : Bool) : Nat × Nat :=
  if v = 0 then (fZero f zneg, 0) else fRound f rm ftz (decide (v < 0)) v.natAbs e false

/-- The signed integer of a magnitude. -/
def sgn (neg : Bool) (m : Nat) : Int := if neg then -(m : Int) else m

/-- The exact sum of two dyadic values: the integer and its exponent. -/
def dyAdd (a : Int) (ea : Int) (b : Int) (eb : Int) : Int × Int :=
  let e := min ea eb
  (a * 2 ^ (ea - e).toNat + b * 2 ^ (eb - e).toNat, e)

/-- NV where an operand is a signaling NaN. -/
def nanFlags (l : List FVal) : Nat := if l.any fun v => v == .nan true then fNV else 0

/-- Addition. -/
def fAdd (f : Fmt) (rm : Nat) (ftz : Bool) (x y : FVal) : Nat × Nat :=
  match x, y with
  | .nan _, _ => (fNan f, nanFlags [x, y])
  | _, .nan _ => (fNan f, nanFlags [x, y])
  | .inf a, .inf b => if a = b then (fInf f a, 0) else (fNan f, fNV)
  | .inf a, _ => (fInf f a, 0)
  | _, .inf b => (fInf f b, 0)
  | .fin a m e, .fin b n g =>
    let s := dyAdd (sgn a m) e (sgn b n) g
    fRoundZ f rm ftz s.1 s.2 (if m = 0 ∧ n = 0 ∧ a = b then a else decide (rm = 2))

/-- The value with its sign changed. -/
def fNegV : FVal → FVal
  | .nan b => .nan b
  | .inf a => .inf (!a)
  | .fin a m e => .fin (!a) m e

/-- Multiplication. -/
def fMul (f : Fmt) (rm : Nat) (ftz : Bool) (x y : FVal) : Nat × Nat :=
  match x, y with
  | .nan _, _ => (fNan f, nanFlags [x, y])
  | _, .nan _ => (fNan f, nanFlags [x, y])
  | .inf a, .inf b => (fInf f (xor a b), 0)
  | .inf a, .fin b n _ => if n = 0 then (fNan f, fNV) else (fInf f (xor a b), 0)
  | .fin a m _, .inf b => if m = 0 then (fNan f, fNV) else (fInf f (xor a b), 0)
  | .fin a m e, .fin b n g => fRoundZ f rm ftz (sgn (xor a b) (m * n)) (e + g) (xor a b)

/-- Division: the quotient to three bits beyond the format, and whether a remainder is left. -/
def fDiv (f : Fmt) (rm : Nat) (ftz : Bool) (x y : FVal) : Nat × Nat :=
  match x, y with
  | .nan _, _ => (fNan f, nanFlags [x, y])
  | _, .nan _ => (fNan f, nanFlags [x, y])
  | .inf _, .inf _ => (fNan f, fNV)
  | .inf a, .fin b _ _ => (fInf f (xor a b), 0)
  | .fin a _ _, .inf b => (fZero f (xor a b), 0)
  | .fin a m e, .fin b n g =>
    if n = 0 then (if m = 0 then (fNan f, fNV) else (fInf f (xor a b), fDZ))
    else if m = 0 then (fZero f (xor a b), 0)
    else
      let k := 2 * f.mb + 6
      let q := m * 2 ^ k / n
      fRound f rm ftz (xor a b) q (e - g - k) (decide (m * 2 ^ k % n ≠ 0))

/-- The integer square root by bits, from bit `n - 1` down. -/
def isqrtFrom (v r : Nat) : Nat → Nat
  | 0 => r
  | n + 1 => isqrtFrom v (if (r + 2 ^ n) * (r + 2 ^ n) ≤ v then r + 2 ^ n else r) n

/-- Square root. -/
def fSqrt (f : Fmt) (rm : Nat) (ftz : Bool) (x : FVal) : Nat × Nat :=
  match x with
  | .nan _ => (fNan f, nanFlags [x])
  | .inf a => if a then (fNan f, fNV) else (fInf f false, 0)
  | .fin a m e =>
    if m = 0 then (fZero f a, 0)
    else if a then (fNan f, fNV)
    else
      let odd := decide (e % 2 ≠ 0)
      let m1 := if odd then 2 * m else m
      let e1 := if odd then e - 1 else e
      let k := f.mb + 4
      let v := m1 * 2 ^ (2 * k)
      let r := isqrtFrom v 0 (2 * f.mb + 8)
      fRound f rm ftz false r (e1 / 2 - k) (decide (r * r ≠ v))

/-- `d + a × b` rounded once. -/
def fFma (f : Fmt) (rm : Nat) (ftz : Bool) (d x y : FVal) : Nat × Nat :=
  let zeroInf := match x, y with
    | .inf _, .fin _ n _ => decide (n = 0)
    | .fin _ m _, .inf _ => decide (m = 0)
    | _, _ => false
  match d, x, y with
  | _, .nan _, _ => (fNan f, nanFlags [d, x, y])
  | _, _, .nan _ => (fNan f, nanFlags [d, x, y])
  | .nan sg, _, _ =>
    if zeroInf then (fNan f, if sg || Config.fmaNanInvalid then fNV else 0) else (fNan f, nanFlags [d, x, y])
  | .inf c, .inf a, .inf b => if c = xor a b then (fInf f c, 0) else (fNan f, fNV)
  | .inf c, .inf a, .fin b _ _ => if zeroInf then (fNan f, fNV) else if c = xor a b then (fInf f c, 0) else (fNan f, fNV)
  | .inf c, .fin a _ _, .inf b => if zeroInf then (fNan f, fNV) else if c = xor a b then (fInf f c, 0) else (fNan f, fNV)
  | .inf c, .fin _ _ _, .fin _ _ _ => (fInf f c, 0)
  | .fin _ _ _, .inf a, .inf b => (fInf f (xor a b), 0)
  | .fin _ _ _, .inf a, .fin b _ _ => if zeroInf then (fNan f, fNV) else (fInf f (xor a b), 0)
  | .fin _ _ _, .fin a _ _, .inf b => if zeroInf then (fNan f, fNV) else (fInf f (xor a b), 0)
  | .fin c k g, .fin a m e, .fin b n h =>
    let s := dyAdd (sgn c k) g (sgn (xor a b) (m * n)) (e + h)
    fRoundZ f rm ftz s.1 s.2 (if k = 0 ∧ m * n = 0 ∧ c = xor a b then c else decide (rm = 2))

/-- Whether a value is less than another; neither is a NaN. -/
def fLess (x y : FVal) : Bool :=
  match x, y with
  | .inf a, .inf b => a && !b
  | .inf a, _ => a
  | _, .inf b => !b
  | .fin a m e, .fin b n g => decide ((dyAdd (sgn a m) e (-(sgn b n)) g).1 < 0)
  | _, _ => false

/-- Whether a value lies below another with -0 below +0 (R157). -/
def fBelow (x y : FVal) : Bool :=
  fLess x y ||
  match x, y with
  | .fin a m _, .fin b n _ => decide (m = 0) && decide (n = 0) && a && !b
  | _, _ => false

/-- Floating-point less than (R157): a NaN operand gives 0 and sets NV. -/
def fCmpLt (x y : FVal) : Bool × Nat :=
  match x, y with
  | .nan _, _ => (false, fNV)
  | _, .nan _ => (false, fNV)
  | _, _ => (fLess x y, 0)

/-- The encoding of an operand as an operation sees it: a flushed subnormal is zero (R157). -/
def fSeen (f : Fmt) (ftz : Bool) (v : Nat) : Nat :=
  if ftz && decide (bits v f.mb f.eb = 0) then fZero f (bit v (f.mb + f.eb)) else v

/-- VFMIN and VFMAX (R157): the non-NaN operand beside one quiet NaN; a signaling NaN sets NV and gives the default NaN
(log entry 7). -/
def fMinMax (f : Fmt) (ftz : Bool) (mx : Bool) (a b : Nat) : Nat × Nat :=
  let x := fUnpack f ftz a
  let y := fUnpack f ftz b
  match x, y with
  | .nan true, _ => (fNan f, fNV)
  | _, .nan true => (fNan f, fNV)
  | .nan false, .nan false => (fNan f, 0)
  | .nan false, _ => (fSeen f ftz b, 0)
  | _, .nan false => (fSeen f ftz a, 0)
  | _, _ => (fSeen f ftz (if (if mx then fBelow y x else fBelow x y) then a else b), 0)

/-- Signed integer of `w` bits to floating point of the same width (Table 4-17). -/
def fFromInt (f : Fmt) (rm : Nat) (ftz : Bool) (v : Int) : Nat × Nat := fRoundZ f rm ftz v 0 false

/-- Floating point to signed integer of `w` bits (Table 4-17). -/
def fToInt (w : Nat) (rm : Nat) (x : FVal) : Int × Nat :=
  match x with
  | .nan _ => (0, fNV)
  | .inf a => (if a then -(2 ^ (w - 1)) else 2 ^ (w - 1) - 1, fNV)
  | .fin a m e =>
    let c := cutRound rm a m e 0 false
    let v := sgn a c.1
    if v < -(2 ^ (w - 1)) then (-(2 ^ (w - 1)), fNV)
    else if 2 ^ (w - 1) - 1 < v then (2 ^ (w - 1) - 1, fNV)
    else (v, if c.2 then fNX else 0)

end Sys2Proof.Machine
end

