-- ==== Sys2Proof/Machine/Flags.lean ====
section
/-!
DEFINITION. VCSR: the rounding mode, FTZ and the sticky flags (Table 3-2).
-/

namespace Sys2Proof.Machine

/-- VCSR.RM. -/
def vcsrRm (t : Thread) : Nat := sfld t snVCSR 0 2

/-- VCSR.FTZ. -/
def vcsrFtz (t : Thread) : Bool := sbit t snVCSR 7

/-- The thread with flags OR-ed into VCSR: hardware only sets them (Table 3-2). -/
def vcsrFlags (t : Thread) (fl : Nat) : Thread := sput t snVCSR (sget t snVCSR ||| BitVec.ofNat 64 fl)

end Sys2Proof.Machine
end

