-- ==== Sys2Proof/Machine/Vector.lean ====
section
/-!
DEFINITION. Vector arithmetic, vector compares, VMISC and KOPS (Tables 4-16, 4-17, 4-19).
-/

namespace Sys2Proof.Machine

/-- Element `i` of `e` bits of a vector register (R88). -/
def elemGet (e : Nat) (v : Vec) (i : Nat) : Nat := bits v.toNat (i * e) e

/-- The vector register of a list of elements of `e` bits, element 0 first. -/
def vecOf (e : Nat) : List Nat → Nat
  | [] => 0
  | x :: r => x % 2 ^ e + 2 ^ e * vecOf e r

/-- The element size of an ESZ code, and the element count (R133, R154). -/
def eszBits (esz : BitVec 2) : Nat := 8 * 2 ^ esz.toNat
def eszCount (esz : BitVec 2) : Nat := 256 / eszBits esz

/-- Whether element `i` is active: in the scalar form only element 0, else as the lane mask says (R154, R155). -/
def vActive (t : Thread) (msk : PReg) (z : Bool) (i : Nat) : Bool :=
  if decide (msk = 0) && z then decide (i = 0) else (mget t msk).getLsbD i

/-- A destination whose active elements are `f` and whose others are kept or zeroed (R154, R155). -/
def vMerge (t : Thread) (vd : Reg) (msk : PReg) (z : Bool) (esz : BitVec 2) (f : Nat → Nat) : Vec :=
  BitVec.ofNat 256 (vecOf (eszBits esz) ((List.range (eszCount esz)).map fun i =>
    if vActive t msk z i then f i else if z then 0 else elemGet (eszBits esz) (vget t vd) i))

/-- A mask destination whose active bits are `f` and whose others are kept or cleared; bits from the element count up are
cleared (R156). -/
def kMerge (t : Thread) (vd : PReg) (msk : PReg) (z : Bool) (esz : BitVec 2) (f : Nat → Bool) : BitVec 32 :=
  BitVec.ofNat 32 (vecOf 1 ((List.range (eszCount esz)).map fun i =>
    b2n (if vActive t msk z i then f i else if z then false else (mget t vd).getLsbD i)))

/-- An element as a signed number. -/
def eInt (e x : Nat) : Int := if x < 2 ^ (e - 1) then (x : Int) else (x : Int) - 2 ^ e

/-- A vector instruction that writes a v register, element by element from elements of v[VS1], v[VS2] and v[VD]. -/
def runV (s : State) (h : Hart) (q : BitVec 4) (word : BitVec 32) (vd vs1 vs2 : Reg) (msk : PReg) (z : Bool) (esz : BitVec 2)
    (f : Nat → Nat → Nat → Nat) : Host.Outcome State Fault Refusal :=
  runInstr s h q { word := word, undef := !isDrover h, vec := .writes } fun s =>
    let t := tget s h
    let e := eszBits esz
    fin (tmod s h fun t' => vset t' vd (vMerge t vd msk z esz fun i => f e (elemGet e (vget t vs1) i) (elemGet e (vget t vs2) i)))
      h word

/-- A vector compare that writes m[VD] (R156). -/
def runK (s : State) (h : Hart) (q : BitVec 4) (word : BitVec 32) (vd vs1 vs2 : Reg) (msk : PReg) (z : Bool) (esz : BitVec 2)
    (f : Nat → Nat → Nat → Bool) : Host.Outcome State Fault Refusal :=
  runInstr s h q { word := word, undef := !isDrover h || !mregOk vd, vec := .writes } fun s =>
    let t := tget s h
    let e := eszBits esz
    fin (tmod s h fun t' => mset t' (mreg vd)
      (kMerge t (mreg vd) msk z esz fun i => f e (elemGet e (vget t vs1) i) (elemGet e (vget t vs2) i))) h word

/-- A floating-point vector instruction (R157): each active element's result, its flags OR-ed into VCSR. `f` takes the format,
the rounding mode, FTZ, and the elements of v[VD], v[VS1] and v[VS2]. -/
def runF (s : State) (h : Hart) (q : BitVec 4) (word : BitVec 32) (vd vs1 vs2 : Reg) (msk : PReg) (z : Bool) (esz : BitVec 2)
    (f : Fmt → Nat → Bool → Nat → Nat → Nat → Nat × Nat) : Host.Outcome State Fault Refusal :=
  runInstr s h q { word := word, undef := !isDrover h || decide (esz = 0), vec := .writes } fun s =>
    let t := tget s h
    let e := eszBits esz
    let g := fun i => f (fmtOf esz.toNat) (vcsrRm t) (vcsrFtz t) (elemGet e (vget t vd) i) (elemGet e (vget t vs1) i)
      (elemGet e (vget t vs2) i)
    let fl := ((List.range (eszCount esz)).filter (vActive t msk z)).foldl (fun a i => a ||| (g i).2) 0
    fin (tmod s h fun t' => vcsrFlags (vset t' vd (vMerge t vd msk z esz fun i => (g i).1)) fl) h word

/-- The value of an element in a format. -/
def fv (f : Fmt) (ftz : Bool) (v : Nat) : FVal := fUnpack f ftz v

/-- VADD (R154). Element-wise vector add. -/
def execVadd (h : Hart) (q : BitVec 4) (vd vs1 vs2 : Reg) (msk : PReg) (z : Bool) (esz : BitVec 2) (s : State) :
    Host.Outcome State Fault Refusal :=
  runV s h q (encV q 0x32 vd vs1 vs2 msk z esz false) vd vs1 vs2 msk z esz fun _ a b => a + b

/-- VSUB (R154). Element-wise vector subtract. -/
def execVsub (h : Hart) (q : BitVec 4) (vd vs1 vs2 : Reg) (msk : PReg) (z : Bool) (esz : BitVec 2) (s : State) :
    Host.Outcome State Fault Refusal :=
  runV s h q (encV q 0x32 vd vs1 vs2 msk z esz true) vd vs1 vs2 msk z esz fun e a b => a + 2 ^ e - b

/-- VMUL (R154). Low bits of element-wise product. -/
def execVmul (h : Hart) (q : BitVec 4) (vd vs1 vs2 : Reg) (msk : PReg) (z : Bool) (esz : BitVec 2) (s : State) :
    Host.Outcome State Fault Refusal :=
  runV s h q (encV q 0x33 vd vs1 vs2 msk z esz false) vd vs1 vs2 msk z esz fun _ a b => a * b

/-- VMULHU (R154). High bits of unsigned element-wise product. -/
def execVmulhu (h : Hart) (q : BitVec 4) (vd vs1 vs2 : Reg) (msk : PReg) (z : Bool) (esz : BitVec 2) (s : State) :
    Host.Outcome State Fault Refusal :=
  runV s h q (encV q 0x33 vd vs1 vs2 msk z esz true) vd vs1 vs2 msk z esz fun e a b => a * b / 2 ^ e

/-- VAND (R154). Element-wise AND. -/
def execVand (h : Hart) (q : BitVec 4) (vd vs1 vs2 : Reg) (msk : PReg) (z : Bool) (esz : BitVec 2) (s : State) :
    Host.Outcome State Fault Refusal :=
  runV s h q (encV q 0x34 vd vs1 vs2 msk z esz false) vd vs1 vs2 msk z esz fun _ a b => a &&& b

/-- VOR (R154). Element-wise OR. -/
def execVor (h : Hart) (q : BitVec 4) (vd vs1 vs2 : Reg) (msk : PReg) (z : Bool) (esz : BitVec 2) (s : State) :
    Host.Outcome State Fault Refusal :=
  runV s h q (encV q 0x34 vd vs1 vs2 msk z esz true) vd vs1 vs2 msk z esz fun _ a b => a ||| b

/-- VXOR (R154). Element-wise XOR. -/
def execVxor (h : Hart) (q : BitVec 4) (vd vs1 vs2 : Reg) (msk : PReg) (z : Bool) (esz : BitVec 2) (s : State) :
    Host.Outcome State Fault Refusal :=
  runV s h q (encV q 0x35 vd vs1 vs2 msk z esz false) vd vs1 vs2 msk z esz fun _ a b => a ^^^ b

/-- VANDN (R154). Element-wise AND with complement. -/
def execVandn (h : Hart) (q : BitVec 4) (vd vs1 vs2 : Reg) (msk : PReg) (z : Bool) (esz : BitVec 2) (s : State) :
    Host.Outcome State Fault Refusal :=
  runV s h q (encV q 0x35 vd vs1 vs2 msk z esz true) vd vs1 vs2 msk z esz fun e a b => a &&& (2 ^ e - 1 - b)

/-- VSLL (R154). Element-wise left shift. -/
def execVsll (h : Hart) (q : BitVec 4) (vd vs1 vs2 : Reg) (msk : PReg) (z : Bool) (esz : BitVec 2) (s : State) :
    Host.Outcome State Fault Refusal :=
  runV s h q (encV q 0x36 vd vs1 vs2 msk z esz false) vd vs1 vs2 msk z esz fun e a b => a * 2 ^ (b % e)

/-- VSRL (R154). Element-wise logical right shift. -/
def execVsrl (h : Hart) (q : BitVec 4) (vd vs1 vs2 : Reg) (msk : PReg) (z : Bool) (esz : BitVec 2) (s : State) :
    Host.Outcome State Fault Refusal :=
  runV s h q (encV q 0x36 vd vs1 vs2 msk z esz true) vd vs1 vs2 msk z esz fun e a b => a / 2 ^ (b % e)

/-- VSRA (R154). Element-wise arithmetic right shift. -/
def execVsra (h : Hart) (q : BitVec 4) (vd vs1 vs2 : Reg) (msk : PReg) (z : Bool) (esz : BitVec 2) (s : State) :
    Host.Outcome State Fault Refusal :=
  runV s h q (encV q 0x37 vd vs1 vs2 msk z esz false) vd vs1 vs2 msk z esz fun e a b => (eInt e a / 2 ^ (b % e) % 2 ^ e).toNat

/-- VMIN (R154). Element-wise signed minimum. -/
def execVmin (h : Hart) (q : BitVec 4) (vd vs1 vs2 : Reg) (msk : PReg) (z : Bool) (esz : BitVec 2) (s : State) :
    Host.Outcome State Fault Refusal :=
  runV s h q (encV q 0x38 vd vs1 vs2 msk z esz false) vd vs1 vs2 msk z esz fun e a b => if eInt e a < eInt e b then a else b

/-- VMAX (R154). Element-wise signed maximum. -/
def execVmax (h : Hart) (q : BitVec 4) (vd vs1 vs2 : Reg) (msk : PReg) (z : Bool) (esz : BitVec 2) (s : State) :
    Host.Outcome State Fault Refusal :=
  runV s h q (encV q 0x38 vd vs1 vs2 msk z esz true) vd vs1 vs2 msk z esz fun e a b => if eInt e a < eInt e b then b else a

/-- VCMPEQ (R156). Element-wise equality compare into a mask. -/
def execVcmpeq (h : Hart) (q : BitVec 4) (vd vs1 vs2 : Reg) (msk : PReg) (z : Bool) (esz : BitVec 2) (s : State) :
    Host.Outcome State Fault Refusal :=
  runK s h q (encV q 0x37 vd vs1 vs2 msk z esz true) vd vs1 vs2 msk z esz fun _ a b => decide (a = b)

/-- VCMPLT (R156). Element-wise signed less-than into a mask. -/
def execVcmplt (h : Hart) (q : BitVec 4) (vd vs1 vs2 : Reg) (msk : PReg) (z : Bool) (esz : BitVec 2) (s : State) :
    Host.Outcome State Fault Refusal :=
  runK s h q (encV q 0x39 vd vs1 vs2 msk z esz false) vd vs1 vs2 msk z esz fun e a b => decide (eInt e a < eInt e b)

/-- VFCMPLT (R157). Element-wise floating-point less-than into a mask. -/
def execVfcmplt (h : Hart) (q : BitVec 4) (vd vs1 vs2 : Reg) (msk : PReg) (z : Bool) (esz : BitVec 2) (s : State) :
    Host.Outcome State Fault Refusal :=
  let w := encV q 0x39 vd vs1 vs2 msk z esz true
  runInstr s h q { word := w, undef := !isDrover h || decide (esz = 0) || !mregOk vd, vec := .writes } fun s =>
    let t := tget s h
    let e := eszBits esz
    let f := fmtOf esz.toNat
    let g := fun i => fCmpLt (fv f (vcsrFtz t) (elemGet e (vget t vs1) i)) (fv f (vcsrFtz t) (elemGet e (vget t vs2) i))
    let fl := ((List.range (eszCount esz)).filter (vActive t msk z)).foldl (fun a i => a ||| (g i).2) 0
    fin (tmod s h fun t' => vcsrFlags (mset t' (mreg vd) (kMerge t (mreg vd) msk z esz fun i => (g i).1)) fl) h w

/-- VFADD (R157). Floating-point add. -/
def execVfadd (h : Hart) (q : BitVec 4) (vd vs1 vs2 : Reg) (msk : PReg) (z : Bool) (esz : BitVec 2) (s : State) :
    Host.Outcome State Fault Refusal :=
  runF s h q (encV q 0x3A vd vs1 vs2 msk z esz false) vd vs1 vs2 msk z esz fun f rm z _ a b => fAdd f rm z (fv f z a) (fv f z b)

/-- VFSUB (R157). Floating-point subtract. -/
def execVfsub (h : Hart) (q : BitVec 4) (vd vs1 vs2 : Reg) (msk : PReg) (z : Bool) (esz : BitVec 2) (s : State) :
    Host.Outcome State Fault Refusal :=
  runF s h q (encV q 0x3A vd vs1 vs2 msk z esz true) vd vs1 vs2 msk z esz fun f rm z _ a b => fAdd f rm z (fv f z a) (fNegV (fv f z b))

/-- VFMUL (R157). Floating-point multiply. -/
def execVfmul (h : Hart) (q : BitVec 4) (vd vs1 vs2 : Reg) (msk : PReg) (z : Bool) (esz : BitVec 2) (s : State) :
    Host.Outcome State Fault Refusal :=
  runF s h q (encV q 0x3B vd vs1 vs2 msk z esz false) vd vs1 vs2 msk z esz fun f rm z _ a b => fMul f rm z (fv f z a) (fv f z b)

/-- VFDIV (R157). Floating-point divide. -/
def execVfdiv (h : Hart) (q : BitVec 4) (vd vs1 vs2 : Reg) (msk : PReg) (z : Bool) (esz : BitVec 2) (s : State) :
    Host.Outcome State Fault Refusal :=
  runF s h q (encV q 0x3B vd vs1 vs2 msk z esz true) vd vs1 vs2 msk z esz fun f rm z _ a b => fDiv f rm z (fv f z a) (fv f z b)

/-- VFMA (R157). Fused multiply-add. -/
def execVfma (h : Hart) (q : BitVec 4) (vd vs1 vs2 : Reg) (msk : PReg) (z : Bool) (esz : BitVec 2) (s : State) :
    Host.Outcome State Fault Refusal :=
  runF s h q (encV q 0x3C vd vs1 vs2 msk z esz false) vd vs1 vs2 msk z esz fun f rm z d a b => fFma f rm z (fv f z d) (fv f z a) (fv f z b)

/-- VFNMA (R157). Fused negated multiply-add. -/
def execVfnma (h : Hart) (q : BitVec 4) (vd vs1 vs2 : Reg) (msk : PReg) (z : Bool) (esz : BitVec 2) (s : State) :
    Host.Outcome State Fault Refusal :=
  runF s h q (encV q 0x3C vd vs1 vs2 msk z esz true) vd vs1 vs2 msk z esz fun f rm z d a b => fFma f rm z (fv f z d) (fNegV (fv f z a)) (fv f z b)

/-- VFMIN (R157). Floating-point minimum. -/
def execVfmin (h : Hart) (q : BitVec 4) (vd vs1 vs2 : Reg) (msk : PReg) (z : Bool) (esz : BitVec 2) (s : State) :
    Host.Outcome State Fault Refusal :=
  runF s h q (encV q 0x3D vd vs1 vs2 msk z esz false) vd vs1 vs2 msk z esz fun f _ z _ a b => fMinMax f z false a b

/-- VFMAX (R157). Floating-point maximum. -/
def execVfmax (h : Hart) (q : BitVec 4) (vd vs1 vs2 : Reg) (msk : PReg) (z : Bool) (esz : BitVec 2) (s : State) :
    Host.Outcome State Fault Refusal :=
  runF s h q (encV q 0x3D vd vs1 vs2 msk z esz true) vd vs1 vs2 msk z esz fun f _ z _ a b => fMinMax f z true a b

/-- VBCAST (R154). Broadcast an x register into active elements. -/
def execVbcast (h : Hart) (q : BitVec 4) (vd vs1 : Reg) (msk : PReg) (z : Bool) (esz : BitVec 2) (s : State) :
    Host.Outcome State Fault Refusal :=
  let w := encV q 0x3E vd vs1 0 msk z esz false
  runInstr s h q { word := w, undef := !isDrover h, vec := .writes } fun s =>
    let t := tget s h
    fin (tmod s h fun t' => vset t' vd (vMerge t vd msk z esz fun _ => (xget t vs1).toNat)) h w

/-- VCVT_IF (R157). Convert signed integer elements to floating point. -/
def execVcvtIf (h : Hart) (q : BitVec 4) (vd vs1 : Reg) (msk : PReg) (z : Bool) (esz : BitVec 2) (s : State) :
    Host.Outcome State Fault Refusal :=
  runF s h q (encV q 0x3E vd vs1 1 msk z esz false) vd vs1 0 msk z esz fun f rm z _ a _ =>
    fFromInt f rm z (eInt (1 + f.eb + f.mb) a)

/-- VCVT_FI (R157). Convert floating-point elements to signed integers. -/
def execVcvtFi (h : Hart) (q : BitVec 4) (vd vs1 : Reg) (msk : PReg) (z : Bool) (esz : BitVec 2) (s : State) :
    Host.Outcome State Fault Refusal :=
  runF s h q (encV q 0x3E vd vs1 2 msk z esz false) vd vs1 0 msk z esz fun f rm z _ a _ =>
    let r := fToInt (1 + f.eb + f.mb) rm (fv f z a)
    ((r.1 % 2 ^ (1 + f.eb + f.mb)).toNat, r.2)

/-- VFSQRT (R157). Floating-point square root. -/
def execVfsqrt (h : Hart) (q : BitVec 4) (vd vs1 : Reg) (msk : PReg) (z : Bool) (esz : BitVec 2) (s : State) :
    Host.Outcome State Fault Refusal :=
  runF s h q (encV q 0x3E vd vs1 3 msk z esz false) vd vs1 0 msk z esz fun f rm z _ a _ => fSqrt f rm z (fv f z a)

/-- VMOVV (R154). Copy active elements from another vector. -/
def execVmovv (h : Hart) (q : BitVec 4) (vd vs1 : Reg) (msk : PReg) (z : Bool) (esz : BitVec 2) (s : State) :
    Host.Outcome State Fault Refusal :=
  runV s h q (encV q 0x3E vd vs1 4 msk z esz false) vd vs1 0 msk z esz fun _ a _ => a

/-- VEXT (R154). Extract one element into an x register. An index at or above the element count encodes no instruction. -/
def execVext (h : Hart) (q : BitVec 4) (rd vs1 : Reg) (idx : BitVec 5) (esz : BitVec 2) (s : State) :
    Host.Outcome State Fault Refusal :=
  let w := encV q 0x3E rd vs1 idx 0 false esz true
  runInstr s h q { word := w, undef := !isDrover h || decide (eszCount esz ≤ idx.toNat), vec := .reads } fun s =>
    fin (tmod s h fun t => xset t rd (BitVec.ofNat 64 (elemGet (eszBits esz) (vget t vs1) idx.toNat))) h w

/-- KAND (R135). Mask AND. -/
def execKand (h : Hart) (q : BitVec 4) (rd rs1 rs2 : Reg) (s : State) : Host.Outcome State Fault Refusal :=
  let w := encR q 0x2C rd rs1 rs2 0x00
  runInstr s h q { word := w, undef := !isDrover h || !mregOk rd || !mregOk rs1 || !mregOk rs2, vec := .writes } fun s =>
    let a := mget (tget s h) (mreg rs1)
    let b := mget (tget s h) (mreg rs2)
    fin (tmod s h fun t => mset t (mreg rd) (a &&& b)) h w

/-- KOR (R135). Mask OR. -/
def execKor (h : Hart) (q : BitVec 4) (rd rs1 rs2 : Reg) (s : State) : Host.Outcome State Fault Refusal :=
  let w := encR q 0x2C rd rs1 rs2 0x01
  runInstr s h q { word := w, undef := !isDrover h || !mregOk rd || !mregOk rs1 || !mregOk rs2, vec := .writes } fun s =>
    let a := mget (tget s h) (mreg rs1)
    let b := mget (tget s h) (mreg rs2)
    fin (tmod s h fun t => mset t (mreg rd) (a ||| b)) h w

/-- KXOR (R135). Mask XOR. -/
def execKxor (h : Hart) (q : BitVec 4) (rd rs1 rs2 : Reg) (s : State) : Host.Outcome State Fault Refusal :=
  let w := encR q 0x2C rd rs1 rs2 0x02
  runInstr s h q { word := w, undef := !isDrover h || !mregOk rd || !mregOk rs1 || !mregOk rs2, vec := .writes } fun s =>
    let a := mget (tget s h) (mreg rs1)
    let b := mget (tget s h) (mreg rs2)
    fin (tmod s h fun t => mset t (mreg rd) (a ^^^ b)) h w

/-- KANDN (R135). Mask AND with complement. -/
def execKandn (h : Hart) (q : BitVec 4) (rd rs1 rs2 : Reg) (s : State) : Host.Outcome State Fault Refusal :=
  let w := encR q 0x2C rd rs1 rs2 0x03
  runInstr s h q { word := w, undef := !isDrover h || !mregOk rd || !mregOk rs1 || !mregOk rs2, vec := .writes } fun s =>
    let a := mget (tget s h) (mreg rs1)
    let b := mget (tget s h) (mreg rs2)
    fin (tmod s h fun t => mset t (mreg rd) (a &&& ~~~b)) h w

/-- KMOV_X (R135). Move an x register into a mask. DESIGN CHOICE (log entry 86): an instruction whose only m destination is m0 is one that
writes an m register (R91), though the write is ignored. -/
def execKmovX (h : Hart) (q : BitVec 4) (rd rs1 : Reg) (s : State) : Host.Outcome State Fault Refusal :=
  let w := encR q 0x2C rd rs1 0 0x04
  runInstr s h q { word := w, undef := !isDrover h || !mregOk rd, vec := .writes } fun s =>
    fin (tmod s h fun t => mset t (mreg rd) ((xget t rs1).setWidth 32)) h w

/-- KMOV_R (R135). Move a mask into an x register. Reading the fixed value of m0 uses no vector state (R91). -/
def execKmovR (h : Hart) (q : BitVec 4) (rd rs1 : Reg) (s : State) : Host.Outcome State Fault Refusal :=
  let w := encR q 0x2C rd rs1 0 0x05
  runInstr s h q { word := w, undef := !isDrover h || !mregOk rs1, vec := if mreg rs1 = 0 then .none else .reads } fun s =>
    fin (tmod s h fun t => xset t rd ((mget t (mreg rs1)).setWidth 64)) h w

end Sys2Proof.Machine
end

