-- ==== Sys2Proof/Machine/MemAcc.lean ====
section
/-!
DEFINITION. Data accesses of threads: their checks in the order of Table 3-11, and what loads, stores, exclusives and atomics do with
memory and with device-class space (R108, R113, R144 to R152, R180 to R187, R379 to R383).
-/

namespace Sys2Proof.Machine

/-! ## Parts of an access -/

/-- A data access: what it is (0 a load or store, 1 LDX, 2 STX, 16 + OP an AMO), its kind of Table 7-6, whether D has to be set, its
size, whether it is an element of a vector access, whether it is never forwarded (Table 5-7), and whether it is an acquire or a
release (R216). -/
structure AccReq where
  kind : Nat
  ak : AKind
  needD : Bool
  n : Nat
  vec : Bool
  noFwd : Bool
  aq : Bool
  rel : Bool
deriving DecidableEq, Repr

/-- A part of an access that does not cross an 8-byte boundary: virtual address, size, half, its translation (R185), and the type of its
page as in `StoreEnt`. -/
structure Piece where
  va : Nat
  n : Nat
  half : Nat
  tran : Tran
  attr : Nat
deriving DecidableEq, Repr

/-- The physical address of a part. -/
def Piece.pa (p : Piece) : Nat := p.tran.pa

/-- The halves of an access of `n` bytes (R185). -/
def halves (va n : Nat) : List (Nat × Nat × Nat) :=
  let k := 8 - va % 8
  if n ≤ k then [(va, n, 0)] else [(va, k, 0), ((va + k) % 2 ^ 64, n - k, 1)]

/-- A translated access that has none: an exception, or a line to wait for. -/
inductive AccErr where
  | exc (e : Exc)
  | wait
deriving DecidableEq, Repr

/-- The translation of one part: by the thread's regime, or on a core that does not translate by its own decode (R176, R368, R370, R607).
An Outrider's STX needs to read as well as to write. -/
def accTranslate (s : State) (h : Hart) (r : AccReq) (va half : Nat) : State × Except AccErr Tran :=
  if isDrover h then
    match translate s h r.ak r.needD va with
    | (s1, .ok t) => (s1, .ok t)
    | (s1, .error e) =>
      match tranExc s1 h r.ak va half e with
      | (s2, some x) => (s2, .error (.exc x))
      | (s2, none) => (s2, .error .wait)
  else
    match physAddr s h (if r.kind = 2 then .rw else r.ak) va with
    | .ok a => (s, .ok ⟨a, 0, none, none, []⟩)
    | .error c => (s, .error (.exc ⟨cDTRANS, va, tfaultInfo c 0 0 0 0 r.ak.code half, none⟩))

/-- The type of the page of a translated address (R241): on a core that does not translate, NC where it keeps no copy (R370, R607). -/
def partType (s : State) (h : Hart) (t : Tran) : Nat :=
  if isDrover h then pageType (regimeOf h (tget s h)) t else if uncached s h t.pa then 2 else 0

/-- The translations of the parts of an access, lower half first. -/
def accParts (s : State) (h : Hart) (r : AccReq) : List (Nat × Nat × Nat) → State × Except AccErr (List Piece)
  | [] => (s, .ok [])
  | (va, n, half) :: l =>
    let half := if r.vec then 0 else half
    match accTranslate s h r va half with
    | (s1, .error e) => (s1, .error e)
    | (s1, .ok t) =>
      match accParts s1 h r l with
      | (s2, .error e) => (s2, .error e)
      | (s2, .ok ps) => (s2, .ok (⟨va, n, half, t, partType s1 h t⟩ :: ps))

/-! ## Watchpoints (R552) -/

/-- Whether watchpoint `k` of a thread matches a byte address for an access that reads (`ld`) or writes (`st`). -/
def watchMatch (t : Thread) (ld st : Bool) (va k : Nat) : Bool :=
  let c := (sget t (snWP_CTL + k)).toNat
  let m := min 56 (bits c 3 6)
  bit c 0 && ((ld && bit c 1) || (st && bit c 2)) && bit c (9 + levelCode t.level) &&
  decide (va / 2 ^ m = (sget t (snWP_ADDR + k)).toNat / 2 ^ m)

/-- The lowest byte address of an access that a watchpoint matches. -/
def watchHit (s : State) (h : Hart) (ak : AKind) (va n : Nat) : Option Nat :=
  let t := tget s h
  if !dbgInv s t.world then none
  else
    let ld := !decide (ak = .write)
    ((List.range n).map fun i => (va + i) % 2 ^ 64).find? fun a => (List.range 4).any (watchMatch t ld ak.writes a)

/-! ## Bus checks (Table 3-12) -/

/-- Whether a configuration address is a waybill doorbell of a tile, in whatever package (R354). -/
def isDoorbell (cfg : Nat) : Bool :=
  match stopOf (bits cfg 22 8) with
  | some st => decide (stopKind st = .tile ∧ bits cfg 16 6 = 5 ∧ 0x4000 ≤ cfg % 0x10000 ∧ cfg % 0x10000 < 0x6000)
  | none => false

/-- Whether a Waystation pair's address is its boot ROM. -/
def inRom (h : Hart) (pa : Nat) : Bool :=
  match h with
  | .waystation d => decide (wsMemBase d.val + 0x100000 ≤ pa ∧ pa < wsMemBase d.val + 0x110000)
  | _ => false

/-- Whether a Waystation's access outside its own memory finds the package asleep (Table 20-1). -/
def wsAsleep (s : State) (h : Hart) : Bool :=
  match h with
  | .waystation _ => decide (pkgState s ≠ 0)
  | _ => false

/-- KIND and CODE of the bus error of a part of an access that is decided before anything is sent (R35, R43, R59, R354, Tables 4-14,
20-1); `whole` says that the part is the whole access. -/
def busErr (s : State) (h : Hart) (r : AccReq) (whole : Bool) (p : Piece) : Option (Nat × Nat) :=
  let asleep := if wsAsleep s h then some (2, 2) else none
  match devTarget s h p.pa with
  | .nothing => some (0, 0)
  | .regs cfg =>
    if isDoorbell cfg && (match h with | .waystation _ => false | _ => true) then some (1, 0)
    else if r.kind = 0 ∧ r.vec = false ∧ whole = true ∧ r.n = 4 ∧ p.pa % 4 = 0 then none
    else some (1, 0)
  | .boot _ => if r.ak.writes then some (3, 0) else none
  | .pcie _ _ => if r.kind = 0 ∨ r.kind = 16 ∨ r.kind = 17 ∨ r.kind = 25 then none else some (4, 1)
  | .remotePcie _ => if r.kind = 0 ∨ r.kind = 16 ∨ r.kind = 17 ∨ r.kind = 25 then none else some (4, 1)
  | .tcm a => if r.ak.writes && inRom h a then some (0, 0) else none
  | _ => asleep

/-- A world violation by a thread's access that maps to nothing (R541). -/
def accViolation (s : State) (h : Hart) (pa : Nat) : State :=
  match violationKind s (tget s h).world pa with
  | some k => violation s (hartLocus (pkgNum s) h) k 0
  | none => s

/-- The address that DBUS reports for a part (Table 3-8): physical, which is a core's own address where it does not translate. -/
def busVal (h : Hart) (p : Piece) : Nat := if isDrover h then p.pa else p.va

/-- The checks of one access after ALIGN, in the order of Table 3-11: translation, watchpoints, bus (R113, R158, R186). -/
def accCheck (s : State) (h : Hart) (r : AccReq) (va : Nat) : State × Except AccErr (List Piece) :=
  match accParts s h r (halves va r.n) with
  | (s1, .error e) => (s1, .error e)
  | (s1, .ok ps) =>
    match watchHit s1 h r.ak va r.n with
    | some a => (s1, .error (.exc ⟨cWATCH, a, 0, none⟩))
    | none =>
      match ps.find? fun p => (busErr s1 h r (decide (ps.length = 1)) p).isSome with
      | some p =>
        let k := (busErr s1 h r (decide (ps.length = 1)) p).getD (0, 0)
        (accViolation s1 h p.pa, .error (.exc (dbus (busVal h p) k.1 k.2 p.half)))
      | none => (s1, .ok ps)

/-- Whether a misaligned access raises ALIGN (R144, R147). -/
def mustAlign (s : State) (h : Hart) (r : AccReq) : Bool := decide (r.kind ≠ 0) || sbit (tget s h) snTHR_CTL 5

/-! ## Bytes -/

/-- The bytes of the parts, each with what a store gives it. -/
def accSlices (ps : List Piece) (d : List Byte) : List MAcc :=
  match ps with
  | [] => []
  | p :: l => ⟨p.va, p.pa, p.n, d.take p.n, p.half, p.attr⟩ :: accSlices l (d.drop p.n)

/-- The lines that the parts in memory lie in, each once, with their use. -/
def partLines (write : Bool) (ps : List Piece) : List (LineUse × Nat) :=
  ps.foldl (fun l p =>
    if isDevice p.pa || l.any (fun e => decide (e.2 / 64 = p.pa / 64)) then l else l ++ [(dataUse write p.attr p.va, p.pa)]) []

/-- The pages that an access writes, in whose leaves D is set (R248): a core that does not translate has none. -/
def partPages (h : Hart) (r : AccReq) (ps : List Piece) : Pages :=
  if r.needD && isDrover h then ps.map fun p => (p.va, p.tran.s1, p.tran.s2) else []

/-- The lines of the parts for an access that reads: there, or the first poisoned address that it reads (R445), a line of CXL memory whose
link is down among them (R435), or not there yet. -/
inductive LineRes where
  | there
  | poison (a : Nat)
  | wait
deriving DecidableEq, Repr

/-- The parts' lines taken for an access that reads them. -/
def readLines (s : State) (h : Hart) (write : Bool) (ps : List Piece) : State × LineRes :=
  match ps.find? fun p => cxlGone s p.pa with
  | some p => (cxlDown s p.pa, .poison p.pa)
  | none =>
    let l := linesTake s h (partLines write ps)
    if !l.2 then (l.1, .wait)
    else
      match ps.find? fun p => poisoned l.1 p.pa p.n with
      | some p => (l.1, .poison (firstPoison l.1 p.pa p.n))
      | none => (l.1, .there)

/-- A consumption of poison at the access. -/
def accConsume (s : State) (h : Hart) (a : Nat) : Eff :=
  let c := consume s h 3 a
  .exc c.1 c.2

/-- What an access records at its retirement: bit 6 of FLAGS is a split, 7 a forward, 8 a replay (Table 18-4). -/
def accInfo (w : BitVec 32) (va : Nat) (r : AccReq) (ps : List Piece) : RetInfo :=
  let split := !r.vec && decide (1 < ps.length)
  let evs := (if r.ak = .write then [evSTORE] else [evLOAD]) ++ (if split then [evSPLIT] else [])
  ⟨w, va, (ps.head?.map Piece.pa).getD 0, evs, if split then 64 else 0⟩

/-! ## Loads and stores of a Drover thread to memory -/

/-- Whether a committed store overlaps bytes. -/
def storeHits (e : StoreEnt) (pa n : Nat) : Bool := decide (e.pa < pa + n ∧ pa < e.pa + e.bytes.length)

/-- The youngest older store that overlaps a load (R181): its entries. -/
def youngest (t : Thread) (ps : List Piece) : List StoreEnt :=
  match (t.stores.filter fun e => ps.any fun p => storeHits e p.pa p.n).getLast? with
  | some e => t.stores.filter fun x => x.seq = e.seq
  | none => []

/-- The byte that entries hold for an address. -/
def storeByte (l : List StoreEnt) (a : Nat) : Option Byte :=
  l.reverse.findSome? fun e => if e.pa ≤ a then e.bytes[a - e.pa]? else none

/-- The bytes of a load where every one of them lies in the entries. -/
def storeBytes (l : List StoreEnt) (ps : List Piece) : Option (List Byte) :=
  (ps.flatMap fun p => (List.range p.n).map fun i => p.pa + i).mapM (storeByte l)

/-- The bytes of the parts in memory. -/
def partBytes (s : State) (ps : List Piece) : List Byte := ps.flatMap fun p => memRead s p.pa p.n

/-- What a load does with its bytes, and LDX with the reservation. -/
def loadDone (s : State) (h : Hart) (r : AccReq) (f : MFin) (b : List Byte) (info : RetInfo) : Eff :=
  .done (tmod s h fun t => exclEnd r.kind info.pa r.n (finWrite t f b)) ((tget s h).pc + 4) info

/-- How many committed stores there are up to the last release (R216). -/
def relDepth (l : List StoreEnt) : Nat :=
  match l with
  | [] => 0
  | e :: r => let k := relDepth r; if k = 0 then (if e.rel then 1 else 0) else k + 1

/-- The stores before an access that have to be written first are (Table 6-1): of one that acquires those up to the last release,
of one that releases all. -/
def orderFirst (s : State) (h : Hart) (aq rel : Bool) : State × Bool :=
  if rel then
    let s1 := drainAll s h
    (s1, drained s1 h)
  else if aq then
    let s1 := drainStores s h (relDepth (tget s h).stores)
    (s1, decide (relDepth (tget s1 h).stores = 0))
  else (s, true)

/-- A load of a Drover thread from memory (Table 5-7), after the stores that Table 6-1 puts before it. -/
def droverLoad (s0 : State) (h : Hart) (r : AccReq) (f : MFin) (info : RetInfo) (ps : List Piece) : Eff :=
  let o := orderFirst s0 h r.aq r.rel
  let s := o.1
  if !o.2 then .stay s
  else
    let old := youngest (tget s h) ps
    match old.head? with
    | none =>
      match readLines s h false ps with
      | (s1, .wait) => .stay s1
      | (s1, .poison a) => accConsume s1 h a
      | (s1, .there) => loadDone s1 h r f (partBytes s1 ps) info
    | some e =>
      let fwd := if r.noFwd || old.any (fun x => x.vec) then none else storeBytes old ps
      match fwd with
      | some b => loadDone s h r f b { info with events := info.events ++ [evFWD], flags := info.flags + 128 }
      | none =>
        let op : MemOp := ⟨r.kind, accSlices ps [], [], f, { info with events := info.events ++ [evREPLAY], flags := info.flags + 256 }, []⟩
        .stay (tmod s h fun t => { t with park := some (.replay e.seq op) })

/-- The entries of one store: one, or two where it crosses a line (R186); `vec` marks one that never forwards, `rel` a release. -/
def storeEnts (q : Nat) (vec rel : Bool) : List MAcc → List StoreEnt
  | [] => []
  | [a] => [⟨q, a.va, a.pa, a.data, false, vec, false, rel, a.attr⟩]
  | a :: b :: l =>
    if b.pa = a.pa + a.n ∧ b.pa / 64 = a.pa / 64 ∧ l = [] then [⟨q, a.va, a.pa, a.data ++ b.data, false, vec, false, rel, a.attr⟩]
    else ⟨q, a.va, a.pa, a.data, true, vec, false, rel, a.attr⟩ :: storeEnts q vec rel (b :: l)

/-- A store joins the thread's committed stores. -/
def pushStore (s : State) (h : Hart) (vec rel : Bool) (l : List MAcc) : State :=
  let q := s.cpu.seqNo
  let s1 := tmod s h fun t => { t with stores := t.stores ++ storeEnts q vec rel l }
  { s1 with cpu := { s1.cpu with seqNo := q + 1 } }

/-- The number of stores in a list of their entries. -/
def storeCount (l : List StoreEnt) : Nat := (l.map (·.seq)).eraseDups.length

/-- Whether a Drover thread's store queue is full (R168, R169): 64 entries while the core's other thread runs, 128 while it does not. -/
def storesFull (s : State) (h : Hart) : Bool :=
  let other : Bool := match h with
    | .drover st c t => decide ((tget s (.drover st c (if t.val = 0 then 1 else 0))).run = .running)
    | _ => false
  decide ((if other then 64 else 128) ≤ storeCount (tget s h).stores)

/-- A store of a Drover thread to memory commits, with the D updates of its pages (R182, R186, R249). -/
def droverStore (s : State) (h : Hart) (r : AccReq) (d : List Byte) (info : RetInfo) (ps : List Piece) : Eff :=
  let s0 := if storesFull s h then drainOne s h else s
  if storesFull s0 h then .stay s0
  else
    let c := commitReady s0 h (partPages h r ps)
    if !c.2 then .stay c.1
    else .done (pushStore (commitPages c.1 h (partPages h r ps)) h r.noFwd r.rel (accSlices ps d)) ((tget s h).pc + 4) info

/-- The write of an AMO or STX at its place in coherence order; in a locked tile it waits for its group, its line pinned (R472). -/
def orderedWrite (s : State) (h : Hart) (rel : Bool) (a : MAcc) : State :=
  if hartLocked s h then
    let s1 := pushStore s h false rel [a]
    { s1 with lock := { s1.lock with pins := s1.lock.pins ++ [(hartKey h, a.pa / 64)] } }
  else agentWrite s (some h) a.pa a.data

/-- The one access of an AMO or STX that writes bytes. -/
def wordAcc (ps : List Piece) (d : List Byte) : MAcc := (accSlices ps d).head?.getD ⟨0, 0, 0, [], 0, 0⟩

/-- Whether the thread's reservation is for an address and size (R148, R217). -/
def resvHolds (s : State) (h : Hart) (pa n : Nat) : Bool := decide ((tget s h).resv = some ⟨pa, n⟩)

/-- An STX that fails writes nothing and answers 1 (R149). -/
def stxFail (s : State) (h : Hart) (f : MFin) (info : RetInfo) : Eff :=
  .done (tmod s h fun t => exclEnd 2 0 0 (finWrite t f [1])) ((tget s h).pc + 4) { info with events := [evSTX_FAIL] }

/-- An STX to memory, once the earlier stores of the thread are written and the line is held (R149, R217). -/
def stxMem (s : State) (h : Hart) (r : AccReq) (d : List Byte) (f : MFin) (info : RetInfo) (ps : List Piece) : Eff :=
  if !resvHolds s h info.pa r.n then stxFail s h f info
  else
    let s1 := drainAll s h
    let l := linesTake s1 h (partLines true ps)
    if !drained s1 h then .stay s1
    else if !l.2 then .stay l.1
    else
      let g := lockGate l.1 h
      let c := commitReady g.2 h (partPages h r ps)
      if !g.1 then .stay g.2
      else if !c.2 then .stay c.1
      else
        let s2 := orderedWrite (commitPages c.1 h (partPages h r ps)) h r.rel (wordAcc ps d)
        .done (tmod s2 h fun t => exclEnd 2 0 0 (finWrite t f [0])) ((tget s h).pc + 4) info

/-- An AMO on memory, indivisible once the earlier stores of the thread are written and the line is held (R151, R217): `d` holds x[rs2]
and, for CAS, what it expects. -/
def amoMem (s : State) (h : Hart) (r : AccReq) (d : List Byte) (f : MFin) (info : RetInfo) (ps : List Piece) : Eff :=
  let s1 := drainAll s h
  if !drained s1 h then .stay s1
  else
    match readLines s1 h true ps with
    | (s2, .wait) => .stay s2
    | (s2, .poison a) => accConsume s2 h a
    | (s2, .there) =>
      let g := lockGate s2 h
      if !g.1 then .stay g.2
      else
        let old := memRead s2 info.pa r.n
        match amoNew (r.kind - 16) r.n (leNat old) (leNat (d.take r.n)) (leNat (d.drop r.n)) with
        | some v =>
          let c := commitReady g.2 h (partPages h r ps)
          if !c.2 then .stay c.1
          else
            let s3 := orderedWrite (commitPages c.1 h (partPages h r ps)) h r.rel (wordAcc ps (natLe r.n v))
            loadDone s3 h r f old { info with events := [evLOAD, evSTORE, evAMO] }
        | none => loadDone g.2 h r f old { info with events := [evLOAD, evAMO] }

/-! ## Cores that do not translate (R379 to R383, R607) -/

/-- A load of an Outrider or the Waystation from memory; bytes of the store buffer come before those of memory (R380). One that acquires
issues after every earlier release (R226). -/
def physLoad (s0 : State) (h : Hart) (r : AccReq) (f : MFin) (info : RetInfo) (ps : List Piece) : Eff :=
  let o := orderFirst s0 h r.aq false
  let c := if ps.any fun p => needsCourier o.1 h p.pa then courier o.1 h 2 else (o.1, true)
  if !o.2 then .stay (stall o.1 h 5)
  else if !c.2 then .stay c.1
  else
    match readLines c.1 h false ps with
    | (s1, .wait) => .stay s1
    | (s1, .poison a) => accConsume s1 h a
    | (s1, .there) =>
      let st := (tget s1 h).stores
      loadDone s1 h r f (ps.flatMap fun p => (List.range p.n).map fun i => (storeByte st (p.pa + i)).getD (memGet s1 (p.pa + i))) info

/-- An Outrider's stores before one that releases are written first (R226); whether none is left. -/
def releaseFirst (s : State) (h : Hart) (rel : Bool) : State × Bool :=
  if !rel || drained s h then (s, true)
  else
    let s1 := drainAll (stall s h 5) h
    (s1, drained s1 h)

/-- A store of an Outrider or the Waystation to memory: to the core's own memory at once where no store is in front of it, otherwise through
an Outrider's two-entry store buffer (R379). -/
def physStore (s : State) (h : Hart) (r : AccReq) (d : List Byte) (info : RetInfo) (ps : List Piece) : Eff :=
  let pc := (tget s h).pc + 4
  let a := releaseFirst s h r.rel
  if !a.2 then .stay a.1
  else if 2 ^ 52 ≤ info.pa ∧ drained a.1 h = true then .done (agentWrite a.1 (some h) info.pa d) pc info
  else
    match h with
    | .outrider _ =>
      if pkgState s ≠ 0 then .stay (courier a.1 h 4).1
      else
        let s1 := if 2 ≤ (tget a.1 h).stores.length then drainOne (stall a.1 h 4) h else a.1
        if 2 ≤ (tget s1 h).stores.length then .stay s1
        else .done (pushStore s1 h false r.rel (accSlices ps d)) pc info
    | _ =>
      let l := linesTake a.1 h (partLines true ps)
      if l.2 then .done (agentWrite l.1 (some h) info.pa d) pc info else .stay l.1

/-- Whether the home of a line still carries the Courier bit of an Outrider's die, so that it performs its STX (R383); for a line of
another package that package decides. -/
def courierBit (s : State) (h : Hart) (pa : Nat) : Bool :=
  match h, homeOf s pa with
  | .outrider n, some st =>
    (match sfFind (sliceGet s st) (pa / 64) with
     | some (_, e) => bit e.courier (n.val / 8)
     | none => false)
  | _, _ => true

/-- An STX or AMO of an Outrider or the Waystation on memory: in the core's own memory, or performed at the home slice (R382, R383). -/
def physOrdered (s : State) (h : Hart) (r : AccReq) (d : List Byte) (f : MFin) (info : RetInfo) (ps : List Piece) : Eff :=
  let go := fun s : State => if r.kind = 2 then stxMem s h r d f info ps else amoMem s h r d f info ps
  if 2 ^ 52 ≤ info.pa then go s
  else if r.kind = 2 ∧ resvHolds s h info.pa r.n = false then stxFail s h f info
  else
    let c := courier s h 6
    if !c.2 then .stay c.1
    else if r.kind = 2 ∧ courierBit c.1 h info.pa = false then stxFail c.1 h f info
    else go c.1

/-! ## Device-class accesses (R38, R146, R219, R470, R471) -/

/-- The smallest set of naturally aligned accesses that covers an access of `n` bytes, lowest first (R146). -/
def natural (a : MAcc) (fuel : Nat) : List MAcc :=
  match fuel with
  | 0 => []
  | fuel + 1 =>
    if a.n = 0 then []
    else
      let k := if a.pa % 8 = 0 ∧ 8 ≤ a.n then 8 else if a.pa % 4 = 0 ∧ 4 ≤ a.n then 4 else if a.pa % 2 = 0 ∧ 2 ≤ a.n then 2 else 1
      { a with n := k, data := a.data.take k } ::
        natural { a with va := a.va + k, pa := a.pa + k, n := a.n - k, data := a.data.drop k } fuel

/-- The accesses that are sent for the parts of a device-class instruction; an atomic's is one, with its operands. -/
def devAccs (r : AccReq) (ps : List Piece) (d : List Byte) : List MAcc :=
  if r.kind = 0 then (accSlices ps d).flatMap fun a => if isDevice a.pa then natural a 8 else [a]
  else ps.map fun p => ⟨p.va, p.pa, p.n, d, p.half, p.attr⟩

/-- A response in the replay latch is taken by the re-executed instruction (R471). -/
def latchTake (s : State) (h : Hart) (r : AccReq) (l : Latch) (f : MFin) (info : RetInfo) (ps : Pages) : State :=
  match l.err with
  | some (16, p) =>
    let e := consume s h 3 p
    memFault e.1 h e.2 info.word
  | some (k, c) => memFault s h (dbus l.fpa k c l.fhalf) info.word
  | none => memDone (tmod (commitPages s h (dirtyDone r.kind r.n l.resp l.arg ps)) h (exclEnd r.kind info.pa r.n)) h f l.resp info

/-- The packet of a core's register access crosses the mesh (R321, R322); the Waystation's goes over the Post (R62). -/
def regSend (s : State) (h : Hart) (cfg : Nat) : State × Bool :=
  match h, stopOf (bits cfg 22 8) with
  | .waystation _, _ => (s, true)
  | _, some st => meshSend s (hartStop h) st
  | _, none => (s, true)

/-- A register access of a thread (R59, R60): to its own package, or to another as a message; one that finds no route ends as a timeout
(R322). -/
def devRegister (s : State) (h : Hart) (cfg : Nat) (a : MAcc) (f : MFin) (info : RetInfo) (ps : Pages) : State :=
  let s1 := tmod (countThread s h evDEVICE 1) h fun t => { t with park := some (.device ⟨0, [a], [], f, info, ps⟩) }
  let p := cfg / 2 ^ 30
  if p ≠ pkgNum s ∧ bit s.pkg.members p = true then (remoteAcc s1 (some h) (hartInit s h) p a.pa a.n a.data none).1
  else
    let m := regSend s1 h cfg
    if !m.2 then devAnswer m.1 h (.err 2 3)
    else
      match regAcc m.1 (hartInit m.1 h) (.hart h) cfg (if a.data.isEmpty then none else some (BitVec.ofNat 32 (leNat a.data))) with
      | (s2, none) => s2
      | (s2, some x) => devAnswer s2 h (respRes x a.data.isEmpty)

/-- The accesses of an instruction are sent. -/
def devStart (s : State) (h : Hart) (r : AccReq) (accs : List MAcc) (f : MFin) (info : RetInfo) (ps : Pages) : State :=
  match accs.head? with
  | none => s
  | some a =>
    match devTarget s h a.pa with
    | .regs cfg => devRegister s h cfg a f info ps
    | _ => devRun s h r.kind [] f info ps accs

/-- The lines of the parts of a device-class load or store that lie in memory (R187). -/
def devLines (s : State) (h : Hart) (r : AccReq) (ps : List Piece) : State × LineRes :=
  if r.ak = .write then
    let l := linesTake s h (partLines true ps)
    (l.1, if l.2 then .there else .wait)
  else readLines s h false ps

/-- A device-class instruction: the thread's earlier stores are visible first (R219); a locked thread's is compared, a store of its once
every group before it has been, and a latched response is taken in place of sending (R470, R471). The lines of a half in memory
are there before anything is sent (R187). An Outrider's follows its requests to other packages (R225). -/
def devBody (s : State) (h : Hart) (r : AccReq) (d : List Byte) (f : MFin) (info : RetInfo) (ps : List Piece) : Eff :=
  let c := courier s h 6
  let s1 := drainAll c.1 h
  if !c.2 then .stay c.1
  else if srcHeld c.1 h (dstOf c.1 info.pa) then .stay c.1
  else if !drained s1 h then .stay s1
  else
    let accs := devAccs r ps d
    let k := hartKey h
    let groups := mapGet (fun _ => []) s1.lock.groups k
    let last := accs.getLast?.getD ⟨0, 0, 0, [], 0, 0⟩
    let pages := partPages h r ps
    let send := fun _ : Unit =>
      if r.kind = 2 ∧ resvHolds s1 h info.pa r.n = false then stxFail s1 h f info
      else if hartLocked s1 h && !latched r.kind last && !groups.isEmpty then .stay s1
      else
        match devLines s1 h r (ps.filter fun p => !isDevice p.pa) with
        | (s2, .wait) => .stay s2
        | (s2, .poison a) => accConsume s2 h a
        | (s2, .there) =>
          let q := portReady s2 info.pa (!latched r.kind last)
          let g := lockGate q.1 h
          let c := commitReady g.2 h pages
          if !q.2 then .stay q.1
          else if !g.1 then .stay g.2
          else if !c.2 then .stay c.1
          else .stay (devStart c.1 h r accs f info pages)
    match mapGet (fun _ => none) s1.lock.latch k with
    | none => send ()
    | some l =>
      if groups.any fun e => decide (e.kind = 2) then .stay s1
      else if l.op = r.kind ∧ l.pa = info.pa ∧ l.n = (accs.map (·.n)).sum ∧ l.arg = last.data then .stay (latchTake s1 h r l f info pages)
      else
        match h with
        | .drover st _ t => if hartLocked s1 h then .stay (mismatch s1 st 3 t.val 0) else send ()
        | _ => send ()

/-! ## One access -/

/-- A checked access is performed: any part in device-class space makes the whole follow those rules (R187). -/
def accRun (s : State) (h : Hart) (r : AccReq) (d : List Byte) (f : MFin) (info : RetInfo) (ps : List Piece) : Eff :=
  if ps.any fun p => isDevice p.pa && decide (p.pa < 2 ^ 52) then devBody s h r d f info ps
  else if isDrover h then
    (if r.kind = 2 then stxMem s h r d f info ps
     else if 16 ≤ r.kind then amoMem s h r d f info ps
     else if r.ak = .write then droverStore s h r d info ps
     else droverLoad s h r f info ps)
  else if 2 ≤ r.kind then
    (let a := releaseFirst s h r.rel
     if a.2 then physOrdered a.1 h r d f info ps else .stay a.1)
  else if r.ak = .write then physStore s h r d info ps
  else physLoad s h r f info ps

/-- The body of an instruction with one data access: ALIGN, the other checks, the access (R113). -/
def accBody (s : State) (h : Hart) (w : BitVec 32) (r : AccReq) (va : Nat) (d : List Byte) (f : MFin) : Eff :=
  if mustAlign s h r && decide (va % r.n ≠ 0) then .exc s ⟨cALIGN, va, 0, none⟩
  else
    match accCheck s h r va with
    | (s1, .error (.exc e)) => .exc s1 e
    | (s1, .error .wait) => .stay s1
    | (s1, .ok ps) => accRun s1 h r d f (accInfo w va r ps) ps

end Sys2Proof.Machine
end

