-- ==== Sys2Proof/Machine/MemInstr.lean ====
section
/-!
DEFINITION. Loads, stores, exclusives, atomics, fences, prefetches and vector memory instructions (Tables 4-10 to 4-15, 4-18).
-/

namespace Sys2Proof.Machine

/-! ## Loads and stores (Table 4-10) -/

/-- A load of `n` bytes at x[rs1] + offset; `aq` is a load-acquire (R144, R145, R216). -/
def runLoad (s : State) (h : Hart) (q : BitVec 4) (w : BitVec 32) (rd rs1 : Reg) (off : Word) (n : Nat) (sext : Bool)
    (aq : Bool := false) : Host.Outcome State Fault Refusal :=
  runInstr s h q { word := w, xs := [rd, rs1] } fun s =>
    accBody s h w ⟨0, .read, false, n, false, false, aq, false⟩ (xget (tget s h) rs1 + off).toNat [] (.x rd n sext)

/-- A store of `n` bytes of x[rs2] at x[rs1] + offset; `rel` is a store-release (R144, R216). -/
def runStore (s : State) (h : Hart) (q : BitVec 4) (w : BitVec 32) (rs2 rs1 : Reg) (off : Word) (n : Nat) (rel : Bool) :
    Host.Outcome State Fault Refusal :=
  runInstr s h q { word := w, xs := [rs2, rs1] } fun s =>
    accBody s h w ⟨0, .write, true, n, false, false, false, rel⟩ (xget (tget s h) rs1 + off).toNat (natLe n (xget (tget s h) rs2).toNat) .none

/-- LB (R144). Load a byte, sign-extended. -/
def execLb (h : Hart) (q : BitVec 4) (rd rs1 : Reg) (imm : BitVec 12) (s : State) : Host.Outcome State Fault Refusal :=
  runLoad s h q (encI q 0x18 rd rs1 imm) rd rs1 (imm.signExtend 64) 1 true

/-- LBU (R144). Load a byte, zero-extended. -/
def execLbu (h : Hart) (q : BitVec 4) (rd rs1 : Reg) (imm : BitVec 12) (s : State) : Host.Outcome State Fault Refusal :=
  runLoad s h q (encI q 0x19 rd rs1 imm) rd rs1 (imm.signExtend 64) 1 false

/-- LH (R144). Load a halfword, sign-extended. -/
def execLh (h : Hart) (q : BitVec 4) (rd rs1 : Reg) (imm : BitVec 12) (s : State) : Host.Outcome State Fault Refusal :=
  runLoad s h q (encI q 0x1a rd rs1 imm) rd rs1 (imm.signExtend 64) 2 true

/-- LHU (R144). Load a halfword, zero-extended. -/
def execLhu (h : Hart) (q : BitVec 4) (rd rs1 : Reg) (imm : BitVec 12) (s : State) : Host.Outcome State Fault Refusal :=
  runLoad s h q (encI q 0x1b rd rs1 imm) rd rs1 (imm.signExtend 64) 2 false

/-- LW (R144). Load a word, sign-extended. -/
def execLw (h : Hart) (q : BitVec 4) (rd rs1 : Reg) (imm : BitVec 12) (s : State) : Host.Outcome State Fault Refusal :=
  runLoad s h q (encI q 0x1c rd rs1 imm) rd rs1 (imm.signExtend 64) 4 true

/-- LWU (R144). Load a word, zero-extended. -/
def execLwu (h : Hart) (q : BitVec 4) (rd rs1 : Reg) (imm : BitVec 12) (s : State) : Host.Outcome State Fault Refusal :=
  runLoad s h q (encI q 0x1d rd rs1 imm) rd rs1 (imm.signExtend 64) 4 false

/-- LD (R144). Load a doubleword. -/
def execLd (h : Hart) (q : BitVec 4) (rd rs1 : Reg) (imm : BitVec 12) (s : State) : Host.Outcome State Fault Refusal :=
  runLoad s h q (encI q 0x1e rd rs1 imm) rd rs1 (imm.signExtend 64) 8 false

/-- SB (R144). Store a byte. -/
def execSb (h : Hart) (q : BitVec 4) (rs2 rs1 : Reg) (imm : BitVec 12) (s : State) : Host.Outcome State Fault Refusal :=
  runStore s h q (encI q 0x20 rs2 rs1 imm) rs2 rs1 (imm.signExtend 64) 1 false

/-- SH (R144). Store a halfword. -/
def execSh (h : Hart) (q : BitVec 4) (rs2 rs1 : Reg) (imm : BitVec 12) (s : State) : Host.Outcome State Fault Refusal :=
  runStore s h q (encI q 0x21 rs2 rs1 imm) rs2 rs1 (imm.signExtend 64) 2 false

/-- SW (R144). Store a word. -/
def execSw (h : Hart) (q : BitVec 4) (rs2 rs1 : Reg) (imm : BitVec 12) (s : State) : Host.Outcome State Fault Refusal :=
  runStore s h q (encI q 0x22 rs2 rs1 imm) rs2 rs1 (imm.signExtend 64) 4 false

/-- SD (R144). Store a doubleword. -/
def execSd (h : Hart) (q : BitVec 4) (rs2 rs1 : Reg) (imm : BitVec 12) (s : State) : Host.Outcome State Fault Refusal :=
  runStore s h q (encI q 0x23 rs2 rs1 imm) rs2 rs1 (imm.signExtend 64) 8 false

/-! ## Acquire and release (Table 4-11) -/

/-- LDA (R216). Load-acquire: a load, zero-extended, that is performed before every later access. -/
def execLda (h : Hart) (q : BitVec 4) (sz : BitVec 2) (rd rs1 : Reg) (s : State) : Host.Outcome State Fault Refusal :=
  runLoad s h q (encR q 0x24 rd rs1 0 (sz.setWidth 7 <<< 4)) rd rs1 0 (2 ^ sz.toNat) false true

/-- STL (R216). Store-release. -/
def execStl (h : Hart) (q : BitVec 4) (sz : BitVec 2) (rs2 rs1 : Reg) (s : State) : Host.Outcome State Fault Refusal :=
  runStore s h q (encR q 0x24 0 rs1 rs2 (0x40 ||| sz.setWidth 7 <<< 4)) rs2 rs1 0 (2 ^ sz.toNat) true

/-! ## Exclusives and atomics (Tables 4-12, 4-13) -/

/-- The size of an exclusive or atomic. -/
def wordSize (dword : Bool) : Nat := if dword then 8 else 4

/-- Bits AQ and RL of FN7. -/
def aqRl (aq rl : Bool) : BitVec 7 := (if aq then 2 else 0) ||| (if rl then 1 else 0)

/-- LDX (R148). Load and set the exclusive reservation. -/
def execLdx (h : Hart) (q : BitVec 4) (dword aq rl : Bool) (rd rs1 : Reg) (s : State) : Host.Outcome State Fault Refusal :=
  let w := encR q 0x25 rd rs1 0 ((if dword then 0x30 else 0x20) ||| aqRl aq rl)
  runInstr s h q { word := w, xs := [rd, rs1] } fun s =>
    accBody s h w ⟨1, .read, false, wordSize dword, false, false, aq, rl⟩ (xget (tget s h) rs1).toNat [] (.x rd (wordSize dword) true)

/-- STX (R149). Store if the reservation holds, clearing it. -/
def execStx (h : Hart) (q : BitVec 4) (dword aq rl : Bool) (rd rs1 rs2 : Reg) (s : State) : Host.Outcome State Fault Refusal :=
  let w := encR q 0x25 rd rs1 rs2 ((if dword then 0x70 else 0x60) ||| aqRl aq rl)
  runInstr s h q { word := w, xs := [rd, rs1, rs2] } fun s =>
    accBody s h w ⟨2, .write, true, wordSize dword, false, false, aq, rl⟩ (xget (tget s h) rs1).toNat
      (natLe (wordSize dword) (xget (tget s h) rs2).toNat) (.x rd 8 false)

/-- An AMO of operation `op`: x[rs2] is its operand, x[rd] what CAS expects (R151). -/
def runAmo (s : State) (h : Hart) (q : BitVec 4) (op : Nat) (dword aq rl : Bool) (rd rs1 rs2 : Reg) : Host.Outcome State Fault Refusal :=
  let w := encR q 0x26 rd rs1 rs2 (BitVec.ofNat 7 (8 * op + (if dword then 4 else 0)) ||| aqRl aq rl)
  let n := wordSize dword
  runInstr s h q { word := w, xs := [rd, rs1, rs2] } fun s =>
    accBody s h w ⟨16 + op, .rw, true, n, false, false, aq, rl⟩ (xget (tget s h) rs1).toNat
      (natLe n (xget (tget s h) rs2).toNat ++ natLe n (xget (tget s h) rd).toNat) (.x rd n true)

/-- AMO.SWAP (R217). Atomic swap. -/
def execAmoSwap (h : Hart) (q : BitVec 4) (dword aq rl : Bool) (rd rs1 rs2 : Reg) (s : State) : Host.Outcome State Fault Refusal :=
  runAmo s h q 0 dword aq rl rd rs1 rs2

/-- AMO.ADD (R217). Atomic add. -/
def execAmoAdd (h : Hart) (q : BitVec 4) (dword aq rl : Bool) (rd rs1 rs2 : Reg) (s : State) : Host.Outcome State Fault Refusal :=
  runAmo s h q 1 dword aq rl rd rs1 rs2

/-- AMO.AND (R217). Atomic AND. -/
def execAmoAnd (h : Hart) (q : BitVec 4) (dword aq rl : Bool) (rd rs1 rs2 : Reg) (s : State) : Host.Outcome State Fault Refusal :=
  runAmo s h q 2 dword aq rl rd rs1 rs2

/-- AMO.OR (R217). Atomic OR. -/
def execAmoOr (h : Hart) (q : BitVec 4) (dword aq rl : Bool) (rd rs1 rs2 : Reg) (s : State) : Host.Outcome State Fault Refusal :=
  runAmo s h q 3 dword aq rl rd rs1 rs2

/-- AMO.XOR (R217). Atomic XOR. -/
def execAmoXor (h : Hart) (q : BitVec 4) (dword aq rl : Bool) (rd rs1 rs2 : Reg) (s : State) : Host.Outcome State Fault Refusal :=
  runAmo s h q 4 dword aq rl rd rs1 rs2

/-- AMO.SMIN (R217). Atomic signed minimum. -/
def execAmoSmin (h : Hart) (q : BitVec 4) (dword aq rl : Bool) (rd rs1 rs2 : Reg) (s : State) : Host.Outcome State Fault Refusal :=
  runAmo s h q 5 dword aq rl rd rs1 rs2

/-- AMO.SMAX (R217). Atomic signed maximum. -/
def execAmoSmax (h : Hart) (q : BitVec 4) (dword aq rl : Bool) (rd rs1 rs2 : Reg) (s : State) : Host.Outcome State Fault Refusal :=
  runAmo s h q 6 dword aq rl rd rs1 rs2

/-- AMO.UMIN (R217). Atomic unsigned minimum. -/
def execAmoUmin (h : Hart) (q : BitVec 4) (dword aq rl : Bool) (rd rs1 rs2 : Reg) (s : State) : Host.Outcome State Fault Refusal :=
  runAmo s h q 7 dword aq rl rd rs1 rs2

/-- AMO.UMAX (R217). Atomic unsigned maximum. -/
def execAmoUmax (h : Hart) (q : BitVec 4) (dword aq rl : Bool) (rd rs1 rs2 : Reg) (s : State) : Host.Outcome State Fault Refusal :=
  runAmo s h q 8 dword aq rl rd rs1 rs2

/-- AMO.CAS (R149). Atomic compare-and-swap against x[rd]. -/
def execAmoCas (h : Hart) (q : BitVec 4) (dword aq rl : Bool) (rd rs1 rs2 : Reg) (s : State) : Host.Outcome State Fault Refusal :=
  runAmo s h q 9 dword aq rl rd rs1 rs2

/-! ## Fences and prefetches (Table 4-15) -/

/-- Whether a waybill operation of an Outrider or the Waystation has been performed: it has its answer, and a GET has written its message. -/
def wbPerformed (o : NbOp) : Bool := o.status.isSome && !o.get

/-- A fence: the thread's earlier stores are visible where `drain` says so, and the waybill operations that `wait` picks have been
performed. -/
def runFence (s : State) (h : Hart) (q : BitVec 4) (w : BitVec 32) (drain : Bool) (wait : NbOp → Bool) : Host.Outcome State Fault Refusal :=
  runInstr s h q { word := w } fun s =>
    if (tget s h).nb.any wait then .stay (stall s h 5)
    else if !drain || drained s h then fin s h w
    else
      let s1 := drainAll (stall s h 5) h
      if drained s1 h then fin s1 h w else .stay s1

/-- FENCE (R218). Every earlier access is ordered before every later one: the thread's stores are written first. -/
def execFence (h : Hart) (q : BitVec 4) (s : State) : Host.Outcome State Fault Refusal :=
  runFence s h q (encI q 0x27 0 0 0) true fun o => !wbPerformed o

/-- FENCE.LD (R218). Earlier loads are ordered before later accesses: an instruction's loads are performed when it retires. -/
def execFenceLd (h : Hart) (q : BitVec 4) (s : State) : Host.Outcome State Fault Refusal :=
  runFence s h q (encI q 0x27 0 0 1) false fun o => !wbPerformed o

/-- FENCE.ST (R218). Earlier stores are ordered before later stores: the stores of a thread are written in program order. -/
def execFenceSt (h : Hart) (q : BitVec 4) (s : State) : Host.Outcome State Fault Refusal :=
  runFence s h q (encI q 0x27 0 0 2) false fun o => !o.get && o.status.isNone

/-- FENCE.I (R233). Later fetches observe every store ordered before it: the thread's own are written first. -/
def execFenceI (h : Hart) (q : BitVec 4) (s : State) : Host.Outcome State Fault Refusal := 
  runFence s h q (encI q 0x27 0 0 3) true fun _ => false

/-- A PRF instruction: whether it asks for ownership, whether its fill is streaming, and the caches it fills. -/
def runPrf (s : State) (h : Hart) (q : BitVec 4) (rd : Reg) (rs1 : Reg) (imm : BitVec 12) (own nt : Bool) (side : Nat) :
    Host.Outcome State Fault Refusal :=
  let w := encI q 0x28 rd rs1 imm
  runInstr s h q { word := w, xs := [rs1] } fun s =>
    fin (prefetch s h (xget (tget s h) rs1 + imm.signExtend 64).toNat own nt side) h w

/-- PRF.L1 (R153). Prefetch hint toward L1. -/
def execPrfL1 (h : Hart) (q : BitVec 4) (rs1 : Reg) (imm : BitVec 12) (s : State) : Host.Outcome State Fault Refusal :=
  runPrf s h q 0 rs1 imm false false 1

/-- PRF.L2 (R153). Prefetch hint toward L2. -/
def execPrfL2 (h : Hart) (q : BitVec 4) (rs1 : Reg) (imm : BitVec 12) (s : State) : Host.Outcome State Fault Refusal :=
  runPrf s h q 1 rs1 imm false false 2

/-- PRF.W (R153). Prefetch hint with ownership. -/
def execPrfW (h : Hart) (q : BitVec 4) (rs1 : Reg) (imm : BitVec 12) (s : State) : Host.Outcome State Fault Refusal :=
  runPrf s h q 2 rs1 imm true false 1

/-- PRF.NT (R153). Prefetch hint as a streaming fill. -/
def execPrfNt (h : Hart) (q : BitVec 4) (rs1 : Reg) (imm : BitVec 12) (s : State) : Host.Outcome State Fault Refusal :=
  runPrf s h q 3 rs1 imm false true 1

/-! ## Vector memory (Table 4-18, R158 to R160) -/

/-- The virtual address of element `i` of `e` bytes. -/
def elemVa (t : Thread) (gather : Bool) (rs1 rs2 : Reg) (e i : Nat) : Nat :=
  let base := (xget t rs1).toNat
  let off := if gather then elemGet (8 * e) (vget t rs2) i
    else i * (if rs2 = 0 then e else (xget t rs2).toNat)
  (base + off) % 2 ^ 64

/-- The checks of the active elements, lowest first (R158): the parts of every element. -/
def vecCheck (s : State) (h : Hart) (r : AccReq) (va : Nat → Nat) : List Nat → State × Except AccErr (List Piece)
  | [] => (s, .ok [])
  | i :: l =>
    match accCheck s h r (va i) with
    | (s1, .error e) => (s1, .error e)
    | (s1, .ok ps) =>
      match vecCheck s1 h r va l with
      | (s2, .error e) => (s2, .error e)
      | (s2, .ok qs) => (s2, .ok (ps ++ qs))

/-- VLD and VST: nothing is accessed until every active element has passed its checks (R158). DESIGN CHOICE (log entry 90): ALIGN of any
active element comes before the other checks of all. -/
def runVm (s : State) (h : Hart) (q : BitVec 4) (store gather : Bool) (vd rs1 rs2 : Reg) (msk : PReg) (z : Bool) (esz : BitVec 2) :
    Host.Outcome State Fault Refusal :=
  let w := encV q (if store then 0x31 else 0x30) vd rs1 rs2 msk z esz gather
  runInstr s h q { word := w, undef := !isDrover h, vec := if store then .reads else .writes } fun s =>
    let t := tget s h
    let e := eszBits esz / 8
    let el := (List.range (eszCount esz)).filter (vActive t msk z)
    let va := elemVa t gather rs1 rs2 e
    let r : AccReq := ⟨0, if store then .write else .read, store, e, true, gather || decide (rs2 ≠ 0), false, false⟩
    match (if sbit t snTHR_CTL 5 then el.find? fun i => decide (va i % e ≠ 0) else none) with
    | some i => .exc s ⟨cALIGN, va i, 0, none⟩
    | none =>
      match vecCheck s h r va el with
      | (s1, .error (.exc x)) => .exc s1 x
      | (s1, .error .wait) => .stay s1
      | (s1, .ok ps) =>
        let base : Vec := BitVec.ofNat 256 (vecOf (8 * e) ((List.range (eszCount esz)).map fun i => if z then 0 else elemGet (8 * e) (vget t vd) i))
        let d := if store then el.flatMap fun i => natLe e (elemGet (8 * e) (vget t vd) i) else []
        let info := accInfo w ((el.head?.map va).getD 0) r ps
        if ps.isEmpty then
          (if store then fin s1 h w else fin (tmod s1 h fun t => finWrite t (.v vd e [] base) []) h w)
        else accRun s1 h r d (if store then .none else .v vd e el base) info ps

/-- VLD, strided or contiguous (R158). -/
def execVldStrided (h : Hart) (q : BitVec 4) (vd rs1 rs2 : Reg) (msk : PReg) (z : Bool) (esz : BitVec 2) (s : State) :
    Host.Outcome State Fault Refusal :=
  runVm s h q false false vd rs1 rs2 msk z esz

/-- VLD, gather (R158). -/
def execVldGather (h : Hart) (q : BitVec 4) (vd rs1 rs2 : Reg) (msk : PReg) (z : Bool) (esz : BitVec 2) (s : State) :
    Host.Outcome State Fault Refusal :=
  runVm s h q false true vd rs1 rs2 msk z esz

/-- VST, strided or contiguous (R158). -/
def execVstStrided (h : Hart) (q : BitVec 4) (vd rs1 rs2 : Reg) (msk : PReg) (z : Bool) (esz : BitVec 2) (s : State) :
    Host.Outcome State Fault Refusal :=
  runVm s h q true false vd rs1 rs2 msk z esz

/-- VST, scatter (R159). -/
def execVstScatter (h : Hart) (q : BitVec 4) (vd rs1 rs2 : Reg) (msk : PReg) (z : Bool) (esz : BitVec 2) (s : State) :
    Host.Outcome State Fault Refusal :=
  runVm s h q true true vd rs1 rs2 msk z esz

/-! ## Committed stores (R182) -/

/-- A load that waits for a store is woken once that store is written, and reads memory (R182). -/
def wakeReplay (s : State) (h : Hart) : State :=
  match (tget s h).park with
  | some (.replay q op) =>
    let l := linesTake s h (op.accs.map fun a => (dataUse false a.attr a.va, a.pa))
    let s1 := l.1
    if (tget s h).stores.any fun e => decide (e.seq = q) then s
    else if !l.2 then tmod s1 h fun t => { t with park := none }
    else
      match op.accs.find? fun a => poisoned s1 a.pa a.n with
      | some a =>
        let c := consume s1 h 3 (firstPoison s1 a.pa a.n)
        memFault c.1 h c.2 op.info.word
      | none =>
        let b := op.accs.flatMap fun a => memRead s1 a.pa a.n
        let n := (op.accs.map (·.n)).sum
        memDone (tmod s1 h (exclEnd op.kind op.info.pa n)) h op.fin b op.info
  | _ => s

/-- COMMITTED_STORE_DRAIN (R182). The oldest committed store of a thread is written to the L1 data cache, or the oldest entry of an
Outrider's store buffer to its home (R379); a load parked for it wakes. -/
def execCommittedStoreDrain (h : Hart) (s : State) : Host.Outcome State Fault Refusal :=
  if hartExists h then .next (wakeReplay (drainOne s h) h) else .next s

end Sys2Proof.Machine
end

