-- ==== Sys2Proof/Machine/WbInstr.lean ====
section
/-!
DEFINITION. The waybill instructions of a core (Tables 4-20 and 4-21, R161 to R163, R359).
-/

namespace Sys2Proof.Machine

/-- The word of a waybill instruction. -/
def encWb (q : BitVec 4) (op : Nat) (sz : BitVec 2) (rd rs1 rs2 : Reg) : BitVec 32 :=
  encR q 0x29 rd rs1 rs2 (BitVec.ofNat 7 (4 * op) ||| sz.setWidth 7)

/-- The size code of a message of `n` bytes. -/
def wbSz (n : Nat) : Nat := if n = 16 then 0 else if n = 32 then 1 else 2

/-- The checks of the queue address (R359, steps 1 and 2): the physical address of a queue that this world may use. -/
def wbQueue (s : State) (h : Hart) (op : Nat) (va : Nat) : State × Except AccErr Nat :=
  match accTranslate s h ⟨0, if op = 2 then .read else .write, false, 8, false, false, false, false⟩ va 0 with
  | (s1, .error e) => (s1, .error e)
  | (s1, .ok t) =>
    match wbillCode s1 (tget s1 h).world t.pa with
    | none => (s1, .ok t.pa)
    | some c =>
      let s2 := if c = 2 then
          (match queueAt (pkgNum s1) t.pa with | some (st, _) => violation s1 (stopLocus (pkgNum s1) st) 3 0 | none => s1)
        else s1
      (s2, .error (.exc ⟨cWBILL, va, c, none⟩))

/-- Whether a message buffer maps to nothing, or lies where no buffer can be read or written: register space, a boot window that would be
stored to, a window of a port or of another package's depots (R59, R43, R359): KIND and CODE. -/
def wbBufErr (s : State) (h : Hart) (op pa : Nat) : Option (Nat × Nat) :=
  match devTarget s h pa with
  | .nothing => some (0, 0)
  | .regs _ => some (1, 0)
  | .boot _ => if op = 1 then some (3, 0) else none
  | .pcie _ _ => some (0, 0)
  | .remotePcie _ => some (0, 0)
  | .remoteDepot _ => some (0, 0)
  | .tcm a => if op = 1 ∧ inRom h a = true then some (0, 0) else none
  | _ => if wsAsleep s h then some (2, 2) else none

/-- The buffer of a waybill operation as a data access: read by a PUT, written by a GET. -/
def wbAccess (op n : Nat) : AccReq := ⟨0, if op = 1 then .write else .read, decide (op = 1), n, false, false, false, false⟩

/-- The checks of the message buffer (R359, steps 3 to 6). -/
def wbBuffer (s : State) (h : Hart) (op n va : Nat) : State × Except AccErr Piece :=
  if va % n ≠ 0 then (s, .error (.exc ⟨cALIGN, va, 0, none⟩))
  else
    let r := wbAccess op n
    match accTranslate s h r va 0 with
    | (s1, .error e) => (s1, .error e)
    | (s1, .ok t) =>
      let p : Piece := ⟨va, n, 0, t, partType s1 h t⟩
      match watchHit s1 h r.ak va n with
      | some a => (s1, .error (.exc ⟨cWATCH, a, 0, none⟩))
      | none =>
        match wbBufErr s1 h op p.pa with
        | some (k, c) => (accViolation s1 h p.pa, .error (.exc (dbus (busVal h p) k c 0)))
        | none => (s1, .ok p)

/-- Where a buffer lies in the model's memory: the boot window is an alias of depot SRAM. -/
def wbMem (s : State) (h : Hart) (pa : Nat) : Nat :=
  match devTarget s h pa with
  | .boot a => a
  | _ => pa

/-- The events of a waybill operation with a status (Table 18-8). -/
def wbEvents (status : Nat) : List Nat :=
  [evWB_OPS, if status = wbDONE then evWB_DONE else if status = wbEMPTY then evWB_EMPTY else evWB_REFUSED]

/-- The message that goes to another package for a waybill operation; `id` comes back with its answer. -/
def wbSend (s : State) (h : Hart) (p qa op n : Nat) (msg : List Byte) (bad : Bool) (id : Nat) : State :=
  sendWait s (some h) 0xB (pkgLocus p) qa
    (op + 4 * wbSz n + 16 * worldCode (tget s h).world + 32 * b2n bad + 64 * srcHart s h + 2 ^ 40 * id) msg

/-- What a thread that named a queue gets: the message in its buffer where a GET was DONE, the result in x[RD] (R161). -/
def wbTake (s : State) (h : Hart) (rd : Reg) (get : Bool) (buf res : Nat) (msg : List Byte) : State :=
  let s1 := if get && decide (res % 256 = wbDONE) then
      (if hartLocked s h then pushStore s h false false [⟨buf, buf, msg.length, msg, 0, 0⟩] else agentWrite s (some h) buf msg)
    else s
  tmod s1 h fun t => xset t rd (BitVec.ofNat 64 res)

/-- The buffer's line taken for an operation, and whether it is there; a PUT finds poison where the line's CXL link is down (R435). -/
def wbLine (s : State) (h : Hart) (op : Nat) (p : Option Piece) : State × Bool :=
  match p with
  | none => (s, true)
  | some p =>
    if op = 0 ∧ cxlGone s p.pa = true then (poisonLine (cxlDown s p.pa) p.pa, true)
    else linesTake s h (partLines (decide (op = 1)) [p])

/-- The message of a PUT, and whether it is poisoned. -/
def wbMessage (s : State) (op n buf : Nat) : List Byte × Bool :=
  if op = 0 then (memRead s buf n, poisoned s buf n) else ([], false)

/-- A Drover's waybill operation at a checked queue (R161, R222): as a release, and in a locked tile once it has been compared; at another
package's queue the thread waits for the answer. D is set in the buffer's page for a GET that gives a message (R248). -/
def wbDrover (s : State) (h : Hart) (w : BitVec 32) (op n qa : Nat) (rd : Reg) (p : Option Piece) : Eff :=
  let d := drainAll s h
  let buf := match p with | some p => wbMem d h p.pa | none => 0
  let l := wbLine d h op p
  let pages := match p with | some p => partPages h (wbAccess op n) [p] | none => []
  let c := commitReady l.1 h pages
  let g := lockGate c.1 h
  if !drained d h then .stay d
  else if !l.2 then .stay l.1
  else if !c.2 then .stay c.1
  else if !g.1 then .stay g.2
  else
    let s1 := g.2
    let m := wbMessage s1 op n buf
    let va := match p with | some p => p.va | none => 0
    let get := decide (op = 1)
    match queueAt (pkgNum s1) qa with
    | some (st, q) =>
      let who := if hartLocked s1 h then some (hartKey h) else none
      let r := wqServe s1 st q op n m.1 m.2 (srcHart s1 h) who
      let s2 := if get && decide (r.2.1 % 256 = wbDONE) then commitPages r.1 h pages else r.1
      .done (wbTake s2 h rd get buf r.2.1 r.2.2) ((tget s1 h).pc + 4) ⟨w, va, buf, wbEvents (r.2.1 % 256), 0⟩
    | none =>
      match remoteQueue s1 qa with
      | some pk => .stay (tmod (wbSend s1 h pk qa op n m.1 m.2 0) h fun t => { t with
          park := some (.waybill rd get buf n ⟨w, va, buf, [], 0⟩ pages) })
      | none => .stay s1

/-- An Outrider's or the Waystation's waybill operation (R163): it is issued behind the stores of its source and its requests to other
packages (R225, R226), and its result arrives later. -/
def wbIssue (s : State) (h : Hart) (w : BitVec 32) (op n qa : Nat) (rd : Reg) (p : Option Piece) : Eff :=
  if 4 ≤ (tget s h).nb.length then .stay (stall s h 8)
  else if srcHeld s h (dstOf s qa) then .stay (stall s h 6)
  else
    let c := courier s h 6
    let a := releaseFirst c.1 h true
    let buf := match p with | some p => wbMem a.1 h p.pa | none => 0
    let l := if op = 0 then wbLine a.1 h op p else (a.1, true)
    if !c.2 then .stay c.1
    else if !a.2 then .stay a.1
    else if !l.2 then .stay l.1
    else
      let s1 := l.1
      let m := wbMessage s1 op n buf
      let id := s1.cpu.seqNo
      let s2 := { s1 with cpu := { s1.cpu with seqNo := id + 1 } }
      let pc := (tget s1 h).pc + 4
      let info : RetInfo := ⟨w, 0, 0, [], 0⟩
      let issued := fun (s : State) (res : Option Nat) (data : List Byte) =>
        Eff.done (tmod s h fun t => { t with nb := t.nb ++ [⟨id, rd, decide (op = 1), buf, n, res, data⟩] }) pc info
      match queueAt (pkgNum s1) qa with
      | some (st, q) =>
        let r := wqServe s2 st q op n m.1 m.2 (srcHart s1 h) none
        issued r.1 (some r.2.1) r.2.2
      | none =>
        match remoteQueue s1 qa with
        | some pk => issued (wbSend s2 h pk qa op n m.1 m.2 id) none []
        | none => .stay s1

/-- A waybill instruction: its checks in the order of R359, then the operation. -/
def runWb (s : State) (h : Hart) (q : BitVec 4) (op : Nat) (sz : BitVec 2) (rd rs1 rs2 : Reg) : Host.Outcome State Fault Refusal :=
  let w := encWb q op sz rd rs1 rs2
  let n := 16 * 2 ^ sz.toNat
  runInstr s h q { word := w, undef := decide (sz = 3), xs := [rd, rs1, rs2] } fun s =>
    match wbQueue s h op (xget (tget s h) rs1).toNat with
    | (s1, .error (.exc e)) => .exc s1 e
    | (s1, .error .wait) => .stay s1
    | (s1, .ok qa) =>
      let go := fun (s : State) (p : Option Piece) => if isDrover h then wbDrover s h w op n qa rd p else wbIssue s h w op n qa rd p
      if op = 2 then go s1 none
      else
        match wbBuffer s1 h op n (xget (tget s1 h) rs2).toNat with
        | (s2, .error (.exc e)) => .exc s2 e
        | (s2, .error .wait) => .stay s2
        | (s2, .ok p) => go s2 (some p)

/-- WB.PUT (R161). Put a message into a waybill queue. -/
def execWbPut (h : Hart) (q : BitVec 4) (sz : BitVec 2) (rd rs1 rs2 : Reg) (s : State) : Host.Outcome State Fault Refusal :=
  runWb s h q 0 sz rd rs1 rs2

/-- WB.GET (R161). Get a message from a waybill queue. -/
def execWbGet (h : Hart) (q : BitVec 4) (sz : BitVec 2) (rd rs1 rs2 : Reg) (s : State) : Host.Outcome State Fault Refusal :=
  runWb s h q 1 sz rd rs1 rs2

/-- WB.POLL (R161). Read a waybill queue's occupancy. -/
def execWbPoll (h : Hart) (q : BitVec 4) (rd rs1 : Reg) (s : State) : Host.Outcome State Fault Refusal :=
  runWb s h q 2 0 rd rs1 0

/-- OUTRIDER_WAYBILL_RESULT (R163). The result of a non-blocking operation arrives: a GET's message is in its buffer before x[RD] is free. -/
def execOutriderWaybillResult (h : Hart) (tag : Nat) (s : State) : Host.Outcome State Fault Refusal :=
  match (tget s h).nb.find? fun o => decide (o.tag = tag) with
  | none => .next s
  | some o =>
    match o.status with
    | none => .next s
    | some res =>
      let l := if o.get && decide (res % 256 = wbDONE) then lineTake s h (dataUse true 2 o.buf) o.buf else (s, true)
      if !l.2 then .next l.1
      else
        let s1 := tmod l.1 h fun t => { t with nb := t.nb.filter fun x => decide (x.tag ≠ tag) }
        .next (wbTake s1 h o.rd o.get o.buf res o.data)

/-- The answer of another package to a waybill operation of a thread: a Drover's instruction completes, another core's result is there to
arrive. -/
def wbAnswer (s : State) (h : Hart) (id res : Nat) (msg : List Byte) : State :=
  match (tget s h).park with
  | some (.waybill rd get buf n info dirty) =>
    let t0 := { tget s h with park := none }
    let s1 := tput s h t0
    let s2 := if get && decide (res % 256 = wbDONE) then commitPages s1 h dirty else s1
    retire (wbTake s2 h rd get buf res (msg.take n)) h t0 (t0.pc + 4) { info with events := wbEvents (res % 256) }
  | _ =>
    tmod s h fun t => { t with nb := t.nb.map fun o => if o.tag = id then { o with status := some res, data := msg.take o.n } else o }

end Sys2Proof.Machine
end

