-- ==== Sys2Proof/Machine/Messages.lean ====
section
/-!
DEFINITION. Messages between packages as their receiver sees them: data, acknowledgements, device-class accesses, invalidations, and
requests that found no route (R259, R260, R322, R332, R339).
-/

namespace Sys2Proof.Machine

/-- DATA (R332, R400). The response to ReadShared, ReadOwn or an Upgrade of another package brings a line with its granted state; to
ReadOnce it brings data for one access.  Where an Outrider waits for it, `ns` is the time since the request left the Courier port; data
from this package itself ends a Courier read of Outrider `tag`. -/
def execData (p : Fin 4) (tag : Nat) (grant : Fin 4) (data : List Byte) (poison : BitVec 8) (ns : Nat) (s : State) :
    Host.Outcome State Fault Refusal :=
  if p.val = pkgNum s then
    .next (if h : tag < 16 then courierRead s ⟨tag, h⟩ ns else s)
  else
    match waitingFor s p.val tag with
    | some (m, who) =>
      if data.length = 64 ∧ 1 ≤ m.op ∧ m.op ≤ 4 then
        let s0 := match who with
          | some (.outrider n) => courierRead s n ns
          | _ => s
        let s1 := landLine (unwait s0 p.val tag) (m.addr / 64) data poison
        .next (hold s1 (m.addr / 64) (some (if m.op = 4 then 4 else grant.val)))
      else .next s
    | none => .next s

/-- ACK (R332). An Upgrade, WriteOnce, WriteBack or Notify is acknowledged. -/
def execAck (p : Fin 4) (tag : Nat) (s : State) : Host.Outcome State Fault Refusal :=
  match waitingFor s p.val tag with
  | some (m, who) =>
    if m.op = 3 ∨ m.op = 5 ∨ m.op = 6 ∨ m.op = 7 then .next (ackDone (unwait s p.val tag) m who) else .next s
  | none => .next s

/-! ## Device-class accesses of other packages -/

/-- The attributes of an access by another package. -/
def pkgInit (l : Level) (w : World) : Init := ⟨l, w, false, none⟩

/-- An access of another package that is performed here: its answer, or the state where it has to wait. -/
def pkgAccess (s : State) (p : Fin 4) (tag : Nat) (w : World) (l : Level) (pa n : Nat) (d : List Byte) (amo : Option Nat) : State × DRes :=
  let who : Requester := .pkg p.val tag
  match seenTarget s w pa with
  | .regs cfg =>
    if amo.isSome ∨ n ≠ 4 ∨ pa % 4 ≠ 0 then (s, .err 2 1)
    else
      match regAcc s (pkgInit l w) who cfg (if d.isEmpty then none else some (BitVec.ofNat 32 (leNat d))) with
      | (s1, some r) => (s1, respRes r d.isEmpty)
      | (s1, none) => (s1, .wait)
  | .depot _ _ => match amo with
    | some op => amoAt s none pa n op d
    | none => directAcc s none pa n d
  | .pcie k off =>
    let q := portReady s pa (!d.isEmpty && amo.isNone)
    if q.2 then portAcc s ⟨k % 12, by omega⟩ who off n d amo else (q.1, .wait)
  | _ => (match violationKind s w pa with | some k => violation s (pkgLocus p.val) k 0 | none => s, .err 2 1)

/-- A device-class message of another package: it is performed and answered. -/
def pkgMessage (s : State) (p : Fin 4) (tag : Nat) (w : World) (l : Level) (pa n : Nat) (d : List Byte) (amo : Option Nat) : State :=
  if p.val = pkgNum s then s
  else
    match pkgAccess s p tag w l pa n d amo with
    | (s1, .wait) => s1
    | (s1, r) => answer s1 (.pkg p.val tag) r

/-- DEV_READ (R332). A device-class read of another package, of 2^sz bytes. -/
def execDevRead (p : Fin 4) (tag : Nat) (w : World) (l : Level) (pa : Nat) (sz : Fin 4) (s : State) : Host.Outcome State Fault Refusal :=
  .next (pkgMessage s p tag w l pa (2 ^ sz.val) [] none)

/-- DEV_WRITE (R332). A device-class write of another package. -/
def execDevWrite (p : Fin 4) (tag : Nat) (w : World) (l : Level) (pa : Nat) (data : List Byte) (s : State) :
    Host.Outcome State Fault Refusal :=
  if data.isEmpty ∨ 8 < data.length then .next s else .next (pkgMessage s p tag w l pa data.length data none)

/-- ATOMIC (R332). An atomic of another package on 4 or 8 bytes: x[rs2], and what CAS expects. -/
def execAtomic (p : Fin 4) (tag : Nat) (w : World) (l : Level) (pa : Nat) (dword : Bool) (op : Fin 10) (x e : Word) (s : State) :
    Host.Outcome State Fault Refusal :=
  let n := wordSize dword
  .next (pkgMessage s p tag w l pa n (natLe n x.toNat ++ natLe n e.toNat) (some op.val))

/-- DEV_RESP (R332). The answer of another package to a device-class access or a waybill operation of this one: register response code,
PCIe code, and the data; of a waybill operation the data is the result of Table 4-21 and the message. -/
def execDevResp (p : Fin 4) (tag : Nat) (code : Fin 5) (pcie : Fin 4) (data : List Byte) (s : State) : Host.Outcome State Fault Refusal :=
  match waitingFor s p.val tag with
  | some (m, who) =>
    let s1 := unwait s p.val tag
    if m.op = 8 ∨ m.op = 9 ∨ m.op = 0xA then
      let n := 2 ^ (m.arg % 8)
      let r : DRes :=
        if code ≠ 0 then (match paTarget s m.addr with | .regs _ => .err 2 code.val | _ => .err 0 0)
        else if pcie ≠ 0 then .err 4 pcie.val
        else .data (if m.op = 9 then [] else natLe n (leNat data)) none
      match who with
      | some h => .next (devAnswer s1 h r)
      | none =>
        let port := mapGet (fun _ => 0) s.link.ports tag
        if h : 1 ≤ port ∧ port ≤ 12 then
          let s2 := { s1 with link := { s1.link with ports := mapSet (fun _ => 0) s1.link.ports tag 0 } }
          let bad := decide (code ≠ 0) || decide (pcie ≠ 0)
          .next (inboundCpl s2 ⟨port - 1, by omega⟩ (if bad then 1 else 0) (if bad then [] else natLe n (leNat data)) false)
        else .next s1
    else if m.op = 0xB then
      match who with
      | some h => .next (wbAnswer s1 h (m.arg / 2 ^ 40) (leNat (data.take 8)) (data.drop 8))
      | none => .next s1
    else .next s
  | none => .next s

/-! ## Requests that found no route (R322) -/

/-- The messages of a thread that wait for an answer about an address. -/
def lostFor (s : State) (h : Hart) (pa : Nat) : List (NodeMsg × Option Hart) :=
  s.link.waiting.filter fun m => decide (m.2 = some h) && decide (m.1.addr = pa ∨ (m.1.op ≤ 7 ∧ m.1.addr / 64 = pa / 64))

/-- NO_ROUTE (R322). A request of a thread for an address is discarded on the way and answered with NOROUTE: a device-class access raises
DBUS as for a TIMEOUT, a waybill operation or an access to normal memory is a recoverable machine check. -/
def execNoRoute (h : Hart) (pa : Nat) (s : State) : Host.Outcome State Fault Refusal :=
  let s1 := { s with link := { s.link with waiting := s.link.waiting.filter fun m => !(lostFor s h pa).contains m } }
  let check := fun s : State => noRouteCheck s h pa
  match (tget s h).park with
  | some (.device op) =>
    match op.accs with
    | a :: _ =>
      if a.pa = pa then
        let pcie := match paTarget s pa with | .pcie _ _ => true | .remotePcie _ => true | _ => false
        .next (devAnswer s1 h (.err (if pcie then 4 else 2) 3))
      else .next s
    | [] => .next s
  | some (.waybill _ _ _ _ _ _) =>
    if (lostFor s h pa).isEmpty then .next s else .next (check s1)
  | _ => if (lostFor s h pa).isEmpty then .next s else .next (check s1)

/-! ## Invalidation of translations (R258 to R262, R339) -/

/-- Whether a core has finished what it had begun with translations: no committed store, no access under way, no recovery (R259). -/
def invReady (s : State) (st : Stop) (c : Fin 2) : Bool :=
  [(0 : Fin 2), 1].all fun t =>
    let h : Hart := .drover st c t
    (tget s h).stores.isEmpty && (tget s h).park.isNone && !recovering s h

/-- A translation unit's covered entries are removed: those whose context carries the same world, VMID and ASID, so that one of the host
regime covers them as one of the normal world (R269). -/
def invIotu (s : State) (n : Fin 12) (m : InvMsg) : State :=
  let u := ioGet s n
  let m1 := { m with regime := if m.regime = 1 then 0 else m.regime }
  ioPut s n { u with tlb := u.tlb.filter fun e => !invCovers m1 e.2, wc := u.wc.filter fun e => !invPtr m1 e.2 }

/-- A package's InvAck goes out once every place of this package has acknowledged its broadcast. -/
def invAnswer (s : State) (b : Bcast) : State :=
  match b.origin with
  | some _ => s
  | none =>
    if s.cpu.bcasts.any fun x => decide (x.id = b.id) then s
    else sendMsg s 0x36 (pkgLocus (b.tag / 2 ^ 32)) (b.tag % 2 ^ 32) b.msg.addr 0 []

/-- TLB_INV_BROADCAST (R259, R260). A core, or the translation unit of port n as 512 + n, receives broadcast `id`: covered entries are
removed, and it acknowledges once everything that used them has been performed; a stop agent does so for a domain that is off. -/
def execTlbInvBroadcast (place id : Nat) (s : State) : Host.Outcome State Fault Refusal :=
  match s.cpu.bcasts.find? fun b => decide (b.id = id) && b.left.contains place with
  | none => .next s
  | some b =>
    let done := fun s : State => invAnswer (ackInv s id place) b
    if h : 512 ≤ place ∧ place < 524 then
      let n : Fin 12 := ⟨place - 512, by omega⟩
      let s1 := invIotu s n b.msg
      .next (if portBusy s n then s1 else done s1)
    else if place < 512 then
      match stopOf (place / 2) with
      | none => .next s
      | some st =>
        let c : Fin 2 := ⟨place % 2, by omega⟩
        let s1 := invCore s place b.msg
        if domState s st c.val = dOFF ∨ pkgState s ≠ 0 ∨ invReady s st c = true then .next (done s1) else .next s1
    else .next s

/-- TLB_INVAL (R339). Another package's broadcast reaches this one: its cores and translation units have it to acknowledge, at once where
none has to. Scope 0 VA, 1 AS, 2 VM, 3 TBL; regime 0 guest, 1 host, 2 secure. -/
def execTlbInval (p : Fin 4) (tag : Nat) (scope : Fin 4) (regime : Fin 3) (vmid asid : BitVec 16) (addr : Word) (l5 : Bool) (s : State) :
    Host.Outcome State Fault Refusal :=
  if p.val = pkgNum s then .next s
  else
    let m : InvMsg := ⟨scope.val, regime.val, vmid.toNat, asid.toNat, addr.toNat, if l5 then 57 else 48⟩
    let ps := invPlaces s none
    let b : Bcast := ⟨s.cpu.seqNo, none, p.val * 2 ^ 32 + tag % 2 ^ 32, m, ps⟩
    let s1 := { s with cpu := { s.cpu with
      bcasts := if ps.isEmpty then s.cpu.bcasts else s.cpu.bcasts ++ [b], seqNo := b.id + 1 } }
    .next (if ps.isEmpty then invAnswer s1 b else s1)

end Sys2Proof.Machine
end

