-- ==== Sys2Proof/Machine/RegRows.lean ====
section
/-!
DEFINITION. The commands that are accesses of register space, each at its register, and those that end them.
-/

namespace Sys2Proof.Machine

/-! ## Threads and debug -/

/-- TSTART_GO (R206, R207). A write of GO to a thread's TSTART_CTL. -/
def execTstartGo (i : Init) (st : Stop) (c t : Fin 2) (s : State) : Host.Outcome State Fault Refusal :=
  .next (regCmd s i st (1 + c.val) (TSTART_CTL + 16 * t.val) 1)

/-- TSTART_STOP (R206, R207). A write of STOP to a thread's TSTART_CTL. -/
def execTstartStop (i : Init) (st : Stop) (c t : Fin 2) (s : State) : Host.Outcome State Fault Refusal :=
  .next (regCmd s i st (1 + c.val) (TSTART_CTL + 16 * t.val) 2)

/-- CORE_BLOCK_EN (R208). A write of EN of a core block. -/
def execCoreBlockEn (i : Init) (st : Stop) (c : Fin 2) (on : Bool) (s : State) : Host.Outcome State Fault Refusal :=
  .next (regCmd s i st (1 + c.val) BLOCK_CTL (BitVec.ofNat 32 (b2n on)))

/-- HALT_T (R209). A write of HALT_Tt to DBG_CTL. -/
def execHaltT (i : Init) (st : Stop) (c t : Fin 2) (s : State) : Host.Outcome State Fault Refusal :=
  .next (regCmd s i st (1 + c.val) DBG_CTL (BitVec.ofNat 32 (2 ^ t.val)))

/-- RESUME_T (R209). A write of RESUME_Tt to DBG_CTL. -/
def execResumeT (i : Init) (st : Stop) (c t : Fin 2) (s : State) : Host.Outcome State Fault Refusal :=
  .next (regCmd s i st (1 + c.val) DBG_CTL (BitVec.ofNat 32 (4 * 2 ^ t.val)))

/-- DBG_READ (R554). A write of READ to DBG_RCMD. -/
def execDbgRead (i : Init) (st : Stop) (c : Fin 2) (s : State) : Host.Outcome State Fault Refusal :=
  .next (regCmd s i st (1 + c.val) DBG_RCMD 1)

/-- DBG_WRITE (R554). A write of WRITE to DBG_RCMD. -/
def execDbgWrite (i : Init) (st : Stop) (c : Fin 2) (s : State) : Host.Outcome State Fault Refusal :=
  .next (regCmd s i st (1 + c.val) DBG_RCMD 2)

/-! ## Register space -/

/-- COMMIT (R78, R79). A write of COMMIT to a block's BLOCK_CTL that keeps EN. -/
def execCommit (i : Init) (st : Stop) (blk : Fin 16) (s : State) : Host.Outcome State Fault Refusal :=
  .next (regCmd s i st blk.val BLOCK_CTL (BitVec.ofNat 32 (2 + b2n (rbit s st (regBlk s st blk.val) BLOCK_CTL 0))))

/-- DISCARD (R81). A write of DISCARD to a block's BLOCK_CTL that keeps EN. -/
def execDiscard (i : Init) (st : Stop) (blk : Fin 16) (s : State) : Host.Outcome State Fault Refusal :=
  .next (regCmd s i st blk.val BLOCK_CTL (BitVec.ofNat 32 (4 + b2n (rbit s st (regBlk s st blk.val) BLOCK_CTL 0))))

/-- COMMIT_DONE (R67, R78, R80). -/
def execCommitDone (st : Stop) (blk : Fin 16) (s : State) : Host.Outcome State Fault Refusal :=
  if hasStaging st blk.val then
    let home := regHome st blk.val BLOCK_CTL
    .next (blockProceed (commitDone s home blk.val) (pkgNum s * 2 ^ 30 + rkey home blk.val 0))
  else .next s

/-- REGISTER_WRITE (R60, R67). A write of a register; with `lost` the path fails its check, the response is LINKERR and nothing is
performed (R63, R64). -/
def execRegisterWrite (i : Init) (addr v : Reg32) (lost : Bool) (s : State) : Host.Outcome State Fault Refusal :=
  if lost then
    let die : Stop := match stopOf (bits addr.toNat 22 8) with | some st => st | none => wsStop 0
    .next (setResp (postError s die false) ⟨4, 0⟩)
  else
    match regAcc s i .env addr.toNat (some v) with
    | (s1, some r) => .next (setResp s1 r)
    | (s1, none) => .next s1

/-- ACCESS_TIMEOUT (R63 to R65). A stalled access reaches its deadline: it completes with TIMEOUT, a write performed or not, and the wake
goes on. -/
def execAccessTimeout (n : Nat) (performed : Bool) (s : State) : Host.Outcome State Fault Refusal :=
  match s.reg.held[n]? with
  | none => .next s
  | some a =>
    let s1 := { s with reg := { s.reg with held := s.reg.held.eraseIdx n } }
    match regPlace s1 a.addr with
    | none => .next (regAnswer s1 a.who ⟨1, 0⟩ a.write.isNone)
    | some (st, blk, off) =>
      let s2 := if performed && a.write.isSome then (regDo s1 a.init st blk off a.write).1 else s1
      .next (blockProceed (regAnswer (postError s2 st true) a.who ⟨3, 0⟩ a.write.isNone) a.addr)

/-! ## Translation, caches and links -/

/-- IOTU_INV (R271). A write of GO to IOTU_INV, for a requester or for all. -/
def execIotuInv (i : Init) (n : Fin 12) (rid : BitVec 16) (all : Bool) (s : State) : Host.Outcome State Fault Refusal :=
  .next (regCmd s i (portStop n) 3 IOTU_INV (BitVec.ofNat 32 (rid.toNat + b2n all * 2 ^ 16 + 2 ^ 17)))

/-- IOTU_FLT_POP (R270). -/
def execIotuFltPop (i : Init) (n : Fin 12) (s : State) : Host.Outcome State Fault Refusal :=
  .next (regCmd s i (portStop n) 3 IOTU_FLT_POP 1)

/-- ERR_WINDOW_EXPIRE (R294, R428). The error window of an array's ways, or of a channel's lanes, ends: at a tile the L2 and L1 data
cache of core `n`, with 2 the slice; at a memory stop the channel of controller `n`. -/
def execErrWindowExpire (st : Stop) (n : Fin 3) (s : State) : Host.Outcome State Fault Refusal :=
  match stopKind st with
  | .tile =>
    if n = 2 then .next (winClear s st 5 L3_WAY_CECNT 12)
    else .next (winClear (winClear s st (3 + n.val) L2_WAY_CECNT 16) st (3 + n.val) L1D_WAY_CECNT 8)
  | .memory => if n = 2 then .next s else .next (laneWindow s st (if n = 0 then 0 else 1))
  | _ => .next s

/-- L2_WAY_REENABLE (R296). -/
def execL2WayReenable (i : Init) (st : Stop) (c : Fin 2) (ways : BitVec 16) (s : State) : Host.Outcome State Fault Refusal :=
  .next (regCmd s i st (3 + c.val) L2_WAY_REENABLE (ways.setWidth 32))

/-- L1D_WAY_REENABLE (R296). -/
def execL1dWayReenable (i : Init) (st : Stop) (c : Fin 2) (ways : BitVec 8) (s : State) : Host.Outcome State Fault Refusal :=
  .next (regCmd s i st (3 + c.val) L1D_WAY_REENABLE (ways.setWidth 32))

/-- L3_WAY_REENABLE (R296). -/
def execL3WayReenable (i : Init) (st : Stop) (ways : BitVec 12) (s : State) : Host.Outcome State Fault Refusal :=
  .next (regCmd s i st 5 L3_WAY_REENABLE (ways.setWidth 32))

/-- L2_EN (R299, R303). -/
def execL2En (i : Init) (st : Stop) (c : Fin 2) (on : Bool) (s : State) : Host.Outcome State Fault Refusal :=
  .next (regCmd s i st (3 + c.val) BLOCK_CTL (BitVec.ofNat 32 (b2n on)))

/-- L3_EN (R300). -/
def execL3En (i : Init) (st : Stop) (on : Bool) (s : State) : Host.Outcome State Fault Refusal :=
  .next (regCmd s i st 5 BLOCK_CTL (BitVec.ofNat 32 (b2n on)))

/-- L3_DEPOT (R306, R309). A write of L3_DEPOT.WAYS: bit k of `ways` for way 4 + k. -/
def execL3Depot (i : Init) (st : Stop) (ways : BitVec 8) (s : State) : Host.Outcome State Fault Refusal :=
  .next (regCmd s i st 5 L3_DEPOT (BitVec.ofNat 32 (ways.toNat * 16)))

/-- REVIVE (R323, R324). A write of REVIVE bits to RT_LINK_CMD. -/
def execRevive (i : Init) (st : Stop) (mask : BitVec 4) (s : State) : Host.Outcome State Fault Refusal :=
  .next (regCmd s i st 0 RT_LINK_CMD (mask.setWidth 32))

/-- FORD_REVIVE (R325). -/
def execFordRevive (i : Init) (die : Fin 2) (k : Fin 4) (s : State) : Host.Outcome State Fault Refusal :=
  .next (regCmd s i (fordStop die k) 1 FORD_CMD 1)

/-- CV_RETRAIN (R341). -/
def execCvRetrain (i : Init) (n : Fin 12) (s : State) : Host.Outcome State Fault Refusal :=
  .next (regCmd s i (portStop n) 5 CV_CMD 1)

/-- CV_REVIVE (R341). -/
def execCvRevive (i : Init) (n : Fin 12) (s : State) : Host.Outcome State Fault Refusal :=
  .next (regCmd s i (portStop n) 5 CV_CMD 2)

/-! ## Waybill queues -/

/-- WBQ_CFG (R349). A write of a configuration register of a queue: 0 CFG, 1 BASE_LO, 2 BASE_HI, 3 PROD, 4 CONS. -/
def execWbqCfg (i : Init) (st : Stop) (q : Fin 128) (r : Fin 5) (v : Reg32) (s : State) : Host.Outcome State Fault Refusal :=
  let off := match r with | 0 => WBQ_CFG | 1 => WBQ_BASE_LO | 2 => WBQ_BASE_HI | 3 => WBQ_PROD | 4 => WBQ_CONS
  .next (regCmd s i st 5 (wbqBase q.val + off) v)

/-- QUEUE_ENABLE (R350). A write of EN = 1, with IRQ_EN. -/
def execQueueEnable (i : Init) (st : Stop) (q : Fin 128) (irq : Bool) (s : State) : Host.Outcome State Fault Refusal :=
  .next (regCmd s i st 5 (wbqBase q.val + WBQ_CTL) (BitVec.ofNat 32 (1 + 4 * b2n irq)))

/-- QUEUE_DISABLE (R351). A write of EN = 0, with IRQ_EN. -/
def execQueueDisable (i : Init) (st : Stop) (q : Fin 128) (irq : Bool) (s : State) : Host.Outcome State Fault Refusal :=
  .next (regCmd s i st 5 (wbqBase q.val + WBQ_CTL) (BitVec.ofNat 32 (4 * b2n irq)))

/-- CNT_CLR (Table 10-5). A write of CNT_CLR that keeps EN and IRQ_EN. -/
def execCntClr (i : Init) (st : Stop) (q : Fin 128) (s : State) : Host.Outcome State Fault Refusal :=
  .next (regCmd s i st 5 (wbqBase q.val + WBQ_CTL)
    (BitVec.ofNat 32 (2 + wbqFld s st q.val WBQ_CTL 0 1 + 4 * wbqFld s st q.val WBQ_CTL 2 1)))

/-- WBQ_ARM (R360). -/
def execWbqArm (i : Init) (st : Stop) (q : Fin 128) (s : State) : Host.Outcome State Fault Refusal :=
  .next (regCmd s i st 5 (wbqBase q.val + WBQ_ARM) 1)

/-! ## Outriders -/

/-- A write of OR_CTL of an Outrider that keeps BENNAK. -/
def orCtlCmd (s : State) (i : Init) (n : Fin 16) (v : Nat) : State :=
  let r := orRegs n
  regCmd s i r.1 1 (r.2 + OR_CTL) (BitVec.ofNat 32 (v + 4 * b2n (rbit s r.1 1 (r.2 + OR_CTL) 2)))

/-- OR_CTL_GO (R401). -/
def execOrCtlGo (i : Init) (n : Fin 16) (s : State) : Host.Outcome State Fault Refusal := .next (orCtlCmd s i n 1)

/-- OR_CTL_STOP (R401). -/
def execOrCtlStop (i : Init) (n : Fin 16) (s : State) : Host.Outcome State Fault Refusal := .next (orCtlCmd s i n 2)

/-- OR_BENNAK (R391). A write of the Bennak mode. -/
def execOrBennak (i : Init) (n : Fin 16) (on : Bool) (s : State) : Host.Outcome State Fault Refusal :=
  .next (regCmd s i (orRegs n).1 1 ((orRegs n).2 + OR_CTL) (BitVec.ofNat 32 (4 * b2n on)))

/-- A line-cache command of an Outrider (Table 11-4). -/
def lcCmd (s : State) (i : Init) (n : Fin 16) (op : Nat) : State :=
  regCmd s i (orRegs n).1 1 ((orRegs n).2 + LC_CMD) (BitVec.ofNat 32 op)

/-- PRELOAD (R388). -/
def execPreload (i : Init) (n : Fin 16) (s : State) : Host.Outcome State Fault Refusal := .next (lcCmd s i n 1)

/-- PRELOAD_LOCK (R388). -/
def execPreloadLock (i : Init) (n : Fin 16) (s : State) : Host.Outcome State Fault Refusal := .next (lcCmd s i n 2)

/-- UNLOCK_LINE (R388). -/
def execUnlockLine (i : Init) (n : Fin 16) (s : State) : Host.Outcome State Fault Refusal := .next (lcCmd s i n 3)

/-- UNLOCK_ALL (R388). -/
def execUnlockAll (i : Init) (n : Fin 16) (s : State) : Host.Outcome State Fault Refusal := .next (lcCmd s i n 4)

/-- FLUSH (R388). -/
def execFlush (i : Init) (n : Fin 16) (s : State) : Host.Outcome State Fault Refusal := .next (lcCmd s i n 5)

/-- CP_CLR (R404). -/
def execCpClr (i : Init) (die : Fin 2) (s : State) : Host.Outcome State Fault Refusal := .next (regCmd s i (orStop die) 2 CP_CLR 1)

/-- TCM_WIN_WRITE (R405, R406). A write of a word of the window. -/
def execTcmWinWrite (i : Init) (die : Fin 2) (word : BitVec 12) (v : Reg32) (s : State) : Host.Outcome State Fault Refusal :=
  .next (regCmd s i (orStop die) 3 (TCM_WIN + 4 * word.toNat) v)

/-! ## Memory stops and ports -/

/-- A write of STK_CTL of a stack. -/
def stkCmd (s : State) (i : Init) (k : Fin 6) (cmd ch : Nat) : State := regCmd s i (stkStop k) 6 STK_CTL (BitVec.ofNat 32 (cmd + 8 * ch))

/-- STK_TRAIN (R422). -/
def execStkTrain (i : Init) (k : Fin 6) (s : State) : Host.Outcome State Fault Refusal := .next (stkCmd s i k 1 0)

/-- STK_RESTORE (R423). -/
def execStkRestore (i : Init) (k : Fin 6) (s : State) : Host.Outcome State Fault Refusal := .next (stkCmd s i k 2 0)

/-- STK_RETRAIN_STACK (R424). -/
def execStkRetrainStack (i : Init) (k : Fin 6) (s : State) : Host.Outcome State Fault Refusal := .next (stkCmd s i k 3 0)

/-- STK_RETRAIN_CHANNEL (R424). -/
def execStkRetrainChannel (i : Init) (k : Fin 6) (ch : Fin 8) (s : State) : Host.Outcome State Fault Refusal :=
  .next (stkCmd s i k 4 ch.val)

/-- STK_SAVE (R423). -/
def execStkSave (i : Init) (k : Fin 6) (s : State) : Host.Outcome State Fault Refusal := .next (stkCmd s i k 5 0)

/-- W1500_SHIFT (Table 12-8). A write of GO to W1500_GO. -/
def execW1500Shift (i : Init) (k : Fin 6) (s : State) : Host.Outcome State Fault Refusal := .next (regCmd s i (stkStop k) 6 W1500_GO 1)

/-- PHY_REMAP (R429). A write of PHY_REMAP_CMD with GO, for a lane of a pseudo-channel. -/
def execPhyRemap (i : Init) (st : Stop) (c : Fin 2) (pc : Fin 2) (lane : BitVec 7) (s : State) : Host.Outcome State Fault Refusal :=
  .next (regCmd s i st (phyBlk c) PHY_REMAP_CMD (BitVec.ofNat 32 (lane.toNat + 128 * pc.val + 256)))

/-- SPARE_CMD (R430). -/
def execSpareCmd (i : Init) (st : Stop) (c : Fin 2) (s : State) : Host.Outcome State Fault Refusal :=
  .next (regCmd s i st 5 (scrubOff c + SPARE_CMD) 1)

/-- CXL_WINDOW_EN (R433). A write of CXW_CTL with EN and HOME. -/
def execCxlWindowEn (i : Init) (n : Fin 12) (w : Fin 4) (on : Bool) (home : BitVec 3) (s : State) : Host.Outcome State Fault Refusal :=
  .next (regCmd s i (portStop n) 5 (CXW_CTL + 16 * w.val) (BitVec.ofNat 32 (b2n on + 2 * home.toNat)))

/-! ## Errors and locked tiles -/

/-- ERR_CAP_ACK (R453). -/
def execErrCapAck (i : Init) (st : Stop) (p : Fin 4) (s : State) : Host.Outcome State Fault Refusal :=
  .next (regCmd s i st 8 (ERR_CAP_ACK + 0x40 * p.val) 1)

/-- LEDGER_CLR (R463). -/
def execLedgerClr (i : Init) (die : Fin 2) (s : State) : Host.Outcome State Fault Refusal := .next (regCmd s i (wsStop die) 10 LEDGER_CLR 1)

/-- INJ_ARM (R460). A write of INJ_CTL. -/
def execInjArm (i : Init) (st : Stop) (v : BitVec 16) (s : State) : Host.Outcome State Fault Refusal :=
  .next (regCmd s i st 8 INJ_CTL (v.setWidth 32))

/-- LOCK (R465). A write of LOCK to LOCK_CMD. -/
def execLock (i : Init) (st : Stop) (s : State) : Host.Outcome State Fault Refusal := .next (regCmd s i st 0 LOCK_CMD 1)

/-- UNLOCK (R465). -/
def execUnlock (i : Init) (st : Stop) (s : State) : Host.Outcome State Fault Refusal := .next (regCmd s i st 0 LOCK_CMD 2)

/-- RETEST (R480). -/
def execRetest (i : Init) (st : Stop) (s : State) : Host.Outcome State Fault Refusal := .next (regCmd s i st 0 LOCK_CMD 3)

/-- LOCK_CLR (R483). -/
def execLockClr (i : Init) (st : Stop) (s : State) : Host.Outcome State Fault Refusal := .next (regCmd s i st 0 LOCK_CLR 1)

/-! ## Interrupts -/

/-- A write at an offset of the page of a thread. -/
def pageCmd (s : State) (i : Init) (h : Hart) (off : Nat) (v : Reg32) : State :=
  let p := intPage h
  if p.2.1 = 0 then s else regCmd s i p.1 p.2.1 (p.2.2 + off) v

/-- INT_SET (R488). -/
def execIntSet (i : Init) (h : Hart) (n : BitVec 6) (s : State) : Host.Outcome State Fault Refusal := .next (pageCmd s i h INT_SET (n.setWidth 32))

/-- INT_CLR (R488). -/
def execIntClr (i : Init) (h : Hart) (n : BitVec 6) (s : State) : Host.Outcome State Fault Refusal := .next (pageCmd s i h INT_CLR (n.setWidth 32))

/-- INT_ACK (R499). A read of INT_ACK_N or INT_ACK_S, whose value is kept as the response. -/
def execIntAck (i : Init) (h : Hart) (w : World) (s : State) : Host.Outcome State Fault Refusal :=
  let p := intPage h
  if p.2.1 = 0 then .next s
  else
    let off := p.2.2 + if w = .normal then INT_ACK_N else INT_ACK_S
    match regAcc s i .env (pkgNum s * 2 ^ 30 + rkey p.1 p.2.1 off) none with
    | (s1, some r) => .next (setResp s1 r)
    | (s1, none) => .next s1

/-- INT_EOI (R500). -/
def execIntEoi (i : Init) (h : Hart) (w : World) (s : State) : Host.Outcome State Fault Refusal :=
  .next (pageCmd s i h (if w = .normal then INT_EOI_N else INT_EOI_S) 0)

/-- SH_SET (R493). -/
def execShSet (i : Init) (k : Fin 14) (n : BitVec 12) (s : State) : Host.Outcome State Fault Refusal :=
  .next (regCmd s i (shTable k.val).1 (shTable k.val).2 SH_SET (n.setWidth 32))

/-- SH_CLR (R647). -/
def execShClr (i : Init) (k : Fin 14) (n : BitVec 12) (s : State) : Host.Outcome State Fault Refusal :=
  .next (regCmd s i (shTable k.val).1 (shTable k.val).2 SH_CLR (n.setWidth 32))

/-- SH_CFG_WRITE (R496). A write of SH_CFG of a source, or with `tgt` of its SH_TGT. -/
def execShCfgWrite (i : Init) (k : Fin 14) (n : BitVec 9) (tgt : Bool) (v : Reg32) (s : State) : Host.Outcome State Fault Refusal :=
  .next (regCmd s i (shTable k.val).1 (shTable k.val).2 ((if tgt then SH_TGT else SH_CFG) + 8 * n.toNat) v)

/-! ## Power -/

/-- DSEQ_POWER_UP (R514). A write of power up to DSEQ_CMD. -/
def execDseqPowerUp (i : Init) (st : Stop) (d : Fin 16) (s : State) : Host.Outcome State Fault Refusal :=
  .next (regCmd s i st 9 (0x10 * d.val + DSEQ_CMD) 1)

/-- DSEQ_POWER_DOWN (R512, R518). A write of power down to DSEQ_CMD, whose entry has come as far as phase `ap`, 6 being OFF. -/
def execDseqPowerDown (i : Init) (st : Stop) (d : Fin 16) (ap : Fin 7) (s : State) : Host.Outcome State Fault Refusal :=
  let ws := match i.hart with | some (.waystation _) => true | _ => false
  if regRefuse s i.world st 9 0 = .no ∧ guardOk i = true ∧ stopPowered s st = true then
    .next (setResp (seqDown s i.world ws st d.val ap.val) ⟨0, 0⟩)
  else .next (regCmd s i st 9 (0x10 * d.val + DSEQ_CMD) 2)

/-- What a unit does as its domain comes up: a controller's channels leave self-refresh (R514). -/
def unitUp (s : State) (st : Stop) (d : Nat) : State :=
  if stopKind st = .memory then selfRefreshExit s st (if d = 0 then 0 else 1) else s

/-- POWER_UP_DONE (R514). A domain is ON and the accesses held for it proceed. -/
def execPowerUpDone (st : Stop) (d : Fin 16) (s : State) : Host.Outcome State Fault Refusal :=
  if domExists st d.val = false ∨ domState s st d.val ≠ dWAKING then .next s else .next (heldProceed (unitUp (domUp s st d.val) st d.val) st d.val)

/-- BAND_GATE (R517, R518). -/
def execBandGate (i : Init) (die : Fin 2) (b : Fin 6) (s : State) : Host.Outcome State Fault Refusal :=
  .next (regCmd s i (wsStop die) 5 (bandBase b.val + BAND_CMD) 1)

/-- BAND_POWER_UP (R517). -/
def execBandPowerUp (i : Init) (die : Fin 2) (b : Fin 6) (s : State) : Host.Outcome State Fault Refusal :=
  .next (regCmd s i (wsStop die) 5 (bandBase b.val + BAND_CMD) 2)

/-- WCH_CTL (R535). -/
def execWchCtl (i : Init) (die : Fin 2) (n : Fin 32) (v : Reg32) (s : State) : Host.Outcome State Fault Refusal :=
  .next (regCmd s i (wsStop die) 6 (wchBase n.val + WCH_CTL) v)

/-! ## Worlds and monitoring -/

/-- WA_LOCK (R545, R557). -/
def execWaLock (i : Init) (s : State) : Host.Outcome State Fault Refusal := .next (regCmd s i (wsStop 0) 11 WA_LOCK 1)

/-- WA_ASSIGN (R545, R557). -/
def execWaAssign (i : Init) (v : BitVec 22) (s : State) : Host.Outcome State Fault Refusal :=
  .next (regCmd s i (wsStop 0) 11 WA_ASSIGN (v.setWidth 32))

/-- DBG_REVOKE (R550). -/
def execDbgRevoke (i : Init) (s : State) : Host.Outcome State Fault Refusal := .next (regCmd s i (wsStop 0) 12 DBG_REVOKE 1)

/-- PM_FREEZE (R575). A write of FREEZE to PM_GCTL. -/
def execPmFreeze (i : Init) (on : Bool) (s : State) : Host.Outcome State Fault Refusal :=
  .next (regCmd s i (wsStop 0) 7 PM_GCTL (BitVec.ofNat 32 (b2n on)))

/-- PM_SNAP (R575). A write of SNAP to PM_GCTL that keeps FREEZE. -/
def execPmSnap (i : Init) (s : State) : Host.Outcome State Fault Refusal :=
  .next (regCmd s i (wsStop 0) 7 PM_GCTL (BitVec.ofNat 32 (2 + b2n (rbit s (wsStop 0) 7 PM_GCTL 0))))

end Sys2Proof.Machine
end

