-- ==== Sys2Proof/Machine/Dispatch.lean ====
section
/-!
DEFINITION. The meaning of every command: one arm per row of the table.
-/

namespace Sys2Proof.Machine

/-- The effect of a command on everything but the queue. -/
def exec (i : Instr) (s : State) : Host.Outcome State Fault Refusal :=
  match i with
  | .add h q rd rs1 rs2 => Sys2Proof.Machine.execAdd h q rd rs1 rs2 s
  | .sub h q rd rs1 rs2 => Sys2Proof.Machine.execSub h q rd rs1 rs2 s
  | .and h q rd rs1 rs2 => Sys2Proof.Machine.execAnd h q rd rs1 rs2 s
  | .or h q rd rs1 rs2 => Sys2Proof.Machine.execOr h q rd rs1 rs2 s
  | .xor h q rd rs1 rs2 => Sys2Proof.Machine.execXor h q rd rs1 rs2 s
  | .andn h q rd rs1 rs2 => Sys2Proof.Machine.execAndn h q rd rs1 rs2 s
  | .sll h q rd rs1 rs2 => Sys2Proof.Machine.execSll h q rd rs1 rs2 s
  | .srl h q rd rs1 rs2 => Sys2Proof.Machine.execSrl h q rd rs1 rs2 s
  | .sra h q rd rs1 rs2 => Sys2Proof.Machine.execSra h q rd rs1 rs2 s
  | .ror h q rd rs1 rs2 => Sys2Proof.Machine.execRor h q rd rs1 rs2 s
  | .slt h q rd rs1 rs2 => Sys2Proof.Machine.execSlt h q rd rs1 rs2 s
  | .sltu h q rd rs1 rs2 => Sys2Proof.Machine.execSltu h q rd rs1 rs2 s
  | .min h q rd rs1 rs2 => Sys2Proof.Machine.execMin h q rd rs1 rs2 s
  | .max h q rd rs1 rs2 => Sys2Proof.Machine.execMax h q rd rs1 rs2 s
  | .minu h q rd rs1 rs2 => Sys2Proof.Machine.execMinu h q rd rs1 rs2 s
  | .maxu h q rd rs1 rs2 => Sys2Proof.Machine.execMaxu h q rd rs1 rs2 s
  | .addw h q rd rs1 rs2 => Sys2Proof.Machine.execAddw h q rd rs1 rs2 s
  | .subw h q rd rs1 rs2 => Sys2Proof.Machine.execSubw h q rd rs1 rs2 s
  | .sllw h q rd rs1 rs2 => Sys2Proof.Machine.execSllw h q rd rs1 rs2 s
  | .srlw h q rd rs1 rs2 => Sys2Proof.Machine.execSrlw h q rd rs1 rs2 s
  | .sraw h q rd rs1 rs2 => Sys2Proof.Machine.execSraw h q rd rs1 rs2 s
  | .clz h q rd rs1 => Sys2Proof.Machine.execClz h q rd rs1 s
  | .ctz h q rd rs1 => Sys2Proof.Machine.execCtz h q rd rs1 s
  | .popc h q rd rs1 => Sys2Proof.Machine.execPopc h q rd rs1 s
  | .rev8 h q rd rs1 => Sys2Proof.Machine.execRev8 h q rd rs1 s
  | .addi h q rd rs1 imm => Sys2Proof.Machine.execAddi h q rd rs1 imm s
  | .andi h q rd rs1 imm => Sys2Proof.Machine.execAndi h q rd rs1 imm s
  | .ori h q rd rs1 imm => Sys2Proof.Machine.execOri h q rd rs1 imm s
  | .xori h q rd rs1 imm => Sys2Proof.Machine.execXori h q rd rs1 imm s
  | .slli h q rd rs1 shamt => Sys2Proof.Machine.execSlli h q rd rs1 shamt s
  | .srli h q rd rs1 shamt => Sys2Proof.Machine.execSrli h q rd rs1 shamt s
  | .srai h q rd rs1 shamt => Sys2Proof.Machine.execSrai h q rd rs1 shamt s
  | .rori h q rd rs1 shamt => Sys2Proof.Machine.execRori h q rd rs1 shamt s
  | .slliw h q rd rs1 shamt => Sys2Proof.Machine.execSlliw h q rd rs1 shamt s
  | .srliw h q rd rs1 shamt => Sys2Proof.Machine.execSrliw h q rd rs1 shamt s
  | .sraiw h q rd rs1 shamt => Sys2Proof.Machine.execSraiw h q rd rs1 shamt s
  | .roriw h q rd rs1 shamt => Sys2Proof.Machine.execRoriw h q rd rs1 shamt s
  | .lui h q rd imm => Sys2Proof.Machine.execLui h q rd imm s
  | .auipc h q rd imm => Sys2Proof.Machine.execAuipc h q rd imm s
  | .mul h q rd rs1 rs2 => Sys2Proof.Machine.execMul h q rd rs1 rs2 s
  | .mulh h q rd rs1 rs2 => Sys2Proof.Machine.execMulh h q rd rs1 rs2 s
  | .mulhu h q rd rs1 rs2 => Sys2Proof.Machine.execMulhu h q rd rs1 rs2 s
  | .mulw h q rd rs1 rs2 => Sys2Proof.Machine.execMulw h q rd rs1 rs2 s
  | .div h q rd rs1 rs2 => Sys2Proof.Machine.execDiv h q rd rs1 rs2 s
  | .divu h q rd rs1 rs2 => Sys2Proof.Machine.execDivu h q rd rs1 rs2 s
  | .rem h q rd rs1 rs2 => Sys2Proof.Machine.execRem h q rd rs1 rs2 s
  | .remu h q rd rs1 rs2 => Sys2Proof.Machine.execRemu h q rd rs1 rs2 s
  | .divw h q rd rs1 rs2 => Sys2Proof.Machine.execDivw h q rd rs1 rs2 s
  | .divuw h q rd rs1 rs2 => Sys2Proof.Machine.execDivuw h q rd rs1 rs2 s
  | .j h q imm => Sys2Proof.Machine.execJ h q imm s
  | .jl h q imm => Sys2Proof.Machine.execJl h q imm s
  | .jalr h q rd rs1 imm => Sys2Proof.Machine.execJalr h q rd rs1 imm s
  | .cmp h q pt pf rs1 rs2 cond => Sys2Proof.Machine.execCmp h q pt pf rs1 rs2 cond s
  | .cmpi h q pt pf rs1 imm cond => Sys2Proof.Machine.execCmpi h q pt pf rs1 imm cond s
  | .plog h q pd pa pb na nb op => Sys2Proof.Machine.execPlog h q pd pa pb na nb op s
  | .prd h q rd => Sys2Proof.Machine.execPrd h q rd s
  | .pwr h q rs1 => Sys2Proof.Machine.execPwr h q rs1 s
  | .lb h q rd rs1 imm => Sys2Proof.Machine.execLb h q rd rs1 imm s
  | .lbu h q rd rs1 imm => Sys2Proof.Machine.execLbu h q rd rs1 imm s
  | .lh h q rd rs1 imm => Sys2Proof.Machine.execLh h q rd rs1 imm s
  | .lhu h q rd rs1 imm => Sys2Proof.Machine.execLhu h q rd rs1 imm s
  | .lw h q rd rs1 imm => Sys2Proof.Machine.execLw h q rd rs1 imm s
  | .lwu h q rd rs1 imm => Sys2Proof.Machine.execLwu h q rd rs1 imm s
  | .ld h q rd rs1 imm => Sys2Proof.Machine.execLd h q rd rs1 imm s
  | .sb h q rs2 rs1 imm => Sys2Proof.Machine.execSb h q rs2 rs1 imm s
  | .sh h q rs2 rs1 imm => Sys2Proof.Machine.execSh h q rs2 rs1 imm s
  | .sw h q rs2 rs1 imm => Sys2Proof.Machine.execSw h q rs2 rs1 imm s
  | .sd h q rs2 rs1 imm => Sys2Proof.Machine.execSd h q rs2 rs1 imm s
  | .lda h q sz rd rs1 => Sys2Proof.Machine.execLda h q sz rd rs1 s
  | .stl h q sz rs2 rs1 => Sys2Proof.Machine.execStl h q sz rs2 rs1 s
  | .ldx h q dword aq rl rd rs1 => Sys2Proof.Machine.execLdx h q dword aq rl rd rs1 s
  | .stx h q dword aq rl rd rs1 rs2 => Sys2Proof.Machine.execStx h q dword aq rl rd rs1 rs2 s
  | .amoSwap h q dword aq rl rd rs1 rs2 => Sys2Proof.Machine.execAmoSwap h q dword aq rl rd rs1 rs2 s
  | .amoAdd h q dword aq rl rd rs1 rs2 => Sys2Proof.Machine.execAmoAdd h q dword aq rl rd rs1 rs2 s
  | .amoAnd h q dword aq rl rd rs1 rs2 => Sys2Proof.Machine.execAmoAnd h q dword aq rl rd rs1 rs2 s
  | .amoOr h q dword aq rl rd rs1 rs2 => Sys2Proof.Machine.execAmoOr h q dword aq rl rd rs1 rs2 s
  | .amoXor h q dword aq rl rd rs1 rs2 => Sys2Proof.Machine.execAmoXor h q dword aq rl rd rs1 rs2 s
  | .amoSmin h q dword aq rl rd rs1 rs2 => Sys2Proof.Machine.execAmoSmin h q dword aq rl rd rs1 rs2 s
  | .amoSmax h q dword aq rl rd rs1 rs2 => Sys2Proof.Machine.execAmoSmax h q dword aq rl rd rs1 rs2 s
  | .amoUmin h q dword aq rl rd rs1 rs2 => Sys2Proof.Machine.execAmoUmin h q dword aq rl rd rs1 rs2 s
  | .amoUmax h q dword aq rl rd rs1 rs2 => Sys2Proof.Machine.execAmoUmax h q dword aq rl rd rs1 rs2 s
  | .amoCas h q dword aq rl rd rs1 rs2 => Sys2Proof.Machine.execAmoCas h q dword aq rl rd rs1 rs2 s
  | .fence h q => Sys2Proof.Machine.execFence h q s
  | .fenceLd h q => Sys2Proof.Machine.execFenceLd h q s
  | .fenceSt h q => Sys2Proof.Machine.execFenceSt h q s
  | .fenceI h q => Sys2Proof.Machine.execFenceI h q s
  | .prfL1 h q rs1 imm => Sys2Proof.Machine.execPrfL1 h q rs1 imm s
  | .prfL2 h q rs1 imm => Sys2Proof.Machine.execPrfL2 h q rs1 imm s
  | .prfW h q rs1 imm => Sys2Proof.Machine.execPrfW h q rs1 imm s
  | .prfNt h q rs1 imm => Sys2Proof.Machine.execPrfNt h q rs1 imm s
  | .vadd h q vd vs1 vs2 msk z esz => Sys2Proof.Machine.execVadd h q vd vs1 vs2 msk z esz s
  | .vsub h q vd vs1 vs2 msk z esz => Sys2Proof.Machine.execVsub h q vd vs1 vs2 msk z esz s
  | .vmul h q vd vs1 vs2 msk z esz => Sys2Proof.Machine.execVmul h q vd vs1 vs2 msk z esz s
  | .vmulhu h q vd vs1 vs2 msk z esz => Sys2Proof.Machine.execVmulhu h q vd vs1 vs2 msk z esz s
  | .vand h q vd vs1 vs2 msk z esz => Sys2Proof.Machine.execVand h q vd vs1 vs2 msk z esz s
  | .vor h q vd vs1 vs2 msk z esz => Sys2Proof.Machine.execVor h q vd vs1 vs2 msk z esz s
  | .vxor h q vd vs1 vs2 msk z esz => Sys2Proof.Machine.execVxor h q vd vs1 vs2 msk z esz s
  | .vandn h q vd vs1 vs2 msk z esz => Sys2Proof.Machine.execVandn h q vd vs1 vs2 msk z esz s
  | .vsll h q vd vs1 vs2 msk z esz => Sys2Proof.Machine.execVsll h q vd vs1 vs2 msk z esz s
  | .vsrl h q vd vs1 vs2 msk z esz => Sys2Proof.Machine.execVsrl h q vd vs1 vs2 msk z esz s
  | .vsra h q vd vs1 vs2 msk z esz => Sys2Proof.Machine.execVsra h q vd vs1 vs2 msk z esz s
  | .vcmpeq h q vd vs1 vs2 msk z esz => Sys2Proof.Machine.execVcmpeq h q vd vs1 vs2 msk z esz s
  | .vmin h q vd vs1 vs2 msk z esz => Sys2Proof.Machine.execVmin h q vd vs1 vs2 msk z esz s
  | .vmax h q vd vs1 vs2 msk z esz => Sys2Proof.Machine.execVmax h q vd vs1 vs2 msk z esz s
  | .vcmplt h q vd vs1 vs2 msk z esz => Sys2Proof.Machine.execVcmplt h q vd vs1 vs2 msk z esz s
  | .vfcmplt h q vd vs1 vs2 msk z esz => Sys2Proof.Machine.execVfcmplt h q vd vs1 vs2 msk z esz s
  | .vfadd h q vd vs1 vs2 msk z esz => Sys2Proof.Machine.execVfadd h q vd vs1 vs2 msk z esz s
  | .vfsub h q vd vs1 vs2 msk z esz => Sys2Proof.Machine.execVfsub h q vd vs1 vs2 msk z esz s
  | .vfmul h q vd vs1 vs2 msk z esz => Sys2Proof.Machine.execVfmul h q vd vs1 vs2 msk z esz s
  | .vfdiv h q vd vs1 vs2 msk z esz => Sys2Proof.Machine.execVfdiv h q vd vs1 vs2 msk z esz s
  | .vfma h q vd vs1 vs2 msk z esz => Sys2Proof.Machine.execVfma h q vd vs1 vs2 msk z esz s
  | .vfnma h q vd vs1 vs2 msk z esz => Sys2Proof.Machine.execVfnma h q vd vs1 vs2 msk z esz s
  | .vfmin h q vd vs1 vs2 msk z esz => Sys2Proof.Machine.execVfmin h q vd vs1 vs2 msk z esz s
  | .vfmax h q vd vs1 vs2 msk z esz => Sys2Proof.Machine.execVfmax h q vd vs1 vs2 msk z esz s
  | .vbcast h q vd vs1 msk z esz => Sys2Proof.Machine.execVbcast h q vd vs1 msk z esz s
  | .vcvtIf h q vd vs1 msk z esz => Sys2Proof.Machine.execVcvtIf h q vd vs1 msk z esz s
  | .vcvtFi h q vd vs1 msk z esz => Sys2Proof.Machine.execVcvtFi h q vd vs1 msk z esz s
  | .vfsqrt h q vd vs1 msk z esz => Sys2Proof.Machine.execVfsqrt h q vd vs1 msk z esz s
  | .vmovv h q vd vs1 msk z esz => Sys2Proof.Machine.execVmovv h q vd vs1 msk z esz s
  | .vext h q rd vs1 idx esz => Sys2Proof.Machine.execVext h q rd vs1 idx esz s
  | .vldStrided h q vd rs1 rs2 msk z esz => Sys2Proof.Machine.execVldStrided h q vd rs1 rs2 msk z esz s
  | .vldGather h q vd rs1 rs2 msk z esz => Sys2Proof.Machine.execVldGather h q vd rs1 rs2 msk z esz s
  | .vstStrided h q vd rs1 rs2 msk z esz => Sys2Proof.Machine.execVstStrided h q vd rs1 rs2 msk z esz s
  | .vstScatter h q vd rs1 rs2 msk z esz => Sys2Proof.Machine.execVstScatter h q vd rs1 rs2 msk z esz s
  | .kand h q rd rs1 rs2 => Sys2Proof.Machine.execKand h q rd rs1 rs2 s
  | .kor h q rd rs1 rs2 => Sys2Proof.Machine.execKor h q rd rs1 rs2 s
  | .kxor h q rd rs1 rs2 => Sys2Proof.Machine.execKxor h q rd rs1 rs2 s
  | .kandn h q rd rs1 rs2 => Sys2Proof.Machine.execKandn h q rd rs1 rs2 s
  | .kmovX h q rd rs1 => Sys2Proof.Machine.execKmovX h q rd rs1 s
  | .kmovR h q rd rs1 => Sys2Proof.Machine.execKmovR h q rd rs1 s
  | .wbPut h q sz rd rs1 rs2 => Sys2Proof.Machine.execWbPut h q sz rd rs1 rs2 s
  | .wbGet h q sz rd rs1 rs2 => Sys2Proof.Machine.execWbGet h q sz rd rs1 rs2 s
  | .wbPoll h q rd rs1 => Sys2Proof.Machine.execWbPoll h q rd rs1 s
  | .mfs h q rd sn => Sys2Proof.Machine.execMfs h q rd sn s
  | .mts h q sn rs1 => Sys2Proof.Machine.execMts h q sn rs1 s
  | .callS h q imm => Sys2Proof.Machine.execCallS h q imm s
  | .callH h q imm => Sys2Proof.Machine.execCallH h q imm s
  | .callM h q imm => Sys2Proof.Machine.execCallM h q imm s
  | .brk h q imm => Sys2Proof.Machine.execBreak h q imm s
  | .syncSt h q => Sys2Proof.Machine.execSyncSt h q s
  | .xret h q => Sys2Proof.Machine.execXret h q s
  | .wait h q rd rs1 => Sys2Proof.Machine.execWait h q rd rs1 s
  | .bpFlush h q => Sys2Proof.Machine.execBpFlush h q s
  | .bpBar h q => Sys2Proof.Machine.execBpBar h q s
  | .sealRot h q => Sys2Proof.Machine.execSealRot h q s
  | .tlbInvVa h q rs1 rs2 => Sys2Proof.Machine.execTlbInvVa h q rs1 rs2 s
  | .tlbInvAs h q rs1 => Sys2Proof.Machine.execTlbInvAs h q rs1 s
  | .tlbInvVm h q rs1 => Sys2Proof.Machine.execTlbInvVm h q rs1 s
  | .tlbInvTbl h q rs1 rs2 => Sys2Proof.Machine.execTlbInvTbl h q rs1 rs2 s
  | .tlbSync h q => Sys2Proof.Machine.execTlbSync h q s
  | .takeInterrupt h => Sys2Proof.Machine.execTakeInterrupt h s
  | .coreUe st c t0 t1 restartable => Sys2Proof.Machine.execCoreUe st c t0 t1 restartable s
  | .waitWake h => Sys2Proof.Machine.execWaitWake h s
  | .timerSourcePending h l => Sys2Proof.Machine.execTimerSourcePending h l s
  | .branchResolve h pc b dir tkn target traces => Sys2Proof.Machine.execBranchResolve h pc b dir tkn target traces s
  | .memoryOrderViolation h load => Sys2Proof.Machine.execMemoryOrderViolation h load s
  | .committedStoreDrain h => Sys2Proof.Machine.execCommittedStoreDrain h s
  | .tstartGo ini st c t => Sys2Proof.Machine.execTstartGo ini st c t s
  | .tstartStop ini st c t => Sys2Proof.Machine.execTstartStop ini st c t s
  | .pendingStartDone h => Sys2Proof.Machine.execPendingStartDone h s
  | .threadStopDone h => Sys2Proof.Machine.execThreadStopDone h s
  | .coreBlockEn ini st c on => Sys2Proof.Machine.execCoreBlockEn ini st c on s
  | .haltT ini st c t => Sys2Proof.Machine.execHaltT ini st c t s
  | .resumeT ini st c t => Sys2Proof.Machine.execResumeT ini st c t s
  | .haltTakesEffect h => Sys2Proof.Machine.execHaltTakesEffect h s
  | .dbgRead ini st c => Sys2Proof.Machine.execDbgRead ini st c s
  | .dbgWrite ini st c => Sys2Proof.Machine.execDbgWrite ini st c s
  | .commit ini st blk => Sys2Proof.Machine.execCommit ini st blk s
  | .discard ini st blk => Sys2Proof.Machine.execDiscard ini st blk s
  | .commitDone st blk => Sys2Proof.Machine.execCommitDone st blk s
  | .registerWrite ini addr v lost => Sys2Proof.Machine.execRegisterWrite ini addr v lost s
  | .accessTimeout n performed => Sys2Proof.Machine.execAccessTimeout n performed s
  | .ppsEdge falling => Sys2Proof.Machine.execPpsEdge falling s
  | .ppsLost => Sys2Proof.Machine.execPpsLost s
  | .tbLoad => Sys2Proof.Machine.execTbLoad s
  | .tbsync port value at_ => Sys2Proof.Machine.execTbsync port value at_ s
  | .ident port pkg die => Sys2Proof.Machine.execIdent port pkg die s
  | .deadnote port map => Sys2Proof.Machine.execDeadnote port map s
  | .tlbInvBroadcast place id => Sys2Proof.Machine.execTlbInvBroadcast place id s
  | .iotuInv ini n rid all => Sys2Proof.Machine.execIotuInv ini n rid all s
  | .iotuInvDone port => Sys2Proof.Machine.execIotuInvDone port s
  | .iotuFltPop ini n => Sys2Proof.Machine.execIotuFltPop ini n s
  | .readShared a line nt demand => Sys2Proof.Machine.execReadShared a line nt demand s
  | .readOwn a line nt => Sys2Proof.Machine.execReadOwn a line nt s
  | .upgrade a line => Sys2Proof.Machine.execUpgrade a line s
  | .readOnce a line => Sys2Proof.Machine.execReadOnce a line s
  | .writeOnce a pa data => Sys2Proof.Machine.execWriteOnce a pa data s
  | .writeBack a line data => Sys2Proof.Machine.execWriteBack a line data s
  | .notify a line => Sys2Proof.Machine.execNotify a line s
  | .snpShared a line => Sys2Proof.Machine.execSnpShared a line s
  | .snpInv a line => Sys2Proof.Machine.execSnpInv a line s
  | .evictionWriteIssue st line => Sys2Proof.Machine.execEvictionWriteIssue st line s
  | .memoryAck st line => Sys2Proof.Machine.execMemoryAck st line s
  | .packFill st line => Sys2Proof.Machine.execPackFill st line s
  | .packExpire st line => Sys2Proof.Machine.execPackExpire st line s
  | .streamExpire st page => Sys2Proof.Machine.execStreamExpire st page s
  | .cacheArrayError arr addr ue dirty => Sys2Proof.Machine.execCacheArrayError arr addr ue dirty s
  | .wayDisableDone st place => Sys2Proof.Machine.execWayDisableDone st place s
  | .errWindowExpire st n => Sys2Proof.Machine.execErrWindowExpire st n s
  | .l2WayReenable ini st c ways => Sys2Proof.Machine.execL2WayReenable ini st c ways s
  | .l1dWayReenable ini st c ways => Sys2Proof.Machine.execL1dWayReenable ini st c ways s
  | .l3WayReenable ini st ways => Sys2Proof.Machine.execL3WayReenable ini st ways s
  | .l2En ini st c on => Sys2Proof.Machine.execL2En ini st c on s
  | .l2DrainDone st c => Sys2Proof.Machine.execL2DrainDone st c s
  | .l3En ini st on => Sys2Proof.Machine.execL3En ini st on s
  | .l3DrainDone st => Sys2Proof.Machine.execL3DrainDone st s
  | .l3Depot ini st ways => Sys2Proof.Machine.execL3Depot ini st ways s
  | .convertDone st => Sys2Proof.Machine.execConvertDone st s
  | .retry op a line => Sys2Proof.Machine.execRetry op a line s
  | .retryReissue op a line => Sys2Proof.Machine.execRetryReissue op a line s
  | .flitCrcFail l good => Sys2Proof.Machine.execFlitCrcFail l good s
  | .routeDrop st => Sys2Proof.Machine.execRouteDrop st s
  | .noRoute h pa => Sys2Proof.Machine.execNoRoute h pa s
  | .revive ini st mask => Sys2Proof.Machine.execRevive ini st mask s
  | .fordRevive ini die k => Sys2Proof.Machine.execFordRevive ini die k s
  | .caravanTrainingTimeout port => Sys2Proof.Machine.execCaravanTrainingTimeout port s
  | .caravanFlit port fec crc idle seq ackv ackseq crvc crn => Sys2Proof.Machine.execCaravanFlit port fec crc idle seq ackv ackseq crvc crn s
  | .nak port ackseq => Sys2Proof.Machine.execNak port ackseq s
  | .ackTimer port => Sys2Proof.Machine.execAckTimer port s
  | .cvRetrain ini n => Sys2Proof.Machine.execCvRetrain ini n s
  | .cvRevive ini n => Sys2Proof.Machine.execCvRevive ini n s
  | .nodeFormationTimeout => Sys2Proof.Machine.execNodeFormationTimeout s
  | .devRead p tag w l pa sz => Sys2Proof.Machine.execDevRead p tag w l pa sz s
  | .devWrite p tag w l pa data => Sys2Proof.Machine.execDevWrite p tag w l pa data s
  | .atomic p tag w l pa dword op x e => Sys2Proof.Machine.execAtomic p tag w l pa dword op x e s
  | .waybill p tag w op sz pa classC source msg poison => Sys2Proof.Machine.execWaybill p tag w op sz pa classC source msg poison s
  | .tlbInval p tag scope regime vmid asid addr l5 => Sys2Proof.Machine.execTlbInval p tag scope regime vmid asid addr l5 s
  | .interrupt w locus shared src => Sys2Proof.Machine.execInterrupt w locus shared src s
  | .data p tag grant data poison ns => Sys2Proof.Machine.execData p tag grant data poison ns s
  | .ack p tag => Sys2Proof.Machine.execAck p tag s
  | .snpData p tag kept data => Sys2Proof.Machine.execSnpData p tag kept data s
  | .snpAck p tag kept => Sys2Proof.Machine.execSnpAck p tag kept s
  | .devResp p tag code pcie data => Sys2Proof.Machine.execDevResp p tag code pcie data s
  | .invAck p tag => Sys2Proof.Machine.execInvAck p tag s
  | .wbqCfg ini st q r v => Sys2Proof.Machine.execWbqCfg ini st q r v s
  | .queueEnable ini st q irq => Sys2Proof.Machine.execQueueEnable ini st q irq s
  | .queueDisable ini st q irq => Sys2Proof.Machine.execQueueDisable ini st q irq s
  | .queueBusyClear st q => Sys2Proof.Machine.execQueueBusyClear st q s
  | .cntClr ini st q => Sys2Proof.Machine.execCntClr ini st q s
  | .wbqArm ini st q => Sys2Proof.Machine.execWbqArm ini st q s
  | .doorbellPost port rid tc addr data ep => Sys2Proof.Machine.execDoorbellPost port rid tc addr data ep s
  | .wbqStateParityError st q both => Sys2Proof.Machine.execWbqStateParityError st q both s
  | .waybillConfirm h => Sys2Proof.Machine.execWaybillConfirm h s
  | .waybillCancel h => Sys2Proof.Machine.execWaybillCancel h s
  | .orCtlGo ini n => Sys2Proof.Machine.execOrCtlGo ini n s
  | .orCtlStop ini n => Sys2Proof.Machine.execOrCtlStop ini n s
  | .orBennak ini n on => Sys2Proof.Machine.execOrBennak ini n on s
  | .preload ini n => Sys2Proof.Machine.execPreload ini n s
  | .preloadLock ini n => Sys2Proof.Machine.execPreloadLock ini n s
  | .unlockLine ini n => Sys2Proof.Machine.execUnlockLine ini n s
  | .unlockAll ini n => Sys2Proof.Machine.execUnlockAll ini n s
  | .flush ini n => Sys2Proof.Machine.execFlush ini n s
  | .lcCmdDone n => Sys2Proof.Machine.execLcCmdDone n s
  | .outriderWaybillResult h tag => Sys2Proof.Machine.execOutriderWaybillResult h tag s
  | .outriderFault n => Sys2Proof.Machine.execOutriderFault n s
  | .cpClr ini die => Sys2Proof.Machine.execCpClr ini die s
  | .tcmWinWrite ini die word v => Sys2Proof.Machine.execTcmWinWrite ini die word v s
  | .panicAge n k => Sys2Proof.Machine.execPanicAge n k s
  | .panicRaise die k => Sys2Proof.Machine.execPanicRaise die k s
  | .panicWithdraw die k => Sys2Proof.Machine.execPanicWithdraw die k s
  | .refreshDue st c pc bank => Sys2Proof.Machine.execRefreshDue st c pc bank s
  | .idleTimerExpire st c pc bank => Sys2Proof.Machine.execIdleTimerExpire st c pc bank s
  | .hbmReadReturn pa out => Sys2Proof.Machine.execHbmReadReturn pa out s
  | .commandParityFailure st c => Sys2Proof.Machine.execCommandParityFailure st c s
  | .stackTempRead k deg => Sys2Proof.Machine.execStackTempRead k deg s
  | .stkTrain ini k => Sys2Proof.Machine.execStkTrain ini k s
  | .stkRestore ini k => Sys2Proof.Machine.execStkRestore ini k s
  | .stkRetrainStack ini k => Sys2Proof.Machine.execStkRetrainStack ini k s
  | .stkRetrainChannel ini k ch => Sys2Proof.Machine.execStkRetrainChannel ini k ch s
  | .stkSave ini k => Sys2Proof.Machine.execStkSave ini k s
  | .w1500Shift ini k => Sys2Proof.Machine.execW1500Shift ini k s
  | .phyRemap ini st c pc lane => Sys2Proof.Machine.execPhyRemap ini st c pc lane s
  | .remapDone st c => Sys2Proof.Machine.execRemapDone st c s
  | .spareCmd ini st c => Sys2Proof.Machine.execSpareCmd ini st c s
  | .sparingDone st c => Sys2Proof.Machine.execSparingDone st c s
  | .scrubRead pa out => Sys2Proof.Machine.execScrubRead pa out s
  | .cxlWindowEn ini n w on home => Sys2Proof.Machine.execCxlWindowEn ini n w on home s
  | .cxlTimeout pa write => Sys2Proof.Machine.execCxlTimeout pa write s
  | .cxlLinkDown port => Sys2Proof.Machine.execCxlLinkDown port s
  | .errCapAck ini st p => Sys2Proof.Machine.execErrCapAck ini st p s
  | .ledgerRecord die band => Sys2Proof.Machine.execLedgerRecord die band s
  | .reportLost die band => Sys2Proof.Machine.execReportLost die band s
  | .ledgerClr ini die => Sys2Proof.Machine.execLedgerClr ini die s
  | .injArm ini st v => Sys2Proof.Machine.execInjArm ini st v s
  | .injTrigger st addr => Sys2Proof.Machine.execInjTrigger st addr s
  | .injTime st => Sys2Proof.Machine.execInjTime st s
  | .txnTimeout st core kind a line => Sys2Proof.Machine.execTxnTimeout st core kind a line s
  | .lock ini st => Sys2Proof.Machine.execLock ini st s
  | .unlock ini st => Sys2Proof.Machine.execUnlock ini st s
  | .retest ini st => Sys2Proof.Machine.execRetest ini st s
  | .lockCmdDone st p0 p1 => Sys2Proof.Machine.execLockCmdDone st p0 p1 s
  | .groupCompare h check bad => Sys2Proof.Machine.execGroupCompare h check bad s
  | .requestCompare h good => Sys2Proof.Machine.execRequestCompare h good s
  | .recoveryResume st ns => Sys2Proof.Machine.execRecoveryResume st ns s
  | .selftestDone st p0 p1 ns => Sys2Proof.Machine.execSelftestDone st p0 p1 ns s
  | .cairnScrub h err => Sys2Proof.Machine.execCairnScrub h err s
  | .lockClr ini st => Sys2Proof.Machine.execLockClr ini st s
  | .intSet ini h n => Sys2Proof.Machine.execIntSet ini h n s
  | .intClr ini h n => Sys2Proof.Machine.execIntClr ini h n s
  | .intAck ini h w => Sys2Proof.Machine.execIntAck ini h w s
  | .intEoi ini h w => Sys2Proof.Machine.execIntEoi ini h w s
  | .shSet ini k n => Sys2Proof.Machine.execShSet ini k n s
  | .shClr ini k n => Sys2Proof.Machine.execShClr ini k n s
  | .shCfgWrite ini k n tgt v => Sys2Proof.Machine.execShCfgWrite ini k n tgt v s
  | .sharedOffer k ini => Sys2Proof.Machine.execSharedOffer k ini s
  | .intStateUe h stack table => Sys2Proof.Machine.execIntStateUe h stack table s
  | .bandFrequencyChange die b => Sys2Proof.Machine.execBandFrequencyChange die b s
  | .powerEstimate watts => Sys2Proof.Machine.execPowerEstimate watts s
  | .dseqPowerUp ini st d => Sys2Proof.Machine.execDseqPowerUp ini st d s
  | .dseqPowerDown ini st d ap => Sys2Proof.Machine.execDseqPowerDown ini st d ap s
  | .domainAutoEntry st d ap => Sys2Proof.Machine.execDomainAutoEntry st d ap s
  | .wakeEvent st d kind pkgKind arg => Sys2Proof.Machine.execWakeEvent st d kind pkgKind arg s
  | .powerUpDone st d => Sys2Proof.Machine.execPowerUpDone st d s
  | .seqTimeout st d => Sys2Proof.Machine.execSeqTimeout st d s
  | .bandGate ini die b => Sys2Proof.Machine.execBandGate ini die b s
  | .bandPowerUp ini die b => Sys2Proof.Machine.execBandPowerUp ini die b s
  | .campEntryDone => Sys2Proof.Machine.execCampEntryDone s
  | .campExit => Sys2Proof.Machine.execCampExit s
  | .dormantExit clock => Sys2Proof.Machine.execDormantExit clock s
  | .watchTick die i3c pins reach => Sys2Proof.Machine.execWatchTick die i3c pins reach s
  | .wchCtl ini die n v => Sys2Proof.Machine.execWchCtl ini die n v s
  | .thermalSample st deg => Sys2Proof.Machine.execThermalSample st deg s
  | .railDroop die b => Sys2Proof.Machine.execRailDroop die b s
  | .railUv die b => Sys2Proof.Machine.execRailUv die b s
  | .waLock ini => Sys2Proof.Machine.execWaLock ini s
  | .waAssign ini v => Sys2Proof.Machine.execWaAssign ini v s
  | .dbgRevoke ini => Sys2Proof.Machine.execDbgRevoke ini s
  | .pmFreeze ini on => Sys2Proof.Machine.execPmFreeze ini on s
  | .pmSnap ini => Sys2Proof.Machine.execPmSnap ini s
  | .pmAction => Sys2Proof.Machine.execPmAction s
  | .outboundCompletion port tag cpl => Sys2Proof.Machine.execOutboundCompletion port tag cpl s
  | .completionTimeout port tag => Sys2Proof.Machine.execCompletionTimeout port tag s
  | .pcieLinkDown port lost => Sys2Proof.Machine.execPcieLinkDown port lost s
  | .inboundMemoryRead port src addr len => Sys2Proof.Machine.execInboundMemoryRead port src addr len s
  | .inboundMemoryWrite port src ro addr data ep => Sys2Proof.Machine.execInboundMemoryWrite port src ro addr data ep s
  | .inboundAtomicop port src addr len op data => Sys2Proof.Machine.execInboundAtomicop port src addr len op data s
  | .translationRequest port rid addr => Sys2Proof.Machine.execTranslationRequest port rid addr s
  | .errCor port aer rid => Sys2Proof.Machine.execErrCor port aer rid s
  | .errNonfatal port aer rid => Sys2Proof.Machine.execErrNonfatal port aer rid s
  | .errFatal port aer rid => Sys2Proof.Machine.execErrFatal port aer rid s
  | .pme port => Sys2Proof.Machine.execPme port s
  | .secondaryBusReset port lost => Sys2Proof.Machine.execSecondaryBusReset port lost s
  | .epDoorbell q data ep => Sys2Proof.Machine.execEpDoorbell q data ep s
  | .perstN => Sys2Proof.Machine.execPerstN s
  | .hotReset => Sys2Proof.Machine.execHotReset s
  | .flr => Sys2Proof.Machine.execFlr s
  | .flrDone => Sys2Proof.Machine.execFlrDone s
  | .mbSubmit m ack => Sys2Proof.Machine.execMbSubmit m ack s
  | .mbAck m => Sys2Proof.Machine.execMbAck m s
  | .commandComplete m => Sys2Proof.Machine.execCommandComplete m s
  | .getInfo m => Sys2Proof.Machine.execGetInfo m s
  | .getTopology m => Sys2Proof.Machine.execGetTopology m s
  | .getNuma m => Sys2Proof.Machine.execGetNuma m s
  | .getStatus m => Sys2Proof.Machine.execGetStatus m s
  | .setPowerLimit m => Sys2Proof.Machine.execSetPowerLimit m s
  | .enterCamp m late => Sys2Proof.Machine.execEnterCamp m late s
  | .enterDormant m late => Sys2Proof.Machine.execEnterDormant m late s
  | .setWatch m => Sys2Proof.Machine.execSetWatch m s
  | .reset m go straps => Sys2Proof.Machine.execReset m go straps s
  | .retireSlice m => Sys2Proof.Machine.execRetireSlice m s
  | .reenableWays m => Sys2Proof.Machine.execReenableWays m s
  | .reviveLink m => Sys2Proof.Machine.execReviveLink m s
  | .laneRemap m => Sys2Proof.Machine.execLaneRemap m s
  | .spareRow m => Sys2Proof.Machine.execSpareRow m s
  | .retrain m => Sys2Proof.Machine.execRetrain m s
  | .ledgerRead m => Sys2Proof.Machine.execLedgerRead m s
  | .ledgerClear m => Sys2Proof.Machine.execLedgerClear m s
  | .setTileMode m => Sys2Proof.Machine.execSetTileMode m s
  | .getTileLock m => Sys2Proof.Machine.execGetTileLock m s
  | .setHbmMode m => Sys2Proof.Machine.execSetHbmMode m s
  | .setCxlWindow m => Sys2Proof.Machine.execSetCxlWindow m s
  | .getCxlWindows m => Sys2Proof.Machine.execGetCxlWindows m s
  | .orLoad m => Sys2Proof.Machine.execOrLoad m s
  | .orStop m => Sys2Proof.Machine.execOrStop m s
  | .orStatus m => Sys2Proof.Machine.execOrStatus m s
  | .fwuBegin m => Sys2Proof.Machine.execFwuBegin m s
  | .fwuData m => Sys2Proof.Machine.execFwuData m s
  | .fwuVerify m => Sys2Proof.Machine.execFwuVerify m s
  | .fwuActivate m => Sys2Proof.Machine.execFwuActivate m s
  | .fwuAbort m => Sys2Proof.Machine.execFwuAbort m s
  | .fwuCommitSvn m => Sys2Proof.Machine.execFwuCommitSvn m s
  | .spdm m => Sys2Proof.Machine.execSpdm m s
  | .debugToken m => Sys2Proof.Machine.execDebugToken m s
  | .debugRevoke m => Sys2Proof.Machine.execDebugRevoke m s
  | .getSensors m => Sys2Proof.Machine.execGetSensors m s
  | .getHealth m => Sys2Proof.Machine.execGetHealth m s
  | .getEvents m => Sys2Proof.Machine.execGetEvents m s
  | .getVersion c peer q => Sys2Proof.Machine.execGetVersion c peer q s
  | .getCapabilities c peer q => Sys2Proof.Machine.execGetCapabilities c peer q s
  | .negotiateAlgorithms c peer q => Sys2Proof.Machine.execNegotiateAlgorithms c peer q s
  | .getDigests c peer q => Sys2Proof.Machine.execGetDigests c peer q s
  | .getCertificate c peer q => Sys2Proof.Machine.execGetCertificate c peer q s
  | .challenge c peer q => Sys2Proof.Machine.execChallenge c peer q s
  | .getMeasurements c peer q => Sys2Proof.Machine.execGetMeasurements c peer q s
  | .setEndpointId peer eid => Sys2Proof.Machine.execSetEndpointId peer eid s
  | .getEndpointId peer => Sys2Proof.Machine.execGetEndpointId peer s
  | .getMctpVersionSupport peer => Sys2Proof.Machine.execGetMctpVersionSupport peer s
  | .getMessageTypeSupport peer => Sys2Proof.Machine.execGetMessageTypeSupport peer s
  | .pldmMonitoring peer sensor => Sys2Proof.Machine.execPldmMonitoring peer sensor s
  | .pldmFirmwareUpdate peer step a b data => Sys2Proof.Machine.execPldmFirmwareUpdate peer step a b data s
  | .pldmBase peer => Sys2Proof.Machine.execPldmBase peer s
  | .vendorDefined owner peer msg => Sys2Proof.Machine.execVendorDefined owner peer msg s
  | .entdaa addr => Sys2Proof.Machine.execEntdaa addr s
  | .setdasa static addr => Sys2Proof.Machine.execSetdasa static addr s
  | .lockstepHalt d => Sys2Proof.Machine.execLockstepHalt d s
  | .watchdogExpire d => Sys2Proof.Machine.execWatchdogExpire d s
  | .wsWdogKick => Sys2Proof.Machine.execWsWdogKick s
  | .standbySelftestDone pass => Sys2Proof.Machine.execStandbySelftestDone pass s
  | .pwrgoodRise straps flash => Sys2Proof.Machine.execPwrgoodRise straps flash s
  | .railInRegulation => Sys2Proof.Machine.execRailInRegulation s
  | .railAllowanceExpire => Sys2Proof.Machine.execRailAllowanceExpire s
  | .railRetry => Sys2Proof.Machine.execRailRetry s
  | .pwrgoodFall => Sys2Proof.Machine.execPwrgoodFall s
  | .resetN => Sys2Proof.Machine.execResetN s
  | .caravanWarmReset port => Sys2Proof.Machine.execCaravanWarmReset port s
  | .vddStbyLoss => Sys2Proof.Machine.execVddStbyLoss s
  | .portLinkUp port rate width mem => Sys2Proof.Machine.execPortLinkUp port rate width mem s
  | .caravanLinkActive port lanes => Sys2Proof.Machine.execCaravanLinkActive port lanes s
  | .linkRetrained l ok => Sys2Proof.Machine.execLinkRetrained l ok s
  | .stackTrainingDone k ch ok serial => Sys2Proof.Machine.execStackTrainingDone k ch ok serial s
  | .w1500ShiftDone k out => Sys2Proof.Machine.execW1500ShiftDone k out s
  | .cxlMemCompletion pa write poison => Sys2Proof.Machine.execCxlMemCompletion pa write poison s
  | .configurationWrite w => Sys2Proof.Machine.execConfigurationWrite w s
  | .perstNDeassert => Sys2Proof.Machine.execPerstNDeassert s
  | .railRecovers die b => Sys2Proof.Machine.execRailRecovers die b s
  | .crystalConfirmed => Sys2Proof.Machine.execCrystalConfirmed s
  | .refclk25Stable => Sys2Proof.Machine.execRefclk25Stable s
  | .regulatorReport die b => Sys2Proof.Machine.execRegulatorReport die b s

end Sys2Proof.Machine
end

