-- ==== Sys2Proof/WellFormed.lean ====
section
/-!
DEFINITION. Which commands are well formed: what they name exists, and what they carry has its size.  An ill-formed command comes
about on no part, and changes nothing (log entry 3).
-/

namespace Sys2Proof

/-- Whether a stop is a compute tile: rows 1 to 4 (Table 1-3). -/
def tileOk (st : Stop) : Bool := decide (st.y ≠ 0 ∧ st.y ≠ 5)

/-- Whether a stop is a memory stop: row 0 (Table 1-3). -/
def memoryOk (st : Stop) : Bool := decide (st.y = 0)

/-- Whether a thread exists: a Drover thread lies in a compute tile (R8). -/
def hartOk (h : Hart) : Bool :=
  match h with
  | .drover st _ _ => tileOk st
  | .outrider _ => true
  | .waystation _ => true

/-- Whether a physical address has at most 52 bits (R32). -/
def addrOk (pa : Nat) : Bool := decide (pa < 2 ^ 52)

/-- Whether a line number is that of a physical address (R32). -/
def lineOk (line : Nat) : Bool := decide (line < 2 ^ 46)

/-- Whether data is a line (Table 9-9). -/
def lineData (d : List Byte) : Bool := decide (d.length = 64)

/-- Whether data is what a device-class message carries (Table 9-9). -/
def wordData (d : List Byte) : Bool := decide (1 ≤ d.length ∧ d.length ≤ 8)

/-- Whether data is a part of a line (Table 9-9). -/
def partData (d : List Byte) : Bool := decide (1 ≤ d.length ∧ d.length ≤ 64)

/-- Whether data is what one inbound write carries: within one 4 KiB block (R588). -/
def tlpData (d : List Byte) : Bool := decide (1 ≤ d.length ∧ d.length ≤ 4096)

/-- Whether a command is well formed. -/
def wellFormed (i : Instr) : Bool :=
  match i with
  | .add h _ _ _ _ => hartOk h
  | .sub h _ _ _ _ => hartOk h
  | .and h _ _ _ _ => hartOk h
  | .or h _ _ _ _ => hartOk h
  | .xor h _ _ _ _ => hartOk h
  | .andn h _ _ _ _ => hartOk h
  | .sll h _ _ _ _ => hartOk h
  | .srl h _ _ _ _ => hartOk h
  | .sra h _ _ _ _ => hartOk h
  | .ror h _ _ _ _ => hartOk h
  | .slt h _ _ _ _ => hartOk h
  | .sltu h _ _ _ _ => hartOk h
  | .min h _ _ _ _ => hartOk h
  | .max h _ _ _ _ => hartOk h
  | .minu h _ _ _ _ => hartOk h
  | .maxu h _ _ _ _ => hartOk h
  | .addw h _ _ _ _ => hartOk h
  | .subw h _ _ _ _ => hartOk h
  | .sllw h _ _ _ _ => hartOk h
  | .srlw h _ _ _ _ => hartOk h
  | .sraw h _ _ _ _ => hartOk h
  | .clz h _ _ _ => hartOk h
  | .ctz h _ _ _ => hartOk h
  | .popc h _ _ _ => hartOk h
  | .rev8 h _ _ _ => hartOk h
  | .addi h _ _ _ _ => hartOk h
  | .andi h _ _ _ _ => hartOk h
  | .ori h _ _ _ _ => hartOk h
  | .xori h _ _ _ _ => hartOk h
  | .slli h _ _ _ _ => hartOk h
  | .srli h _ _ _ _ => hartOk h
  | .srai h _ _ _ _ => hartOk h
  | .rori h _ _ _ _ => hartOk h
  | .slliw h _ _ _ _ => hartOk h
  | .srliw h _ _ _ _ => hartOk h
  | .sraiw h _ _ _ _ => hartOk h
  | .roriw h _ _ _ _ => hartOk h
  | .lui h _ _ _ => hartOk h
  | .auipc h _ _ _ => hartOk h
  | .mul h _ _ _ _ => hartOk h
  | .mulh h _ _ _ _ => hartOk h
  | .mulhu h _ _ _ _ => hartOk h
  | .mulw h _ _ _ _ => hartOk h
  | .div h _ _ _ _ => hartOk h
  | .divu h _ _ _ _ => hartOk h
  | .rem h _ _ _ _ => hartOk h
  | .remu h _ _ _ _ => hartOk h
  | .divw h _ _ _ _ => hartOk h
  | .divuw h _ _ _ _ => hartOk h
  | .j h _ _ => hartOk h
  | .jl h _ _ => hartOk h
  | .jalr h _ _ _ _ => hartOk h
  | .cmp h _ _ _ _ _ _ => hartOk h
  | .cmpi h _ _ _ _ _ _ => hartOk h
  | .plog h _ _ _ _ _ _ _ => hartOk h
  | .prd h _ _ => hartOk h
  | .pwr h _ _ => hartOk h
  | .lb h _ _ _ _ => hartOk h
  | .lbu h _ _ _ _ => hartOk h
  | .lh h _ _ _ _ => hartOk h
  | .lhu h _ _ _ _ => hartOk h
  | .lw h _ _ _ _ => hartOk h
  | .lwu h _ _ _ _ => hartOk h
  | .ld h _ _ _ _ => hartOk h
  | .sb h _ _ _ _ => hartOk h
  | .sh h _ _ _ _ => hartOk h
  | .sw h _ _ _ _ => hartOk h
  | .sd h _ _ _ _ => hartOk h
  | .lda h _ _ _ _ => hartOk h
  | .stl h _ _ _ _ => hartOk h
  | .ldx h _ _ _ _ _ _ => hartOk h
  | .stx h _ _ _ _ _ _ _ => hartOk h
  | .amoSwap h _ _ _ _ _ _ _ => hartOk h
  | .amoAdd h _ _ _ _ _ _ _ => hartOk h
  | .amoAnd h _ _ _ _ _ _ _ => hartOk h
  | .amoOr h _ _ _ _ _ _ _ => hartOk h
  | .amoXor h _ _ _ _ _ _ _ => hartOk h
  | .amoSmin h _ _ _ _ _ _ _ => hartOk h
  | .amoSmax h _ _ _ _ _ _ _ => hartOk h
  | .amoUmin h _ _ _ _ _ _ _ => hartOk h
  | .amoUmax h _ _ _ _ _ _ _ => hartOk h
  | .amoCas h _ _ _ _ _ _ _ => hartOk h
  | .fence h _ => hartOk h
  | .fenceLd h _ => hartOk h
  | .fenceSt h _ => hartOk h
  | .fenceI h _ => hartOk h
  | .prfL1 h _ _ _ => hartOk h
  | .prfL2 h _ _ _ => hartOk h
  | .prfW h _ _ _ => hartOk h
  | .prfNt h _ _ _ => hartOk h
  | .vadd h _ _ _ _ _ _ _ => hartOk h
  | .vsub h _ _ _ _ _ _ _ => hartOk h
  | .vmul h _ _ _ _ _ _ _ => hartOk h
  | .vmulhu h _ _ _ _ _ _ _ => hartOk h
  | .vand h _ _ _ _ _ _ _ => hartOk h
  | .vor h _ _ _ _ _ _ _ => hartOk h
  | .vxor h _ _ _ _ _ _ _ => hartOk h
  | .vandn h _ _ _ _ _ _ _ => hartOk h
  | .vsll h _ _ _ _ _ _ _ => hartOk h
  | .vsrl h _ _ _ _ _ _ _ => hartOk h
  | .vsra h _ _ _ _ _ _ _ => hartOk h
  | .vcmpeq h _ _ _ _ _ _ _ => hartOk h
  | .vmin h _ _ _ _ _ _ _ => hartOk h
  | .vmax h _ _ _ _ _ _ _ => hartOk h
  | .vcmplt h _ _ _ _ _ _ _ => hartOk h
  | .vfcmplt h _ _ _ _ _ _ _ => hartOk h
  | .vfadd h _ _ _ _ _ _ _ => hartOk h
  | .vfsub h _ _ _ _ _ _ _ => hartOk h
  | .vfmul h _ _ _ _ _ _ _ => hartOk h
  | .vfdiv h _ _ _ _ _ _ _ => hartOk h
  | .vfma h _ _ _ _ _ _ _ => hartOk h
  | .vfnma h _ _ _ _ _ _ _ => hartOk h
  | .vfmin h _ _ _ _ _ _ _ => hartOk h
  | .vfmax h _ _ _ _ _ _ _ => hartOk h
  | .vbcast h _ _ _ _ _ _ => hartOk h
  | .vcvtIf h _ _ _ _ _ _ => hartOk h
  | .vcvtFi h _ _ _ _ _ _ => hartOk h
  | .vfsqrt h _ _ _ _ _ _ => hartOk h
  | .vmovv h _ _ _ _ _ _ => hartOk h
  | .vext h _ _ _ _ _ => hartOk h
  | .vldStrided h _ _ _ _ _ _ _ => hartOk h
  | .vldGather h _ _ _ _ _ _ _ => hartOk h
  | .vstStrided h _ _ _ _ _ _ _ => hartOk h
  | .vstScatter h _ _ _ _ _ _ _ => hartOk h
  | .kand h _ _ _ _ => hartOk h
  | .kor h _ _ _ _ => hartOk h
  | .kxor h _ _ _ _ => hartOk h
  | .kandn h _ _ _ _ => hartOk h
  | .kmovX h _ _ _ => hartOk h
  | .kmovR h _ _ _ => hartOk h
  | .wbPut h _ _ _ _ _ => hartOk h
  | .wbGet h _ _ _ _ _ => hartOk h
  | .wbPoll h _ _ _ => hartOk h
  | .mfs h _ _ _ => hartOk h
  | .mts h _ _ _ => hartOk h
  | .callS h _ _ => hartOk h
  | .callH h _ _ => hartOk h
  | .callM h _ _ => hartOk h
  | .brk h _ _ => hartOk h
  | .syncSt h _ => hartOk h
  | .xret h _ => hartOk h
  | .wait h _ _ _ => hartOk h
  | .bpFlush h _ => hartOk h
  | .bpBar h _ => hartOk h
  | .sealRot h _ => hartOk h
  | .tlbInvVa h _ _ _ => hartOk h
  | .tlbInvAs h _ _ => hartOk h
  | .tlbInvVm h _ _ => hartOk h
  | .tlbInvTbl h _ _ _ => hartOk h
  | .tlbSync h _ => hartOk h
  | .takeInterrupt h => hartOk h
  | .coreUe st _ _ _ _ => tileOk st
  | .waitWake h => hartOk h
  | .timerSourcePending h _ => hartOk h
  | .branchResolve h _ _ _ _ _ _ => hartOk h
  | .memoryOrderViolation h _ => hartOk h
  | .committedStoreDrain h => hartOk h
  | .tstartGo _ st _ _ => tileOk st
  | .tstartStop _ st _ _ => tileOk st
  | .pendingStartDone h => hartOk h
  | .threadStopDone h => hartOk h
  | .coreBlockEn _ st _ _ => tileOk st
  | .haltT _ st _ _ => tileOk st
  | .resumeT _ st _ _ => tileOk st
  | .haltTakesEffect h => hartOk h
  | .dbgRead _ st _ => tileOk st
  | .dbgWrite _ st _ => tileOk st
  | .commit _ _ _ => true
  | .discard _ _ _ => true
  | .commitDone _ _ => true
  | .registerWrite _ _ _ _ => true
  | .accessTimeout _ _ => true
  | .ppsEdge _ => true
  | .ppsLost => true
  | .tbLoad => true
  | .tbsync _ _ _ => true
  | .ident _ _ _ => true
  | .deadnote _ _ => true
  | .tlbInvBroadcast _ _ => true
  | .iotuInv _ _ _ _ => true
  | .iotuInvDone _ => true
  | .iotuFltPop _ _ => true
  | .readShared _ line _ _ => lineOk line
  | .readOwn _ line _ => lineOk line
  | .upgrade _ line => lineOk line
  | .readOnce _ line => lineOk line
  | .writeOnce _ pa data => addrOk pa && partData data
  | .writeBack _ line data => lineOk line && lineData data
  | .notify _ line => lineOk line
  | .snpShared _ line => lineOk line
  | .snpInv _ line => lineOk line
  | .evictionWriteIssue st line => tileOk st && lineOk line
  | .memoryAck st line => tileOk st && lineOk line
  | .packFill st line => tileOk st && lineOk line
  | .packExpire st line => tileOk st && lineOk line
  | .streamExpire st _ => tileOk st
  | .cacheArrayError _ _ _ _ => true
  | .wayDisableDone st _ => tileOk st
  | .errWindowExpire _ _ => true
  | .l2WayReenable _ st _ _ => tileOk st
  | .l1dWayReenable _ st _ _ => tileOk st
  | .l3WayReenable _ st _ => tileOk st
  | .l2En _ st _ _ => tileOk st
  | .l2DrainDone st _ => tileOk st
  | .l3En _ st _ => tileOk st
  | .l3DrainDone st => tileOk st
  | .l3Depot _ st _ => tileOk st
  | .convertDone st => tileOk st
  | .retry _ _ line => lineOk line
  | .retryReissue _ _ line => lineOk line
  | .flitCrcFail _ _ => true
  | .routeDrop _ => true
  | .noRoute h pa => hartOk h && addrOk pa
  | .revive _ _ _ => true
  | .fordRevive _ _ _ => true
  | .caravanTrainingTimeout _ => true
  | .caravanFlit _ _ _ _ _ _ _ _ _ => true
  | .nak _ _ => true
  | .ackTimer _ => true
  | .cvRetrain _ _ => true
  | .cvRevive _ _ => true
  | .nodeFormationTimeout => true
  | .devRead _ _ _ _ pa _ => addrOk pa
  | .devWrite _ _ _ _ pa data => addrOk pa && wordData data
  | .atomic _ _ _ _ pa _ _ _ _ => addrOk pa
  | .waybill _ _ _ _ _ pa _ _ _ _ => addrOk pa
  | .tlbInval _ _ _ _ _ _ _ _ => true
  | .interrupt _ _ _ _ => true
  | .data _ _ _ data _ _ => lineData data
  | .ack _ _ => true
  | .snpData _ _ _ data => lineData data
  | .snpAck _ _ _ => true
  | .devResp _ _ _ _ _ => true
  | .invAck _ _ => true
  | .wbqCfg _ st _ _ _ => tileOk st
  | .queueEnable _ st _ _ => tileOk st
  | .queueDisable _ st _ _ => tileOk st
  | .queueBusyClear st _ => tileOk st
  | .cntClr _ st _ => tileOk st
  | .wbqArm _ st _ => tileOk st
  | .doorbellPost _ _ _ _ data _ => tlpData data
  | .wbqStateParityError st _ _ => tileOk st
  | .waybillConfirm h => hartOk h
  | .waybillCancel h => hartOk h
  | .orCtlGo _ _ => true
  | .orCtlStop _ _ => true
  | .orBennak _ _ _ => true
  | .preload _ _ => true
  | .preloadLock _ _ => true
  | .unlockLine _ _ => true
  | .unlockAll _ _ => true
  | .flush _ _ => true
  | .lcCmdDone _ => true
  | .outriderWaybillResult h _ => hartOk h
  | .outriderFault _ => true
  | .cpClr _ _ => true
  | .tcmWinWrite _ _ _ _ => true
  | .panicAge _ _ => true
  | .panicRaise _ _ => true
  | .panicWithdraw _ _ => true
  | .refreshDue st _ _ _ => memoryOk st
  | .idleTimerExpire st _ _ _ => memoryOk st
  | .hbmReadReturn pa _ => addrOk pa
  | .commandParityFailure st _ => memoryOk st
  | .stackTempRead _ _ => true
  | .stkTrain _ _ => true
  | .stkRestore _ _ => true
  | .stkRetrainStack _ _ => true
  | .stkRetrainChannel _ _ _ => true
  | .stkSave _ _ => true
  | .w1500Shift _ _ => true
  | .phyRemap _ st _ _ _ => memoryOk st
  | .remapDone st _ => memoryOk st
  | .spareCmd _ st _ => memoryOk st
  | .sparingDone st _ => memoryOk st
  | .scrubRead pa _ => addrOk pa
  | .cxlWindowEn _ _ _ _ _ => true
  | .cxlTimeout pa _ => addrOk pa
  | .cxlLinkDown _ => true
  | .errCapAck _ _ _ => true
  | .ledgerRecord _ _ => true
  | .reportLost _ _ => true
  | .ledgerClr _ _ => true
  | .injArm _ _ _ => true
  | .injTrigger _ _ => true
  | .injTime _ => true
  | .txnTimeout st _ _ _ line => tileOk st && lineOk line
  | .lock _ st => tileOk st
  | .unlock _ st => tileOk st
  | .retest _ st => tileOk st
  | .lockCmdDone st _ _ => tileOk st
  | .groupCompare h _ _ => hartOk h
  | .requestCompare h _ => hartOk h
  | .recoveryResume st _ => tileOk st
  | .selftestDone st _ _ _ => tileOk st
  | .cairnScrub h _ => hartOk h
  | .lockClr _ st => tileOk st
  | .intSet _ h _ => hartOk h
  | .intClr _ h _ => hartOk h
  | .intAck _ h _ => hartOk h
  | .intEoi _ h _ => hartOk h
  | .shSet _ _ _ => true
  | .shClr _ _ _ => true
  | .shCfgWrite _ _ _ _ _ => true
  | .sharedOffer _ _ => true
  | .intStateUe h _ _ => hartOk h
  | .bandFrequencyChange _ _ => true
  | .powerEstimate _ => true
  | .dseqPowerUp _ _ _ => true
  | .dseqPowerDown _ _ _ _ => true
  | .domainAutoEntry st _ _ => tileOk st
  | .wakeEvent _ _ _ _ _ => true
  | .powerUpDone _ _ => true
  | .seqTimeout _ _ => true
  | .bandGate _ _ _ => true
  | .bandPowerUp _ _ _ => true
  | .campEntryDone => true
  | .campExit => true
  | .dormantExit _ => true
  | .watchTick _ _ _ _ => true
  | .wchCtl _ _ _ _ => true
  | .thermalSample _ _ => true
  | .railDroop _ _ => true
  | .railUv _ _ => true
  | .waLock _ => true
  | .waAssign _ _ => true
  | .dbgRevoke _ => true
  | .pmFreeze _ _ => true
  | .pmSnap _ => true
  | .pmAction => true
  | .outboundCompletion _ _ _ => true
  | .completionTimeout _ _ => true
  | .pcieLinkDown _ _ => true
  | .inboundMemoryRead _ _ _ _ => true
  | .inboundMemoryWrite _ _ _ _ data _ => tlpData data
  | .inboundAtomicop _ _ _ _ _ _ => true
  | .translationRequest _ _ _ => true
  | .errCor _ _ _ => true
  | .errNonfatal _ _ _ => true
  | .errFatal _ _ _ => true
  | .pme _ => true
  | .secondaryBusReset _ _ => true
  | .epDoorbell _ data _ => tlpData data
  | .perstN => true
  | .hotReset => true
  | .flr => true
  | .flrDone => true
  | .mbSubmit _ _ => true
  | .mbAck _ => true
  | .commandComplete _ => true
  | .getInfo _ => true
  | .getTopology _ => true
  | .getNuma _ => true
  | .getStatus _ => true
  | .setPowerLimit _ => true
  | .enterCamp _ _ => true
  | .enterDormant _ _ => true
  | .setWatch _ => true
  | .reset _ _ _ => true
  | .retireSlice _ => true
  | .reenableWays _ => true
  | .reviveLink _ => true
  | .laneRemap _ => true
  | .spareRow _ => true
  | .retrain _ => true
  | .ledgerRead _ => true
  | .ledgerClear _ => true
  | .setTileMode _ => true
  | .getTileLock _ => true
  | .setHbmMode _ => true
  | .setCxlWindow _ => true
  | .getCxlWindows _ => true
  | .orLoad _ => true
  | .orStop _ => true
  | .orStatus _ => true
  | .fwuBegin _ => true
  | .fwuData _ => true
  | .fwuVerify _ => true
  | .fwuActivate _ => true
  | .fwuAbort _ => true
  | .fwuCommitSvn _ => true
  | .spdm _ => true
  | .debugToken _ => true
  | .debugRevoke _ => true
  | .getSensors _ => true
  | .getHealth _ => true
  | .getEvents _ => true
  | .getVersion _ _ _ => true
  | .getCapabilities _ _ _ => true
  | .negotiateAlgorithms _ _ _ => true
  | .getDigests _ _ _ => true
  | .getCertificate _ _ _ => true
  | .challenge _ _ _ => true
  | .getMeasurements _ _ _ => true
  | .setEndpointId _ _ => true
  | .getEndpointId _ => true
  | .getMctpVersionSupport _ => true
  | .getMessageTypeSupport _ => true
  | .pldmMonitoring _ _ => true
  | .pldmFirmwareUpdate _ _ _ _ _ => true
  | .pldmBase _ => true
  | .vendorDefined _ _ _ => true
  | .entdaa _ => true
  | .setdasa _ _ => true
  | .lockstepHalt _ => true
  | .watchdogExpire _ => true
  | .wsWdogKick => true
  | .standbySelftestDone _ => true
  | .pwrgoodRise _ _ => true
  | .railInRegulation => true
  | .railAllowanceExpire => true
  | .railRetry => true
  | .pwrgoodFall => true
  | .resetN => true
  | .caravanWarmReset _ => true
  | .vddStbyLoss => true
  | .portLinkUp _ _ _ _ => true
  | .caravanLinkActive _ _ => true
  | .linkRetrained _ _ => true
  | .stackTrainingDone _ _ _ _ => true
  | .w1500ShiftDone _ _ => true
  | .cxlMemCompletion pa _ _ => addrOk pa
  | .configurationWrite _ => true
  | .perstNDeassert => true
  | .railRecovers _ _ => true
  | .crystalConfirmed => true
  | .refclk25Stable => true
  | .regulatorReport _ _ => true

end Sys2Proof
end

