-- ==== Sys2Proof/Safety.lean ====
section
/-!
DEFINITION. The terms of the claims: the form the state keeps, when an instruction is next, and what it leaves unchanged.
-/

namespace Sys2Proof.Machine

/-! ## The form of the state -/

/-- Memory is in canonical form. -/
def MemInv (s : State) : Prop := Memory.wf s.mem = true

/-! ## When an instruction is next -/

/-- The check of the fetch of a hart's next instruction: the state after it, what it raises, and whether it waits. -/
def fetchOf (s : State) (h : Hart) : State × Option Exc × Bool := if isDrover h then fetchCheck s h else physFetch s h

/-- The hart and the predicate field of a command that is an instruction (Tables 3-20, 4-1); none for the other commands. -/
def headOf : Instr → Option (Hart × BitVec 4)
  | .add h q _ _ _ => some (h, q)
  | .sub h q _ _ _ => some (h, q)
  | .and h q _ _ _ => some (h, q)
  | .or h q _ _ _ => some (h, q)
  | .xor h q _ _ _ => some (h, q)
  | .andn h q _ _ _ => some (h, q)
  | .sll h q _ _ _ => some (h, q)
  | .srl h q _ _ _ => some (h, q)
  | .sra h q _ _ _ => some (h, q)
  | .ror h q _ _ _ => some (h, q)
  | .slt h q _ _ _ => some (h, q)
  | .sltu h q _ _ _ => some (h, q)
  | .min h q _ _ _ => some (h, q)
  | .max h q _ _ _ => some (h, q)
  | .minu h q _ _ _ => some (h, q)
  | .maxu h q _ _ _ => some (h, q)
  | .addw h q _ _ _ => some (h, q)
  | .subw h q _ _ _ => some (h, q)
  | .sllw h q _ _ _ => some (h, q)
  | .srlw h q _ _ _ => some (h, q)
  | .sraw h q _ _ _ => some (h, q)
  | .clz h q _ _ => some (h, q)
  | .ctz h q _ _ => some (h, q)
  | .popc h q _ _ => some (h, q)
  | .rev8 h q _ _ => some (h, q)
  | .addi h q _ _ _ => some (h, q)
  | .andi h q _ _ _ => some (h, q)
  | .ori h q _ _ _ => some (h, q)
  | .xori h q _ _ _ => some (h, q)
  | .slli h q _ _ _ => some (h, q)
  | .srli h q _ _ _ => some (h, q)
  | .srai h q _ _ _ => some (h, q)
  | .rori h q _ _ _ => some (h, q)
  | .slliw h q _ _ _ => some (h, q)
  | .srliw h q _ _ _ => some (h, q)
  | .sraiw h q _ _ _ => some (h, q)
  | .roriw h q _ _ _ => some (h, q)
  | .lui h q _ _ => some (h, q)
  | .auipc h q _ _ => some (h, q)
  | .mul h q _ _ _ => some (h, q)
  | .mulh h q _ _ _ => some (h, q)
  | .mulhu h q _ _ _ => some (h, q)
  | .mulw h q _ _ _ => some (h, q)
  | .div h q _ _ _ => some (h, q)
  | .divu h q _ _ _ => some (h, q)
  | .rem h q _ _ _ => some (h, q)
  | .remu h q _ _ _ => some (h, q)
  | .divw h q _ _ _ => some (h, q)
  | .divuw h q _ _ _ => some (h, q)
  | .j h q _ => some (h, q)
  | .jl h q _ => some (h, q)
  | .jalr h q _ _ _ => some (h, q)
  | .cmp h q _ _ _ _ _ => some (h, q)
  | .cmpi h q _ _ _ _ _ => some (h, q)
  | .plog h q _ _ _ _ _ _ => some (h, q)
  | .prd h q _ => some (h, q)
  | .pwr h q _ => some (h, q)
  | .lb h q _ _ _ => some (h, q)
  | .lbu h q _ _ _ => some (h, q)
  | .lh h q _ _ _ => some (h, q)
  | .lhu h q _ _ _ => some (h, q)
  | .lw h q _ _ _ => some (h, q)
  | .lwu h q _ _ _ => some (h, q)
  | .ld h q _ _ _ => some (h, q)
  | .sb h q _ _ _ => some (h, q)
  | .sh h q _ _ _ => some (h, q)
  | .sw h q _ _ _ => some (h, q)
  | .sd h q _ _ _ => some (h, q)
  | .lda h q _ _ _ => some (h, q)
  | .stl h q _ _ _ => some (h, q)
  | .ldx h q _ _ _ _ _ => some (h, q)
  | .stx h q _ _ _ _ _ _ => some (h, q)
  | .amoSwap h q _ _ _ _ _ _ => some (h, q)
  | .amoAdd h q _ _ _ _ _ _ => some (h, q)
  | .amoAnd h q _ _ _ _ _ _ => some (h, q)
  | .amoOr h q _ _ _ _ _ _ => some (h, q)
  | .amoXor h q _ _ _ _ _ _ => some (h, q)
  | .amoSmin h q _ _ _ _ _ _ => some (h, q)
  | .amoSmax h q _ _ _ _ _ _ => some (h, q)
  | .amoUmin h q _ _ _ _ _ _ => some (h, q)
  | .amoUmax h q _ _ _ _ _ _ => some (h, q)
  | .amoCas h q _ _ _ _ _ _ => some (h, q)
  | .fence h q => some (h, q)
  | .fenceLd h q => some (h, q)
  | .fenceSt h q => some (h, q)
  | .fenceI h q => some (h, q)
  | .prfL1 h q _ _ => some (h, q)
  | .prfL2 h q _ _ => some (h, q)
  | .prfW h q _ _ => some (h, q)
  | .prfNt h q _ _ => some (h, q)
  | .vadd h q _ _ _ _ _ _ => some (h, q)
  | .vsub h q _ _ _ _ _ _ => some (h, q)
  | .vmul h q _ _ _ _ _ _ => some (h, q)
  | .vmulhu h q _ _ _ _ _ _ => some (h, q)
  | .vand h q _ _ _ _ _ _ => some (h, q)
  | .vor h q _ _ _ _ _ _ => some (h, q)
  | .vxor h q _ _ _ _ _ _ => some (h, q)
  | .vandn h q _ _ _ _ _ _ => some (h, q)
  | .vsll h q _ _ _ _ _ _ => some (h, q)
  | .vsrl h q _ _ _ _ _ _ => some (h, q)
  | .vsra h q _ _ _ _ _ _ => some (h, q)
  | .vcmpeq h q _ _ _ _ _ _ => some (h, q)
  | .vmin h q _ _ _ _ _ _ => some (h, q)
  | .vmax h q _ _ _ _ _ _ => some (h, q)
  | .vcmplt h q _ _ _ _ _ _ => some (h, q)
  | .vfcmplt h q _ _ _ _ _ _ => some (h, q)
  | .vfadd h q _ _ _ _ _ _ => some (h, q)
  | .vfsub h q _ _ _ _ _ _ => some (h, q)
  | .vfmul h q _ _ _ _ _ _ => some (h, q)
  | .vfdiv h q _ _ _ _ _ _ => some (h, q)
  | .vfma h q _ _ _ _ _ _ => some (h, q)
  | .vfnma h q _ _ _ _ _ _ => some (h, q)
  | .vfmin h q _ _ _ _ _ _ => some (h, q)
  | .vfmax h q _ _ _ _ _ _ => some (h, q)
  | .vbcast h q _ _ _ _ _ => some (h, q)
  | .vcvtIf h q _ _ _ _ _ => some (h, q)
  | .vcvtFi h q _ _ _ _ _ => some (h, q)
  | .vfsqrt h q _ _ _ _ _ => some (h, q)
  | .vmovv h q _ _ _ _ _ => some (h, q)
  | .vext h q _ _ _ _ => some (h, q)
  | .vldStrided h q _ _ _ _ _ _ => some (h, q)
  | .vldGather h q _ _ _ _ _ _ => some (h, q)
  | .vstStrided h q _ _ _ _ _ _ => some (h, q)
  | .vstScatter h q _ _ _ _ _ _ => some (h, q)
  | .kand h q _ _ _ => some (h, q)
  | .kor h q _ _ _ => some (h, q)
  | .kxor h q _ _ _ => some (h, q)
  | .kandn h q _ _ _ => some (h, q)
  | .kmovX h q _ _ => some (h, q)
  | .kmovR h q _ _ => some (h, q)
  | .wbPut h q _ _ _ _ => some (h, q)
  | .wbGet h q _ _ _ _ => some (h, q)
  | .wbPoll h q _ _ => some (h, q)
  | .mfs h q _ _ => some (h, q)
  | .mts h q _ _ => some (h, q)
  | .callS h q _ => some (h, q)
  | .callH h q _ => some (h, q)
  | .callM h q _ => some (h, q)
  | .brk h q _ => some (h, q)
  | .syncSt h q => some (h, q)
  | .xret h q => some (h, q)
  | .wait h q _ _ => some (h, q)
  | .bpFlush h q => some (h, q)
  | .bpBar h q => some (h, q)
  | .sealRot h q => some (h, q)
  | .tlbInvVa h q _ _ => some (h, q)
  | .tlbInvAs h q _ => some (h, q)
  | .tlbInvVm h q _ => some (h, q)
  | .tlbInvTbl h q _ _ => some (h, q)
  | .tlbSync h q => some (h, q)
  | _ => none

/-- The instruction at a hart's PC is next: the hart runs, nothing is due at the boundary, and the fetch, after which the state is `s1`, finds
no fault and need not wait. -/
structure Fetches (s : State) (h : Hart) (s1 : State) : Prop where
  runs : canRun s h = true
  boundary : atBoundary s h = none
  fetched : fetchOf s h = (s1, none, false)

/-- The instruction that is next may be issued in the state `s1` after its fetch: its predicate field `q` is legal and its predicate true, and no
register of `xs` waits for a waybill result (Table 3-11, R84, R163). -/
structure Issues (s : State) (h : Hart) (q : BitVec 4) (xs : List Reg) (s1 : State) : Prop extends Fetches s h s1 where
  legal : q ≠ 8
  holds : predTrue (tget s1 h) q = true
  free : busyReg (tget s1 h) xs = false

/-- The state with a hart's thread changed by `f` of what it was. -/
def changes (h : Hart) (f : Thread → Thread) (s : State) : State := tmod s h f

/-- The state with a hart's PC moved. -/
def moveTo (s : State) (h : Hart) (pc : Word) : State := tmod s h fun t => { t with pc := pc }

/-- Nothing watches the retirement of an instruction that has left the state `s` and that began with its hart as `t0`: counters are frozen, no
sample is selected, STEP is not armed, the hart is not in Bennak mode and its pair is not locked. -/
structure Unwatched (s : State) (h : Hart) (t0 : Thread) : Prop where
  frozen : pmFrozen s = true
  noSample : (tget s h).smpSel = none
  noStep : stepArmed s t0 = false
  notBennak : bennak s h = false
  notLocked : hartLocked s h = false

/-- The state `t` after the retirement of an instruction that has left the state `s` (its hart's PC at the next instruction) and that
began with its hart as `t0`: the x, p, v and m registers are as the instruction left them; unless STEP is taken the hart
goes on at that PC in its level and world; unless a sample is recorded memory is as the instruction left it; and with nothing
watching, the whole state is, but for what the instruction may form a group with (R375). -/
structure Retired (s : State) (h : Hart) (t0 : Thread) (t : State) : Prop where
  regs : (tget t h).x = (tget s h).x ∧ (tget t h).p = (tget s h).p ∧ (tget t h).v = (tget s h).v ∧ (tget t h).m = (tget s h).m
  goesOn : stepArmed s t0 = false →
    (tget t h).pc = (tget s h).pc ∧ (tget t h).level = (tget s h).level ∧ (tget t h).world = (tget s h).world
  memory : stepArmed s t0 = false → bennak s h = false → sbit (tget s h) snSMP_CTL 0 = false → t.mem = s.mem
  whole : Unwatched s h t0 → ∃ word, t = changes h (fun u => { u with slotA := slotNext h t0 word }) s

/-! ## What an instruction does where it issues -/

/-- The PC of the next word. -/
def nextWord (t : Thread) : Word := t.pc + 4

/-- Wherever instruction `c` of hart `h`, with predicate field `q` and x registers `xs`, issues in a state `s1` that meets `pre`, it completes: it has
the effect `eff` on `s1`, its hart goes on at `pc`, and it retires. -/
def Does (c : Instr) (h : Hart) (q : BitVec 4) (xs : List Reg) (pre : State → Prop) (eff : State → State)
    (pc : Thread → Word) : Prop :=
  ∀ s s1, Issues s h q xs s1 → pre s1 →
    ∃ t, exec c s = .next t ∧ Retired (moveTo (eff s1) h (pc (tget s1 h))) h (tget s1 h) t

/-- `Does` for an instruction whose only effect is to write `f` of its hart's registers to x[rd]. -/
def WritesX (c : Instr) (h : Hart) (q : BitVec 4) (xs : List Reg) (rd : Reg) (f : Thread → Word) : Prop :=
  Does c h q xs (fun _ => True) (changes h fun t => xset t rd (f t)) nextWord

/-- Wherever instruction `c` of hart `h` issues in a state `s1` that meets `pre`, it takes an exception: cause `cause` with L_VAL `val` and
L_INFO `info`, and it writes no x, p, v or m register. -/
def Raises (c : Instr) (h : Hart) (q : BitVec 4) (xs : List Reg) (pre : State → Prop) (cause : Nat) (val info : State → Nat) : Prop :=
  ∀ s s1, Issues s h q xs s1 → pre s1 →
    ∃ t word, exec c s = .next t ∧ t = raise s1 h ⟨cause, val s1, info s1, none⟩ word ∧
      (tget t h).x = (tget s1 h).x ∧ (tget t h).p = (tget s1 h).p ∧ (tget t h).v = (tget s1 h).v ∧ (tget t h).m = (tget s1 h).m

/-- Wherever instruction `c` of hart `h` is next, its word encodes no instruction: it raises UNDEF, whatever its predicate, and writes no
register (R87). -/
def EncodesNone (c : Instr) (h : Hart) : Prop :=
  ∀ s s1, Fetches s h s1 →
    ∃ t word, exec c s = .next t ∧ t = raise s1 h (wordExc cUNDEF word) word ∧
      (tget t h).x = (tget s1 h).x ∧ (tget t h).p = (tget s1 h).p ∧ (tget t h).v = (tget s1 h).v ∧ (tget t h).m = (tget s1 h).m

/-- `WritesX` for an operation on two x registers, whatever they are. -/
def Writes2 (op : Hart → BitVec 4 → Reg → Reg → Reg → Instr) (f : Word → Word → Word) : Prop :=
  ∀ h q rd a b, WritesX (op h q rd a b) h q [rd, a, b] rd fun t => f (xget t a) (xget t b)

/-- `WritesX` for an operation on one x register, whatever it is. -/
def Writes1 (op : Hart → BitVec 4 → Reg → Reg → Instr) (f : Word → Word) : Prop :=
  ∀ h q rd a, WritesX (op h q rd a) h q [rd, a] rd fun t => f (xget t a)

/-- The low 32 bits of a word. -/
def low32 (x : Word) : BitVec 32 := x.setWidth 32

/-! ## Data accesses -/

/-- A load or store of `n` bytes, as the access checks see it, acquiring or releasing where the flag says so. -/
def loadReq (n : Nat) (aq : Bool) : AccReq := ⟨0, .read, false, n, false, false, aq, false⟩
def storeReq (n : Nat) (rel : Bool) : AccReq := ⟨0, .write, true, n, false, false, false, rel⟩

/-- LDX, STX and AMO operation `op` of `n` bytes. -/
def ldxReq (n : Nat) (aq rel : Bool) : AccReq := ⟨1, .read, false, n, false, false, aq, rel⟩
def stxReq (n : Nat) (aq rel : Bool) : AccReq := ⟨2, .write, true, n, false, false, aq, rel⟩
def amoReq (op n : Nat) (aq rel : Bool) : AccReq := ⟨16 + op, .rw, true, n, false, false, aq, rel⟩

/-- The access `r` of a Drover thread at virtual address `va` passes its checks in `s1` (alignment, translation, watchpoints, bus: orders 5 to 9 of
Table 3-11) and lies in memory; `s2` is the state after them and `ps` its parts with their physical addresses. -/
structure Reaches (s1 : State) (h : Hart) (r : AccReq) (va : Nat) (s2 : State) (ps : List Piece) : Prop where
  drover : isDrover h = true
  aligned : mustAlign s1 h r = true → va % r.n = 0
  passed : accCheck s1 h r va = (s2, .ok ps)
  inMemory : ∀ p ∈ ps, isDevice p.pa = false

/-- The physical address of an access: that of its lowest part. -/
def accAddr (ps : List Piece) : Nat := (ps.head?.map Piece.pa).getD 0

/-- The parts of a load can be read from memory: the stores that Table 6-1 puts before it are written, which leaves `s3`; no store of the thread
that still waits overlaps them (R181); their lines come, which leaves `s4`; nothing of them is poisoned. -/
structure Readable (s : State) (h : Hart) (r : AccReq) (ps : List Piece) (s3 s4 : State) : Prop where
  ordered : orderFirst s h r.aq r.rel = (s3, true)
  noStore : ∀ p ∈ ps, ∀ e ∈ (tget s3 h).stores, storeHits e p.pa p.n = false
  lines : readLines s3 h false ps = (s4, .there)

/-- A store can join the thread's committed stores: there is room for it, which leaves `s3`, and the leaves of its pages are as they were
walked, which leaves `s4` (R168, R249). -/
structure Committable (s : State) (h : Hart) (r : AccReq) (ps : List Piece) (s3 s4 : State) : Prop where
  room : (if storesFull s h then drainOne s h else s) = s3 ∧ storesFull s3 h = false
  pages : commitReady s3 h (partPages h r ps) = (s4, true)

/-- The line of an access that reads and writes is the thread's at once: every committed store of the thread is written, the line comes with nothing
of it poisoned, which leaves `s4`, and no comparison holds the access, which leaves `s5`. -/
structure Owned (s : State) (h : Hart) (ps : List Piece) (s4 s5 : State) : Prop where
  written : drained (drainAll s h) h = true
  lines : readLines (drainAll s h) h true ps = (s4, .there)
  compared : lockGate s4 h = (true, s5)

/-- An access that reads and writes can be ordered in memory at once: besides, the leaves of its pages are as they were walked, which leaves `s6`,
and its pair is not locked. -/
structure Orderable (s : State) (h : Hart) (r : AccReq) (ps : List Piece) (s4 s5 s6 : State) : Prop extends Owned s h ps s4 s5 where
  pages : commitReady s5 h (partPages h r ps) = (s6, true)
  notLocked : hartLocked (commitPages s6 h (partPages h r ps)) h = false

/-- A number of `n` bytes extended to a word, with its sign or with zeros. -/
def extended (sext : Bool) (n v : Nat) : Word :=
  if sext then (BitVec.ofNat (8 * n) v).signExtend 64 else (BitVec.ofNat (8 * n) v).setWidth 64

/-- The instruction `c` loads `n` bytes at `va` to x[rd], extended as `sext` says, where its access can be read from memory; `after`
is what else it does to its thread. -/
def Loads (c : Instr) (h : Hart) (q : BitVec 4) (rd a : Reg) (r : AccReq) (off : Word) (sext : Bool) (after : Nat → Thread → Thread) : Prop :=
  ∀ s s1 s2 ps s3 s4, Issues s h q [rd, a] s1 → Reaches s1 h r (xget (tget s1 h) a + off).toNat s2 ps → Readable s2 h r ps s3 s4 →
    ∃ t, exec c s = .next t ∧
      Retired (moveTo (changes h (fun u => after (accAddr ps) (xset u rd (extended sext r.n (leNat ((partBytes s4 ps).take r.n))))) s4) h
        ((tget s4 h).pc + 4)) h (tget s1 h) t

/-- The instruction `c` commits a store of the `n` low bytes of x[b] at `va`: once its access has passed its checks, D is set where it has to be
and the bytes join the thread's committed stores. -/
def Stores (c : Instr) (h : Hart) (q : BitVec 4) (b a : Reg) (r : AccReq) (off : Word) : Prop :=
  ∀ s s1 s2 ps s3 s4, Issues s h q [b, a] s1 → Reaches s1 h r (xget (tget s1 h) a + off).toNat s2 ps → Committable s2 h r ps s3 s4 →
    ∃ t, exec c s = .next t ∧
      Retired (moveTo (pushStore (commitPages s4 h (partPages h r ps)) h false r.rel (accSlices ps (natLe r.n (xget (tget s1 h) b).toNat))) h
        ((tget s2 h).pc + 4)) h (tget s1 h) t

/-- The size of an exclusive or atomic. -/
def exclSize (dword : Bool) : Nat := if dword then 8 else 4

/-- AMO operation number `k`, as `op` builds it: what memory holds at x[a] goes to x[rd], sign-extended, and memory takes `f` of it and of x[b],
indivisibly, where the access can be ordered at once. -/
def Atomics (k : Nat) (op : Hart → BitVec 4 → Bool → Bool → Bool → Reg → Reg → Reg → Instr)
    (f : (m : Nat) → BitVec m → BitVec m → BitVec m) : Prop :=
  ∀ h q dword aq rl rd a b s s1 s2 ps s4 s5 s6, Issues s h q [rd, a, b] s1 →
    let r := amoReq k (exclSize dword) aq rl
    Reaches s1 h r (xget (tget s1 h) a).toNat s2 ps → Orderable s2 h r ps s4 s5 s6 →
    let n := exclSize dword
    let old := BitVec.ofNat (8 * n) (leNat (memRead s4 (accAddr ps) n))
    let new := f (8 * n) old ((xget (tget s1 h) b).setWidth (8 * n))
    let w := agentWrite (commitPages s6 h (partPages h r ps)) (some h) (accAddr ps) (natLe n new.toNat)
    ∃ t, exec (op h q dword aq rl rd a b) s = .next t ∧
      Retired (moveTo (changes h (fun u => xset u rd (old.signExtend 64)) w) h ((tget w h).pc + 4)) h (tget s1 h) t

/-! ## Vector instructions -/

/-- Vector state is enabled for the thread (R91). -/
def vecOn (h : Hart) (s : State) : Prop := sbit (tget s h) snTHR_CTL 3 = true

/-- The instruction `c` writes v[vd]: active element `i` takes `g i`, and each other element is kept or, with Z, zeroed (R154, R155); it goes on at
the next word with VDIRTY set, and `also` is what else it does to its thread. -/
def VecWrites (c : Instr) (h : Hart) (q : BitVec 4) (vd : Reg) (msk : PReg) (z : Bool) (esz : BitVec 2) (g : Thread → Nat → Nat)
    (also : Thread → Thread → Thread) : Prop :=
  ∃ V : Thread → Vec,
    (∀ t i, i < eszCount esz → elemGet (eszBits esz) (V t) i =
      if vActive t msk z i then g t i % 2 ^ eszBits esz else if z then 0 else elemGet (eszBits esz) (vget t vd) i) ∧
    Does c h q [] (vecOn h) (fun s => vdirty (changes h (fun t => also t (vset t vd (V t))) s) h .writes) nextWord

/-- `VecWrites` of an operation on the elements of two v registers, for every operand of a Drover thread. -/
def Elementwise (op : Hart → BitVec 4 → Reg → Reg → Reg → PReg → Bool → BitVec 2 → Instr) (f : Nat → Nat → Nat → Nat) : Prop :=
  ∀ h q vd a b msk z esz, isDrover h = true →
    VecWrites (op h q vd a b msk z esz) h q vd msk z esz
      (fun t i => f (eszBits esz) (elemGet (eszBits esz) (vget t a) i) (elemGet (eszBits esz) (vget t b) i)) (fun _ t => t)

/-- The flags of the active elements, OR-ed. -/
def activeFlags (t : Thread) (msk : PReg) (z : Bool) (esz : BitVec 2) (g : Nat → Nat) : Nat :=
  ((List.range (eszCount esz)).filter (vActive t msk z)).foldl (fun a i => a ||| g i) 0

/-- `VecWrites` of a floating-point operation: `f` gives an element's result and flags from the format, rounding mode, FTZ and the elements of
v[vd], v[a] and v[b]; the flags of the active elements are OR-ed into VCSR (R157). -/
def FpWrites (c : Instr) (h : Hart) (q : BitVec 4) (vd a b : Reg) (msk : PReg) (z : Bool) (esz : BitVec 2)
    (f : Fmt → Nat → Bool → Nat → Nat → Nat → Nat × Nat) : Prop :=
  let r := fun (t : Thread) (i : Nat) => f (fmtOf esz.toNat) (vcsrRm t) (vcsrFtz t) (elemGet (eszBits esz) (vget t vd) i)
    (elemGet (eszBits esz) (vget t a) i) (elemGet (eszBits esz) (vget t b) i)
  VecWrites c h q vd msk z esz (fun t i => (r t i).1) (fun t0 t => vcsrFlags t (activeFlags t0 msk z esz fun i => (r t0 i).2))

/-- The instruction `c` writes m[md]: bit `i` below the element count takes `g i` where it is active and is kept or, with Z, cleared elsewhere; bits from
the element count up are cleared (R156). -/
def MaskWrites (c : Instr) (h : Hart) (q : BitVec 4) (md : PReg) (msk : PReg) (z : Bool) (esz : BitVec 2) (g : Thread → Nat → Bool)
    (also : Thread → Thread → Thread) : Prop :=
  ∃ M : Thread → BitVec 32,
    (∀ t i, (M t).getLsbD i =
      if i < eszCount esz then (if vActive t msk z i then g t i else if z then false else (mget t md).getLsbD i) else false) ∧
    Does c h q [] (vecOn h) (fun s => vdirty (changes h (fun t => also t (mset t md (M t))) s) h .writes) nextWord

/-! ## Commands on registers -/

/-- An access by `i` to the register at offset `off` of block `blk` of a stop is served at once: the register is there, its path does not fail, the
world of the initiator may reach its block, the stop has power, the domain the block lies in is ON or none is needed, and no earlier access to the
block still waits (R40, R54, R63, R65 to R67). -/
structure Admitted (s : State) (i : Init) (st : Stop) (blk off : Nat) : Prop where
  place : regPlace s (pkgNum s * 2 ^ 30 + rkey st blk off) = some (st, blk, off)
  path : pathFails s st = false
  allowed : regRefuse s i.world st blk off = .no
  powered : stopPowered s st = true
  awake : accDomain s st blk off = 15 ∨ domState s st (accDomain s st blk off) = dON
  inTurn : blockHeld s (pkgNum s * 2 ^ 30 + rkey st blk off) = false

/-- The row `c`, an access by `i` to one register, does `eff` and is answered OK wherever the access is served and `pre` holds. -/
def Sets (c : Instr) (i : Init) (st : Stop) (blk off : Nat) (pre : State → Prop) (eff : State → State) : Prop :=
  ∀ s, Admitted s i st blk off → pre s → exec c s = .next (setResp (eff s) ⟨0, 0⟩)

/-- The row `c` does `eff`, and nothing else, wherever `pre` holds. -/
def Acts (c : Instr) (pre : State → Prop) (eff : State → State) : Prop := ∀ s, pre s → exec c s = .next (eff s)

/-- The register block `blk` of a tile that is not in mode 3 is presented: not block 2 or 4 of a tile whose cores are one (R210, R303). -/
abbrev Shown (st : Stop) (blk : Nat) (s : State) : Prop := stopKind st = .tile ∧ blkInert s st blk = false ∧ tileMode s st ≠ 3

end Sys2Proof.Machine
end

