-- ==== Sys2Proof/Certificates/Slice0/Obligations.lean ====
section
/-!
DEFINITION. The statements about the package, by chapter of the spec.
-/

open Sys2Proof Sys2Proof.Machine

/-- The operations of two x registers (Table 4-3) write their result to x[RD] (nothing where RD is x0) and go on at the next word, wherever
they issue; the W forms work on the low 32 bits and sign-extend. -/
def Obligations.RegisterOperations : Prop :=
  Writes2 .add (fun x y => x + y) ∧
  Writes2 .sub (fun x y => x - y) ∧
  Writes2 .and (fun x y => x &&& y) ∧
  Writes2 .or (fun x y => x ||| y) ∧
  Writes2 .xor (fun x y => x ^^^ y) ∧
  Writes2 .andn (fun x y => x &&& ~~~y) ∧
  Writes2 .sll (fun x y => x <<< (y.toNat % 64)) ∧
  Writes2 .srl (fun x y => x >>> (y.toNat % 64)) ∧
  Writes2 .sra (fun x y => x.sshiftRight (y.toNat % 64)) ∧
  Writes2 .ror (fun x y => x.rotateRight (y.toNat % 64)) ∧
  Writes2 .slt (fun x y => if x.toInt < y.toInt then 1 else 0) ∧
  Writes2 .sltu (fun x y => if x.toNat < y.toNat then 1 else 0) ∧
  Writes2 .min (fun x y => if x.toInt ≤ y.toInt then x else y) ∧
  Writes2 .max (fun x y => if x.toInt ≤ y.toInt then y else x) ∧
  Writes2 .minu (fun x y => if x.toNat ≤ y.toNat then x else y) ∧
  Writes2 .maxu (fun x y => if x.toNat ≤ y.toNat then y else x) ∧
  Writes2 .addw (fun x y => (low32 x + low32 y).signExtend 64) ∧
  Writes2 .subw (fun x y => (low32 x - low32 y).signExtend 64) ∧
  Writes2 .sllw (fun x y => (low32 x <<< (y.toNat % 32)).signExtend 64) ∧
  Writes2 .srlw (fun x y => (low32 x >>> (y.toNat % 32)).signExtend 64) ∧
  Writes2 .sraw (fun x y => ((low32 x).sshiftRight (y.toNat % 32)).signExtend 64)

/-- MULDIV (R139): division never raises an exception; a zero divisor gives a quotient of all ones and the dividend as remainder, the signed
overflow the most negative value and 0; the W forms apply both to 32-bit operands before sign extension. -/
def Obligations.MultiplyAndDivide : Prop :=
  Writes2 .mul (fun x y => BitVec.ofInt 64 (x.toInt * y.toInt)) ∧
  Writes2 .mulh (fun x y => BitVec.ofInt 64 (x.toInt * y.toInt / 2 ^ 64)) ∧
  Writes2 .mulhu (fun x y => BitVec.ofNat 64 (x.toNat * y.toNat / 2 ^ 64)) ∧
  Writes2 .mulw (fun x y => (low32 x * low32 y).signExtend 64) ∧
  Writes2 .div (fun x y => if y = 0 then BitVec.allOnes 64 else if x = BitVec.intMin 64 ∧ y = BitVec.allOnes 64 then x else BitVec.ofInt 64 (x.toInt.tdiv y.toInt)) ∧
  Writes2 .divu (fun x y => if y = 0 then BitVec.allOnes 64 else x / y) ∧
  Writes2 .rem (fun x y => if y = 0 then x else if x = BitVec.intMin 64 ∧ y = BitVec.allOnes 64 then 0 else BitVec.ofInt 64 (x.toInt.tmod y.toInt)) ∧
  Writes2 .remu (fun x y => if y = 0 then x else x % y) ∧
  Writes2 .divw (fun x y => (if low32 y = 0 then BitVec.allOnes 32 else if low32 x = BitVec.intMin 32 ∧ low32 y = BitVec.allOnes 32 then low32 x else BitVec.ofInt 32 ((low32 x).toInt.tdiv (low32 y).toInt)).signExtend 64) ∧
  Writes2 .divuw (fun x y => (if low32 y = 0 then BitVec.allOnes 32 else low32 x / low32 y).signExtend 64)

/-- Operations with an immediate (R134, R138): IMM12 and IMM17 are sign-extended, shift counts are unsigned, and a W form acts on bits [31:0] and
sign-extends; a W form with SHAMT[5] = 1 encodes no instruction and is left to `ReservedWordsRaiseUndef`. -/
def Obligations.ImmediateOperations : Prop :=
  (∀ (h : Hart) (q : BitVec 4) (rd a : Reg) (imm : BitVec 12),
    WritesX (.addi h q rd a imm) h q [rd, a] rd (fun t => let x := xget t a; imm.signExtend 64 + x) ∧
    WritesX (.andi h q rd a imm) h q [rd, a] rd (fun t => let x := xget t a; x &&& imm.signExtend 64) ∧
    WritesX (.ori h q rd a imm) h q [rd, a] rd (fun t => let x := xget t a; x ||| imm.signExtend 64) ∧
    WritesX (.xori h q rd a imm) h q [rd, a] rd (fun t => let x := xget t a; x ^^^ imm.signExtend 64)) ∧
  (∀ (h : Hart) (q : BitVec 4) (rd a : Reg) (n : BitVec 6),
    WritesX (.slli h q rd a n) h q [rd, a] rd (fun t => let x := xget t a; x <<< n.toNat) ∧
    WritesX (.srli h q rd a n) h q [rd, a] rd (fun t => let x := xget t a; x >>> n.toNat) ∧
    WritesX (.srai h q rd a n) h q [rd, a] rd (fun t => let x := xget t a; x.sshiftRight n.toNat) ∧
    WritesX (.rori h q rd a n) h q [rd, a] rd (fun t => let x := xget t a; x.rotateRight n.toNat)) ∧
  (∀ (h : Hart) (q : BitVec 4) (rd a : Reg) (n : BitVec 6), n.toNat < 32 →
    WritesX (.slliw h q rd a n) h q [rd, a] rd (fun t => let x := xget t a; (low32 x <<< n.toNat).signExtend 64) ∧
    WritesX (.srliw h q rd a n) h q [rd, a] rd (fun t => let x := xget t a; (low32 x >>> n.toNat).signExtend 64) ∧
    WritesX (.sraiw h q rd a n) h q [rd, a] rd (fun t => let x := xget t a; ((low32 x).sshiftRight n.toNat).signExtend 64) ∧
    WritesX (.roriw h q rd a n) h q [rd, a] rd (fun t => let x := xget t a; ((low32 x).rotateRight n.toNat).signExtend 64)) ∧
  (∀ (h : Hart) (q : BitVec 4) (rd : Reg) (imm : BitVec 17),
    WritesX (.lui h q rd imm) h q [rd] rd (fun _ => imm.signExtend 64 * 4096) ∧
    WritesX (.auipc h q rd imm) h q [rd] rd (fun t => t.pc + imm.signExtend 64 * 4096))

/-- CLZ, CTZ, POPC and REV8 (Table 4-3), each by what its result says of the bits of x[RS1]. -/
def Obligations.BitCountsAndByteReversal : Prop :=
  (∃ f, Writes1 .clz f ∧ ∀ x, (f x).toNat ≤ 64 ∧ (∀ i, 64 - (f x).toNat ≤ i → i < 64 → x.getLsbD i = false) ∧
    ((f x).toNat < 64 → x.getLsbD (63 - (f x).toNat) = true)) ∧
  (∃ f, Writes1 .ctz f ∧ ∀ x, (f x).toNat ≤ 64 ∧ (∀ i, i < (f x).toNat → x.getLsbD i = false) ∧
    ((f x).toNat < 64 → x.getLsbD (f x).toNat = true)) ∧
  (∃ f, Writes1 .popc f ∧ ∀ x, (f x).toNat = (List.range 64).countP fun i => x.getLsbD i) ∧
  (∃ f, Writes1 .rev8 f ∧ ∀ x i, i < 8 → (f x).extractLsb' (8 * i) 8 = x.extractLsb' (8 * (7 - i)) 8)

/-- Before any instruction: a hart that does not run does nothing (log entry 3), what is due at the boundary is done in its place (R114, R209), and a
fault of the fetch is taken (Table 3-11). -/
def Obligations.BoundaryAndFetchComeFirst : Prop :=
  ∀ (c : Instr) (h : Hart) (q : BitVec 4) (s : State), headOf c = some (h, q) →
    (canRun s h = false → exec c s = .next s) ∧
    (canRun s h = true → (tget s h).slotA = none → ∀ s1, atBoundary s h = some s1 → exec c s = .next s1) ∧
    (canRun s h = true → atBoundary s h = none → ∀ s1 e w, fetchOf s h = (s1, some e, w) → exec c s = .next (raise s1 h e 0)) ∧
    (canRun s h = true → atBoundary s h = none → ∀ s1, fetchOf s h = (s1, none, true) → exec c s = .next s1)

/-- R85: the predicate field 0b1000 is reserved; a word that carries it raises UNDEF. -/
def Obligations.ReservedPredicateRaisesUndef : Prop :=
  ∀ (c : Instr) (h : Hart) (s s1 : State), headOf c = some (h, 8#4) → Fetches s h s1 →
    ∃ word, exec c s = .next (raise s1 h (wordExc cUNDEF word) word)

/-- An instruction whose predicate is false (R84) writes nothing and goes on at the next word; it still raises UNDEF where its word encodes none
(R87). -/
def Obligations.FalsePredicateDoesNothing : Prop :=
  ∀ (c : Instr) (h : Hart) (q : BitVec 4) (s s1 : State), headOf c = some (h, q) → Fetches s h s1 → q ≠ 8 →
    predTrue (tget s1 h) q = false →
    ∃ t, exec c s = .next t ∧
      (Retired (moveTo s1 h (nextWord (tget s1 h))) h (tget s1 h) t ∨ ∃ word, t = raise s1 h (wordExc cUNDEF word) word)

/-- J, JL and JALR (Table 4-6), and R140. -/
def Obligations.Branches : Prop :=
  (∀ (h : Hart) (q : BitVec 4) (imm : BitVec 22),
    Does (.j h q imm) h q [] (fun _ => True) id (fun t => t.pc + imm.signExtend 64 * 4) ∧
    Does (.jl h q imm) h q [1] (fun _ => True)
      (fun s => changes h (fun t => xset t 1 (nextWord t)) (rsPush s h (nextWord (tget s h))))
      (fun t => t.pc + imm.signExtend 64 * 4)) ∧
  (∀ (h : Hart) (q : BitVec 4) (rd a : Reg) (imm : BitVec 12),
    let target := fun s => xget (tget s h) a + imm.signExtend 64
    Does (.jalr h q rd a imm) h q [rd, a] (fun s => (target s).toNat % 4 = 0)
      (fun s => changes h (fun t => xset t rd (nextWord t)) (rsHint s h rd a (nextWord (tget s h))))
      (fun t => xget t a + imm.signExtend 64) ∧
    Raises (.jalr h q rd a imm) h q [rd, a] (fun s => (target s).toNat % 4 ≠ 0) cIALIGN (fun s => (target s).toNat) (fun _ => 0))

/-- Predicate instructions (Tables 4-8 and 4-9); writes to p0 are ignored (R142). -/
def Obligations.PredicateInstructions : Prop :=
  (∃ f : BitVec 3 → Word → Word → Bool,
    (∀ x y, (f 0 x y = true ↔ x = y) ∧ (f 1 x y = true ↔ x ≠ y) ∧ (f 2 x y = true ↔ x.toInt < y.toInt) ∧
      (f 3 x y = true ↔ y.toInt ≤ x.toInt) ∧ (f 4 x y = true ↔ x.toNat < y.toNat) ∧ (f 5 x y = true ↔ y.toNat ≤ x.toNat) ∧
      (f 6 x y = true ↔ x &&& y ≠ 0) ∧ (f 7 x y = true ↔ x &&& y = 0)) ∧
    ∀ (h : Hart) (q : BitVec 4) (pt pf : PReg) (a b : Reg) (imm : BitVec 8) (cond : BitVec 3), pt ≠ pf ∨ pt = 0 →
      Does (.cmp h q pt pf a b cond) h q [a, b] (fun _ => True)
        (changes h fun t => pset (pset t pt (f cond (xget t a) (xget t b))) pf (!f cond (xget t a) (xget t b))) nextWord ∧
      Does (.cmpi h q pt pf a imm cond) h q [a] (fun _ => True)
        (changes h fun t => pset (pset t pt (f cond (xget t a) (imm.signExtend 64))) pf (!f cond (xget t a) (imm.signExtend 64)))
        nextWord) ∧
  (∀ (h : Hart) (q : BitVec 4) (pd pa pb : PReg) (na nb : Bool) (s s1 : State), Issues s h q [] s1 →
    let x := xor (pget (tget s1 h) pa) na
    let y := xor (pget (tget s1 h) pb) nb
    let wrote := fun (b : Bool) (t : State) => Retired (moveTo (changes h (fun u => pset u pd b) s1) h ((tget s1 h).pc + 4)) h (tget s1 h) t
    (∃ t, exec (.plog h q pd pa pb na nb 0) s = .next t ∧ wrote (x && y) t) ∧
    (∃ t, exec (.plog h q pd pa pb na nb 1) s = .next t ∧ wrote (x || y) t) ∧
    (∃ t, exec (.plog h q pd pa pb na nb 2) s = .next t ∧ wrote (xor x y) t) ∧
    (∃ t, exec (.plog h q pd pa 0 na false 3) s = .next t ∧ wrote x t)) ∧
  (∀ (h : Hart) (q : BitVec 4) (rd : Reg) (s s1 : State), Issues s h q [rd] s1 →
    ∃ t v, exec (.prd h q rd) s = .next t ∧ (∀ i, i < 64 → v.getLsbD i = if i < 8 then pget (tget s1 h) (BitVec.ofNat 3 i) else false) ∧
      Retired (moveTo (changes h (fun u => xset u rd v) s1) h ((tget s1 h).pc + 4)) h (tget s1 h) t) ∧
  (∀ (h : Hart) (q : BitVec 4) (a : Reg) (s s1 : State), Issues s h q [a] s1 →
    ∃ t, exec (.pwr h q a) s = .next t ∧
      Retired (moveTo (changes h (fun u => ([1, 2, 3, 4, 5, 6, 7] : List Nat).foldl
        (fun u i => pset u (BitVec.ofNat 3 i) ((xget (tget s1 h) a).getLsbD i)) u) s1) h ((tget s1 h).pc + 4)) h (tget s1 h) t)

/-- R142. -/
def Obligations.ComparisonNamesOnePredicateTwice : Prop :=
  ∀ (h : Hart) (q : BitVec 4) (p : PReg) (a b : Reg) (imm : BitVec 8) (cond : BitVec 3),
    (p ≠ 0 → EncodesNone (.cmp h q p p a b cond) h ∧ EncodesNone (.cmpi h q p p a imm cond) h) ∧
    (∃ f : Thread → Bool,
      Does (.cmp h q 0 p a b cond) h q [a, b] (fun _ => True) (changes h fun t => pset t p (!f t)) nextWord ∧
      Does (.cmp h q p 0 a b cond) h q [a, b] (fun _ => True) (changes h fun t => pset t p (f t)) nextWord) ∧
    (∃ f : Thread → Bool,
      Does (.cmpi h q 0 p a imm cond) h q [a] (fun _ => True) (changes h fun t => pset t p (!f t)) nextWord ∧
      Does (.cmpi h q p 0 a imm cond) h q [a] (fun _ => True) (changes h fun t => pset t p (f t)) nextWord)

/-- Loads (Table 4-10, R145) and LDA (R216) of a Drover thread, where the access passes its checks and can be read from memory. -/
def Obligations.LoadsTakeTheirBytes : Prop :=
  (∀ (h : Hart) (q : BitVec 4) (rd a : Reg) (imm : BitVec 12),
    Loads (.lb h q rd a imm) h q rd a (loadReq 1 false) (imm.signExtend 64) true (fun _ t => t) ∧
    Loads (.lbu h q rd a imm) h q rd a (loadReq 1 false) (imm.signExtend 64) false (fun _ t => t) ∧
    Loads (.lh h q rd a imm) h q rd a (loadReq 2 false) (imm.signExtend 64) true (fun _ t => t) ∧
    Loads (.lhu h q rd a imm) h q rd a (loadReq 2 false) (imm.signExtend 64) false (fun _ t => t) ∧
    Loads (.lw h q rd a imm) h q rd a (loadReq 4 false) (imm.signExtend 64) true (fun _ t => t) ∧
    Loads (.lwu h q rd a imm) h q rd a (loadReq 4 false) (imm.signExtend 64) false (fun _ t => t) ∧
    Loads (.ld h q rd a imm) h q rd a (loadReq 8 false) (imm.signExtend 64) false (fun _ t => t)) ∧
  (∀ (h : Hart) (q : BitVec 4) (rd a : Reg) (sz : BitVec 2),
    Loads (.lda h q sz rd a) h q rd a (loadReq (2 ^ sz.toNat) true) 0 false (fun _ t => t))

/-- Stores (Table 4-10) and STL (R216) of a Drover thread commit (R182); COMMITTED_STORE_DRAIN writes the oldest committed store. -/
def Obligations.StoresCommitThenDrain : Prop :=
  (∀ (h : Hart) (q : BitVec 4) (b a : Reg) (imm : BitVec 12),
    Stores (.sb h q b a imm) h q b a (storeReq 1 false) (imm.signExtend 64) ∧
    Stores (.sh h q b a imm) h q b a (storeReq 2 false) (imm.signExtend 64) ∧
    Stores (.sw h q b a imm) h q b a (storeReq 4 false) (imm.signExtend 64) ∧
    Stores (.sd h q b a imm) h q b a (storeReq 8 false) (imm.signExtend 64)) ∧
  (∀ (h : Hart) (q : BitVec 4) (b a : Reg) (sz : BitVec 2), Stores (.stl h q sz b a) h q b a (storeReq (2 ^ sz.toNat) true) 0) ∧
  (∀ (h : Hart) (s s2 : State) (e : StoreEnt) (r : List StoreEnt), hartExists h = true → (tget s h).stores = e :: r →
    (hartLocked s h = true → e.good = true) → writeOnceTo s h e = none →
    lineTake s h (dataUse true e.attr e.va) e.pa = (s2, true) → (tget s2 h).park = none →
    ∃ t, exec (.committedStoreDrain h) s = .next t ∧ tget t h = { tget s2 h with stores := r } ∧ t.reg = s2.reg ∧
      (∀ i, i < e.bytes.length → memGet t (e.pa + i) = e.bytes.getD i 0) ∧
      (∀ b, b < e.pa ∨ e.pa + e.bytes.length ≤ b → memGet t b = memGet s2 b))

/-- R181: the youngest older committed store that overlaps a load. -/
def Obligations.StoreForwarding : Prop :=
  ∀ (h : Hart) (q : BitVec 4) (rd a : Reg) (imm : BitVec 12) (s s1 s2 : State) (ps : List Piece), Issues s h q [rd, a] s1 →
    Reaches s1 h (loadReq 8 false) (xget (tget s1 h) a + imm.signExtend 64).toNat s2 ps →
    ∀ e l, youngest (tget s2 h) ps = e :: l → (∀ x ∈ e :: l, x.vec = false) →
    (∀ b, storeBytes (e :: l) ps = some b → ∃ t, exec (.ld h q rd a imm) s = .next t ∧
      Retired (moveTo (changes h (fun u => xset u rd (extended false 8 (leNat (b.take 8)))) s2) h ((tget s2 h).pc + 4)) h (tget s1 h) t) ∧
    (storeBytes (e :: l) ps = none → ∃ t op, exec (.ld h q rd a imm) s = .next t ∧
      t = changes h (fun u => { u with park := some (.replay e.seq op) }) s2)

/-- AMOs (Table 4-13) of a Drover thread on memory, and R151. -/
def Obligations.AtomicsReadAndWrite : Prop :=
  Atomics 0 .amoSwap (fun _ old x => x) ∧
  Atomics 1 .amoAdd (fun _ old x => old + x) ∧
  Atomics 2 .amoAnd (fun _ old x => old &&& x) ∧
  Atomics 3 .amoOr (fun _ old x => old ||| x) ∧
  Atomics 4 .amoXor (fun _ old x => old ^^^ x) ∧
  Atomics 5 .amoSmin (fun _ old x => if old.toInt ≤ x.toInt then old else x) ∧
  Atomics 6 .amoSmax (fun _ old x => if old.toInt ≤ x.toInt then x else old) ∧
  Atomics 7 .amoUmin (fun _ old x => if old.toNat ≤ x.toNat then old else x) ∧
  Atomics 8 .amoUmax (fun _ old x => if old.toNat ≤ x.toNat then x else old) ∧
  (∀ h q dword aq rl rd a b s s1 s2 ps s4 s5 s6, Issues s h q [rd, a, b] s1 →
    let n := exclSize dword
    let r := amoReq 9 n aq rl
    Reaches s1 h r (xget (tget s1 h) a).toNat s2 ps → Orderable s2 h r ps s4 s5 s6 →
    let old := BitVec.ofNat (8 * n) (leNat (memRead s4 (accAddr ps) n))
    let w := if old = (xget (tget s1 h) rd).setWidth (8 * n)
      then agentWrite (commitPages s6 h (partPages h r ps)) (some h) (accAddr ps) (natLe n (xget (tget s1 h) b).toNat) else s5
    ∃ t, exec (.amoCas h q dword aq rl rd a b) s = .next t ∧
      Retired (moveTo (changes h (fun u => xset u rd (old.signExtend 64)) w) h ((tget w h).pc + 4)) h (tget s1 h) t)

/-- LDX and STX (Table 4-12, R148, R217) of a Drover thread on memory. -/
def Obligations.ExclusivePair : Prop :=
  (∀ (h : Hart) (q : BitVec 4) (dword aq rl : Bool) (rd a : Reg),
    Loads (.ldx h q dword aq rl rd a) h q rd a (ldxReq (exclSize dword) aq rl) 0 true
      (fun pa t => { t with resv := some ⟨pa, exclSize dword⟩, resvLost := false })) ∧
  (∀ (h : Hart) (q : BitVec 4) (dword aq rl : Bool) (rd a b : Reg) (s s1 s2 s4 s5 s6 : State) (ps : List Piece),
    Issues s h q [rd, a, b] s1 → let r := stxReq (exclSize dword) aq rl
    Reaches s1 h r (xget (tget s1 h) a).toNat s2 ps → Orderable s2 h r ps s4 s5 s6 →
    (tget s2 h).resv = some ⟨accAddr ps, exclSize dword⟩ →
    let w := agentWrite (commitPages s6 h (partPages h r ps)) (some h) (accAddr ps) (natLe (exclSize dword) (xget (tget s1 h) b).toNat)
    ∃ t, exec (.stx h q dword aq rl rd a b) s = .next t ∧
      Retired (moveTo (changes h (fun u => { xset u rd 0 with resv := none, resvLost := false }) w) h ((tget s2 h).pc + 4)) h (tget s1 h) t)

/-- R149. -/
def Obligations.FailingExclusivesWriteNothing : Prop :=
  (∀ (h : Hart) (q : BitVec 4) (dword aq rl : Bool) (rd a b : Reg) (s s1 s2 : State) (e : Exc), Issues s h q [rd, a, b] s1 →
    (xget (tget s1 h) a).toNat % exclSize dword = 0 →
    accCheck s1 h (stxReq (exclSize dword) aq rl) (xget (tget s1 h) a).toNat = (s2, .error (.exc e)) →
    ∃ word, exec (.stx h q dword aq rl rd a b) s = .next (raise s2 h e word)) ∧
  (∀ (h : Hart) (q : BitVec 4) (dword aq rl : Bool) (rd a b : Reg) (s s1 s2 : State) (ps : List Piece), Issues s h q [rd, a, b] s1 →
    Reaches s1 h (stxReq (exclSize dword) aq rl) (xget (tget s1 h) a).toNat s2 ps →
    (tget s2 h).resv ≠ some ⟨accAddr ps, exclSize dword⟩ →
    ∃ t, exec (.stx h q dword aq rl rd a b) s = .next t ∧
      Retired (moveTo (changes h (fun u => { xset u rd 1 with resv := none, resvLost := false }) s2) h ((tget s2 h).pc + 4)) h (tget s1 h) t) ∧
  (∀ (h : Hart) (q : BitVec 4) (dword aq rl : Bool) (rd a b : Reg) (s s1 s2 s4 s5 : State) (ps : List Piece),
    Issues s h q [rd, a, b] s1 →
    Reaches s1 h (amoReq 9 (exclSize dword) aq rl) (xget (tget s1 h) a).toNat s2 ps → Owned s2 h ps s4 s5 →
    let n := exclSize dword
    let old := BitVec.ofNat (8 * n) (leNat (memRead s4 (accAddr ps) n))
    old ≠ (xget (tget s1 h) rd).setWidth (8 * n) →
    ∃ t, exec (.amoCas h q dword aq rl rd a b) s = .next t ∧
      Retired (moveTo (changes h (fun u => xset u rd (old.signExtend 64)) s5) h ((tget s5 h).pc + 4)) h (tget s1 h) t)

/-- R147. -/
def Obligations.MisalignedExclusivesRaiseAlign : Prop :=
  ∀ (h : Hart) (q : BitVec 4) (dword aq rl : Bool) (rd a b : Reg),
    let bad := fun s => (xget (tget s h) a).toNat % exclSize dword ≠ 0
    let va := fun s => (xget (tget s h) a).toNat
    Raises (.ldx h q dword aq rl rd a) h q [rd, a] bad cALIGN va (fun _ => 0) ∧
    Raises (.stx h q dword aq rl rd a b) h q [rd, a, b] bad cALIGN va (fun _ => 0) ∧
    Raises (.amoSwap h q dword aq rl rd a b) h q [rd, a, b] bad cALIGN va (fun _ => 0) ∧
    Raises (.amoAdd h q dword aq rl rd a b) h q [rd, a, b] bad cALIGN va (fun _ => 0) ∧
    Raises (.amoAnd h q dword aq rl rd a b) h q [rd, a, b] bad cALIGN va (fun _ => 0) ∧
    Raises (.amoOr h q dword aq rl rd a b) h q [rd, a, b] bad cALIGN va (fun _ => 0) ∧
    Raises (.amoXor h q dword aq rl rd a b) h q [rd, a, b] bad cALIGN va (fun _ => 0) ∧
    Raises (.amoSmin h q dword aq rl rd a b) h q [rd, a, b] bad cALIGN va (fun _ => 0) ∧
    Raises (.amoSmax h q dword aq rl rd a b) h q [rd, a, b] bad cALIGN va (fun _ => 0) ∧
    Raises (.amoUmin h q dword aq rl rd a b) h q [rd, a, b] bad cALIGN va (fun _ => 0) ∧
    Raises (.amoUmax h q dword aq rl rd a b) h q [rd, a, b] bad cALIGN va (fun _ => 0) ∧
    Raises (.amoCas h q dword aq rl rd a b) h q [rd, a, b] bad cALIGN va (fun _ => 0)

/-- Table 4-15, R218, R233. -/
def Obligations.FencesDrainTheirThread : Prop :=
  ∀ (h : Hart) (q : BitVec 4),
    let lacks := fun (wait : NbOp → Prop) (s : State) => ∀ o ∈ (tget s h).nb, ¬ wait o
    let get := fun (o : NbOp) => o.status = none ∨ o.get = true
    let put := fun (o : NbOp) => o.get = false ∧ o.status = none
    let drains := fun (c : Instr) (ready : State → Prop) =>
      Does c h q [] (fun s => ready s ∧ (tget s h).stores = []) (fun s => s) nextWord ∧
      ∀ s s1, Issues s h q [] s1 → ready s1 → (tget s1 h).stores ≠ [] →
        let w := drainAll (stall s1 h 5) h
        ((tget w h).stores = [] →
          ∃ t, exec c s = .next t ∧ Retired (moveTo w h ((tget w h).pc + 4)) h (tget s1 h) t) ∧
        ((tget w h).stores ≠ [] → exec c s = .next w)
    Does (.fenceLd h q) h q [] (lacks get) (fun s => s) nextWord ∧
    Does (.fenceSt h q) h q [] (lacks put) (fun s => s) nextWord ∧
    (∀ c : Instr, (c = .fence h q ∨ c = .fenceLd h q) → ∀ s s1, Issues s h q [] s1 → (∃ o ∈ (tget s1 h).nb, get o) →
      exec c s = .next (stall s1 h 5)) ∧
    (∀ s s1, Issues s h q [] s1 → (∃ o ∈ (tget s1 h).nb, put o) → exec (.fenceSt h q) s = .next (stall s1 h 5)) ∧
    drains (.fence h q) (lacks get) ∧ drains (.fenceI h q) (fun _ => True)

/-- PRF (Table 4-15, R153). -/
def Obligations.PrefetchesRaiseNothing : Prop :=
  (∀ (h : Hart) (q : BitVec 4) (a : Reg) (imm : BitVec 12),
    let does := fun (c : Instr) (own nt : Bool) (side : Nat) =>
      Does c h q [a] (fun _ => True) (fun s => prefetch s h (xget (tget s h) a + imm.signExtend 64).toNat own nt side) (fun t => nextWord t)
    does (.prfL1 h q a imm) false false 1 ∧ does (.prfL2 h q a imm) false false 2 ∧ does (.prfW h q a imm) true false 1 ∧
      does (.prfNt h q a imm) false true 1) ∧
  ∀ (s : State) (h : Hart) (va : Nat) (own nt : Bool) (side : Nat),
    let done := prefetch s h va own nt side
    (isDrover h = false → done = s) ∧
    (∀ s1 e, translate s h .read false va = (s1, .error e) → done = s) ∧
    (∀ s1 t, translate s h .read false va = (s1, .ok t) → isDrover h = true →
      let ty := pageType (regimeOf h (tget s1 h)) t
      ((isDevice t.pa = true ∨ seenTarget s1 (tget s1 h).world t.pa = .nothing ∨ ty = 2) → done = s1) ∧
      (isDevice t.pa = false → seenTarget s1 (tget s1 h).world t.pa ≠ .nothing → ty ≠ 2 →
        done = (lineTake s1 h ⟨own && !ownsLine s1 h t.pa, nt || decide (ty = 1), false, side, va⟩ t.pa).1))

/-- Table 4-16 and VMOVV, VBCAST, VEXT of Table 4-17 (R154, R155). -/
def Obligations.VectorElements : Prop :=
  Elementwise .vadd (fun _ a b => a + b) ∧
  Elementwise .vsub (fun e a b => a + (2 ^ e - b)) ∧
  Elementwise .vmul (fun _ a b => a * b) ∧
  Elementwise .vmulhu (fun e a b => a * b / 2 ^ e) ∧
  Elementwise .vand (fun _ a b => a &&& b) ∧
  Elementwise .vor (fun _ a b => a ||| b) ∧
  Elementwise .vxor (fun _ a b => a ^^^ b) ∧
  Elementwise .vandn (fun e a b => a &&& (b ^^^ (2 ^ e - 1))) ∧
  Elementwise .vsll (fun e a b => a <<< (b % e)) ∧
  Elementwise .vsrl (fun e a b => a >>> (b % e)) ∧
  Elementwise .vsra (fun e a b => ((BitVec.ofNat e a).sshiftRight (b % e)).toNat) ∧
  Elementwise .vmin (fun e a b => if (BitVec.ofNat e a).slt (BitVec.ofNat e b) then a else b) ∧
  Elementwise .vmax (fun e a b => if (BitVec.ofNat e a).slt (BitVec.ofNat e b) then b else a) ∧
  (∀ h q vd a msk z esz, isDrover h = true →
    VecWrites (.vmovv h q vd a msk z esz) h q vd msk z esz (fun t i => elemGet (eszBits esz) (vget t a) i) (fun _ t => t) ∧
    VecWrites (.vbcast h q vd a msk z esz) h q vd msk z esz (fun t _ => (xget t a).toNat) (fun _ t => t)) ∧
  ∀ h q rd a (idx : BitVec 5) esz, isDrover h = true →
    (idx.toNat < eszCount esz → Does (.vext h q rd a idx esz) h q [] (vecOn h)
      (changes h fun t => xset t rd (BitVec.ofNat 64 (elemGet (eszBits esz) (vget t a) idx.toNat))) nextWord) ∧
    (eszCount esz ≤ idx.toNat → EncodesNone (.vext h q rd a idx esz) h)

/-- VCMPEQ, VCMPLT (Table 4-16, R156) and VFCMPLT (R157). -/
def Obligations.VectorCompares : Prop :=
  ∀ (h : Hart) (q : BitVec 4) (vd a b : Reg) (msk : PReg) (z : Bool) (esz : BitVec 2), isDrover h = true →
    let el := fun (t : Thread) (r : Reg) (i : Nat) => elemGet (eszBits esz) (vget t r) i
    (vd.toNat < 8 →
      MaskWrites (.vcmpeq h q vd a b msk z esz) h q (vd.setWidth 3) msk z esz (fun t i => decide (el t a i = el t b i)) (fun _ t => t) ∧
      MaskWrites (.vcmplt h q vd a b msk z esz) h q (vd.setWidth 3) msk z esz
        (fun t i => (BitVec.ofNat (eszBits esz) (el t a i)).slt (BitVec.ofNat (eszBits esz) (el t b i))) (fun _ t => t) ∧
      (esz ≠ 0 →
        let r := fun (t : Thread) (i : Nat) => fCmpLt (fUnpack (fmtOf esz.toNat) (vcsrFtz t) (el t a i)) (fUnpack (fmtOf esz.toNat) (vcsrFtz t) (el t b i))
        MaskWrites (.vfcmplt h q vd a b msk z esz) h q (vd.setWidth 3) msk z esz (fun t i => (r t i).1)
          (fun t0 t => vcsrFlags t (activeFlags t0 msk z esz fun i => (r t0 i).2)))) ∧
    (8 ≤ vd.toNat → EncodesNone (.vcmpeq h q vd a b msk z esz) h ∧ EncodesNone (.vcmplt h q vd a b msk z esz) h ∧
      EncodesNone (.vfcmplt h q vd a b msk z esz) h) ∧
    (esz = 0 → EncodesNone (.vfcmplt h q vd a b msk z esz) h)

/-- The floating-point majors of Table 4-16 and the conversions and square root of Table 4-17 (R157). -/
def Obligations.VectorFloatingPoint : Prop :=
  ∀ (h : Hart) (q : BitVec 4) (vd a b : Reg) (msk : PReg) (z : Bool) (esz : BitVec 2), isDrover h = true →
    (esz ≠ 0 →
      FpWrites (.vfadd h q vd a b msk z esz) h q vd a b msk z esz (fun f rm z _ a b => fAdd f rm z (fUnpack f z a) (fUnpack f z b)) ∧
      FpWrites (.vfsub h q vd a b msk z esz) h q vd a b msk z esz (fun f rm z _ a b => fAdd f rm z (fUnpack f z a) (fNegV (fUnpack f z b))) ∧
      FpWrites (.vfmul h q vd a b msk z esz) h q vd a b msk z esz (fun f rm z _ a b => fMul f rm z (fUnpack f z a) (fUnpack f z b)) ∧
      FpWrites (.vfdiv h q vd a b msk z esz) h q vd a b msk z esz (fun f rm z _ a b => fDiv f rm z (fUnpack f z a) (fUnpack f z b)) ∧
      FpWrites (.vfma h q vd a b msk z esz) h q vd a b msk z esz (fun f rm z d a b => fFma f rm z (fUnpack f z d) (fUnpack f z a) (fUnpack f z b)) ∧
      FpWrites (.vfnma h q vd a b msk z esz) h q vd a b msk z esz (fun f rm z d a b => fFma f rm z (fUnpack f z d) (fNegV (fUnpack f z a)) (fUnpack f z b)) ∧
      FpWrites (.vfmin h q vd a b msk z esz) h q vd a b msk z esz (fun f _ z _ a b => fMinMax f z false a b) ∧
      FpWrites (.vfmax h q vd a b msk z esz) h q vd a b msk z esz (fun f _ z _ a b => fMinMax f z true a b) ∧
      FpWrites (.vcvtIf h q vd a msk z esz) h q vd a b msk z esz (fun f rm z _ a _ => fFromInt f rm z (BitVec.ofNat (eszBits esz) a).toInt) ∧
      FpWrites (.vcvtFi h q vd a msk z esz) h q vd a b msk z esz (fun f rm z _ a _ => ((BitVec.ofInt (eszBits esz) (fToInt (eszBits esz) rm (fUnpack f z a)).1).toNat, (fToInt (eszBits esz) rm (fUnpack f z a)).2)) ∧
      FpWrites (.vfsqrt h q vd a msk z esz) h q vd a b msk z esz (fun f rm z _ a _ => fSqrt f rm z (fUnpack f z a))) ∧
    (esz = 0 → EncodesNone (.vfadd h q vd a b msk z esz) h ∧
      EncodesNone (.vfsub h q vd a b msk z esz) h ∧
      EncodesNone (.vfmul h q vd a b msk z esz) h ∧
      EncodesNone (.vfdiv h q vd a b msk z esz) h ∧
      EncodesNone (.vfma h q vd a b msk z esz) h ∧
      EncodesNone (.vfnma h q vd a b msk z esz) h ∧
      EncodesNone (.vfmin h q vd a b msk z esz) h ∧
      EncodesNone (.vfmax h q vd a b msk z esz) h ∧
      EncodesNone (.vcvtIf h q vd a msk z esz) h ∧
      EncodesNone (.vcvtFi h q vd a msk z esz) h ∧
      EncodesNone (.vfsqrt h q vd a msk z esz) h)

/-- R157 and Table 4-17: what the floating-point operations do with NaNs, infinities and zeros. -/
def Obligations.FloatingPointSpecialValues : Prop :=
  ∀ (esz : BitVec 2) (rm : Nat) (ftz : Bool) (x y d : FVal) (a b : Nat), esz ≠ 0 →
    let f := fmtOf esz.toNat
    let e := eszBits esz
    let one := fun (v : FVal) => v = .nan true ∨ v = .nan false
    fNan f = 2 ^ (e - 1) - 2 ^ (f.mb - 1) ∧
    (one x ∨ one y → (fAdd f rm ftz x y).1 = fNan f ∧ (fMul f rm ftz x y).1 = fNan f ∧ (fDiv f rm ftz x y).1 = fNan f ∧
      (fFma f rm ftz d x y).1 = fNan f ∧ fCmpLt x y = (false, 4)) ∧
    (one x → (fSqrt f rm ftz x).1 = fNan f ∧ fToInt e rm x = (0, 4)) ∧
    (∀ n, fAdd f rm ftz (.inf n) (.inf !n) = (fNan f, 4) ∧ fAdd f rm ftz (.inf n) (.inf n) = (fInf f n, 0)) ∧
    (∀ mx, (fUnpack f ftz a = .nan false → fUnpack f ftz b = .nan false → (fMinMax f ftz mx a b).1 = fNan f) ∧
      (∀ n, fUnpack f ftz a = .nan false → fUnpack f ftz b = .inf n → fMinMax f ftz mx a b = (fSeen f ftz b, 0) ∧ fMinMax f ftz mx b a = (fSeen f ftz b, 0)) ∧
      (∀ n k g, fUnpack f ftz a = .nan false → fUnpack f ftz b = .fin n k g →
        fMinMax f ftz mx a b = (fSeen f ftz b, 0) ∧ fMinMax f ftz mx b a = (fSeen f ftz b, 0))) ∧
    fMinMax f ftz false 0 (2 ^ (e - 1)) = (2 ^ (e - 1), 0) ∧ fMinMax f ftz false (2 ^ (e - 1)) 0 = (2 ^ (e - 1), 0) ∧
    fMinMax f ftz true 0 (2 ^ (e - 1)) = (0, 0) ∧ fMinMax f ftz true (2 ^ (e - 1)) 0 = (0, 0)

/-- KOPS (Table 4-19, R135). -/
def Obligations.MaskInstructions : Prop :=
  ∀ (h : Hart) (q : BitVec 4) (d a b r : Reg), isDrover h = true →
    let k := fun (x : Reg) => (x.setWidth 3 : PReg)
    (d.toNat < 8 → a.toNat < 8 → b.toNat < 8 →
      Does (.kand h q d a b) h q [] (vecOn h) (fun s => vdirty (changes h (fun t => mset t (k d) (mget t (k a) &&& mget t (k b))) s) h .writes) nextWord ∧
      Does (.kor h q d a b) h q [] (vecOn h) (fun s => vdirty (changes h (fun t => mset t (k d) (mget t (k a) ||| mget t (k b))) s) h .writes) nextWord ∧
      Does (.kxor h q d a b) h q [] (vecOn h) (fun s => vdirty (changes h (fun t => mset t (k d) (mget t (k a) ^^^ mget t (k b))) s) h .writes) nextWord ∧
      Does (.kandn h q d a b) h q [] (vecOn h) (fun s => vdirty (changes h (fun t => mset t (k d) (mget t (k a) &&& ~~~(mget t (k b)))) s) h .writes) nextWord) ∧
    (d.toNat < 8 → Does (.kmovX h q d r) h q [] (vecOn h)
      (fun s => vdirty (changes h (fun t => mset t (k d) ((xget t r).setWidth 32)) s) h .writes) nextWord) ∧
    (a.toNat < 8 → Does (.kmovR h q r a) h q [] (fun s => a = 0 ∨ vecOn h s)
      (changes h fun t => xset t r ((mget t (k a)).setWidth 64)) nextWord) ∧
    (8 ≤ d.toNat ∨ 8 ≤ a.toNat ∨ 8 ≤ b.toNat → EncodesNone (.kand h q d a b) h ∧
      EncodesNone (.kor h q d a b) h ∧
      EncodesNone (.kxor h q d a b) h ∧
      EncodesNone (.kandn h q d a b) h) ∧
    (8 ≤ d.toNat → EncodesNone (.kmovX h q d r) h ∧ EncodesNone (.kmovR h q r d) h) ∧
    ∀ t v, mget t 0 = BitVec.allOnes 32 ∧ mset t 0 v = t

/-- R91. -/
def Obligations.VectorDisabledRaisesVdis : Prop :=
  ∀ (h : Hart) (q : BitVec 4) (vd a b : Reg) (msk : PReg) (z : Bool) (esz : BitVec 2) (idx : BitVec 5) (c : Instr), isDrover h = true →
    c ∈ [.vadd h q vd a b msk z esz, .vsub h q vd a b msk z esz, .vmul h q vd a b msk z esz, .vmulhu h q vd a b msk z esz,
      .vand h q vd a b msk z esz, .vor h q vd a b msk z esz, .vxor h q vd a b msk z esz, .vandn h q vd a b msk z esz,
      .vsll h q vd a b msk z esz, .vsrl h q vd a b msk z esz, .vsra h q vd a b msk z esz, .vmin h q vd a b msk z esz,
      .vmax h q vd a b msk z esz, .vbcast h q vd a msk z esz, .vmovv h q vd a msk z esz,
      .vldStrided h q vd a b msk z esz, .vldGather h q vd a b msk z esz, .vstStrided h q vd a b msk z esz, .vstScatter h q vd a b msk z esz] ∨
    (vd.toNat < 8 ∧ c ∈ [.vcmpeq h q vd a b msk z esz, .vcmplt h q vd a b msk z esz, .kmovX h q vd a]) ∨
    (idx.toNat < eszCount esz ∧ c = .vext h q vd a idx esz) ∨
    (esz ≠ 0 ∧ c ∈ [.vfadd h q vd a b msk z esz, .vfsub h q vd a b msk z esz, .vfmul h q vd a b msk z esz, .vfdiv h q vd a b msk z esz,
      .vfma h q vd a b msk z esz, .vfnma h q vd a b msk z esz, .vfmin h q vd a b msk z esz, .vfmax h q vd a b msk z esz,
      .vcvtIf h q vd a msk z esz, .vcvtFi h q vd a msk z esz, .vfsqrt h q vd a msk z esz]) ∨
    (esz ≠ 0 ∧ vd.toNat < 8 ∧ c = .vfcmplt h q vd a b msk z esz) ∨
    (vd.toNat < 8 ∧ a.toNat < 8 ∧ b.toNat < 8 ∧ c ∈ [.kand h q vd a b, .kor h q vd a b, .kxor h q vd a b, .kandn h q vd a b]) ∨
    (0 < a.toNat ∧ a.toNat < 8 ∧ c = .kmovR h q vd a) →
    ∃ word : BitVec 32, Raises c h q [] (fun s => ¬ vecOn h s) cVDIS (fun _ => word.toNat) (fun _ => 0)

/-- VLD and VST (Table 4-18, R158, R159): every active element has passed its checks first. -/
def Obligations.VectorLoadsAndStores : Prop :=
  ∀ (h : Hart) (q : BitVec 4) (gather : Bool) (vd a b : Reg) (msk : PReg) (z : Bool) (esz : BitVec 2)
    (s s1 s2 s3 s4 : State) (ps : List Piece), isDrover h = true → Issues s h q [] s1 → vecOn h s1 →
    let t1 := tget s1 h
    let e := eszBits esz / 8
    let act := fun n => (List.range n).filter (vActive t1 msk z)
    let req := fun st => (⟨0, if st then .write else .read, st, e, true, gather || decide (b ≠ 0), false, false⟩ : AccReq)
    let c := fun st => if st then (if gather then Instr.vstScatter h q vd a b msk z esz else .vstStrided h q vd a b msk z esz)
      else (if gather then .vldGather h q vd a b msk z esz else .vldStrided h q vd a b msk z esz)
    (∀ i ∈ act (eszCount esz), sbit t1 snTHR_CTL 5 = true → elemVa t1 gather a b e i % e = 0) →
    (∀ p ∈ ps, isDevice p.pa = false) → (act (eszCount esz) ≠ [] → ps ≠ []) →
    (vecCheck s1 h (req false) (elemVa t1 gather a b e) (act (eszCount esz)) = (s2, .ok ps) →
        Readable s2 h (req false) ps s3 s4 →
      ∃ t V, exec (c false) s = .next t ∧
        (∀ i, i < eszCount esz → elemGet (8 * e) V i =
          if vActive t1 msk z i then leNat (((partBytes s4 ps).drop (e * (act i).length)).take e)
          else if z then 0 else elemGet (8 * e) (vget t1 vd) i) ∧
        Retired (moveTo (vdirty (changes h (fun u => vset u vd V) s4) h .writes) h ((tget s4 h).pc + 4)) h t1 t) ∧
    (vecCheck s1 h (req true) (elemVa t1 gather a b e) (act (eszCount esz)) = (s2, .ok ps) →
        (ps ≠ [] → Committable s2 h (req true) ps s3 s4) →
      let d := (act (eszCount esz)).flatMap fun i => natLe e (elemGet (8 * e) (vget t1 vd) i)
      let w := if ps = [] then s2 else pushStore (commitPages s4 h (partPages h (req true) ps)) h (req true).noFwd false (accSlices ps d)
      ∃ t, exec (c true) s = .next t ∧ Retired (moveTo w h ((tget s2 h).pc + 4)) h t1 t)

/-- R158: an active element that fails its translation, watchpoint or bus checks. -/
def Obligations.VectorAccessFaultsWriteNothing : Prop :=
  ∀ (h : Hart) (q : BitVec 4) (gather st : Bool) (vd a b : Reg) (msk : PReg) (z : Bool) (esz : BitVec 2) (s s1 : State),
    isDrover h = true → Issues s h q [] s1 → vecOn h s1 → sbit (tget s1 h) snTHR_CTL 5 = false →
    let t1 := tget s1 h
    let e := eszBits esz / 8
    let req : AccReq := ⟨0, if st then .write else .read, st, e, true, gather || decide (b ≠ 0), false, false⟩
    let c := if st then (if gather then Instr.vstScatter h q vd a b msk z esz else .vstStrided h q vd a b msk z esz)
      else (if gather then .vldGather h q vd a b msk z esz else .vldStrided h q vd a b msk z esz)
    ∀ lo i hi (s2 s3 : State) (ps : List Piece) (x : Exc), (List.range (eszCount esz)).filter (vActive t1 msk z) = lo ++ i :: hi →
      vecCheck s1 h req (elemVa t1 gather a b e) lo = (s2, .ok ps) → accCheck s2 h req (elemVa t1 gather a b e i) = (s3, .error (.exc x)) →
      ∃ word, let t := raise s3 h x word
        exec c s = .next t ∧ (tget t h).v = (tget s3 h).v ∧ (tget t h).stores = (tget s3 h).stores

/-- MFS and MTS (R97, R99 to R103): what they do in a thread that is not a guest of the performance registers. -/
def Obligations.StateRegisterAccess : Prop :=
  ∀ (h : Hart) (q : BitVec 4) (r : Reg) (sn : BitVec 12),
    let n := sn.toNat
    let ok := fun (s : State) => sysAssigned h n = true ∧ sysPriv (tget s h).level n = false ∧ sysGuestHidden (tget s h) n = false ∧
      (n = snVCSR → isDrover h = true → vecOn h s)
    let view := n = snTB ∨ (0x100 ≤ n ∧ n ≤ 0x18F)
    let plain := ¬ view ∧ n ≠ snCORE_ID ∧ n ≠ snCURSTATE ∧ n ≠ snSEAL_GEN ∧ ¬ (0x471 ≤ n ∧ n ≤ 0x473)
    Does (.mfs h q r sn) h q [r] (fun s => ok s ∧ (view → (tget s h).level ≠ .u ∧ sbit (tget s h) snH_CTL 1 = false))
      (fun s => changes h (fun t => xset t r (sysRead s h n).2) (sysRead s h n).1) nextWord ∧
    (∀ s, sysGuestHidden (tget s h) n = false →
      (n = snTB → sysRead s h n = (s, s.tbase.tb)) ∧
      (n = snCURSTATE → sysRead s h n =
        (s, BitVec.ofNat 64 (levelCode (tget s h).level + 4 * worldCode (tget s h).world + 8 * b2n (bennak s h)))) ∧
      (plain → (∀ w ∈ (tget s h).pend, w.1 ≠ n) →
        sysRead s h n = (s, if n = snINTMASK then BitVec.ofNat 64 (b2n (tget s h).im) else sget (tget s h) n)) ∧
      (plain → n ≠ snTHR_CTL → ∀ l v k l', (tget s h).pend = l ++ (n, v, k) :: l' → (∀ w ∈ l', w.1 ≠ n) → sysRead s h n = (s, v))) ∧
    (isDrover h = false ∨ n ≠ snVCSR →
      Does (.mts h q sn r) h q [r] (fun s => ok s ∧ sysRO n = false) (fun s => sysWrite s h n (xget (tget s h) r)) nextWord) ∧
    (isDrover h = true → n = snVCSR →
      Does (.mts h q sn r) h q [r] (fun s => ok s) (fun s => vdirty (sysWrite s h n (xget (tget s h) r)) h .writes) nextWord) ∧
    (∀ s v, sysGuestHidden (tget s h) n = false → sysRO n = false → pmWriteIgnored s (tget s h).world n = false → ¬ (0x471 ≤ n ∧ n ≤ 0x473) →
      (n = snINTMASK → bennak s h = false → sysWrite s h n v = changes h (fun t => { t with im := v.getLsbD 0 }) s) ∧
      (sysSync n = true → n ≠ snTHR_CTL →
        sysWrite s h n v = changes h (fun t => { t with pend := t.pend ++ [(n, sysLegal h n v, bennakDelay)] }) s) ∧
      (sysSync n = false → n ≠ snINTMASK → sysWrite s h n v = changes h (fun t => sput t n (sysLegal h n v)) s))

/-- R98. -/
def Obligations.StateRegisterChecks : Prop :=
  ∀ (h : Hart) (q : BitVec 4) (r : Reg) (sn : BitVec 12),
    let n := sn.toNat
    let seen := fun (s : State) => sysGuestHidden (tget s h) n = false
    (∃ word, Raises (.mfs h q r sn) h q [r] (fun s => seen s ∧ sysPriv (tget s h).level n = true) cPRIV word (fun _ => 0)) ∧
    (∃ word, Raises (.mts h q sn r) h q [r] (fun s => seen s ∧ sysPriv (tget s h).level n = true) cPRIV word (fun _ => 0)) ∧
    (sysAssigned h n = false →
      (∃ word, Raises (.mfs h q r sn) h q [r] (fun s => seen s ∧ sysPriv (tget s h).level n = false) cUNDEF word (fun _ => 0)) ∧
      (∃ word, Raises (.mts h q sn r) h q [r] (fun s => seen s ∧ sysPriv (tget s h).level n = false) cUNDEF word (fun _ => 0))) ∧
    (sysAssigned h n = true → sysRO n = true →
      ∃ word, Raises (.mts h q sn r) h q [r] (fun s => seen s ∧ sysPriv (tget s h).level n = false) cUNDEF word (fun _ => 0)) ∧
    (∀ l, sysPriv l n = true ↔ levelCode l < n / 0x400)

/-- CALL.S, CALL.H, CALL.M and BREAK (Table 4-22, R107; L_EPC of Table 3-8). -/
def Obligations.CallsAndBreak : Prop :=
  ∀ (h : Hart) (q : BitVec 4) (imm : BitVec 16),
    let calls := fun (c : Instr) (ok : State → Prop) (cause : Nat) => ∀ s s1, Issues s h q [] s1 → ok s1 →
      ∃ t word, exec c s = .next t ∧
        t = raise (changes h (fun u => { u with pc := u.pc + 4 }) (countEvents s1 h [evINST, evGROUPS])) h ⟨cause, imm.toNat, 0, none⟩ word ∧
        (tget t h).x = (tget s1 h).x ∧ (tget t h).p = (tget s1 h).p ∧ (tget t h).v = (tget s1 h).v ∧ (tget t h).m = (tget s1 h).m
    let lev := fun (s : State) => (tget s h).level
    Raises (.brk h q imm) h q [] (fun _ => True) cBREAK (fun _ => imm.toNat) (fun _ => 0) ∧
    ((∀ d, h ≠ .waystation d) →
      calls (.callS h q imm) (fun s => lev s = .u ∨ lev s = .s) cCALL_S ∧
      ∃ word, Raises (.callS h q imm) h q [] (fun s => lev s = .h ∨ lev s = .m) cPRIV word (fun _ => 0)) ∧
    (isDrover h = true →
      calls (.callH h q imm) (fun s => lev s ≠ .u ∧ (tget s h).world = .normal) cCALL_H ∧
      (∃ word, Raises (.callH h q imm) h q [] (fun s => lev s = .u) cPRIV word (fun _ => 0)) ∧
      (∃ word, Raises (.callH h q imm) h q [] (fun s => lev s ≠ .u ∧ (tget s h).world = .secure) cUNDEF word (fun _ => 0)) ∧
      calls (.callM h q imm) (fun s => lev s ≠ .u) cCALL_M ∧
      ∃ word, Raises (.callM h q imm) h q [] (fun s => lev s = .u) cPRIV word (fun _ => 0)) ∧
    (isDrover h = false → EncodesNone (.callH h q imm) h ∧ EncodesNone (.callM h q imm) h) ∧
    ∀ d, h = .waystation d → EncodesNone (.callS h q imm) h

/-- R109 and R111, and R131, R132 for the other cores. -/
def Obligations.ExceptionEntry : Prop :=
  ∀ (s : State) (h : Hart) (c val info : Nat) (epc : Word), 0 < c → c < 0x20 →
    let t0 := applySync (tget s h)
    let t := tget (takeException s h ⟨c, val, info, none⟩ epc) h
    let l := match h with
      | .outrider _ => Level.s
      | .waystation _ => .m
      | .drover _ _ _ =>
        if sbit t0 snM_ROUTE c = true ∨ c = cCALL_M then .m
        else if c = cCALL_H then .h
        else if t0.world = .normal ∧ (t0.level = .u ∨ t0.level = .s) ∧ sbit t0 snH_ROUTE c = true then .h
        else if t0.level = .u then .s
        else t0.level
    let g := levelCode l * 0x400
    t.level = l ∧ t.im = true ∧ t.pend = [] ∧ t.world = (if l = .m then .secure else t0.world) ∧
    sget t (g + exSTATUS) = BitVec.ofNat 64 (levelCode t0.level + 4 * worldCode t0.world + 8 * b2n t0.im) ∧
    sget t (g + exEPC) = epc &&& ~~~(3 : Word) ∧ sget t (g + exCAUSE) = BitVec.ofNat 64 c ∧
    sget t (g + exVAL) = BitVec.ofNat 64 val ∧ sget t (g + exINFO) = BitVec.ofNat 64 info ∧
    t.pc = sget t0 (g + exVBASE) + (if l = t0.level then 0x080 else 0x000) ∧
    t.x = t0.x ∧ t.p = t0.p ∧ t.v = t0.v ∧ t.m = t0.m ∧ t.resv = none ∧
    ∀ n, n ∉ [g + exSTATUS, g + exEPC, g + exCAUSE, g + exVAL, g + exINFO] → ¬ (0x470 ≤ n ∧ n ≤ 0x4FF) → ¬ (0x870 ≤ n ∧ n ≤ 0x8FF) →
      sget t n = sget t0 n

/-- XRET (R105, R112, R131, R132). -/
def Obligations.XretReturns : Prop :=
  ∀ (h : Hart) (q : BitVec 4),
    let t0 := fun (s : State) => applySync (tget s h)
    let st := fun (s : State) => (sget (t0 s) (levelCode (t0 s).level * 0x400 + exSTATUS)).toNat
    let pl := fun (s : State) => levelOf (st s % 4)
    let pw := fun (s : State) => worldOf (st s / 4 % 2)
    let w := fun (s : State) => if (t0 s).level = .m ∧ isDrover h = true then pw s else (t0 s).world
    let bad := fun (s : State) => match h with
      | .waystation _ => pl s ≠ .m
      | _ => levelCode (t0 s).level < levelCode (pl s) ∨ ((t0 s).level ≠ .m ∧ pw s ≠ (t0 s).world) ∨
        (pl s = .h ∧ w s = .secure) ∨ (pl s = .m ∧ w s = .normal)
    let reached := match h with
      | .outrider _ => fun (s : State) => (t0 s).level = Level.s
      | .waystation _ => fun s => (t0 s).level = Level.m
      | .drover _ _ _ => fun s => (t0 s).level ≠ Level.u
    (∃ word, Raises (.xret h q) h q [] (fun s => (tget s h).level = .u) cPRIV word (fun _ => 0)) ∧
    (∃ val, Raises (.xret h q) h q [] (fun s => (tget s h).level ≠ .u ∧ reached s ∧ bad s) cILLRET val (fun _ => 0)) ∧
    ∀ s s1, Issues s h q [] s1 → (tget s1 h).level ≠ .u → reached s1 → ¬ bad s1 →
      ∃ t u, exec (.xret h q) s = .next t ∧
        u = tput s1 h { t0 s1 with
          level := pl s1
          world := w s1
          im := decide (st s1 / 8 % 2 = 1)
          resv := none
          resvLost := (t0 s1).resvLost || (t0 s1).resv.isSome
          pc := sget (t0 s1) (levelCode (t0 s1).level * 0x400 + exEPC) &&& ~~~(3 : Word) } ∧
        ((inGuest (tget u h) = false ∨ inGuest (t0 s1) = true) → Retired u h (tget s1 h) t) ∧
        ((inGuest (tget u h) = true ∧ inGuest (t0 s1) = false) → Retired (guestEntry u h) h (tget s1 h) t)

/-- SYNC.ST (R104, R130) and WAIT (R126, R128). -/
def Obligations.SyncAndWait : Prop :=
  ∀ (h : Hart) (q : BitVec 4) (rd a : Reg),
    Does (.syncSt h q) h q [] (fun s => bennak s h = false) (fun s => countThread (changes h applySync s) h evSYNC 1) nextWord ∧
    Does (.syncSt h q) h q [] (fun s => bennak s h = true) (fun s => s) nextWord ∧
    (let trapped := fun (s : State) => isDrover h = true ∧ (tget s h).world = .normal ∧ ((tget s h).level = .u ∨ (tget s h).level = .s) ∧
        sbit (tget s h) snH_CTL 0 = true
     let barred := fun (s : State) => (tget s h).level = .u ∧ sbit (tget s h) snTHR_CTL 1 = false
     let due := fun (s : State) => 0 < (xget (tget s h) a).toNat ∧ (xget (tget s h) a).toNat ≤ tbNow s
     (∃ word, Raises (.wait h q rd a) h q [rd, a] barred cPRIV word (fun _ => 0)) ∧
     (∃ word, Raises (.wait h q rd a) h q [rd, a] (fun s => ¬ barred s ∧ trapped s) cHTRAP word (fun _ => 0)) ∧
     (∃ f : State → Word,
       (∀ s, (f s).toNat < 16 ∧ ((f s).getLsbD 0 = true ↔ pendEnabled s h ≠ []) ∧ ((f s).getLsbD 1 = true ↔ due s) ∧
         ((f s).getLsbD 2 = (tget s h).resvLost) ∧ ((tget s h).haltReq = true → (f s).getLsbD 3 = true)) ∧
       Does (.wait h q rd a) h q [rd, a] (fun s => ¬ barred s ∧ ¬ trapped s ∧ f s ≠ 0)
         (fun s => changes h (fun t => { xset t rd (f s) with modeWait := none, resvLost := false }) s) nextWord ∧
       ∀ s s1, Issues s h q [rd, a] s1 → ¬ barred s1 → ¬ trapped s1 → f s1 = 0 →
         ∃ info, exec (.wait h q rd a) s =
           .next (changes h (fun t => { t with run := .waiting, wait := some ⟨rd, xget (tget s1 h) a, info⟩ }) s1)))

/-- R199 to R201. -/
def Obligations.PredictionBarriers : Prop :=
  (∀ (h : Hart) (q : BitVec 4), Does (.bpBar h q) h q [] (fun _ => True) (fun s => s) nextWord) ∧
  (∀ (h : Hart) (q : BitVec 4), isDrover h = false →
    Does (.bpFlush h q) h q [] (fun _ => True) (fun s => s) nextWord ∧
    Does (.sealRot h q) h q [] (fun s => (tget s h).level ≠ .u) (fun s => s) nextWord) ∧
  ∀ (st : Stop) (cc th : Fin 2) (q : BitVec 4),
    let h := Hart.drover st cc th
    let free := fun (s : State) => ¬ ((tget s h).world = .normal ∧ ((tget s h).level = .u ∨ (tget s h).level = .s) ∧ sbit (tget s h) snH_CTL 2 = true)
    (∀ s s1, Issues s h q [] s1 → free s1 → ∃ t u e, exec (.bpFlush h q) s = .next t ∧ sealOf s1 h = some e ∧
      Retired (moveTo u h ((tget s1 h).pc + 4)) h (tget s1 h) t ∧ (∀ p ∈ (cget u (coreKey st cc)).preds, p.tag ≠ e ∧ p ∈ (cget s1 (coreKey st cc)).preds) ∧
      (tget u h).x = (tget s1 h).x ∧ u.mem = s1.mem ∧ u.reg = s1.reg) ∧
    (∀ s s1, Issues s h q [] s1 → (tget s1 h).level ≠ .u → free s1 → atRest (tget s1 (.drover st cc 0)) = true → atRest (tget s1 (.drover st cc 1)) = true →
      ∃ t u, exec (.sealRot h q) s = .next t ∧ Retired (moveTo u h ((tget s1 h).pc + 4)) h (tget s1 h) t ∧
        (cget u (coreKey st cc)).sealGen = (cget s1 (coreKey st cc)).sealGen + 1 ∧ (cget u (coreKey st cc)).preds = [] ∧
        (tget u h).x = (tget s1 h).x ∧ u.mem = s1.mem ∧ u.reg = s1.reg) ∧
    (∃ word, Raises (.sealRot h q) h q [] (fun s => (tget s h).level = .u) cPRIV word (fun _ => 0))

/-- R257, R258, R261. -/
def Obligations.TlbInvalidation : Prop :=
  ∀ (st : Stop) (c th : Fin 2) (q : BitVec 4) (a b : Reg),
    let h : Hart := .drover st c th
    let k := coreKey st c
    let ready := fun (s : State) => drained (drainAll s h) h = true ∧ (invsOf (drainAll s h) h).length < 16 ∧
      lockGate (drainAll s h) h = (true, drainAll s h)
    let width := fun (t : Thread) => if sbit t (if t.level = .h then snH_TR_CTL else snTR_CTL) 1 = true then 57 else 48
    let regime := fun (t : Thread) => if t.level = .h then 1 else if t.world = .secure then 2 else 0
    let vm := fun (t : Thread) => if regime t = 0 then sfld t snVMID 0 16 else 0
    let id := fun (t : Thread) (r : Reg) => (xget t r).toNat % 2 ^ 16
    let sent := fun (s1 : State) (m : Thread → InvMsg) (t : State) =>
      let s2 := drainAll s1 h
      Retired (moveTo (sendInv s2 h k (m (tget s2 h))) h ((tget s2 h).pc + 4)) h (tget s1 h) t
    (∀ s s1, Issues s h q [a, b] s1 → (tget s1 h).level ≠ .u → ready s1 →
      ∃ t, exec (.tlbInvVa h q a b) s = .next t ∧ sent s1 (fun t => ⟨0, regime t, vm t, id t b, (xget t a).toNat, width t⟩) t) ∧
    (∀ s s1, Issues s h q [a] s1 → (tget s1 h).level ≠ .u → ready s1 →
      ∃ t, exec (.tlbInvAs h q a) s = .next t ∧ sent s1 (fun t => ⟨1, regime t, vm t, id t a, 0, width t⟩) t) ∧
    (∀ s s1, Issues s h q [a, b] s1 → (tget s1 h).level ≠ .u → ready s1 →
      ∃ t, exec (.tlbInvTbl h q a b) s = .next t ∧ sent s1 (fun t => ⟨3, regime t, vm t, id t b, (xget t a).toNat, width t⟩) t) ∧
    (∀ s s1, Issues s h q [a] s1 → (tget s1 h).level ≠ .u → (tget s1 h).level ≠ .s → ready s1 →
      ∃ t, exec (.tlbInvVm h q a) s = .next t ∧ sent s1 (fun t => ⟨2, 0, id t a, 0, 0, width t⟩) t) ∧
    (∀ s s1, Issues s h q [] s1 → (tget s1 h).level ≠ .u → invsOf s1 h = [] →
      ∃ t, exec (.tlbSync h q) s = .next t ∧ Retired (moveTo s1 h ((tget s1 h).pc + 4)) h (tget s1 h) t) ∧
    (∀ s s1, Issues s h q [] s1 → (tget s1 h).level ≠ .u → invsOf s1 h ≠ [] → exec (.tlbSync h q) s = .next s1) ∧
    (∃ word, Raises (.tlbInvVa h q a b) h q [a, b] (fun s => (tget s h).level = .u) cPRIV word (fun _ => 0)) ∧
    (∃ word, Raises (.tlbInvAs h q a) h q [a] (fun s => (tget s h).level = .u) cPRIV word (fun _ => 0)) ∧
    (∃ word, Raises (.tlbInvTbl h q a b) h q [a, b] (fun s => (tget s h).level = .u) cPRIV word (fun _ => 0)) ∧
    (∃ word, Raises (.tlbInvVm h q a) h q [a] (fun s => (tget s h).level = .u ∨ (tget s h).level = .s) cPRIV word (fun _ => 0)) ∧
    ∀ s m, let u := sendInv s h k m
      u.mem = s.mem ∧ (∀ g, tget u g = tget s g) ∧ (∀ e ∈ (cget u k).tlb, e ∈ (cget s k).tlb ∧ invCovers m e = false)

/-- Tables 4-20 and 4-21 (R161, R163, R359): at a queue of this package. -/
def Obligations.WaybillInstructions : Prop :=
  (∀ (h : Hart) (q : BitVec 4) (rd a b : Reg), EncodesNone (.wbPut h q 3 rd a b) h ∧ EncodesNone (.wbGet h q 3 rd a b) h) ∧
  (∀ (h : Hart) (q : BitVec 4) (get : Bool) (sz : BitVec 2) (rd a b : Reg) (s s1 s2 s3 s4 s5 s6 : State) (qa : Nat) (p : Piece)
      (st : Stop) (k : Nat),
    let op := if get then 1 else 0
    let n := 16 * 2 ^ sz.toNat
    let c : Instr := if get then .wbGet h q sz rd a b else .wbPut h q sz rd a b
    let pages := partPages h (wbAccess op n) [p]
    let msg := fun (s : State) (buf : Nat) => if get then [] else memRead s buf n
    let bad := fun (s : State) (buf : Nat) => !get && poisoned s buf n
    sz ≠ 3 → Issues s h q [rd, a, b] s1 → wbQueue s1 h op (xget (tget s1 h) a).toNat = (s2, .ok qa) →
    wbBuffer s2 h op n (xget (tget s2 h) b).toNat = (s3, .ok p) → queueAt (pkgNum s6) qa = some (st, k) →
    (isDrover h = true → let d := drainAll s3 h
      drained d h = true → wbLine d h op (some p) = (s4, true) → commitReady s4 h pages = (s5, true) → lockGate s5 h = (true, s6) →
      let buf := wbMem d h p.pa
      let r := wqServe s6 st k op n (msg s6 buf) (bad s6 buf) (srcHart s6 h) (if hartLocked s6 h then some (hartKey h) else none)
      let u := if get = true ∧ r.2.1 % 256 = wbDONE then commitPages r.1 h pages else r.1
      ∃ t, exec c s = .next t ∧ Retired (moveTo (wbTake u h rd get buf r.2.1 r.2.2) h ((tget s6 h).pc + 4)) h (tget s1 h) t) ∧
    (isDrover h = false → (tget s3 h).nb.length < 4 → srcHeld s3 h (dstOf s3 qa) = false → courier s3 h 6 = (s4, true) →
      releaseFirst s4 h true = (s5, true) → (if get then (s5, true) else wbLine s5 h 0 (some p)) = (s6, true) →
      let id := s6.cpu.seqNo
      let buf := wbMem s5 h p.pa
      let r := wqServe { s6 with cpu := { s6.cpu with seqNo := id + 1 } } st k op n (msg s6 buf) (bad s6 buf) (srcHart s6 h) none
      ∃ t, exec c s = .next t ∧
        Retired (moveTo (changes h (fun u => { u with nb := u.nb ++ [⟨id, rd, get, buf, n, some r.2.1, r.2.2⟩] }) r.1) h ((tget s6 h).pc + 4)) h
          (tget s1 h) t)) ∧
  (∀ (h : Hart) (q : BitVec 4) (rd a : Reg) (s s1 s2 s3 s4 : State) (qa : Nat) (st : Stop) (k : Nat), Issues s h q [rd, a, 0] s1 →
    wbQueue s1 h 2 (xget (tget s1 h) a).toNat = (s2, .ok qa) → queueAt (pkgNum s4) qa = some (st, k) →
    (isDrover h = true → let d := drainAll s2 h
      drained d h = true → lockGate d h = (true, s4) →
      let r := wqServe s4 st k 2 16 [] false (srcHart s4 h) (if hartLocked s4 h then some (hartKey h) else none)
      ∃ t, exec (.wbPoll h q rd a) s = .next t ∧
        Retired (moveTo (changes h (fun u => xset u rd (BitVec.ofNat 64 r.2.1)) r.1) h ((tget s4 h).pc + 4)) h (tget s1 h) t) ∧
    (isDrover h = false → (tget s2 h).nb.length < 4 → srcHeld s2 h (dstOf s2 qa) = false → courier s2 h 6 = (s3, true) →
      releaseFirst s3 h true = (s4, true) →
      let id := s4.cpu.seqNo
      let r := wqServe { s4 with cpu := { s4.cpu with seqNo := id + 1 } } st k 2 16 [] false (srcHart s4 h) none
      ∃ t, exec (.wbPoll h q rd a) s = .next t ∧
        Retired (moveTo (changes h (fun u => { u with nb := u.nb ++ [⟨id, rd, false, 0, 16, some r.2.1, r.2.2⟩] }) r.1) h ((tget s4 h).pc + 4)) h
          (tget s1 h) t)) ∧
  (∀ (s : State) (h : Hart) (rd : Reg) (get : Bool) (buf res : Nat) (msg : List Byte), hartLocked s h = false →
    wbTake s h rd get buf res msg =
      changes h (fun u => xset u rd (BitVec.ofNat 64 res)) (if get = true ∧ res % 256 = wbDONE then agentWrite s (some h) buf msg else s)) ∧
  ∀ (h : Hart) (tag : Nat) (s s1 : State) (o : NbOp) (res : Nat), (tget s h).nb.find? (fun o => decide (o.tag = tag)) = some o → o.status = some res →
    (if o.get = true ∧ res % 256 = wbDONE then lineTake s h (dataUse true 2 o.buf) o.buf else (s, true)) = (s1, true) →
    exec (.outriderWaybillResult h tag) s =
      .next (wbTake (changes h (fun u => { u with nb := u.nb.filter fun x => decide (x.tag ≠ tag) }) s1) h o.rd o.get o.buf res o.data)

/-- Table 10-6 and R352: PUT, GET and POLL at the home slice. -/
def Obligations.WaybillQueueOperations : Prop :=
  ∀ (s : State) (st : Stop) (q : Fin 128) (msg : List Byte) (src : Nat), stopKind st = .tile →
    let k := q.val
    let single := fun (get : Bool) => wbqFld s st k WBQ_CFG (if get then 10 else 9) 1 = 1
    let head := wq s st k WBQ_HEAD
    let tail := wq s st k WBQ_TAIL
    let sound := wqOn s st k = true ∧ msg.length = wbqSize s st k
    let r := wqPutMsg s st k msg false src none
    (wqOn s st k = false → r.2 = wbDISABLED ∧ (wqGetMsg s st k msg.length src none).2 = (wbDISABLED, []) ∧ (wqPoll s st k).2 = wbDISABLED) ∧
    (wqOn s st k = true → (wqPoll s st k).2 = wbDONE ∧ (wqPoll s st k).1.mem = s.mem ∧ (wqPoll s st k).1.reg = s.reg) ∧
    (wqOn s st k = true → msg.length ≠ wbqSize s st k →
      r.2 = wbSIZE ∧ r.1.mem = s.mem ∧ (wqGetMsg s st k msg.length src none).2 = (wbSIZE, [])) ∧
    (sound → ¬ single false → (wqPutMsg s st k msg true src none).2 = wbPOISONED ∧
      wq (wqPutMsg s st k msg true src none).1 st k WBQ_DROP_POISON = min (2 ^ 32 - 1) (wq s st k WBQ_DROP_POISON + 1) ∧
      wq (wqPutMsg s st k msg true src none).1 st k WBQ_TAIL = tail) ∧
    (sound → ¬ single false → wqFull s st k = true →
      wq r.1 st k WBQ_TAIL = tail ∧ wq r.1 st k WBQ_HEAD = head ∧ r.1.mem = s.mem ∧
      (wbqFld s st k WBQ_CFG 8 1 = 0 → r.2 = wbDROPPED ∧ wq r.1 st k WBQ_DROP_FULL = min (2 ^ 32 - 1) (wq s st k WBQ_DROP_FULL + 1)) ∧
      (wbqFld s st k WBQ_CFG 8 1 ≠ 0 → r.2 = wbFULL ∧ wq r.1 st k WBQ_REFUSED = min (2 ^ 32 - 1) (wq s st k WBQ_REFUSED + 1))) ∧
    (sound → ¬ single false → wqFull s st k = false →
      r.2 = wbDONE ∧ wq r.1 st k WBQ_TAIL = (tail + 1) % 2 ^ 32 ∧ wq r.1 st k WBQ_HEAD = head ∧
      (∀ j, j < msg.length → memGet r.1 (wqSlot s st k tail + j) = msg.getD j 0) ∧
      (∀ b, b < wqSlot s st k tail ∨ wqSlot s st k tail + msg.length ≤ b → memGet r.1 b = memGet s b)) ∧
    (wqOn s st k = true → ¬ single true → wqOcc s st k = 0 → (wqGetMsg s st k (wbqSize s st k) src none).2 = (wbEMPTY, [])) ∧
    (wqOn s st k = true → ¬ single true → wqOcc s st k ≠ 0 → (wbqNum st k, head) ∉ s.wb.holes → wqTentative s st k head = false →
      poisoned s (wqSlot s st k head) (wbqSize s st k) = false →
      let g := wqGetMsg s st k (wbqSize s st k) src none
      g.2 = (wbDONE, memRead s (wqSlot s st k head) (wbqSize s st k)) ∧ g.1.mem = s.mem ∧
      wq g.1 st k WBQ_HEAD = (head + 1) % 2 ^ 32 ∧ wq g.1 st k WBQ_TAIL = tail) ∧
    (sound → ¬ single false → ¬ single true → wqOcc s st k = 0 → wqFull s st k = false → (wbqNum st k, head) ∉ s.wb.holes →
      wqTentative s st k head = false → poisoned r.1 (wqSlot s st k tail) msg.length = false →
      let g := wqGetMsg r.1 st k msg.length src none
      g.2 = (wbDONE, msg) ∧ wqOcc g.1 st k = 0)

/-- R339, R351, R357, R362. -/
def Obligations.WaybillQueueEvents : Prop :=
  (∀ (s : State) (p : Fin 4) (tag : Nat) (w : World) (op sz : Fin 3) (pa : Nat) (cls : Bool) (source : Nat) (msg : List Byte) (poison : Bool)
      (st : Stop) (q : Nat), p.val ≠ pkgNum s → queueAt (pkgNum s) pa = some (st, q) → (w = .normal → slotSecure s st q = false) →
    let r := wqServe s st q op.val (16 * 2 ^ sz.val) msg poison (if cls then srcClassC source else srcDrover source) none
    exec (.waybill p tag w op sz pa cls source msg poison) s =
      .next (sendMsg r.1 0x35 (pkgLocus p.val) tag pa 0 (natLe 8 r.2.1 ++ r.2.2))) ∧
  (∀ (s : State) (st : Stop) (q : Fin 128), stopKind st = .tile → wqOn s st q.val = false → (∀ p ∈ s.wb.prov, p.queue ≠ wbqNum st q.val) →
    exec (.queueBusyClear st q) s = .next (rsetB s st 5 (wbqBase q.val + WBQ_STAT) 5 false)) ∧
  (∀ (s : State) (st : Stop) (q : Fin 128), stopKind st = .tile →
    exec (.wbqStateParityError st q false) s = .next s ∧
    ∃ u, exec (.wbqStateParityError st q true) s = .next u ∧ wqOn u st q.val = false ∧ wbqFld u st q.val WBQ_STAT 4 1 = 1) ∧
  ∀ (s : State) (h : Hart) (e : WbProv), s.wb.prov.find? (fun p => p.hart = hartKey h) = some e →
    (confirmOf s h ≠ 0 → ∃ u, exec (.waybillConfirm h) s = .next u ∧ u.wb.prov = s.wb.prov.erase e ∧ u.mem = s.mem ∧ u.reg = s.reg ∧
      confirmOf u h = confirmOf s h - 1) ∧
    (recovering s h = true → confirmOf s h < provOf s h → ∀ f st, s.wb.prov.reverse.find? (fun p => p.hart = hartKey h) = some f →
      stopOf (f.queue / 128) = some st → f.get = false →
      ∃ u, exec (.waybillCancel h) s = .next u ∧ u.mem = s.mem ∧ u.reg = s.reg ∧ u.wb.holes = s.wb.holes ++ [(f.queue, f.num)] ∧
        u.wb.prov.length + 1 = s.wb.prov.length)

/-- TSTART_CTL (R206, R207), BLOCK_CTL.EN of a core block (R208), DBG_CTL (R209) and DBG_RCMD (R554) of a tile that presents the block. -/
def Obligations.ThreadAndDebugRegisters : Prop :=
  ∀ (i : Init) (st : Stop) (cc t : Fin 2),
    let may := i.world = .secure
    let h := Hart.drover st cc t
    Sets (.tstartGo i st cc t) i st (1 + cc.val) (TSTART_CTL + 16 * t.val)
      (fun s => may ∧ Shown st (1 + cc.val) s ∧ (tget s h).run = .stopped ∧ (tget s h).startAt = none ∧ rbit s st (1 + cc.val) BLOCK_CTL 0 = true ∧ (t = 0 ∨ rbit s st (1 + cc.val) CORE_CTL 0 = true))
      (fun s => changes h (fun u => { u with startAt := some (BitVec.ofNat 64 (rget64 s st (1 + cc.val) (TSTART_LO + 16 * t.val)) &&& ~~~(3 : Word)) }) (emptyRunStacks s h)) ∧
    Sets (.tstartGo i st cc t) i st (1 + cc.val) (TSTART_CTL + 16 * t.val)
      (fun s => may ∧ Shown st (1 + cc.val) s ∧ ((tget s h).run ≠ .stopped ∨ (tget s h).startAt.isSome = true ∨ rbit s st (1 + cc.val) BLOCK_CTL 0 = false))
      (fun s => rsetB s st (1 + cc.val) (TSTATE + 16 * t.val) 2 true) ∧
    Sets (.tstartStop i st cc t) i st (1 + cc.val) (TSTART_CTL + 16 * t.val)
      (fun s => may ∧ Shown st (1 + cc.val) s)
      (fun s => changes h (fun u => if u.run = .stopped then { u with startAt := none } else { u with stopReq := true }) s) ∧
    Sets (.coreBlockEn i st cc true) i st (1 + cc.val) BLOCK_CTL
      (fun s => Shown st (1 + cc.val) s ∧ rbit s st (1 + cc.val) BLOCK_CTL 0 = false)
      (fun s => rsetB s st (1 + cc.val) BLOCK_CTL 0 true) ∧
    Sets (.coreBlockEn i st cc false) i st (1 + cc.val) BLOCK_CTL
      (fun s => Shown st (1 + cc.val) s ∧ rbit s st (1 + cc.val) BLOCK_CTL 0 = true)
      (fun s => startStop (startStop (rsetB s st (1 + cc.val) BLOCK_CTL 0 false) (.drover st cc 0)) (.drover st cc 1)) ∧
    Sets (.haltT i st cc t) i st (1 + cc.val) DBG_CTL
      (fun s => Shown st (1 + cc.val) s ∧ dbgHolds s i.world (tget s h).world = true ∧ (tget s h).run ≠ .halted)
      (fun s => changes h (fun u => { u with haltReq := true }) s) ∧
    Sets (.resumeT i st cc t) i st (1 + cc.val) DBG_CTL
      (fun s => Shown st (1 + cc.val) s ∧ dbgHolds s i.world (tget s h).world = true ∧ (tget s h).run = .halted)
      (fun s => cairnSync (changes h (fun u => { applySync u with run := .running }) s) h) ∧
    Sets (.haltT i st cc t) i st (1 + cc.val) DBG_CTL
      (fun s => Shown st (1 + cc.val) s ∧ dbgHolds s i.world (tget s h).world = false)
      (fun s => rsetB s st (1 + cc.val) DBG_STAT 4 true) ∧
    Sets (.resumeT i st cc t) i st (1 + cc.val) DBG_CTL
      (fun s => Shown st (1 + cc.val) s ∧ dbgHolds s i.world (tget s h).world = false)
      (fun s => rsetB s st (1 + cc.val) DBG_STAT 4 true) ∧
    Sets (.dbgRead i st cc) i st (1 + cc.val) DBG_RCMD
      (fun s => Shown st (1 + cc.val) s ∧ dbgMay s i.world st cc = true)
      (fun s => rput64 (dbgGet s (dbgSel s st cc)).1 st (1 + cc.val) DBG_RDATA_LO (dbgGet s (dbgSel s st cc)).2) ∧
    Sets (.dbgWrite i st cc) i st (1 + cc.val) DBG_RCMD
      (fun s => Shown st (1 + cc.val) s ∧ dbgMay s i.world st cc = true)
      (fun s => dbgPut s (dbgSel s st cc) (rget64 s st (1 + cc.val) DBG_RDATA_LO)) ∧
    Sets (.dbgRead i st cc) i st (1 + cc.val) DBG_RCMD
      (fun s => Shown st (1 + cc.val) s ∧ dbgMay s i.world st cc = false)
      (fun s => rsetB s st (1 + cc.val) DBG_STAT 5 true) ∧
    Sets (.dbgWrite i st cc) i st (1 + cc.val) DBG_RCMD
      (fun s => Shown st (1 + cc.val) s ∧ dbgMay s i.world st cc = false)
      (fun s => rsetB s st (1 + cc.val) DBG_STAT 5 true)

/-- R270, R271, R296, R299, R300, R303, R306, R323, R325, R341. -/
def Obligations.CacheAndLinkRegisters : Prop :=
  ∀ (i : Init) (st : Stop) (cc : Fin 2) (ways : BitVec 16) (ways8 : BitVec 8) (ways12 : BitVec 12) (on all : Bool)
    (n : Fin 12) (rid : BitVec 16) (mask : BitVec 4) (die : Fin 2) (k : Fin 4),
    let sec := i.world = .secure
    Sets (.l2WayReenable i st cc ways) i st (3 + cc.val) L2_WAY_REENABLE
      (fun s => sec ∧ Shown st (3 + cc.val) s)
      (fun s => reenable s st (3 + cc.val) L2_WAY_FAILED L2_WAY_CECNT 16 ways.toNat) ∧
    Sets (.l1dWayReenable i st cc ways8) i st (3 + cc.val) L1D_WAY_REENABLE
      (fun s => sec ∧ Shown st (3 + cc.val) s)
      (fun s => reenable s st (3 + cc.val) L1D_WAY_FAILED L1D_WAY_CECNT 8 ways8.toNat) ∧
    Sets (.l3WayReenable i st ways12) i st 5 L3_WAY_REENABLE
      (fun s => sec ∧ stopKind st = .tile)
      (fun s => rsetB (reenable s st 5 L3_WAY_FAILED L3_WAY_CECNT 12 ways12.toNat) st 5 L3_STAT 3 (l3Ways (reenable s st 5 L3_WAY_FAILED L3_WAY_CECNT 12 ways12.toNat) st).isEmpty) ∧
    Sets (.l2En i st cc true) i st (3 + cc.val) BLOCK_CTL
      (fun s => Shown st (3 + cc.val) s ∧ tileLocked s st = false ∧ rbit s st (3 + cc.val) BLOCK_CTL 0 = false)
      (fun s => rsetB s st (3 + cc.val) BLOCK_CTL 0 true) ∧
    Sets (.l2En i st cc false) i st (3 + cc.val) BLOCK_CTL
      (fun s => Shown st (3 + cc.val) s ∧ tileLocked s st = false ∧ rbit s st (3 + cc.val) BLOCK_CTL 0 = true)
      (fun s => rsetB (rsetB s st (3 + cc.val) BLOCK_CTL 0 false) st (3 + cc.val) L2_STAT 0 true) ∧
    Sets (.l2En i st 0 on) i st 3 BLOCK_CTL
      (fun s => Shown st 3 s ∧ tileLocked s st = true ∧ rbit s st 3 BLOCK_CTL 0 ≠ on)
      (fun s => l2En (l2En s st 0 on) st 1 on) ∧
    Sets (.l3En i st true) i st 5 BLOCK_CTL
      (fun s => stopKind st = .tile ∧ rbit s st 5 BLOCK_CTL 0 = false)
      (fun s => rsetB s st 5 BLOCK_CTL 0 true) ∧
    Sets (.l3En i st false) i st 5 BLOCK_CTL
      (fun s => stopKind st = .tile ∧ rbit s st 5 BLOCK_CTL 0 = true)
      (fun s => sliceMod (rsetB (rsetB s st 5 BLOCK_CTL 0 false) st 5 L3_STAT 0 true) st fun sl => { sl with pack := [], pref := [] }) ∧
    Sets (.l3Depot i st ways8) i st 5 L3_DEPOT
      (fun s => stopKind st = .tile ∧ rweBusy s st 5 = false)
      (fun s => depotWrite s i.world st (16 * ways8.toNat)) ∧
    Sets (.l3Depot i st ways8) i st 5 L3_DEPOT
      (fun s => stopKind st = .tile ∧ rweBusy s st 5 = true)
      (fun s => rsetB s st 5 BLOCK_STAT 0 true) ∧
    Sets (.iotuInv i n rid all) i (portStop n) 3 IOTU_INV
      (fun s => portProto s n.val ≠ 3 ∧ (ioGet s n).inv = none)
      (fun s => rsetB (ioPut s n { ioGet s n with inv := some (if all then none else some rid.toNat) }) (portStop n) 3 IOTU_STAT 2 true) ∧
    Sets (.iotuInv i n rid all) i (portStop n) 3 IOTU_INV
      (fun s => portProto s n.val ≠ 3 ∧ (ioGet s n).inv ≠ none)
      (fun s => s) ∧
    Sets (.iotuFltPop i n) i (portStop n) 3 IOTU_FLT_POP
      (fun s => portProto s n.val ≠ 3)
      (fun s => ioPut s n { ioGet s n with flt := (ioGet s n).flt.tail }) ∧
    Sets (.revive i st mask) i st 0 RT_LINK_CMD
      (fun s => sec)
      (fun s => (List.finRange 4).foldl (fun s d => if mask.getLsbD d.val then reviveLink s (.mesh st d) else s) s) ∧
    Sets (.fordRevive i die k) i (fordStop die k) 1 FORD_CMD
      (fun s => sec)
      (fun s => reviveLink s (.ford die k)) ∧
    Sets (.cvRetrain i n) i (portStop n) 5 CV_CMD
      (fun s => sec ∧ portProto s n.val = 2 ∧ cvState s n = 2)
      (fun s => cvRetrain s n) ∧
    Sets (.cvRevive i n) i (portStop n) 5 CV_CMD
      (fun s => sec ∧ portProto s n.val = 2 ∧ cvState s n = 4)
      (fun s => cvTrain s n) ∧
    Sets (.cvRetrain i n) i (portStop n) 5 CV_CMD
      (fun s => sec ∧ portProto s n.val = 2 ∧ cvState s n ≠ 2)
      (fun s => s) ∧
    Sets (.cvRevive i n) i (portStop n) 5 CV_CMD
      (fun s => sec ∧ portProto s n.val = 2 ∧ cvState s n ≠ 4)
      (fun s => s)

/-- Table 10-5 (R349 to R351, R357, R360) and Tables 11-8, 11-10, 11-12 (R388, R391, R401, R404, R405). -/
def Obligations.QueueAndOutriderRegisters : Prop :=
  ∀ (i : Init) (st : Stop) (q : Fin 128) (n : Fin 16) (v : Reg32) (irq on : Bool) (die : Fin 2) (w : BitVec 12),
    let b := wbqBase q.val
    let ot := (orRegs n).1
    let oo := (orRegs n).2
    let may := guardOk i = true
    let tile := stopKind st = .tile
    let sec := i.world = .secure
    Sets (.wbqCfg i st q 0 v) i st 5 (b + WBQ_CFG)
      (fun s => may ∧ tile ∧ (wqOn s st q.val = true ∨ wbqFld s st q.val WBQ_STAT 5 1 = 1))
      (fun s => rsetB s st 5 (b + WBQ_STAT) 0 true) ∧
    Sets (.wbqCfg i st q 1 v) i st 5 (b + WBQ_BASE_LO)
      (fun s => may ∧ tile ∧ (wqOn s st q.val = true ∨ wbqFld s st q.val WBQ_STAT 5 1 = 1))
      (fun s => rsetB s st 5 (b + WBQ_STAT) 0 true) ∧
    Sets (.wbqCfg i st q 2 v) i st 5 (b + WBQ_BASE_HI)
      (fun s => may ∧ tile ∧ (wqOn s st q.val = true ∨ wbqFld s st q.val WBQ_STAT 5 1 = 1))
      (fun s => setLatch (match latchOf s st 5 (b + WBQ_BASE_LO) with | some _ => rsetB (rsetB s st 5 (b + WBQ_STAT) 0 true) st 5 (b + WBQ_STAT) 0 true | none => rsetB s st 5 (b + WBQ_STAT) 0 true) st 5 (b + WBQ_BASE_LO) none) ∧
    Sets (.wbqCfg i st q 3 v) i st 5 (b + WBQ_PROD)
      (fun s => may ∧ tile ∧ (wqOn s st q.val = true ∨ wbqFld s st q.val WBQ_STAT 5 1 = 1))
      (fun s => rsetB s st 5 (b + WBQ_STAT) 0 true) ∧
    Sets (.wbqCfg i st q 4 v) i st 5 (b + WBQ_CONS)
      (fun s => may ∧ tile ∧ (wqOn s st q.val = true ∨ wbqFld s st q.val WBQ_STAT 5 1 = 1))
      (fun s => rsetB s st 5 (b + WBQ_STAT) 0 true) ∧
    Sets (.wbqCfg i st q 0 v) i st 5 (b + WBQ_CFG)
      (fun s => may ∧ tile ∧ wqOn s st q.val = false ∧ wbqFld s st q.val WBQ_STAT 5 1 = 0)
      (fun s => let s1 := wqStat (wqEmpty (wqPut s st q.val WBQ_CFG (wqCfgLegal v.toNat)) st q.val) st q.val 4 false
      { s1 with wb := { s1.wb with viol := s1.wb.viol.filter fun k => k / 2 ≠ wbqNum st q.val } }) ∧
    Sets (.wbqCfg i st q 1 v) i st 5 (b + WBQ_BASE_LO)
      (fun s => may ∧ tile ∧ wqOn s st q.val = false ∧ wbqFld s st q.val WBQ_STAT 5 1 = 0)
      (fun s => setLatch (wqEmpty (wqPut s st q.val WBQ_BASE_LO (wq s st q.val WBQ_BASE_LO)) st q.val) st 5 (b + WBQ_BASE_LO) (some (v &&& 0xFFFFFF00))) ∧
    Sets (.wbqCfg i st q 2 v) i st 5 (b + WBQ_BASE_HI)
      (fun s => may ∧ tile ∧ wqOn s st q.val = false ∧ wbqFld s st q.val WBQ_STAT 5 1 = 0)
      (fun s => let s1 := match latchOf s st 5 (b + WBQ_BASE_LO) with
        | some lo => wqEmpty (wqPut s st q.val WBQ_BASE_LO lo.toNat) st q.val
        | none => s
      setLatch (wqEmpty (wqPut s1 st q.val WBQ_BASE_HI (getF v 0 20)) st q.val) st 5 (b + WBQ_BASE_LO) none) ∧
    Sets (.wbqCfg i st q 3 v) i st 5 (b + WBQ_PROD)
      (fun s => may ∧ tile ∧ wqOn s st q.val = false ∧ wbqFld s st q.val WBQ_STAT 5 1 = 0)
      (fun s => wqPut s st q.val WBQ_PROD (getF v 0 29)) ∧
    Sets (.wbqCfg i st q 4 v) i st 5 (b + WBQ_CONS)
      (fun s => may ∧ tile ∧ wqOn s st q.val = false ∧ wbqFld s st q.val WBQ_STAT 5 1 = 0)
      (fun s => wqPut s st q.val WBQ_CONS (getF v 0 29)) ∧
    Sets (.queueEnable i st q irq) i st 5 (b + WBQ_CTL)
      (fun s => may ∧ tile ∧ wqOn s st q.val = false ∧ mayEnable (rsetB s st 5 (b + WBQ_CTL) 2 irq) st q.val = true)
      (fun s => let s1 := rsetB s st 5 (b + WBQ_CTL) 2 irq
      let s2 := rsetB (wqStat { s1 with wb := { s1.wb with enabled := setAdd s1.wb.enabled (wbqNum st q.val) } } st q.val 5 false) st 5 (b + WBQ_CTL) 0 true
      wqIrq (wqIrq s2 st q.val) st q.val) ∧
    Sets (.queueEnable i st q irq) i st 5 (b + WBQ_CTL)
      (fun s => may ∧ tile ∧ wqOn s st q.val = false ∧ mayEnable (rsetB s st 5 (b + WBQ_CTL) 2 irq) st q.val = false)
      (fun s => wqIrq (rsetB (rsetB s st 5 (b + WBQ_CTL) 2 irq) st 5 (b + WBQ_STAT) 0 true) st q.val) ∧
    Sets (.queueDisable i st q irq) i st 5 (b + WBQ_CTL)
      (fun s => may ∧ tile ∧ wqOn s st q.val = true)
      (fun s => let s1 := rsetB s st 5 (b + WBQ_CTL) 2 irq
      wqIrq (wqStat (rsetB { s1 with wb := { s1.wb with enabled := setDel s1.wb.enabled (wbqNum st q.val) } } st 5 (b + WBQ_CTL) 0 false) st q.val 5 true) st q.val) ∧
    Sets (.cntClr i st q) i st 5 (b + WBQ_CTL)
      (fun s => may ∧ tile ∧ wqOn s st q.val = decide (wbqFld s st q.val WBQ_CTL 0 1 = 1))
      (fun s => let s1 := [WBQ_DROP_FULL, WBQ_DROP_POISON, WBQ_DROP_UNAVAIL, WBQ_REFUSED].foldl (fun s o => wqPut s st q.val o 0) s
      wqIrq (rsetB s1 st 5 (b + WBQ_CTL) 2 (decide (wbqFld s st q.val WBQ_CTL 2 1 = 1))) st q.val) ∧
    Sets (.wbqArm i st q) i st 5 (b + WBQ_ARM)
      (fun s => tile)
      (fun s => wqIrq (rsetB s st 5 (b + WBQ_STAT) 3 true) st q.val) ∧
    Sets (.orCtlGo i n) i ot 1 (oo + OR_CTL)
      (fun s => sec)
      (fun s => startCtl s (.outrider n) true false) ∧
    Sets (.orCtlStop i n) i ot 1 (oo + OR_CTL)
      (fun s => sec)
      (fun s => changes (.outrider n) (fun u => if u.run = .stopped then { u with startAt := none } else { u with stopReq := true }) s) ∧
    Sets (.orBennak i n on) i ot 1 (oo + OR_CTL)
      (fun s => sec ∧ rbit s ot 1 (oo + OR_CTL) 2 ≠ on ∧ (tget s (.outrider n)).run = .stopped)
      (fun s => rsetB s ot 1 (oo + OR_CTL) 2 on) ∧
    Sets (.orBennak i n on) i ot 1 (oo + OR_CTL)
      (fun s => sec ∧ rbit s ot 1 (oo + OR_CTL) 2 ≠ on ∧ (tget s (.outrider n)).run ≠ .stopped)
      (fun s => rsetB s ot 1 BLOCK_STAT 0 true) ∧
    Sets (.orBennak i n on) i ot 1 (oo + OR_CTL)
      (fun s => sec ∧ rbit s ot 1 (oo + OR_CTL) 2 = on)
      (fun s => s) ∧
    Sets (.preload i n) i ot 1 (oo + LC_CMD)
      (fun s => orMay i n = true)
      (fun s => lcCommand s n 1) ∧
    Sets (.preloadLock i n) i ot 1 (oo + LC_CMD)
      (fun s => orMay i n = true)
      (fun s => lcCommand s n 2) ∧
    Sets (.unlockLine i n) i ot 1 (oo + LC_CMD)
      (fun s => orMay i n = true)
      (fun s => lcCommand s n 3) ∧
    Sets (.unlockAll i n) i ot 1 (oo + LC_CMD)
      (fun s => orMay i n = true)
      (fun s => lcCommand s n 4) ∧
    Sets (.flush i n) i ot 1 (oo + LC_CMD)
      (fun s => orMay i n = true)
      (fun s => lcCommand s n 5) ∧
    Sets (.cpClr i die) i (orStop die) 2 CP_CLR
      (fun s => sec)
      (fun s => rput (rput (rput s (orStop die) 2 CP_PANIC_CNT 0) (orStop die) 2 CP_LAT_MAX 0) (orStop die) 2 CP_LATE 0) ∧
    Sets (.tcmWinWrite i die w v) i (orStop die) 3 (TCM_WIN + 4 * w.toNat)
      (fun s => True)
      (fun s => agentWrite s none (tcmWin s die (TCM_WIN + 4 * w.toNat)) (natLe 4 v.toNat)) ∧
    ∀ s op, let r := orRegs n
      let line := ((rget s r.1 1 (r.2 + LC_ADDR_LO)).toNat + rfld s r.1 1 (r.2 + LC_ADDR_HI) 0 20 * 2 ^ 32) / 64
      (1 ≤ op → op ≤ 5 → (orGet s n).cmd.isSome = true → lcCommand s n op = rsetB s r.1 1 (r.2 + LC_STAT) 9 true) ∧
      (op = 1 ∨ op = 3 → (orGet s n).cmd = none → lcMay s n line = true → lcCommand s n op = orPut s n { orGet s n with cmd := some (op, line) }) ∧
      (op = 2 → (orGet s n).cmd = none → lcMay s n line = true → lcLocked (orGet s n) < 47 →
        lcCommand s n op = orPut s n { orGet s n with cmd := some (op, line) }) ∧
      (op = 4 ∨ op = 5 → (orGet s n).cmd = none → lcCommand s n op = orPut s n { orGet s n with cmd := some (op, line) })

/-- Tables 12-6 to 12-9 (R422 to R424, R429, R430, R433), R453, R460, R463 and Table 14-9 (R465, R480, R483). -/
def Obligations.MemoryErrorAndLockRegisters : Prop :=
  ∀ (i : Init) (st tl : Stop) (k : Fin 6) (cc pc : Fin 2) (lane : BitVec 7) (ch : Fin 8) (n : Fin 12) (w : Fin 4)
    (home : BitVec 3) (on : Bool) (p : Fin 4) (die : Fin 2) (v v2 : BitVec 16),
    let ss := stkStop k
    let b := scrubOff cc
    let sec := i.world = .secure
    Sets (.stkTrain i k) i ss 6 STK_CTL
      (fun s => sec ∧ stkState s k ≠ 1 ∧ stkState s k ≠ 4)
      (fun s => setWork (setStk s k 1) k 1) ∧
    Sets (.stkRestore i k) i ss 6 STK_CTL
      (fun s => sec ∧ stkState s k ≠ 1 ∧ stkState s k ≠ 4)
      (fun s => setWork (setStk s k 1) k 2) ∧
    Sets (.stkRetrainStack i k) i ss 6 STK_CTL
      (fun s => sec ∧ stkState s k = 2)
      (fun s => setWork (setStk ((stackChans k).foldl (fun s e => selfRefresh s e.1 e.2) s) k 4) k 3) ∧
    Sets (.stkRetrainChannel i k ch) i ss 6 STK_CTL
      (fun s => sec ∧ stkState s k = 2)
      (fun s => rsetB (selfRefresh s (chanStop k ch) (chanCtl ch)) (chanStop k ch) (mcBlk (chanCtl ch)) MC_STAT 3 true) ∧
    Sets (.stkSave i k) i ss 6 STK_CTL
      (fun s => sec ∧ stkState s k ≠ 1 ∧ stkState s k ≠ 4)
      (fun s => rsetB (hbmMod s fun x => { x with saved := mapSet (fun _ => (0, 0)) x.saved k.val (rget64 s ss 6 STK_SERIAL_LO, rfld s ss 6 STK_TEMP 0 8) }) ss 6 STK_STAT 3 true) ∧
    Sets (.w1500Shift i k) i ss 6 W1500_GO
      (fun s => sec ∧ setHas s.hbm.shifting k.val = false)
      (fun s => rsetB (hbmMod s fun x => { x with shifting := setAdd x.shifting k.val }) ss 6 W1500_STAT 0 true) ∧
    Sets (.phyRemap i st cc pc lane) i st (3 + cc.val) PHY_REMAP_CMD
      (fun s => sec ∧ stopKind st = .memory ∧ rbit s st (3 + cc.val) PHY_STAT 4 = false ∧ lane.toNat < 72)
      (fun s => remapLane s st cc pc.val lane.toNat) ∧
    Sets (.phyRemap i st cc pc lane) i st (3 + cc.val) PHY_REMAP_CMD
      (fun s => sec ∧ stopKind st = .memory ∧ rbit s st (3 + cc.val) PHY_STAT 4 = false ∧ 72 ≤ lane.toNat)
      (fun s => rsetB s st (3 + cc.val) PHY_STAT 7 true) ∧
    Sets (.spareCmd i st cc) i st 5 (b + SPARE_CMD)
      (fun s => sec ∧ stopKind st = .memory ∧ sparingOf s st cc = none ∧ bits (rget s st 5 (b + SPARE_ROW)).toNat 19 2 ≠ 3 ∧ spareUsed s st cc (bits (rget s st 5 (b + SPARE_ROW)).toNat 21 1) < 64)
      (fun s => rsetB (hbmMod s fun x => { x with sparing := mapSet (fun _ => none) x.sparing (chanNum st cc) (some (rget s st 5 (b + SPARE_ROW)).toNat) }) st 5 (b + SPARE_STAT) 14 true) ∧
    Sets (.spareCmd i st cc) i st 5 (b + SPARE_CMD)
      (fun s => sec ∧ stopKind st = .memory ∧ sparingOf s st cc = none ∧ bits (rget s st 5 (b + SPARE_ROW)).toNat 19 2 = 3)
      (fun s => rsetB s st 5 (b + SPARE_STAT) 17 true) ∧
    Sets (.cxlWindowEn i n w on home) i (portStop n) 5 (CXW_CTL + 16 * w.val)
      (fun s => portProto s n.val = 1 ∧ worldLock s = false)
      (fun s => cxlWindowCtl s n w.val (b2n on + 2 * home.toNat)) ∧
    Sets (.cxlWindowEn i n w on home) i (portStop n) 5 (CXW_CTL + 16 * w.val)
      (fun s => portProto s n.val = 1 ∧ worldLock s = true)
      (fun s => rsetB s (portStop n) 5 BLOCK_STAT 1 true) ∧
    Sets (.errCapAck i tl p) i tl 8 (ERR_CAP_ACK + 64 * p.val)
      (fun s => guardOk i = true ∧ (i.world = .normal → p.val < 2))
      (fun s => errAck s tl p.val) ∧
    Sets (.ledgerClr i die) i (wsStop die) 10 LEDGER_CLR
      (fun s => sec)
      (fun s => ledgerClear s die) ∧
    Sets (.injArm i tl v) i tl 8 INJ_CTL
      (fun s => v.getLsbD 0 ≠ rbit s tl 8 INJ_CTL 0 ∧ injMay s i.world tl = false)
      (fun s => rsetB s tl 8 INJ_STAT 1 true) ∧
    Sets (.injArm i tl v2) i tl 8 INJ_CTL
      (fun s => injMay s i.world tl = true ∧ v2.getLsbD 0 = true ∧ rbit s tl 8 INJ_CTL 0 = false ∧ v2.toNat / 2 % 4 ≤ 1 ∧ v2.toNat / 16 % 16 ≤ 2 ∧ 1 ≤ v2.toNat / 256)
      (fun s => rputF (rsetB (rput s tl 8 INJ_CTL (v2.setWidth 32)) tl 8 INJ_STAT 0 true) tl 8 INJ_STAT 8 8 (v2.toNat / 256)) ∧
    Sets (.lock i tl) i tl 0 LOCK_CMD
      (fun s => sec ∧ stopKind tl = .tile ∧ tileMode s tl ≤ 1 ∧ quiesced s tl = true ∧ rbit s tl 0 LOCK_STAT 5 = false)
      (fun s => rsetB { s with lock := { s.lock with cmd := mapSet (fun _ => 0) s.lock.cmd (stopIdx tl) 1 } } tl 0 LOCK_STAT 5 true) ∧
    Sets (.unlock i tl) i tl 0 LOCK_CMD
      (fun s => sec ∧ stopKind tl = .tile ∧ tileMode s tl ≤ 1 ∧ quiesced s tl = true ∧ rbit s tl 0 LOCK_STAT 5 = false)
      (fun s => rsetB { s with lock := { s.lock with cmd := mapSet (fun _ => 0) s.lock.cmd (stopIdx tl) 2 } } tl 0 LOCK_STAT 5 true) ∧
    Sets (.retest i tl) i tl 0 LOCK_CMD
      (fun s => sec ∧ stopKind tl = .tile ∧ 2 ≤ tileMode s tl ∧ quiesced s tl = true ∧ rbit s tl 0 LOCK_STAT 5 = false)
      (fun s => rsetB { s with lock := { s.lock with cmd := mapSet (fun _ => 0) s.lock.cmd (stopIdx tl) 3 } } tl 0 LOCK_STAT 5 true) ∧
    Sets (.lock i tl) i tl 0 LOCK_CMD
      (fun s => sec ∧ stopKind tl = .tile ∧ (quiesced s tl = false ∨ rbit s tl 0 LOCK_STAT 5 = true ∨ 2 ≤ tileMode s tl))
      (fun s => rsetB s tl 0 LOCK_STAT 6 true) ∧
    Sets (.unlock i tl) i tl 0 LOCK_CMD
      (fun s => sec ∧ stopKind tl = .tile ∧ (quiesced s tl = false ∨ rbit s tl 0 LOCK_STAT 5 = true ∨ 2 ≤ tileMode s tl))
      (fun s => rsetB s tl 0 LOCK_STAT 6 true) ∧
    Sets (.retest i tl) i tl 0 LOCK_CMD
      (fun s => sec ∧ stopKind tl = .tile ∧ (quiesced s tl = false ∨ rbit s tl 0 LOCK_STAT 5 = true ∨ tileMode s tl ≤ 1))
      (fun s => rsetB s tl 0 LOCK_STAT 6 true) ∧
    Sets (.lockClr i tl) i tl 0 LOCK_CLR
      (fun s => sec ∧ stopKind tl = .tile)
      (fun s => rput (rput (rput s tl 0 LOCK_CNT 0) tl 0 LOCK_REC_MAX 0) tl 0 LOCK_CAIRN_ERR 0) ∧
    ∀ s, (getB (rget s tl 8 (ERR_CAP_SRC + 64 * p.val)) 31 = true → rbit (errAck s tl p.val) tl 8 (ERR_CAP_SRC + 64 * p.val) 31 = false) ∧
      (∀ j, j < 256 → rget (ledgerClear s die) (wsStop die) 10 (LEDGER_REC + 4 * j) = 0) ∧
      (let base := rfld s (portStop n) 5 (CXW_BASE + 16 * w.val) 0 24 * 2 ^ 28
       let size := min 65536 (rfld s (portStop n) 5 (CXW_SIZE + 16 * w.val) 0 17) * 2 ^ 28
       0 < size → 0x100000000000 ≤ base → base + size ≤ 0x1000000000000 → home.toNat ≤ 5 →
         cxlWindowCtl s n w.val (b2n on + 2 * home.toNat) = rput s (portStop n) 5 (CXW_CTL + 16 * w.val) (BitVec.ofNat 32 (b2n on + 2 * home.toNat)))

/-- R488, R493, R496, R500, R505, R647; R512 to R518, R535; R545, R550, R557, R575. -/
def Obligations.InterruptPowerAndWorldRegisters : Prop :=
  ∀ (i : Init) (st : Stop) (h : Hart) (n : BitVec 6) (k : Fin 14) (m : BitVec 12) (x : BitVec 9) (v : Reg32) (d : Fin 16) (ap : Fin 7)
    (die : Fin 2) (b : Fin 6) (e : Fin 32) (on : Bool) (a : BitVec 22),
    let pg := intPage h
    let tab := shTable k.val
    let ws := wsStop 0
    let sec := i.world = .secure
    let paged := (match h with | .drover st _ _ => stopKind st = Kind.tile | .outrider _ => True | .waystation _ => False)
    let pmMay := fun (s : State) => guardOk i = true ∧ (i.world = .normal → dbgNonInv s .normal = true)
    let least := fun (s : State) => if pkgState s = 0 then 1000 else 100000
    Sets (.intSet i h n) i pg.1 pg.2.1 (pg.2.2 + INT_SET)
      (fun s => paged ∧ pageInert s h = false ∧ 16 ≤ n.toNat ∧ n.toNat ≤ 47 ∧ privSecret s h i.world n.toNat = false)
      (fun s => privSet s h n.toNat) ∧
    Sets (.intSet i h n) i pg.1 pg.2.1 (pg.2.2 + INT_SET)
      (fun s => paged ∧ (n.toNat < 16 ∨ 47 < n.toNat ∨ privSecret s h i.world n.toNat = true))
      (fun s => s) ∧
    Sets (.intClr i h n) i pg.1 pg.2.1 (pg.2.2 + INT_CLR)
      (fun s => guardOk i = true ∧ paged ∧ pageInert s h = false ∧ privUsed s h n.toNat = true ∧ privSecret s h i.world n.toNat = false)
      (fun s => privClear s h n.toNat) ∧
    Sets (.intEoi i h .normal) i pg.1 pg.2.1 (pg.2.2 + INT_EOI_N)
      (fun s => paged ∧ pageInert s h = false ∧ i.hart = some h)
      (fun s => intEoi s h .normal) ∧
    Sets (.intEoi i h .secure) i pg.1 pg.2.1 (pg.2.2 + INT_EOI_S)
      (fun s => sec ∧ paged ∧ pageInert s h = false ∧ i.hart = some h)
      (fun s => intEoi s h .secure) ∧
    Sets (.intEoi i h .normal) i pg.1 pg.2.1 (pg.2.2 + INT_EOI_N)
      (fun s => paged ∧ i.hart ≠ some h)
      (fun s => s) ∧
    Sets (.shSet i k m) i tab.1 tab.2 SH_SET
      (fun s => m.toNat < shSize k.val ∧ (shSecure s k.val m.toNat = true → sec))
      (fun s => { s with intr := { s.intr with shPend := setAdd s.intr.shPend (k.val * 512 + m.toNat) } }) ∧
    Sets (.shSet i k m) i tab.1 tab.2 SH_SET
      (fun s => shSize k.val ≤ m.toNat)
      (fun s => badSet s k.val) ∧
    Sets (.shClr i k m) i tab.1 tab.2 SH_CLR
      (fun s => guardOk i = true ∧ m.toNat < shSize k.val ∧ (shSecure s k.val m.toNat = true → sec))
      (fun s => shOfferAll { shWithdraw s k.val m.toNat with intr := { (shWithdraw s k.val m.toNat).intr with shPend := setDel (shWithdraw s k.val m.toNat).intr.shPend (k.val * 512 + m.toNat) } }) ∧
    Sets (.shCfgWrite i k x true v) i tab.1 tab.2 (SH_TGT + 8 * x.toNat)
      (fun s => guardOk i = true ∧ x.toNat < shSize k.val ∧ (shSecure s k.val x.toNat = true → sec) ∧ shFwd s k.val x.toNat = false)
      (fun s => rput s tab.1 tab.2 (SH_TGT + 8 * x.toNat) (v &&& 0xFFFFF)) ∧
    Sets (.shCfgWrite i k x false v) i tab.1 tab.2 (SH_CFG + 8 * x.toNat)
      (fun s => guardOk i = true ∧ x.toNat < shSize k.val ∧ (shSecure s k.val x.toNat = true → sec) ∧ shFwd s k.val x.toNat = false ∧ v.toNat / 512 % 4 ≠ 0)
      (fun s => rput s tab.1 tab.2 (SH_CFG + 8 * x.toNat) ((rget s tab.1 tab.2 (SH_CFG + 8 * x.toNat) &&& 0xFFFFF800) ||| (v &&& 0x7FF))) ∧
    Sets (.dseqPowerUp i st d) i st 9 (16 * d.val + DSEQ_CMD)
      (fun s => guardOk i = true ∧ domExists st d.val = true ∧ d.val ≠ 15)
      (fun s => domWake s st d.val wkCmd) ∧
    Sets (.dseqPowerDown i st d ap) i st 9 (16 * d.val + DSEQ_CMD)
      (fun s => guardOk i = true ∧ domExists st d.val = true ∧ d.val ≠ 15 ∧ domGuarded s i.world st d.val = false ∧ stopKind st = .tile ∧ domQuiet s st d.val = true)
      (fun s => domEnter s st d.val ap.val) ∧
    Sets (.dseqPowerDown i st d ap) i st 9 (16 * d.val + DSEQ_CMD)
      (fun s => guardOk i = true ∧ domExists st d.val = true ∧ d.val ≠ 15 ∧ domGuarded s i.world st d.val = false ∧ domQuiet s st d.val = false)
      (fun s => dstatPut s st d.val 8 1 1) ∧
    Sets (.dseqPowerDown i st d ap) i st 9 (16 * d.val + DSEQ_CMD)
      (fun s => guardOk i = true ∧ domExists st d.val = true ∧ d.val ≠ 15 ∧ domGuarded s i.world st d.val = true)
      (fun s => secRefused s st d.val) ∧
    Sets (.dseqPowerDown i st d ap) i st 9 (16 * d.val + DSEQ_CMD)
      (fun s => sec ∧ domExists st d.val = true ∧ d.val ≠ 15 ∧ stopKind st ≠ .tile ∧ (∃ w, i.hart = some (.waystation w)) ∧ domQuiet s st d.val = true)
      (fun s => domEnter s st d.val ap.val) ∧
    Sets (.dseqPowerDown i st d ap) i st 9 (16 * d.val + DSEQ_CMD)
      (fun s => guardOk i = true ∧ domExists st d.val = true ∧ d.val ≠ 15 ∧ stopKind st ≠ .tile ∧ (∀ w, i.hart ≠ some (.waystation w)) ∧ domGuarded s i.world st d.val = false)
      (fun s => dstatPut s st d.val 8 1 1) ∧
    Sets (.bandGate i die b) i (wsStop die) 5 (0x1000 * b.val + BAND_CMD)
      (fun s => guardOk i = true)
      (fun s => bandGate s i.world die b.val) ∧
    Sets (.bandPowerUp i die b) i (wsStop die) 5 (0x1000 * b.val + BAND_CMD)
      (fun s => guardOk i = true)
      (fun s => bandUp s die b.val) ∧
    Sets (.wchCtl i die e v) i (wsStop die) 6 (wchBase e.val + WCH_CTL)
      (fun s => guardOk i = true ∧ (i.world = .normal → rbit s (wsStop die) 6 (wchBase e.val + WCH_CTL) 10 = false))
      (fun s => wchControl s i.world (wsStop die) e.val v) ∧
    Sets (.waLock i) i ws 11 WA_LOCK
      (fun s => sec)
      (fun s => rsetB s ws 11 WA_LOCK 0 true) ∧
    Sets (.waAssign i a) i ws 11 WA_ASSIGN
      (fun s => sec ∧ worldLock s = true)
      (fun s => rsetB s ws 11 BLOCK_STAT 1 true) ∧
    Sets (.waAssign i a) i ws 11 WA_ASSIGN
      (fun s => sec ∧ worldLock s = false ∧ stopOfLocus (pkgNum s) (a.toNat % 65536) = some st ∧ a.getLsbD 20 = false ∧ domExists st (a.toNat / 65536 % 16) = true)
      (fun s => dstatPut s st (a.toNat / 65536 % 16) 6 1 (b2n (a.getLsbD 21))) ∧
    Sets (.waAssign i a) i ws 11 WA_ASSIGN
      (fun s => sec ∧ worldLock s = false ∧ stopOfLocus (pkgNum s) (a.toNat % 65536) = some st ∧ a.getLsbD 20 = true ∧ stopKind st = .tile ∧ 4 ≤ a.toNat / 65536 % 16 ∧ a.toNat / 65536 % 16 ≤ 11)
      (fun s => { s with pkg := { s.pkg with secWays := (if a.getLsbD 21 then setAdd else setDel) s.pkg.secWays (stopIdx st * 16 + a.toNat / 65536 % 16) } }) ∧
    Sets (.dbgRevoke i) i ws 12 DBG_REVOKE
      (fun s => sec)
      (fun s => setGrantDbg s 0 0) ∧
    Sets (.pmFreeze i on) i ws 7 PM_GCTL
      (fun s => pmMay s ∧ rbit s ws 7 PM_GCTL 0 ≠ on ∧ rbit s ws 7 PM_GSTAT 1 = false ∧ tbNow s + least s ≤ rget64 s ws 7 PM_AT_LO)
      (fun s => { rsetB (rsetB s ws 7 PM_GCTL 0 on) ws 7 PM_GSTAT 1 true with pm := { s.pm with cmd := some (on, false, rget64 s ws 7 PM_AT_LO) } }) ∧
    Sets (.pmSnap i) i ws 7 PM_GCTL
      (fun s => pmMay s ∧ rbit s ws 7 PM_GSTAT 1 = false ∧ rget64 s ws 7 PM_AT_LO < tbNow s + least s)
      (fun s => { rsetB (rsetB (rsetB s ws 7 PM_GCTL 0 (rbit s ws 7 PM_GCTL 0)) ws 7 PM_GSTAT 1 true) ws 7 PM_GSTAT 2 true with pm := { s.pm with cmd := some (rbit s ws 7 PM_GCTL 0, true, tbNow s + least s) } }) ∧
    ∀ s w, let p := intPage h
      (∀ y r, runStack s h w = y :: r → intEoi s h w = setRunStack s h w r) ∧
      (runStack s h w = [] → intEoi s h w = rsetB s p.1 p.2.1 (p.2.2 + if w = .normal then INT_RUNPRI_N else INT_RUNPRI_S) 14 true) ∧
      (Admitted s i pg.1 pg.2.1 (pg.2.2 + if w = .normal then INT_ACK_N else INT_ACK_S) → paged → pageInert s h = false → i.hart = some h →
        (w = .secure → sec) → exec (.intAck i h w) s = .next (setResp (intAck s h w).1 ⟨0, (intAck s h w).2⟩))

/-- R12, R40, R54, R63 to R69, R73, R76 to R81. TB_SET takes part for a package that is alone (a load in a Caravan draws a free value). -/
def Obligations.RegisterWritesAndStaging : Prop :=
  ∀ (i : Init) (die : Fin 2) (addr v : Reg32),
    let cl := orStop die
    let ws := wsStop 0
    let sec := i.world = .secure
    let live := fun (s : State) (st : Stop) (blk : Nat) (l : List Nat) => l.foldl (fun s o => rput s st blk o (rget s st blk (o + 0x8000))) s
    let copies := fun (s : State) (st : Stop) (blk : Nat) (l : List Nat) => l.foldl (fun s o => rput s st blk (o + 0x8000) (rget s st blk o)) s
    let write := fun (lost : Bool) => Instr.registerWrite i addr v lost
    let on := fun (s : State) (st : Stop) (blk : Nat) => blockProceed s (pkgNum s * 2 ^ 30 + rkey st blk 0)
    let gone := fun (s : State) (n : Nat) => { s with reg := { s.reg with held := s.reg.held.eraseIdx n } }
    Sets (.commit i cl 2) i cl 2 BLOCK_CTL
      (fun s => rbit s cl 2 BLOCK_STAT 3 = false ∨ rbit s cl 2 BLOCK_STAT 4 = true)
      (fun s => s) ∧
    Sets (.commit i cl 2) i cl 2 BLOCK_CTL
      (fun s => rbit s cl 2 BLOCK_STAT 3 = true ∧ rbit s cl 2 BLOCK_STAT 4 = false ∧ (rfld s cl 2 (CP_CTL + 0x8000) 8 7 < rfld s cl 2 (CP_CTL + 0x8000) 0 7))
      (fun s => rsetB s cl 2 BLOCK_STAT 4 true) ∧
    Sets (.commit i cl 2) i cl 2 BLOCK_CTL
      (fun s => rbit s cl 2 BLOCK_STAT 3 = true ∧ rbit s cl 2 BLOCK_STAT 4 = false ∧ ¬(rfld s cl 2 (CP_CTL + 0x8000) 8 7 < rfld s cl 2 (CP_CTL + 0x8000) 0 7))
      (fun s => rsetB s cl 2 BLOCK_STAT 0 true) ∧
    Sets (.commit i ws 13) i ws 13 BLOCK_CTL
      (fun s => sec ∧ rbit s ws 13 BLOCK_STAT 3 = true ∧ rbit s ws 13 BLOCK_STAT 4 = false ∧ rget64 s ws 13 (TB_SET_LO + 0x8000) < tbNow s)
      (fun s => rsetB s ws 13 BLOCK_STAT 0 true) ∧
    Sets (.commit i ws 13) i ws 13 BLOCK_CTL
      (fun s => sec ∧ rbit s ws 13 BLOCK_STAT 3 = true ∧ rbit s ws 13 BLOCK_STAT 4 = false ∧ tbNow s ≤ rget64 s ws 13 (TB_SET_LO + 0x8000) ∧ s.pkg.members = 2 ^ pkgNum s)
      (fun s => rsetB { s with tbase := { s.tbase with load := some (tbNow s + 1, rget64 s ws 13 (TB_SET_LO + 0x8000)) } } ws 13 BLOCK_STAT 4 true) ∧
    Sets (.discard i cl 2) i cl 2 BLOCK_CTL
      (fun _ => True)
      (fun s => rsetB (copies s cl 2 [CP_CTL]) cl 2 BLOCK_STAT 3 false) ∧
    Sets (.discard i ws 13) i ws 13 BLOCK_CTL
      (fun s => sec)
      (fun s => rsetB (copies s ws 13 [TB_SET_LO, TB_SET_HI]) ws 13 BLOCK_STAT 3 false) ∧
      (∀ s, rbit s cl 2 BLOCK_STAT 4 = true → (∀ e ∈ s.reg.heldStage, e.1 / 0x10000 ≠ rkey cl 2 0 / 0x10000) →
        exec (.commitDone cl 2) s = .next (on (rsetB (rsetB (live s cl 2 [CP_CTL]) cl 2 BLOCK_STAT 4 false) cl 2 BLOCK_STAT 3 false) cl 2)) ∧
      (∀ s, rbit s ws 13 BLOCK_STAT 4 = true → (∀ e ∈ s.reg.heldStage, e.1 / 0x10000 ≠ rkey ws 13 0 / 0x10000) →
        exec (.commitDone ws 13) s = .next (on (rsetB (rsetB (live s ws 13 [TB_SET_LO, TB_SET_HI]) ws 13 BLOCK_STAT 4 false) ws 13 BLOCK_STAT 3 false) ws 13)) ∧
      (∀ s, rbit s cl 2 BLOCK_STAT 4 = false → exec (.commitDone cl 2) s = .next (on s cl 2)) ∧
      (∀ s st blk, (∀ a ∈ s.reg.held, a.addr / 0x10000 ≠ (pkgNum s * 2 ^ 30 + rkey st blk 0) / 0x10000) → on s st blk = s) ∧
      (∀ s, regPlace s addr.toNat = none → exec (write false) s = .next (setResp s ⟨1, 0⟩)) ∧
      (∀ s st blk off, regPlace s addr.toNat = some (st, blk, off) → pathFails s st = true →
        exec (write false) s = .next (setResp (postError (pathUsed s st) st false) ⟨4, 0⟩)) ∧
      (∀ s st blk off, regPlace s addr.toNat = some (st, blk, off) → pathFails s st = false →
        (regRefuse s i.world st blk off = .quiet → exec (write false) s = .next (setResp s ⟨0, 0⟩)) ∧
        (∀ k, regRefuse s i.world st blk off = .violation k →
          exec (write false) s = .next (setResp (violation s (stopLocus (pkgNum s) st) k (if k = 0 then blk else 0)) ⟨0, 0⟩)) ∧
        (regRefuse s i.world st blk off = .no →
          (stopPowered s st = false → pkgState s ≠ 0 → exec (write false) s = .next (setResp s ⟨2, 0⟩)) ∧
          (stopPowered s st = false → pkgState s = 0 → exec (write false) s = .next (setResp (postError s st true) ⟨3, 0⟩)) ∧
          (stopPowered s st = true → (accDomain s st blk off = 15 ∨ domState s st (accDomain s st blk off) = dON) → blockHeld s addr.toNat = false →
            exec (write false) s = .next (setResp (regWrite s i st (regBlk s st blk) off v) ⟨0, 0⟩)) ∧
          (stopPowered s st = true → (accDomain s st blk off = 15 ∨ domState s st (accDomain s st blk off) = dON) → blockHeld s addr.toNat = true →
            exec (write false) s = .next { s with reg := { s.reg with held := s.reg.held ++ [⟨addr.toNat, i, some v, .env⟩] } }) ∧
          (stopPowered s st = true → accDomain s st blk off ≠ 15 → domState s st (accDomain s st blk off) ≠ dON → pkgState s ≠ 0 →
            exec (write false) s = .next (setResp s ⟨2, 0⟩)) ∧
          (stopPowered s st = true → accDomain s st blk off ≠ 15 → domState s st (accDomain s st blk off) ≠ dON → pkgState s = 0 →
            domState (domWake s st (accDomain s st blk off) wkAccess) st (accDomain s st blk off) ≠ dON →
            let s1 := domWake s st (accDomain s st blk off) wkAccess
            exec (write false) s = .next { s1 with reg := { s1.reg with held := s1.reg.held ++ [⟨addr.toNat, i, some v, .env⟩] } }))) ∧
      (∀ s st, stopOf (bits addr.toNat 22 8) = some st → exec (write true) s = .next (setResp (postError s st false) ⟨4, 0⟩)) ∧
      (∀ s n a st blk off w performed, s.reg.held[n]? = some a → regPlace s a.addr = some (st, blk, off) → a.who = .env → a.write = some w →
        exec (.accessTimeout n performed) s = .next (blockProceed (setResp (postError
          (if performed then regWrite (gone s n) a.init st (regBlk s st blk) off w else gone s n) st true) ⟨3, 0⟩) a.addr)) ∧
      (∀ s st blk off,
        (regFind s st blk off = none → off < 0x8000 → blk ≠ 7 → regWrite s i st blk off v = s) ∧
        (i.world = .normal → writeSecure st blk off = true → regWrite s i st blk off v = s) ∧
        (blkInert s st blk = true → regWrite s i st blk off v = s) ∧
        (∀ r k, regFind s st blk off = some (r, k) → off < 0x8000 → (r.guarded = true ∧ guardOk i = false ∨ r.secureOnly = true ∧ i.world = .normal) →
          regWrite s i st blk off v = s))

/-- R114, R116, R126, R172, R177, R184, R207, R209, R513; R124, R125; R387 to R390, R397, R401, R402. The size of a rate correction is a free value (log entry 1). -/
def Obligations.ThreadTimebaseAndOutriderEvents : Prop :=
  ∀ (h : Hart) (n : Fin 16) (k : Fin 6) (l : Level) (a pc target : Word) (line d : Nat) (falling dir tkn : Bool) (rd rs1 : Reg) (b : BrKind) (l2 : List Trace) (w : WaitSt),
    let off := fun (s : State) => isDrover h = true ∧ domState s (hartStop h) (hartDom s h) ≠ dON
    let live := fun (s : State) => isDrover h = true ∧ hasBoundary s h = true
    let tsrc := match l with | .u => 0 | .s => 0 | .h => 1 | .m => 2
    let set := fun (s : State) => sbit (tget s h) snPRED_CTL 1 = false
    let ind := fun (s : State) => sbit (tget s h) snTHR_CTL 0 = false
    let r := orRegs n
    let ho : Hart := .outrider n
    let done := fun (s : State) => orPut s n { orGet s n with cmd := none }
    let got := fun (s : State) => courierLine s ho (dataUse false 0 (64 * line)) (64 * line)
    let ws := wsStop 0
    let err := fun (s : State) => ppsError (tbNow s)
    let good := fun (s : State) => if (err s).natAbs ≤ 2 then min 8 (s.tbase.good + 1) else 0
    let pps := fun (s : State) => pkgNum s = 0 ∧ pkgState s = 0 ∧ rbit s ws 13 TB_CTL 0 = true ∧ rbit s ws 13 TB_CTL 1 = falling
    let caught := fun (s : State) => rsetB (rsetB (rput (rput64 s ws 13 TB_PPS_LO (tbNow s)) ws 13 TB_ERR (BitVec.ofInt 32 (err s))) ws 13 TB_STAT 0 true) ws 13 TB_STAT 1 (decide (8 ≤ good s))
    let waits := fun (s : State) => (tget s h).wait = some w ∧ waitReasons s h w.deadline ≠ 0
    Acts (.waitWake h)
      (fun s => waits s ∧ off s ∧ pkgState s = 0 ∧ pmFrozen s = true)
      (fun s => domWake s (hartStop h) (hartDom s h) wkThread) ∧
    Acts (.waitWake h)
      (fun s => waits s ∧ off s ∧ pkgState s ≠ 0)
      (fun s => pkgWake s 2 (hartLocus (pkgNum s) h)) ∧
    Acts (.waitWake h)
      (fun s => (tget s h).wait = none ∨ (∃ w, (tget s h).wait = some w ∧ waitReasons s h w.deadline = 0))
      (fun s => s) ∧
    Acts (.timerSourcePending h l)
      (fun s => privPending s h tsrc = true ∧ privEnabled s h tsrc = true ∧ (tget s h).run = .waiting ∧ off s ∧ pkgState s ≠ 0)
      (fun s => pkgWake s 2 (hartLocus (pkgNum s) h)) ∧
    Acts (.timerSourcePending h l)
      (fun s => privPending s h tsrc = true ∧ privEnabled s h tsrc = true ∧ (tget s h).run = .waiting ∧ off s ∧ pkgState s = 0 ∧ pmFrozen s = true)
      (fun s => domWake s (hartStop h) (hartDom s h) wkThread) ∧
    Acts (.timerSourcePending h l)
      (fun s => privPending s h tsrc = false ∨ privEnabled s h tsrc = false ∨ (tget s h).run ≠ .waiting ∨ ¬ off s)
      (fun s => s) ∧
    Acts (.branchResolve h pc (.direct true) true true target [])
      (fun s => live s ∧ set s ∧ (predLookup s h 1 pc = none ∨ predLookup s h 1 pc = some target))
      (fun s => train (train s h 0 pc 1) h 1 pc target) ∧
    Acts (.branchResolve h pc (.direct true) true true target [])
      (fun s => live s ∧ set s ∧ predLookup s h 1 pc = some a ∧ a ≠ target)
      (fun s => countThread (train (train s h 0 pc 1) h 1 pc target) h evBR_MISPRED 1) ∧
    Acts (.branchResolve h pc (.direct true) false false target [])
      (fun s => live s ∧ set s)
      (fun s => train s h 0 pc 0) ∧
    Acts (.branchResolve h pc (.direct true) true false target [.push a, .pop])
      (fun s => live s ∧ set s ∧ ind s)
      (fun s => rsPop (rsPush (countThread (train s h 0 pc 0) h evBR_MISPRED 1) h a) h) ∧
    Acts (.branchResolve h pc (.direct true) dir false target [])
      (fun s => live s ∧ ¬ set s)
      (fun s => s) ∧
    Acts (.branchResolve h pc (.direct false) dir true target [])
      (fun s => live s ∧ predLookup s h 1 pc = none)
      (fun s => train s h 1 pc target) ∧
    Acts (.branchResolve h pc (.indirect rd rs1) dir true target [])
      (fun s => live s ∧ ¬ ind s)
      (fun s => s) ∧
    Acts (.branchResolve h pc (.indirect 0 rs1) dir true target [])
      (fun s => live s ∧ ind s ∧ (rs1 = 1 ∨ rs1 = 5) ∧ rsTop s h = some target)
      (fun s => train s h 1 pc target) ∧
    Acts (.branchResolve h pc (.indirect 0 rs1) dir true target [])
      (fun s => live s ∧ ind s ∧ (rs1 = 1 ∨ rs1 = 5) ∧ rsTop s h ≠ some target)
      (fun s => countThread (countThread (train s h 1 pc target) h evBR_MISPRED 1) h evRET_MISPRED 1) ∧
    Acts (.branchResolve h pc (.indirect rd 9) dir true target [])
      (fun s => live s ∧ ind s ∧ predLookup s h 1 pc = none)
      (fun s => train s h 1 pc target) ∧
    Acts (.branchResolve h pc b dir tkn target l2)
      (fun s => ¬ live s)
      (fun s => s) ∧
    Acts (.memoryOrderViolation h ⟨pc, [.touch target false]⟩)
      (fun s => live s ∧ loadWaits s h pc = false ∧ (tget s h).park = none)
      (fun s => touch (countThread (train s h 2 pc 1) h evMO 1) h target.toNat false) ∧
    Acts (.memoryOrderViolation h ⟨pc, l2⟩)
      (fun s => live s ∧ loadWaits s h pc = true)
      (fun s => s) ∧
    Acts (.pendingStartDone h)
      (fun s => (tget s h).startAt = some a ∧ hartExists h = true ∧ domState s (hartStop h) (hartDom s h) = dON)
      (fun s => cairnSync (stall (tput s h (startThread s h a)) h 0) h) ∧
    Acts (.pendingStartDone h)
      (fun s => (tget s h).startAt = none)
      (fun s => s) ∧
    Acts (.threadStopDone h)
      (fun s => (∀ n, h ≠ .outrider n) ∧ (tget s h).stopReq = true ∧ hasBoundary s h = true ∧ groupsOf s h = [] ∧ (tget s h).nb = [])
      (fun s => cairnSync (emptyRunStacks (stopThread s h) h) h) ∧
    Acts (.threadStopDone ho)
      (fun s => (tget s ho).stopReq = true ∧ hasBoundary s ho = true ∧ (tget s ho).nb = [] ∧ groupsOf s ho = [])
      (fun s => lcFlush (emptyRunStacks (stopThread s ho) ho) n) ∧
    Acts (.haltTakesEffect h)
      (fun s => haltDue s h = true ∧ hasBoundary s h = true ∧ groupsOf s h = [] ∧ (tget s h).wait = none)
      (fun s => cairnSync (haltNow (drainAll (tmod s h fun t => { t with park := none }) h) h) h) ∧
    Acts (.haltTakesEffect h)
      (fun s => haltDue s h = true ∧ hasBoundary s h = true ∧ groupsOf s h = [] ∧ (tget s h).wait = some w)
      (fun s => haltAt (wakeWait s h w (waitReasons s h w.deadline)) h) ∧
    Acts (.haltTakesEffect h)
      (fun s => haltDue s h = false)
      (fun s => s) ∧
    Acts (.ppsEdge falling)
      (fun s => pps s ∧ err s < -1000 ∧ rbit s ws 13 TB_CTL 2 = true)
      (fun s => rsetB { caught s with tbase := { (caught s).tbase with good := good s, seen := true, tb := s.tbase.tb + BitVec.ofInt 64 (-err s) } } ws 13 TB_STAT 3 true) ∧
    Acts (.ppsEdge falling)
      (fun s => pps s ∧ ¬ (err s < -1000 ∧ rbit s ws 13 TB_CTL 2 = true))
      (fun s => useFree { caught s with tbase := { (caught s).tbase with good := good s, seen := true, corr := ppsCorr (err s) (rfld s ws 13 TB_CTL 8 8) (freeVal s).toNat } }) ∧
    Acts (.ppsEdge falling)
      (fun s => ¬ pps s)
      (fun s => s) ∧
    Acts (.ppsLost)
      (fun s => pkgNum s = 0 ∧ rbit s ws 13 TB_CTL 0 = true ∧ s.tbase.seen = true)
      (fun s => rsetB { s with tbase := { s.tbase with seen := false } } ws 13 TB_STAT 2 true) ∧
    Acts (.ppsLost)
      (fun s => s.tbase.seen = false)
      (fun s => s) ∧
    Acts (.tbLoad)
      (fun s => s.tbase.load = some (tbNow s + 1, d) ∧ tbNow s < d ∧ d < 2 ^ 64)
      (fun s => { s with tbase := { s.tbase with tb := BitVec.ofNat 64 d, load := none } }) ∧
    Acts (.tbLoad)
      (fun s => s.tbase.load = none)
      (fun s => s) ∧
    Acts (.lcCmdDone n)
      (fun s => (orGet s n).cmd = some (1, line) ∧ (got s).2 = true)
      (fun s => done (got s).1) ∧
    Acts (.lcCmdDone n)
      (fun s => (orGet s n).cmd = some (2, line) ∧ (got s).2 = true)
      (fun s => lcFill (done (got s).1) n line true) ∧
    Acts (.lcCmdDone n)
      (fun s => ((orGet s n).cmd = some (1, line) ∨ (orGet s n).cmd = some (2, line)) ∧ (got s).2 = false)
      (fun s => (got s).1) ∧
    Acts (.lcCmdDone n)
      (fun s => (orGet s n).cmd = some (3, line) ∧ lcFind (orGet s n) line = none)
      (fun s => done s) ∧
    Acts (.lcCmdDone n)
      (fun s => (orGet s n).cmd = some (3, line) ∧ lcFind (orGet s n) line = some d)
      (fun s => orPut (done s) n (lcSet (orGet (done s) n) d (some (line, false)))) ∧
    Acts (.lcCmdDone n)
      (fun s => (orGet s n).cmd = some (4, line))
      (fun s => orPut (done s) n { orGet (done s) n with lc := (orGet s n).lc.map fun e => (e.1, e.2.map fun x => (x.1, false)) }) ∧
    Acts (.lcCmdDone n)
      (fun s => (orGet s n).cmd = some (5, line))
      (fun s => lcFlush (done s) n) ∧
    Acts (.lcCmdDone n)
      (fun s => (orGet s n).cmd = none)
      (fun s => s) ∧
    Acts (.outriderFault n)
      (fun s => True)
      (fun s => addEvent (rsetB (stopThread (reportErr s r.1 (0x8004 + n.val % 8 * 0x100) tyUE) ho) r.1 1 (r.2 + OR_STAT) 3 true) 7 (stopLocus (pkgNum s) r.1) (0x8004 + n.val % 8 * 0x100) (decide ((tget s ho).world = .secure))) ∧
    Acts (.panicAge n k)
      (fun s => k.val ∈ (orGet s n).aged ∧ (rbit s r.1 2 CP_CTL 24 = false ∨ rbit s r.1 2 CP_STAT k.val = true))
      (fun s => s) ∧
    Acts (.panicAge n k)
      (fun s => k.val ∈ (orGet s n).aged ∧ rbit s r.1 2 CP_CTL 24 = true ∧ rbit s r.1 2 CP_STAT k.val = false)
      (fun s => rput (countScope (rsetB (rsetB s r.1 2 CP_STAT k.val true) r.1 2 CP_STAT 6 true) r.1 129 1 none) r.1 2 CP_PANIC_CNT (BitVec.ofNat 32 (min (2 ^ 32 - 1) ((rget s r.1 2 CP_PANIC_CNT).toNat + 1)))) ∧
    (∀ s c, hasBoundary s h = true → (tget s h).mchk = [] → (tget s h).wait = none → deliverable s h = some (c, l) →
      let t0 := applySync (tget s h)
      let g := levelCode l * 0x400
      ∃ u, exec (.takeInterrupt h) s = .next u ∧
        let t := tget u h
        t.level = l ∧ t.im = true ∧ t.world = (if l = .m then .secure else t0.world) ∧ t.pc = sget t0 (g + exVBASE) + 0x100 ∧
        sget t (g + exSTATUS) = BitVec.ofNat 64 (levelCode t0.level + 4 * worldCode t0.world + 8 * b2n t0.im) ∧
        sget t (g + exEPC) = (tget s h).pc &&& ~~~(3 : Word) ∧ sget t (g + exCAUSE) = BitVec.ofNat 64 cINT ∧
        sget t (g + exVAL) = 0 ∧ sget t (g + exINFO) = 0 ∧ t.x = t0.x ∧ t.p = t0.p ∧ t.v = t0.v ∧ t.m = t0.m) ∧
    (∀ s src info val m, hasBoundary s h = true → (tget s h).mchk = (src, info, val) :: m →
      let t0 := applySync (tget s h)
      let lv := mchkLevelOf (tmod s h fun t => { t with mchk := m }) h src
      let g := levelCode lv * 0x400
      ∃ u, exec (.takeInterrupt h) s = .next u ∧
        let t := tget u h
        t.level = lv ∧ t.im = true ∧ t.world = (if lv = .m then .secure else t0.world) ∧ t.pc = sget t0 (g + exVBASE) + 0x180 ∧
        sget t (g + exEPC) = (tget s h).pc &&& ~~~(3 : Word) ∧ sget t (g + exCAUSE) = BitVec.ofNat 64 cMCHK ∧
        sget t (g + exVAL) = BitVec.ofNat 64 val ∧ sget t (g + exINFO) = BitVec.ofNat 64 info ∧ t.mchk = m ∧
        t.x = t0.x ∧ t.p = t0.p ∧ t.v = t0.v ∧ t.m = t0.m) ∧
    (∀ s, waits s → ¬ off s → ∃ u, exec (.waitWake h) s = .next u ∧
      Retired (moveTo (changes h (fun t => { xset t w.rd (BitVec.ofNat 64 (waitReasons s h w.deadline)) with
        run := .running, wait := none, modeWait := none, resvLost := false }) s) h ((tget s h).pc + 4)) h (tget s h) u) ∧
    (∀ s, let t := startThread s h a
      t.pc = a ∧ t.run = .running ∧ t.level = (if h = ho then .s else if isDrover h then .m else t.level) ∧
      xget t 10 = BitVec.ofNat 64 ((coreId s h).toNat % 65536) ∧ (∀ x, x ≠ 10 → x ≠ 11 → xget t x = 0)) ∧
    (∀ s, hartLocked s h = false → cairnSync s h = s) ∧
    (∀ e slew f, (e < 0 → 0 ≤ ppsCorr e slew f ∧ ppsCorr e slew f ≤ slew) ∧ (0 < e → -slew ≤ ppsCorr e slew f ∧ ppsCorr e slew f ≤ 0) ∧
      (e = 0 → ppsCorr e slew f = 0))

/-- R447, R449 to R451, R454 to R457, R460, R461. -/
def Obligations.ErrorEvents : Prop :=
  ∀ (st : Stop) (die : Fin 2) (band : Fin 6) (c : Fin 2) (line addr way : Nat) (p : Fin 192) (a : Agent) (r : Report) (o : Fin 16) (q : List Report) (m : NodeMsg × Option Hart),
    let ws := wsStop die
    let key := bandKey die band.val
    let queue := fun (s : State) => mapGet (fun _ => []) s.err.queues key
    let armed := fun (s : State) => rbit s st 8 INJ_STAT 0 = true
    let trig := fun (s : State) => rfld s st 8 INJ_CTL 4 2
    let src := fun (s : State) => rfld s st 8 INJ_SRC 0 16
    let left := fun (s : State) => rfld s st 8 INJ_STAT 8 8
    let shown := fun (s : State) (ty : Nat) (x : Option Nat) => rsetB (reportErr s st (src s) ty x 0 0 true) st 8 INJ_STAT 2 true
    let hit := fun (s : State) => trig s = 0 ∨ trig s = 3 ∨ (trig s = 1 ∧ addr / 64 = rget64 s st 8 INJ_ADDR_LO % 2 ^ 52 / 64)
    let cs := 0x1006 + c.val * 0x100
    let h0 := Hart.drover st c 0
    let h1 := Hart.drover st c 1
    let can := fun (s : State) => stopKind st = .tile ∧ tileMode s st ≠ 1 ∧ tileMode s st ≠ 3 ∧ domState s st c.val = dON
    let check := fun (s : State) (h : Hart) (re : Bool) => tmod s h fun t => { t with mchk := t.mchk ++ [(cs, mchkInfo cs false re false false, 0)] }
    let said := fun (s : State) => reportErr s st cs tyUE none 0 (c.val * 32)
    let late := fun (s : State) => reportErr s st 0x3007 tyTIMEOUT (some (64 * line))
    let reads := fun (m : NodeMsg × Option Hart) => decide (m.1.addr / 64 = line) && [1, 2, 4].contains m.1.op
    let writes := fun (m : NodeMsg × Option Hart) => decide (m.1.addr / 64 = line) && [3, 5, 6, 7].contains m.1.op
    Acts (.ledgerRecord die band)
      (fun s => queue s = r :: q)
      (fun s => ledgerEnter { s with err := { s.err with queues := mapSet (fun _ => []) s.err.queues key q } } r) ∧
    Acts (.ledgerRecord die band)
      (fun s => queue s = [])
      (fun s => s) ∧
    Acts (.reportLost die band)
      (fun s => setHas s.err.lost key = true ∧ (queue s).length < 16)
      (fun s => reportErr { s with err := { s.err with lost := setDel s.err.lost key } } ws (0xA003 + band.val * 0x100) tyDROP) ∧
    Acts (.reportLost die band)
      (fun s => setHas s.err.lost key = false ∨ 16 ≤ (queue s).length)
      (fun s => s) ∧
    Acts (.injTrigger st addr)
      (fun s => armed s ∧ hit s ∧ rfld s st 8 INJ_CTL 1 2 = 0 ∧ 1 < left (shown s tyCE (some addr)))
      (fun s => rputF (shown s tyCE (some addr)) st 8 INJ_STAT 8 8 (left (shown s tyCE (some addr)) - 1)) ∧
    Acts (.injTrigger st addr)
      (fun s => armed s ∧ hit s ∧ rfld s st 8 INJ_CTL 1 2 = 0 ∧ left (shown s tyCE (some addr)) = 1)
      (fun s => injDisarm (shown s tyCE (some addr)) st) ∧
    Acts (.injTrigger st addr)
      (fun s => armed s ∧ hit s ∧ rfld s st 8 INJ_CTL 1 2 ≠ 0 ∧ rbit s st 8 INJ_CTL 3 = true ∧ isDevice addr = false ∧ left (shown (poisonLine s addr) tyUE (some addr)) = 1)
      (fun s => injDisarm (shown (poisonLine s addr) tyUE (some addr)) st) ∧
    Acts (.injTrigger st addr)
      (fun s => ¬ armed s ∨ ¬ hit s)
      (fun s => s) ∧
    Acts (.injTime st)
      (fun s => armed s ∧ trig s = 2 ∧ rget64 s st 8 INJ_TIME_LO ≤ tbNow s ∧ rfld s st 8 INJ_CTL 1 2 = 0 ∧ left (shown s tyCE none) = 1)
      (fun s => injDisarm (shown s tyCE none) st) ∧
    Acts (.injTime st)
      (fun s => ¬ armed s ∨ trig s ≠ 2 ∨ tbNow s < rget64 s st 8 INJ_TIME_LO)
      (fun s => s) ∧
    Acts (.coreUe st c true true true)
      (fun s => can s ∧ (tget s h0).run ≠ .stopped ∧ (tget s h1).run ≠ .stopped)
      (fun s => check (check (said s) h0 true) h1 true) ∧
    Acts (.coreUe st c false true false)
      (fun s => can s ∧ (tget s h1).run ≠ .stopped)
      (fun s => check (said s) h1 false) ∧
    Acts (.coreUe st c true false false)
      (fun s => can s ∧ (tget s h0).run = .stopped)
      (fun s => said s) ∧
    Acts (.coreUe st c true true true)
      (fun s => ¬ can s)
      (fun s => s) ∧
    Acts (.txnTimeout st none 0 a line)
      (fun s => stopKind st = .tile ∧ s.link.waiting.find? reads = none)
      (fun s => late (poisonLine (dropWaiting s line [1, 2, 4]) (64 * line))) ∧
    Acts (.txnTimeout st none 0 a line)
      (fun s => stopKind st = .tile ∧ s.link.waiting.find? reads = some m)
      (fun s => late (poisonLine (hold (dropWaiting s line [1, 2, 4]) line (some (if m.1.op = 4 then 4 else if m.1.op = 2 then 2 else 0))) (64 * line))) ∧
    Acts (.txnTimeout st none 1 (.core p) line)
      (fun s => stopKind st = .tile ∧ l2Find s p.val line = some (way, 3))
      (fun s => late (poisonLine (sfDropCore (l2Lose s p.val line way) st line p.val) (64 * line))) ∧
    Acts (.txnTimeout st none 1 (.core p) line)
      (fun s => stopKind st = .tile ∧ l2Find s p.val line = some (way, 1))
      (fun s => late (sfDropCore (l2Lose s p.val line way) st line p.val)) ∧
    Acts (.txnTimeout st none 1 (.courier (.outrider o)) line)
      (fun s => stopKind st = .tile)
      (fun s => late (invCourier s line (2 ^ (o.val / 8)) none)) ∧
    Acts (.txnTimeout st none 1 (.core p) line)
      (fun s => stopKind st = .tile ∧ l2Find s p.val line = none)
      (fun s => late s) ∧
    Acts (.txnTimeout st (some c) 2 a line)
      (fun s => stopKind st = .tile)
      (fun s => reportErr ((s.link.waiting.filter writes).foldl (fun s m => ackDone s m.1 m.2) (dropWaiting s line [3, 5, 6, 7])) st (0x1007 + c.val * 0x100) tyTIMEOUT (some (64 * line)) 0 0 false 2 (some (agentWorld s a))) ∧
    (∀ s, let w := wsStop r.stop.die
      let i := rfld s w 10 LEDGER_STAT 0 5
      let j := rfld s w 10 LEDGER_STAT 16 16
      let u := ledgerEnter s r
      r.merge = false →
        rget u w 10 (ledgerOff i) = BitVec.ofNat 32 r.ts ∧ rget u w 10 (ledgerOff i + 8) = BitVec.ofNat 32 (r.source + r.locus * 65536) ∧
        rget u w 10 (ledgerOff i + 24) = BitVec.ofNat 32 r.synd ∧ rfld u w 10 (ledgerOff i + 28) 0 16 = j ∧
        rfld u w 10 LEDGER_STAT 0 5 = (i + 1) % 32 ∧ rfld u w 10 LEDGER_STAT 16 16 = (j + 1) % 65536 ∧
        (i = 31 → rbit u w 10 LEDGER_STAT 5 = true)) ∧
    (∀ s (k : Fin 4), stopKind st ≠ .waystation →
      let b := capBase k.val
      let u := capture s st k.val r
      (rbit s st 8 (ERR_CAP_SRC + b) 31 = false → r.source < 65536 → r.sev < 4 →
        rbit u st 8 (ERR_CAP_SRC + b) 31 = true ∧ rfld u st 8 (ERR_CAP_SRC + b) 0 16 = r.source ∧ rfld u st 8 (ERR_CAP_SRC + b) 16 2 = r.sev ∧
        rget u st 8 (ERR_CAP_LOCUS + b) = BitVec.ofNat 32 r.locus ∧ rget u st 8 (ERR_CAP_TS_LO + b) = BitVec.ofNat 32 r.ts ∧
        rbit u st 8 ERR_STAT k.val = true) ∧
      (rbit s st 8 (ERR_CAP_SRC + b) 31 = true → r.sev < 4 →
        rbit u st 8 (ERR_CAP_SRC + b) 31 = true ∧ rfld u st 8 (ERR_CAP_SRC + b) 0 16 = rfld s st 8 (ERR_CAP_SRC + b) 0 16 ∧
        rfld u st 8 (ERR_CAP_SRC + b) 16 2 = max (rfld s st 8 (ERR_CAP_SRC + b) 16 2) r.sev ∧
        rfld u st 8 (ERR_CAP_SRC + b) 21 8 = min 255 (rfld s st 8 (ERR_CAP_SRC + b) 21 8 + 1)))

/-- R279, R282 to R284, R288 to R298, R299 to R311. The requests cross the mesh (R314), keep a slot while they wait (R284, R285) and are answered. -/
def Obligations.CacheAndHomeEvents : Prop :=
  ∀ (st : Stop) (line way page addr tag : Nat) (n m : Fin 192) (p : Fin 4) (c : Fin 2) (w2 : Fin 16) (w1 : Fin 8) (w3 : Fin 12) (nt demand : Bool) (data : List Byte),
    let a : Agent := .core n
    let b : Agent := .pkg p tag
    let cw := fun (s : State) (x : Agent) => some (agentWorld s x)
    let sl := fun (s : State) => sliceGet s st
    let evbOf := fun (s : State) => (sl s).evb.find? (fun e => e.line = line)
    let free := fun (s : State) => homeOf s (64 * line) = some st ∧ setHas s.cache.retiring (stopIdx st) = false
    let fresh := fun (s : State) (op : Nat) (x : Agent) => free s ∧ domState s st 2 = dON ∧ (sl s).waits.contains (op, x, line) = false ∧ evbWaits (sl s) op x line = false
    let come := fun (s : State) (op : Nat) (x : Agent) => countScope (agentSend s x st).1 st (op - 1) 1 (cw s x)
    let got := fun (s : State) (op : Nat) (x : Agent) => slotFree (come s op x) st (op, x, line)
    let sent := fun (s : State) (op : Nat) (x : Agent) => fresh s op x ∧ slotOcc s st < 128 ∧ (agentSend s x st).2 = true
    let ready := fun (s : State) (op : Nat) (x : Agent) => sent s op x ∧ linePinned s x line = false ∧ lentReady s line (decide (op = 2 ∨ op = 3 ∨ op = 5)) (agentPkg x) = true
    let home := fun (s : State) (op : Nat) (x : Agent) => ready s op x ∧ evbOf (got s op x) = none
    let gw := fun (s : State) (op : Nat) (x : Agent) => agentWorld (got s op x) x
    let read := fun (s : State) (x : Agent) => homeRead (got s 1 x) st (gw s 1 x) x line nt demand
    let own := fun (s : State) => invOthers (homeRead (packFree (got s 2 a) st line) st (gw s 2 a) a line nt true) st (gw s 2 a) line (some a)
    let upg := fun (s : State) => invOthers (packFree (got s 3 a) st line) st (gw s 3 a) line (some a)
    let onc := fun (s : State) => invOthers (packFree (countScope (got s 5 a) st 0x0F 1 (some (gw s 5 a))) st line) st (gw s 5 a) line none
    let held := fun (s : State) => (l2Holders s line).filter fun e => decide (e.1 ≠ n.val)
    let others := fun (s : State) => match sfFind (sliceGet s st) line with | some (_, e) => decide (e.pkgs ≠ 0 ∨ e.courier ≠ 0) | none => false
    let keepO := fun (s : State) => countScope (sfOwner (l2Move (read s a) m.val line l2O) st line (some (m.val, l2O))) st 0x1A 1 (some (gw s 1 a))
    let evb := fun (s : State) (i : Bool) => ⟨line, i, []⟩ ∈ (sl s).evb ∧ evbOf s = some ⟨line, i, []⟩
    let blk := 3 + c.val
    let ce := fun (s : State) (k cnt src : Nat) => reportErr (rsat (rsat s st k cnt 0 16 1) st k cnt 16 16 1) st src tyCE (some addr)
    let ue := fun (s : State) (src : Nat) => reportErr (markPoison s addr) st src (tyUE + tyPOISON) (some addr)
    let bad := fun (s : State) (k : Nat) => { s with cache := { s.cache with disab := setAdd s.cache.disab (disKey st k) } }
    let gone := fun (s : State) (k : Nat) => { wayEmpty s st k with cache := { (wayEmpty s st k).cache with disab := setDel (wayEmpty s st k).cache.disab (disKey st k) } }
    let drop := fun (s : State) => { s with link := { s.link with held := s.link.held.filter fun l => l.1 ≠ line } }
    let outward := fun (s : State) => paTarget s (64 * line) = .remoteMem p.val ∧ homeOf s (64 * line) = none
    let last := fun (s : State) (v : Nat) => (l2Holders (l2Lose s n.val line way) line).isEmpty = true ∧ (l2Lose s n.val line way).link.held.find? (fun e => decide (e.1 = line ∧ e.2 ≤ 3)) = some (line, v)
    let again := fun (s : State) => { s with cache := { s.cache with retries := s.cache.retries.erase (1, a, line) } }
    Acts (.readShared a line nt demand)
      (fun s => home s 1 a ∧ held (read s a) = [] ∧ others (read s a) = false ∧ l2Enabled (read s a) n.val = true ∧ l2Find (read s a) n.val line = none)
      (fun s => agentReply (sfOwner (l2Take (sfAddCore (read s a) st (gw s 1 a) line n.val) n.val line l2E nt) st line (some (n.val, l2E))) a st) ∧
    Acts (.readShared a line nt demand)
      (fun s => home s 1 a ∧ held (read s a) = [(m.val, l2M)] ∧ l2Enabled (keepO s) n.val = true ∧ l2Find (keepO s) n.val line = none)
      (fun s => agentReply (l2Take (sfAddCore (keepO s) st (gw s 1 a) line n.val) n.val line l2S nt) a st) ∧
    Acts (.readShared b line nt demand)
      (fun s => home s 1 b ∧ l2Holders (read s b) line = [] ∧ others (read s b) = false)
      (fun s => answerPkg (lend (sfPkg (read s b) st (gw s 1 b) line p.val true) line p.val (some 1)) b line (some 1)) ∧
    Acts (.readShared a line nt demand)
      (fun s => setHas s.cache.retiring (stopIdx st) = true ∧ homeOf s (64 * line) = some st)
      (fun s => s) ∧
    Acts (.readShared a line nt demand)
      (fun s => free s ∧ domState s st 2 ≠ dON ∧ pkgState s = 0)
      (fun s => domWake s st 2 wkHomed) ∧
    Acts (.readShared a line nt demand)
      (fun s => fresh s 1 a ∧ 128 ≤ slotOcc s st)
      (fun s => s) ∧
    Acts (.readShared a line nt demand)
      (fun s => sent s 1 a ∧ linePinned s a line = true)
      (fun s => slotTake (come s 1 a) st (1, a, line)) ∧
    Acts (.readShared a line nt demand)
      (fun s => sent s 1 a ∧ linePinned s a line = false ∧ lentReady s line false none = false)
      (fun s => snoopLent (slotTake (come s 1 a) st (1, a, line)) line false none) ∧
    Acts (.readShared a line nt demand)
      (fun s => outward s ∧ (s.link.waiting.any fun m => decide (m.1.op = 1 ∧ m.1.addr = 64 * line)) = false)
      (fun s => sendFrom s none none 1 (pkgLocus p.val) (64 * line) 0 []) ∧
    Acts (.readShared a line nt demand)
      (fun s => ready s 1 a ∧ evb (got s 1 a) true)
      (fun s => (let t := got s 1 a; countScope (slicePut t st { sl t with evb := (sl t).evb.map fun x => if x.line = line then { x with waiting := x.waiting ++ [(1, a, nt)] } else x }) st 0x16 1 (some (gw s 1 a)))) ∧
    Acts (.readOwn a line nt)
      (fun s => home s 2 a ∧ l2Enabled (own s) n.val = true)
      (fun s => agentReply (sfOwner (l2Take (sfAddCore (own s) st (gw s 2 a) line n.val) n.val line l2M nt) st line (some (n.val, l2M))) a st) ∧
    Acts (.upgrade a line)
      (fun s => home s 3 a ∧ (l2Find s n.val line = some (way, l2S) ∨ l2Find s n.val line = some (way, l2O)) ∧ l2Enabled (upg s) n.val = true)
      (fun s => agentReply (sfOwner (l2Take (sfAddCore (upg s) st (gw s 3 a) line n.val) n.val line l2M false) st line (some (n.val, l2M))) a st) ∧
    Acts (.upgrade a line)
      (fun s => l2Find s n.val line = none)
      (fun s => s) ∧
    Acts (.readOnce a line)
      (fun s => home s 4 a)
      (fun s => agentReply (homeRead (countScope (got s 4 a) st 0x0F 1 (some (gw s 4 a))) st (gw s 4 a) a line false true) a st) ∧
    Acts (.writeOnce a (64 * line) data)
      (fun s => data ≠ [] ∧ data.length ≤ 64 ∧ home s 5 a ∧ (l3Find (sl (onc s)) line).isSome = true)
      (fun s => agentWrite (agentReply (l3Fill (onc s) st line true 1 (some 0)) a st) none (64 * line) data) ∧
    Acts (.writeOnce a (64 * line) data)
      (fun s => data ≠ [] ∧ data.length ≤ 64 ∧ home s 5 a ∧ (l3Find (sl (onc s)) line).isSome = false)
      (fun s => (let m := demandMiss (onc s) st (gw s 5 a) line; agentWrite (agentReply (missFill m.1 st (gw s 5 a) line true false m.2) a st) none (64 * line) data)) ∧
    Acts (.writeBack a line [])
      (fun s => homeOf s (64 * line) = some st ∧ (l2Find s n.val line = some (way, l2O) ∨ l2Find s n.val line = some (way, l2M)))
      (fun s => l3Fill (packFree (sfDropCore (l2Lose (countScope s st 5 1 (cw s a)) n.val line way) st line n.val) st line) st line true 1) ∧
    Acts (.writeBack a line [])
      (fun s => l2Find s n.val line = some (way, l2S) ∨ l2Find s n.val line = some (way, l2E))
      (fun s => s) ∧
    Acts (.writeBack a line [])
      (fun s => outward s ∧ l2Find s n.val line = some (way, l2M) ∧ last s 2)
      (fun s => sendWait (drop (l2Lose s n.val line way)) none 6 (pkgLocus p.val) (64 * line) 0 (memRead (drop (l2Lose s n.val line way)) (64 * line) 64)) ∧
    Acts (.writeBack a line [])
      (fun s => outward s ∧ l2Find s n.val line = none ∧ (line, 2) ∈ s.link.held)
      (fun s => sendWait (drop s) none 6 (pkgLocus p.val) (64 * line) 0 (memRead s (64 * line) 64)) ∧
    Acts (.writeBack b line data)
      (fun s => homeOf s (64 * line) = some st)
      (fun s => answerPkg (l3Fill (agentWrite (packFree (sfPkg (lend (countScope s st 5 1 (some .normal)) line p.val none) st .normal line p.val false) st line) none (64 * line) (data.take 64)) st line true 1) b line none) ∧
    Acts (.notify a line)
      (fun s => homeOf s (64 * line) = some st ∧ (l2Find s n.val line = some (way, l2S) ∨ l2Find s n.val line = some (way, l2E)) ∧ rbit (countScope s st 6 1 (cw s a)) st 5 L3_CTL 2 = false)
      (fun s => sfDropCore (l2Lose (countScope s st 6 1 (cw s a)) n.val line way) st line n.val) ∧
    Acts (.notify a line)
      (fun s => outward s ∧ l2Find s n.val line = none ∧ (line, 1) ∈ s.link.held)
      (fun s => sendWait (drop s) none 7 (pkgLocus p.val) (64 * line) 0 []) ∧
    Acts (.notify b line)
      (fun s => homeOf s (64 * line) = some st)
      (fun s => answerPkg (sfPkg (lend (countScope s st 6 1 (some .normal)) line p.val none) st .normal line p.val false) b line none) ∧
    Acts (.memoryAck st line)
      (fun s => evb s true ∧ mcWaits (mcAccept s line) line = false ∧ (sl (mcAccept s line)).fills = [])
      (fun s => (let t := mcAccept s line; slicePut t st { sl t with evb := (sl t).evb.filter (fun x => x.line ≠ line), fills := [] })) ∧
    Acts (.memoryAck st line)
      (fun s => evb s false)
      (fun s => s) ∧
    Acts (.packFill st line)
      (fun s => line ∈ (sl s).pref ∧ poisoned s (64 * line) 64 = false ∧ (sl s).pack.length < 16)
      (fun s => slicePut s st { sl s with pref := setDel (sl s).pref line, pack := (sl s).pack ++ [(line, packEnd s st)] }) ∧
    Acts (.packFill st line)
      (fun s => line ∈ (sl s).pref ∧ poisoned s (64 * line) 64 = true)
      (fun s => countScope (slicePut s st { sl s with pref := setDel (sl s).pref line }) st 0x13 1 (some .normal)) ∧
    Acts (.packExpire st line)
      (fun s => (line, page) ∈ (sl s).pack)
      (fun s => countScope (slicePut s st { sl s with pack := (sl s).pack.filter fun e => e.1 ≠ line }) st 0x12 1 (some .normal)) ∧
    Acts (.streamExpire st page)
      (fun s => True)
      (fun s => slicePut s st { sl s with streams := (sl s).streams.filter fun e => e.page ≠ page }) ∧
    Acts (.cacheArrayError (.l1i st c) addr false false)
      (fun s => True)
      (fun s => reportErr s st (0x1001 + 0x100 * c.val) tyPARITY (some addr)) ∧
    Acts (.cacheArrayError (.l1d st c w1) addr true true)
      (fun s => True)
      (fun s => rsetB (bad (ue s (0x1002 + 0x100 * c.val)) (32 + 8 * c.val + w1.val)) st blk L2_STAT 1 true) ∧
    Acts (.cacheArrayError (.l2 st c w2) addr true true)
      (fun s => True)
      (fun s => rsetB (bad (ue s (0x2002 + 0x100 * c.val)) (16 * c.val + w2.val)) st blk L2_STAT 1 true) ∧
    Acts (.cacheArrayError (.l2 st c w2) addr false false)
      (fun s => (let t := ce s blk (L2_WAY_CECNT + 4 * w2.val) (0x2001 + 0x100 * c.val); rfld t st blk (L2_WAY_CECNT + 4 * w2.val) 0 16 ≤ rfld t st blk L2_ERR_THRESH 0 8))
      (fun s => ce s blk (L2_WAY_CECNT + 4 * w2.val) (0x2001 + 0x100 * c.val)) ∧
    Acts (.cacheArrayError (.l2 st c w2) addr false false)
      (fun s => (let t := ce s blk (L2_WAY_CECNT + 4 * w2.val) (0x2001 + 0x100 * c.val); rfld t st blk L2_ERR_THRESH 0 8 < rfld t st blk (L2_WAY_CECNT + 4 * w2.val) 0 16))
      (fun s => rsetB (bad (ce s blk (L2_WAY_CECNT + 4 * w2.val) (0x2001 + 0x100 * c.val)) (16 * c.val + w2.val)) st blk L2_STAT 1 true) ∧
    Acts (.cacheArrayError (.l3 st w3) addr true true)
      (fun s => depotMask s st = 0)
      (fun s => rsetB (bad (ue s 0x3002) (48 + w3.val)) st 5 L3_STAT 2 true) ∧
    Acts (.cacheArrayError (.l3 st w3) addr true true)
      (fun s => bit (depotMask s st) w3.val = true)
      (fun s => ue s 0x3006) ∧
    Acts (.wayDisableDone st (16 * c.val + w2.val))
      (fun s => setHas s.cache.disab (disKey st (16 * c.val + w2.val)) = true ∧ (gone s (16 * c.val + w2.val)).cache.disab = [])
      (fun s => reportErr (rsetB (rsetB (rsetB (gone s (16 * c.val + w2.val)) st blk L2_WAY_FAILED w2.val true) st blk L2_STAT 1 false) st blk L2_STAT 2 true) st (0x2005 + 0x100 * c.val) 0 none w2.val) ∧
    Acts (.wayDisableDone st (48 + w3.val))
      (fun s => setHas s.cache.disab (disKey st (48 + w3.val)) = true ∧ (gone s (48 + w3.val)).cache.disab = [])
      (fun s => (let t := rsetB (rsetB (rsetB (gone s (48 + w3.val)) st 5 L3_WAY_FAILED w3.val true) st 5 L3_STAT 2 false) st 5 L3_STAT 5 true; reportErr (rsetB t st 5 L3_STAT 3 (l3Ways t st).isEmpty) st 0x3005 0 none w3.val)) ∧
    Acts (.l2DrainDone st c)
      (fun s => stopKind st = .tile ∧ rbit s st blk L2_STAT 0 = true)
      (fun s => rsetB (l2Empty s (coreNum st c)) st blk L2_STAT 0 false) ∧
    Acts (.l3DrainDone st)
      (fun s => stopKind st = .tile ∧ rbit s st 5 L3_STAT 0 = true ∧ setHas (l3Empty s st).cache.retiring (stopIdx st) = false)
      (fun s => rsetB (l3Empty s st) st 5 L3_STAT 0 false) ∧
    Acts (.convertDone st)
      (fun s => rbit s st 5 L3_STAT 1 = true)
      (fun s => rsetB (depotApply s st) st 5 L3_STAT 1 false) ∧
    Acts (.errWindowExpire st 2)
      (fun s => stopKind st = .tile)
      (fun s => (List.range 12).foldl (fun s w => rputF s st 5 (L3_WAY_CECNT + 4 * w) 0 16 0) s) ∧
    Acts (.retry 1 b line)
      (fun s => homeOf s (64 * line) = some st ∧ setHas s.cache.retiring (stopIdx st) = true)
      (fun s => sendMsg (countScope s st 0x1C 1 (cw s b)) 0x32 (pkgLocus p.val) tag (64 * line) 0 []) ∧
    Acts (.retry 1 a line)
      (fun s => homeOf s (64 * line) = some st ∧ setHas s.cache.retiring (stopIdx st) = true)
      (fun s => (let t := countScope s st 0x1C 1 (cw s a); { t with cache := { t.cache with retries := t.cache.retries ++ [(1, a, line)] } })) ∧
    Acts (.retryReissue 1 a line)
      (fun s => (1, a, line) ∈ s.cache.retries)
      (fun s => (request (again s) 1 a line false true).1) ∧
    Acts (.retryReissue 1 a line)
      (fun s => (1, a, line) ∉ s.cache.retries)
      (fun s => s) ∧
    (∀ s, let t := depotApply s st
      ∀ i, i < 8 → bit (rget s st 5 L3_DEPOT).toNat (4 + i) = true → bit (depotMask s st) (4 + i) = false →
        ∀ k, k < 0x40000 → memGet t (depotBase (pkgNum s) st + 0x40000 * i + k) = 0) ∧
    (∀ s v, v ≠ 0 → l2Enabled s n.val = true → way < 16 → l2WayOk s n.val way = true →
      (∀ w, w < way → l2WayOk s n.val w = true → (mapGet (fun _ => (0, 0)) s.cache.l2 (l2Key n.val line w)).2 ≠ 0) →
      (mapGet (fun _ => (0, 0)) s.cache.l2 (l2Key n.val line way)).2 = 0 → l2Find s n.val line = none →
      l2Take s n.val line v nt = plruUse (l2Put s n.val line way v) n.val (line % 2048) 4 way nt)

/-- R291, R397, R398, R410 to R420, R424 to R435, R530. -/
def Obligations.HbmAndCxlEvents : Prop :=
  ∀ (st home : Stop) (c pcn die : Fin 2) (k : Fin 6) (bank : Fin 48) (ln : Fin 72) (port : Fin 12) (pa row lane : Nat) (deg : BitVec 8) (out : BitVec 1024) (write : Bool),
    let l := fun (s : State) => hbmLoc s pa
    let mst := fun (s : State) => locStop (l s)
    let mc := fun (s : State) => locCtl (l s)
    let line := pa / 64 * 64
    let up := fun (s : State) (st : Stop) (blk off : Nat) => rput s st blk off (BitVec.ofNat 32 (min (2 ^ 32 - 1) ((rget s st blk off).toNat + 1)))
    let run := fun (s : State) => stopKind st = .memory ∧ rbit s st (mcBlk c) BLOCK_CTL 0 = true ∧ rbit s st (mcBlk c) MC_STAT 2 = false
    let p := pcNum st c pcn.val
    let b := p * 48 + bank.val
    let owed := fun (s : State) (n : Nat) => setOwed s st c pcn.val n
    let idle := fun (s : State) (q : Nat) => closeRows s fun b => decide (b / 48 = q)
    let fails := fun (s : State) => ((mapGet (fun _ => []) s.hbm.capar (chanNum st c)).filter fun x => decide (tbNow s < x + 100000)) ++ [tbNow s]
    let failed := fun (s : State) (q : List Nat) => hbmMod (reportErr (rsetB s st (mcBlk c) MC_STAT 4 true) st (0x4003 + c.val * 0x100) tyPARITY) fun h => { h with capar := mapSet (fun _ => []) h.capar (chanNum st c) q }
    let hot := fun (s : State) (b : Bool) => (stackChans k).foldl (fun s e => rsetB s e.1 (mcBlk e.2) MC_STAT 1 b) (rput s (stkStop k) 6 STK_TEMP (BitVec.ofNat 32 (deg.toNat + 256 * b2n b)))
    let warm := fun (s : State) => rsetB s (wsStop (stkStop k).die) 4 THERM_STAT 10 ((List.finRange 6).any fun j => decide ((stkStop j).die = (stkStop k).die) && decide (rfld s (wsStop (stkStop k).die) 4 THERM_CTL 8 8 ≤ rfld s (stkStop j) 6 STK_TEMP 0 8))
    let h := laneHalf (lane / 72) (lane % 72)
    let sp := scrubOff c + SPARE_STAT
    let cxl := fun (s : State) => cxlPort s pa = some port
    let ps := portStop port
    let acc := fun (s : State) => (mcRead s (pa / 64)).1
    let issued := fun (s : State) => (mcRead s (pa / 64)).2 = true
    let read := fun (s : State) => mcCount (acc s) (mst s) (mc s) 9 1
    let next := fun (s : State) => rputF (read s) (mst s) 5 (scrubOff (mc s) + SCRUB_POS) 0 26 ((rfld (read s) (mst s) 5 (scrubOff (mc s) + SCRUB_POS) 0 26 + 1) % 50331648)
    let serves := fun (s : State) => paTarget s pa = .hbm ∧ domState s (mst s) (mc s).val = dON ∧ rbit s (mst s) (mcBlk (mc s)) BLOCK_CTL 0 = true ∧ rbit s (mst s) (mcBlk (mc s)) MC_STAT 2 = false
    let kept := fun (s : State) (u scrub : Bool) (n : Nat) => let v : Nat := 1 + (l s).pc * 2 + b2n u * 4 + n * 8 + b2n scrub * 2 ^ 10 + (l s).sid * 2 ^ 11; rput (rput (rput s (mst s) (mcBlk (mc s)) MC_ERR_INFO (BitVec.ofNat 32 v)) (mst s) (mcBlk (mc s)) MC_ERR_ADDR_LO (BitVec.ofNat 32 ((l s).so / 64 * 64))) (mst s) (mcBlk (mc s)) MC_ERR_ADDR_HI (BitVec.ofNat 32 ((l s).so / 2 ^ 32 % 8))
    let first := fun (s : State) => rbit s (mst s) (mcBlk (mc s)) MC_ERR_INFO 0 = false
    let ce := fun (s : State) => mcCount (up (acc s) (mst s) (mcBlk (mc s)) MC_CE_CNT) (mst s) (mc s) 11 1
    let wb := fun (s : State) => rbit (kept (ce s) false false 0) (mst s) (mcBlk (mc s)) MC_CTL 5
    let found := fun (s : State) => memPoison (acc s) (pa / 64) false
    let ue := fun (s : State) => kept (mcCount (up (rewriteLine (found s) (pa / 64)) (mst s) (mcBlk (mc s)) MC_UE_CNT) (mst s) (mc s) 12 1) true false 0
    let queue := fun (s : State) => mcQueue s (chanNum st c)
    let busy := fun (s : State) => anyReadOk s (queue s) p && !panicHeld s (stackOf st)
    let hits := fun (s : State) => (queue s).any fun e => decide (locBank (reqLoc s e) = b) && rowHit s e
    let sent := fun (s : State) => let s1 := slicePut s home { sliceGet s home with evb := [⟨pa / 64, true, []⟩] }; countScope s1 home 0x14 1 (some .normal)
    let out1 := fun (s : State) => meshSend (memStored (sent s) (pa / 64)) home (locStop (hbmLoc (sent s) (64 * (pa / 64))))
    let writes := fun (s : State) => (pcOf s (mcQueue s (p / 2)) p).countP (·.write)
    Acts (.evictionWriteIssue home (pa / 64))
      (fun s => (sliceGet s home).evb = [⟨pa / 64, false, []⟩] ∧ evbCredit s (pa / 64) = true ∧ paTarget (sent s) (64 * (pa / 64)) = .hbm ∧ (out1 s).2 = true)
      (fun s => mcArrive (out1 s).1 ⟨pa / 64, true, none, false, false⟩) ∧
    Acts (.evictionWriteIssue home (pa / 64))
      (fun s => evbCredit s (pa / 64) = false)
      (fun s => s) ∧
    Acts (.evictionWriteIssue home (pa / 64))
      (fun s => (sliceGet s home).evb = [])
      (fun s => s) ∧
    Acts (.panicRaise die k)
      (fun s => rbit s (orStop die) 2 CP_STAT k.val = true)
      (fun s => showPanic ((stackChans k).foldl (fun s e => refreshAll (refreshAll s e.1 e.2 0) e.1 e.2 1) (closeRows (hbmMod s fun h => { h with panic := setAdd h.panic (die.val * 6 + k.val) }) fun b => decide (b / 48 / 16 = k.val))) k) ∧
    Acts (.panicRaise die k)
      (fun s => rbit s (orStop die) 2 CP_STAT k.val = false)
      (fun s => s) ∧
    Acts (.panicWithdraw die k)
      (fun s => cpAged s die k.val = false ∧ rbit s (orStop die) 2 CP_STAT k.val = true ∧ cpCount s die k.val < rfld s (orStop die) 2 CP_CTL 8 7)
      (fun s => showPanic (hbmMod (rsetB s (orStop die) 2 CP_STAT k.val false) fun h => { h with panic := setDel h.panic (die.val * 6 + k.val) }) k) ∧
    Acts (.panicWithdraw die k)
      (fun s => rfld s (orStop die) 2 CP_CTL 8 7 ≤ cpCount s die k.val)
      (fun s => s) ∧
    Acts (.panicWithdraw die k)
      (fun s => cpAged s die k.val = true)
      (fun s => s) ∧
    Acts (.refreshDue st c pcn bank)
      (fun s => run s ∧ rbit s st (mcBlk c) MC_CTL 0 = true)
      (fun s => setRow (mcCount s st c 5 1) b none) ∧
    Acts (.refreshDue st c pcn bank)
      (fun s => run s ∧ rbit s st (mcBlk c) MC_CTL 0 = false ∧ busy s = true ∧ owedOf s p + 1 ≤ min 8 (rfld s st (mcBlk c) MC_CTL 1 4))
      (fun s => owed s (owedOf s p + 1)) ∧
    Acts (.refreshDue st c pcn bank)
      (fun s => run s ∧ rbit s st (mcBlk c) MC_CTL 0 = false ∧ busy s = true ∧ min 8 (rfld s st (mcBlk c) MC_CTL 1 4) < owedOf s p + 1)
      (fun s => idle (setOwed (mcCount (owed s (owedOf s p + 1)) st c 5 1) st c pcn.val (min 8 (rfld s st (mcBlk c) MC_CTL 1 4))) p) ∧
    Acts (.refreshDue st c pcn bank)
      (fun s => run s ∧ rbit s st (mcBlk c) MC_CTL 0 = false ∧ busy s = false)
      (fun s => refreshAll (owed s (owedOf s p + 1)) st c pcn.val) ∧
    Acts (.idleTimerExpire st c pcn bank)
      (fun s => stopKind st = .memory ∧ openRow s b = some row ∧ hits s = false)
      (fun s => mcCount (setRow s b none) st c 3 1) ∧
    Acts (.idleTimerExpire st c pcn bank)
      (fun s => hits s = true)
      (fun s => s) ∧
    Acts (.idleTimerExpire st c pcn bank)
      (fun s => openRow s b = none)
      (fun s => s) ∧
    Acts (.hbmReadReturn pa .clean)
      (fun s => serves s ∧ issued s)
      (fun s => acc s) ∧
    Acts (.hbmReadReturn pa (.corrected none))
      (fun s => serves s ∧ issued s ∧ first (ce s) ∧ wb s = false)
      (fun s => reportErr (kept (ce s) false false 0) (mst s) (0x4001 + (mc s).val * 0x100) tyCE (some line)) ∧
    Acts (.hbmReadReturn pa (.corrected none))
      (fun s => serves s ∧ issued s ∧ first (ce s) ∧ wb s = true)
      (fun s => reportErr (rewriteLine (kept (ce s) false false 0) (pa / 64)) (mst s) (0x4001 + (mc s).val * 0x100) tyCE (some line)) ∧
    Acts (.hbmReadReturn pa .uncorrectable)
      (fun s => serves s ∧ issued s ∧ first (mcCount (up (rewriteLine (found s) (pa / 64)) (mst s) (mcBlk (mc s)) MC_UE_CNT) (mst s) (mc s) 12 1) ∧ rbit (reportErr (ue s) (mst s) (0x4002 + (mc s).val * 0x100) tyUE (some line)) (mst s) 5 (scrubOff (mc s) + SCRUB_CTL) 1 = false)
      (fun s => reportErr (ue s) (mst s) (0x4002 + (mc s).val * 0x100) tyUE (some line)) ∧
    Acts (.hbmReadReturn pa .marked)
      (fun s => serves s ∧ issued s)
      (fun s => up (found s) (mst s) (mcBlk (mc s)) MC_POISON_RD) ∧
    Acts (.scrubRead pa .clean)
      (fun s => serves s ∧ issued s ∧ rbit s (mst s) 5 (scrubOff (mc s) + SCRUB_CTL) 0 = true)
      (fun s => next s) ∧
    Acts (.hbmReadReturn pa .clean)
      (fun s => serves s ∧ (mcRead s (pa / 64)).2 = false)
      (fun s => acc s) ∧
    Acts (.hbmReadReturn pa (.corrected (some ln)))
      (fun s => paTarget s pa = .hbm ∧ rbit s (mst s) (mcBlk (mc s)) MC_STAT 2 = true)
      (fun s => mcAsk s (pa / 64)) ∧
    Acts (.hbmReadReturn pa .uncorrectable)
      (fun s => paTarget s pa = .hbm ∧ domState s (mst s) (mc s).val = dOFF ∧ pkgState s = 0)
      (fun s => mcAsk s (pa / 64)) ∧
    Acts (.scrubRead pa .clean)
      (fun s => serves s ∧ rbit s (mst s) 5 (scrubOff (mc s) + SCRUB_CTL) 0 = false)
      (fun s => s) ∧
    Acts (.commandParityFailure st c)
      (fun s => stopKind st = .memory ∧ rbit s st (mcBlk c) BLOCK_CTL 0 = true ∧ (fails s).length < 3)
      (fun s => failed s (fails s)) ∧
    Acts (.commandParityFailure st c)
      (fun s => stopKind st = .memory ∧ rbit s st (mcBlk c) BLOCK_CTL 0 = true ∧ 3 ≤ (fails s).length)
      (fun s => retrainChannel (failed s []) st c) ∧
    Acts (.stackTempRead k deg)
      (fun s => 85 ≤ deg.toNat ∧ deg.toNat < 105)
      (fun s => warm (hot s true)) ∧
    Acts (.stackTempRead k deg)
      (fun s => 84 ≤ deg.toNat ∧ deg.toNat < 105 ∧ rbit s (stkStop k) 6 STK_TEMP 8 = true)
      (fun s => warm (hot s true)) ∧
    Acts (.stackTempRead k deg)
      (fun s => deg.toNat ≤ 83)
      (fun s => warm (hot s false)) ∧
    Acts (.stackTempRead k deg)
      (fun s => 105 ≤ deg.toNat)
      (fun s => thermalTrip (warm (hot s true)) (stkStop k).die) ∧
    Acts (.remapDone st c)
      (fun s => stopKind st = .memory ∧ mapGet (fun _ => none) s.hbm.remap (chanNum st c) = some lane)
      (fun s => reportErr (rsetB (rsetB (rsat (rputF (hbmMod s fun y => { y with remap := mapSet (fun _ => none) y.remap (chanNum st c) none }) st (phyBlk c) PHY_REMAP (8 * h) 8 (lane % 72 + 128)) st (phyBlk c) PHY_STAT (2 * (lane / 72)) 2 1) st (phyBlk c) PHY_STAT 4 false) st (phyBlk c) PHY_STAT 5 true) st (0x5001 + (chanOf st c).2 * 0x100) tyCE none (lane / 72 * 128 + lane % 72)) ∧
    Acts (.remapDone st c)
      (fun s => mapGet (fun _ => none) s.hbm.remap (chanNum st c) = none)
      (fun s => s) ∧
    Acts (.sparingDone st c)
      (fun s => stopKind st = .memory ∧ sparingOf s st c = some row ∧ mapGet (fun _ => []) s.hbm.queued (chanNum st c) = [] ∧ row ∉ mapGet (fun _ => []) s.hbm.spared (chanNum st c))
      (fun s => rsetB (rsetB (rsat (hbmMod s fun h => { h with sparing := mapSet (fun _ => none) h.sparing (chanNum st c) none, spared := mapSet (fun _ => []) h.spared (chanNum st c) (mapGet (fun _ => []) h.spared (chanNum st c) ++ [row]), queued := mapSet (fun _ => []) h.queued (chanNum st c) [] }) st 5 sp (7 * bits row 21 1) 7 1) st 5 sp 14 false) st 5 sp 15 true) ∧
    Acts (.sparingDone st c)
      (fun s => sparingOf s st c = none)
      (fun s => s) ∧
    Acts (.errWindowExpire st 0)
      (fun s => stopKind st = .memory)
      (fun s => hbmMod s fun h => { h with lanes := (h.lanes.map fun e => if e.1 / 144 = chanNum st 0 then (e.1, (0, e.2.2)) else e).filter fun e => e.2 ≠ (0, 0) }) ∧
    Acts (.w1500ShiftDone k out)
      (fun s => k.val ∈ s.hbm.shifting ∧ (mapGet (fun _ => (0, 0)) s.hbm.w1500 k.val).2 = 64)
      (fun s => rput (rput (rsetB (hbmMod s fun h => { h with shifting := setDel h.shifting k.val }) (stkStop k) 6 W1500_STAT 0 false) (stkStop k) 6 W1500_DR (out.setWidth 32)) (stkStop k) 6 (W1500_DR + 4) ((out >>> 32).setWidth 32)) ∧
    Acts (.cxlMemCompletion pa false true)
      (fun s => cxl s)
      (fun s => rsetB (poisonLine s pa) ps 5 CXL_STAT 3 true) ∧
    Acts (.cxlMemCompletion pa write false)
      (fun s => True)
      (fun s => s) ∧
    Acts (.cxlTimeout pa true)
      (fun s => cxl s)
      (fun s => reportErr s ps 0x6205 tyTIMEOUT (some line)) ∧
    Acts (.cxlTimeout pa false)
      (fun s => cxl s)
      (fun s => reportErr (rsetB (poisonLine s pa) ps 5 CXL_STAT 2 true) ps 0x6204 tyTIMEOUT (some line)) ∧
    Acts (.cxlLinkDown port)
      (fun s => portProto s port.val = 1 ∧ rbit s ps 5 CXL_STAT 0 = true)
      (fun s => reportErr (rsetB (rsetB (rsetB s ps 5 CXL_STAT 0 false) ps 5 CXL_STAT 1 true) ps 1 PORT_STAT 0 false) ps 0x6206 tyLINK) ∧
    Acts (.cxlLinkDown port)
      (fun s => portProto s port.val ≠ 1 ∨ rbit s ps 5 CXL_STAT 0 = false)
      (fun s => s) ∧
    (∀ s, dirtyAbove s (pa / 64) = true → memPoison s (pa / 64) write = s) ∧
    (∀ s, mcNewer s (pa / 64) = true → rewriteLine s (pa / 64) = s) ∧
    (∀ s q i k, mcCand s q p k = some i → mcOk s q i = true ∧ i < q.length) ∧
    (∀ s, mcCtl s (p / 2) 6 6 ≤ writes s → (mcDrain s p).hbm.drain.contains p = false → s.hbm.drain.contains p = true) ∧
    (∀ s, s.hbm.drain.contains p = true → writes s ≤ min (mcCtl s (p / 2) 12 6) (mcCtl s (p / 2) 6 6 - 1) → (mcDrain s p).hbm.drain.contains p = false) ∧
    (∀ s (q : List HbmReq) (r : HbmReq), r.write = false → 4 ≤ q.countP (fun e => decide (locPc (reqLoc s e) = locPc (reqLoc s r) ∧ locQueue (reqLoc s e) = locQueue (reqLoc s r))) →
      mcJoin s q r = none) ∧
    (∀ s (q : List HbmReq) (r : HbmReq), r.write = true → q.any (fun e => e.write && decide (e.line = r.line)) = true →
      (mcJoin s q r).map List.length = some q.length) ∧
    (∀ s i, i < 8 → poisoned (poisonLine s pa) (line + 8 * i) 8 = true) ∧
    (∀ s, rbit s st (phyBlk c) PHY_REMAP (8 * laneHalf pcn.val ln.val + 7) = true →
      remapLane s st c pcn.val ln.val = reportErr (rsetB s st (phyBlk c) PHY_STAT 6 true) st (0x5002 + (chanOf st c).2 * 0x100) tyDROP none (pcn.val * 128 + ln.val)) ∧
    (∀ s w, laneGet s p ln.val = (w, w) → w < 65535 → (w + 1 ≤ rfld s st (phyBlk c) PHY_LANE_THRESH 0 8 ∨ rbit s st (phyBlk c) PHY_LANE_THRESH 24 = false) →
      laneGet (laneError s st c pcn.val ln.val) p ln.val = (w + 1, w + 1))

/-- R258 to R260, R282, R319 to R325, R327 to R339. -/
def Obligations.MeshCaravanAndMessageEvents : Prop :=
  ∀ (st st2 : Stop) (d k p kept : Fin 4) (die : Fin 2) (port : Fin 12) (e : NetLink) (tag line pa way cfg : Nat) (n : Fin 192) (m : NodeMsg) (who : Option Hart) (h on : Hart) (data : List Byte) (value at_ dw : Word) (seq ackseq : BitVec 10) (fec blk off : Nat) (crc idle ackv : Bool) (crvc : Fin 8) (crn : BitVec 9) (sz : Fin 4) (map : BitVec 4) (w : World) (lv : Level) (b : Bcast),
    let ms := NetLink.mesh st d
    let fd := NetLink.ford die k
    let ps := portStop port
    let cv := fun (s : State) => portProto s port.val = 2 ∧ cvState s port = 2
    let up := fun (s : State) (st : Stop) (blk off : Nat) => rput s st blk off (BitVec.ofNat 32 (min (2 ^ 32 - 1) ((rget s st blk off).toNat + 1)))
    let wait := fun (s : State) (op : Nat) => waitingFor s p.val tag = some (m, who) ∧ m.op = op
    let other := fun (s : State) => p.val ≠ pkgNum s
    let was := fun (s : State) => unwait s p.val tag
    let lc := fun (s : State) => cvGet s port.val
    let fecd := fun (s : State) => rput s ps cvBlk CV_FEC_CNT (BitVec.ofNat 32 (min (2 ^ 32 - 1) ((rget s ps cvBlk CV_FEC_CNT).toNat + fec)))
    let credited := fun (s : State) => cvPut (fecd s) port.val { lc (fecd s) with used := mapSet (fun _ => 0) (lc (fecd s)).used crvc.val (mapGet (fun _ => 0) (lc (fecd s)).used crvc.val - crn.toNat) }
    let came := fun (s : State) => if ackv then cvAcked (credited s) port ackseq.toNat else pump (credited s)
    let taken := fun (s : State) => cvPut (came s) port.val { lc (came s) with rx := seq.toNat, nak := false, unacked := (lc (came s)).unacked + 1 }
    let reg := pkgInit lv w
    let adm := fun (s : State) => regPlace s (pkgNum s * 2 ^ 30 + rkey st blk off) = some (st, blk, off) ∧ pathFails s st = false ∧ regRefuse s w st blk off = .no ∧ stopPowered s st = true ∧ (accDomain s st blk off = 15 ∨ domState s st (accDomain s st blk off) = dON) ∧ blockHeld s (pkgNum s * 2 ^ 30 + rkey st blk off) = false
    let drop := fun (s : State) => { s with link := { s.link with waiting := s.link.waiting.filter fun m => !(lostFor s h pa).contains m } }
    let src := noRouteSource h
    let msg : InvMsg := ⟨2, 0, 5, 0, 0, 48⟩
    Acts (.flitCrcFail ms true)
      (fun s => linkState s ms < 2)
      (fun s => reportErr (setLinkFails (setLinkState (rsat (rsat s st 0 (RT_ERR + 4 * d.val) 0 16 1) st 0 (RT_ERR + 4 * d.val) 16 16 1) ms 0) ms 0) st 0x0001 (tyCE ||| tyLINK)) ∧
    Acts (.flitCrcFail ms false)
      (fun s => linkState s ms < 2 ∧ linkFails (countReplay s ms) ms < 7)
      (fun s => setLinkFails (setLinkState (countReplay s ms) ms 1) ms (linkFails (countReplay s ms) ms + 1)) ∧
    Acts (.flitCrcFail e false)
      (fun s => linkState s e < 2 ∧ 7 ≤ linkFails (countReplay s e) e)
      (fun s => linkDead (countReplay s e) e) ∧
    Acts (.flitCrcFail fd true)
      (fun s => linkState s fd < 2)
      (fun s => reportErr (setLinkFails (setLinkState (rsat (rsat s (fordStop die k) 2 FORD_ERR 0 16 1) (fordStop die k) 2 FORD_ERR 16 16 1) fd 0) fd 0) (fordStop die k) 0x7001 (tyCE ||| tyLINK)) ∧
    Acts (.flitCrcFail e false)
      (fun s => 2 ≤ linkState s e)
      (fun s => s) ∧
    Acts (.routeDrop st)
      (fun s => linkState s (.mesh st d) = 2)
      (fun s => reportErr (up s st 0 RT_DROP) st 0x0003 (tyDROP ||| tyLINK)) ∧
    Acts (.routeDrop st)
      (fun s => ∀ d, linkState s (.mesh st d) ≠ 2)
      (fun s => s) ∧
    Acts (.linkRetrained ms true)
      (fun s => setHas s.link.training (trainKey ms) = true)
      (fun s => (linkEnds ms).foldl (fun s e => setLinkState s e 0) { s with link := { s.link with training := setDel s.link.training (trainKey ms) } }) ∧
    Acts (.linkRetrained ms false)
      (fun s => setHas s.link.training (trainKey ms) = true)
      (fun s => (linkEnds ms).foldl (fun s e => setDeadEvt (setLinkState s e 2) e) { s with link := { s.link with training := setDel s.link.training (trainKey ms) } }) ∧
    Acts (.linkRetrained fd true)
      (fun s => setHas s.link.training (trainKey fd) = true)
      (fun s => fordSubsts ((linkEnds fd).foldl (fun s e => setLinkState s e 0) { s with link := { s.link with training := setDel s.link.training (trainKey fd) } })) ∧
    Acts (.linkRetrained e true)
      (fun s => setHas s.link.training (trainKey e) = false)
      (fun s => s) ∧
    Acts (.caravanTrainingTimeout port)
      (fun s => portProto s port.val = 2 ∧ (cvState s port = 1 ∨ cvState s port = 3))
      (fun s => cvDead s port) ∧
    Acts (.caravanTrainingTimeout port)
      (fun s => portProto s port.val ≠ 2 ∨ (cvState s port ≠ 1 ∧ cvState s port ≠ 3))
      (fun s => s) ∧
    Acts (.ident port p dw)
      (fun s => portProto s port.val = 2 ∧ cvState s port = 1 ∧ p.val = cvPartner s port ∧ p.val ≠ pkgNum s)
      (fun s => (let s1 := rput64 (cvStatPut s port 5 2 p.val) ps cvBlk CV_PARTNER_LO dw.toNat; cvPut s1 port.val { cvGet s1 port.val with ident := true })) ∧
    Acts (.ident port p dw)
      (fun s => portProto s port.val = 2 ∧ cvState s port = 1 ∧ p.val = pkgNum s)
      (fun s => cvStatPut (cvStatPut (rput64 (cvStatPut s port 5 2 p.val) ps cvBlk CV_PARTNER_LO dw.toNat) port 0 3 5) port 9 1 1) ∧
    Acts (.ident port p dw)
      (fun s => cvState s port ≠ 1)
      (fun s => s) ∧
    Acts (.tbsync port value at_)
      (fun s => cv s ∧ pkgNum s ≠ 0 ∧ at_ ≠ 0 ∧ relayedFrom0 s = [])
      (fun s => { s with tbase := { s.tbase with load := some (at_.toNat, value.toNat) } }) ∧
    Acts (.tbsync port value 0)
      (fun s => cv s ∧ pkgNum s ≠ 0 ∧ relayedFrom0 s = [])
      (fun s => tbSet s value.toNat) ∧
    Acts (.tbsync port value at_)
      (fun s => ¬ cv s ∨ pkgNum s = 0)
      (fun s => s) ∧
    Acts (.deadnote port map)
      (fun s => cv s)
      (fun s => relayUpdate { s with link := { s.link with deadOf := mapSet (fun _ => 0) s.link.deadOf (cvPartner s port) map.toNat } }) ∧
    Acts (.caravanFlit port fec false idle seq ackv ackseq crvc crn)
      (fun s => cv s ∧ (lc (up (fecd s) ps cvBlk CV_CRC_CNT)).nak = false)
      (fun s => (let s2 := up (fecd s) ps cvBlk CV_CRC_CNT; cvControl (cvPut s2 port.val { lc s2 with nak := true }) port cfNAK 0 (lc s2).rx)) ∧
    Acts (.caravanFlit port fec false idle seq ackv ackseq crvc crn)
      (fun s => cv s ∧ (lc (up (fecd s) ps cvBlk CV_CRC_CNT)).nak = true)
      (fun s => up (fecd s) ps cvBlk CV_CRC_CNT) ∧
    Acts (.caravanFlit port fec true true seq ackv ackseq crvc crn)
      (fun s => cv s)
      (fun s => came s) ∧
    Acts (.caravanFlit port fec true false seq ackv ackseq crvc crn)
      (fun s => cv s ∧ seq.toNat ≠ ((lc (came s)).rx + 1) % 1024)
      (fun s => came s) ∧
    Acts (.caravanFlit port fec true false seq ackv ackseq crvc crn)
      (fun s => cv s ∧ seq.toNat = ((lc (came s)).rx + 1) % 1024 ∧ (lc (came s)).unacked + 1 < 64)
      (fun s => taken s) ∧
    Acts (.caravanFlit port fec true false seq ackv ackseq crvc crn)
      (fun s => cv s ∧ seq.toNat = ((lc (came s)).rx + 1) % 1024 ∧ 64 ≤ (lc (came s)).unacked + 1)
      (fun s => cvControl (cvPut (taken s) port.val { lc (taken s) with unacked := 0 }) port cfACK 0 (lc (taken s)).rx) ∧
    Acts (.caravanFlit port fec crc idle seq ackv ackseq crvc crn)
      (fun s => ¬ cv s)
      (fun s => s) ∧
    Acts (.nak port seq)
      (fun s => cv s ∧ (lc s).buf = [] ∧ (let s2 := up s ps cvBlk CV_REPLAY_CNT; (lc s2).lastNak ≠ some seq.toNat))
      (fun s => (let s2 := up s ps cvBlk CV_REPLAY_CNT; cvPut s2 port.val { lc s2 with lastNak := some seq.toNat, fails := 0 })) ∧
    Acts (.nak port seq)
      (fun s => cv s ∧ (lc s).buf = [] ∧ (let s2 := up s ps cvBlk CV_REPLAY_CNT; (lc s2).lastNak = some seq.toNat ∧ (lc s2).fails = 7))
      (fun s => (let s2 := up s ps cvBlk CV_REPLAY_CNT; cvRetrain (cvPut s2 port.val { lc s2 with lastNak := some seq.toNat, fails := 8 }) port)) ∧
    Acts (.ackTimer port)
      (fun s => cv s)
      (fun s => cvControl (cvPut s port.val { lc s with unacked := 0 }) port cfACK 0 (lc s).rx) ∧
    Acts (.ackTimer port)
      (fun s => ¬ cv s)
      (fun s => s) ∧
    Acts (.snpShared (.core n) line)
      (fun s => snoopWaits s line = false ∧ l2Find s n.val line = some (way, l2M))
      (fun s => l2Move s n.val line l2O) ∧
    Acts (.snpShared (.core n) line)
      (fun s => snoopWaits s line = false ∧ l2Find s n.val line = some (way, l2E))
      (fun s => l2Move s n.val line l2S) ∧
    Acts (.snpInv (.core n) line)
      (fun s => snoopWaits s line = false ∧ l2Find s n.val line = some (way, l2S))
      (fun s => l2Leave s (homeOf s (64 * line)) n.val line) ∧
    Acts (.snpInv (.core n) line)
      (fun s => snoopWaits s line = true)
      (fun s => s) ∧
    Acts (.snpInv (.pkg p tag) line)
      (fun s => snoopWaits s line = false ∧ s.link.held = [(line, 2)])
      (fun s => clearResv (hold (coresSnooped (sendMsg s 0x33 (pkgLocus p.val) tag (64 * line) 0 (memRead s (64 * line) 64)) line true) line none) none (64 * line) 64) ∧
    Acts (.snpShared (.pkg p tag) line)
      (fun s => snoopWaits s line = false ∧ s.link.held = [(line, 2)])
      (fun s => hold (coresSnooped (sendMsg s 0x33 (pkgLocus p.val) tag (64 * line) 3 (memRead s (64 * line) 64)) line false) line (some 3)) ∧
    Acts (.snpShared (.pkg p tag) line)
      (fun s => snoopWaits s line = false ∧ s.link.held = [])
      (fun s => sendMsg s 0x34 (pkgLocus p.val) tag (64 * line) 0 []) ∧
    Acts (.snpInv (.courier on) line)
      (fun s => on = .outrider 3)
      (fun s => (List.finRange 8).foldl (fun s i => lcDropped s (orOf 0 i) line) { s with orr := (s.orr.map fun e => if e.1 / 8 = 0 then (e.1, lcSnoop e.2 (64 * line) 64) else e).filter fun e => e.2 ≠ OrSt.initial }) ∧
    Acts (.snpData p tag kept data)
      (fun s => wait s 0x20 ∧ data.length = 64)
      (fun s => lend (memStore (was s) (64 * (m.addr / 64)) data) (m.addr / 64) p.val (some kept.val)) ∧
    Acts (.snpData p tag kept data)
      (fun s => wait s 0x21 ∧ data.length = 64 ∧ homeOf (lend (memStore (was s) (64 * (m.addr / 64)) data) (m.addr / 64) p.val none) (64 * (m.addr / 64)) = some st)
      (fun s => sfPkg (lend (memStore (was s) (64 * (m.addr / 64)) data) (m.addr / 64) p.val none) st .normal (m.addr / 64) p.val false) ∧
    Acts (.snpAck p tag kept)
      (fun s => wait s 0x20)
      (fun s => lend (was s) (m.addr / 64) p.val (some kept.val)) ∧
    Acts (.invAck p tag)
      (fun s => wait s 0xC)
      (fun s => ackInv (was s) (m.arg / 2 ^ 44) (1024 + p.val)) ∧
    Acts (.data p tag kept data 0 0)
      (fun s => wait s 2 ∧ other s ∧ data.length = 64 ∧ (∀ n, who ≠ some (.outrider n)))
      (fun s => hold (memStore (was s) (64 * (m.addr / 64)) data) (m.addr / 64) (some kept.val)) ∧
    Acts (.data p tag kept data 0 0)
      (fun s => wait s 4 ∧ other s ∧ data.length = 64 ∧ (∀ n, who ≠ some (.outrider n)))
      (fun s => hold (memStore (was s) (64 * (m.addr / 64)) data) (m.addr / 64) (some 4)) ∧
    Acts (.ack p tag)
      (fun s => wait s 3 ∧ who = some h)
      (fun s => hold (was s) (m.addr / 64) (some 2)) ∧
    Acts (.ack p tag)
      (fun s => wait s 6)
      (fun s => was s) ∧
    Acts (.ack p tag)
      (fun s => wait s 1)
      (fun s => s) ∧
    Acts (.devResp p tag 0 0 data)
      (fun s => wait s 8 ∧ who = some h)
      (fun s => devAnswer (was s) h (.data (natLe (2 ^ (m.arg % 8)) (leNat data)) none)) ∧
    Acts (.devResp p tag 0 0 data)
      (fun s => wait s 9 ∧ who = some h)
      (fun s => devAnswer (was s) h (.data [] none)) ∧
    Acts (.devResp p tag 0 0 data)
      (fun s => wait s 0xB ∧ who = some h)
      (fun s => wbAnswer (was s) h (m.arg / 2 ^ 40) (leNat (data.take 8)) (data.drop 8)) ∧
    Acts (.devRead p tag w lv pa 2)
      (fun s => other s ∧ seenTarget s w pa = .regs (pkgNum s * 2 ^ 30 + rkey st blk off) ∧ pa % 4 = 0 ∧ adm s)
      (fun s => (let r := regRead s reg st (regBlk s st blk) off; sendMsg r.1 0x35 (pkgLocus p.val) tag 0 0 (natLe 4 r.2.toNat))) ∧
    Acts (.devRead p tag w lv pa 2)
      (fun s => other s ∧ seenTarget s w pa = .regs cfg ∧ pa % 4 = 0 ∧ regPlace s cfg = none)
      (fun s => sendMsg s 0x35 (pkgLocus p.val) tag 0 1 []) ∧
    Acts (.devRead p tag w lv pa sz)
      (fun s => other s ∧ seenTarget s w pa = .depot st way)
      (fun s => sendMsg s 0x35 (pkgLocus p.val) tag 0 0 (memRead s pa (2 ^ sz.val))) ∧
    Acts (.devRead p tag w lv pa 3)
      (fun s => other s ∧ seenTarget s w pa = .regs cfg)
      (fun s => answer s (.pkg p.val tag) (.err 2 1)) ∧
    Acts (.devWrite p tag w lv pa (natLe 8 dw.toNat))
      (fun s => other s ∧ seenTarget s w pa = .depot st way)
      (fun s => (let r := directAcc s none pa 8 (natLe 8 dw.toNat); sendMsg r.1 0x35 (pkgLocus p.val) tag 0 (devCodes r.2) (resBytes r.2))) ∧
    Acts (.atomic p tag w lv pa true 1 value at_)
      (fun s => other s ∧ seenTarget s w pa = .depot st way)
      (fun s => (let r := amoAt s none pa 8 1 (natLe 8 value.toNat ++ natLe 8 at_.toNat); sendMsg r.1 0x35 (pkgLocus p.val) tag 0 (devCodes r.2) (resBytes r.2))) ∧
    Acts (.noRoute h pa)
      (fun s => (tget s h).park = none ∧ lostFor s h pa ≠ [])
      (fun s => tmod (reportErr (drop s) (hartStop h) src tyTIMEOUT (some pa) 0 (thrBits h)) h fun t => { t with park := none, mchk := t.mchk ++ [(src, mchkInfo src false true true false, pa)] }) ∧
    Acts (.noRoute h pa)
      (fun s => (tget s h).park = none ∧ lostFor s h pa = [])
      (fun s => s) ∧
    Acts (.tlbInvBroadcast 7 b.id)
      (fun s => s.cpu.bcasts = [b] ∧ b.left = [7, 9] ∧ domState s st2 1 = dOFF ∧ stopOf 3 = some st2)
      (fun s => invAnswer (ackInv (invCore s 7 b.msg) b.id 7) b) ∧
    Acts (.tlbInvBroadcast (512 + port.val) b.id)
      (fun s => s.cpu.bcasts = [b] ∧ 512 + port.val ∈ b.left ∧ portBusy (invIotu s port b.msg) port = false)
      (fun s => invAnswer (ackInv (invIotu s port b.msg) b.id (512 + port.val)) b) ∧
    Acts (.tlbInvBroadcast tag b.id)
      (fun s => s.cpu.bcasts = [])
      (fun s => s) ∧
    Acts (.tlbInval p tag 2 0 5 0 0 false)
      (fun s => other s ∧ invPlaces s none ≠ [])
      (fun s => { s with cpu := { s.cpu with bcasts := s.cpu.bcasts ++ [⟨s.cpu.seqNo, none, p.val * 2 ^ 32 + tag % 2 ^ 32, msg, invPlaces s none⟩], seqNo := s.cpu.seqNo + 1 } }) ∧
    (∀ s, (linkPeer ms).isSome = true → linkPeer ms ≠ some ms → let t := linkDead s ms
      linkState t ms = 2 ∧ ∀ o, linkPeer ms = some o → linkState t o = 2) ∧
    (∀ s, cvState s port = 2 → (((lc s).trains.filter fun x => decide (tbNow s < x + 1000000)).length < 2) →
      cvState (cvRetrain s port) port = 3) ∧
    (∀ s, portProto s port.val = 2 → cvState (cvDead s port) port = 4)

/-- R129, R327, R335, R422 to R424, R430, R458, R524, R525, R602, R622, R624, R637 to R644. Where the Waystation starts is log entry 35; what verifies an image is opaque (log entry 12). -/
def Obligations.ResetAndBootEvents : Prop :=
  ∀ (k : Fin 6) (ch : Fin 8) (port : Fin 12) (straps : BitVec 6) (lanes : BitVec 16) (serial : Word) (f : Flash),
    let ws := wsStop 0
    let fall := fun (s : State) => (setBootStep (fwAuthFail s) 2)
    let latched := fun (s : State) (k : Nat) => { s with ws := { s.ws with trigger := some (s.ws.trigger.getD k) } }
    let done := fun (s : State) => bootStep s = 9 ∧ s.ws.path = 0
    let rails := fun (s : State) => rput s ws 3 RAIL_STAT (rget s ws 3 RAIL_STAT ||| BitVec.ofNat 32 (railBits s.ws.rail))
    let rail := fun (s : State) (g : Nat) => { s with ws := { s.ws with rail := g } }
    let calm := fun (s : State) => bootStep s ≠ 4 ∧ s.ws.trigger = none
    let work := fun (s : State) => mapGet (fun _ => 0) s.hbm.work k.val
    let named := fun (s : State) => rput64 (setWork s k 0) (stkStop k) 6 STK_SERIAL_LO serial.toNat
    let cst := chanStop k ch
    let cc := chanCtl ch
    let cv := fun (s : State) => portProto s port.val = 2 ∧ cvState s port = 2
    let trained := fun (s : State) => portProto s port.val = 2 ∧ (cvState s port = 3 ∨ (cvState s port = 1 ∧ (cvGet s port.val).ident = true))
    let least := fun (s : State) => min 2 (rfld s (portStop port) cvBlk CV_CTL 2 2)
    let formed := fun (s : State) => bootFormed (formNode s)
    Acts (.pwrgoodRise straps (some f))
      (fun s => bootStep s = 0 ∧ f.swap = false)
      (fun s => sealKeys (rput (rput { s with ws := { s.ws with flash := f, path := 1 } } ws 3 STRAP (BitVec.ofNat 32 straps.toNat)) ws 3 BOOT_STAT 1)) ∧
    Acts (.pwrgoodRise straps (some f))
      (fun s => bootStep s = 0 ∧ f.swap = true)
      (fun s => sealKeys (rput (rput { s with ws := { s.ws with flash := { f with manifest := f.backup, backup := f.manifest, swap := false }, path := 1 } } ws 3 STRAP (BitVec.ofNat 32 straps.toNat)) ws 3 BOOT_STAT 1)) ∧
    Acts (.pwrgoodRise straps none)
      (fun s => bootStep s = 0 ∧ s.ws.flash.swap = false)
      (fun s => sealKeys (rput (rput { s with ws := { s.ws with path := 1 } } ws 3 STRAP (BitVec.ofNat 32 straps.toNat)) ws 3 BOOT_STAT 1)) ∧
    Acts (.pwrgoodRise straps none)
      (fun s => bootStep s ≠ 0)
      (fun s => s) ∧
    Acts (.crystalConfirmed)
      (fun s => bootStep s = 1 ∧ (let t := freshNonce (fusesLoad (setBootStep s 2)); (slotImage t t.ws.flash.slot).isSome = true))
      (fun s => (let t := freshNonce (fusesLoad (setBootStep s 2)); railStart (pairsStart t t.ws.flash.slot))) ∧
    Acts (.crystalConfirmed)
      (fun s => bootStep s = 1 ∧ (let t := freshNonce (fusesLoad (setBootStep s 2)); slotImage t t.ws.flash.slot = none ∧ slotImage (fwAuthFail t) (!t.ws.flash.slot) = none))
      (fun s => (let t := freshNonce (fusesLoad (setBootStep s 2)); setBootFail (fall t) 2)) ∧
    Acts (.crystalConfirmed)
      (fun s => bootStep s ≠ 1)
      (fun s => s) ∧
    Acts (.railInRegulation)
      (fun s => 0 < s.ws.rail ∧ s.ws.rail < 5)
      (fun s => rail (rails s) (s.ws.rail + 1)) ∧
    Acts (.railInRegulation)
      (fun s => s.ws.rail = 5)
      (fun s => bootTrain (pllBands.foldl (fun s e => rputF s (wsStop e.1) 5 (bandBase e.2 + BAND_STAT) 6 2 2) (rail (rails s) 0))) ∧
    Acts (.railInRegulation)
      (fun s => s.ws.rail = 0)
      (fun s => s) ∧
    Acts (.railAllowanceExpire)
      (fun s => s.ws.rail ≠ 0)
      (fun s => setBootFail (rputF (rail s 0) ws 3 RAIL_STAT 0 13 0) 3) ∧
    Acts (.railRetry)
      (fun s => bootStep s = 3 ∧ s.ws.rail = 0 ∧ rfld s ws 3 BOOT_STAT 4 4 = 3 ∧ rbit s ws 3 BOOT_STAT 9 = false ∧ rfld s ws 3 RAIL_STAT 0 13 = 0)
      (fun s => rsetB (rail s 1) ws 3 BOOT_STAT 9 true) ∧
    Acts (.railRetry)
      (fun s => rbit s ws 3 BOOT_STAT 9 = true)
      (fun s => s) ∧
    Acts (.pwrgoodFall)
      (fun s => bootStep s ≠ 0)
      (fun s => coldClear s 0 true) ∧
    Acts (.pwrgoodFall)
      (fun s => bootStep s = 0)
      (fun s => s) ∧
    Acts (.vddStbyLoss)
      (fun s => True)
      (fun s => coldClear s 0 false) ∧
    Acts (.resetN)
      (fun s => done s ∧ pkgState s = 0)
      (fun s => warmReset s 1) ∧
    Acts (.resetN)
      (fun s => s.ws.path = 1 ∧ bootStep s ≠ 0 ∧ pkgState s ≠ 7)
      (fun s => latched s 1) ∧
    Acts (.resetN)
      (fun s => done s ∧ pkgState s = 3)
      (fun s => latched s 1) ∧
    Acts (.resetN)
      (fun s => done s ∧ pkgState s = 2)
      (fun s => pkgWake (latched s 1) 7 0) ∧
    Acts (.resetN)
      (fun s => s.ws.path = 3 ∧ 4 < bootStep s ∧ pkgState s ≠ 7)
      (fun s => setCause s 1) ∧
    Acts (.resetN)
      (fun s => s.ws.path = 3 ∧ 0 < bootStep s ∧ bootStep s ≤ 4 ∧ pkgState s ≠ 7)
      (fun s => setCause (latched s 1) 1) ∧
    Acts (.resetN)
      (fun s => bootStep s = 0 ∨ pkgState s = 7 ∨ s.ws.path = 2)
      (fun s => s) ∧
    Acts (.caravanWarmReset port)
      (fun s => cv s ∧ done s ∧ pkgState s = 0)
      (fun s => warmReset s 4) ∧
    Acts (.caravanWarmReset port)
      (fun s => ¬ cv s)
      (fun s => s) ∧
    Acts (.perstN)
      (fun s => epStrapped s = true ∧ bootStep s ≠ 0 ∧ rbit s ws 3 STRAP 5 = false)
      (fun s => epPerst s) ∧
    Acts (.perstN)
      (fun s => epStrapped s = true ∧ done s ∧ pkgState s = 0 ∧ rbit s ws 3 STRAP 5 = true ∧ (let t := epPerst s; done t ∧ pkgState t = 0))
      (fun s => warmReset (epPerst s) 3) ∧
    Acts (.perstN)
      (fun s => epStrapped s = false)
      (fun s => s) ∧
    Acts (.dormantExit true)
      (fun s => pkgState s = 6 ∧ s.ws.path = 0)
      (fun s => railStart (setPath s 3)) ∧
    Acts (.dormantExit false)
      (fun s => True)
      (fun s => s) ∧
    Acts (.refclk25Stable)
      (fun s => pkgState s = 6 ∧ s.ws.path = 0)
      (fun s => railStart (setPath s 3)) ∧
    Acts (.stackTrainingDone k none true serial)
      (fun s => work s = 1 ∧ calm s)
      (fun s => stackReady (zeroStack (named s) k) k) ∧
    Acts (.stackTrainingDone k none true serial)
      (fun s => work s = 2 ∧ calm s)
      (fun s => stackReady (named s) k) ∧
    Acts (.stackTrainingDone k none false serial)
      (fun s => work s = 2)
      (fun s => setWork (setWork s k 0) k 1) ∧
    Acts (.stackTrainingDone k none false serial)
      (fun s => work s = 1 ∧ calm s)
      (fun s => stackFailed (setWork s k 0) k) ∧
    Acts (.stackTrainingDone k none true serial)
      (fun s => work s = 3 ∧ calm s)
      (fun s => stackReady (setWork s k 0) k) ∧
    Acts (.stackTrainingDone k none true serial)
      (fun s => work s = 0)
      (fun s => s) ∧
    Acts (.stackTrainingDone k (some ch) true serial)
      (fun s => rbit s cst (mcBlk cc) MC_STAT 3 = true)
      (fun s => selfRefreshExit (rsetB s cst (mcBlk cc) MC_STAT 3 false) cst cc) ∧
    Acts (.stackTrainingDone k (some ch) false serial)
      (fun s => rbit s cst (mcBlk cc) MC_STAT 3 = true)
      (fun s => reportErr (rsetB (selfRefreshExit (rsetB s cst (mcBlk cc) MC_STAT 3 false) cst cc) (stkStop k) 6 STK_STAT 4 true) (stkStop k) 0x5803 tyTIMEOUT) ∧
    Acts (.caravanLinkActive port lanes)
      (fun s => trained s ∧ lanes = 0xFF ∧ 1 ≤ least s ∧ (let t := relayUpdate (cvStatPut (cvStatPut s port 0 3 2) port 3 2 1); t.link.forming = false))
      (fun s => relayUpdate (cvStatPut (cvStatPut s port 0 3 2) port 3 2 1)) ∧
    Acts (.caravanLinkActive port lanes)
      (fun s => trained s ∧ (laneWidth lanes = none ∨ (lanes = 0xFF ∧ least s = 0)))
      (fun s => cvDead s port) ∧
    Acts (.caravanLinkActive port lanes)
      (fun s => ¬ trained s)
      (fun s => s) ∧
    Acts (.nodeFormationTimeout)
      (fun s => s.link.forming = true ∧ s.ws.path = 1 ∧ (formed s).ws.trigger = none)
      (fun s => formed s) ∧
    Acts (.nodeFormationTimeout)
      (fun s => s.link.forming = false)
      (fun s => s) ∧
    Acts (.campExit)
      (fun s => pkgState s ≠ 3)
      (fun s => s) ∧
    Acts (.campExit)
      (fun s => pkgState s = 3 ∧ (∀ k, stkState s k ≠ 3) ∧ (∀ t : Stop, domState s t 2 ≠ dRETAINED) ∧ s.ws.trigger = none)
      (fun s => toRun (pllBands.foldl (fun s e => rputF (rputF s (wsStop e.1) 5 (bandBase e.2 + BAND_STAT) 6 2 2) ws 3 RAIL_STAT (4 * e.1.val + e.2 - 1) 1 1) s)) ∧
    (∀ s (c : Fin 8) (b : Bool), let t := coldClear s c.val b
      t.mem = State.reset.mem ∧ t.cpu = State.reset.cpu ∧ t.intr = State.reset.intr ∧ t.wb = State.reset.wb ∧ t.ws.flash = s.ws.flash ∧
      rfld t ws 3 RST_CAUSE 0 3 = c.val ∧ rbit t ws 3 RST_CAUSE 3 = decide (pkgState s = 7) ∧
      ∀ (d : Fin 2) o, o < 0x2000 → rget t (wsStop d) 10 o = if b then rget s (wsStop d) 10 o else rget State.reset (wsStop d) 10 o) ∧
    (∀ s, pkgNum s = 0 → let t := tget (release s) (.drover bootSlice 0 0)
      t.pc = 0xFFFFFFFF00000 ∧ t.run = .running ∧ t.level = .m ∧ t.world = .secure) ∧
    (∀ s d, let t := tget (wsStart s d) (.waystation d)
      t.pc = 0x40000100000 ∧ t.run = .running ∧ xget t 10 = BitVec.ofNat 64 (stopLocus (pkgNum s) (wsStop d))) ∧
    (∀ s a, inStack s k a = true → memGet (zeroStack s k) a = 0) ∧
    (∀ s, stkState (stackReady s k) k = 2 ∧ bit (stackReady s k).pkg.stackSet k.val = true)

/-- R270, R271, R354, R488 to R495, R504, R586 to R592, R596, R600, R602. -/
def Obligations.PortFaceAndInterruptEvents : Prop :=
  ∀ (port : Fin 12) (rid locus : BitVec 16) (tc rate : Fin 8) (addr : Word) (len : BitVec 13) (pa i tag lost slot : Nat) (data : List Byte) (h : Hart) (k : Fin 14) (w : World) (src : BitVec 12) (q : Fin 64) (width aer : Fin 32) (dw : Fin 16) (be : BitVec 4) (nt ro : Bool) (v : Reg32) (st : Stop) (r : OutReq),
    let ps := portStop port
    let es := portStop 0
    let root := fun (s : State) (n : Nat) => pkgState s = 0 ∧ (portProto s port.val = 0 ∨ portProto s port.val = 1) ∧ linkUp s port = true ∧ 0 < n ∧ addr.toNat % 4096 + n ≤ 4096
    let tr := fun (s : State) (kind : AKind) => (ioTranslate s port rid.toNat kind addr.toNat).1
    let res := fun (s : State) (kind : AKind) => (ioTranslate s port rid.toNat kind addr.toNat).2
    let pw := fun (s : State) => portWorld s port
    let hits := fun (s : State) (kind : AKind) (t : InTarget) => res s kind = .ok pa nt ∧ inTarget (tr s kind) port (pw (tr s kind)) pa = t
    let all := fun (s : State) (n : Nat) => ((linesOf pa n).all fun l => decide (inTarget s port (pw s) (max pa (64 * l)) = .memory)) = true
    let sk := fun (s : State) => streamOf s port rid.toNat tc.val
    let rd := fun (s : State) => (⟨port.val, 1, 0, rid.toNat, addr.toNat, len.toNat, [], false, sk s, none, none⟩ : InReq)
    let wr := fun (s : State) (relaxed : Bool) => (⟨port.val, 0, 0, rid.toNat, addr.toNat, data.length, data, relaxed, sk s, none, none⟩ : InReq)
    let am := fun (s : State) (n : Nat) => (⟨port.val, 2, 1, rid.toNat, addr.toNat, n, data, false, sk s, none, none⟩ : InReq)
    let turn := fun (u : State) (x : InReq) (signal : Bool) => (inEarlier u x).any (mustFollow none signal x) = false
    let fetch := fun (s : State) => inboundLines (tr s .read) port (sk s) pa len.toNat false nt
    let store := fun (s : State) => inboundLines (tr s .write) port (sk s) pa data.length true (nt || decide (sk s ≠ 0))
    let swap := fun (s : State) => inboundLines (tr s .rw) port (sk s) pa 8 true (decide (sk s ≠ 0))
    let lost2 := fun (s : State) => let m := s.io.posted.countP fun x => decide (x.port = port.val); let k := min lost m; let s1 := portSend (rputF s ps 1 PORT_STAT 0 9 0) port.val (m - k); portEvent (endRequests (rsetB (rsat { s1 with io := { s1.io with posted := s1.io.posted.filter fun x => decide (x.port ≠ port.val) } } ps 1 PORT_DROP 0 32 k) ps 1 PORT_STAT 9 true) port.val .down) port
    let door := fun (s : State) => ((let x : InReq := ⟨0, 0, 0, 0, 0x20000 + 0x40 * q.val, data.length, data, false, 0, none, none⟩; (inWaiting s x).getD x))
    let refuse := fun (s : State) => ioCount (rsetB (rsat s ps 1 PORT_UR_CNT 0 32 1) ps 1 PORT_STAT 11 true) port 9 1
    let answered := fun (s : State) (c : Nat) (d : List Byte) (p : Bool) => { s with io := { s.io with cpl := mapSet (fun _ => (0, [], false)) s.io.cpl port.val (c, d, p) } }
    let face := fun (s : State) => pkgState s = 0 ∧ portProto s 0 = 3 ∧ faceOpen s = true
    let found := fun (s : State) => s.io.reqs.find? (fun r => decide (r.port = port.val ∧ r.tag = tag)) = some r
    let out := fun (s : State) => { s with io := { s.io with reqs := s.io.reqs.filter fun x => !decide (x.port = port.val ∧ x.tag = tag) } }
    let priv := fun (s : State) => locus.toNat / 16384 = pkgNum s ∧ locusNamesPlace locus.toNat = true ∧ droverOf (pkgNum s) locus.toNat = some h
    let seen := fun (s : State) => pageInert s h = false ∧ privSecret s h w src.toNat = false ∧ 16 ≤ src.toNat ∧ src.toNat ≤ 47
    let lanes := BitVec.ofNat 32 (((List.range 4).map fun i => if be.getLsbD i then 0xFF * 2 ^ (8 * i) else 0).sum)
    Acts (.inboundMemoryRead port ⟨rid, tc⟩ addr len)
      (fun s => root s len.toNat ∧ hits s .read .memory ∧ all (tr s .read) len.toNat ∧ turn (tr s .read) (rd s) false ∧ (fetch s).2 = true)
      (fun s => (let u := (fetch s).1; inDrop (answered (ioCount (ioCount u port 0 1) port 3 ((len.toNat + 63) / 64)) 0 (memRead u pa len.toNat) (poisoned u pa len.toNat)) (rd s))) ∧
    Acts (.inboundMemoryRead port ⟨rid, tc⟩ addr len)
      (fun s => root s len.toNat ∧ hits s .read .memory ∧ all (tr s .read) len.toNat ∧ turn (tr s .read) (rd s) false ∧ (fetch s).2 = false)
      (fun s => inKeep (fetch s).1 (rd s)) ∧
    Acts (.inboundMemoryRead port ⟨rid, tc⟩ addr len)
      (fun s => root s len.toNat ∧ hits s .read .memory ∧ ¬ turn (tr s .read) (rd s) false)
      (fun s => inKeep (tr s .read) (rd s)) ∧
    Acts (.inboundMemoryRead port ⟨rid, tc⟩ addr len)
      (fun s => root s len.toNat ∧ res s .read = .fault true)
      (fun s => inDrop (answered (refuse (tr s .read)) 2 [] false) (rd s)) ∧
    Acts (.inboundMemoryRead port ⟨rid, tc⟩ addr len)
      (fun s => root s len.toNat ∧ res s .read = .fault false)
      (fun s => inDrop (answered (refuse (tr s .read)) 1 [] false) (rd s)) ∧
    Acts (.inboundMemoryRead port ⟨rid, tc⟩ addr len)
      (fun s => pkgState s ≠ 0 ∧ pkgState s ≠ 7)
      (fun s => pkgWake s 3 port.val) ∧
    Acts (.inboundMemoryRead port ⟨rid, tc⟩ addr len)
      (fun s => pkgState s = 0 ∧ (portProto s port.val = 2 ∨ portProto s port.val ≠ 3 ∧ linkUp s port = false ∧ s.io.inq = []))
      (fun s => s) ∧
    Acts (.inboundMemoryWrite port ⟨rid, tc⟩ ro addr data false)
      (fun s => root s data.length ∧ hits s .write .memory ∧ all (tr s .write) data.length ∧ turn (tr s .write) (wr s ro) false ∧ (store s).2 = true)
      (fun s => (let u := (store s).1; inDrop (agentWrite (ioCount (ioCount u port 1 1) port 2 ((data.length + 63) / 64)) none pa data) (wr s ro))) ∧
    Acts (.inboundMemoryWrite port ⟨rid, tc⟩ ro addr data false)
      (fun s => root s data.length ∧ hits s .write .shared ∧ data.length = 4 ∧ turn (tr s .write) (wr s ro) true)
      (fun s => (let u := tr s .write; inDrop (ioCount (shSet u (pw u) true port.val (leNat data % 4096)) port 11 1) (wr s ro))) ∧
    Acts (.inboundMemoryWrite port ⟨rid, tc⟩ ro addr data false)
      (fun s => root s data.length ∧ hits s .write .shared ∧ ¬ turn (tr s .write) (wr s ro) true)
      (fun s => inKeep (tr s .write) (wr s ro)) ∧
    Acts (.inboundMemoryWrite port ⟨rid, tc⟩ ro addr data false)
      (fun s => root s data.length ∧ (∃ ca, res s .write = .fault ca))
      (fun s => inDrop (refuse (tr s .write)) (wr s ro)) ∧
    Acts (.doorbellPost port rid tc addr data false)
      (fun s => root s data.length ∧ hits s .write (.doorbell st slot 0) ∧ turn (tr s .write) (wr s false) true)
      (fun s => (let u := tr s .write; inDrop (wqPost (ioCount u port 10 1) st slot data (decide (slotSecure u st slot ≠ decide (pw u = .secure))) false false (srcClassC (0x400 + 64 * port.val + sk s))) (wr s false))) ∧
    Acts (.doorbellPost port rid tc addr data false)
      (fun s => root s data.length ∧ hits s .write .memory ∧ turn (tr s .write) (wr s false) false)
      (fun s => inDrop (tr s .write) (wr s false)) ∧
    Acts (.inboundAtomicop port ⟨rid, tc⟩ addr 8 0 data)
      (fun s => root s 8 ∧ hits s .rw .memory ∧ pa % 8 = 0 ∧ turn (tr s .rw) (am s 8) false ∧ (swap s).2 = true ∧ (amoAt (swap s).1 none pa 8 1 data).2 = .data (memRead (swap s).1 pa 8) none)
      (fun s => inDrop (answered (amoAt (swap s).1 none pa 8 1 data).1 0 (memRead (swap s).1 pa 8) false) (am s 8)) ∧
    Acts (.inboundAtomicop port ⟨rid, tc⟩ addr 16 0 data)
      (fun s => root s 16 ∧ hits s .rw .memory ∧ turn (tr s .rw) (am s 16) false)
      (fun s => inDrop (answered (refuse (tr s .rw)) 1 [] false) (am s 16)) ∧
    Acts (.epDoorbell q data false)
      (fun s => face s ∧ turn s (door s) true ∧ epDoor s q.val = none)
      (fun s => inDrop (rsat s es 6 EP_DROP 0 32 1) (door s)) ∧
    Acts (.epDoorbell q data false)
      (fun s => face s ∧ turn s (door s) true ∧ epDoor s q.val = some (st, slot))
      (fun s => inDrop (wqPost (ioCount s 0 10 1) st slot data (slotSecure s st slot) false false (srcClassC 0x400)) (door s)) ∧
    Acts (.translationRequest port rid addr)
      (fun s => (portProto s port.val = 0 ∨ portProto s port.val = 1) ∧ linkUp s port = true ∧ (ctxLookup s port rid.toNat).2 = .ok [5, 0, 0, 0] ∧ (let u := (ctxLookup s port rid.toNat).1; rbit u ps 3 BLOCK_CTL 0 = true ∧ ctxValid u port [5, 0, 0, 0] = true))
      (fun s => answered (refuse (ctxLookup s port rid.toNat).1) 1 [] false) ∧
    Acts (.outboundCompletion port tag (.ok data false))
      (fun s => found s ∧ r.kind = 0 ∧ r.n ≤ data.length)
      (fun s => answer (out s) r.who (.data (data.take r.n) none)) ∧
    Acts (.outboundCompletion port tag .ca)
      (fun s => found s ∧ r.kind = 0)
      (fun s => answer (out s) r.who (.err 4 2)) ∧
    Acts (.outboundCompletion port tag .ur)
      (fun s => found s ∧ r.kind = 2)
      (fun s => answer (out s) r.who (.data (List.replicate r.n 0xFF) none)) ∧
    Acts (.outboundCompletion port tag .ur)
      (fun s => s.io.reqs = [])
      (fun s => s) ∧
    Acts (.completionTimeout port tag)
      (fun s => found s ∧ r.kind = 0)
      (fun s => answer (out s) r.who (.err 4 3)) ∧
    Acts (.pcieLinkDown port lost)
      (fun s => (portProto s port.val = 0 ∨ portProto s port.val = 1) ∧ linkUp s port = true)
      (fun s => lost2 s) ∧
    Acts (.secondaryBusReset port lost)
      (fun s => (portProto s port.val = 0 ∨ portProto s port.val = 1) ∧ linkUp s port = true)
      (fun s => lost2 s) ∧
    Acts (.pcieLinkDown port lost)
      (fun s => portProto s port.val = 3 ∧ linkUp s port = true)
      (fun s => rsetB (epLinkDown s lost) es 6 EP_STAT 8 true) ∧
    Acts (.pcieLinkDown port lost)
      (fun s => linkUp s port = false)
      (fun s => s) ∧
    Acts (.portLinkUp port rate width true)
      (fun s => (portProto s port.val = 0 ∨ portProto s port.val = 1) ∧ linkUp s port = false ∧ domState s ps 0 = dON ∧ rbit s ps 1 BLOCK_CTL 0 = true)
      (fun s => (let u := rputF s ps 1 PORT_STAT 0 9 (1 + 2 * min rate.val (rfld s ps 1 PORT_CTL 0 3) + 16 * width.val); portEvent (if portProto u port.val = 1 then rsetB u ps 5 CXL_STAT 0 true else u) port)) ∧
    Acts (.portLinkUp port rate width false)
      (fun s => portProto s port.val = 3 ∧ linkUp s port = false ∧ domState s ps 0 = dON ∧ rbit s ps 6 BLOCK_CTL 0 = true ∧ s.io.perst = false)
      (fun s => epIntx (rsetB s ps 6 EP_STAT 0 true)) ∧
    Acts (.errCor port aer rid)
      (fun s => portProto s port.val < 2)
      (fun s => portEvent (reportErr s ps 0x6001 tyPROTOCOL none (aer.val + rid.toNat * 65536)) port) ∧
    Acts (.errNonfatal port aer rid)
      (fun s => portProto s port.val < 2)
      (fun s => portEvent (reportErr s ps 0x6002 tyPROTOCOL none (aer.val + rid.toNat * 65536)) port) ∧
    Acts (.errFatal port aer rid)
      (fun s => portProto s port.val < 2)
      (fun s => portEvent (reportErr s ps 0x6002 tyPROTOCOL none (aer.val + rid.toNat * 65536)) port) ∧
    Acts (.pme port)
      (fun s => portProto s port.val < 2)
      (fun s => portEvent s port) ∧
    Acts (.configurationWrite (.power true))
      (fun s => face s)
      (fun s => epIntx (rputF s es 6 EP_STAT 5 2 3)) ∧
    Acts (.configurationWrite (.header dw be v))
      (fun s => face s)
      (fun s => (let m := BitVec.ofNat 32 (epMask s dw.val) &&& lanes; let u := epPut s dw.val ((epGet s dw.val &&& ~~~m) ||| (v &&& m)); epIntx (rputF u es 6 EP_STAT 1 2 (b2n ((epGet u 1).getLsbD 2) + 2 * b2n ((epGet u 1).getLsbD 1))))) ∧
    Acts (.configurationWrite .other)
      (fun s => True)
      (fun s => s) ∧
    Acts (.perstNDeassert)
      (fun s => True)
      (fun s => { s with io := { s.io with perst := false } }) ∧
    Acts (.interrupt w locus false src)
      (fun s => priv s ∧ (match h with | .drover st c _ => stopOf (locus.toNat / 64 % 256) = some st ∧ tileMode s st = 0 ∧ coreAbsent s st c = false | _ => False) ∧ seen s)
      (fun s => privSet s h src.toNat) ∧
    Acts (.interrupt w locus true src)
      (fun s => locus.toNat / 16384 = pkgNum s ∧ locus.toNat % 64 = 0 ∧ stopOf (locus.toNat / 64 % 256) = some ps ∧ src.toNat < shSize port.val ∧ shSecure s port.val src.toNat = false)
      (fun s => { s with intr := { s.intr with shPend := setAdd s.intr.shPend (port.val * 512 + src.toNat) } }) ∧
    Acts (.interrupt w locus false src)
      (fun s => locus.toNat / 16384 ≠ pkgNum s)
      (fun s => s) ∧
    Acts (.interrupt w locus false src)
      (fun s => locus.toNat / 16384 = pkgNum s ∧ setAt s w locus.toNat false src.toNat = none)
      (fun s => { s with link := { s.link with perr := s.link.perr ++ [locus.toNat] } }) ∧
    Acts (.sharedOffer k i)
      (fun s => i < shSize k.val ∧ shPending s k.val i = true ∧ (shCfg s k.val i).getLsbD 8 = true ∧ shFwd s k.val i = false ∧ shTarget s k.val i = some h ∧ (shListOf s h).length < 32)
      (fun s => setShList s h (shListOf s h ++ [k.val * 512 + i])) ∧
    Acts (.sharedOffer k i)
      (fun s => i < shSize k.val ∧ shPending s k.val i = true ∧ (shCfg s k.val i).getLsbD 8 = true ∧ shTarget s k.val i = none)
      (fun s => reportErr (rsetB s (shTable k.val).1 (shTable k.val).2 SH_STAT 1 true) (shTable k.val).1 0xB101 tyPROTOCOL) ∧
    Acts (.sharedOffer k i)
      (fun s => shSize k.val ≤ i ∨ shPending s k.val i = false)
      (fun s => s) ∧
    Acts (.intStateUe h (some w) none)
      (fun s => (∀ d, h ≠ .waystation d))
      (fun s => reportErr (setRunStack s h w []) (hartStop h) 0xB001 tyPARITY none 0 (thrBits h)) ∧
    Acts (.intStateUe h none none)
      (fun s => (∀ d, h ≠ .waystation d))
      (fun s => reportErr ((List.range 48).foldl (fun s n => if privLatched n && privEnabled s h n then privSet s h n else s) s) (hartStop h) 0xB001 tyPARITY none 0 (thrBits h)) ∧
    Acts (.intStateUe h none (some k))
      (fun s => True)
      (fun s => reportErr ((List.range (shSize k.val)).foldl (fun s i => if (shCfg s k.val i).getLsbD 8 then { s with intr := { s.intr with shPend := setAdd s.intr.shPend (k.val * 512 + i) } } else s) s) (shTable k.val).1 0xB103 tyPARITY) ∧
    Acts (.iotuInvDone port)
      (fun s => (ioGet s port).inv = some none ∧ portBusy s port = false)
      (fun s => rsetB (ioPut s port { ioGet s port with ctx := (ioGet s port).ctx.filter (fun _ => false), tlb := (ioGet s port).tlb.filter (fun _ => false), wc := (ioGet s port).wc.filter (fun _ => false), inv := none }) ps 3 IOTU_STAT 2 false) ∧
    Acts (.iotuInvDone port)
      (fun s => (ioGet s port).inv = some (some rid.toNat) ∧ portBusy s port = false)
      (fun s => (let o := ioGet s port; rsetB (ioPut s port { o with ctx := o.ctx.filter (fun e => decide (e.1 ≠ rid.toNat)), tlb := o.tlb.filter (fun e => decide (e.1 ≠ rid.toNat)), wc := o.wc.filter (fun e => decide (e.1 ≠ rid.toNat)), inv := none }) ps 3 IOTU_STAT 2 false)) ∧
    Acts (.iotuInvDone port)
      (fun s => (ioGet s port).inv = none)
      (fun s => s) ∧
    Acts (.iotuInvDone port)
      (fun s => portBusy s port = true)
      (fun s => s)

/-- R465, R467, R468, R470 to R475, R478 to R483. -/
def Obligations.LockedPairEvents : Prop :=
  ∀ (st : Stop) (t core : Fin 2) (k : Mismatch) (ns : Nat) (g : LockGroup) (gs : List LockGroup) (check : BitVec 64) (e : Nat × Nat × Nat × Bool),
    let h := Hart.drover st 0 t
    let key := hartKey h
    let i := stopIdx st
    let freed := fun (s : State) => let s1 := { s with lock := { s.lock with cairn := mapSet (fun _ => Thread.initial) s.lock.cairn key g.after, groups := mapSet (fun _ => []) s.lock.groups key gs } }; tmod s1 h fun u => { u with stores := u.stores.map fun x => if x.seq < g.seq then { x with good := true } else x }
    let front := fun (s : State) => mapGet (fun _ => []) s.lock.groups key = g :: gs
    let pinned := fun (s : State) => s.lock.pins.any fun x => decide (x.1 = key)
    let comp := fun (s : State) => stopKind st = .tile ∧ tileMode s st = 1 ∧ rbit s st 0 LOCK_STAT 4 = false
    let recent := fun (s : State) => (mapGet (fun _ => []) s.lock.window i).filter (fun x => decide (tbNow s < x + 100000)) ++ [tbNow s]
    let counted := fun (s : State) => rsat (rsetB { s with lock := { s.lock with window := mapSet (fun _ => []) s.lock.window i (recent s) } } st 0 LOCK_STAT 7 true) st 0 LOCK_CNT 0 24 1
    let sound := fun (s : State) => ((pairHarts st).any fun h => setHas s.lock.bad (hartKey h)) = false
    let event := fun (s : State) (x : Option (Nat × Nat × Nat × Bool)) => { s with lock := { s.lock with event := mapSet (fun _ => none) s.lock.event i x } }
    let stopped := fun (s : State) (e : Nat × Nat × Nat × Bool) => event ((pairHarts st).foldl discardWork (rsetB s st 0 LOCK_STAT 3 true)) (some e)
    let was := fun (s : State) => mapGet (fun _ => none) s.lock.event i
    let tested := fun (s : State) => stopKind st = .tile ∧ rbit s st 0 LOCK_STAT 4 = true
    let cmd := fun (s : State) (c : Nat) => stopKind st = .tile ∧ rbit s st 0 LOCK_STAT 5 = true ∧ mapGet (fun _ => 0) s.lock.cmd i = c
    let ended := fun (s : State) => rsetB { s with lock := { s.lock with cmd := mapSet (fun _ => 0) s.lock.cmd i 0 } } st 0 LOCK_STAT 5 false
    Acts (.groupCompare h check none)
      (fun s => comp s ∧ front s ∧ g.sig = check ∧ g.kind = 0 ∧ pinned s = false)
      (fun s => unpin (freed s) h) ∧
    Acts (.groupCompare h check none)
      (fun s => comp s ∧ front s ∧ g.sig = check ∧ g.kind = 0 ∧ pinned s = true)
      (fun s => unpin (drainAll (freed s) h) h) ∧
    Acts (.groupCompare h check none)
      (fun s => comp s ∧ front s ∧ g.sig = check ∧ g.kind = 1 ∧ pinned s = false)
      (fun s => unpin (setConfirm (freed s) h (confirmOf (freed s) h + 1)) h) ∧
    Acts (.groupCompare h check none)
      (fun s => comp s ∧ front s ∧ g.sig ≠ check ∧ sound s ∧ (recent s).length < 3)
      (fun s => stopped (counted s) (1, t.val, 0, false)) ∧
    Acts (.groupCompare h check none)
      (fun s => comp s ∧ mapGet (fun _ => []) s.lock.groups key = [])
      (fun s => s) ∧
    Acts (.groupCompare h check (some k))
      (fun s => comp s ∧ mismatchKind k ≠ 4 ∧ sound s ∧ (recent s).length < 3)
      (fun s => stopped (counted s) (mismatchKind k, t.val, 0, false)) ∧
    Acts (.groupCompare h check (some (.coreUe core)))
      (fun s => comp s ∧ sound s ∧ (recent s).length < 3)
      (fun s => stopped (counted s) (4, 0, core.val, false)) ∧
    Acts (.groupCompare h check (some k))
      (fun s => comp s ∧ mismatchKind k ≠ 4 ∧ sound s ∧ 3 ≤ (recent s).length)
      (fun s => recoverStep (stopped (rsat (counted s) st 0 LOCK_CNT 24 8 1) (mismatchKind k, t.val, 0, true)) st 0) ∧
    Acts (.groupCompare h check (some k))
      (fun s => comp s ∧ mismatchKind k ≠ 4 ∧ ¬ sound s)
      (fun s => tileHalt (counted s) st (mismatchKind k) t.val 0 0) ∧
    Acts (.groupCompare h check (some k))
      (fun s => ¬ comp s)
      (fun s => s) ∧
    Acts (.requestCompare h true)
      (fun s => comp s ∧ mapGet (fun _ => 0) s.lock.req key = 1)
      (fun s => { s with lock := { s.lock with req := mapSet (fun _ => 0) s.lock.req key 2 } }) ∧
    Acts (.requestCompare h false)
      (fun s => comp s ∧ mapGet (fun _ => 0) s.lock.req key = 1 ∧ sound s ∧ (recent s).length < 3)
      (fun s => stopped (counted s) (3, t.val, 0, false)) ∧
    Acts (.requestCompare h true)
      (fun s => mapGet (fun _ => 0) s.lock.req key ≠ 1)
      (fun s => s) ∧
    Acts (.recoveryResume st ns)
      (fun s => stopKind st = .tile ∧ rbit s st 0 LOCK_STAT 3 = true ∧ mapGet (fun _ => none) s.lock.event i = some e ∧ recoverReady s st = true ∧ e.2.2.2 = false)
      (fun s => (let s1 := (pairHarts st).foldl fromCairn (pairForget s st); let s2 := rsetB (event s1 none) st 0 LOCK_STAT 3 false; lockRecord s2 st tyCE (lockSynd e.1 e.2.1 e.2.2.1 (winCount s2 st) 0 0 ns) ns 0)) ∧
    Acts (.recoveryResume st ns)
      (fun s => stopKind st = .tile ∧ rbit s st 0 LOCK_STAT 3 = true ∧ mapGet (fun _ => none) s.lock.event i = some e ∧ recoverReady s st = true ∧ e.2.2.2 = true)
      (fun s => pairForget (l2Empty (rputF s st 0 LOCK_STAT 3 2 2) (coreNum st 0)) st) ∧
    Acts (.recoveryResume st ns)
      (fun s => rbit s st 0 LOCK_STAT 3 = false)
      (fun s => s) ∧
    Acts (.selftestDone st true true ns)
      (fun s => tested s ∧ was s = none)
      (fun s => selftestResume (lockRecord s st tyCE (lockSynd 7 0 0 (winCount s st) 1 0 ns) ns 0) st) ∧
    Acts (.selftestDone st true true ns)
      (fun s => tested s ∧ was s = some e)
      (fun s => selftestResume (lockRecord (lockRecord s st tyCE (lockSynd e.1 e.2.1 e.2.2.1 (winCount s st) 1 0 ns) ns 0) st tyCE (lockSynd 7 0 0 (winCount s st) 1 0 ns) ns 0) st) ∧
    Acts (.selftestDone st false true ns)
      (fun s => tested s ∧ was s = none)
      (fun s => selftestResume (degrade (lockRecord s st tyCE (lockSynd 7 0 0 (winCount s st) 2 1 ns) ns 0) st 1) st) ∧
    Acts (.selftestDone st false true ns)
      (fun s => tested s ∧ was s = some e)
      (fun s => selftestResume (degrade (lockRecord (lockRecord s st tyCE (lockSynd e.1 e.2.1 e.2.2.1 (winCount s st) 2 1 ns) ns 0) st tyCE (lockSynd 7 0 0 (winCount s st) 2 1 ns) ns 0) st 1) st) ∧
    Acts (.selftestDone st true false ns)
      (fun s => tested s ∧ was s = none)
      (fun s => selftestResume (degrade (lockRecord s st tyCE (lockSynd 7 0 0 (winCount s st) 2 0 ns) ns 0) st 0) st) ∧
    Acts (.selftestDone st true false ns)
      (fun s => tested s ∧ was s = some e)
      (fun s => selftestResume (degrade (lockRecord (lockRecord s st tyCE (lockSynd e.1 e.2.1 e.2.2.1 (winCount s st) 2 0 ns) ns 0) st tyCE (lockSynd 7 0 0 (winCount s st) 2 0 ns) ns 0) st 0) st) ∧
    Acts (.selftestDone st false false ns)
      (fun s => tested s ∧ was s = none)
      (fun s => tileHalt s st 7 0 0 ns) ∧
    Acts (.selftestDone st false false ns)
      (fun s => tested s ∧ was s = some e)
      (fun s => tileHalt (lockRecord s st tyCE (lockSynd e.1 e.2.1 e.2.2.1 (winCount s st) 3 0 ns) ns 0) st 7 0 0 ns) ∧
    Acts (.selftestDone st true true ns)
      (fun s => ¬ tested s)
      (fun s => s) ∧
    Acts (.cairnScrub h (some false))
      (fun s => comp s)
      (fun s => (let s1 := rsat s st 0 LOCK_CAIRN_ERR 0 16 1; lockRecord s1 st tyCE (lockSynd 5 t.val 0 (winCount s st) 0 0 0) 0 0)) ∧
    Acts (.cairnScrub h (some true))
      (fun s => comp s)
      (fun s => (let s1 := rsat s st 0 LOCK_CAIRN_ERR 16 16 1; lockRecord { s1 with lock := { s1.lock with bad := setAdd s1.lock.bad key } } st tyUE (lockSynd 6 t.val 0 (winCount s st) 0 0 0) 0 0)) ∧
    Acts (.cairnScrub h none)
      (fun s => True)
      (fun s => s) ∧
    Acts (.lockCmdDone st true true)
      (fun s => cmd s 1 ∧ tileMode (ended s) st = 0)
      (fun s => setTileMode (lockForget (keyCopy (coresReset (ended s) st) st) st) st 1) ∧
    Acts (.lockCmdDone st true true)
      (fun s => cmd s 1 ∧ tileMode (ended s) st = 1)
      (fun s => ended s) ∧
    Acts (.lockCmdDone st true true)
      (fun s => cmd s 2 ∧ tileMode (ended s) st = 1)
      (fun s => (let s1 := coresReset (ended s) st; setTileMode (lockForget (cput (useFree s1) (coreKey st 1) { cget s1 (coreKey st 1) with key := freeVal s1 }) st) st 0)) ∧
    Acts (.lockCmdDone st true true)
      (fun s => cmd s 3 ∧ tileMode (ended s) st = 3)
      (fun s => makeLocked (coresOn (ended s) st) st) ∧
    Acts (.lockCmdDone st false false)
      (fun s => cmd s 3 ∧ tileMode (ended s) st = 3)
      (fun s => ended s) ∧
    Acts (.lockCmdDone st true false)
      (fun s => cmd s 3 ∧ tileMode (ended s) st = 2 ∧ rbit (ended s) st 0 LOCK_STAT 2 = true)
      (fun s => makeLocked (coresOn (ended s) st) st) ∧
    Acts (.lockCmdDone st true true)
      (fun s => rbit s st 0 LOCK_STAT 5 = false)
      (fun s => s) ∧
    (∀ s m, m < 4 → tileMode (setTileMode s st m) st = m ∧ (2 ≤ m → rbit (setTileMode s st m) st 0 LOCK_STAT 8 = true)) ∧
    (∀ s, rbit s st 0 LOCK_STAT 7 = false → rfld s st 0 LOCK_CNT 0 24 < 2 ^ 24 - 1 →
      rbit (counted s) st 0 LOCK_STAT 7 = true ∧ rfld (counted s) st 0 LOCK_CNT 0 24 = rfld s st 0 LOCK_CNT 0 24 + 1) ∧
    (∀ s, let u := tget (discardWork s h) h
      u.resv = none ∧ u.wait = none ∧ (∀ x ∈ u.stores, x.good = true) ∧
      mapGet (fun _ => []) (discardWork s h).lock.groups key = [] ∧ (discardWork s h).mem = s.mem) ∧
    (∀ s, let c := mapGet (fun _ => Thread.initial) s.lock.cairn key
      let u := tget (fromCairn s h) h
      u.x = c.x ∧ u.p = c.p ∧ u.v = c.v ∧ u.m = c.m ∧ u.pc = c.pc ∧ u.level = c.level ∧ u.world = c.world ∧ u.resv = none ∧ u.stores = (tget s h).stores)

/-- R508 to R515, R520 to R523, R527 to R531. Which grants rise again is a free value (log entry 1). -/
def Obligations.PowerEvents : Prop :=
  ∀ (st : Stop) (die : Fin 2) (b : Fin 6) (d : Fin 3) (dd : Fin 16) (ap kind : Fin 7) (pk : Fin 8) (arg : BitVec 16) (deg pins : BitVec 8) (watts : BitVec 10) (x : Nat),
    let ws := wsStop die
    let key := bandKey die b.val
    let rk := bandKey die (railOf b.val)
    let goal := fun (s : State) => min (min (rfld s ws 5 (bandBase b.val + BAND_CTL) 0 6) (freqCeiling (bandCores s die b.val))) (min (bandGrant s key) (bandTherm s key))
    let pll := 1 ≤ b.val ∧ b.val ≤ 4
    let limit := fun (s : State) => rfld s (wsStop 0) 4 PKG_PWR_LIMIT 0 10
    let shown := fun (s : State) => let v : Reg32 := BitVec.ofNat 32 (watts.toNat + baseFreq (limit s) * 65536); rput (rput s (wsStop 0) 4 PKG_PWR_EST v) (wsStop 1) 4 PKG_PWR_EST v
    let isDom := domExists st dd.val = true ∧ dd ≠ 15
    let lists := fun (s : State) => { s with pow := { s.pow with temps := mapSet (fun _ => 0) s.pow.temps (stopIdx st) deg.toNat } }
    let hot := fun (s : State) => rputF (lists s) (wsStop st.die) 5 (bandBase st.y.val + BAND_STAT) 16 8 (hottest (lists s) (rowStops st.die st.y.val))
    let read := fun (s : State) => rputF (hot s) (wsStop st.die) 4 THERM_STAT 0 8 (hottest (hot s) (dieStops st.die))
    let sampled := fun (s : State) => (let e := mapGet (fun _ => WchSt.initial) s.pow.wch (die.val * 32); wchSample { s with pow := { s.pow with wch := mapSet (fun _ => WchSt.initial) s.pow.wch (die.val * 32) { e with age := 0 } } } die 0 (some pins.toNat))
    let slow := fun (s : State) => rsetB s (wsStop st.die) 4 THERM_STAT 8 ([1, 2, 3, 4].any fun b => decide (bandTherm s (bandKey st.die b) < 32))
    Acts (.bandFrequencyChange die b)
      (fun s => pll ∧ goal s < bandFreq s die b.val)
      (fun s => setBandFreq s die b.val (goal s)) ∧
    Acts (.bandFrequencyChange die b)
      (fun s => pll ∧ bandFreq s die b.val < goal s)
      (fun s => { s with pow := { s.pow with volt := setAdd s.pow.volt key } }) ∧
    Acts (.bandFrequencyChange die b)
      (fun s => ¬ pll ∨ bandFreq s die b.val = goal s)
      (fun s => s) ∧
    Acts (.regulatorReport die b)
      (fun s => setHas s.pow.volt key = true ∧ goal { s with pow := { s.pow with volt := setDel s.pow.volt key } } = goal s)
      (fun s => setBandFreq { s with pow := { s.pow with volt := setDel s.pow.volt key } } die b.val (goal s)) ∧
    Acts (.regulatorReport die b)
      (fun s => setHas s.pow.volt key = false)
      (fun s => s) ∧
    Acts (.powerEstimate watts)
      (fun s => watts.toNat ≤ limit (shown s) ∧ limit (shown s) = limit s)
      (fun s => pllBands.foldl (fun t e => if bit (freeVal (shown s)).toNat (bandKey e.1 e.2) then setGrant t (bandKey e.1 e.2) (min 32 (bandGrant t (bandKey e.1 e.2) + 1)) else t) (useFree (shown s))) ∧
    Acts (.powerEstimate watts)
      (fun s => limit s < watts.toNat ∧ highestBand (shown s) = some (die, b.val) ∧ (let g := min (bandGrant (shown s) key) (bandFreq (shown s) die b.val); baseHolds (shown s) = false ∧ 8 < g))
      (fun s => setGrant (shown s) key (min (bandGrant (shown s) key) (bandFreq (shown s) die b.val) - 1)) ∧
    Acts (.domainAutoEntry st d ap)
      (fun s => stopKind st = .tile ∧ rbit s st 9 (16 * d.val + DSEQ_CTL) 0 = true ∧ domUsable s st d.val = true)
      (fun s => domEnter s st d.val ap.val) ∧
    Acts (.domainAutoEntry st d ap)
      (fun s => stopKind st ≠ .tile ∨ rbit s st 9 (16 * d.val + DSEQ_CTL) 0 = false)
      (fun s => s) ∧
    Acts (.wakeEvent st dd kind pk arg)
      (fun s => isDom ∧ kind ≠ 0 ∧ pkgState s = 0)
      (fun s => domWake s st dd.val kind.val) ∧
    Acts (.wakeEvent st dd kind pk arg)
      (fun s => isDom ∧ kind ≠ 0 ∧ pkgState s ≠ 0 ∧ pk ≠ 0)
      (fun s => pkgWake s pk.val arg.toNat) ∧
    Acts (.wakeEvent st dd kind pk arg)
      (fun s => ¬ isDom)
      (fun s => s) ∧
    Acts (.seqTimeout st dd)
      (fun s => isDom ∧ (domState s st dd.val = dENTERING ∨ domState s st dd.val = dWAKING))
      (fun s => reportErr s st (0xC901 + 16 * dd.val) tyTIMEOUT) ∧
    Acts (.seqTimeout st dd)
      (fun s => domState s st dd.val = dON ∨ domState s st dd.val = dOFF)
      (fun s => s) ∧
    Acts (.powerUpDone st dd)
      (fun s => stopKind st ≠ .memory ∧ domExists st dd.val = true ∧ domState s st dd.val = dWAKING)
      (fun s => heldProceed (domUp s st dd.val) st dd.val) ∧
    Acts (.powerUpDone st dd)
      (fun s => stopKind st = .memory ∧ dd.val < 2 ∧ domState s st dd.val = dWAKING)
      (fun s => heldProceed (selfRefreshExit (domUp s st dd.val) st (if dd.val = 0 then 0 else 1)) st dd.val) ∧
    Acts (.powerUpDone st dd)
      (fun s => domState s st dd.val ≠ dWAKING)
      (fun s => s) ∧
    Acts (.campEntryDone)
      (fun s => pkgState s = 1 ∧ (setPkgState (bandsDown (stacksDown (slicesDown (coresDown s) false)) false) 2).pow.latched = [])
      (fun s => setPkgState (bandsDown (stacksDown (slicesDown (coresDown s) false)) false) 2) ∧
    Acts (.campEntryDone)
      (fun s => pkgState s = 1 ∧ (setPkgState (bandsDown (stacksDown (slicesDown (coresDown s) false)) false) 2).pow.latched = [(2, x)])
      (fun s => startExit (setPkgState (bandsDown (stacksDown (slicesDown (coresDown s) false)) false) 2) 2 x) ∧
    Acts (.campEntryDone)
      (fun s => pkgState s = 4 ∧ (setPkgState (dormantDown (bandsDown (stacksDown (slicesDown (coresDown s) true)) true)) 5).pow.latched = [])
      (fun s => setPkgState (dormantDown (bandsDown (stacksDown (slicesDown (coresDown s) true)) true)) 5) ∧
    Acts (.campEntryDone)
      (fun s => pkgState s ≠ 1 ∧ pkgState s ≠ 4)
      (fun s => s) ∧
    Acts (.thermalSample st deg)
      (fun s => stopKind st = .tile ∧ deg.toNat < 115)
      (fun s => slow (thermStep (read s) st.die st.y.val)) ∧
    Acts (.thermalSample st deg)
      (fun s => stopKind st ≠ .tile ∧ deg.toNat < 115)
      (fun s => slow (read s)) ∧
    Acts (.thermalSample st deg)
      (fun s => stopKind st = .tile ∧ 115 ≤ deg.toNat)
      (fun s => thermalTrip (slow (thermStep (read s) st.die st.y.val)) st.die) ∧
    Acts (.railDroop die b)
      (fun s => setHas s.pow.droop rk = false)
      (fun s => reportErr (rsat (rsetB { s with pow := { s.pow with droop := setAdd s.pow.droop rk } } ws 5 (bandBase b.val + BAND_STAT) 15 true) ws 5 (bandBase b.val + BAND_DROOP_CNT) 0 32 1) ws (0xC001 + 0x100 * b.val) 0) ∧
    Acts (.railDroop die b)
      (fun s => setHas s.pow.droop rk = true)
      (fun s => s) ∧
    Acts (.railRecovers die b)
      (fun s => True)
      (fun s => { s with pow := { s.pow with droop := setDel s.pow.droop rk } }) ∧
    Acts (.railUv die b)
      (fun s => True)
      (fun s => (railDoms die b.val).foldl (fun s e => domainReset s e.1 e.2) (reportErr s ws (0xC002 + 0x100 * b.val) 0)) ∧
    Acts (.watchTick die [] pins 0)
      (fun s => rbit s ws 6 WCH_GCTL 0 = false)
      (fun s => s) ∧
    Acts (.watchTick die [] pins 32)
      (fun s => rbit s ws 6 WCH_GCTL 0 = true ∧ ∀ n : Fin 32, rbit s ws 6 (wchBase n.val) 0 = false)
      (fun s => s) ∧
    Acts (.watchTick die [] pins 0)
      (fun s => rbit s ws 6 WCH_GCTL 0 = true ∧ wchReg s die 0 WCH_PERIOD = 1 ∧ ∀ n : Fin 32, rbit s ws 6 (wchBase n.val) 0 = decide (n = 0))
      (fun s => (let e := mapGet (fun _ => WchSt.initial) s.pow.wch (die.val * 32); let t := { s with pow := { s.pow with wch := mapSet (fun _ => WchSt.initial) s.pow.wch (die.val * 32) { e with age := e.age + 1 } } }; reportErr (rsetB t ws 6 WCH_STAT 1 true) ws 0xC806 0)) ∧
    Acts (.watchTick die [] pins 32)
      (fun s => rbit s ws 6 WCH_GCTL 0 = true ∧ wchReg s die 0 WCH_PERIOD = 1 ∧ bits (wchReg s die 0 WCH_CTL) 1 2 = 2 ∧ (∀ n : Fin 32, rbit s ws 6 (wchBase n.val) 0 = decide (n = 0)) ∧ ∀ n : Fin 32, n ≠ 0 → rbit (sampled s) ws 6 (wchBase n.val) 0 = false)
      (fun s => sampled s) ∧
    (∀ s, domUsable s st dd.val = true → domGroup s st dd.val = [dd.val] → domState s st dd.val = dOFF →
      domState (domWake s st dd.val wkCmd) st dd.val = dWAKING) ∧
    (∀ s, domState s st dd.val = dON → domQuiet s st dd.val = false → domEnter s st dd.val ap.val = s) ∧
    (∀ s v, v < 16 → pkgState (setPkgState s v) = v) ∧
    (∀ s a, lostAt a = true → memGet (contentsLost s) a = 0) ∧
    (∀ s, pkgState s ≠ 7 → pkgState (thermalTrip s die) = 7)

/-- R576, R600, R602, R603, R613, R615.  The requests of the face that a reset completes, and its mailboxes, are those of `epReset`. -/
def Obligations.MailboxFaceAndCounterEvents : Prop :=
  ∀ (m : Fin 16) (ack freeze snap : Bool) (t : Nat),
    let ws := wsStop 0
    let es := portStop 0
    let n := m.val
    let base := 0x800 * m.val
    let stat := fun (s : State) => rfld s ws 1 (base + MB_STATUS) 0 2
    let put := fun (s : State) (v : Nat) => rputF s ws 1 (base + MB_STATUS) 0 2 v
    let overrun := fun (s : State) => rsat (rsetB s ws 1 (base + MB_STATUS) 2 true) ws 1 (base + MB_CNT) 16 16 1
    let queued := fun (s : State) => { put s 1 with ws := { (put s 1).ws with order := s.ws.order ++ [n] } }
    Acts (.pmAction)
      (fun s => s.pm.cmd = none)
      (fun s => s) ∧
    Acts (.pmAction)
      (fun s => s.pm.cmd = some (freeze, snap, t) ∧ tbNow s < t)
      (fun s => s) ∧
    Acts (.pmAction)
      (fun s => s.pm.cmd = some (freeze, snap, t) ∧ t ≤ tbNow s)
      (fun s => (let u := rput s ws 7 PM_GSTAT (setB (setB (rget s ws 7 PM_GSTAT) 0 freeze) 1 false); let v := if snap then pmSnap u t else u; { v with pm := { v.pm with cmd := none } })) ∧
    Acts (.hotReset)
      (fun s => epStrapped s = false ∨ rbit s es 6 EP_STAT 0 = false)
      (fun s => s) ∧
    Acts (.hotReset)
      (fun s => epStrapped s = true ∧ rbit s es 6 EP_STAT 0 = true)
      (fun s => rsetB (epReset (postedDown (rsetB s es 6 EP_STAT 0 false) 0 s.io.posted.length)) es 6 EP_STAT 8 true) ∧
    Acts (.flr)
      (fun s => epStrapped s = false ∨ rbit s es 6 EP_STAT 0 = false)
      (fun s => s) ∧
    Acts (.flr)
      (fun s => epStrapped s = true ∧ rbit s es 6 EP_STAT 0 = true)
      (fun s => rsetB (epIntx (epReset { s with io := { s.io with flr := true } })) es 6 EP_STAT 9 true) ∧
    Acts (.flrDone)
      (fun s => s.io.flr = true ∧ rbit s es 6 EP_STAT 0 = false)
      (fun s => { s with io := { s.io with flr := false } }) ∧
    Acts (.flrDone)
      (fun s => s.io.flr = false)
      (fun s => s) ∧
    Acts (.mbSubmit m ack)
      (fun s => stat s = 0 ∧ (mbClassR s n = false ∨ pkgState s = 0 ∨ pkgState s = 7))
      (fun s => queued s) ∧
    Acts (.mbSubmit m ack)
      (fun s => stat s = 0 ∧ mbClassR (queued s) n = true ∧ pkgState (queued s) ≠ 0 ∧ pkgState (queued s) ≠ 7)
      (fun s => pkgWake (rsetB (queued s) ws 1 (base + MB_STATUS) 3 true) 6 n) ∧
    Acts (.mbSubmit m ack)
      (fun s => stat s = 1)
      (fun s => overrun s) ∧
    Acts (.mbSubmit m false)
      (fun s => stat s = 2)
      (fun s => overrun s) ∧
    Acts (.mbSubmit m true)
      (fun s => stat s = 2)
      (fun s => mbSubmit (epIntx (put s 0)) n) ∧
    Acts (.mbAck m)
      (fun s => stat s = 2)
      (fun s => epIntx (put s 0)) ∧
    Acts (.mbAck m)
      (fun s => stat s ≠ 2)
      (fun s => s)  ∧
    (∀ s : State, epWire s = true ↔ (∃ j, 8 ≤ j ∧ j ≤ 11 ∧ mbState s j = 2 ∧ getB (mb s j MB_CTL) 16 = true) ∧ (epGet s 1).getLsbD 10 = false ∧
      rfld s es 6 EP_STAT 5 2 ≠ 3 ∧ rbit s es 6 EP_STAT 0 = true ∧ s.io.flr = false) ∧
    (∀ s : State, epIntx s = if rbit s es 6 EP_STAT 0 = true then rsetB s es 6 EP_STAT 4 (epWire s) else s)

/-- R556, R606, R608, R609, R611, R613, R622, R623, R625, R626.  The layouts of SPDM messages are the model's (log entry 14); bytes the spec leaves open are free. -/
def Obligations.WaystationEvents : Prop :=
  ∀ (m : Fin 28) (k : Fin 16) (peer eid : BitVec 8) (q data : List Byte) (static addr : BitVec 7) (sensor : BitVec 16) (a b : BitVec 32) (d : Fin 2) (owner : Bool) (r : MbRun),
    let ws := wsStop 0
    let say := fun (s : State) (x : List Byte) => { s with ws := { s.ws with sent := s.ws.sent ++ [[BitVec.ofNat 8 peer.toNat] ++ x] } }
    let conn := fun (s : State) (c v : Nat) => { s with ws := { s.ws with spdm := mapSet (fun _ => 0) s.ws.spdm c v } }
    let at3 := fun (s : State) (code : Nat) => pl q 1 1 = code ∧ 3 ≤ spdmState s 16
    let early := fun (s : State) (code need : Nat) => pl q 1 1 = code ∧ spdmState s 16 < need
    let unready := fun (s : State) => say s [5, 0x12, 0x7F, 4, 0]
    let here := fun (s : State) (n code : Nat) => mbNext s n = true ∧ mbOpcode s n = 0x0800 ∧ n ≠ 14 ∧ getF (mb s n 0) 16 16 ≤ 248 ∧ pl (mbPayload s n) 1 1 = code
    let begun := fun (s : State) (n : Nat) => (let v := spdmAnswer s n (mbPayload s n); { v.1 with ws := { v.1.ws with run := mapSet (fun _ => none) v.1.ws.run n (some ⟨0, v.2, false, tbNow v.1⟩) } })
    let pair := fun (s : State) => (activeDie s = 0 ∧ d = 1) ∨ (activeDie s ≠ 0 ∧ d = 0)
    let out := fun (s : State) (src : Nat) => reportErr s (wsStop d) src 0
    let took := fun (s : State) => (let u := tput (setStandby (rsetB s ws 3 WS_STAT 0 (!rbit s ws 3 WS_STAT 0)) 1) (.waystation d) Thread.initial; let v := rsat (rsetB u ws 3 WS_STAT 5 true) ws 3 WS_STAT 16 16 1; reportErr (addEvent v 4 (stopLocus (pkgNum s) (activeStop v)) 0x9005 true) (activeStop v) 0x9005 0)
    let alone := fun (s : State) => (let u := (List.range 14).foldl mbAbort s; wsStart ([24, 25, 26, 27].foldl (fun s j => if mbState s j = 1 then mbComplete s j 0xC [] else s) u) d)
    let free := fun (s : State) => (s.ws.run.any fun e => decide (mbPlace s e.1 = some (2 ^ 44)) && e.2.isSome) = false
    let pldm := fun (v : Served) => say v.s ([1, 5] ++ natLe 1 v.status)
    Acts (.commandComplete m)
      (fun s => mapGet (fun _ => none) s.ws.run m.val = some r ∧ r.status ≠ 0)
      (fun s => mbComplete s m.val r.status r.data) ∧
    Acts (.commandComplete m)
      (fun s => mapGet (fun _ => none) s.ws.run m.val = some r ∧ r.status = 0 ∧ mbBg s m.val = false ∧ (mbOpcode s m.val < 0x0200 ∨ 0x0700 ≤ mbOpcode s m.val))
      (fun s => mbComplete s m.val 0 r.data) ∧
    Acts (.commandComplete m)
      (fun s => mapGet (fun _ => none) s.ws.run m.val = none ∧ mbNext s m.val = true ∧ mbCat (mbOpcode s m.val) = none)
      (fun s => mbComplete s m.val 1 []) ∧
    Acts (.commandComplete m)
      (fun s => mapGet (fun _ => none) s.ws.run m.val = none ∧ mbState s m.val ≠ 1)
      (fun s => s) ∧
    Acts (.spdm k)
      (fun s => mbNext s k.val = true ∧ mbOpcode s k.val = 0x0800 ∧ k ≠ 14 ∧ getF (mb s k.val 0) 16 16 ≤ 248)
      (fun s => begun s k.val) ∧
    Acts (.getVersion ⟨k.val, by omega⟩ peer q)
      (fun s => here s k.val 0x84)
      (fun s => begun s k.val) ∧
    Acts (.getVersion 16 peer q)
      (fun s => pl q 1 1 ≠ 0x84)
      (fun s => s) ∧
    Acts (.getCapabilities ⟨k.val, by omega⟩ peer q)
      (fun s => here s k.val 0xe1)
      (fun s => begun s k.val) ∧
    Acts (.getCapabilities 16 peer q)
      (fun s => pl q 1 1 ≠ 0xe1)
      (fun s => s) ∧
    Acts (.negotiateAlgorithms ⟨k.val, by omega⟩ peer q)
      (fun s => here s k.val 0xe3)
      (fun s => begun s k.val) ∧
    Acts (.negotiateAlgorithms 16 peer q)
      (fun s => pl q 1 1 ≠ 0xe3)
      (fun s => s) ∧
    Acts (.getDigests ⟨k.val, by omega⟩ peer q)
      (fun s => here s k.val 0x81)
      (fun s => begun s k.val) ∧
    Acts (.getDigests 16 peer q)
      (fun s => pl q 1 1 ≠ 0x81)
      (fun s => s) ∧
    Acts (.getCertificate ⟨k.val, by omega⟩ peer q)
      (fun s => here s k.val 0x82)
      (fun s => begun s k.val) ∧
    Acts (.getCertificate 16 peer q)
      (fun s => pl q 1 1 ≠ 0x82)
      (fun s => s) ∧
    Acts (.challenge ⟨k.val, by omega⟩ peer q)
      (fun s => here s k.val 0x83)
      (fun s => begun s k.val) ∧
    Acts (.challenge 16 peer q)
      (fun s => pl q 1 1 ≠ 0x83)
      (fun s => s) ∧
    Acts (.getMeasurements ⟨k.val, by omega⟩ peer q)
      (fun s => here s k.val 0xe0)
      (fun s => begun s k.val) ∧
    Acts (.getMeasurements 16 peer q)
      (fun s => pl q 1 1 ≠ 0xe0)
      (fun s => s) ∧
    Acts (.getVersion 16 peer q)
      (fun s => pl q 1 1 = 0x84)
      (fun s => say (conn s 16 1) [5, 0x10, 4, 0, 0, 0, 1, 0x00, 0x12]) ∧
    Acts (.getCapabilities 16 peer q)
      (fun s => early s 0xE1 1)
      (fun s => unready s) ∧
    Acts (.getCapabilities 16 peer q)
      (fun s => pl q 1 1 = 0xE1 ∧ 1 ≤ spdmState s 16)
      (fun s => (let f := freeBytes s 1; say (conn f.1 16 2) ([5, 0x12, 0x61, 0, 0, 0] ++ f.2 ++ [0, 0, 0x16, 0, 0, 0, 248, 0, 0, 0, 248, 0, 0, 0]))) ∧
    Acts (.negotiateAlgorithms 16 peer q)
      (fun s => early s 0xE3 2)
      (fun s => unready s) ∧
    Acts (.negotiateAlgorithms 16 peer q)
      (fun s => pl q 1 1 = 0xE3 ∧ 2 ≤ spdmState s 16)
      (fun s => say (conn s 16 3) ([5, 0x12, 0x63, 0, 0, 36, 0, 1, 0, 4, 0, 0, 0, 0x80, 0, 0, 0, 2, 0, 0, 0] ++ List.replicate 16 0)) ∧
    Acts (.getDigests 16 peer q)
      (fun s => early s 0x81 3)
      (fun s => unready s) ∧
    Acts (.getDigests 16 peer q)
      (fun s => at3 s 0x81)
      (fun s => say s ([5, 0x12, 1, 0, 1] ++ Config.sha384 s.ws.flash.chain)) ∧
    Acts (.getCertificate 16 peer q)
      (fun s => early s 0x82 3)
      (fun s => unready s) ∧
    Acts (.getCertificate 16 peer q)
      (fun s => at3 s 0x82 ∧ (pl q 2 1 ≠ 0 ∨ s.ws.flash.chain.length ≤ pl q 4 2))
      (fun s => say s [5, 0x12, 0x7F, 1, 0]) ∧
    Acts (.getCertificate 16 peer q)
      (fun s => at3 s 0x82 ∧ pl q 2 1 = 0 ∧ pl q 4 2 < s.ws.flash.chain.length)
      (fun s => (let x := (s.ws.flash.chain.drop (pl q 4 2)).take (min (pl q 6 2) 240); say s ([5, 0x12, 2, 0, 0] ++ natLe 2 x.length ++ natLe 2 (s.ws.flash.chain.length - pl q 4 2 - x.length) ++ x))) ∧
    Acts (.challenge 16 peer q)
      (fun s => early s 0x83 3)
      (fun s => unready s) ∧
    Acts (.challenge 16 peer q)
      (fun s => at3 s 0x83 ∧ pl q 2 1 ≠ 0)
      (fun s => say s [5, 0x12, 0x7F, 1, 0]) ∧
    Acts (.challenge 16 peer q)
      (fun s => at3 s 0x83 ∧ pl q 2 1 = 0 ∧ pl q 3 1 = 0)
      (fun s => (let f := freeBytes s 32; let u := [1, 2, 3, 4, 5, 6].foldl (fun s i => (measureBlock s i).1) f.1; let g := freeBytes u 96; say g.1 ([5, 0x12, 3, 0, 1] ++ Config.sha384 s.ws.flash.chain ++ f.2 ++ [0, 0] ++ g.2))) ∧
    Acts (.getMeasurements 16 peer q)
      (fun s => early s 0xE0 3)
      (fun s => unready s) ∧
    Acts (.getMeasurements 16 peer q)
      (fun s => at3 s 0xE0 ∧ 6 < pl q 3 1)
      (fun s => say s [5, 0x12, 0x7F, (if pl q 3 1 = 0xFF then 0xD else 1), 0]) ∧
    Acts (.getMeasurements 16 peer q)
      (fun s => at3 s 0xE0 ∧ pl q 3 1 = 0 ∧ bit (pl q 2 1) 0 = false)
      (fun s => (let f := freeBytes s 32; say f.1 ([5, 0x12, 0x60, 6, 0, 0, 0, 0, 0] ++ f.2 ++ [0, 0]))) ∧
    Acts (.getMeasurements 16 peer q)
      (fun s => at3 s 0xE0 ∧ 1 ≤ pl q 3 1 ∧ pl q 3 1 ≤ 6 ∧ bit (pl q 2 1) 0 = false)
      (fun s => (let x := measureBlock s (pl q 3 1); let f := freeBytes x.1 32; say f.1 ([5, 0x12, 0x60, 0, 0, 1] ++ natLe 3 x.2.length ++ x.2 ++ f.2 ++ [0, 0]))) ∧
    Acts (.entdaa addr)
      (fun s => True)
      (fun s => { s with ws := { s.ws with addr := addr.toNat } }) ∧
    Acts (.setdasa static addr)
      (fun s => static.toNat = 0x58 + rfld s ws 3 STRAP 3 2)
      (fun s => { s with ws := { s.ws with addr := addr.toNat } }) ∧
    Acts (.setdasa static addr)
      (fun s => static.toNat ≠ 0x58 + rfld s ws 3 STRAP 3 2)
      (fun s => s) ∧
    Acts (.setEndpointId peer eid)
      (fun s => eid = 0 ∨ eid = 0xFF)
      (fun s => say s [0, 1, 2]) ∧
    Acts (.setEndpointId peer eid)
      (fun s => eid ≠ 0 ∧ eid ≠ 0xFF)
      (fun s => say { s with ws := { s.ws with eid := eid.toNat } } ([0, 1, 0, 0] ++ natLe 1 eid.toNat ++ [0])) ∧
    Acts (.getEndpointId peer)
      (fun s => True)
      (fun s => say s ([0, 2, 0] ++ natLe 1 s.ws.eid ++ [0, 0])) ∧
    Acts (.getMctpVersionSupport peer)
      (fun s => True)
      (fun s => (let f := freeBytes s 4; say f.1 ([0, 4, 0, 1] ++ f.2))) ∧
    Acts (.getMessageTypeSupport peer)
      (fun s => True)
      (fun s => say s [0, 5, 0, 4, 0x00, 0x01, 0x05, 0x7E]) ∧
    Acts (.pldmMonitoring peer sensor)
      (fun s => sensor = 1)
      (fun s => say s ([1, 2, 0] ++ natLe 2 (rfld s ws 4 THERM_STAT 0 8))) ∧
    Acts (.pldmMonitoring peer sensor)
      (fun s => sensor = 2)
      (fun s => say s ([1, 2, 0] ++ natLe 2 (rfld s (wsStop 1) 4 THERM_STAT 0 8))) ∧
    Acts (.pldmMonitoring peer sensor)
      (fun s => sensor = 9)
      (fun s => say s ([1, 2, 0] ++ natLe 2 (rfld s ws 4 PKG_PWR_EST 0 10))) ∧
    Acts (.pldmMonitoring peer sensor)
      (fun s => sensor = 10)
      (fun s => say s ([1, 2, 0] ++ natLe 2 (rfld s ws 4 PKG_PWR_LIMIT 0 10))) ∧
    Acts (.pldmMonitoring peer sensor)
      (fun s => sensor = 20)
      (fun s => say s ([1, 2, 0] ++ natLe 2 (pkgState s))) ∧
    Acts (.pldmMonitoring peer sensor)
      (fun s => sensor = 0 ∨ (10 < sensor.toNat ∧ sensor ≠ 20))
      (fun s => say s [1, 2, 0x80]) ∧
    Acts (.pldmFirmwareUpdate peer 0 a b data)
      (fun s => free s)
      (fun s => pldm (fwuBegin s a.toNat b.toNat)) ∧
    Acts (.pldmFirmwareUpdate peer 1 a b data)
      (fun s => free s)
      (fun s => pldm (fwuData s a.toNat data)) ∧
    Acts (.pldmFirmwareUpdate peer 2 a b data)
      (fun s => free s)
      (fun s => pldm (fwuVerify s)) ∧
    Acts (.pldmFirmwareUpdate peer 3 a b data)
      (fun s => free s)
      (fun s => pldm (fwuActivate s a.toNat)) ∧
    Acts (.pldmFirmwareUpdate peer 4 a b data)
      (fun s => free s)
      (fun s => say { s with ws := { s.ws with fwu := ⟨0, 0, 0, []⟩ } } [1, 5, 0]) ∧
    Acts (.pldmFirmwareUpdate peer 4 a b data)
      (fun s => (s.ws.run.any fun e => decide (mbPlace s e.1 = some (2 ^ 44)) && e.2.isSome) = true)
      (fun s => say s [1, 5, 5]) ∧
    Acts (.pldmBase peer)
      (fun s => True)
      (fun s => say s [1, 0, 0, 0x25]) ∧
    Acts (.vendorDefined owner peer data)
      (fun s => mbState s (if owner then 12 else 13) ≠ 0)
      (fun s => say s ([0x7E, 5, 0, 0, 0] ++ (data.drop 4).take 4)) ∧
    Acts (.vendorDefined owner peer data)
      (fun s => mbState s (if owner then 12 else 13) = 0)
      (fun s => (let j := if owner then 12 else 13; let u := (List.range 64).foldl (fun s i => rput s ws 1 (0x800 * j + 4 * i) (BitVec.ofNat 32 (pl data (4 * i) 4))) s; mbDoorbell { u with ws := { u.ws with peer := mapSet (fun _ => 0) u.ws.peer j peer.toNat } } j 1)) ∧
    Acts (.lockstepHalt d)
      (fun s => bootStep s < 3)
      (fun s => s) ∧
    Acts (.lockstepHalt d)
      (fun s => 3 ≤ bootStep s ∧ activeDie s = d.val ∧ standby (out s 0x9003) = 2 ∧ activeDie (out s 0x9003) = d.val)
      (fun s => took (out s 0x9003)) ∧
    Acts (.lockstepHalt d)
      (fun s => 3 ≤ bootStep s ∧ activeDie s = d.val ∧ standby (out s 0x9003) ≠ 2 ∧ activeDie (out s 0x9003) = d.val)
      (fun s => alone (out s 0x9003)) ∧
    Acts (.lockstepHalt d)
      (fun s => 3 ≤ bootStep s ∧ activeDie s ≠ d.val ∧ standby s ≠ 2)
      (fun s => out s 0x9003) ∧
    Acts (.lockstepHalt d)
      (fun s => 3 ≤ bootStep s ∧ activeDie s ≠ d.val ∧ standby s = 2)
      (fun s => tput (setStandby (out s 0x9003) 1) (.waystation d) Thread.initial) ∧
    Acts (.watchdogExpire d)
      (fun s => bootStep s < 3)
      (fun s => s) ∧
    Acts (.watchdogExpire d)
      (fun s => 3 ≤ bootStep s)
      (fun s => pairHalt (rputF s (wsStop d) 3 WS_WDOG_LEFT 0 16 0) d 0x9004) ∧
    Acts (.wsWdogKick)
      (fun s => activeDie s = d.val)
      (fun s => rputF s (wsStop d) 3 WS_WDOG_LEFT 0 16 (rfld s (wsStop d) 3 WS_WDOG_CTL 0 16)) ∧
    Acts (.standbySelftestDone true)
      (fun s => standby s = 1 ∧ pair s)
      (fun s => wsStart (setStandby s 2) d) ∧
    Acts (.standbySelftestDone false)
      (fun s => standby s = 1 ∧ pair s)
      (fun s => addEvent (reportErr (setStandby s 3) (wsStop d) 0x9006 0) 6 (stopLocus (pkgNum s) (wsStop d)) 0x9006 true) ∧
    Acts (.standbySelftestDone owner)
      (fun s => standby s ≠ 1)
      (fun s => s)  ∧
    (∀ (j : Fin 6) (s : State), exec (.pldmMonitoring peer (BitVec.ofNat 16 (3 + j.val))) s = .next (say s ([1, 2, 0] ++ natLe 2 (rfld s (stkStop j) 6 STK_TEMP 0 8))))

/-- R46, R296, R311, R323, R424, R429, R430, R458, R463, R465, R508, R520, R549, R550, R616, R618 to R622, R640.  Bits of a mailbox's side: N 1, S 2, E 4, P 8. -/
def Obligations.MailboxCommands : Prop :=
  ∀ (m : Fin 28) (late : Bool) (straps : BitVec 6) (st : Stop) (d c : Fin 2) (k : Fin 6) (n : Fin 16),
    let ws := wsStop 0
    let f := fun (s : State) (i n : Nat) => pl (mbPayload s m.val) i n
    let w := mbWorld m.val
    let asked := fun (s : State) (op side len : Nat) => mbNext s m.val = true ∧ mbOpcode s m.val = op ∧ side &&& mbSide m.val ≠ 0 ∧ getF (mb s m.val 0) 16 16 = len ∧ mbBusyPlace s m.val = false
    let ends := fun (s : State) (code : Nat) (x : List Byte) (bg : Bool) => { s with ws := { s.ws with run := mapSet (fun _ => none) s.ws.run m.val (some ⟨code, x, bg, tbNow s⟩) } }
    let ok := fun (s : State) (x : List Byte) => ends s 0 x false
    let later := fun (s : State) => ends s 0 [] true
    let bad := fun (s : State) (code : Nat) => ends s code [] false
    let names := fun (s : State) (kd : Kind) => namedStop s (f s 0 2) kd = some st
    let flash := fun (s : State) (g : Flash) => { s with ws := { s.ws with flash := g } }
    let repaired := fun (s : State) (x : Nat × Nat × Nat) => flash s { s.ws.flash with repairs := s.ws.flash.repairs ++ [x] }
    let stacked := fun (s : State) => bit s.pkg.stackSet (chanOf st c).1 = true
    let sec := fun (s : State) => rbit s ws 11 WA_OR_SEC n.val
    let orow := fun (s : State) => f s 0 1 = n.val ∧ (w = .secure ∨ sec s = false)
    Acts (.getInfo m)
      (fun s => asked s 0x0100 15 0)
      (fun s => ok s (natLe 4 (match wsImage s with | some i => i.version | none => 0) ++ [3, 0, 0, 0] ++ natLe 1 (rfld s ws 12 FUSE_CFG 8 8) ++ natLe 1 (pkgNum s) ++ natLe 1 s.pkg.members ++ natLe 1 (activeDie s) ++ natLe 8 (capWord s) ++ natLe 8 (rget64 s ws 12 ID_DIE_LO))) ∧
    Acts (.getTopology m)
      (fun s => asked s 0x0101 15 0)
      (fun s => (let tiles : List Stop := (List.finRange 2).flatMap fun d => [1, 2, 3, 4].flatMap fun y => (List.finRange 12).map fun x => (⟨d, y, x⟩ : Stop); ok s (natLe 4 (pkgTopo s) ++ natLe 4 (pkgMemmap s) ++ List.replicate 12 0xFF ++ packBits 2 (tiles.map fun x => tileMode s x) ++ [0xFF, 0xFF] ++ packBits 2 ((List.range 12).map fun j => portProto s j) ++ [0] ++ packBits 1 (tiles.map fun x => b2n (setHas s.pkg.retired (stopIdx x)))))) ∧
    Acts (.getNuma m)
      (fun s => asked s 0x0102 15 2 ∧ numaNodes s = [] )
      (fun s => ok s [0, 0, 0xFF, 0xFF]) ∧
    Acts (.getNuma m)
      (fun s => asked s 0x0102 15 2)
      (fun s => (let l := (numaNodes s).filter fun e => decide (f s 0 2 ≤ e.1); ok s (natLe 2 (min 12 l.length) ++ natLe 2 (match l.drop 12 with | e :: _ => e.1 | [] => 0xFFFF) ++ (l.take 12).flatMap fun e => natLe 2 e.1 ++ natLe 1 e.2.1 ++ natLe 1 e.2.2.1 ++ natLe 8 e.2.2.2.1 ++ natLe 4 e.2.2.2.2.1 ++ natLe 2 e.2.2.2.2.2 ++ [0, 0]))) ∧
    Acts (.getStatus m)
      (fun s => asked s 0x0103 15 0)
      (fun s => ok s (natLe 1 (pkgState s) ++ [0] ++ natLe 2 (rfld s ws 4 PKG_PWR_EST 0 10) ++ natLe 2 (rfld s ws 4 PKG_PWR_LIMIT 0 10) ++ natLe 1 (rfld s ws 4 THERM_STAT 0 8) ++ natLe 1 (rfld s (wsStop 1) 4 THERM_STAT 0 8) ++ natLe 2 (rfld s ws 10 LEDGER_STAT 16 16) ++ natLe 2 (rfld s (wsStop 1) 10 LEDGER_STAT 16 16) ++ natLe 4 (rget s ws 4 WAKE_LAST_SRC).toNat ++ natLe 8 (rget64 s ws 4 WAKE_LAST_TS_LO) ++ natLe 8 (tbNow s))) ∧
    Acts (.setPowerLimit m)
      (fun s => asked s 0x0200 11 2)
      (fun s => (let v := max 320 (min 500 (f s 0 2)); let u := rputF s ws 4 PKG_PWR_LIMIT 0 10 v; let x := rputF (rputF u ws 4 PKG_PWR_EST 16 6 (baseFreq v)) (wsStop 1) 4 PKG_PWR_EST 16 6 (baseFreq v); ok x (natLe 2 (rfld x ws 4 PKG_PWR_LIMIT 0 10) ++ natLe 1 (baseFreq (rfld x ws 4 PKG_PWR_LIMIT 0 10))))) ∧
    Acts (.enterCamp m late)
      (fun s => asked s 0x0201 3 2 ∧ mapGet (fun _ => none) s.ws.run m.val = none ∧ 1000 < f s 0 2)
      (fun s => bad s 3) ∧
    Acts (.enterCamp m late)
      (fun s => asked s 0x0201 3 2 ∧ mapGet (fun _ => none) s.ws.run m.val = none ∧ f s 0 2 ≤ 1000 ∧ mayCamp s w = true ∧ otherClassR s m.val = false)
      (fun s => ends (pkgEnter s false) 0 [1] true) ∧
    Acts (.enterCamp m late)
      (fun s => asked s 0x0201 3 2 ∧ mapGet (fun _ => none) s.ws.run m.val = none ∧ f s 0 2 ≤ 1000 ∧ (mayCamp s w = false ∨ otherClassR s m.val = true) ∧ (late = true ∨ f s 0 2 = 0))
      (fun s => ends s 6 (natLe 2 (entryBlocker s false)) false) ∧
    Acts (.enterCamp m late)
      (fun s => asked s 0x0201 3 2 ∧ mapGet (fun _ => none) s.ws.run m.val = none ∧ f s 0 2 ≤ 1000 ∧ (mayCamp s w = false ∨ otherClassR s m.val = true) ∧ late = false ∧ f s 0 2 ≠ 0)
      (fun s => later s) ∧
    Acts (.enterDormant m late)
      (fun s => asked s 0x0202 3 2 ∧ mapGet (fun _ => none) s.ws.run m.val = none ∧ 1000 < f s 0 2)
      (fun s => bad s 3) ∧
    Acts (.enterDormant m late)
      (fun s => asked s 0x0202 3 2 ∧ mapGet (fun _ => none) s.ws.run m.val = none ∧ f s 0 2 ≤ 1000 ∧ mayDormant s w = true ∧ otherClassR s m.val = false)
      (fun s => ends (pkgEnter s true) 0 [1] true) ∧
    Acts (.enterDormant m late)
      (fun s => asked s 0x0202 3 2 ∧ mapGet (fun _ => none) s.ws.run m.val = none ∧ f s 0 2 ≤ 1000 ∧ (mayDormant s w = false ∨ otherClassR s m.val = true) ∧ (late = true ∨ f s 0 2 = 0))
      (fun s => ends s 6 (natLe 2 (entryBlocker s true)) false) ∧
    Acts (.setWatch m)
      (fun s => asked s 0x0203 3 2 ∧ f s 0 1 = d.val ∧ f s 1 1 ≤ 1)
      (fun s => ok (rsetB s (wsStop d) 6 WCH_GCTL 0 (decide (f s 1 1 = 1))) []) ∧
    Acts (.setWatch m)
      (fun s => asked s 0x0203 3 2 ∧ (1 < f s 0 1 ∨ 1 < f s 1 1))
      (fun s => bad s 3) ∧
    Acts (.reset m false straps)
      (fun s => asked s 0x0204 11 5 ∧ (2 < f s 0 1 ∨ f s 1 1 ≠ 0))
      (fun s => bad s 3) ∧
    Acts (.reset m false straps)
      (fun s => asked s 0x0204 11 5 ∧ f s 0 1 < 2 ∧ f s 1 1 = 0 ∧ mbSide m.val &&& 10 ≠ 0)
      (fun s => ok { s with ws := { s.ws with reset := some (f s 0 1, 0, 0) } } []) ∧
    Acts (.reset m false straps)
      (fun s => asked s 0x0204 11 5 ∧ f s 0 1 < 2 ∧ f s 1 1 = 0 ∧ mbSide m.val &&& 10 = 0)
      (fun s => bad s 4) ∧
    Acts (.reset m false straps)
      (fun s => asked s 0x0204 11 5 ∧ f s 0 1 = 2 ∧ f s 1 1 = 0 ∧ mbSide m.val &&& 3 ≠ 0 ∧ stopOfLocus (pkgNum s) (f s 2 2) = some st ∧ f s 4 1 ≠ 15 ∧ domExists st (f s 4 1) = true ∧ (domSecure s st (f s 4 1) = false ∨ w = .secure))
      (fun s => ok { s with ws := { s.ws with reset := some (2, stopIdx st, f s 4 1) } } []) ∧
    Acts (.reset m true straps)
      (fun s => mapGet (fun _ => none) s.ws.run m.val = none ∧ s.ws.reset = some (0, 0, 0) ∧ pkgState s ≠ 7)
      (fun s => warmTrigger { s with ws := { s.ws with reset := none } } 2) ∧
    Acts (.reset m true straps)
      (fun s => mapGet (fun _ => none) s.ws.run m.val = none ∧ s.ws.reset = some (1, 0, 0) ∧ pkgState s ≠ 7)
      (fun s => powerGood (coldClear { s with ws := { s.ws with reset := none } } 6 true) straps none) ∧
    Acts (.reset m true straps)
      (fun s => mapGet (fun _ => none) s.ws.run m.val = none ∧ s.ws.reset = some (2, stopIdx st, 2) ∧ stopOf (stopIdx st) = some st ∧ pkgState s ≠ 7)
      (fun s => setCause (domainReset { s with ws := { s.ws with reset := none } } st 2) 5) ∧
    Acts (.reset m true straps)
      (fun s => mapGet (fun _ => none) s.ws.run m.val = none ∧ s.ws.reset = none)
      (fun s => s) ∧
    Acts (.retireSlice m)
      (fun s => asked s 0x0300 3 2 ∧ names s .tile ∧ (domSecure s st 2 = false ∨ w = .secure) ∧ setHas s.pkg.retired (stopIdx st) = false ∧ mayRetire s st = true)
      (fun s => later (retireSlice s st)) ∧
    Acts (.retireSlice m)
      (fun s => asked s 0x0300 3 2 ∧ names s .tile ∧ (domSecure s st 2 = false ∨ w = .secure) ∧ setHas s.pkg.retired (stopIdx st) = false ∧ mayRetire s st = false)
      (fun s => ends s 6 (natLe 2 (f s 0 2)) false) ∧
    Acts (.retireSlice m)
      (fun s => asked s 0x0300 3 2 ∧ namedStop s (f s 0 2) .tile = none ∧ (locusNamesPlace (f s 0 2) = false ∨ f s 0 2 / 16384 = pkgNum s))
      (fun s => bad s 3) ∧
    Acts (.retireSlice m)
      (fun s => asked s 0x0300 3 2 ∧ locusNamesPlace (f s 0 2) = true ∧ f s 0 2 / 16384 ≠ pkgNum s)
      (fun s => bad s 7) ∧
    Acts (.reenableWays m)
      (fun s => asked s 0x0301 3 6 ∧ names s .tile ∧ f s 2 1 = 2 ∧ f s 3 1 = 0 ∧ f s 4 2 < 2 ^ 12 ∧ (domSecure s st 2 = false ∨ w = .secure))
      (fun s => (let u := reenableL3 s st (f s 4 2); ok u (natLe 2 (rfld u st 5 L3_WAY_FAILED 0 16)))) ∧
    Acts (.reenableWays m)
      (fun s => asked s 0x0301 3 6 ∧ names s .tile ∧ f s 2 1 = c.val ∧ f s 3 1 = 0 ∧ f s 4 2 < 2 ^ 16 ∧ (domSecure s st c.val = false ∨ w = .secure))
      (fun s => (let u := reenable s st (3 + c.val) L2_WAY_FAILED L2_WAY_CECNT 16 (f s 4 2); ok u (natLe 2 (rfld u st (3 + c.val) L2_WAY_FAILED 0 16)))) ∧
    Acts (.reenableWays m)
      (fun s => asked s 0x0301 3 6 ∧ names s .tile ∧ f s 2 1 = 3 + c.val ∧ f s 3 1 = 0 ∧ f s 4 2 < 2 ^ 8 ∧ (domSecure s st c.val = false ∨ w = .secure))
      (fun s => (let u := reenable s st (3 + c.val) L1D_WAY_FAILED L1D_WAY_CECNT 8 (f s 4 2); ok u (natLe 2 (rfld u st (3 + c.val) L1D_WAY_FAILED 0 16)))) ∧
    Acts (.reviveLink m)
      (fun s => asked s 0x0302 3 5 ∧ (2 < f s 0 1 ∨ f s 1 1 ≠ 0))
      (fun s => bad s 3) ∧
    Acts (.reviveLink m)
      (fun s => asked s 0x0302 3 5 ∧ f s 0 1 = 0 ∧ f s 1 1 = 0 ∧ stopOfLocus (pkgNum s) (f s 2 2) = some st ∧ f s 4 1 = 2 ∧ linkState s (.mesh st 1) = 2)
      (fun s => later (reviveLink s (.mesh st 1))) ∧
    Acts (.reviveLink m)
      (fun s => asked s 0x0302 3 5 ∧ f s 0 1 = 0 ∧ f s 1 1 = 0 ∧ stopOfLocus (pkgNum s) (f s 2 2) = some st ∧ f s 4 1 = 2 ∧ linkState s (.mesh st 1) ≠ 2)
      (fun s => ends s 6 (natLe 2 (f s 2 2)) false) ∧
    Acts (.laneRemap m)
      (fun s => asked s 0x0303 3 5 ∧ names s .memory ∧ f s 2 1 = c.val ∧ f s 3 1 < 2 ∧ f s 4 1 < 72 ∧ stacked s ∧ (w = .secure ∨ domSecure s st c.val = false) ∧ rbit s st (phyBlk c) PHY_STAT 4 = false ∧ rbit s st (phyBlk c) PHY_REMAP (8 * laneHalf (f s 3 1) (f s 4 1) + 7) = false)
      (fun s => (let v := f s 4 1 + 128 * f s 3 1; ok (repaired (remapCommand s st c (v + 256)) (0, chanNum st c, f s 3 1 * 128 + f s 4 1)) [])) ∧
    Acts (.laneRemap m)
      (fun s => asked s 0x0303 3 5 ∧ names s .memory ∧ f s 2 1 = c.val ∧ f s 3 1 < 2 ∧ f s 4 1 < 72 ∧ bit s.pkg.stackSet (chanOf st c).1 = false)
      (fun s => bad s 7) ∧
    Acts (.spareRow m)
      (fun s => asked s 0x0304 3 8 ∧ names s .memory ∧ f s 2 1 = c.val ∧ f s 3 1 < 2 ∧ f s 4 1 < 3 ∧ f s 5 1 < 16 ∧ f s 6 2 < 2 ^ 15 ∧ stacked s ∧ (w = .secure ∨ domSecure s st c.val = false) ∧ sparingOf s st c = none ∧ spareUsed s st c (f s 3 1) < 64)
      (fun s => (let row := f s 6 2 + f s 5 1 * 2 ^ 15 + f s 4 1 * 2 ^ 19 + f s 3 1 * 2 ^ 21; ok (repaired (spareCommand (rput s st 5 (scrubOff c + SPARE_ROW) (BitVec.ofNat 32 row)) st c 1) (1, chanNum st c, row)) [])) ∧
    Acts (.spareRow m)
      (fun s => asked s 0x0304 3 8 ∧ names s .memory ∧ f s 2 1 = c.val ∧ f s 3 1 < 2 ∧ f s 4 1 < 3 ∧ f s 5 1 < 16 ∧ f s 6 2 < 2 ^ 15 ∧ stacked s ∧ (w = .secure ∨ domSecure s st c.val = false) ∧ sparingOf s st c = none ∧ 64 ≤ spareUsed s st c (f s 3 1))
      (fun s => (let row := f s 6 2 + f s 5 1 * 2 ^ 15 + f s 4 1 * 2 ^ 19 + f s 3 1 * 2 ^ 21; ends (spareCommand (rput s st 5 (scrubOff c + SPARE_ROW) (BitVec.ofNat 32 row)) st c 1) 6 (natLe 2 (f s 0 2)) false)) ∧
    Acts (.spareRow m)
      (fun s => asked s 0x0304 3 8 ∧ names s .memory ∧ f s 2 1 = c.val ∧ f s 3 1 < 2 ∧ f s 4 1 < 3 ∧ f s 5 1 < 16 ∧ f s 6 2 < 2 ^ 15 ∧ stacked s ∧ w = .normal ∧ domSecure s st c.val = true)
      (fun s => bad s 4) ∧
    Acts (.retrain m)
      (fun s => asked s 0x0305 3 2 ∧ f s 0 1 = k.val ∧ f s 1 1 = 0xFF ∧ bit s.pkg.stackSet k.val = true ∧ (w = .secure ∨ ((stackChans k).all fun e => !domSecure s e.1 e.2.val) = true) ∧ stkState s k = 2)
      (fun s => later (stkCommand s k 3 0)) ∧
    Acts (.retrain m)
      (fun s => asked s 0x0305 3 2 ∧ f s 0 1 = k.val ∧ f s 1 1 = 5 ∧ bit s.pkg.stackSet k.val = true ∧ (w = .secure ∨ ((stackChans k).all fun e => !domSecure s e.1 e.2.val) = true) ∧ stkState s k = 2)
      (fun s => later (stkCommand s k 4 5)) ∧
    Acts (.retrain m)
      (fun s => asked s 0x0305 3 2 ∧ f s 0 1 = k.val ∧ f s 1 1 = 0xFF ∧ bit s.pkg.stackSet k.val = true ∧ (w = .secure ∨ ((stackChans k).all fun e => !domSecure s e.1 e.2.val) = true) ∧ stkState s k ≠ 2)
      (fun s => ends s 6 (natLe 2 (stopLocus (pkgNum s) (stkStop k))) false) ∧
    Acts (.ledgerRead m)
      (fun s => asked s 0x0306 15 3 ∧ f s 0 1 = d.val ∧ f s 1 1 ≤ 31 ∧ 1 ≤ f s 2 1 ∧ f s 2 1 ≤ 7)
      (fun s => ok s (natLe 2 (rfld s (wsStop d) 10 LEDGER_STAT 16 16) ++ natLe 1 (f s 2 1) ++ [0] ++ natLe 4 (rget s (wsStop d) 10 LEDGER_LOST).toNat ++ (List.range (f s 2 1)).flatMap fun j => ledgerBytes s d ((f s 1 1 + j) % 32) w)) ∧
    Acts (.ledgerClear m)
      (fun s => asked s 0x0307 2 1 ∧ f s 0 1 = d.val)
      (fun s => ok (ledgerClear s d) []) ∧
    Acts (.setTileMode m)
      (fun s => asked s 0x0400 3 3 ∧ names s .tile ∧ (f s 2 1 < 1 ∨ 3 < f s 2 1))
      (fun s => bad s 3) ∧
    Acts (.setTileMode m)
      (fun s => asked s 0x0400 3 3 ∧ names s .tile ∧ f s 2 1 = 1 ∧ (w = .secure ∨ domSecure s st 0 = false ∧ domSecure s st 1 = false) ∧ ((tileHarts st).all fun h => decide ((tget s h).run = .stopped) && (tget s h).startAt.isNone) = true ∧ tileMode s st ≤ 1)
      (fun s => ok (lockCmd (tileQuiesce s st) st 1) []) ∧
    Acts (.setTileMode m)
      (fun s => asked s 0x0400 3 3 ∧ names s .tile ∧ f s 2 1 = 1 ∧ (w = .secure ∨ domSecure s st 0 = false ∧ domSecure s st 1 = false) ∧ ((tileHarts st).all fun h => decide ((tget s h).run = .stopped) && (tget s h).startAt.isNone) = false)
      (fun s => ends s 6 (natLe 2 (tileBlocker s st)) false) ∧
    Acts (.getTileLock m)
      (fun s => asked s 0x0401 15 2 ∧ names s .tile)
      (fun s => ok s (natLe 4 (setF (rget s st 0 LOCK_STAT) 9 2 (winCount s st)).toNat ++ natLe 4 (rget s st 0 LOCK_CNT).toNat ++ natLe 4 (rget s st 0 LOCK_REC_MAX).toNat ++ natLe 4 (rget s st 0 LOCK_LAST).toNat)) ∧
    Acts (.setHbmMode m)
      (fun s => asked s 0x0500 3 1 ∧ f s 0 1 = 0)
      (fun s => ends (flash s { s.ws.flash with hbm := false }) 0 [0, 0] false) ∧
    Acts (.setHbmMode m)
      (fun s => asked s 0x0500 3 1 ∧ f s 0 1 = 1)
      (fun s => ends (flash s { s.ws.flash with hbm := true }) (if s.pkg.stackSet = 63 then 0 else 0xB) (if s.pkg.stackSet = 63 then [1, 1] else [1, 0]) false) ∧
    Acts (.setCxlWindow m)
      (fun s => asked s 0x0501 2 24 ∧ (11 < f s 0 1 ∨ 3 < f s 1 1 ∨ 5 < f s 2 1 ∨ 1 < f s 3 1))
      (fun s => bad s 3) ∧
    Acts (.setCxlWindow m)
      (fun s => asked s 0x0501 2 24 ∧ f s 0 1 ≤ 11 ∧ f s 1 1 ≤ 3 ∧ f s 2 1 ≤ 5 ∧ f s 3 1 ≤ 1 ∧ windowsOk ((s.ws.flash.cxl.filter fun g => decide (g.1 ≠ f s 0 1 * 4 + f s 1 1)) ++ [(f s 0 1 * 4 + f s 1 1, f s 2 1, decide (f s 3 1 = 1), f s 4 8, f s 12 4, f s 16 8)]) = true)
      (fun s => ok (flash s { s.ws.flash with cxl := (s.ws.flash.cxl.filter fun g => decide (g.1 ≠ f s 0 1 * 4 + f s 1 1)) ++ [(f s 0 1 * 4 + f s 1 1, f s 2 1, decide (f s 3 1 = 1), f s 4 8, f s 12 4, f s 16 8)] }) (natLe 1 (48 * pkgNum s + (f s 0 1 * 4 + f s 1 1)))) ∧
    Acts (.getCxlWindows m)
      (fun s => asked s 0x0502 15 1 ∧ (∀ j : Fin 12, portProto s j.val ≠ 1))
      (fun s => ok s [0, 0xFF]) ∧
    Acts (.orLoad m)
      (fun s => asked s 0x0600 3 76 ∧ 16 ≤ f s 0 1)
      (fun s => bad s 3) ∧
    Acts (.orLoad m)
      (fun s => asked s 0x0600 3 76 ∧ f s 0 1 = n.val ∧ (3 < f s 1 1 ∨ f s 2 2 ≠ 0 ∨ f s 8 4 % 8 ≠ 0 ∨ 0x80000 < f s 4 4 + f s 8 4 ∨ 2 ^ 52 ≤ f s 12 8))
      (fun s => bad s 3) ∧
    Acts (.orLoad m)
      (fun s => asked s 0x0600 3 76 ∧ f s 0 1 = n.val ∧ f s 1 1 ≤ 3 ∧ f s 2 2 = 0 ∧ f s 8 4 % 8 = 0 ∧ f s 4 4 + f s 8 4 ≤ 0x80000 ∧ f s 12 8 < 2 ^ 52 ∧ w = .secure ∧ (tget s (.outrider n)).run = .stopped ∧ Config.sha384 (memRead s (f s 12 8) (f s 8 4)) ≠ ((mbPayload s m.val).drop 28).take 48)
      (fun s => bad (clearResv (memWriteBytes s (tcmBase n.val + f s 4 4) (memRead s (f s 12 8) (f s 8 4))) none (tcmBase n.val + f s 4 4) (f s 8 4)) 9) ∧
    Acts (.orLoad m)
      (fun s => asked s 0x0600 3 76 ∧ f s 0 1 = n.val ∧ f s 1 1 = 0 ∧ f s 2 2 = 0 ∧ f s 8 4 % 8 = 0 ∧ f s 4 4 + f s 8 4 ≤ 0x80000 ∧ f s 12 8 < 2 ^ 52 ∧ w = .secure ∧ (tget s (.outrider n)).run = .stopped ∧ Config.sha384 (memRead s (f s 12 8) (f s 8 4)) = ((mbPayload s m.val).drop 28).take 48)
      (fun s => (let x := memRead s (f s 12 8) (f s 8 4); let u := measureExtend (clearResv (memWriteBytes s (tcmBase n.val + f s 4 4) x) none (tcmBase n.val + f s 4 4) (f s 8 4)) 5 x; later (rsetB (rput64 u (orRegs n).1 1 ((orRegs n).2 + OR_START_LO) (f s 20 8)) (orRegs n).1 1 ((orRegs n).2 + OR_CTL) 2 false))) ∧
    Acts (.orStop m)
      (fun s => asked s 0x0601 3 1 ∧ orow s)
      (fun s => ok (startStop s (.outrider n)) []) ∧
    Acts (.orStop m)
      (fun s => asked s 0x0601 3 1 ∧ f s 0 1 = n.val ∧ w = .normal ∧ sec s = true)
      (fun s => bad s 4) ∧
    Acts (.orStatus m)
      (fun s => asked s 0x0602 15 1 ∧ orow s)
      (fun s => (let v := freeBytes s 16; ok v.1 (natLe 4 (orStat s n).toNat ++ v.2))) ∧
    Acts (.orStatus m)
      (fun s => asked s 0x0602 15 1 ∧ 16 ≤ f s 0 1)
      (fun s => bad s 3) ∧
    Acts (.fwuBegin m)
      (fun s => asked s 0x0700 10 8 ∧ f s 1 3 = 0 ∧ f s 0 1 = 0 ∧ 0 < f s 4 4 ∧ f s 4 4 ≤ 0x800000 ∧ s.ws.fwu.stage = 0)
      (fun s => (let u := flash s (if wsSlot s = true then { s.ws.flash with slotA := [] } else { s.ws.flash with slotB := [] }); later { u with ws := { u.ws with fwu := ⟨1, 0, f s 4 4, []⟩ } })) ∧
    Acts (.fwuBegin m)
      (fun s => asked s 0x0700 10 8 ∧ f s 1 3 = 0 ∧ f s 0 1 = 1 ∧ 0 < f s 4 4 ∧ f s 4 4 ≤ 0x10000 ∧ s.ws.fwu.stage = 0)
      (fun s => (let u := flash s { s.ws.flash with backup := [] }; later { u with ws := { u.ws with fwu := ⟨1, 1, f s 4 4, []⟩ } })) ∧
    Acts (.fwuBegin m)
      (fun s => asked s 0x0700 10 8 ∧ f s 1 3 = 0 ∧ f s 0 1 ≤ 1 ∧ 0 < f s 4 4 ∧ f s 4 4 ≤ 0x10000 ∧ s.ws.fwu.stage ≠ 0)
      (fun s => bad s 0xD) ∧
    Acts (.fwuData m)
      (fun s => mbNext s m.val = true ∧ mbOpcode s m.val = 0x0701 ∧ 10 &&& mbSide m.val ≠ 0 ∧ getF (mb s m.val 0) 16 16 ≤ 248 ∧ mbBusyPlace s m.val = false ∧ 8 ≤ (mbPayload s m.val).length ∧ (mbPayload s m.val).length = 8 + f s 4 2 ∧ f s 4 2 ≤ 240 ∧ f s 6 2 = 0 ∧ s.ws.fwu.stage = 1 ∧ s.ws.fwu.comp = 1 ∧ f s 0 4 = s.ws.fwu.data.length ∧ f s 0 4 + f s 4 2 ≤ s.ws.fwu.len)
      (fun s => (let x := s.ws.fwu.data ++ (mbPayload s m.val).drop 8; let u := flash s { s.ws.flash with backup := x }; ok { u with ws := { u.ws with fwu := { s.ws.fwu with data := x } } } [])) ∧
    Acts (.fwuVerify m)
      (fun s => asked s 0x0702 10 0 ∧ s.ws.fwu.stage = 1 ∧ s.ws.fwu.data.length = s.ws.fwu.len ∧ s.ws.fwu.comp = 0 ∧ (slotImage s (!wsSlot s)).isSome = true)
      (fun s => ends { s with ws := { s.ws with fwu := { s.ws.fwu with stage := 2 } } } 0 (Config.sha384 s.ws.fwu.data) true) ∧
    Acts (.fwuVerify m)
      (fun s => asked s 0x0702 10 0 ∧ (s.ws.fwu.stage ≠ 1 ∨ s.ws.fwu.data.length ≠ s.ws.fwu.len))
      (fun s => bad s 0xD) ∧
    Acts (.fwuActivate m)
      (fun s => asked s 0x0703 10 1 ∧ f s 0 1 = 0 ∧ s.ws.fwu.stage = 2 ∧ s.ws.fwu.comp = 0)
      (fun s => (let u := flash s { s.ws.flash with slot := !wsSlot s }; later { u with ws := { u.ws with fwu := ⟨0, 0, 0, []⟩ } })) ∧
    Acts (.fwuActivate m)
      (fun s => asked s 0x0703 10 1 ∧ f s 0 1 ≤ 1 ∧ (f s 0 1 = 0 ∨ s.ws.fwu.comp ≠ 1) ∧ s.ws.fwu.stage ≠ 2)
      (fun s => bad s 0xD) ∧
    Acts (.fwuActivate m)
      (fun s => asked s 0x0703 10 1 ∧ f s 0 1 = 1 ∧ s.ws.fwu.comp = 0 ∧ s.ws.fwu.stage = 2 ∧ rfld s ws 3 WS_STAT 1 2 ≠ 2)
      (fun s => ends s 6 [0xFF, 0xFF] false) ∧
    Acts (.fwuAbort m)
      (fun s => asked s 0x0704 10 0)
      (fun s => ok { s with ws := { s.ws with fwu := ⟨0, 0, 0, []⟩ } } []) ∧
    Acts (.fwuCommitSvn m)
      (fun s => asked s 0x0705 2 0)
      (fun s => (let v := max (rfld s ws 12 FUSE_CFG 8 8) (min (match wsImage s with | some i => i.svn | none => 0) 255); ok (rputF (rputF s ws 12 FUSE_CFG 8 8 v) (wsStop 1) 12 FUSE_CFG 8 8 v) (natLe 1 v))) ∧
    Acts (.debugToken m)
      (fun s => asked s 0x0801 15 240)
      (fun s => (let u := presentToken s (parseToken s (mbPayload s m.val)); let v := measureSet u 6 (natLe 4 (dbgReg u).toNat); ok v (natLe 1 (rfld v ws 12 DBG_TOK_STAT 0 3) ++ natLe 1 (getF (dbgReg v) 0 4) ++ natLe 8 (rget64 v ws 12 DBG_NONCE) ++ natLe 8 (rget64 v ws 12 (DBG_NONCE + 8))))) ∧
    Acts (.debugRevoke m)
      (fun s => asked s 0x0802 15 0)
      (fun s => (let v := measureSet (dbgRevoke s) 6 (natLe 4 (dbgReg (dbgRevoke s)).toNat); ok v (natLe 1 (getF (dbgReg v) 0 4)))) ∧
    Acts (.getSensors m)
      (fun s => asked s 0x0900 15 0)
      (fun s => (let v := freeBytes s 1; ok v.1 (([(0 : Fin 2), 1].flatMap fun d => (List.range 6).flatMap fun b => natLe 1 (rfld s (wsStop d) 5 (bandBase b + BAND_STAT) 16 8)) ++ ((List.finRange 6).flatMap fun j => natLe 1 (rfld s (stkStop j) 6 STK_TEMP 0 8)) ++ natLe 2 (rfld s ws 4 PKG_PWR_EST 0 10) ++ v.2))) ∧
    Acts (.getHealth m)
      (fun s => asked s 0x0901 15 0)
      (fun s => ok s ((healthCounts s).flatMap fun v => natLe 2 (min v 65535))) ∧
    Acts (.getEvents m)
      (fun s => asked s 0x0902 15 4 ∧ s.ws.events = [])
      (fun s => ok s (natLe 4 s.ws.evNext ++ [0])) ∧
    Acts (.getEvents m)
      (fun s => asked s 0x0902 15 4)
      (fun s => (let l := (s.ws.events.zipIdx.map fun e => (s.ws.evNext - s.ws.events.length + e.2, e.1)).filter fun e => decide (f s 0 4 ≤ e.1) && (decide (w = .secure) || !e.2.secure); ok s (natLe 4 (match l.drop 14 with | e :: _ => e.1 | [] => s.ws.evNext) ++ natLe 1 (min 14 l.length) ++ (l.take 14).flatMap fun e => natLe 8 e.2.tb ++ natLe 2 e.2.kind ++ natLe 2 e.2.locus ++ natLe 2 e.2.source ++ natLe 2 (e.1 % 65536))))  ∧
    (∀ e ∈ ([(.getInfo m, 0x0100, 15, 0),
      (.getTopology m, 0x0101, 15, 0),
      (.getNuma m, 0x0102, 15, 2),
      (.getStatus m, 0x0103, 15, 0),
      (.setPowerLimit m, 0x0200, 11, 2),
      (.enterCamp m late, 0x0201, 3, 2),
      (.enterDormant m late, 0x0202, 3, 2),
      (.setWatch m, 0x0203, 3, 2),
      (.reset m false straps, 0x0204, 11, 5),
      (.retireSlice m, 0x0300, 3, 2),
      (.reenableWays m, 0x0301, 3, 6),
      (.reviveLink m, 0x0302, 3, 5),
      (.laneRemap m, 0x0303, 3, 5),
      (.spareRow m, 0x0304, 3, 8),
      (.retrain m, 0x0305, 3, 2),
      (.ledgerRead m, 0x0306, 15, 3),
      (.ledgerClear m, 0x0307, 2, 1),
      (.setTileMode m, 0x0400, 3, 3),
      (.getTileLock m, 0x0401, 15, 2),
      (.setHbmMode m, 0x0500, 3, 1),
      (.setCxlWindow m, 0x0501, 2, 24),
      (.getCxlWindows m, 0x0502, 15, 1),
      (.orLoad m, 0x0600, 3, 76),
      (.orStop m, 0x0601, 3, 1),
      (.orStatus m, 0x0602, 15, 1),
      (.fwuBegin m, 0x0700, 10, 8),
      (.fwuVerify m, 0x0702, 10, 0),
      (.fwuActivate m, 0x0703, 10, 1),
      (.fwuAbort m, 0x0704, 10, 0),
      (.fwuCommitSvn m, 0x0705, 2, 0),
      (.debugToken m, 0x0801, 15, 240),
      (.debugRevoke m, 0x0802, 15, 0),
      (.getSensors m, 0x0900, 15, 0),
      (.getHealth m, 0x0901, 15, 0),
      (.getEvents m, 0x0902, 15, 4)] : List (Instr × Nat × Nat × Nat)), ∀ s : State, mapGet (fun _ => none) s.ws.run m.val = none →
      ((mbNext s m.val = false ∨ mbOpcode s m.val ≠ e.2.1) → exec e.1 s = .next s) ∧
      (mbNext s m.val = true → mbOpcode s m.val = e.2.1 → e.2.2.1 &&& mbSide m.val = 0 → exec e.1 s = .next (bad s 4)) ∧
      (mbNext s m.val = true → mbOpcode s m.val = e.2.1 → e.2.2.1 &&& mbSide m.val ≠ 0 → getF (mb s m.val 0) 16 16 ≠ e.2.2.2 →
        exec e.1 s = .next (bad s 2)) ∧
      (mbNext s m.val = true → mbOpcode s m.val = e.2.1 → e.2.2.1 &&& mbSide m.val ≠ 0 → getF (mb s m.val 0) 16 16 = e.2.2.2 → mbBusyPlace s m.val = true → exec e.1 s = .next (bad s 5)))

/-- Commands wait first in, first out. -/
def Obligations.StepRunsFrontCommand : Prop :=
  ∀ (c : Instr) (r : List Instr) (s : State),
    step { s with pending := c :: r } = exec c { s with pending := r } ∧
    (s.pending = c :: r → step s = exec c { s with pending := r })

/-- R118, R119 and R125 say what a tick does; that an empty queue is one tick, and that a load that has fallen behind is passed over, are the model's choices, log entries 8 and 87. -/
def Obligations.IdleStepTicks : Prop :=
  ∀ s : State, s.pending = [] →
    ∃ t : TbSt, step s = .next { s with tbase := t } ∧
      match s.tbase.load with
      | some (l, v) => if l ≤ (s.tbase.tb + 1).toNat then t = { s.tbase with tb := BitVec.ofNat 64 (max v (s.tbase.tb + 1).toNat), load := none } else t = { s.tbase with tb := s.tbase.tb + 1 }
      | none => t = { s.tbase with tb := s.tbase.tb + 1 }

/-- R119, R129, R208, R303, R559.  That unwritten memory reads zero is the model's choice, log entry 5; nothing is queued by the form of a block. -/
def Obligations.ResetLeaves : Prop :=
  let s := State.reset
  MemInv s ∧ s.pending = [] ∧ s.tbase.tb = 0 ∧ (∀ k, pmGet s k = 0) ∧ (∀ a, memGet s a = 0 ∧ poisoned s a 1 = false) ∧
  (∀ h : Hart, let t := tget s h
    t.run = .stopped ∧ t.level = .m ∧ t.world = .secure ∧ t.im = true ∧ t.pend = [] ∧ t.resv = none ∧ t.stores = [] ∧
    (∀ r : Reg, xget t r = 0) ∧ pget t 0 = true ∧ (∀ r : PReg, r ≠ 0 → pget t r = false) ∧ (∀ r : Reg, vget t r = 0) ∧
    (∀ r : PReg, r ≠ 0 → mget t r = 0) ∧ sbit t snTR_CTL 0 = false) ∧
  (∀ st ∈ [(⟨0, 1, 3⟩ : Stop), ⟨1, 4, 11⟩], ∀ blk ∈ [1, 2, 3, 4, 5], rbit s st blk BLOCK_CTL 0 = false)

/-- For every command and every state.  Memory of R32, as log entry 5 lays it out: addresses strictly rising, no entry that equals what an unlisted address reads as. -/
def Obligations.StepKeepsMemoryCanonical : Prop :=
  ∀ s s' : State, MemInv s → step s = .next s' → MemInv s'
end

