-- ==== Sys2Proof/Laws/Maps.lean ====
section
/-!
SUPPORT. Laws of sparse data by key: a read after a write, and the canonical form.
-/

namespace Sys2Proof.Machine

variable {α : Type}

theorem mapGet_erase_same (d : Nat → α) (m : SMap α) (k : Nat) : mapGet d (mapErase m k) k = d k := by
  induction m with
  | nil => rfl
  | cons e r ih =>
    obtain ⟨j, v⟩ := e
    by_cases h : j = k <;> simp [mapErase, h, mapGet, ih]

theorem mapGet_erase_other (d : Nat → α) (m : SMap α) {k j : Nat} (h : j ≠ k) :
    mapGet d (mapErase m k) j = mapGet d m j := by
  induction m with
  | nil => rfl
  | cons e r ih =>
    obtain ⟨i, v⟩ := e
    by_cases hi : i = k
    · subst hi; simp [mapErase, mapGet, ih, Ne.symm h]
    · simp [mapErase, hi, mapGet, ih]

theorem mapGet_insert_same (d : Nat → α) (m : SMap α) (k : Nat) (v : α) : mapGet d (mapInsert m k v) k = v := by
  induction m with
  | nil => simp [mapInsert, mapGet]
  | cons e r ih =>
    obtain ⟨j, u⟩ := e
    unfold mapInsert
    split
    · simp [mapGet]
    · split
      · simp [mapGet]
      · simp [mapGet, *]

theorem mapGet_insert_other (d : Nat → α) (m : SMap α) {k j : Nat} (v : α) (h : j ≠ k) :
    mapGet d (mapInsert m k v) j = mapGet d m j := by
  induction m with
  | nil => simp [mapInsert, mapGet, Ne.symm h]
  | cons e r ih =>
    obtain ⟨i, u⟩ := e
    unfold mapInsert
    split
    · simp [mapGet, Ne.symm h]
    · split
      · subst_vars; simp [mapGet, Ne.symm h]
      · simp [mapGet, ih]

/-- A read of a key of a map whose values a function changes. -/
theorem mapGet_map (d : Nat → α) (g : Nat → α → α) (m : SMap α) (k : Nat) (hd : g k (d k) = d k) :
    mapGet d (m.map fun e => (e.1, g e.1 e.2)) k = g k (mapGet d m k) := by
  induction m with
  | nil => simp [mapGet, hd]
  | cons e r ih =>
    obtain ⟨j, v⟩ := e
    by_cases h : j = k
    · subst h; simp [mapGet]
    · simp [mapGet, h, ih]

variable [DecidableEq α]

theorem mapSet_eq (d : Nat → α) (m : SMap α) (k : Nat) (v : α) :
    mapSet d m k v = if mapGet d m k = v then m else if v = d k then mapErase m k else mapInsert m k v := by
  cases m with
  | nil =>
    unfold mapSet mapGet
    by_cases h : v = d k
    · simp [h]
    · simp [h, Ne.symm h, mapInsert]
  | cons e r => rfl

/-- Writing back what a key reads as changes nothing, whatever form the list has. -/
@[simp] theorem mapSet_mapGet (d : Nat → α) (m : SMap α) (k : Nat) : mapSet d m k (mapGet d m k) = m := by
  rw [mapSet_eq, if_pos rfl]

/-- A read of the key that was written gives the value written. -/
@[simp] theorem mapGet_set_same (d : Nat → α) (m : SMap α) (k : Nat) (v : α) : mapGet d (mapSet d m k v) k = v := by
  rw [mapSet_eq]
  split
  · assumption
  · split
    · subst_vars; exact mapGet_erase_same d m k
    · exact mapGet_insert_same d m k v

/-- A write leaves every other key alone. -/
theorem mapGet_set_other (d : Nat → α) (m : SMap α) {k j : Nat} (v : α) (h : j ≠ k) :
    mapGet d (mapSet d m k v) j = mapGet d m j := by
  rw [mapSet_eq]
  split
  · rfl
  · split
    · exact mapGet_erase_other d m h
    · exact mapGet_insert_other d m v h

/-- A read after a write. -/
theorem mapGet_set (d : Nat → α) (m : SMap α) (k j : Nat) (v : α) :
    mapGet d (mapSet d m k v) j = if j = k then v else mapGet d m j := by
  split
  · subst_vars; exact mapGet_set_same d m _ v
  · exact mapGet_set_other d m v ‹_›

/-! ## The canonical form -/

theorem mapWfFrom_mono (d : Nat → α) {lo lo' : Nat} (m : SMap α) (h : lo' ≤ lo) (hw : mapWfFrom d lo m = true) :
    mapWfFrom d lo' m = true := by
  cases m with
  | nil => rfl
  | cons e r =>
    simp only [mapWfFrom, Bool.and_eq_true, decide_eq_true_eq] at hw ⊢
    exact ⟨⟨by omega, hw.1.2⟩, hw.2⟩

theorem mapWfFrom_erase (d : Nat → α) (lo : Nat) (m : SMap α) (k : Nat) (hw : mapWfFrom d lo m = true) :
    mapWfFrom d lo (mapErase m k) = true := by
  induction m generalizing lo with
  | nil => rfl
  | cons e r ih =>
    obtain ⟨j, v⟩ := e
    simp only [mapWfFrom, Bool.and_eq_true, decide_eq_true_eq] at hw
    unfold mapErase
    split
    · exact mapWfFrom_mono d _ (by omega) (ih (j + 1) hw.2)
    · simp only [mapWfFrom, Bool.and_eq_true, decide_eq_true_eq]
      exact ⟨hw.1, ih (j + 1) hw.2⟩

theorem mapWfFrom_insert (d : Nat → α) (lo : Nat) (m : SMap α) (k : Nat) (v : α) (hk : lo ≤ k) (hv : v ≠ d k)
    (hw : mapWfFrom d lo m = true) : mapWfFrom d lo (mapInsert m k v) = true := by
  induction m generalizing lo with
  | nil => simp [mapInsert, mapWfFrom, hk, hv]
  | cons e r ih =>
    obtain ⟨j, u⟩ := e
    simp only [mapWfFrom, Bool.and_eq_true, decide_eq_true_eq] at hw
    unfold mapInsert
    split
    · simp only [mapWfFrom, Bool.and_eq_true, decide_eq_true_eq]
      exact ⟨⟨hk, hv⟩, ⟨by omega, hw.1.2⟩, hw.2⟩
    · split
      · subst_vars
        simp only [mapWfFrom, Bool.and_eq_true, decide_eq_true_eq]
        exact ⟨⟨hk, hv⟩, hw.2⟩
      · simp only [mapWfFrom, Bool.and_eq_true, decide_eq_true_eq]
        exact ⟨hw.1, ih (j + 1) (by omega) hw.2⟩

/-- A write keeps the canonical form. -/
theorem mapWf_set (d : Nat → α) (m : SMap α) (k : Nat) (v : α) (hw : mapWf d m = true) : mapWf d (mapSet d m k v) = true := by
  rw [mapSet_eq]
  split
  · exact hw
  · split
    · exact mapWfFrom_erase d 0 m k hw
    · exact mapWfFrom_insert d 0 m k v (Nat.zero_le k) ‹_› hw

theorem mapWfFrom_filter (d : Nat → α) (lo : Nat) (m : SMap α) (f : Nat × α → Bool) (hw : mapWfFrom d lo m = true) :
    mapWfFrom d lo (m.filter f) = true := by
  induction m generalizing lo with
  | nil => rfl
  | cons e r ih =>
    obtain ⟨j, v⟩ := e
    simp only [mapWfFrom, Bool.and_eq_true, decide_eq_true_eq] at hw
    by_cases hf : f (j, v) = true
    · rw [List.filter_cons_of_pos hf]
      simp only [mapWfFrom, Bool.and_eq_true, decide_eq_true_eq]
      exact ⟨hw.1, ih (j + 1) hw.2⟩
    · rw [List.filter_cons_of_neg (by simpa using hf)]
      exact mapWfFrom_mono d _ (by omega) (ih (j + 1) hw.2)

/-- Dropping entries keeps the canonical form. -/
theorem mapWf_filter (d : Nat → α) (m : SMap α) (f : Nat × α → Bool) (hw : mapWf d m = true) : mapWf d (m.filter f) = true :=
  mapWfFrom_filter d 0 m f hw

end Sys2Proof.Machine
end

