-- ==== Sys2Proof/Laws/State.lean ====
section
/-!
SUPPORT. Laws of the named updates of the state: the fields each leaves alone, and a read after a write.
-/

namespace Sys2Proof.Machine

/-! ## Fields that an update leaves alone -/

@[simp] theorem rput_pending (s : State) (st : Stop) (blk off : Nat) (v : Reg32) : (rput s st blk off v).pending = s.pending := rfl
@[simp] theorem rput_fresh (s : State) (st : Stop) (blk off : Nat) (v : Reg32) : (rput s st blk off v).fresh = s.fresh := rfl
@[simp] theorem rput_cpu (s : State) (st : Stop) (blk off : Nat) (v : Reg32) : (rput s st blk off v).cpu = s.cpu := rfl
@[simp] theorem rput_mem (s : State) (st : Stop) (blk off : Nat) (v : Reg32) : (rput s st blk off v).mem = s.mem := rfl
@[simp] theorem rput_pm (s : State) (st : Stop) (blk off : Nat) (v : Reg32) : (rput s st blk off v).pm = s.pm := rfl
@[simp] theorem rput_intr (s : State) (st : Stop) (blk off : Nat) (v : Reg32) : (rput s st blk off v).intr = s.intr := rfl
@[simp] theorem rput_err (s : State) (st : Stop) (blk off : Nat) (v : Reg32) : (rput s st blk off v).err = s.err := rfl
@[simp] theorem rput_pkg (s : State) (st : Stop) (blk off : Nat) (v : Reg32) : (rput s st blk off v).pkg = s.pkg := rfl
@[simp] theorem rput_tbase (s : State) (st : Stop) (blk off : Nat) (v : Reg32) : (rput s st blk off v).tbase = s.tbase := rfl
@[simp] theorem rput_wb (s : State) (st : Stop) (blk off : Nat) (v : Reg32) : (rput s st blk off v).wb = s.wb := rfl
@[simp] theorem rput_io (s : State) (st : Stop) (blk off : Nat) (v : Reg32) : (rput s st blk off v).io = s.io := rfl
@[simp] theorem rput_link (s : State) (st : Stop) (blk off : Nat) (v : Reg32) : (rput s st blk off v).link = s.link := rfl
@[simp] theorem rput_lock (s : State) (st : Stop) (blk off : Nat) (v : Reg32) : (rput s st blk off v).lock = s.lock := rfl
@[simp] theorem rput_cache (s : State) (st : Stop) (blk off : Nat) (v : Reg32) : (rput s st blk off v).cache = s.cache := rfl
@[simp] theorem rput_hbm (s : State) (st : Stop) (blk off : Nat) (v : Reg32) : (rput s st blk off v).hbm = s.hbm := rfl
@[simp] theorem rput_orr (s : State) (st : Stop) (blk off : Nat) (v : Reg32) : (rput s st blk off v).orr = s.orr := rfl
@[simp] theorem rput_iotu (s : State) (st : Stop) (blk off : Nat) (v : Reg32) : (rput s st blk off v).iotu = s.iotu := rfl
@[simp] theorem rput_pow (s : State) (st : Stop) (blk off : Nat) (v : Reg32) : (rput s st blk off v).pow = s.pow := rfl
@[simp] theorem rput_ws (s : State) (st : Stop) (blk off : Nat) (v : Reg32) : (rput s st blk off v).ws = s.ws := rfl

@[simp] theorem rputF_pending (s : State) (st : Stop) (blk off lo w v : Nat) : (rputF s st blk off lo w v).pending = s.pending := rfl
@[simp] theorem rputF_fresh (s : State) (st : Stop) (blk off lo w v : Nat) : (rputF s st blk off lo w v).fresh = s.fresh := rfl
@[simp] theorem rputF_cpu (s : State) (st : Stop) (blk off lo w v : Nat) : (rputF s st blk off lo w v).cpu = s.cpu := rfl
@[simp] theorem rputF_mem (s : State) (st : Stop) (blk off lo w v : Nat) : (rputF s st blk off lo w v).mem = s.mem := rfl
@[simp] theorem rputF_pm (s : State) (st : Stop) (blk off lo w v : Nat) : (rputF s st blk off lo w v).pm = s.pm := rfl
@[simp] theorem rputF_intr (s : State) (st : Stop) (blk off lo w v : Nat) : (rputF s st blk off lo w v).intr = s.intr := rfl
@[simp] theorem rputF_err (s : State) (st : Stop) (blk off lo w v : Nat) : (rputF s st blk off lo w v).err = s.err := rfl
@[simp] theorem rputF_pkg (s : State) (st : Stop) (blk off lo w v : Nat) : (rputF s st blk off lo w v).pkg = s.pkg := rfl
@[simp] theorem rputF_tbase (s : State) (st : Stop) (blk off lo w v : Nat) : (rputF s st blk off lo w v).tbase = s.tbase := rfl
@[simp] theorem rputF_wb (s : State) (st : Stop) (blk off lo w v : Nat) : (rputF s st blk off lo w v).wb = s.wb := rfl
@[simp] theorem rputF_io (s : State) (st : Stop) (blk off lo w v : Nat) : (rputF s st blk off lo w v).io = s.io := rfl
@[simp] theorem rputF_link (s : State) (st : Stop) (blk off lo w v : Nat) : (rputF s st blk off lo w v).link = s.link := rfl
@[simp] theorem rputF_lock (s : State) (st : Stop) (blk off lo w v : Nat) : (rputF s st blk off lo w v).lock = s.lock := rfl
@[simp] theorem rputF_cache (s : State) (st : Stop) (blk off lo w v : Nat) : (rputF s st blk off lo w v).cache = s.cache := rfl
@[simp] theorem rputF_hbm (s : State) (st : Stop) (blk off lo w v : Nat) : (rputF s st blk off lo w v).hbm = s.hbm := rfl
@[simp] theorem rputF_orr (s : State) (st : Stop) (blk off lo w v : Nat) : (rputF s st blk off lo w v).orr = s.orr := rfl
@[simp] theorem rputF_iotu (s : State) (st : Stop) (blk off lo w v : Nat) : (rputF s st blk off lo w v).iotu = s.iotu := rfl
@[simp] theorem rputF_pow (s : State) (st : Stop) (blk off lo w v : Nat) : (rputF s st blk off lo w v).pow = s.pow := rfl
@[simp] theorem rputF_ws (s : State) (st : Stop) (blk off lo w v : Nat) : (rputF s st blk off lo w v).ws = s.ws := rfl

@[simp] theorem rsetB_pending (s : State) (st : Stop) (blk off i : Nat) (b : Bool) : (rsetB s st blk off i b).pending = s.pending := rfl
@[simp] theorem rsetB_fresh (s : State) (st : Stop) (blk off i : Nat) (b : Bool) : (rsetB s st blk off i b).fresh = s.fresh := rfl
@[simp] theorem rsetB_cpu (s : State) (st : Stop) (blk off i : Nat) (b : Bool) : (rsetB s st blk off i b).cpu = s.cpu := rfl
@[simp] theorem rsetB_mem (s : State) (st : Stop) (blk off i : Nat) (b : Bool) : (rsetB s st blk off i b).mem = s.mem := rfl
@[simp] theorem rsetB_pm (s : State) (st : Stop) (blk off i : Nat) (b : Bool) : (rsetB s st blk off i b).pm = s.pm := rfl
@[simp] theorem rsetB_intr (s : State) (st : Stop) (blk off i : Nat) (b : Bool) : (rsetB s st blk off i b).intr = s.intr := rfl
@[simp] theorem rsetB_err (s : State) (st : Stop) (blk off i : Nat) (b : Bool) : (rsetB s st blk off i b).err = s.err := rfl
@[simp] theorem rsetB_pkg (s : State) (st : Stop) (blk off i : Nat) (b : Bool) : (rsetB s st blk off i b).pkg = s.pkg := rfl
@[simp] theorem rsetB_tbase (s : State) (st : Stop) (blk off i : Nat) (b : Bool) : (rsetB s st blk off i b).tbase = s.tbase := rfl
@[simp] theorem rsetB_wb (s : State) (st : Stop) (blk off i : Nat) (b : Bool) : (rsetB s st blk off i b).wb = s.wb := rfl
@[simp] theorem rsetB_io (s : State) (st : Stop) (blk off i : Nat) (b : Bool) : (rsetB s st blk off i b).io = s.io := rfl
@[simp] theorem rsetB_link (s : State) (st : Stop) (blk off i : Nat) (b : Bool) : (rsetB s st blk off i b).link = s.link := rfl
@[simp] theorem rsetB_lock (s : State) (st : Stop) (blk off i : Nat) (b : Bool) : (rsetB s st blk off i b).lock = s.lock := rfl
@[simp] theorem rsetB_cache (s : State) (st : Stop) (blk off i : Nat) (b : Bool) : (rsetB s st blk off i b).cache = s.cache := rfl
@[simp] theorem rsetB_hbm (s : State) (st : Stop) (blk off i : Nat) (b : Bool) : (rsetB s st blk off i b).hbm = s.hbm := rfl
@[simp] theorem rsetB_orr (s : State) (st : Stop) (blk off i : Nat) (b : Bool) : (rsetB s st blk off i b).orr = s.orr := rfl
@[simp] theorem rsetB_iotu (s : State) (st : Stop) (blk off i : Nat) (b : Bool) : (rsetB s st blk off i b).iotu = s.iotu := rfl
@[simp] theorem rsetB_pow (s : State) (st : Stop) (blk off i : Nat) (b : Bool) : (rsetB s st blk off i b).pow = s.pow := rfl
@[simp] theorem rsetB_ws (s : State) (st : Stop) (blk off i : Nat) (b : Bool) : (rsetB s st blk off i b).ws = s.ws := rfl

@[simp] theorem rsat_pending (s : State) (st : Stop) (blk off lo w n : Nat) : (rsat s st blk off lo w n).pending = s.pending := rfl
@[simp] theorem rsat_fresh (s : State) (st : Stop) (blk off lo w n : Nat) : (rsat s st blk off lo w n).fresh = s.fresh := rfl
@[simp] theorem rsat_cpu (s : State) (st : Stop) (blk off lo w n : Nat) : (rsat s st blk off lo w n).cpu = s.cpu := rfl
@[simp] theorem rsat_mem (s : State) (st : Stop) (blk off lo w n : Nat) : (rsat s st blk off lo w n).mem = s.mem := rfl
@[simp] theorem rsat_pm (s : State) (st : Stop) (blk off lo w n : Nat) : (rsat s st blk off lo w n).pm = s.pm := rfl
@[simp] theorem rsat_intr (s : State) (st : Stop) (blk off lo w n : Nat) : (rsat s st blk off lo w n).intr = s.intr := rfl
@[simp] theorem rsat_err (s : State) (st : Stop) (blk off lo w n : Nat) : (rsat s st blk off lo w n).err = s.err := rfl
@[simp] theorem rsat_pkg (s : State) (st : Stop) (blk off lo w n : Nat) : (rsat s st blk off lo w n).pkg = s.pkg := rfl
@[simp] theorem rsat_tbase (s : State) (st : Stop) (blk off lo w n : Nat) : (rsat s st blk off lo w n).tbase = s.tbase := rfl
@[simp] theorem rsat_wb (s : State) (st : Stop) (blk off lo w n : Nat) : (rsat s st blk off lo w n).wb = s.wb := rfl
@[simp] theorem rsat_io (s : State) (st : Stop) (blk off lo w n : Nat) : (rsat s st blk off lo w n).io = s.io := rfl
@[simp] theorem rsat_link (s : State) (st : Stop) (blk off lo w n : Nat) : (rsat s st blk off lo w n).link = s.link := rfl
@[simp] theorem rsat_lock (s : State) (st : Stop) (blk off lo w n : Nat) : (rsat s st blk off lo w n).lock = s.lock := rfl
@[simp] theorem rsat_cache (s : State) (st : Stop) (blk off lo w n : Nat) : (rsat s st blk off lo w n).cache = s.cache := rfl
@[simp] theorem rsat_hbm (s : State) (st : Stop) (blk off lo w n : Nat) : (rsat s st blk off lo w n).hbm = s.hbm := rfl
@[simp] theorem rsat_orr (s : State) (st : Stop) (blk off lo w n : Nat) : (rsat s st blk off lo w n).orr = s.orr := rfl
@[simp] theorem rsat_iotu (s : State) (st : Stop) (blk off lo w n : Nat) : (rsat s st blk off lo w n).iotu = s.iotu := rfl
@[simp] theorem rsat_pow (s : State) (st : Stop) (blk off lo w n : Nat) : (rsat s st blk off lo w n).pow = s.pow := rfl
@[simp] theorem rsat_ws (s : State) (st : Stop) (blk off lo w n : Nat) : (rsat s st blk off lo w n).ws = s.ws := rfl

@[simp] theorem rput64_pending (s : State) (st : Stop) (blk off v : Nat) : (rput64 s st blk off v).pending = s.pending := rfl
@[simp] theorem rput64_fresh (s : State) (st : Stop) (blk off v : Nat) : (rput64 s st blk off v).fresh = s.fresh := rfl
@[simp] theorem rput64_cpu (s : State) (st : Stop) (blk off v : Nat) : (rput64 s st blk off v).cpu = s.cpu := rfl
@[simp] theorem rput64_mem (s : State) (st : Stop) (blk off v : Nat) : (rput64 s st blk off v).mem = s.mem := rfl
@[simp] theorem rput64_pm (s : State) (st : Stop) (blk off v : Nat) : (rput64 s st blk off v).pm = s.pm := rfl
@[simp] theorem rput64_intr (s : State) (st : Stop) (blk off v : Nat) : (rput64 s st blk off v).intr = s.intr := rfl
@[simp] theorem rput64_err (s : State) (st : Stop) (blk off v : Nat) : (rput64 s st blk off v).err = s.err := rfl
@[simp] theorem rput64_pkg (s : State) (st : Stop) (blk off v : Nat) : (rput64 s st blk off v).pkg = s.pkg := rfl
@[simp] theorem rput64_tbase (s : State) (st : Stop) (blk off v : Nat) : (rput64 s st blk off v).tbase = s.tbase := rfl
@[simp] theorem rput64_wb (s : State) (st : Stop) (blk off v : Nat) : (rput64 s st blk off v).wb = s.wb := rfl
@[simp] theorem rput64_io (s : State) (st : Stop) (blk off v : Nat) : (rput64 s st blk off v).io = s.io := rfl
@[simp] theorem rput64_link (s : State) (st : Stop) (blk off v : Nat) : (rput64 s st blk off v).link = s.link := rfl
@[simp] theorem rput64_lock (s : State) (st : Stop) (blk off v : Nat) : (rput64 s st blk off v).lock = s.lock := rfl
@[simp] theorem rput64_cache (s : State) (st : Stop) (blk off v : Nat) : (rput64 s st blk off v).cache = s.cache := rfl
@[simp] theorem rput64_hbm (s : State) (st : Stop) (blk off v : Nat) : (rput64 s st blk off v).hbm = s.hbm := rfl
@[simp] theorem rput64_orr (s : State) (st : Stop) (blk off v : Nat) : (rput64 s st blk off v).orr = s.orr := rfl
@[simp] theorem rput64_iotu (s : State) (st : Stop) (blk off v : Nat) : (rput64 s st blk off v).iotu = s.iotu := rfl
@[simp] theorem rput64_pow (s : State) (st : Stop) (blk off v : Nat) : (rput64 s st blk off v).pow = s.pow := rfl
@[simp] theorem rput64_ws (s : State) (st : Stop) (blk off v : Nat) : (rput64 s st blk off v).ws = s.ws := rfl

@[simp] theorem useFree_pending (s : State) : (useFree s).pending = s.pending := rfl
@[simp] theorem useFree_reg (s : State) : (useFree s).reg = s.reg := rfl
@[simp] theorem useFree_cpu (s : State) : (useFree s).cpu = s.cpu := rfl
@[simp] theorem useFree_mem (s : State) : (useFree s).mem = s.mem := rfl
@[simp] theorem useFree_pm (s : State) : (useFree s).pm = s.pm := rfl
@[simp] theorem useFree_intr (s : State) : (useFree s).intr = s.intr := rfl
@[simp] theorem useFree_err (s : State) : (useFree s).err = s.err := rfl
@[simp] theorem useFree_pkg (s : State) : (useFree s).pkg = s.pkg := rfl
@[simp] theorem useFree_tbase (s : State) : (useFree s).tbase = s.tbase := rfl
@[simp] theorem useFree_wb (s : State) : (useFree s).wb = s.wb := rfl
@[simp] theorem useFree_io (s : State) : (useFree s).io = s.io := rfl
@[simp] theorem useFree_link (s : State) : (useFree s).link = s.link := rfl
@[simp] theorem useFree_lock (s : State) : (useFree s).lock = s.lock := rfl
@[simp] theorem useFree_cache (s : State) : (useFree s).cache = s.cache := rfl
@[simp] theorem useFree_hbm (s : State) : (useFree s).hbm = s.hbm := rfl
@[simp] theorem useFree_orr (s : State) : (useFree s).orr = s.orr := rfl
@[simp] theorem useFree_iotu (s : State) : (useFree s).iotu = s.iotu := rfl
@[simp] theorem useFree_pow (s : State) : (useFree s).pow = s.pow := rfl
@[simp] theorem useFree_ws (s : State) : (useFree s).ws = s.ws := rfl

@[simp] theorem addEvent_pending (s : State) (kind locus source : Nat) (secure : Bool) : (addEvent s kind locus source secure).pending = s.pending := rfl
@[simp] theorem addEvent_fresh (s : State) (kind locus source : Nat) (secure : Bool) : (addEvent s kind locus source secure).fresh = s.fresh := rfl
@[simp] theorem addEvent_reg (s : State) (kind locus source : Nat) (secure : Bool) : (addEvent s kind locus source secure).reg = s.reg := rfl
@[simp] theorem addEvent_cpu (s : State) (kind locus source : Nat) (secure : Bool) : (addEvent s kind locus source secure).cpu = s.cpu := rfl
@[simp] theorem addEvent_mem (s : State) (kind locus source : Nat) (secure : Bool) : (addEvent s kind locus source secure).mem = s.mem := rfl
@[simp] theorem addEvent_pm (s : State) (kind locus source : Nat) (secure : Bool) : (addEvent s kind locus source secure).pm = s.pm := rfl
@[simp] theorem addEvent_intr (s : State) (kind locus source : Nat) (secure : Bool) : (addEvent s kind locus source secure).intr = s.intr := rfl
@[simp] theorem addEvent_err (s : State) (kind locus source : Nat) (secure : Bool) : (addEvent s kind locus source secure).err = s.err := rfl
@[simp] theorem addEvent_pkg (s : State) (kind locus source : Nat) (secure : Bool) : (addEvent s kind locus source secure).pkg = s.pkg := rfl
@[simp] theorem addEvent_tbase (s : State) (kind locus source : Nat) (secure : Bool) : (addEvent s kind locus source secure).tbase = s.tbase := rfl
@[simp] theorem addEvent_wb (s : State) (kind locus source : Nat) (secure : Bool) : (addEvent s kind locus source secure).wb = s.wb := rfl
@[simp] theorem addEvent_io (s : State) (kind locus source : Nat) (secure : Bool) : (addEvent s kind locus source secure).io = s.io := rfl
@[simp] theorem addEvent_link (s : State) (kind locus source : Nat) (secure : Bool) : (addEvent s kind locus source secure).link = s.link := rfl
@[simp] theorem addEvent_lock (s : State) (kind locus source : Nat) (secure : Bool) : (addEvent s kind locus source secure).lock = s.lock := rfl
@[simp] theorem addEvent_cache (s : State) (kind locus source : Nat) (secure : Bool) : (addEvent s kind locus source secure).cache = s.cache := rfl
@[simp] theorem addEvent_hbm (s : State) (kind locus source : Nat) (secure : Bool) : (addEvent s kind locus source secure).hbm = s.hbm := rfl
@[simp] theorem addEvent_orr (s : State) (kind locus source : Nat) (secure : Bool) : (addEvent s kind locus source secure).orr = s.orr := rfl
@[simp] theorem addEvent_iotu (s : State) (kind locus source : Nat) (secure : Bool) : (addEvent s kind locus source secure).iotu = s.iotu := rfl
@[simp] theorem addEvent_pow (s : State) (kind locus source : Nat) (secure : Bool) : (addEvent s kind locus source secure).pow = s.pow := rfl

@[simp] theorem tput_pending (s : State) (h : Hart) (t : Thread) : (tput s h t).pending = s.pending := rfl
@[simp] theorem tput_fresh (s : State) (h : Hart) (t : Thread) : (tput s h t).fresh = s.fresh := rfl
@[simp] theorem tput_reg (s : State) (h : Hart) (t : Thread) : (tput s h t).reg = s.reg := rfl
@[simp] theorem tput_mem (s : State) (h : Hart) (t : Thread) : (tput s h t).mem = s.mem := rfl
@[simp] theorem tput_pm (s : State) (h : Hart) (t : Thread) : (tput s h t).pm = s.pm := rfl
@[simp] theorem tput_intr (s : State) (h : Hart) (t : Thread) : (tput s h t).intr = s.intr := rfl
@[simp] theorem tput_err (s : State) (h : Hart) (t : Thread) : (tput s h t).err = s.err := rfl
@[simp] theorem tput_pkg (s : State) (h : Hart) (t : Thread) : (tput s h t).pkg = s.pkg := rfl
@[simp] theorem tput_tbase (s : State) (h : Hart) (t : Thread) : (tput s h t).tbase = s.tbase := rfl
@[simp] theorem tput_wb (s : State) (h : Hart) (t : Thread) : (tput s h t).wb = s.wb := rfl
@[simp] theorem tput_io (s : State) (h : Hart) (t : Thread) : (tput s h t).io = s.io := rfl
@[simp] theorem tput_link (s : State) (h : Hart) (t : Thread) : (tput s h t).link = s.link := rfl
@[simp] theorem tput_lock (s : State) (h : Hart) (t : Thread) : (tput s h t).lock = s.lock := rfl
@[simp] theorem tput_cache (s : State) (h : Hart) (t : Thread) : (tput s h t).cache = s.cache := rfl
@[simp] theorem tput_hbm (s : State) (h : Hart) (t : Thread) : (tput s h t).hbm = s.hbm := rfl
@[simp] theorem tput_orr (s : State) (h : Hart) (t : Thread) : (tput s h t).orr = s.orr := rfl
@[simp] theorem tput_iotu (s : State) (h : Hart) (t : Thread) : (tput s h t).iotu = s.iotu := rfl
@[simp] theorem tput_pow (s : State) (h : Hart) (t : Thread) : (tput s h t).pow = s.pow := rfl
@[simp] theorem tput_ws (s : State) (h : Hart) (t : Thread) : (tput s h t).ws = s.ws := rfl

@[simp] theorem tmod_pending (s : State) (h : Hart) (f : Thread → Thread) : (tmod s h f).pending = s.pending := rfl
@[simp] theorem tmod_fresh (s : State) (h : Hart) (f : Thread → Thread) : (tmod s h f).fresh = s.fresh := rfl
@[simp] theorem tmod_reg (s : State) (h : Hart) (f : Thread → Thread) : (tmod s h f).reg = s.reg := rfl
@[simp] theorem tmod_mem (s : State) (h : Hart) (f : Thread → Thread) : (tmod s h f).mem = s.mem := rfl
@[simp] theorem tmod_pm (s : State) (h : Hart) (f : Thread → Thread) : (tmod s h f).pm = s.pm := rfl
@[simp] theorem tmod_intr (s : State) (h : Hart) (f : Thread → Thread) : (tmod s h f).intr = s.intr := rfl
@[simp] theorem tmod_err (s : State) (h : Hart) (f : Thread → Thread) : (tmod s h f).err = s.err := rfl
@[simp] theorem tmod_pkg (s : State) (h : Hart) (f : Thread → Thread) : (tmod s h f).pkg = s.pkg := rfl
@[simp] theorem tmod_tbase (s : State) (h : Hart) (f : Thread → Thread) : (tmod s h f).tbase = s.tbase := rfl
@[simp] theorem tmod_wb (s : State) (h : Hart) (f : Thread → Thread) : (tmod s h f).wb = s.wb := rfl
@[simp] theorem tmod_io (s : State) (h : Hart) (f : Thread → Thread) : (tmod s h f).io = s.io := rfl
@[simp] theorem tmod_link (s : State) (h : Hart) (f : Thread → Thread) : (tmod s h f).link = s.link := rfl
@[simp] theorem tmod_lock (s : State) (h : Hart) (f : Thread → Thread) : (tmod s h f).lock = s.lock := rfl
@[simp] theorem tmod_cache (s : State) (h : Hart) (f : Thread → Thread) : (tmod s h f).cache = s.cache := rfl
@[simp] theorem tmod_hbm (s : State) (h : Hart) (f : Thread → Thread) : (tmod s h f).hbm = s.hbm := rfl
@[simp] theorem tmod_orr (s : State) (h : Hart) (f : Thread → Thread) : (tmod s h f).orr = s.orr := rfl
@[simp] theorem tmod_iotu (s : State) (h : Hart) (f : Thread → Thread) : (tmod s h f).iotu = s.iotu := rfl
@[simp] theorem tmod_pow (s : State) (h : Hart) (f : Thread → Thread) : (tmod s h f).pow = s.pow := rfl
@[simp] theorem tmod_ws (s : State) (h : Hart) (f : Thread → Thread) : (tmod s h f).ws = s.ws := rfl

@[simp] theorem cput_pending (s : State) (k : Nat) (c : CoreSt) : (cput s k c).pending = s.pending := rfl
@[simp] theorem cput_fresh (s : State) (k : Nat) (c : CoreSt) : (cput s k c).fresh = s.fresh := rfl
@[simp] theorem cput_reg (s : State) (k : Nat) (c : CoreSt) : (cput s k c).reg = s.reg := rfl
@[simp] theorem cput_mem (s : State) (k : Nat) (c : CoreSt) : (cput s k c).mem = s.mem := rfl
@[simp] theorem cput_pm (s : State) (k : Nat) (c : CoreSt) : (cput s k c).pm = s.pm := rfl
@[simp] theorem cput_intr (s : State) (k : Nat) (c : CoreSt) : (cput s k c).intr = s.intr := rfl
@[simp] theorem cput_err (s : State) (k : Nat) (c : CoreSt) : (cput s k c).err = s.err := rfl
@[simp] theorem cput_pkg (s : State) (k : Nat) (c : CoreSt) : (cput s k c).pkg = s.pkg := rfl
@[simp] theorem cput_tbase (s : State) (k : Nat) (c : CoreSt) : (cput s k c).tbase = s.tbase := rfl
@[simp] theorem cput_wb (s : State) (k : Nat) (c : CoreSt) : (cput s k c).wb = s.wb := rfl
@[simp] theorem cput_io (s : State) (k : Nat) (c : CoreSt) : (cput s k c).io = s.io := rfl
@[simp] theorem cput_link (s : State) (k : Nat) (c : CoreSt) : (cput s k c).link = s.link := rfl
@[simp] theorem cput_lock (s : State) (k : Nat) (c : CoreSt) : (cput s k c).lock = s.lock := rfl
@[simp] theorem cput_cache (s : State) (k : Nat) (c : CoreSt) : (cput s k c).cache = s.cache := rfl
@[simp] theorem cput_hbm (s : State) (k : Nat) (c : CoreSt) : (cput s k c).hbm = s.hbm := rfl
@[simp] theorem cput_orr (s : State) (k : Nat) (c : CoreSt) : (cput s k c).orr = s.orr := rfl
@[simp] theorem cput_iotu (s : State) (k : Nat) (c : CoreSt) : (cput s k c).iotu = s.iotu := rfl
@[simp] theorem cput_pow (s : State) (k : Nat) (c : CoreSt) : (cput s k c).pow = s.pow := rfl
@[simp] theorem cput_ws (s : State) (k : Nat) (c : CoreSt) : (cput s k c).ws = s.ws := rfl

@[simp] theorem markPoison_pending (s : State) (a : Nat) : (markPoison s a).pending = s.pending := rfl
@[simp] theorem markPoison_fresh (s : State) (a : Nat) : (markPoison s a).fresh = s.fresh := rfl
@[simp] theorem markPoison_reg (s : State) (a : Nat) : (markPoison s a).reg = s.reg := rfl
@[simp] theorem markPoison_cpu (s : State) (a : Nat) : (markPoison s a).cpu = s.cpu := rfl
@[simp] theorem markPoison_pm (s : State) (a : Nat) : (markPoison s a).pm = s.pm := rfl
@[simp] theorem markPoison_intr (s : State) (a : Nat) : (markPoison s a).intr = s.intr := rfl
@[simp] theorem markPoison_err (s : State) (a : Nat) : (markPoison s a).err = s.err := rfl
@[simp] theorem markPoison_pkg (s : State) (a : Nat) : (markPoison s a).pkg = s.pkg := rfl
@[simp] theorem markPoison_tbase (s : State) (a : Nat) : (markPoison s a).tbase = s.tbase := rfl
@[simp] theorem markPoison_wb (s : State) (a : Nat) : (markPoison s a).wb = s.wb := rfl
@[simp] theorem markPoison_io (s : State) (a : Nat) : (markPoison s a).io = s.io := rfl
@[simp] theorem markPoison_link (s : State) (a : Nat) : (markPoison s a).link = s.link := rfl
@[simp] theorem markPoison_lock (s : State) (a : Nat) : (markPoison s a).lock = s.lock := rfl
@[simp] theorem markPoison_cache (s : State) (a : Nat) : (markPoison s a).cache = s.cache := rfl
@[simp] theorem markPoison_hbm (s : State) (a : Nat) : (markPoison s a).hbm = s.hbm := rfl
@[simp] theorem markPoison_orr (s : State) (a : Nat) : (markPoison s a).orr = s.orr := rfl
@[simp] theorem markPoison_iotu (s : State) (a : Nat) : (markPoison s a).iotu = s.iotu := rfl
@[simp] theorem markPoison_pow (s : State) (a : Nat) : (markPoison s a).pow = s.pow := rfl
@[simp] theorem markPoison_ws (s : State) (a : Nat) : (markPoison s a).ws = s.ws := rfl

@[simp] theorem memWriteBytes_pending (s : State) (a : Nat) (d : List Byte) : (memWriteBytes s a d).pending = s.pending := by
  induction d generalizing s a with
  | nil => rfl
  | cons b r ih => simp [memWriteBytes, ih]
@[simp] theorem memWriteBytes_fresh (s : State) (a : Nat) (d : List Byte) : (memWriteBytes s a d).fresh = s.fresh := by
  induction d generalizing s a with
  | nil => rfl
  | cons b r ih => simp [memWriteBytes, ih]
@[simp] theorem memWriteBytes_reg (s : State) (a : Nat) (d : List Byte) : (memWriteBytes s a d).reg = s.reg := by
  induction d generalizing s a with
  | nil => rfl
  | cons b r ih => simp [memWriteBytes, ih]
@[simp] theorem memWriteBytes_cpu (s : State) (a : Nat) (d : List Byte) : (memWriteBytes s a d).cpu = s.cpu := by
  induction d generalizing s a with
  | nil => rfl
  | cons b r ih => simp [memWriteBytes, ih]
@[simp] theorem memWriteBytes_pm (s : State) (a : Nat) (d : List Byte) : (memWriteBytes s a d).pm = s.pm := by
  induction d generalizing s a with
  | nil => rfl
  | cons b r ih => simp [memWriteBytes, ih]
@[simp] theorem memWriteBytes_intr (s : State) (a : Nat) (d : List Byte) : (memWriteBytes s a d).intr = s.intr := by
  induction d generalizing s a with
  | nil => rfl
  | cons b r ih => simp [memWriteBytes, ih]
@[simp] theorem memWriteBytes_err (s : State) (a : Nat) (d : List Byte) : (memWriteBytes s a d).err = s.err := by
  induction d generalizing s a with
  | nil => rfl
  | cons b r ih => simp [memWriteBytes, ih]
@[simp] theorem memWriteBytes_pkg (s : State) (a : Nat) (d : List Byte) : (memWriteBytes s a d).pkg = s.pkg := by
  induction d generalizing s a with
  | nil => rfl
  | cons b r ih => simp [memWriteBytes, ih]
@[simp] theorem memWriteBytes_tbase (s : State) (a : Nat) (d : List Byte) : (memWriteBytes s a d).tbase = s.tbase := by
  induction d generalizing s a with
  | nil => rfl
  | cons b r ih => simp [memWriteBytes, ih]
@[simp] theorem memWriteBytes_wb (s : State) (a : Nat) (d : List Byte) : (memWriteBytes s a d).wb = s.wb := by
  induction d generalizing s a with
  | nil => rfl
  | cons b r ih => simp [memWriteBytes, ih]
@[simp] theorem memWriteBytes_io (s : State) (a : Nat) (d : List Byte) : (memWriteBytes s a d).io = s.io := by
  induction d generalizing s a with
  | nil => rfl
  | cons b r ih => simp [memWriteBytes, ih]
@[simp] theorem memWriteBytes_link (s : State) (a : Nat) (d : List Byte) : (memWriteBytes s a d).link = s.link := by
  induction d generalizing s a with
  | nil => rfl
  | cons b r ih => simp [memWriteBytes, ih]
@[simp] theorem memWriteBytes_lock (s : State) (a : Nat) (d : List Byte) : (memWriteBytes s a d).lock = s.lock := by
  induction d generalizing s a with
  | nil => rfl
  | cons b r ih => simp [memWriteBytes, ih]
@[simp] theorem memWriteBytes_cache (s : State) (a : Nat) (d : List Byte) : (memWriteBytes s a d).cache = s.cache := by
  induction d generalizing s a with
  | nil => rfl
  | cons b r ih => simp [memWriteBytes, ih]
@[simp] theorem memWriteBytes_hbm (s : State) (a : Nat) (d : List Byte) : (memWriteBytes s a d).hbm = s.hbm := by
  induction d generalizing s a with
  | nil => rfl
  | cons b r ih => simp [memWriteBytes, ih]
@[simp] theorem memWriteBytes_orr (s : State) (a : Nat) (d : List Byte) : (memWriteBytes s a d).orr = s.orr := by
  induction d generalizing s a with
  | nil => rfl
  | cons b r ih => simp [memWriteBytes, ih]
@[simp] theorem memWriteBytes_iotu (s : State) (a : Nat) (d : List Byte) : (memWriteBytes s a d).iotu = s.iotu := by
  induction d generalizing s a with
  | nil => rfl
  | cons b r ih => simp [memWriteBytes, ih]
@[simp] theorem memWriteBytes_pow (s : State) (a : Nat) (d : List Byte) : (memWriteBytes s a d).pow = s.pow := by
  induction d generalizing s a with
  | nil => rfl
  | cons b r ih => simp [memWriteBytes, ih]
@[simp] theorem memWriteBytes_ws (s : State) (a : Nat) (d : List Byte) : (memWriteBytes s a d).ws = s.ws := by
  induction d generalizing s a with
  | nil => rfl
  | cons b r ih => simp [memWriteBytes, ih]

@[simp] theorem memStore_pending (s : State) (a : Nat) (d : List Byte) : (memStore s a d).pending = s.pending := by
  simp [memStore]
@[simp] theorem memStore_fresh (s : State) (a : Nat) (d : List Byte) : (memStore s a d).fresh = s.fresh := by
  simp [memStore]
@[simp] theorem memStore_reg (s : State) (a : Nat) (d : List Byte) : (memStore s a d).reg = s.reg := by
  simp [memStore]
@[simp] theorem memStore_cpu (s : State) (a : Nat) (d : List Byte) : (memStore s a d).cpu = s.cpu := by
  simp [memStore]
@[simp] theorem memStore_pm (s : State) (a : Nat) (d : List Byte) : (memStore s a d).pm = s.pm := by
  simp [memStore]
@[simp] theorem memStore_intr (s : State) (a : Nat) (d : List Byte) : (memStore s a d).intr = s.intr := by
  simp [memStore]
@[simp] theorem memStore_err (s : State) (a : Nat) (d : List Byte) : (memStore s a d).err = s.err := by
  simp [memStore]
@[simp] theorem memStore_pkg (s : State) (a : Nat) (d : List Byte) : (memStore s a d).pkg = s.pkg := by
  simp [memStore]
@[simp] theorem memStore_tbase (s : State) (a : Nat) (d : List Byte) : (memStore s a d).tbase = s.tbase := by
  simp [memStore]
@[simp] theorem memStore_wb (s : State) (a : Nat) (d : List Byte) : (memStore s a d).wb = s.wb := by
  simp [memStore]
@[simp] theorem memStore_io (s : State) (a : Nat) (d : List Byte) : (memStore s a d).io = s.io := by
  simp [memStore]
@[simp] theorem memStore_link (s : State) (a : Nat) (d : List Byte) : (memStore s a d).link = s.link := by
  simp [memStore]
@[simp] theorem memStore_lock (s : State) (a : Nat) (d : List Byte) : (memStore s a d).lock = s.lock := by
  simp [memStore]
@[simp] theorem memStore_cache (s : State) (a : Nat) (d : List Byte) : (memStore s a d).cache = s.cache := by
  simp [memStore]
@[simp] theorem memStore_hbm (s : State) (a : Nat) (d : List Byte) : (memStore s a d).hbm = s.hbm := by
  simp [memStore]
@[simp] theorem memStore_orr (s : State) (a : Nat) (d : List Byte) : (memStore s a d).orr = s.orr := by
  simp [memStore]
@[simp] theorem memStore_iotu (s : State) (a : Nat) (d : List Byte) : (memStore s a d).iotu = s.iotu := by
  simp [memStore]
@[simp] theorem memStore_pow (s : State) (a : Nat) (d : List Byte) : (memStore s a d).pow = s.pow := by
  simp [memStore]
@[simp] theorem memStore_ws (s : State) (a : Nat) (d : List Byte) : (memStore s a d).ws = s.ws := by
  simp [memStore]

@[simp] theorem memZero_pending (s : State) (a n : Nat) : (memZero s a n).pending = s.pending := rfl
@[simp] theorem memZero_fresh (s : State) (a n : Nat) : (memZero s a n).fresh = s.fresh := rfl
@[simp] theorem memZero_reg (s : State) (a n : Nat) : (memZero s a n).reg = s.reg := rfl
@[simp] theorem memZero_cpu (s : State) (a n : Nat) : (memZero s a n).cpu = s.cpu := rfl
@[simp] theorem memZero_pm (s : State) (a n : Nat) : (memZero s a n).pm = s.pm := rfl
@[simp] theorem memZero_intr (s : State) (a n : Nat) : (memZero s a n).intr = s.intr := rfl
@[simp] theorem memZero_err (s : State) (a n : Nat) : (memZero s a n).err = s.err := rfl
@[simp] theorem memZero_pkg (s : State) (a n : Nat) : (memZero s a n).pkg = s.pkg := rfl
@[simp] theorem memZero_tbase (s : State) (a n : Nat) : (memZero s a n).tbase = s.tbase := rfl
@[simp] theorem memZero_wb (s : State) (a n : Nat) : (memZero s a n).wb = s.wb := rfl
@[simp] theorem memZero_io (s : State) (a n : Nat) : (memZero s a n).io = s.io := rfl
@[simp] theorem memZero_link (s : State) (a n : Nat) : (memZero s a n).link = s.link := rfl
@[simp] theorem memZero_lock (s : State) (a n : Nat) : (memZero s a n).lock = s.lock := rfl
@[simp] theorem memZero_cache (s : State) (a n : Nat) : (memZero s a n).cache = s.cache := rfl
@[simp] theorem memZero_hbm (s : State) (a n : Nat) : (memZero s a n).hbm = s.hbm := rfl
@[simp] theorem memZero_orr (s : State) (a n : Nat) : (memZero s a n).orr = s.orr := rfl
@[simp] theorem memZero_iotu (s : State) (a n : Nat) : (memZero s a n).iotu = s.iotu := rfl
@[simp] theorem memZero_pow (s : State) (a n : Nat) : (memZero s a n).pow = s.pow := rfl
@[simp] theorem memZero_ws (s : State) (a n : Nat) : (memZero s a n).ws = s.ws := rfl

@[simp] theorem clearResv_pending (s : State) (me : Option Hart) (a n : Nat) : (clearResv s me a n).pending = s.pending := rfl
@[simp] theorem clearResv_fresh (s : State) (me : Option Hart) (a n : Nat) : (clearResv s me a n).fresh = s.fresh := rfl
@[simp] theorem clearResv_reg (s : State) (me : Option Hart) (a n : Nat) : (clearResv s me a n).reg = s.reg := rfl
@[simp] theorem clearResv_mem (s : State) (me : Option Hart) (a n : Nat) : (clearResv s me a n).mem = s.mem := rfl
@[simp] theorem clearResv_pm (s : State) (me : Option Hart) (a n : Nat) : (clearResv s me a n).pm = s.pm := rfl
@[simp] theorem clearResv_intr (s : State) (me : Option Hart) (a n : Nat) : (clearResv s me a n).intr = s.intr := rfl
@[simp] theorem clearResv_err (s : State) (me : Option Hart) (a n : Nat) : (clearResv s me a n).err = s.err := rfl
@[simp] theorem clearResv_pkg (s : State) (me : Option Hart) (a n : Nat) : (clearResv s me a n).pkg = s.pkg := rfl
@[simp] theorem clearResv_tbase (s : State) (me : Option Hart) (a n : Nat) : (clearResv s me a n).tbase = s.tbase := rfl
@[simp] theorem clearResv_wb (s : State) (me : Option Hart) (a n : Nat) : (clearResv s me a n).wb = s.wb := rfl
@[simp] theorem clearResv_io (s : State) (me : Option Hart) (a n : Nat) : (clearResv s me a n).io = s.io := rfl
@[simp] theorem clearResv_link (s : State) (me : Option Hart) (a n : Nat) : (clearResv s me a n).link = s.link := rfl
@[simp] theorem clearResv_lock (s : State) (me : Option Hart) (a n : Nat) : (clearResv s me a n).lock = s.lock := rfl
@[simp] theorem clearResv_cache (s : State) (me : Option Hart) (a n : Nat) : (clearResv s me a n).cache = s.cache := rfl
@[simp] theorem clearResv_hbm (s : State) (me : Option Hart) (a n : Nat) : (clearResv s me a n).hbm = s.hbm := rfl
@[simp] theorem clearResv_iotu (s : State) (me : Option Hart) (a n : Nat) : (clearResv s me a n).iotu = s.iotu := rfl
@[simp] theorem clearResv_pow (s : State) (me : Option Hart) (a n : Nat) : (clearResv s me a n).pow = s.pow := rfl
@[simp] theorem clearResv_ws (s : State) (me : Option Hart) (a n : Nat) : (clearResv s me a n).ws = s.ws := rfl

@[simp] theorem agentWrite_pending (s : State) (me : Option Hart) (a : Nat) (d : List Byte) : (agentWrite s me a d).pending = s.pending := by
  simp [agentWrite]
@[simp] theorem agentWrite_fresh (s : State) (me : Option Hart) (a : Nat) (d : List Byte) : (agentWrite s me a d).fresh = s.fresh := by
  simp [agentWrite]
@[simp] theorem agentWrite_reg (s : State) (me : Option Hart) (a : Nat) (d : List Byte) : (agentWrite s me a d).reg = s.reg := by
  simp [agentWrite]
@[simp] theorem agentWrite_pm (s : State) (me : Option Hart) (a : Nat) (d : List Byte) : (agentWrite s me a d).pm = s.pm := by
  simp [agentWrite]
@[simp] theorem agentWrite_intr (s : State) (me : Option Hart) (a : Nat) (d : List Byte) : (agentWrite s me a d).intr = s.intr := by
  simp [agentWrite]
@[simp] theorem agentWrite_err (s : State) (me : Option Hart) (a : Nat) (d : List Byte) : (agentWrite s me a d).err = s.err := by
  simp [agentWrite]
@[simp] theorem agentWrite_pkg (s : State) (me : Option Hart) (a : Nat) (d : List Byte) : (agentWrite s me a d).pkg = s.pkg := by
  simp [agentWrite]
@[simp] theorem agentWrite_tbase (s : State) (me : Option Hart) (a : Nat) (d : List Byte) : (agentWrite s me a d).tbase = s.tbase := by
  simp [agentWrite]
@[simp] theorem agentWrite_wb (s : State) (me : Option Hart) (a : Nat) (d : List Byte) : (agentWrite s me a d).wb = s.wb := by
  simp [agentWrite]
@[simp] theorem agentWrite_io (s : State) (me : Option Hart) (a : Nat) (d : List Byte) : (agentWrite s me a d).io = s.io := by
  simp [agentWrite]
@[simp] theorem agentWrite_link (s : State) (me : Option Hart) (a : Nat) (d : List Byte) : (agentWrite s me a d).link = s.link := by
  simp [agentWrite]
@[simp] theorem agentWrite_lock (s : State) (me : Option Hart) (a : Nat) (d : List Byte) : (agentWrite s me a d).lock = s.lock := by
  simp [agentWrite]
@[simp] theorem agentWrite_cache (s : State) (me : Option Hart) (a : Nat) (d : List Byte) : (agentWrite s me a d).cache = s.cache := by
  simp [agentWrite]
@[simp] theorem agentWrite_hbm (s : State) (me : Option Hart) (a : Nat) (d : List Byte) : (agentWrite s me a d).hbm = s.hbm := by
  simp [agentWrite]
@[simp] theorem agentWrite_iotu (s : State) (me : Option Hart) (a : Nat) (d : List Byte) : (agentWrite s me a d).iotu = s.iotu := by
  simp [agentWrite]
@[simp] theorem agentWrite_pow (s : State) (me : Option Hart) (a : Nat) (d : List Byte) : (agentWrite s me a d).pow = s.pow := by
  simp [agentWrite]
@[simp] theorem agentWrite_ws (s : State) (me : Option Hart) (a : Nat) (d : List Byte) : (agentWrite s me a d).ws = s.ws := by
  simp [agentWrite]

@[simp] theorem setSrcCfg_pending (s : State) (st : Stop) (src : Nat) (v : Reg32) : (setSrcCfg s st src v).pending = s.pending := rfl
@[simp] theorem setSrcCfg_fresh (s : State) (st : Stop) (src : Nat) (v : Reg32) : (setSrcCfg s st src v).fresh = s.fresh := rfl
@[simp] theorem setSrcCfg_reg (s : State) (st : Stop) (src : Nat) (v : Reg32) : (setSrcCfg s st src v).reg = s.reg := rfl
@[simp] theorem setSrcCfg_cpu (s : State) (st : Stop) (src : Nat) (v : Reg32) : (setSrcCfg s st src v).cpu = s.cpu := rfl
@[simp] theorem setSrcCfg_mem (s : State) (st : Stop) (src : Nat) (v : Reg32) : (setSrcCfg s st src v).mem = s.mem := rfl
@[simp] theorem setSrcCfg_pm (s : State) (st : Stop) (src : Nat) (v : Reg32) : (setSrcCfg s st src v).pm = s.pm := rfl
@[simp] theorem setSrcCfg_intr (s : State) (st : Stop) (src : Nat) (v : Reg32) : (setSrcCfg s st src v).intr = s.intr := rfl
@[simp] theorem setSrcCfg_pkg (s : State) (st : Stop) (src : Nat) (v : Reg32) : (setSrcCfg s st src v).pkg = s.pkg := rfl
@[simp] theorem setSrcCfg_tbase (s : State) (st : Stop) (src : Nat) (v : Reg32) : (setSrcCfg s st src v).tbase = s.tbase := rfl
@[simp] theorem setSrcCfg_wb (s : State) (st : Stop) (src : Nat) (v : Reg32) : (setSrcCfg s st src v).wb = s.wb := rfl
@[simp] theorem setSrcCfg_io (s : State) (st : Stop) (src : Nat) (v : Reg32) : (setSrcCfg s st src v).io = s.io := rfl
@[simp] theorem setSrcCfg_link (s : State) (st : Stop) (src : Nat) (v : Reg32) : (setSrcCfg s st src v).link = s.link := rfl
@[simp] theorem setSrcCfg_lock (s : State) (st : Stop) (src : Nat) (v : Reg32) : (setSrcCfg s st src v).lock = s.lock := rfl
@[simp] theorem setSrcCfg_cache (s : State) (st : Stop) (src : Nat) (v : Reg32) : (setSrcCfg s st src v).cache = s.cache := rfl
@[simp] theorem setSrcCfg_hbm (s : State) (st : Stop) (src : Nat) (v : Reg32) : (setSrcCfg s st src v).hbm = s.hbm := rfl
@[simp] theorem setSrcCfg_orr (s : State) (st : Stop) (src : Nat) (v : Reg32) : (setSrcCfg s st src v).orr = s.orr := rfl
@[simp] theorem setSrcCfg_iotu (s : State) (st : Stop) (src : Nat) (v : Reg32) : (setSrcCfg s st src v).iotu = s.iotu := rfl
@[simp] theorem setSrcCfg_pow (s : State) (st : Stop) (src : Nat) (v : Reg32) : (setSrcCfg s st src v).pow = s.pow := rfl
@[simp] theorem setSrcCfg_ws (s : State) (st : Stop) (src : Nat) (v : Reg32) : (setSrcCfg s st src v).ws = s.ws := rfl

@[simp] theorem privSet_pending (s : State) (h : Hart) (n : Nat) : (privSet s h n).pending = s.pending := by
  unfold privSet; split <;> rfl
@[simp] theorem privSet_fresh (s : State) (h : Hart) (n : Nat) : (privSet s h n).fresh = s.fresh := by
  unfold privSet; split <;> rfl
@[simp] theorem privSet_reg (s : State) (h : Hart) (n : Nat) : (privSet s h n).reg = s.reg := by
  unfold privSet; split <;> rfl
@[simp] theorem privSet_cpu (s : State) (h : Hart) (n : Nat) : (privSet s h n).cpu = s.cpu := by
  unfold privSet; split <;> rfl
@[simp] theorem privSet_mem (s : State) (h : Hart) (n : Nat) : (privSet s h n).mem = s.mem := by
  unfold privSet; split <;> rfl
@[simp] theorem privSet_pm (s : State) (h : Hart) (n : Nat) : (privSet s h n).pm = s.pm := by
  unfold privSet; split <;> rfl
@[simp] theorem privSet_err (s : State) (h : Hart) (n : Nat) : (privSet s h n).err = s.err := by
  unfold privSet; split <;> rfl
@[simp] theorem privSet_pkg (s : State) (h : Hart) (n : Nat) : (privSet s h n).pkg = s.pkg := by
  unfold privSet; split <;> rfl
@[simp] theorem privSet_tbase (s : State) (h : Hart) (n : Nat) : (privSet s h n).tbase = s.tbase := by
  unfold privSet; split <;> rfl
@[simp] theorem privSet_wb (s : State) (h : Hart) (n : Nat) : (privSet s h n).wb = s.wb := by
  unfold privSet; split <;> rfl
@[simp] theorem privSet_io (s : State) (h : Hart) (n : Nat) : (privSet s h n).io = s.io := by
  unfold privSet; split <;> rfl
@[simp] theorem privSet_link (s : State) (h : Hart) (n : Nat) : (privSet s h n).link = s.link := by
  unfold privSet; split <;> rfl
@[simp] theorem privSet_lock (s : State) (h : Hart) (n : Nat) : (privSet s h n).lock = s.lock := by
  unfold privSet; split <;> rfl
@[simp] theorem privSet_cache (s : State) (h : Hart) (n : Nat) : (privSet s h n).cache = s.cache := by
  unfold privSet; split <;> rfl
@[simp] theorem privSet_hbm (s : State) (h : Hart) (n : Nat) : (privSet s h n).hbm = s.hbm := by
  unfold privSet; split <;> rfl
@[simp] theorem privSet_orr (s : State) (h : Hart) (n : Nat) : (privSet s h n).orr = s.orr := by
  unfold privSet; split <;> rfl
@[simp] theorem privSet_iotu (s : State) (h : Hart) (n : Nat) : (privSet s h n).iotu = s.iotu := by
  unfold privSet; split <;> rfl
@[simp] theorem privSet_pow (s : State) (h : Hart) (n : Nat) : (privSet s h n).pow = s.pow := by
  unfold privSet; split <;> rfl
@[simp] theorem privSet_ws (s : State) (h : Hart) (n : Nat) : (privSet s h n).ws = s.ws := by
  unfold privSet; split <;> rfl

@[simp] theorem privClear_pending (s : State) (h : Hart) (n : Nat) : (privClear s h n).pending = s.pending := rfl
@[simp] theorem privClear_fresh (s : State) (h : Hart) (n : Nat) : (privClear s h n).fresh = s.fresh := rfl
@[simp] theorem privClear_reg (s : State) (h : Hart) (n : Nat) : (privClear s h n).reg = s.reg := rfl
@[simp] theorem privClear_cpu (s : State) (h : Hart) (n : Nat) : (privClear s h n).cpu = s.cpu := rfl
@[simp] theorem privClear_mem (s : State) (h : Hart) (n : Nat) : (privClear s h n).mem = s.mem := rfl
@[simp] theorem privClear_pm (s : State) (h : Hart) (n : Nat) : (privClear s h n).pm = s.pm := rfl
@[simp] theorem privClear_err (s : State) (h : Hart) (n : Nat) : (privClear s h n).err = s.err := rfl
@[simp] theorem privClear_pkg (s : State) (h : Hart) (n : Nat) : (privClear s h n).pkg = s.pkg := rfl
@[simp] theorem privClear_tbase (s : State) (h : Hart) (n : Nat) : (privClear s h n).tbase = s.tbase := rfl
@[simp] theorem privClear_wb (s : State) (h : Hart) (n : Nat) : (privClear s h n).wb = s.wb := rfl
@[simp] theorem privClear_io (s : State) (h : Hart) (n : Nat) : (privClear s h n).io = s.io := rfl
@[simp] theorem privClear_link (s : State) (h : Hart) (n : Nat) : (privClear s h n).link = s.link := rfl
@[simp] theorem privClear_lock (s : State) (h : Hart) (n : Nat) : (privClear s h n).lock = s.lock := rfl
@[simp] theorem privClear_cache (s : State) (h : Hart) (n : Nat) : (privClear s h n).cache = s.cache := rfl
@[simp] theorem privClear_hbm (s : State) (h : Hart) (n : Nat) : (privClear s h n).hbm = s.hbm := rfl
@[simp] theorem privClear_orr (s : State) (h : Hart) (n : Nat) : (privClear s h n).orr = s.orr := rfl
@[simp] theorem privClear_iotu (s : State) (h : Hart) (n : Nat) : (privClear s h n).iotu = s.iotu := rfl
@[simp] theorem privClear_pow (s : State) (h : Hart) (n : Nat) : (privClear s h n).pow = s.pow := rfl
@[simp] theorem privClear_ws (s : State) (h : Hart) (n : Nat) : (privClear s h n).ws = s.ws := rfl

@[simp] theorem setRunStack_pending (s : State) (h : Hart) (w : World) (l : List Nat) : (setRunStack s h w l).pending = s.pending := rfl
@[simp] theorem setRunStack_fresh (s : State) (h : Hart) (w : World) (l : List Nat) : (setRunStack s h w l).fresh = s.fresh := rfl
@[simp] theorem setRunStack_reg (s : State) (h : Hart) (w : World) (l : List Nat) : (setRunStack s h w l).reg = s.reg := rfl
@[simp] theorem setRunStack_cpu (s : State) (h : Hart) (w : World) (l : List Nat) : (setRunStack s h w l).cpu = s.cpu := rfl
@[simp] theorem setRunStack_mem (s : State) (h : Hart) (w : World) (l : List Nat) : (setRunStack s h w l).mem = s.mem := rfl
@[simp] theorem setRunStack_pm (s : State) (h : Hart) (w : World) (l : List Nat) : (setRunStack s h w l).pm = s.pm := rfl
@[simp] theorem setRunStack_err (s : State) (h : Hart) (w : World) (l : List Nat) : (setRunStack s h w l).err = s.err := rfl
@[simp] theorem setRunStack_pkg (s : State) (h : Hart) (w : World) (l : List Nat) : (setRunStack s h w l).pkg = s.pkg := rfl
@[simp] theorem setRunStack_tbase (s : State) (h : Hart) (w : World) (l : List Nat) : (setRunStack s h w l).tbase = s.tbase := rfl
@[simp] theorem setRunStack_wb (s : State) (h : Hart) (w : World) (l : List Nat) : (setRunStack s h w l).wb = s.wb := rfl
@[simp] theorem setRunStack_io (s : State) (h : Hart) (w : World) (l : List Nat) : (setRunStack s h w l).io = s.io := rfl
@[simp] theorem setRunStack_link (s : State) (h : Hart) (w : World) (l : List Nat) : (setRunStack s h w l).link = s.link := rfl
@[simp] theorem setRunStack_lock (s : State) (h : Hart) (w : World) (l : List Nat) : (setRunStack s h w l).lock = s.lock := rfl
@[simp] theorem setRunStack_cache (s : State) (h : Hart) (w : World) (l : List Nat) : (setRunStack s h w l).cache = s.cache := rfl
@[simp] theorem setRunStack_hbm (s : State) (h : Hart) (w : World) (l : List Nat) : (setRunStack s h w l).hbm = s.hbm := rfl
@[simp] theorem setRunStack_orr (s : State) (h : Hart) (w : World) (l : List Nat) : (setRunStack s h w l).orr = s.orr := rfl
@[simp] theorem setRunStack_iotu (s : State) (h : Hart) (w : World) (l : List Nat) : (setRunStack s h w l).iotu = s.iotu := rfl
@[simp] theorem setRunStack_pow (s : State) (h : Hart) (w : World) (l : List Nat) : (setRunStack s h w l).pow = s.pow := rfl
@[simp] theorem setRunStack_ws (s : State) (h : Hart) (w : World) (l : List Nat) : (setRunStack s h w l).ws = s.ws := rfl

@[simp] theorem setShList_pending (s : State) (h : Hart) (l : List Nat) : (setShList s h l).pending = s.pending := rfl
@[simp] theorem setShList_fresh (s : State) (h : Hart) (l : List Nat) : (setShList s h l).fresh = s.fresh := rfl
@[simp] theorem setShList_reg (s : State) (h : Hart) (l : List Nat) : (setShList s h l).reg = s.reg := rfl
@[simp] theorem setShList_cpu (s : State) (h : Hart) (l : List Nat) : (setShList s h l).cpu = s.cpu := rfl
@[simp] theorem setShList_mem (s : State) (h : Hart) (l : List Nat) : (setShList s h l).mem = s.mem := rfl
@[simp] theorem setShList_pm (s : State) (h : Hart) (l : List Nat) : (setShList s h l).pm = s.pm := rfl
@[simp] theorem setShList_err (s : State) (h : Hart) (l : List Nat) : (setShList s h l).err = s.err := rfl
@[simp] theorem setShList_pkg (s : State) (h : Hart) (l : List Nat) : (setShList s h l).pkg = s.pkg := rfl
@[simp] theorem setShList_tbase (s : State) (h : Hart) (l : List Nat) : (setShList s h l).tbase = s.tbase := rfl
@[simp] theorem setShList_wb (s : State) (h : Hart) (l : List Nat) : (setShList s h l).wb = s.wb := rfl
@[simp] theorem setShList_io (s : State) (h : Hart) (l : List Nat) : (setShList s h l).io = s.io := rfl
@[simp] theorem setShList_link (s : State) (h : Hart) (l : List Nat) : (setShList s h l).link = s.link := rfl
@[simp] theorem setShList_lock (s : State) (h : Hart) (l : List Nat) : (setShList s h l).lock = s.lock := rfl
@[simp] theorem setShList_cache (s : State) (h : Hart) (l : List Nat) : (setShList s h l).cache = s.cache := rfl
@[simp] theorem setShList_hbm (s : State) (h : Hart) (l : List Nat) : (setShList s h l).hbm = s.hbm := rfl
@[simp] theorem setShList_orr (s : State) (h : Hart) (l : List Nat) : (setShList s h l).orr = s.orr := rfl
@[simp] theorem setShList_iotu (s : State) (h : Hart) (l : List Nat) : (setShList s h l).iotu = s.iotu := rfl
@[simp] theorem setShList_pow (s : State) (h : Hart) (l : List Nat) : (setShList s h l).pow = s.pow := rfl
@[simp] theorem setShList_ws (s : State) (h : Hart) (l : List Nat) : (setShList s h l).ws = s.ws := rfl

@[simp] theorem shWithdraw_pending (s : State) (k i : Nat) : (shWithdraw s k i).pending = s.pending := rfl
@[simp] theorem shWithdraw_fresh (s : State) (k i : Nat) : (shWithdraw s k i).fresh = s.fresh := rfl
@[simp] theorem shWithdraw_reg (s : State) (k i : Nat) : (shWithdraw s k i).reg = s.reg := rfl
@[simp] theorem shWithdraw_cpu (s : State) (k i : Nat) : (shWithdraw s k i).cpu = s.cpu := rfl
@[simp] theorem shWithdraw_mem (s : State) (k i : Nat) : (shWithdraw s k i).mem = s.mem := rfl
@[simp] theorem shWithdraw_pm (s : State) (k i : Nat) : (shWithdraw s k i).pm = s.pm := rfl
@[simp] theorem shWithdraw_err (s : State) (k i : Nat) : (shWithdraw s k i).err = s.err := rfl
@[simp] theorem shWithdraw_pkg (s : State) (k i : Nat) : (shWithdraw s k i).pkg = s.pkg := rfl
@[simp] theorem shWithdraw_tbase (s : State) (k i : Nat) : (shWithdraw s k i).tbase = s.tbase := rfl
@[simp] theorem shWithdraw_wb (s : State) (k i : Nat) : (shWithdraw s k i).wb = s.wb := rfl
@[simp] theorem shWithdraw_io (s : State) (k i : Nat) : (shWithdraw s k i).io = s.io := rfl
@[simp] theorem shWithdraw_link (s : State) (k i : Nat) : (shWithdraw s k i).link = s.link := rfl
@[simp] theorem shWithdraw_lock (s : State) (k i : Nat) : (shWithdraw s k i).lock = s.lock := rfl
@[simp] theorem shWithdraw_cache (s : State) (k i : Nat) : (shWithdraw s k i).cache = s.cache := rfl
@[simp] theorem shWithdraw_hbm (s : State) (k i : Nat) : (shWithdraw s k i).hbm = s.hbm := rfl
@[simp] theorem shWithdraw_orr (s : State) (k i : Nat) : (shWithdraw s k i).orr = s.orr := rfl
@[simp] theorem shWithdraw_iotu (s : State) (k i : Nat) : (shWithdraw s k i).iotu = s.iotu := rfl
@[simp] theorem shWithdraw_pow (s : State) (k i : Nat) : (shWithdraw s k i).pow = s.pow := rfl
@[simp] theorem shWithdraw_ws (s : State) (k i : Nat) : (shWithdraw s k i).ws = s.ws := rfl

@[simp] theorem pmAdd_pending (s : State) (k n : Nat) : (pmAdd s k n).pending = s.pending := by
  simp only [pmAdd]; split <;> rfl
@[simp] theorem pmAdd_fresh (s : State) (k n : Nat) : (pmAdd s k n).fresh = s.fresh := by
  simp only [pmAdd]; split <;> rfl
@[simp] theorem pmAdd_reg (s : State) (k n : Nat) : (pmAdd s k n).reg = s.reg := by
  simp only [pmAdd]; split <;> rfl
@[simp] theorem pmAdd_cpu (s : State) (k n : Nat) : (pmAdd s k n).cpu = s.cpu := by
  simp only [pmAdd]; split <;> rfl
@[simp] theorem pmAdd_mem (s : State) (k n : Nat) : (pmAdd s k n).mem = s.mem := by
  simp only [pmAdd]; split <;> rfl
@[simp] theorem pmAdd_intr (s : State) (k n : Nat) : (pmAdd s k n).intr = s.intr := by
  simp only [pmAdd]; split <;> rfl
@[simp] theorem pmAdd_err (s : State) (k n : Nat) : (pmAdd s k n).err = s.err := by
  simp only [pmAdd]; split <;> rfl
@[simp] theorem pmAdd_pkg (s : State) (k n : Nat) : (pmAdd s k n).pkg = s.pkg := by
  simp only [pmAdd]; split <;> rfl
@[simp] theorem pmAdd_tbase (s : State) (k n : Nat) : (pmAdd s k n).tbase = s.tbase := by
  simp only [pmAdd]; split <;> rfl
@[simp] theorem pmAdd_wb (s : State) (k n : Nat) : (pmAdd s k n).wb = s.wb := by
  simp only [pmAdd]; split <;> rfl
@[simp] theorem pmAdd_io (s : State) (k n : Nat) : (pmAdd s k n).io = s.io := by
  simp only [pmAdd]; split <;> rfl
@[simp] theorem pmAdd_link (s : State) (k n : Nat) : (pmAdd s k n).link = s.link := by
  simp only [pmAdd]; split <;> rfl
@[simp] theorem pmAdd_lock (s : State) (k n : Nat) : (pmAdd s k n).lock = s.lock := by
  simp only [pmAdd]; split <;> rfl
@[simp] theorem pmAdd_cache (s : State) (k n : Nat) : (pmAdd s k n).cache = s.cache := by
  simp only [pmAdd]; split <;> rfl
@[simp] theorem pmAdd_hbm (s : State) (k n : Nat) : (pmAdd s k n).hbm = s.hbm := by
  simp only [pmAdd]; split <;> rfl
@[simp] theorem pmAdd_orr (s : State) (k n : Nat) : (pmAdd s k n).orr = s.orr := by
  simp only [pmAdd]; split <;> rfl
@[simp] theorem pmAdd_iotu (s : State) (k n : Nat) : (pmAdd s k n).iotu = s.iotu := by
  simp only [pmAdd]; split <;> rfl
@[simp] theorem pmAdd_pow (s : State) (k n : Nat) : (pmAdd s k n).pow = s.pow := by
  simp only [pmAdd]; split <;> rfl
@[simp] theorem pmAdd_ws (s : State) (k n : Nat) : (pmAdd s k n).ws = s.ws := by
  simp only [pmAdd]; split <;> rfl

@[simp] theorem orPut_pending (s : State) (n : Fin 16) (o : OrSt) : (orPut s n o).pending = s.pending := rfl
@[simp] theorem orPut_fresh (s : State) (n : Fin 16) (o : OrSt) : (orPut s n o).fresh = s.fresh := rfl
@[simp] theorem orPut_reg (s : State) (n : Fin 16) (o : OrSt) : (orPut s n o).reg = s.reg := rfl
@[simp] theorem orPut_cpu (s : State) (n : Fin 16) (o : OrSt) : (orPut s n o).cpu = s.cpu := rfl
@[simp] theorem orPut_mem (s : State) (n : Fin 16) (o : OrSt) : (orPut s n o).mem = s.mem := rfl
@[simp] theorem orPut_pm (s : State) (n : Fin 16) (o : OrSt) : (orPut s n o).pm = s.pm := rfl
@[simp] theorem orPut_intr (s : State) (n : Fin 16) (o : OrSt) : (orPut s n o).intr = s.intr := rfl
@[simp] theorem orPut_err (s : State) (n : Fin 16) (o : OrSt) : (orPut s n o).err = s.err := rfl
@[simp] theorem orPut_pkg (s : State) (n : Fin 16) (o : OrSt) : (orPut s n o).pkg = s.pkg := rfl
@[simp] theorem orPut_tbase (s : State) (n : Fin 16) (o : OrSt) : (orPut s n o).tbase = s.tbase := rfl
@[simp] theorem orPut_wb (s : State) (n : Fin 16) (o : OrSt) : (orPut s n o).wb = s.wb := rfl
@[simp] theorem orPut_io (s : State) (n : Fin 16) (o : OrSt) : (orPut s n o).io = s.io := rfl
@[simp] theorem orPut_link (s : State) (n : Fin 16) (o : OrSt) : (orPut s n o).link = s.link := rfl
@[simp] theorem orPut_lock (s : State) (n : Fin 16) (o : OrSt) : (orPut s n o).lock = s.lock := rfl
@[simp] theorem orPut_cache (s : State) (n : Fin 16) (o : OrSt) : (orPut s n o).cache = s.cache := rfl
@[simp] theorem orPut_hbm (s : State) (n : Fin 16) (o : OrSt) : (orPut s n o).hbm = s.hbm := rfl
@[simp] theorem orPut_iotu (s : State) (n : Fin 16) (o : OrSt) : (orPut s n o).iotu = s.iotu := rfl
@[simp] theorem orPut_pow (s : State) (n : Fin 16) (o : OrSt) : (orPut s n o).pow = s.pow := rfl
@[simp] theorem orPut_ws (s : State) (n : Fin 16) (o : OrSt) : (orPut s n o).ws = s.ws := rfl

@[simp] theorem slicePut_pending (s : State) (st : Stop) (v : SliceSt) : (slicePut s st v).pending = s.pending := rfl
@[simp] theorem slicePut_fresh (s : State) (st : Stop) (v : SliceSt) : (slicePut s st v).fresh = s.fresh := rfl
@[simp] theorem slicePut_reg (s : State) (st : Stop) (v : SliceSt) : (slicePut s st v).reg = s.reg := rfl
@[simp] theorem slicePut_cpu (s : State) (st : Stop) (v : SliceSt) : (slicePut s st v).cpu = s.cpu := rfl
@[simp] theorem slicePut_mem (s : State) (st : Stop) (v : SliceSt) : (slicePut s st v).mem = s.mem := rfl
@[simp] theorem slicePut_pm (s : State) (st : Stop) (v : SliceSt) : (slicePut s st v).pm = s.pm := rfl
@[simp] theorem slicePut_intr (s : State) (st : Stop) (v : SliceSt) : (slicePut s st v).intr = s.intr := rfl
@[simp] theorem slicePut_err (s : State) (st : Stop) (v : SliceSt) : (slicePut s st v).err = s.err := rfl
@[simp] theorem slicePut_pkg (s : State) (st : Stop) (v : SliceSt) : (slicePut s st v).pkg = s.pkg := rfl
@[simp] theorem slicePut_tbase (s : State) (st : Stop) (v : SliceSt) : (slicePut s st v).tbase = s.tbase := rfl
@[simp] theorem slicePut_wb (s : State) (st : Stop) (v : SliceSt) : (slicePut s st v).wb = s.wb := rfl
@[simp] theorem slicePut_io (s : State) (st : Stop) (v : SliceSt) : (slicePut s st v).io = s.io := rfl
@[simp] theorem slicePut_link (s : State) (st : Stop) (v : SliceSt) : (slicePut s st v).link = s.link := rfl
@[simp] theorem slicePut_lock (s : State) (st : Stop) (v : SliceSt) : (slicePut s st v).lock = s.lock := rfl
@[simp] theorem slicePut_hbm (s : State) (st : Stop) (v : SliceSt) : (slicePut s st v).hbm = s.hbm := rfl
@[simp] theorem slicePut_orr (s : State) (st : Stop) (v : SliceSt) : (slicePut s st v).orr = s.orr := rfl
@[simp] theorem slicePut_iotu (s : State) (st : Stop) (v : SliceSt) : (slicePut s st v).iotu = s.iotu := rfl
@[simp] theorem slicePut_pow (s : State) (st : Stop) (v : SliceSt) : (slicePut s st v).pow = s.pow := rfl
@[simp] theorem slicePut_ws (s : State) (st : Stop) (v : SliceSt) : (slicePut s st v).ws = s.ws := rfl

@[simp] theorem l2Put_pending (s : State) (n line way v : Nat) : (l2Put s n line way v).pending = s.pending := rfl
@[simp] theorem l2Put_fresh (s : State) (n line way v : Nat) : (l2Put s n line way v).fresh = s.fresh := rfl
@[simp] theorem l2Put_reg (s : State) (n line way v : Nat) : (l2Put s n line way v).reg = s.reg := rfl
@[simp] theorem l2Put_cpu (s : State) (n line way v : Nat) : (l2Put s n line way v).cpu = s.cpu := rfl
@[simp] theorem l2Put_mem (s : State) (n line way v : Nat) : (l2Put s n line way v).mem = s.mem := rfl
@[simp] theorem l2Put_pm (s : State) (n line way v : Nat) : (l2Put s n line way v).pm = s.pm := rfl
@[simp] theorem l2Put_intr (s : State) (n line way v : Nat) : (l2Put s n line way v).intr = s.intr := rfl
@[simp] theorem l2Put_err (s : State) (n line way v : Nat) : (l2Put s n line way v).err = s.err := rfl
@[simp] theorem l2Put_pkg (s : State) (n line way v : Nat) : (l2Put s n line way v).pkg = s.pkg := rfl
@[simp] theorem l2Put_tbase (s : State) (n line way v : Nat) : (l2Put s n line way v).tbase = s.tbase := rfl
@[simp] theorem l2Put_wb (s : State) (n line way v : Nat) : (l2Put s n line way v).wb = s.wb := rfl
@[simp] theorem l2Put_io (s : State) (n line way v : Nat) : (l2Put s n line way v).io = s.io := rfl
@[simp] theorem l2Put_link (s : State) (n line way v : Nat) : (l2Put s n line way v).link = s.link := rfl
@[simp] theorem l2Put_lock (s : State) (n line way v : Nat) : (l2Put s n line way v).lock = s.lock := rfl
@[simp] theorem l2Put_hbm (s : State) (n line way v : Nat) : (l2Put s n line way v).hbm = s.hbm := rfl
@[simp] theorem l2Put_orr (s : State) (n line way v : Nat) : (l2Put s n line way v).orr = s.orr := rfl
@[simp] theorem l2Put_iotu (s : State) (n line way v : Nat) : (l2Put s n line way v).iotu = s.iotu := rfl
@[simp] theorem l2Put_pow (s : State) (n line way v : Nat) : (l2Put s n line way v).pow = s.pow := rfl
@[simp] theorem l2Put_ws (s : State) (n line way v : Nat) : (l2Put s n line way v).ws = s.ws := rfl

@[simp] theorem l1Put_pending (s : State) (n side set w v : Nat) : (l1Put s n side set w v).pending = s.pending := rfl
@[simp] theorem l1Put_fresh (s : State) (n side set w v : Nat) : (l1Put s n side set w v).fresh = s.fresh := rfl
@[simp] theorem l1Put_reg (s : State) (n side set w v : Nat) : (l1Put s n side set w v).reg = s.reg := rfl
@[simp] theorem l1Put_cpu (s : State) (n side set w v : Nat) : (l1Put s n side set w v).cpu = s.cpu := rfl
@[simp] theorem l1Put_mem (s : State) (n side set w v : Nat) : (l1Put s n side set w v).mem = s.mem := rfl
@[simp] theorem l1Put_pm (s : State) (n side set w v : Nat) : (l1Put s n side set w v).pm = s.pm := rfl
@[simp] theorem l1Put_intr (s : State) (n side set w v : Nat) : (l1Put s n side set w v).intr = s.intr := rfl
@[simp] theorem l1Put_err (s : State) (n side set w v : Nat) : (l1Put s n side set w v).err = s.err := rfl
@[simp] theorem l1Put_pkg (s : State) (n side set w v : Nat) : (l1Put s n side set w v).pkg = s.pkg := rfl
@[simp] theorem l1Put_tbase (s : State) (n side set w v : Nat) : (l1Put s n side set w v).tbase = s.tbase := rfl
@[simp] theorem l1Put_wb (s : State) (n side set w v : Nat) : (l1Put s n side set w v).wb = s.wb := rfl
@[simp] theorem l1Put_io (s : State) (n side set w v : Nat) : (l1Put s n side set w v).io = s.io := rfl
@[simp] theorem l1Put_link (s : State) (n side set w v : Nat) : (l1Put s n side set w v).link = s.link := rfl
@[simp] theorem l1Put_lock (s : State) (n side set w v : Nat) : (l1Put s n side set w v).lock = s.lock := rfl
@[simp] theorem l1Put_hbm (s : State) (n side set w v : Nat) : (l1Put s n side set w v).hbm = s.hbm := rfl
@[simp] theorem l1Put_orr (s : State) (n side set w v : Nat) : (l1Put s n side set w v).orr = s.orr := rfl
@[simp] theorem l1Put_iotu (s : State) (n side set w v : Nat) : (l1Put s n side set w v).iotu = s.iotu := rfl
@[simp] theorem l1Put_pow (s : State) (n side set w v : Nat) : (l1Put s n side set w v).pow = s.pow := rfl
@[simp] theorem l1Put_ws (s : State) (n side set w v : Nat) : (l1Put s n side set w v).ws = s.ws := rfl

@[simp] theorem plruPut_pending (s : State) (n set b : Nat) : (plruPut s n set b).pending = s.pending := rfl
@[simp] theorem plruPut_fresh (s : State) (n set b : Nat) : (plruPut s n set b).fresh = s.fresh := rfl
@[simp] theorem plruPut_reg (s : State) (n set b : Nat) : (plruPut s n set b).reg = s.reg := rfl
@[simp] theorem plruPut_cpu (s : State) (n set b : Nat) : (plruPut s n set b).cpu = s.cpu := rfl
@[simp] theorem plruPut_mem (s : State) (n set b : Nat) : (plruPut s n set b).mem = s.mem := rfl
@[simp] theorem plruPut_pm (s : State) (n set b : Nat) : (plruPut s n set b).pm = s.pm := rfl
@[simp] theorem plruPut_intr (s : State) (n set b : Nat) : (plruPut s n set b).intr = s.intr := rfl
@[simp] theorem plruPut_err (s : State) (n set b : Nat) : (plruPut s n set b).err = s.err := rfl
@[simp] theorem plruPut_pkg (s : State) (n set b : Nat) : (plruPut s n set b).pkg = s.pkg := rfl
@[simp] theorem plruPut_tbase (s : State) (n set b : Nat) : (plruPut s n set b).tbase = s.tbase := rfl
@[simp] theorem plruPut_wb (s : State) (n set b : Nat) : (plruPut s n set b).wb = s.wb := rfl
@[simp] theorem plruPut_io (s : State) (n set b : Nat) : (plruPut s n set b).io = s.io := rfl
@[simp] theorem plruPut_link (s : State) (n set b : Nat) : (plruPut s n set b).link = s.link := rfl
@[simp] theorem plruPut_lock (s : State) (n set b : Nat) : (plruPut s n set b).lock = s.lock := rfl
@[simp] theorem plruPut_hbm (s : State) (n set b : Nat) : (plruPut s n set b).hbm = s.hbm := rfl
@[simp] theorem plruPut_orr (s : State) (n set b : Nat) : (plruPut s n set b).orr = s.orr := rfl
@[simp] theorem plruPut_iotu (s : State) (n set b : Nat) : (plruPut s n set b).iotu = s.iotu := rfl
@[simp] theorem plruPut_pow (s : State) (n set b : Nat) : (plruPut s n set b).pow = s.pow := rfl
@[simp] theorem plruPut_ws (s : State) (n set b : Nat) : (plruPut s n set b).ws = s.ws := rfl

@[simp] theorem hbmMod_pending (s : State) (f : HbmSt → HbmSt) : (hbmMod s f).pending = s.pending := rfl
@[simp] theorem hbmMod_fresh (s : State) (f : HbmSt → HbmSt) : (hbmMod s f).fresh = s.fresh := rfl
@[simp] theorem hbmMod_reg (s : State) (f : HbmSt → HbmSt) : (hbmMod s f).reg = s.reg := rfl
@[simp] theorem hbmMod_cpu (s : State) (f : HbmSt → HbmSt) : (hbmMod s f).cpu = s.cpu := rfl
@[simp] theorem hbmMod_mem (s : State) (f : HbmSt → HbmSt) : (hbmMod s f).mem = s.mem := rfl
@[simp] theorem hbmMod_pm (s : State) (f : HbmSt → HbmSt) : (hbmMod s f).pm = s.pm := rfl
@[simp] theorem hbmMod_intr (s : State) (f : HbmSt → HbmSt) : (hbmMod s f).intr = s.intr := rfl
@[simp] theorem hbmMod_err (s : State) (f : HbmSt → HbmSt) : (hbmMod s f).err = s.err := rfl
@[simp] theorem hbmMod_pkg (s : State) (f : HbmSt → HbmSt) : (hbmMod s f).pkg = s.pkg := rfl
@[simp] theorem hbmMod_tbase (s : State) (f : HbmSt → HbmSt) : (hbmMod s f).tbase = s.tbase := rfl
@[simp] theorem hbmMod_wb (s : State) (f : HbmSt → HbmSt) : (hbmMod s f).wb = s.wb := rfl
@[simp] theorem hbmMod_io (s : State) (f : HbmSt → HbmSt) : (hbmMod s f).io = s.io := rfl
@[simp] theorem hbmMod_link (s : State) (f : HbmSt → HbmSt) : (hbmMod s f).link = s.link := rfl
@[simp] theorem hbmMod_lock (s : State) (f : HbmSt → HbmSt) : (hbmMod s f).lock = s.lock := rfl
@[simp] theorem hbmMod_cache (s : State) (f : HbmSt → HbmSt) : (hbmMod s f).cache = s.cache := rfl
@[simp] theorem hbmMod_orr (s : State) (f : HbmSt → HbmSt) : (hbmMod s f).orr = s.orr := rfl
@[simp] theorem hbmMod_iotu (s : State) (f : HbmSt → HbmSt) : (hbmMod s f).iotu = s.iotu := rfl
@[simp] theorem hbmMod_pow (s : State) (f : HbmSt → HbmSt) : (hbmMod s f).pow = s.pow := rfl
@[simp] theorem hbmMod_ws (s : State) (f : HbmSt → HbmSt) : (hbmMod s f).ws = s.ws := rfl

@[simp] theorem cvPut_pending (s : State) (n : Nat) (c : CvLink) : (cvPut s n c).pending = s.pending := rfl
@[simp] theorem cvPut_fresh (s : State) (n : Nat) (c : CvLink) : (cvPut s n c).fresh = s.fresh := rfl
@[simp] theorem cvPut_reg (s : State) (n : Nat) (c : CvLink) : (cvPut s n c).reg = s.reg := rfl
@[simp] theorem cvPut_cpu (s : State) (n : Nat) (c : CvLink) : (cvPut s n c).cpu = s.cpu := rfl
@[simp] theorem cvPut_mem (s : State) (n : Nat) (c : CvLink) : (cvPut s n c).mem = s.mem := rfl
@[simp] theorem cvPut_pm (s : State) (n : Nat) (c : CvLink) : (cvPut s n c).pm = s.pm := rfl
@[simp] theorem cvPut_intr (s : State) (n : Nat) (c : CvLink) : (cvPut s n c).intr = s.intr := rfl
@[simp] theorem cvPut_err (s : State) (n : Nat) (c : CvLink) : (cvPut s n c).err = s.err := rfl
@[simp] theorem cvPut_pkg (s : State) (n : Nat) (c : CvLink) : (cvPut s n c).pkg = s.pkg := rfl
@[simp] theorem cvPut_tbase (s : State) (n : Nat) (c : CvLink) : (cvPut s n c).tbase = s.tbase := rfl
@[simp] theorem cvPut_wb (s : State) (n : Nat) (c : CvLink) : (cvPut s n c).wb = s.wb := rfl
@[simp] theorem cvPut_io (s : State) (n : Nat) (c : CvLink) : (cvPut s n c).io = s.io := rfl
@[simp] theorem cvPut_lock (s : State) (n : Nat) (c : CvLink) : (cvPut s n c).lock = s.lock := rfl
@[simp] theorem cvPut_cache (s : State) (n : Nat) (c : CvLink) : (cvPut s n c).cache = s.cache := rfl
@[simp] theorem cvPut_hbm (s : State) (n : Nat) (c : CvLink) : (cvPut s n c).hbm = s.hbm := rfl
@[simp] theorem cvPut_orr (s : State) (n : Nat) (c : CvLink) : (cvPut s n c).orr = s.orr := rfl
@[simp] theorem cvPut_iotu (s : State) (n : Nat) (c : CvLink) : (cvPut s n c).iotu = s.iotu := rfl
@[simp] theorem cvPut_pow (s : State) (n : Nat) (c : CvLink) : (cvPut s n c).pow = s.pow := rfl
@[simp] theorem cvPut_ws (s : State) (n : Nat) (c : CvLink) : (cvPut s n c).ws = s.ws := rfl

/-! ## Registers -/

@[simp] theorem rget_rput_same (s : State) (st : Stop) (blk off : Nat) (v : Reg32) :
    rget (rput s st blk off v) st blk off = v := by
  simp [rget, rput]

/-- A write of a register leaves every register of another key alone. -/
theorem rget_rput_other (s : State) {st st' : Stop} {blk blk' off off' : Nat} (v : Reg32)
    (h : rkey st' blk' off' ≠ rkey st blk off) : rget (rput s st blk off v) st' blk' off' = rget s st' blk' off' := by
  simp only [rget, rput]
  exact mapGet_set_other regReset s.reg.vals v h

@[simp] theorem rget_tput (s : State) (h : Hart) (t : Thread) (st : Stop) (blk off : Nat) :
    rget (tput s h t) st blk off = rget s st blk off := rfl

@[simp] theorem rget_tmod (s : State) (h : Hart) (f : Thread → Thread) (st : Stop) (blk off : Nat) :
    rget (tmod s h f) st blk off = rget s st blk off := rfl

@[simp] theorem rbit_tput (s : State) (h : Hart) (t : Thread) (st : Stop) (blk off i : Nat) :
    rbit (tput s h t) st blk off i = rbit s st blk off i := rfl

@[simp] theorem rbit_tmod (s : State) (h : Hart) (f : Thread → Thread) (st : Stop) (blk off i : Nat) :
    rbit (tmod s h f) st blk off i = rbit s st blk off i := rfl

/-! ## Threads -/

@[simp] theorem tget_tput_same (s : State) (h : Hart) (t : Thread) : tget (tput s h t) h = t := by
  simp [tget, tput]

/-- Writing one thread leaves another alone. -/
theorem tget_tput_other (s : State) {h h' : Hart} (t : Thread) (hk : hartKey h' ≠ hartKey h) :
    tget (tput s h t) h' = tget s h' := by
  simp only [tget, tput]
  exact mapGet_set_other _ s.cpu.threads t hk

@[simp] theorem tget_tmod_same (s : State) (h : Hart) (f : Thread → Thread) : tget (tmod s h f) h = f (tget s h) := by
  simp [tmod]

theorem tget_tmod_other (s : State) {h h' : Hart} (f : Thread → Thread) (hk : hartKey h' ≠ hartKey h) :
    tget (tmod s h f) h' = tget s h' := tget_tput_other s (f (tget s h)) hk

@[simp] theorem tget_rput (s : State) (h : Hart) (st : Stop) (blk off : Nat) (v : Reg32) :
    tget (rput s st blk off v) h = tget s h := rfl

@[simp] theorem tget_useFree (s : State) (h : Hart) : tget (useFree s) h = tget s h := rfl

@[simp] theorem tget_pmAdd (s : State) (k n : Nat) (h : Hart) : tget (pmAdd s k n) h = tget s h := by
  simp [tget]

@[simp] theorem tget_privSet (s : State) (h h' : Hart) (n : Nat) : tget (privSet s h' n) h = tget s h := by
  simp [tget]

/-! ## Caches and memory controllers -/

@[simp] theorem sliceGet_slicePut_same (s : State) (st : Stop) (v : SliceSt) : sliceGet (slicePut s st v) st = v := by
  simp [sliceGet, slicePut]

/-- Writing one slice leaves another alone. -/
theorem sliceGet_slicePut_other (s : State) {st st' : Stop} (v : SliceSt) (h : stopIdx st' ≠ stopIdx st) :
    sliceGet (slicePut s st v) st' = sliceGet s st' := by
  simp only [sliceGet, slicePut]
  exact mapGet_set_other _ s.cache.slices v h

@[simp] theorem plruGet_plruPut_same (s : State) (n set b : Nat) : plruGet (plruPut s n set b) n set = b := by
  simp [plruGet, plruPut]

@[simp] theorem openRow_setRow_same (s : State) (b : Nat) (r : Option Nat) : openRow (setRow s b r) b = r := by
  simp [openRow, setRow, hbmMod]

/-- Opening a row of one bank leaves the others alone. -/
theorem openRow_setRow_other (s : State) {b b' : Nat} (r : Option Nat) (h : b' ≠ b) : openRow (setRow s b r) b' = openRow s b' := by
  simp only [openRow, setRow, hbmMod]
  exact mapGet_set_other _ s.hbm.rows r h

@[simp] theorem mcPtrs_setPtrs_same (s : State) (p : Nat) (v : Nat × Nat) : mcPtrs (setPtrs s p v) p = v := by
  simp [mcPtrs, setPtrs, hbmMod]

@[simp] theorem sliceGet_hbmMod (s : State) (f : HbmSt → HbmSt) (st : Stop) : sliceGet (hbmMod s f) st = sliceGet s st := rfl

/-! ## Operands -/

@[simp] theorem xget_zero (t : Thread) : xget t 0#5 = 0 := by simp [xget]

@[simp] theorem xset_zero (t : Thread) (v : Word) : xset t 0#5 v = t := by simp [xset]

theorem xget_xset (t : Thread) (r r' : Reg) (v : Word) :
    xget (xset t r v) r' = if r' = r ∧ r ≠ 0 then v else xget t r' := by
  by_cases hr : r = 0
  · subst hr; simp
  · by_cases hr' : r' = 0
    · subst hr'; simp [show ¬0#5 = r from fun h => hr h.symm]
    · by_cases he : r' = r
      · subst he; rw [if_pos ⟨rfl, hr⟩]; simp only [xget, xset, if_neg hr]; exact Vector.getElem_set_self _
      · rw [if_neg fun h => he h.1]; simp only [xget, xset, if_neg hr, if_neg hr']
        exact Vector.getElem_set_ne _ _ fun h => he (BitVec.eq_of_toNat_eq h.symm)

@[simp] theorem pget_zero (t : Thread) : pget t 0#3 = true := by simp [pget]

@[simp] theorem pset_zero (t : Thread) (b : Bool) : pset t 0#3 b = t := by simp [pset]

theorem pget_pset (t : Thread) (r r' : PReg) (b : Bool) :
    pget (pset t r b) r' = if r' = r ∧ r ≠ 0 then b else pget t r' := by
  by_cases hr : r = 0
  · subst hr; simp
  · by_cases hr' : r' = 0
    · subst hr'; simp [show ¬0#3 = r from fun h => hr h.symm]
    · by_cases he : r' = r
      · subst he; rw [if_pos ⟨rfl, hr⟩]; simp only [pget, pset, if_neg hr]; exact Vector.getElem_set_self _
      · rw [if_neg fun h => he h.1]; simp only [pget, pset, if_neg hr, if_neg hr']
        exact Vector.getElem_set_ne _ _ fun h => he (BitVec.eq_of_toNat_eq h.symm)

theorem vget_vset (t : Thread) (r r' : Reg) (v : Vec) : vget (vset t r v) r' = if r' = r then v else vget t r' := by
  by_cases he : r' = r
  · subst he; simp [vget, vset]
  · rw [if_neg he]; simp only [vget, vset]
    exact Vector.getElem_set_ne _ _ fun h => he (BitVec.eq_of_toNat_eq h.symm)

@[simp] theorem mget_zero (t : Thread) : mget t 0#3 = 0xFFFFFFFF := by simp [mget]

@[simp] theorem mset_zero (t : Thread) (v : BitVec 32) : mset t 0#3 v = t := by simp [mset]

theorem mget_mset (t : Thread) (r r' : PReg) (v : BitVec 32) :
    mget (mset t r v) r' = if r' = r ∧ r ≠ 0 then v else mget t r' := by
  by_cases hr : r = 0
  · subst hr; simp
  · by_cases hr' : r' = 0
    · subst hr'; simp [show ¬0#3 = r from fun h => hr h.symm]
    · by_cases he : r' = r
      · subst he; rw [if_pos ⟨rfl, hr⟩]; simp only [mget, mset, if_neg hr]; exact Vector.getElem_set_self _
      · rw [if_neg fun h => he h.1]; simp only [mget, mset, if_neg hr, if_neg hr']
        exact Vector.getElem_set_ne _ _ fun h => he (BitVec.eq_of_toNat_eq h.symm)

@[simp] theorem sget_sput_same (t : Thread) (n : Nat) (v : Word) : sget (sput t n v) n = v := by
  simp [sget, sput]

theorem sget_sput_other (t : Thread) {n n' : Nat} (v : Word) (h : n' ≠ n) : sget (sput t n v) n' = sget t n' := by
  simp only [sget, sput]
  exact mapGet_set_other sregReset t.sreg v h

/-! ## Memory -/

theorem memGet_writeBytes_other (s : State) (a b : Nat) (d : List Byte) (h : b < a ∨ a + d.length ≤ b) :
    memGet (memWriteBytes s a d) b = memGet s b := by
  induction d generalizing s a with
  | nil => rfl
  | cons x r ih =>
    rw [memWriteBytes, ih _ _ (by simp at h; omega)]
    exact mapGet_set_other memDefault s.mem.bytes x (by simp at h; omega)

theorem memGet_writeBytes_same (s : State) (a i : Nat) (d : List Byte) (h : i < d.length) :
    memGet (memWriteBytes s a d) (a + i) = d[i] := by
  induction d generalizing s a i with
  | nil => simp at h
  | cons x r ih =>
    rw [memWriteBytes]
    cases i with
    | zero => rw [memGet_writeBytes_other _ _ _ _ (by omega)]; exact mapGet_set_same memDefault s.mem.bytes a x
    | succ i =>
      have := ih { s with mem := { s.mem with bytes := mapSet memDefault s.mem.bytes a x } } (a + 1) i (by simpa using h)
      rw [show a + (i + 1) = a + 1 + i from by omega, this]; rfl

/-- A store leaves every byte outside it alone. -/
theorem memGet_store_other (s : State) (a b : Nat) (d : List Byte) (h : b < a ∨ a + d.length ≤ b) :
    memGet (memStore s a d) b = memGet s b := memGet_writeBytes_other s a b d h

/-- A byte of a store reads as written. -/
theorem memGet_store_same (s : State) (a i : Nat) (d : List Byte) (h : i < d.length) :
    memGet (memStore s a d) (a + i) = d[i] := memGet_writeBytes_same s a i d h

theorem memWriteBytes_wf (s : State) (a : Nat) (d : List Byte) (hw : Memory.wf s.mem = true) :
    Memory.wf (memWriteBytes s a d).mem = true := by
  induction d generalizing s a with
  | nil => exact hw
  | cons b r ih => exact ih _ _ (mapWf_set memDefault s.mem.bytes a b hw)

/-- Every operation over memory keeps its canonical form: a store of sound data, a mark of poison, a range zeroed, and
a write by an agent. -/
theorem memStore_wf (s : State) (a : Nat) (d : List Byte) (hw : Memory.wf s.mem = true) :
    Memory.wf (memStore s a d).mem = true := memWriteBytes_wf s a d hw

theorem markPoison_wf (s : State) (a : Nat) (hw : Memory.wf s.mem = true) : Memory.wf (markPoison s a).mem = true := hw

theorem memZero_wf (s : State) (a n : Nat) (hw : Memory.wf s.mem = true) : Memory.wf (memZero s a n).mem = true :=
  mapWf_filter memDefault s.mem.bytes _ hw

theorem agentWrite_wf (s : State) (me : Option Hart) (a : Nat) (d : List Byte) (hw : Memory.wf s.mem = true) :
    Memory.wf (agentWrite s me a d).mem = true := memWriteBytes_wf s a d hw

theorem poisonLine_wf (s : State) (a : Nat) (hw : Memory.wf s.mem = true) : Memory.wf (poisonLine s a).mem = true := by
  unfold poisonLine
  generalize List.range 8 = l
  induction l generalizing s with
  | nil => exact hw
  | cons i r ih => exact ih _ (markPoison_wf s _ hw)

theorem reset_memory_wf : Memory.wf State.reset.mem = true := rfl

end Sys2Proof.Machine
end

