-- ==== Sys2Proof/Laws/Run.lean ====
section
/-!
SUPPORT. Laws of running one instruction: counting, taking an exception, retirement, and an instruction that issues.
-/

namespace Sys2Proof.Machine

/-! ## What leaves a hart's registers alone -/

/-- Two states of a hart with the same x, p, v and m registers, PC, level and world. -/
def ArchSame (a b : Thread) : Prop :=
  a.x = b.x ∧ a.p = b.p ∧ a.v = b.v ∧ a.m = b.m ∧ a.pc = b.pc ∧ a.level = b.level ∧ a.world = b.world

theorem ArchSame.rfl' (a : Thread) : ArchSame a a := ⟨rfl, rfl, rfl, rfl, rfl, rfl, rfl⟩

theorem ArchSame.trans' {a b c : Thread} (h1 : ArchSame a b) (h2 : ArchSame b c) : ArchSame a c := by
  obtain ⟨a1, a2, a3, a4, a5, a6, a7⟩ := h1
  obtain ⟨b1, b2, b3, b4, b5, b6, b7⟩ := h2
  exact ⟨a1.trans b1, a2.trans b2, a3.trans b3, a4.trans b4, a5.trans b5, a6.trans b6, a7.trans b7⟩

/-- What counting leaves alone: registers, memory, lock state and the hart's registers. -/
structure Counted (s s' : State) (h : Hart) : Prop where
  reg : s'.reg = s.reg
  mem : s'.mem = s.mem
  arch : ArchSame (tget s' h) (tget s h)
  smp : sget (tget s' h) snSMP_CTL = sget (tget s h) snSMP_CTL

theorem Counted.rfl' (s : State) (h : Hart) : Counted s s h := ⟨rfl, rfl, ArchSame.rfl' _, rfl⟩

theorem Counted.trans' {s s' s'' : State} {h : Hart} (h1 : Counted s s' h) (h2 : Counted s' s'' h) : Counted s s'' h :=
  ⟨h2.reg.trans h1.reg, h2.mem.trans h1.mem, h2.arch.trans' h1.arch, h2.smp.trans h1.smp⟩

theorem pmAdd_counted (s : State) (k n : Nat) (h : Hart) : Counted s (pmAdd s k n) h :=
  ⟨by simp, by simp, by simp [ArchSame.rfl'], by simp⟩

theorem privSet_counted (s : State) (h h' : Hart) (n : Nat) : Counted s (privSet s h' n) h :=
  ⟨by simp, by simp, by simp [ArchSame.rfl'], by simp⟩

theorem tput_counted (s : State) (h : Hart) (t : Thread) (ha : ArchSame t (tget s h))
    (hs : sget t snSMP_CTL = sget (tget s h) snSMP_CTL) : Counted s (tput s h t) h :=
  ⟨rfl, rfl, by simpa using ha, by simpa using hs⟩

theorem comparator_counted (s : State) (h : Hart) (e n : Nat) (hn : n < 4) : Counted s (comparator s h e n) h := by
  have hc : snPMU_CMP_CTL + n ≠ snSMP_CTL := by simp [snPMU_CMP_CTL, snSMP_CTL]; omega
  have hx : snPMU_CMP_NEXT + n ≠ snSMP_CTL := by simp [snPMU_CMP_NEXT, snSMP_CTL]; omega
  unfold comparator
  extract_lets t c next cnt period t1 t2 s1
  split
  · have h1 : ArchSame t1 t ∧ sget t1 snSMP_CTL = sget t snSMP_CTL := by
      simp only [t1]
      split
      · exact ⟨ArchSame.rfl' _, sget_sput_other _ _ hx.symm⟩
      · exact ⟨ArchSame.rfl' _, sget_sput_other _ _ hc.symm⟩
    have h2 : ArchSame t2 t ∧ sget t2 snSMP_CTL = sget t snSMP_CTL := by
      simp only [t2]
      split
      · exact ⟨h1.1, h1.2⟩
      · exact h1
    have h3 : Counted s s1 h := tput_counted s h t2 h2.1 h2.2
    split
    · exact h3.trans' (privSet_counted s1 h h (4 + n))
    · exact h3
  · exact Counted.rfl' s h

theorem foldl_counted {α : Type} (l : List α) (f : State → α → State) (h : Hart)
    (hf : ∀ s a, a ∈ l → Counted s (f s a) h) (s : State) : Counted s (l.foldl f s) h := by
  induction l generalizing s with
  | nil => exact Counted.rfl' s h
  | cons a r ih =>
    exact (hf s a (by simp)).trans' (ih (fun s b hb => hf s b (by simp [hb])) (f s a))

/-- An event of a hart changes counters, comparators and pending sources, nothing else. -/
theorem countThread_counted (s : State) (h : Hart) (e n : Nat) : Counted s (countThread s h e n) h := by
  cases h with
  | drover st c t =>
    simp only [countThread]
    split
    · exact Counted.rfl' _ _
    · split
      · exact (pmAdd_counted _ _ _ _).trans'
          (foldl_counted _ _ _ (fun s a ha => comparator_counted s _ e a (by simpa using ha)) _)
      · exact pmAdd_counted _ _ _ _
  | outrider n => exact Counted.rfl' _ _
  | waystation d => exact Counted.rfl' _ _

theorem countEvents_counted (s : State) (h : Hart) (es : List Nat) : Counted s (countEvents s h es) h :=
  foldl_counted es _ h (fun s e _ => countThread_counted s h e 1) s

/-- While counters are frozen an event changes nothing. -/
theorem countThread_frozen (s : State) (h : Hart) (e n : Nat) (hf : pmFrozen s = true) : countThread s h e n = s := by
  cases h <;> simp [countThread, hf]

theorem countEvents_frozen (s : State) (h : Hart) (es : List Nat) (hf : pmFrozen s = true) : countEvents s h es = s := by
  unfold countEvents
  induction es with
  | nil => rfl
  | cons e r ih => simp only [List.foldl_cons, countThread_frozen s h e 1 hf]; exact ih

/-! ## Exceptions -/

/-- Two states of a hart with the same x, p, v and m registers. -/
def RegsSame (a b : Thread) : Prop := a.x = b.x ∧ a.p = b.p ∧ a.v = b.v ∧ a.m = b.m

theorem ArchSame.regs {a b : Thread} (h : ArchSame a b) : RegsSame a b := ⟨h.1, h.2.1, h.2.2.1, h.2.2.2.1⟩

theorem RegsSame.trans' {a b c : Thread} (h1 : RegsSame a b) (h2 : RegsSame b c) : RegsSame a c :=
  ⟨h1.1.trans h2.1, h1.2.1.trans h2.2.1, h1.2.2.1.trans h2.2.2.1, h1.2.2.2.trans h2.2.2.2⟩

/-- A Sync write taking effect changes a state register or the interrupt mask, nothing else of the hart. -/
theorem applyOne_arch (t : Thread) (n : Nat) (v : Word) : ArchSame (applyOne t n v) t := by
  unfold applyOne; split
  · exact ArchSame.rfl' _
  · split <;> exact ArchSame.rfl' _

theorem applyOne_fold_arch {α : Type} (l : List α) (f : α → Nat) (g : α → Word) (t : Thread) :
    ArchSame (l.foldl (fun t w => applyOne t (f w) (g w)) t) t := by
  induction l generalizing t with
  | nil => exact ArchSame.rfl' _
  | cons a r ih => exact (ih _).trans' (applyOne_arch t _ _)

/-- Pending Sync writes taking effect leave the hart's registers, PC, level and world alone. -/
theorem applySync_arch (t : Thread) : ArchSame (applySync t) t := by
  unfold applySync
  exact (applyOne_fold_arch t.pend (·.1) (·.2.1) _).trans' (ArchSame.rfl' _)

theorem enterThread_regs (t : Thread) (l : Level) (cause : Nat) (val info epc : Word) (off : Nat) :
    RegsSame (enterThread t l cause val info epc off) t := by
  refine ⟨?_, ?_, ?_, ?_⟩ <;> simp only [enterThread, sput]

/-- A write by an agent leaves the x, p, v and m registers, PC, level and world of every hart alone. -/
theorem loseResv_arch (t : Thread) (a n : Nat) : ArchSame (loseResv t a n) t := by
  unfold loseResv; split
  · split <;> exact ⟨rfl, rfl, rfl, rfl, rfl, rfl, rfl⟩
  · exact ⟨rfl, rfl, rfl, rfl, rfl, rfl, rfl⟩

theorem loseResv_initial (a n : Nat) : loseResv Thread.initial a n = Thread.initial := rfl

/-- A hart's state after a write by an agent: the reservation lost where it covers the bytes and the agent is another. -/
theorem tget_clearResv (s : State) (me : Option Hart) (a n : Nat) (h : Hart) :
    tget (clearResv s me a n) h = if me.map hartKey = some (hartKey h) then tget s h else loseResv (tget s h) a n := by
  have := mapGet_map (fun _ => Thread.initial)
    (fun k t => if me.map hartKey = some k then t else loseResv t a n) s.cpu.threads (hartKey h)
    (by simp [loseResv_initial])
  simp only [tget, clearResv]
  rw [← this]
  congr 2
  funext e
  split <;> rfl

theorem tget_agentWrite (s : State) (me : Option Hart) (a : Nat) (d : List Byte) (h : Hart) :
    tget (agentWrite s me a d) h =
      if me.map hartKey = some (hartKey h) then tget s h else loseResv (tget s h) a d.length := by
  simp only [agentWrite, tget_clearResv]
  simp [tget]

theorem agentWrite_arch (s : State) (me : Option Hart) (a : Nat) (d : List Byte) (h : Hart) :
    ArchSame (tget (agentWrite s me a d) h) (tget s h) := by
  rw [tget_agentWrite]; split
  · exact ArchSame.rfl' _
  · exact loseResv_arch _ _ _

/-- A guest's exit leaves the registers of every hart alone. -/
theorem guestExit_regs (s : State) (h : Hart) : RegsSame (tget (guestExit s h) h) (tget s h) := by
  unfold guestExit
  extract_lets t
  split
  · rw [tget_tput_same]; exact ⟨rfl, rfl, rfl, rfl⟩
  · generalize List.range 144 = l
    generalize hs : s = s0
    have : ∀ s' : State, RegsSame (tget s' h) (tget s0 h) → RegsSame (tget (l.foldl (fun s e =>
        let d := guestDelta s h e
        if d = 0 then s
        else agentWrite s (some h) ((sget t snPMV_TALLY).toNat + 8 * e) (natLe 8 ((tallyVal s t e + d) % 2 ^ 48))) s') h)
        (tget s0 h) := by
      induction l with
      | nil => exact fun _ h => h
      | cons e r ih =>
        intro s' h'
        refine ih _ ?_
        dsimp only
        split
        · exact h'
        · exact (agentWrite_arch _ _ _ _ _).regs.trans' h'
    exact this s0 ⟨rfl, rfl, rfl, rfl⟩

/-- Taking an exception writes no x, p, v or m register. -/
theorem takeAt_regs (s : State) (h : Hart) (l : Level) (cause : Nat) (val info epc : Word) (off ev : Nat) :
    RegsSame (tget (takeAt s h l cause val info epc off ev) h) (tget s h) := by
  unfold takeAt
  extract_lets s1 t t' s2 s3 t3
  have h1 : RegsSame (tget s1 h) (tget s h) := (countThread_counted s h ev 1).arch.regs
  have h2 : RegsSame (tget s2 h) (tget s1 h) := by
    rw [show tget s2 h = t from tget_tput_same s1 h t]; exact (applySync_arch _).regs
  have h3 : RegsSame (tget s3 h) (tget s2 h) := by
    simp only [s3]; split
    · exact guestExit_regs s2 h
    · exact ⟨rfl, rfl, rfl, rfl⟩
  rw [tget_tput_same]
  exact (enterThread_regs t3 l cause val info epc off).trans' (h3.trans' (h2.trans' h1))

theorem takeException_regs (s : State) (h : Hart) (e : Exc) (epc : Word) :
    RegsSame (tget (takeException s h e epc) h) (tget s h) := by
  unfold takeException
  extract_lets t
  split <;> exact takeAt_regs _ _ _ _ _ _ _ _ _

/-! ## Retirement -/

/-- A group that joins those that wait for comparison changes lock state only. -/
theorem pushGroup_counted (s : State) (h : Hart) (r : GroupRec) : Counted s (pushGroup s h r) h := by
  unfold pushGroup addGroup; split <;> exact ⟨rfl, rfl, ArchSame.rfl' _, rfl⟩

/-- Recording a sample leaves the hart's registers and the registers of register space alone, and without sampling memory. -/
theorem sample_frame (s : State) (h : Hart) (pc : Word) (info : RetInfo) :
    (sample s h pc info).reg = s.reg ∧ ArchSame (tget (sample s h pc info) h) (tget s h) ∧
      (sbit (tget s h) snSMP_CTL 0 = false → (sample s h pc info).mem = s.mem) := by
  unfold sample
  extract_lets t s0 wr a s1 q
  split
  · exact ⟨rfl, ArchSame.rfl' _, fun _ => rfl⟩
  · extract_lets d s1b c s2
    have h0 : ArchSame (tget s0 h) (tget s h) := by simp only [s0, tget_tmod_same]; exact ArchSame.rfl' _
    split
    · exact ⟨rfl, h0, fun _ => rfl⟩
    · rename_i hcond
      have hon : sbit (tget s h) snSMP_CTL 0 = true := by
        cases hb : sbit (tget s h) snSMP_CTL 0
        · exact absurd (by simp [t, hb]) hcond
        · rfl
      split
      · exact ⟨rfl, by rw [tget_tmod_same]; exact ArchSame.trans' (ArchSame.rfl' _) h0, fun hf => by simp [hon] at hf⟩
      · have h2 : s2.reg = s.reg ∧ ArchSame (tget s2 h) (tget s h) := by
          simp only [s2]
          split
          · have : ArchSame (tget s1b h) (tget s h) := by
              simp only [s1b, tget_tmod_same]; exact ArchSame.trans' (ArchSame.rfl' _) h0
            exact ⟨rfl, this⟩
          · exact ⟨by simp [s1, s0], (agentWrite_arch _ _ _ _ _).trans' h0⟩
        refine ⟨h2.1, ?_, fun hf => by simp [hon] at hf⟩
        rw [tget_tmod_same]
        exact ArchSame.trans' (ArchSame.rfl' _) h2.2

theorem bennakTick_arch (t : Thread) : ArchSame (bennakTick t) t := by
  unfold bennakTick
  extract_lets l t1
  exact applyOne_fold_arch (l.filter fun w => decide (w.2.2 = 0)) (fun w => w.1) (fun w => w.2.1) t

theorem dbgInv_reg {s s' : State} (hr : s'.reg = s.reg) (w : World) : dbgInv s' w = dbgInv s w := by
  simp only [dbgInv, dbgEff, rbit, rget, hr]

theorem stepArmed_reg {s s' : State} (hr : s'.reg = s.reg) (t : Thread) : stepArmed s' t = stepArmed s t := by
  simp only [stepArmed, dbgInv_reg hr]

theorem bennak_reg {s s' : State} (hr : s'.reg = s.reg) (h : Hart) : bennak s' h = bennak s h := by
  cases h <;> simp only [bennak, rbit, rget, hr]

theorem tileMode_reg {s s' : State} (hr : s'.reg = s.reg) (st : Stop) : tileMode s' st = tileMode s st := by
  simp only [tileMode, rfld, rget, hr]

theorem hartLocked_reg {s s' : State} (hr : s'.reg = s.reg) (h : Hart) : hartLocked s' h = hartLocked s h := by
  cases h with
  | drover st c t => simp only [hartLocked]; rw [tileMode_reg hr]
  | outrider n => rfl
  | waystation d => rfl

theorem pmFrozen_reg {s s' : State} (hr : s'.reg = s.reg) : pmFrozen s' = pmFrozen s := by
  simp only [pmFrozen, rbit, rget, hr]

/-- Everything a retirement can do: see `Retired`. -/
theorem retire_retired (s : State) (h : Hart) (t0 : Thread) (pc : Word) (info : RetInfo) :
    Retired (moveTo s h pc) h t0 (retire s h t0 pc info) := by
  unfold retire moveTo
  extract_lets s0 s1 s2 s3 s4
  have hs : snTHR_CTL = snTHR_CTL := rfl
  have a1 : ArchSame (tget s1 h) (tget (tmod s h fun t => { t with pc := pc }) h) := by
    simp only [s1, s0, tget_tmod_same]
    have : ArchSame (if bennak s h then bennakTick (tget s h) else tget s h) (tget s h) := by
      split
      · exact bennakTick_arch _
      · exact ArchSame.rfl' _
    exact ⟨this.1, this.2.1, this.2.2.1, this.2.2.2.1, rfl, this.2.2.2.2.2.1, this.2.2.2.2.2.2⟩
  have c2 : Counted s1 s2 h := countEvents_counted s1 h _
  have c3 := sample_frame s2 h t0.pc info
  have c4 : Counted s3 s4 h := pushGroup_counted s3 h _
  have r4 : s4.reg = s.reg := c4.reg.trans (c3.1.trans c2.reg)
  have a4 : ArchSame (tget s4 h) (tget (tmod s h fun t => { t with pc := pc }) h) :=
    c4.arch.trans' (c3.2.1.trans' (c2.arch.trans' a1))
  have st : stepArmed s4 t0 = stepArmed (tmod s h fun t => { t with pc := pc }) t0 := stepArmed_reg r4 t0
  constructor
  · show RegsSame _ _
    split
    · exact (takeException_regs _ _ _ _).trans' a4.regs
    · exact a4.regs
  · intro hn
    rw [st, hn]
    exact ⟨a4.2.2.2.2.1, a4.2.2.2.2.2.1, a4.2.2.2.2.2.2⟩
  · intro hn hb hm
    have hb' : bennak s h = false := by rw [← hb]; rfl
    have e1 : sbit (tget s1 h) snSMP_CTL 0 = false := by
      simp only [s1, s0, tget_tmod_same, hb'] at *
      exact hm
    have e2 : sbit (tget s2 h) snSMP_CTL 0 = false := by
      simp only [sbit, c2.smp]; exact e1
    rw [st, hn]
    exact c4.mem.trans ((c3.2.2 e2).trans c2.mem)
  · intro hu
    have hb : bennak s h = false := by rw [← hu.notBennak]; rfl
    have hn : (tget s h).smpSel = none := by have := hu.noSample; rwa [tget_tmod_same] at this
    have e1 : s1 = changes h (fun u => { u with slotA := slotNext h t0 info.word }) (tmod s h fun t => { t with pc := pc }) := by
      have e0 : s0 = tmod s h fun t => { t with pc := pc } := by
        simp only [s0, tmod, hb, hn, Option.map_none]
        congr 1
      rw [← e0]; rfl
    have e2 : s2 = s1 := countEvents_frozen s1 h _ (by rw [e1]; exact hu.frozen)
    have e3 : s3 = s2 := by
      simp only [s3]
      unfold sample
      have hz : (tget s2 h).smpSel = none := by
        rw [e2, e1, changes, tget_tmod_same]; exact hu.noSample
      simp only [hz]
    have e4 : s4 = s3 := by
      have hl : hartLocked s3 h = false := by rw [e3, e2, e1]; exact hu.notLocked
      simp only [s4, pushGroup, hl]; rfl
    have : stepArmed s4 t0 = false := by rw [st]; exact hu.noStep
    refine ⟨info.word, ?_⟩
    rw [this, e4, e3, e2, e1]; rfl

/-- A boundary at which nothing is due holds nothing up, whatever the group of the instruction. -/
theorem boundary_none {s : State} {h : Hart} (hb : atBoundary s h = none) (word : BitVec 32) : boundary s h word = none := by
  unfold boundary; split
  · rfl
  · exact hb

/-! ## An instruction that issues -/

/-- An instruction that issues and passes the checks of its order does what its body says. -/
theorem runInstr_issues {s s1 : State} {h : Hart} {q : BitVec 4} {i : Ins} {body : State → Eff}
    (hi : Issues s h q i.xs s1) (hu : i.undef = false) (ho : orderFour s1 h i = none) :
    runInstr s h q i body = .next (match body s1 with
      | .done s2 pc info => retire (vdirty s2 h i.vec) h (tget s1 h) pc info
      | .exc s2 e => raise s2 h e i.word
      | .stay s2 => s2) := by
  have hf : (if isDrover h then fetchCheck s h else physFetch s h) = (s1, none, false) := hi.fetched
  simp only [runInstr, hi.runs, boundary_none hi.boundary, hf, runFetched, hi.legal, hu, hi.free, hi.holds, ho]
  rfl

/-- An instruction whose body completes retires from what the body left. -/
theorem runInstr_does {s s1 s2 : State} {h : Hart} {q : BitVec 4} {i : Ins} {body : State → Eff} {pc : Word} {info : RetInfo}
    (hi : Issues s h q i.xs s1) (hu : i.undef = false) (ho : orderFour s1 h i = none) (hb : body s1 = .done s2 pc info) :
    ∃ t, runInstr s h q i body = .next t ∧ Retired (moveTo (vdirty s2 h i.vec) h pc) h (tget s1 h) t := by
  refine ⟨_, runInstr_issues hi hu ho, ?_⟩
  rw [hb]
  exact retire_retired _ h _ pc info

theorem xset_pc (t : Thread) (r : Reg) (v : Word) : (xset t r v).pc = t.pc := by
  unfold xset; split <;> rfl

theorem pset_pc (t : Thread) (r : PReg) (b : Bool) : (pset t r b).pc = t.pc := by
  unfold pset; split <;> rfl

/-- An instruction that writes one x register and raises nothing. -/
theorem runX_does {s s1 : State} {h : Hart} {q : BitVec 4} {i : Ins} {rd : Reg} {f : Thread → Word}
    (hi : Issues s h q i.xs s1) (hu : i.undef = false) (ho : orderFour s1 h i = none) (hv : i.vec = .none) :
    ∃ t, runX s h q i rd f = .next t ∧
      Retired (moveTo (changes h (fun t => xset t rd (f t)) s1) h (nextWord (tget s1 h))) h (tget s1 h) t := by
  have hb : fin (tmod s1 h fun t => xset t rd (f t)) h i.word =
      .done (tmod s1 h fun t => xset t rd (f t)) (nextWord (tget s1 h)) (plain i.word) := by
    simp only [fin, tget_tmod_same, xset_pc, nextWord]
  have := runInstr_does (body := fun s => fin (tmod s h fun t => xset t rd (f t)) h i.word) hi hu ho hb
  simp only [hv, vdirty] at this
  exact this

/-- An exception of an instruction writes no x, p, v or m register. -/
theorem raise_regs (s : State) (h : Hart) (e : Exc) (word : BitVec 32) : RegsSame (tget (raise s h e word) h) (tget s h) :=
  (pushGroup_counted _ h _).arch.regs.trans' (takeException_regs s h e _)

/-- An instruction whose body raises. -/
theorem runInstr_raises {s s1 : State} {h : Hart} {q : BitVec 4} {i : Ins} {body : State → Eff} {e : Exc}
    (hi : Issues s h q i.xs s1) (hu : i.undef = false) (ho : orderFour s1 h i = none) (hb : body s1 = .exc s1 e) :
    ∃ t word, runInstr s h q i body = .next t ∧ t = raise s1 h e word ∧ RegsSame (tget t h) (tget s1 h) := by
  refine ⟨_, i.word, runInstr_issues hi hu ho, ?_, ?_⟩
  · rw [hb]
  · rw [hb]; exact raise_regs s1 h e _

/-- An instruction that the checks of order 4 refuse. -/
theorem runInstr_refused {s s1 : State} {h : Hart} {q : BitVec 4} {i : Ins} {body : State → Eff} {e : Exc}
    (hi : Issues s h q i.xs s1) (hu : i.undef = false) (ho : orderFour s1 h i = some e) :
    ∃ t word, runInstr s h q i body = .next t ∧ t = raise s1 h e word ∧ RegsSame (tget t h) (tget s1 h) := by
  have hf : (if isDrover h then fetchCheck s h else physFetch s h) = (s1, none, false) := hi.fetched
  refine ⟨raise s1 h e i.word, i.word, ?_, rfl, raise_regs s1 h e _⟩
  simp only [runInstr, hi.runs, boundary_none hi.boundary, hf, runFetched, hi.legal, hu, hi.free, hi.holds, ho]
  rfl

/-- A word that encodes no instruction. -/
theorem runInstr_undef {s s1 : State} {h : Hart} {q : BitVec 4} {i : Ins} {body : State → Eff} (hf : Fetches s h s1) (hu : i.undef = true) :
    ∃ t word, runInstr s h q i body = .next t ∧ t = raise s1 h (wordExc cUNDEF word) word ∧ RegsSame (tget t h) (tget s1 h) := by
  have hf' : (if isDrover h then fetchCheck s h else physFetch s h) = (s1, none, false) := hf.fetched
  refine ⟨_, i.word, ?_, rfl, raise_regs s1 h _ _⟩
  simp [runInstr, hf.runs, boundary_none hf.boundary, hf', runFetched, hu, wordExc]

/-- Every command that is an instruction of a hart is run as one. -/
theorem exec_instr {c : Instr} {h : Hart} {q : BitVec 4} (hc : headOf c = some (h, q)) :
    ∃ (i : Ins) (body : State → Eff), ∀ s, exec c s = runInstr s h q i body := by
  cases c <;> cases hc <;> exact ⟨_, _, fun s => rfl⟩

/-! ## From a meaning to its claim -/

/-- An instruction whose checks pass and whose body completes with `eff` does `eff`. -/
theorem does_of {c : Instr} {h : Hart} {q : BitVec 4} {xs : List Reg} {pre : State → Prop} {eff : State → State} {pc : Thread → Word}
    (i : Ins) (body : State → Eff) (hc : ∀ s, exec c s = runInstr s h q i body) (hx : i.xs = xs) (hu : i.undef = false)
    (hv : i.vec = .none ∨ i.vec = .reads) (ho : ∀ s, pre s → orderFour s h i = none)
    (hb : ∀ s, pre s → ∃ info, body s = .done (eff s) (pc (tget s h)) info) : Does c h q xs pre eff pc := by
  intro s s1 hi hp
  subst hx
  obtain ⟨info, hb'⟩ := hb s1 hp
  obtain ⟨t, h1, h2⟩ := runInstr_does hi hu (ho s1 hp) hb'
  exact ⟨t, (hc s).trans h1, by rcases hv with hv | hv <;> rw [hv] at h2 <;> exact h2⟩

/-- An instruction that writes vector state, whose checks pass and whose body completes with `eff`. -/
theorem does_writes {c : Instr} {h : Hart} {q : BitVec 4} {xs : List Reg} {pre : State → Prop} {eff : State → State} {pc : Thread → Word}
    (i : Ins) (body : State → Eff) (hc : ∀ s, exec c s = runInstr s h q i body) (hx : i.xs = xs) (hu : i.undef = false)
    (hv : i.vec = .writes) (ho : ∀ s, pre s → orderFour s h i = none)
    (hb : ∀ s, pre s → ∃ info, body s = .done (eff s) (pc (tget s h)) info) :
    Does c h q xs pre (fun s => vdirty (eff s) h .writes) pc := by
  intro s s1 hi hp
  subst hx
  obtain ⟨info, hb'⟩ := hb s1 hp
  obtain ⟨t, h1, h2⟩ := runInstr_does hi hu (ho s1 hp) hb'
  rw [hv] at h2
  exact ⟨t, (hc s).trans h1, h2⟩

/-- An instruction whose checks pass and whose body changes its hart and goes on at the next word. -/
theorem does_changes {c : Instr} {h : Hart} {q : BitVec 4} {xs : List Reg} {pre : State → Prop} {f : State → Thread → Thread}
    (i : Ins) (body : State → Eff) (hc : ∀ s, exec c s = runInstr s h q i body) (hx : i.xs = xs) (hu : i.undef = false)
    (hv : i.vec = .none ∨ i.vec = .reads) (ho : ∀ s, pre s → orderFour s h i = none)
    (hb : ∀ s, pre s → body s = fin (tmod s h (f s)) h i.word) (hp : ∀ s t, (f s t).pc = t.pc) :
    Does c h q xs pre (fun s => changes h (f s) s) nextWord := by
  refine does_of i body hc hx hu hv ho (fun s hs => ⟨plain i.word, ?_⟩)
  rw [hb s hs]
  simp only [fin, tget_tmod_same, hp, nextWord, changes]

/-- An instruction whose checks pass and whose body raises. -/
theorem raises_of {c : Instr} {h : Hart} {q : BitVec 4} {xs : List Reg} {pre : State → Prop} {cause : Nat} {val info : State → Nat}
    (i : Ins) (body : State → Eff) (hc : ∀ s, exec c s = runInstr s h q i body) (hx : i.xs = xs) (hu : i.undef = false)
    (ho : ∀ s, pre s → orderFour s h i = none) (hb : ∀ s, pre s → body s = .exc s ⟨cause, val s, info s, none⟩) :
    Raises c h q xs pre cause val info := by
  intro s s1 hi hp
  subst hx
  rw [hc s]
  exact runInstr_raises hi hu (ho s1 hp) (hb s1 hp)

/-- An instruction that the checks of order 4 refuse. -/
theorem raises_of_check {c : Instr} {h : Hart} {q : BitVec 4} {xs : List Reg} {pre : State → Prop} {cause : Nat} {val info : State → Nat}
    (i : Ins) (body : State → Eff) (hc : ∀ s, exec c s = runInstr s h q i body) (hx : i.xs = xs) (hu : i.undef = false)
    (ho : ∀ s, pre s → orderFour s h i = some ⟨cause, val s, info s, none⟩) : Raises c h q xs pre cause val info := by
  intro s s1 hi hp
  subst hx
  rw [hc s]
  exact runInstr_refused hi hu (ho s1 hp)

/-- A word that encodes no instruction. -/
theorem encodesNone_of {c : Instr} {h : Hart} {q : BitVec 4} (i : Ins) (body : State → Eff)
    (hc : ∀ s, exec c s = runInstr s h q i body) (hu : i.undef = true) : EncodesNone c h := by
  intro s s1 hf
  rw [hc s]
  exact runInstr_undef hf hu

end Sys2Proof.Machine
end

