-- ==== Sys2Proof/Laws/Memory.lean ====
section
/-!
SUPPORT. Laws of data accesses: an access that passes its checks, and what loads, stores, exclusives and atomics of a Drover thread do
with memory.
-/

namespace Sys2Proof.Machine

/-! ## Accesses of a Drover thread to memory -/

/-- The body of an instruction whose access passes its checks and lies in memory performs it. -/
theorem accBody_reaches {s1 s2 : State} {h : Hart} {r : AccReq} {va : Nat} {ps : List Piece} (w : BitVec 32) (d : List Byte) (f : MFin)
    (hr : Reaches s1 h r va s2 ps) :
    accBody s1 h w r va d f =
      if r.kind = 2 then stxMem s2 h r d f (accInfo w va r ps) ps
      else if 16 ≤ r.kind then amoMem s2 h r d f (accInfo w va r ps) ps
      else if r.ak = .write then droverStore s2 h r d (accInfo w va r ps) ps
      else droverLoad s2 h r f (accInfo w va r ps) ps := by
  have ha : (mustAlign s1 h r && decide (va % r.n ≠ 0)) = false := by
    cases hm : mustAlign s1 h r
    · rfl
    · simp [hr.aligned hm]
  have hd : (ps.any fun p => isDevice p.pa && decide (p.pa < 2 ^ 52)) = false := by
    simp only [List.any_eq_false]
    intro p hp
    simp [hr.inMemory p hp]
  unfold accBody
  rw [ha, hr.passed]
  simp only [Bool.false_eq_true, if_false]
  unfold accRun
  rw [hd, hr.drover]
  rfl

theorem accInfo_pa (w : BitVec 32) (va : Nat) (r : AccReq) (ps : List Piece) : (accInfo w va r ps).pa = accAddr ps := rfl

/-- Parts that no store overlaps take nothing from the thread's stores. -/
theorem youngest_none {t : Thread} {ps : List Piece} (hs : ∀ p ∈ ps, ∀ e ∈ t.stores, storeHits e p.pa p.n = false) : youngest t ps = [] := by
  have h2 : (t.stores.filter fun e => ps.any fun p => storeHits e p.pa p.n) = [] := by
    rw [List.filter_eq_nil_iff]; intro e he
    simp only [List.any_eq_true, not_exists, not_and]
    intro p hp; simp [hs p hp e he]
  simp only [youngest, h2]; rfl

/-- A load that can be read from memory takes its bytes. -/
theorem droverLoad_readable {s s3 s4 : State} {h : Hart} {r : AccReq} {ps : List Piece} (f : MFin) (info : RetInfo)
    (hr : Readable s h r ps s3 s4) : droverLoad s h r f info ps = loadDone s4 h r f (partBytes s4 ps) info := by
  unfold droverLoad
  simp only [hr.ordered, youngest_none hr.noStore, List.head?_nil, hr.lines]
  rfl

/-- Lines that are there for an access that reads them are taken, and none lies behind a link that is down. -/
theorem readLines_taken {s s4 : State} {h : Hart} {w : Bool} {ps : List Piece} (hl : readLines s h w ps = (s4, .there)) :
    linesTake s h (partLines w ps) = (s4, true) := by
  unfold readLines at hl
  split at hl
  · cases hl
  · extract_lets l at hl
    split at hl
    · cases hl
    · rename_i ht
      split at hl
      · cases hl
      · injection hl with h1 _
        exact Prod.ext h1 (by simpa [l] using ht)

theorem lockGate_state {s s5 : State} {h : Hart} (hg : lockGate s h = (true, s5)) : s5 = s := by
  unfold lockGate at hg
  split at hg
  · injection hg with _ h2; exact h2.symm
  · extract_lets k at hg
    split at hg <;> injection hg with h1 h2
    · exact h2.symm
    · cases h1
    · cases h1

theorem orderedWrite_unlocked {s : State} {h : Hart} (rel : Bool) (a : MAcc) (hl : hartLocked s h = false) :
    orderedWrite s h rel a = agentWrite s (some h) a.pa a.data := by
  simp only [orderedWrite, hl]; rfl

/-- A store that can join the thread's committed stores does. -/
theorem droverStore_committable {s s3 s4 : State} {h : Hart} {r : AccReq} {ps : List Piece} (d : List Byte) (info : RetInfo)
    (hc : Committable s h r ps s3 s4) :
    droverStore s h r d info ps =
      .done (pushStore (commitPages s4 h (partPages h r ps)) h r.noFwd r.rel (accSlices ps d)) ((tget s h).pc + 4) info := by
  unfold droverStore
  simp only [hc.room.1, hc.room.2, hc.pages]
  rfl

/-- An STX whose reservation holds writes and answers 0. -/
theorem stxMem_holds {s s4 s5 s6 : State} {h : Hart} {r : AccReq} {ps : List Piece} (d : List Byte) (f : MFin) (info : RetInfo)
    (ho : Orderable s h r ps s4 s5 s6) (hr : (tget s h).resv = some ⟨info.pa, r.n⟩) :
    stxMem s h r d f info ps =
      .done (tmod (agentWrite (commitPages s6 h (partPages h r ps)) (some h) (wordAcc ps d).pa (wordAcc ps d).data) h fun t =>
        exclEnd 2 0 0 (finWrite t f [0])) ((tget s h).pc + 4) info := by
  simp only [stxMem, resvHolds, hr, ho.written, readLines_taken ho.lines, ho.compared, ho.pages, orderedWrite_unlocked _ _ ho.notLocked]
  rfl

/-- An STX without its reservation writes nothing and answers 1. -/
theorem stxMem_fails {s : State} {h : Hart} {ps : List Piece} (r : AccReq) (d : List Byte) (f : MFin) (info : RetInfo)
    (hr : (tget s h).resv ≠ some ⟨info.pa, r.n⟩) : stxMem s h r d f info ps = stxFail s h f info := by
  simp only [stxMem, resvHolds, hr]; rfl

/-- An AMO reads, and writes what its operation gives. -/
theorem amoMem_orderable {s s4 s5 s6 : State} {h : Hart} {r : AccReq} {ps : List Piece} {v : Nat} (d : List Byte) (f : MFin)
    (info : RetInfo) (ho : Orderable s h r ps s4 s5 s6)
    (hv : amoNew (r.kind - 16) r.n (leNat (memRead s4 info.pa r.n)) (leNat (d.take r.n)) (leNat (d.drop r.n)) = some v) :
    amoMem s h r d f info ps =
      loadDone (agentWrite (commitPages s6 h (partPages h r ps)) (some h) (wordAcc ps (natLe r.n v)).pa (wordAcc ps (natLe r.n v)).data) h r f
        (memRead s4 info.pa r.n) { info with events := [evLOAD, evSTORE, evAMO] } := by
  simp only [amoMem, ho.written, ho.lines, ho.compared, hv, ho.pages, orderedWrite_unlocked _ _ ho.notLocked]
  rfl

/-- An AMO whose operation gives nothing to write reads only. -/
theorem amoMem_owned {s s4 s5 : State} {h : Hart} {r : AccReq} {ps : List Piece} (d : List Byte) (f : MFin) (info : RetInfo)
    (ho : Owned s h ps s4 s5)
    (hv : amoNew (r.kind - 16) r.n (leNat (memRead s4 info.pa r.n)) (leNat (d.take r.n)) (leNat (d.drop r.n)) = none) :
    amoMem s h r d f info ps = loadDone s5 h r f (memRead s4 info.pa r.n) { info with events := [evLOAD, evAMO] } := by
  simp only [amoMem, ho.written, ho.lines, ho.compared, hv]
  rfl

/-! ## Numbers of bytes -/

theorem leNat_lt (l : List Byte) : leNat l < 2 ^ (8 * l.length) := by
  induction l with
  | nil => simp [leNat]
  | cons b r ih =>
    have hb := b.isLt
    simp only [leNat, List.length_cons]
    have : 2 ^ (8 * (r.length + 1)) = 256 * 2 ^ (8 * r.length) := by rw [Nat.mul_add, Nat.pow_add]; omega
    omega

theorem signExtend_bytes (n v : Nat) (hn : n = 1 ∨ n = 2 ∨ n = 4 ∨ n = 8) (hl : v < 2 ^ (8 * n)) :
    (if bit v (8 * n - 1) = true then 2 ^ 64 - 2 ^ (8 * n) + v else v) % 2 ^ 64 = ((BitVec.ofNat (8 * n) v).signExtend 64).toNat := by
  rw [BitVec.toNat_signExtend]
  have hm : (BitVec.ofNat (8 * n) v).msb = bit v (8 * n - 1) := by
    rw [BitVec.msb_eq_decide]
    simp only [BitVec.toNat_ofNat, Nat.mod_eq_of_lt hl, bit]
    rcases hn with rfl | rfl | rfl | rfl <;> simp only [Nat.reduceMul, Nat.reducePow, Nat.reduceSub] at * <;>
      (apply Bool.eq_iff_iff.2; simp; omega)
  rw [hm]
  simp only [BitVec.toNat_setWidth, BitVec.toNat_ofNat, Nat.mod_eq_of_lt hl]
  rcases hn with rfl | rfl | rfl | rfl <;> simp only [Nat.reduceMul, Nat.reducePow, Nat.reduceSub] at * <;> split <;> omega

/-- What a load writes to its register: its bytes as a number, extended. -/
theorem finWrite_x (t : Thread) (rd : Reg) (n : Nat) (sext : Bool) (b : List Byte) (hn : n = 1 ∨ n = 2 ∨ n = 4 ∨ n = 8) :
    finWrite t (.x rd n sext) b = xset t rd (extended sext n (leNat (b.take n))) := by
  have hl : leNat (b.take n) < 2 ^ (8 * n) :=
    Nat.lt_of_lt_of_le (leNat_lt _) (Nat.pow_le_pow_right (by decide) (by have := List.length_take_le n b; omega))
  simp only [finWrite]
  congr 1
  generalize leNat (b.take n) = v at hl
  apply BitVec.eq_of_toNat_eq
  unfold extended
  cases sext
  · simp only [Bool.false_and, Bool.false_eq_true, if_false, BitVec.toNat_ofNat, BitVec.toNat_setWidth, Nat.mod_eq_of_lt hl]
  · simp only [Bool.true_and, if_true, BitVec.toNat_ofNat]
    exact signExtend_bytes n v hn hl

theorem leNat_append (l r : List Byte) : leNat (l ++ r) = leNat l + 2 ^ (8 * l.length) * leNat r := by
  induction l with
  | nil => simp [leNat]
  | cons b l ih =>
    simp only [List.cons_append, leNat, ih, List.length_cons, Nat.mul_add, Nat.pow_add]
    have : 2 ^ (8 * 1) = 256 := rfl
    rw [this, Nat.mul_comm (2 ^ (8 * l.length)) 256, Nat.mul_assoc, Nat.add_assoc]

@[simp] theorem natLe_length (n v : Nat) : (natLe n v).length = n := by simp [natLe]

/-- The number that `n` bytes of a number spell. -/
theorem leNat_natLe (n v : Nat) : leNat (natLe n v) = v % 2 ^ (8 * n) := by
  induction n with
  | zero => simp [natLe, leNat, Nat.mod_one]
  | succ n ih =>
    have : natLe (n + 1) v = natLe n v ++ [BitVec.ofNat 8 (v / 256 ^ n)] := by simp [natLe, List.range_succ]
    rw [this, leNat_append, ih, natLe_length]
    have hp : 256 ^ n = 2 ^ (8 * n) := by rw [Nat.pow_mul]
    simp only [leNat, BitVec.toNat_ofNat, Nat.mul_zero, Nat.add_zero, hp]
    rw [Nat.mul_add, Nat.pow_add, Nat.mod_mul]

end Sys2Proof.Machine
end

