-- ==== Sys2Proof/Laws/Vector.lean ====
section
/-!
SUPPORT. Laws of vector registers: the elements of a register made of elements.
-/

namespace Sys2Proof.Machine

theorem vecOf_lt (e : Nat) (l : List Nat) : vecOf e l < 2 ^ (e * l.length) := by
  induction l with
  | nil => simp [vecOf]
  | cons x r ih =>
    have hx : x % 2 ^ e < 2 ^ e := Nat.mod_lt _ (Nat.two_pow_pos e)
    simp only [vecOf, List.length_cons, Nat.mul_add, Nat.mul_one, Nat.pow_add]
    calc x % 2 ^ e + 2 ^ e * vecOf e r < 2 ^ e + 2 ^ e * vecOf e r := by omega
      _ = 2 ^ e * (vecOf e r + 1) := by rw [Nat.mul_add, Nat.mul_one, Nat.add_comm]
      _ ≤ 2 ^ e * 2 ^ (e * r.length) := Nat.mul_le_mul_left _ ih
      _ = 2 ^ (e * r.length) * 2 ^ e := Nat.mul_comm _ _

/-- Element `i` of the number that a list of elements spells. -/
theorem bits_vecOf (e : Nat) (l : List Nat) (i : Nat) (hi : i < l.length) : bits (vecOf e l) (i * e) e = l[i] % 2 ^ e := by
  induction l generalizing i with
  | nil => simp at hi
  | cons x r ih =>
    cases i with
    | zero => simp [bits, vecOf]
    | succ i =>
      have h1 := ih i (by simpa using hi)
      simp only [bits, vecOf, List.getElem_cons_succ] at *
      rw [← h1, Nat.succ_mul, Nat.add_comm (i * e) e, Nat.pow_add, ← Nat.div_div_eq_div_mul]
      congr 2
      rw [Nat.add_mul_div_left _ _ (Nat.two_pow_pos e), Nat.div_eq_of_lt (Nat.mod_lt _ (Nat.two_pow_pos e)), Nat.zero_add]

theorem eszBits_mul_count (esz : BitVec 2) : eszBits esz * eszCount esz = 256 := by
  revert esz; decide

/-- Element `i` of a v register made of the elements of a list. -/
theorem elemGet_vecOf (esz : BitVec 2) (g : Nat → Nat) (i : Nat) (hi : i < eszCount esz) :
    elemGet (eszBits esz) (BitVec.ofNat 256 (vecOf (eszBits esz) ((List.range (eszCount esz)).map g))) i = g i % 2 ^ eszBits esz := by
  have hl := vecOf_lt (eszBits esz) ((List.range (eszCount esz)).map g)
  rw [List.length_map, List.length_range, eszBits_mul_count] at hl
  simp only [elemGet, BitVec.toNat_ofNat, Nat.mod_eq_of_lt hl]
  rw [bits_vecOf _ _ _ (by simpa using hi)]
  simp

theorem elemGet_lt (e : Nat) (v : Vec) (i : Nat) : elemGet e v i % 2 ^ e = elemGet e v i :=
  Nat.mod_eq_of_lt (Nat.mod_lt _ (Nat.two_pow_pos e))

/-- The elements of a destination that is merged. -/
theorem elemGet_vMerge (t : Thread) (vd : Reg) (msk : PReg) (z : Bool) (esz : BitVec 2) (f : Nat → Nat) (i : Nat)
    (hi : i < eszCount esz) : elemGet (eszBits esz) (vMerge t vd msk z esz f) i =
      if vActive t msk z i then f i % 2 ^ eszBits esz else if z then 0 else elemGet (eszBits esz) (vget t vd) i := by
  unfold vMerge
  rw [elemGet_vecOf esz _ i hi]
  split
  · rfl
  · split
    · rfl
    · exact elemGet_lt _ _ _

theorem getLsbD_vecOf (l : List Nat) (i : Nat) : (vecOf 1 l).testBit i = (l.getD i 0 % 2 == 1) := by
  induction l generalizing i with
  | nil => simp [vecOf]
  | cons x r ih =>
    cases i with
    | zero =>
      have : (x % 2 ^ 1 + 2 ^ 1 * vecOf 1 r) % 2 = x % 2 := by omega
      simp only [vecOf, Nat.testBit_zero, this, List.getD_cons_zero]
      by_cases h : x % 2 = 1 <;> simp [h]
    | succ i =>
      have : (x % 2 ^ 1 + 2 ^ 1 * vecOf 1 r).testBit (i + 1) = (vecOf 1 r).testBit i := by
        rw [Nat.testBit_succ]; congr 1; omega
      simp only [vecOf, this, ih]
      simp

/-- The bits of a mask that is merged. -/
theorem getLsbD_kMerge (t : Thread) (md : PReg) (msk : PReg) (z : Bool) (esz : BitVec 2) (f : Nat → Bool) (i : Nat) :
    (kMerge t md msk z esz f).getLsbD i =
      if i < eszCount esz then (if vActive t msk z i then f i else if z then false else (mget t md).getLsbD i) else false := by
  have hc : eszCount esz ≤ 32 := by revert esz; decide
  unfold kMerge
  simp only [BitVec.getLsbD_ofNat, getLsbD_vecOf]
  by_cases hi : i < eszCount esz
  · have h32 : i < 32 := by omega
    simp only [hi, h32, if_true, decide_true, Bool.true_and]
    rw [List.getD_eq_getElem _ _ (by simpa using hi)]
    simp only [List.getElem_map, List.getElem_range]
    generalize (if vActive t msk z i then f i else if z then false else (mget t md).getLsbD i) = b
    cases b <;> rfl
  · simp [hi]

end Sys2Proof.Machine
end

