-- ==== Sys2Proof/Tests/Slice0.lean ====
section
/-!
SUPPORT. Tests: ill-formed commands, one step of a few commands with results worked out from the spec, and, for each statement with hypotheses, states and
operands that meet them, clause by clause.
-/

namespace Sys2Proof.Tests

open Sys2Proof Sys2Proof.Machine

set_option linter.unusedVariables false
set_option Elab.async false

/-! ## Small states -/

/-- The package in Run with the domains of the listed stops ON. -/
def liveSt (l : List Stop) : State :=
  let s0 := rsetB (rputF State.reset (wsStop 0) 4 PKG_STATE 0 4 0) (wsStop 0) 3 RAIL_STAT 8 true
  l.foldl (fun s st => (List.range 10).foldl (fun s d => if domExists st d then setDom s st d dON else s) s) s0

/-- With every stack and port there, and packages 0 and 1. -/
def memSt (s : State) : State := { s with pkg := { s.pkg with members := 3, stackSet := 63, portSet := 4095 } }

/-- A register access is admitted. -/
def admitted (s : State) (i : Init) (st : Stop) (blk off : Nat) : Bool :=
  decide (regPlace s (pkgNum s * 2 ^ 30 + rkey st blk off) = some (st, blk, off)) && decide (regRefuse s i.world st blk off = .no) &&
  stopPowered s st && !pathFails s st && !blockHeld s (pkgNum s * 2 ^ 30 + rkey st blk off) &&
  (decide (accDomain s st blk off = 15) || decide (domState s st (accDomain s st blk off) = dON))

/-- A Drover thread, an Outrider and a Waystation pair. -/
def hd : Hart := .drover ⟨0, 1, 3⟩ 1 0
def hx : Hart := .outrider 0
def hw : Hart := .waystation 0

/-- The Drover thread runs at 0x8000. -/
def runSt : State := changes hd (fun t => { t with run := .running, pc := 0x8000 }) (memSt (liveSt [⟨0, 1, 3⟩, ⟨0, 1, 2⟩, ⟨0, 2, 0⟩, ⟨0, 2, 1⟩, ⟨0, 3, 0⟩]))

/-- What `Issues` and `Fetches` say of a state, as a Bool; the state after the fetch is `after`. -/
def fetched (s : State) (h : Hart) : Bool :=
  canRun s h && (atBoundary s h).isNone && (match (fetchOf s h).2 with | (none, false) => true | _ => false)
def issues (s : State) (h : Hart) (q : BitVec 4) (xs : List Reg) : Bool :=
  fetched s h && decide (q ≠ 8) && predTrue (tget (fetchOf s h).1 h) q && !busyReg (tget (fetchOf s h).1 h) xs
def after (s : State) (h : Hart) : State := (fetchOf s h).1

theorem fetches_of {s : State} {h : Hart} (hf : fetched s h = true) : Fetches s h (after s h) := by
  simp only [fetched, Bool.and_eq_true, Option.isNone_iff_eq_none] at hf
  obtain ⟨⟨h1, h2⟩, h3⟩ := hf
  refine ⟨h1, h2, ?_⟩
  unfold after
  split at h3
  · rename_i heq; exact Prod.ext rfl heq
  · cases h3

theorem issues_of {s : State} {h : Hart} {q : BitVec 4} {xs : List Reg} (hi : issues s h q xs = true) : Issues s h q xs (after s h) := by
  simp only [issues, Bool.and_eq_true, Bool.not_eq_true', decide_eq_true_eq] at hi
  exact ⟨fetches_of hi.1.1.1, hi.1.1.2, hi.1.2, hi.2⟩

/-- What `Reaches`, `Readable` and `Orderable` say, as Bools, with the parts and the state after the checks. -/
def parts (s1 : State) (h : Hart) (r : AccReq) (va : Nat) : List Piece := match (accCheck s1 h r va).2 with | .ok ps => ps | .error _ => []
def checked (s1 : State) (h : Hart) (r : AccReq) (va : Nat) : State := (accCheck s1 h r va).1
def reaches (s1 : State) (h : Hart) (r : AccReq) (va : Nat) : Bool :=
  isDrover h && (!mustAlign s1 h r || decide (va % r.n = 0)) && (match (accCheck s1 h r va).2 with | .ok _ => true | .error _ => false) &&
  (parts s1 h r va).all fun p => !isDevice p.pa
def readable (s : State) (h : Hart) (r : AccReq) (ps : List Piece) : Bool :=
  let a := orderFirst s h r.aq r.rel
  a.2 && (ps.all fun p => (tget a.1 h).stores.all fun e => !storeHits e p.pa p.n) && decide ((readLines a.1 h false ps).2 = .there)
def orderable (s : State) (h : Hart) (r : AccReq) (ps : List Piece) : Bool :=
  let a := readLines (drainAll s h) h true ps
  let b := lockGate a.1 h
  let c := commitReady b.2 h (partPages h r ps)
  drained (drainAll s h) h && decide (a.2 = .there) && b.1 && c.2 && !hartLocked (commitPages c.1 h (partPages h r ps)) h

/-- What `Committable` says, as a Bool. -/
def committable (s : State) (h : Hart) (r : AccReq) (ps : List Piece) : Bool :=
  let a := if storesFull s h then drainOne s h else s
  !storesFull a h && (commitReady a h (partPages h r ps)).2

/-- The fault of an access's checks. -/
def faults (s1 : State) (h : Hart) (r : AccReq) (va : Nat) : Option Nat := match (accCheck s1 h r va).2 with | .error (.exc e) => some e.cause | _ => none

/-- The state that a command leaves. -/
def next (c : Instr) (s : State) : State := match exec c s with | .next t => t | _ => s

/-- The thread with x[r] holding `v`. -/
def withX (s : State) (h : Hart) (r : Reg) (v : Word) : State := changes h (fun t => xset t r v) s

/-- The thread with `f` applied. -/
def withT (f : Thread → Thread) : State := changes hd f runSt

/-- An Outrider and a Waystation core that run from memory. -/
def outSt : State :=
  changes hx (fun t => { t with run := .running, pc := 0x8000, level := .s, world := .normal }) (memSt (liveSt [orStop 0, ⟨0, 1, 2⟩, ⟨0, 3, 0⟩, wsStop 0]))


/-! ## Witnesses: instructions that issue -/

theorem wit_RegisterOperations : Issues runSt hd 0 [7, 5, 6] (after runSt hd) ∧ Issues outSt hx 0 [7, 5, 6] (after outSt hx) :=
  ⟨issues_of (by decide +kernel), issues_of (by decide +kernel)⟩

theorem wit_ImmediateOperations : Issues runSt hd 0 [7, 5] (after runSt hd) ∧ Issues outSt hx 0 [7] (after outSt hx) :=
  ⟨issues_of (by decide +kernel), issues_of (by decide +kernel)⟩

theorem wit_BoundaryAndFetchComeFirst :
    (canRun State.reset hd = false) ∧
    (canRun (withT fun t => { t with mchk := [(1, 0, 0)] }) hd = true ∧ (atBoundary (withT fun t => { t with mchk := [(1, 0, 0)] }) hd).isSome = true) ∧
    (let s := withT fun t => { t with pc := 0xFFF0000000000 }
     canRun s hd = true ∧ (atBoundary s hd).isNone = true ∧ (fetchOf s hd).2.1.isSome = true) ∧
    (let s := { runSt with link := { runSt.link with lent := [(0x8000 / 64, 1, 2)] } }
     canRun s hd = true ∧ (atBoundary s hd).isNone = true ∧ (fetchOf s hd).2 = (none, true)) := by decide +kernel

theorem wit_ReservedPredicateRaisesUndef : headOf (.add hd 8 1 2 3) = some (hd, 8#4) ∧ Fetches runSt hd (after runSt hd) :=
  ⟨rfl, fetches_of (by decide +kernel)⟩

theorem wit_FalsePredicateDoesNothing : fetched runSt hd = true ∧ predTrue (tget (after runSt hd) hd) 1 = false := by decide +kernel

theorem wit_Branches :
    issues (withX runSt hd 5 0x100) hd 0 [1, 5] = true ∧ (xget (tget (withX runSt hd 5 0x100) hd) 5).toNat % 4 = 0 ∧
    issues (withX runSt hd 5 0x102) hd 0 [1, 5] = true ∧ (xget (tget (withX runSt hd 5 0x102) hd) 5).toNat % 4 ≠ 0 := by decide +kernel

theorem wit_PredicateInstructions : issues runSt hd 0 [1, 2] = true ∧ issues runSt hd 0 [] = true ∧ ((1 : PReg) ≠ 2 ∨ (1 : PReg) = 0) := by
  decide +kernel

theorem wit_LoadsTakeTheirBytes :
    let s := withX runSt hd 5 0x1000
    let r := loadReq 8 false
    let s2 := checked (after s hd) hd r 0x1000
    let ps := parts (after s hd) hd r 0x1000
    issues s hd 0 [7, 5] = true ∧ reaches (after s hd) hd r 0x1000 = true ∧ readable s2 hd r ps = true ∧
    readable s2 hd (loadReq 8 true) ps = true ∧ reaches (after s hd) hd (loadReq 4 false) 0x103E = true := by decide +kernel

/-- With a committed store of `n` bytes at 0x1000. -/
def storeAt (n : Nat) : StoreEnt := ⟨0, 0x1000, 0x1000, List.replicate n 9, false, false, true, false, 0⟩
def storeSt (n : Nat) : State := changes hd (fun t => { t with stores := [storeAt n] }) (withX runSt hd 5 0x1000)

theorem wit_StoresCommitThenDrain :
    (let s1 := after (withX runSt hd 5 0x1000) hd
     let r := storeReq 8 false
     reaches s1 hd r 0x1000 = true ∧ committable (checked s1 hd r 0x1000) hd r (parts s1 hd r 0x1000) = true) ∧
    (hartExists hd = true ∧ (tget (storeSt 8) hd).stores = [storeAt 8] ∧ (storeAt 8).good = true ∧ (writeOnceTo (storeSt 8) hd (storeAt 8)).isNone = true ∧
      (let l := lineTake (storeSt 8) hd (dataUse true 0 0x1000) 0x1000
       l.2 = true ∧ (tget l.1 hd).park.isNone = true)) := by
  decide +kernel

theorem wit_StoreForwarding :
    let f := fun n => let s := storeSt n
      let ps := parts (after s hd) hd (loadReq 8 false) 0x1000
      let l := youngest (tget (checked (after s hd) hd (loadReq 8 false) 0x1000) hd) ps
      (issues s hd 0 [7, 5] && reaches (after s hd) hd (loadReq 8 false) 0x1000 && !l.isEmpty && l.all (fun x => !x.vec), (storeBytes l ps).isSome)
    f 8 = (true, true) ∧ f 4 = (true, false) := by decide +kernel

theorem wit_AtomicsReadAndWrite :
    let s := withX runSt hd 5 0x1000
    let s1 := after s hd
    let f := fun op n va => reaches s1 hd (amoReq op n true true) va &&
      orderable (checked s1 hd (amoReq op n true true) va) hd (amoReq op n true true) (parts s1 hd (amoReq op n true true) va)
    issues s hd 0 [7, 5, 6] = true ∧ f 9 8 0x1000 = true ∧ f 0 4 0x1004 = true := by decide +kernel

theorem wit_ExclusivePair :
    let s := changes hd (fun t => { t with resv := some ⟨0x1000, 8⟩ }) (withX runSt hd 5 0x1000)
    let s1 := after s hd
    let r := stxReq 8 true true
    let l := ldxReq 8 true true
    issues s hd 0 [7, 5, 6] = true ∧ reaches s1 hd r 0x1000 = true ∧
    orderable (checked s1 hd r 0x1000) hd r (parts s1 hd r 0x1000) = true ∧
    (tget (checked s1 hd r 0x1000) hd).resv = some ⟨accAddr (parts s1 hd r 0x1000), 8⟩ ∧
    readable (checked s1 hd l 0x1000) hd l (parts s1 hd l 0x1000) = true := by decide +kernel

theorem wit_FailingExclusivesWriteNothing :
    let s := withX runSt hd 5 0x1000
    let s1 := after s hd
    let r := stxReq 8 false false
    let a := amoReq 9 8 false false
    (faults (after (withX runSt hd 5 0xF80000000000) hd) hd r 0xF80000000000).isSome = true ∧
    reaches s1 hd r 0x1000 = true ∧ (tget (checked s1 hd r 0x1000) hd).resv = none ∧
    (let s := withX s hd 7 5
     orderable (checked s1 hd a 0x1000) hd a (parts s1 hd a 0x1000) = true ∧
     leNat (memRead s1 0x1000 8) ≠ (xget (tget s hd) 7).toNat) := by decide +kernel

theorem wit_MisalignedExclusivesRaiseAlign :
    issues (withX runSt hd 5 0x1004) hd 0 [7, 5, 6] = true ∧ (xget (tget (withX runSt hd 5 0x1004) hd) 5).toNat % exclSize true ≠ 0 := by
  decide +kernel

theorem wit_FencesDrainTheirThread :
    (let s := storeSt 8
     issues s hd 0 [] = true ∧ (tget (after s hd) hd).stores ≠ [] ∧ (tget (after s hd) hd).nb = [] ∧
     (tget (drainAll (stall (after s hd) hd 5) hd) hd).stores = []) ∧
    (let s := { storeSt 8 with link := { runSt.link with lent := [(0x1000 / 64, 1, 2)] } }
     issues s hd 0 [] = true ∧ (tget (drainAll (stall (after s hd) hd 5) hd) hd).stores ≠ []) ∧
    (let s := changes hx (fun t => { t with nb := [⟨0, 7, false, 0, 8, none, []⟩, ⟨1, 6, true, 0x1000, 8, none, []⟩] }) outSt
     issues s hx 0 [] = true ∧ (∃ o ∈ (tget (after s hx) hx).nb, o.get = false ∧ o.status = none) ∧ ∃ o ∈ (tget (after s hx) hx).nb, o.get = true) := by
  decide +kernel

theorem wit_PrefetchesRaiseNothing :
    isDrover hx = false ∧
    (let s := withT fun t => { sput t snTR_CTL 1 with level := .s }
     (match (translate s hd .read false 0x1000).2 with | .error _ => true | .ok _ => false) = true) ∧
    (match translate runSt hd .read false 0xFFF0000000000 with | (_, .ok t) => isDevice t.pa | _ => false) = true ∧
    (match translate runSt hd .read false 0x1000 with
     | (s1, .ok t) => !isDevice t.pa && decide (seenTarget s1 .secure t.pa ≠ .nothing) && decide (pageType (regimeOf hd (tget s1 hd)) t ≠ 2)
     | _ => false) = true := by decide +kernel

/-! ## Witnesses: vectors -/

/-- With the vector unit on. -/
def vecSt : State := withT fun t => xset (sput t snTHR_CTL 0xC) 5 0x1000

theorem wit_VectorElements :
    issues vecSt hd 0 [] = true ∧ vecOn hd (after vecSt hd) ∧ issues vecSt hd 0 [5] = true := by
  refine ⟨by decide +kernel, ?_, by decide +kernel⟩
  show sbit (tget (after vecSt hd) hd) snTHR_CTL 3 = true
  decide +kernel

theorem wit_VectorDisabledRaisesVdis : issues runSt hd 0 [] = true ∧ sbit (tget (after runSt hd) hd) snTHR_CTL 3 = false := by decide +kernel

theorem wit_VectorLoadsAndStores :
    let s1 := after vecSt hd
    let t1 := tget s1 hd
    let r := fun st => (⟨0, if st then .write else .read, st, 8, true, false, false, false⟩ : AccReq)
    let c := fun st => vecCheck s1 hd (r st) (elemVa t1 false 5 0 8) (List.range 4)
    (List.range (eszCount 3)).filter (vActive t1 0 false) = List.range 4 ∧ sbit t1 snTHR_CTL 5 = false ∧
    (match (c false).2 with | .ok ps => readable (c false).1 hd (r false) ps && decide (ps ≠ []) && ps.all (fun p => !isDevice p.pa) | _ => false) = true ∧
    (match (c true).2 with | .ok ps => committable (c true).1 hd (r true) ps | _ => false) = true := by decide +kernel

theorem wit_VectorAccessFaultsWriteNothing :
    let s := withX vecSt hd 5 (BitVec.ofNat 64 (0x2400000000 - 8))
    let s1 := after s hd
    let t1 := tget s1 hd
    let r : AccReq := ⟨0, .read, false, 8, true, false, false, false⟩
    let a := vecCheck s1 hd r (elemVa t1 false 5 0 8) [0]
    (match a.2 with | .ok _ => true | _ => false) = true ∧ (faults a.1 hd r (elemVa t1 false 5 0 8 1)).isSome = true := by decide +kernel

/-! ## Witnesses: system instructions -/

/-- The thread at a level and world, with the vector unit on. -/
def levSt (l : Level) (w : World) : State := withT fun t => { sput t snTHR_CTL 0xC with level := l, world := w }

theorem wit_StateRegisterAccess :
    let ok := fun (s : State) (n : Nat) => sysAssigned hd n && !sysPriv (tget s hd).level n && !sysGuestHidden (tget s hd) n
    ok (levSt .m .secure) snTB = true ∧ ok (levSt .m .secure) snVCSR = true ∧ ok (levSt .s .normal) snTHR_CTL = true ∧ sysRO snTHR_CTL = false ∧
    issues (levSt .m .secure) hd 0 [7] = true ∧ sysSync snTR_CTL = true ∧ (tget (levSt .s .normal) hd).level ≠ .u := by decide +kernel

theorem wit_StateRegisterChecks :
    issues (levSt .u .normal) hd 0 [7] = true ∧ sysPriv .u 0x400 = true ∧ sysGuestHidden (tget (levSt .u .normal) hd) 0x400 = false ∧
    sysAssigned hd 0x3FF = false ∧ sysPriv .u 0x3FF = false ∧ sysAssigned hd snCORE_ID = true ∧ sysRO snCORE_ID = true ∧ sysPriv .u snCORE_ID = false := by
  decide +kernel

theorem wit_CallsAndBreak :
    issues (levSt .u .normal) hd 0 [] = true ∧ issues (levSt .s .normal) hd 0 [] = true ∧ issues (levSt .h .normal) hd 0 [] = true ∧
    issues (levSt .m .secure) hd 0 [] = true ∧ issues (levSt .s .secure) hd 0 [] = true := by decide +kernel

theorem wit_XretReturns :
    let lt := fun (l : Level) (n : Nat) => tget (withT fun t => { sput t (levelCode l * 0x400 + exSTATUS) (BitVec.ofNat 64 n) with level := l }) hd
    (levelOf ((sget (lt .m 2) (levelCode .m * 0x400 + exSTATUS)).toNat % 4) = .h) ∧
    (sget (lt .m 1) (levelCode .m * 0x400 + exSTATUS)).toNat % 4 = 1 ∧ issues (levSt .u .normal) hd 0 [] = true ∧
    issues (levSt .m .secure) hd 0 [] = true := by decide +kernel

theorem wit_SyncAndWait :
    bennak runSt hd = false ∧
    (let s := levSt .u .normal; sbit (tget s hd) snTHR_CTL 1 = false ∧ issues s hd 0 [7, 5] = true) ∧
    (let s := changes hd (fun t => sput t snH_CTL 1) (levSt .s .normal)
     sbit (tget s hd) snH_CTL 0 = true ∧ issues s hd 0 [7, 5] = true) ∧
    waitReasons runSt hd 0 = 0 ∧ waitReasons (withT fun t => { t with resvLost := true }) hd 0 = 4 ∧
    issues (withT fun t => { t with resvLost := true }) hd 0 [7, 5] = true := by decide +kernel

theorem wit_PredictionBarriers :
    issues (levSt .m .secure) hd 0 [] = true ∧ issues outSt hx 0 [] = true ∧ (tget (after outSt hx) hx).level ≠ .u ∧
    atRest (tget (after (levSt .m .secure) hd) (.drover ⟨0, 1, 3⟩ 0 0)) = true ∧ atRest (tget (after (levSt .m .secure) hd) (.drover ⟨0, 1, 3⟩ 1 0)) = true ∧
    issues (levSt .u .normal) hd 0 [] = true := by decide +kernel

theorem wit_TlbInvalidation :
    let s := levSt .s .secure
    let d := drainAll (after s hd) hd
    issues s hd 0 [5, 6] = true ∧ hartCore hd ≠ none ∧ drained d hd = true ∧ (invsOf d hd).length < 16 ∧
    lockGate d hd = (true, d) ∧ invsOf (after s hd) hd = [] ∧ issues (levSt .m .secure) hd 0 [5] = true ∧
    (let s := { s with cpu := { s.cpu with bcasts := [⟨1, some hd, 0, ⟨2, 0, 0, 0, 0, 48⟩, [7]⟩] } }
     issues s hd 0 [] = true ∧ (invsOf (after s hd) hd).isEmpty = false) := by decide +kernel


/-! ## Witnesses: waybill queues and registers -/

/-- Queue 0 of tile d0:(1,3), enabled, with its ring at 0x10000; the thread is of the normal world. -/
def tl : Stop := ⟨0, 1, 3⟩
def wqSt : State :=
  let s := withX (withX (levSt .s .normal) hd 5 (BitVec.ofNat 64 (0xFFF0000000000 + rkey tl 5 0x1000))) hd 6 0x2000
  wqPut { s with wb := { s.wb with enabled := [wbqNum tl 0] } } tl 0 WBQ_BASE_LO 0x10000
def qmsg : List Byte := List.replicate (wbqSize wqSt tl 0) 7
def put1 : State := (wqPutMsg wqSt tl 0 qmsg false 0 none).1
def full : State := wqPut wqSt tl 0 WBQ_TAIL (wbqDepth wqSt tl 0)

theorem wit_WaybillInstructions :
    let s1 := after wqSt hd
    let a := wbQueue s1 hd 0 (xget (tget s1 hd) 5).toNat
    let b := wbBuffer a.1 hd 0 16 0x2000
    let d := drainAll b.1 hd
    issues wqSt hd 0 [7, 5, 6] = true ∧ (match a.2 with | .ok qa => decide (queueAt 0 qa = some (tl, 0)) | _ => false) = true ∧
    drained d hd = true ∧
    (match b.2 with
     | .ok p => (wbLine d hd 0 (some p)).2 && (let c := commitReady (wbLine d hd 0 (some p)).1 hd (partPages hd (wbAccess 0 16) [p]); c.2 && (lockGate c.1 hd).1)
     | _ => false) = true ∧
    (match (wbQueue s1 hd 2 (xget (tget s1 hd) 5).toNat) with | (e, .ok _) => drained (drainAll e hd) hd && (lockGate (drainAll e hd) hd).1 | _ => false) = true := by
  decide +kernel

theorem wit_WaybillInstructions_outrider :
    let s := withX (withX { wqSt with cpu := { outSt.cpu with seqNo := 3 }, reg := outSt.reg } hx 5 (BitVec.ofNat 64 (0xFFF0000000000 + rkey tl 5 0x1000))) hx 6 0x2000
    let s1 := after s hx
    let a := wbQueue s1 hx 0 (xget (tget s1 hx) 5).toNat
    let b := wbBuffer a.1 hx 0 16 0x2000
    let c := releaseFirst (courier b.1 hx 6).1 hx true
    issues s hx 0 [7, 5, 6] = true ∧ (match a.2 with | .ok qa => decide (queueAt 0 qa = some (tl, 0)) && !srcHeld b.1 hx (dstOf b.1 qa) | _ => false) = true ∧
    (match b.2 with | .ok p => (wbLine c.1 hx 0 (some p)).2 | _ => false) = true ∧ (tget b.1 hx).nb.length < 4 ∧ (courier b.1 hx 6).2 = true ∧ c.2 = true ∧
    (let o : NbOp := ⟨4, 7, true, 0x2000, 16, some 0, []⟩
     let u := changes hx (fun t => { t with nb := [o] }) s
     (tget u hx).nb.find? (fun o => decide (o.tag = 4)) = some o ∧ wbDONE = 0 ∧ (lineTake u hx (dataUse true 2 o.buf) o.buf).2 = true) := by decide +kernel

theorem wit_WaybillQueueOperations :
    stopKind tl = .tile ∧ wqOn State.reset tl 0 = false ∧ wqOn wqSt tl 0 = true ∧ qmsg.length = wbqSize wqSt tl 0 ∧ ([] : List Byte).length ≠ wbqSize wqSt tl 0 ∧
    wbqFld wqSt tl 0 WBQ_CFG 9 1 ≠ 1 ∧ wbqFld wqSt tl 0 WBQ_CFG 10 1 ≠ 1 ∧ wqFull wqSt tl 0 = false ∧ wqFull full tl 0 = true ∧
    wqOcc wqSt tl 0 = 0 ∧ wqOcc put1 tl 0 ≠ 0 ∧ wqTentative put1 tl 0 0 = false ∧ put1.wb.holes = [] ∧
    poisoned put1 (wqSlot put1 tl 0 0) (wbqSize put1 tl 0) = false := by decide +kernel

theorem wit_WaybillQueueEvents :
    (1 : Nat) ≠ pkgNum wqSt ∧ queueAt 0 (0xFFF0000000000 + rkey tl 5 0x1000) = some (tl, 0) ∧ slotSecure wqSt tl 0 = false ∧ wqOn runSt tl 0 = false ∧
    (let e : WbProv := ⟨hartKey hd, wbqNum tl 0, false, 0, []⟩
     let s := { runSt with wb := { runSt.wb with prov := [e] }, lock := { runSt.lock with confirm := [(hartKey hd, 1)] } }
     s.wb.prov.find? (fun p => decide (p.hart = hartKey hd)) = some e ∧ confirmOf s hd ≠ 0 ∧
       stopOf (e.queue / 128) = some tl ∧ e.get = false ∧ confirmOf runSt hd < provOf s hd ∧
       recovering (rsetB runSt tl 0 LOCK_STAT 3 true) hd = true) := by decide +kernel

/-- A register of the cluster stop's block 2 is CP_CTL, staged. -/
theorem wit_StagedRegisters :
    let i : Init := ⟨.m, .secure, false, none⟩
    let cl := orStop 0
    let s := liveSt [tl, cl, wsStop 0]
    let b := rsetB (rsetB s cl 2 BLOCK_STAT 3 true) cl 2 BLOCK_STAT 4 true
    admitted s i cl 2 BLOCK_CTL = true ∧ admitted s i (wsStop 0) 13 BLOCK_CTL = true ∧ rbit b cl 2 BLOCK_STAT 4 = true ∧ b.reg.heldStage = [] ∧
    rbit s cl 2 BLOCK_STAT 4 = false ∧ regPlace s (2 ^ 31) = none ∧ regPlace s (rkey tl 0 0) = some (tl, 0, 0) := by decide +kernel

theorem wit_RegisterAccessOutcomes :
    let cl := orStop 0
    let s := liveSt [tl, cl, wsStop 0]
    regRefuse s .normal cl 3 0 = .quiet ∧ regRefuse s .secure cl 3 0 = .no ∧
    regRefuse (dstatPut s tl 0 6 1 1) .normal tl 1 0 = .violation 0 ∧
    (let r := rputF State.reset (wsStop 0) 4 PKG_STATE 0 4 4; stopPowered r tl = false ∧ pkgState r ≠ 0) ∧ stopPowered (rputF State.reset (wsStop 0) 4 PKG_STATE 0 4 0) tl = false ∧
    stopPowered s tl = true ∧ accDomain s tl 0 0 = 15 ∧ domState s tl (accDomain s tl 1 0) = dON ∧
    accDomain s ⟨0, 1, 4⟩ 1 0 ≠ 15 ∧ domState s ⟨0, 1, 4⟩ (accDomain s ⟨0, 1, 4⟩ 1 0) ≠ dON ∧ pkgState s = 0 ∧
    domState (domWake s ⟨0, 1, 4⟩ (accDomain s ⟨0, 1, 4⟩ 1 0) wkAccess) ⟨0, 1, 4⟩ (accDomain s ⟨0, 1, 4⟩ 1 0) ≠ dON ∧
    (regFind s tl 0 0x7FF0).isNone = true ∧ writeSecure (wsStop 0) 3 0 = true := by decide +kernel

theorem wit_RegisterAccessesWaitAndFail :
    let i : Init := ⟨.u, .normal, false, none⟩
    let s := liveSt [tl, orStop 0, wsStop 0]
    let a := rkey tl 0 0
    let held := { s with reg := { s.reg with held := [⟨a, i, some 5, .env⟩] } }
    blockHeld s a = false ∧ blockHeld held a = true ∧ held.reg.held[0]? = some ⟨a, i, some 5, .env⟩ ∧ regPlace held a = some (tl, 0, 0) ∧
    pathFails { s with reg := { s.reg with pathErr := [stopIdx tl] } } tl = true ∧ pathFails s tl = false ∧
    blkInert (rputF s tl 0 LOCK_STAT 0 2 1) tl 2 = true ∧ guardOk i = false ∧ ((regFind s tl 8 ERR_CTL).any fun r => r.1.guarded) = true ∧
    (let b := rsetB s (wsStop 0) 13 BLOCK_STAT 3 true
     rget64 b (wsStop 0) 13 (TB_SET_LO + 0x8000) < tbNow { b with tbase := { b.tbase with tb := 1 } } ∧
     tbNow b ≤ rget64 b (wsStop 0) 13 (TB_SET_LO + 0x8000)) ∧
    (let o := { s with pkg := { s.pkg with members := 1 } }; o.pkg.members = 2 ^ pkgNum o) := by decide +kernel

/-- The floating-point operands of the special cases, and an esz that has a format. -/
theorem wit_FloatingPointSpecialValues :
    (3 : BitVec 2) ≠ 0 ∧ fUnpack (fmtOf 3) false 0x7FF8000000000000 = .nan false ∧ fUnpack (fmtOf 3) false 0xFFF0000000000000 = .inf true ∧
    (match fUnpack (fmtOf 3) false 0x3FF0000000000000 with | .fin _ _ _ => true | _ => false) = true := by decide +kernel

theorem wit_IdleStepTicks : State.reset.pending = [] := rfl

theorem wit_StepKeepsMemoryCanonical : MemInv runSt ∧ step runSt = .next (idle runSt) := ⟨by unfold MemInv; decide +kernel, rfl⟩

/-! ## Ill-formed commands, one for each check -/

theorem test_wellFormed :
    wellFormed (.add (.drover ⟨0, 0, 3⟩ 0 0) 0 1 2 3) = false ∧ wellFormed (.add hd 0 1 2 3) = true ∧
    wellFormed (.l3DrainDone ⟨0, 5, 1⟩) = false ∧ wellFormed (.l3DrainDone ⟨0, 4, 11⟩) = true ∧
    wellFormed (.commandParityFailure ⟨0, 1, 0⟩ 0) = false ∧ wellFormed (.commandParityFailure ⟨0, 0, 11⟩ 0) = true ∧
    wellFormed (.noRoute hd (2 ^ 52)) = false ∧ wellFormed (.noRoute hd (2 ^ 52 - 1)) = true ∧
    wellFormed (.notify (.core 0) (2 ^ 46)) = false ∧ wellFormed (.notify (.core 0) (2 ^ 46 - 1)) = true ∧
    wellFormed (.snpData 1 0 0 (List.replicate 63 0)) = false ∧ wellFormed (.snpData 1 0 0 (List.replicate 64 0)) = true ∧
    wellFormed (.devWrite 1 0 .normal .s 0 []) = false ∧ wellFormed (.devWrite 1 0 .normal .s 0 (List.replicate 8 0)) = true ∧
    wellFormed (.writeOnce (.core 0) 0 (List.replicate 65 0)) = false ∧ wellFormed (.writeOnce (.core 0) 0 [1]) = true ∧
    wellFormed (.epDoorbell 0 (List.replicate 4097 0) false) = false ∧ wellFormed (.epDoorbell 0 [0] false) = true := by decide +kernel

/-! ## One step, with results worked out from the spec -/

/-- x[7] after an instruction on x[5] and x[6]. -/
def x7 (c : Hart → BitVec 4 → Reg → Reg → Reg → Instr) (a b : Word) : Word :=
  xget (tget (next (c hd 0 7 5 6) (withX (withX runSt hd 5 a) hd 6 b)) hd) 7

theorem test_integer :
    x7 .add 0xFFFFFFFFFFFFFFFF 2 = 1 ∧ x7 .sub 0 1 = 0xFFFFFFFFFFFFFFFF ∧ x7 .andn 0xFF 0x0F = 0xF0 ∧ x7 .sll 1 65 = 2 ∧
    x7 .sra 0x8000000000000000 63 = 0xFFFFFFFFFFFFFFFF ∧ x7 .ror 1 1 = 0x8000000000000000 ∧ x7 .slt 0xFFFFFFFFFFFFFFFF 0 = 1 ∧
    x7 .sltu 0xFFFFFFFFFFFFFFFF 0 = 0 ∧ x7 .min 0xFFFFFFFFFFFFFFFF 1 = 0xFFFFFFFFFFFFFFFF ∧ x7 .maxu 0xFFFFFFFFFFFFFFFF 1 = 0xFFFFFFFFFFFFFFFF ∧
    x7 .addw 0x7FFFFFFF 1 = 0xFFFFFFFF80000000 ∧ x7 .sraw 0x80000000 4 = 0xFFFFFFFFF8000000 ∧ x7 .mulh 0xFFFFFFFFFFFFFFFF 2 = 0xFFFFFFFFFFFFFFFF ∧
    x7 .mulhu 0xFFFFFFFFFFFFFFFF 2 = 1 ∧ x7 .div 0x8000000000000000 0xFFFFFFFFFFFFFFFF = 0x8000000000000000 ∧ x7 .divu 5 0 = 0xFFFFFFFFFFFFFFFF ∧
    x7 .rem 0x8000000000000000 0xFFFFFFFFFFFFFFFF = 0 ∧ x7 .remu 5 0 = 5 := by decide +kernel

theorem test_bits :
    (let s := withX runSt hd 5 0x0102030405060708
     xget (tget (next (.rev8 hd 0 7 5) s) hd) 7 = 0x0807060504030201 ∧ xget (tget (next (.clz hd 0 7 5) s) hd) 7 = 7 ∧
     xget (tget (next (.ctz hd 0 7 5) s) hd) 7 = 3 ∧ xget (tget (next (.popc hd 0 7 5) s) hd) 7 = 13) ∧
    xget (tget (next (.clz hd 0 7 5) runSt) hd) 7 = 64 ∧ xget (tget (next (.addi hd 0 0 5 1) runSt) hd) 0 = 0 := by decide +kernel

theorem test_branch :
    (tget (next (.j hd 0 0x3FFFFF) runSt) hd).pc = 0x7FFC ∧ (tget (next (.jl hd 0 2) runSt) hd).pc = 0x8008 ∧
    xget (tget (next (.jl hd 0 2) runSt) hd) 1 = 0x8004 ∧ (tget (next (.j hd 1 2) runSt) hd).pc = 0x8004 := by decide +kernel

theorem test_memory :
    let s := changes hd (fun t => { t with stores := [] }) (withX (memStore runSt 0x1000 [0x80, 0xFF, 3, 4, 5, 6, 7, 8]) hd 5 0x1000)
    xget (tget (next (.lb hd 0 7 5 0) s) hd) 7 = 0xFFFFFFFFFFFFFF80 ∧ xget (tget (next (.lhu hd 0 7 5 0) s) hd) 7 = 0xFF80 ∧
    xget (tget (next (.ld hd 0 7 5 0) s) hd) 7 = 0x080706050403FF80 ∧
    (let t := next (.committedStoreDrain hd) (next (.sw hd 0 6 5 4) (withX s hd 6 0xAABBCCDD))
     memRead t 0x1000 9 = [0x80, 0xFF, 3, 4, 0xDD, 0xCC, 0xBB, 0xAA, 0]) ∧
    (let t := next (.amoAdd hd 0 false false false 7 5 6) (withX s hd 6 1)
     memRead t 0x1000 4 = [0x81, 0xFF, 3, 4] ∧ xget (tget t hd) 7 = 0x0403FF80) := by decide +kernel

/-- CALL.M of the secure world's level S: cause, return address, level and vector (Tables 3-8, 3-9). -/
theorem test_exception :
    let t := tget (next (.callM hd 0 0x1234) (changes hd (fun t => sput t (0xC00 + exVBASE) 0x40000) (levSt .s .secure))) hd
    t.level = .m ∧ t.pc = 0x40000 ∧ sget t (0xC00 + exEPC) = 0x8004 ∧ sget t (0xC00 + exVAL) = 0x1234 ∧ sget t (0xC00 + exSTATUS) = 13 ∧ t.im = true := by
  decide +kernel

theorem test_predicates :
    let t := tget (next (.cmpi hd 0 2 3 5 0xFF 2) (withX runSt hd 5 0xFFFFFFFFFFFFFFFE)) hd
    pget t 2 = true ∧ pget t 3 = false := by decide +kernel

theorem test_vector :
    let s := changes hd (fun t => vset (vset t 1 (BitVec.ofNat 256 0x00FF00010002FFFF)) 2 (BitVec.ofNat 256 0x0001000100010001)) vecSt
    let t := tget (next (.vadd hd 0 3 1 2 0 false 1) s) hd
    (vget t 3).setWidth 64 = 0x0100000200030000 := by decide +kernel

theorem test_fp :
    fDiv (fmtOf 2) 0 false (fUnpack (fmtOf 2) false 0x3F800000) (fUnpack (fmtOf 2) false 0) = (0x7F800000, 8) ∧
    fToInt 32 0 (fUnpack (fmtOf 2) false 0x40200000) = (2, 64) ∧ fMinMax (fmtOf 3) false true 0x3FF0000000000000 0xC000000000000000 = (0x3FF0000000000000, 0) ∧
    fCmpLt (fUnpack (fmtOf 1) false 0xBC00) (fUnpack (fmtOf 1) false 0) = (true, 0) := by decide +kernel

theorem test_register :
    let i : Init := ⟨.m, .secure, false, none⟩
    (next (.registerWrite i (BitVec.ofNat 32 (rkey tl 0 0)) 5 false) (liveSt [tl])).reg.resp = ⟨0, 0⟩ ∧
    (next (.registerWrite i 0x80000000 5 false) (liveSt [tl])).reg.resp = ⟨1, 0⟩ := by decide +kernel

theorem test_mailbox :
    let s := next (.mbSubmit 3 false) (rput (liveSt [wsStop 0]) (wsStop 0) 1 0x1800 0x0103)
    mbState s 3 = 1 ∧ mbState (next (.commandComplete 3) (next (.getStatus 3) (rputF s (wsStop 0) 3 BOOT_STAT 0 4 5))) 3 = 2 ∧
    mbState (next (.mbAck 3) (next (.commandComplete 3) (next (.getStatus 3) (rputF s (wsStop 0) 3 BOOT_STAT 0 4 5)))) 3 = 0 := by decide +kernel

theorem test_reset_memory : Memory.wf State.reset.mem = true := by decide


/-! ## Witnesses: for each clause of the statements about registers and events, a state that meets its hypotheses -/

theorem wit_ThreadAndDebugRegisters_1 : (
  let i : Init := ⟨.m, .secure, false, none⟩
  let st : Stop := ⟨0, 1, 3⟩
  let cc : Fin 2 := 1
  let t : Fin 2 := 1
  let h : Hart := .drover st cc t
  let may := i.world = .secure
  let s0 : State := liveSt [⟨0, 1, 3⟩]
  decide ((fun (s : State) => admitted s i st (1 + cc.val) (TSTART_CTL + 16 * t.val) = true ∧ (fun s => may ∧ Shown st (1 + cc.val) s ∧ (tget s h).run = .stopped ∧ (tget s h).startAt = none ∧ rbit s st (1 + cc.val) BLOCK_CTL 0 = true ∧ (t = 0 ∨ rbit s st (1 + cc.val) CORE_CTL 0 = true)) s) ((fun (s : State) => rsetB (rsetB s st (1 + cc.val) BLOCK_CTL 0 true) st 2 CORE_CTL 0 true) s0)) &&
  decide ((fun (s : State) => admitted s i st (1 + cc.val) (TSTART_CTL + 16 * t.val) = true ∧ (fun s => may ∧ Shown st (1 + cc.val) s ∧ ((tget s h).run ≠ .stopped ∨ (tget s h).startAt.isSome = true ∨ rbit s st (1 + cc.val) BLOCK_CTL 0 = false)) s) ((fun (s : State) => s) s0)) &&
  decide ((fun (s : State) => admitted s i st (1 + cc.val) (TSTART_CTL + 16 * t.val) = true ∧ (fun s => may ∧ Shown st (1 + cc.val) s) s) ((fun (s : State) => tput s h { tget s h with run := .running }) s0)) &&
  decide ((fun (s : State) => admitted s i st (1 + cc.val) BLOCK_CTL = true ∧ (fun s => Shown st (1 + cc.val) s ∧ rbit s st (1 + cc.val) BLOCK_CTL 0 = false) s) ((fun (s : State) => s) s0)) &&
  decide ((fun (s : State) => admitted s i st (1 + cc.val) BLOCK_CTL = true ∧ (fun s => Shown st (1 + cc.val) s ∧ rbit s st (1 + cc.val) BLOCK_CTL 0 = true) s) ((fun (s : State) => rsetB s st (1 + cc.val) BLOCK_CTL 0 true) s0)) &&
  decide ((fun (s : State) => admitted s i st (1 + cc.val) DBG_CTL = true ∧ (fun s => Shown st (1 + cc.val) s ∧ dbgHolds s i.world (tget s h).world = true ∧ (tget s h).run ≠ .halted) s) ((fun (s : State) => tput (rputF (rputF s (wsStop 0) 12 DBG_EFF 0 4 15) (wsStop 1) 12 DBG_EFF 0 4 15) h { tget s h with run := .running, world := .secure }) s0)) &&
  decide ((fun (s : State) => admitted s i st (1 + cc.val) DBG_CTL = true ∧ (fun s => Shown st (1 + cc.val) s ∧ dbgHolds s i.world (tget s h).world = true ∧ (tget s h).run = .halted) s) ((fun (s : State) => tput (rputF (rputF s (wsStop 0) 12 DBG_EFF 0 4 15) (wsStop 1) 12 DBG_EFF 0 4 15) h { tget s h with run := .halted, world := .secure }) s0)) &&
  decide ((fun (s : State) => admitted s i st (1 + cc.val) DBG_CTL = true ∧ (fun s => Shown st (1 + cc.val) s ∧ dbgHolds s i.world (tget s h).world = false) s) ((fun (s : State) => s) s0)) &&
  decide ((fun (s : State) => admitted s i st (1 + cc.val) DBG_CTL = true ∧ (fun s => Shown st (1 + cc.val) s ∧ dbgHolds s i.world (tget s h).world = false) s) ((fun (s : State) => s) s0)) &&
  decide ((fun (s : State) => admitted s i st (1 + cc.val) DBG_RCMD = true ∧ (fun s => Shown st (1 + cc.val) s ∧ dbgMay s i.world st cc = true) s) ((fun (s : State) => tput (rput (tput (rputF (rputF s (wsStop 0) 12 DBG_EFF 0 4 15) (wsStop 1) 12 DBG_EFF 0 4 15) h { tget s h with run := .halted, world := .secure }) st 2 DBG_RSEL (1 + 0 * 2 + 5 * 16)) h { xset (tget s h) 5 77 with run := .halted, world := .secure }) s0)) &&
  decide ((fun (s : State) => admitted s i st (1 + cc.val) DBG_RCMD = true ∧ (fun s => Shown st (1 + cc.val) s ∧ dbgMay s i.world st cc = true) s) ((fun (s : State) => rput64 (rput (tput (rputF (rputF s (wsStop 0) 12 DBG_EFF 0 4 15) (wsStop 1) 12 DBG_EFF 0 4 15) h { tget s h with run := .halted, world := .secure }) st 2 DBG_RSEL (1 + 0 * 2 + 5 * 16)) st 2 DBG_RDATA_LO 55) s0)) &&
  decide ((fun (s : State) => admitted s i st (1 + cc.val) DBG_RCMD = true ∧ (fun s => Shown st (1 + cc.val) s ∧ dbgMay s i.world st cc = false) s) ((fun (s : State) => s) s0))) = true := by decide +kernel

theorem wit_ThreadAndDebugRegisters_2 : (
  let i : Init := ⟨.m, .secure, false, none⟩
  let st : Stop := ⟨0, 1, 3⟩
  let cc : Fin 2 := 1
  let t : Fin 2 := 1
  let h : Hart := .drover st cc t
  let may := i.world = .secure
  let s0 : State := liveSt [⟨0, 1, 3⟩]
  decide ((fun (s : State) => admitted s i st (1 + cc.val) DBG_RCMD = true ∧ (fun s => Shown st (1 + cc.val) s ∧ dbgMay s i.world st cc = false) s) ((fun (s : State) => s) s0))) = true := by decide +kernel

theorem wit_CacheAndLinkRegisters_1 : (
  let i : Init := ⟨.m, .secure, false, none⟩
  let st : Stop := ⟨0, 1, 3⟩
  let cc : Fin 2 := 1
  let n : Fin 12 := 2
  let sec := i.world = .secure
  let ways : BitVec 16 := 6
  let s0 : State := liveSt [⟨0, 1, 3⟩, portStop 2, fordStop 0 1, ⟨0,5,0⟩]
  decide ((fun (s : State) => admitted s i st (3 + cc.val) L2_WAY_REENABLE = true ∧ (fun s => sec ∧ Shown st (3 + cc.val) s) s) ((fun (s : State) => rput s st 4 L2_WAY_FAILED 2) s0))) = true := by decide +kernel

theorem wit_CacheAndLinkRegisters_2 : (
  let i : Init := ⟨.m, .secure, false, none⟩
  let st : Stop := ⟨0, 1, 3⟩
  let cc : Fin 2 := 1
  let n : Fin 12 := 2
  let sec := i.world = .secure
  let ways8 : BitVec 8 := 6
  let s0 : State := liveSt [⟨0, 1, 3⟩, portStop 2, fordStop 0 1, ⟨0,5,0⟩]
  decide ((fun (s : State) => admitted s i st (3 + cc.val) L1D_WAY_REENABLE = true ∧ (fun s => sec ∧ Shown st (3 + cc.val) s) s) ((fun (s : State) => rput s st 4 L1D_WAY_FAILED 2) s0)) &&
  decide ((fun (s : State) => admitted s i st 5 L3_DEPOT = true ∧ (fun s => stopKind st = .tile ∧ rweBusy s st 5 = false) s) ((fun (s : State) => rsetB s st 5 BLOCK_CTL 0 false) s0)) &&
  decide ((fun (s : State) => admitted s i st 5 L3_DEPOT = true ∧ (fun s => stopKind st = .tile ∧ rweBusy s st 5 = true) s) ((fun (s : State) => rsetB s st 5 BLOCK_CTL 0 true) s0))) = true := by decide +kernel

theorem wit_CacheAndLinkRegisters_3 : (
  let i : Init := ⟨.m, .secure, false, none⟩
  let st : Stop := ⟨0, 1, 3⟩
  let cc : Fin 2 := 1
  let n : Fin 12 := 2
  let sec := i.world = .secure
  let ways12 : BitVec 12 := 6
  let s0 : State := liveSt [⟨0, 1, 3⟩, portStop 2, fordStop 0 1, ⟨0,5,0⟩]
  decide ((fun (s : State) => admitted s i st 5 L3_WAY_REENABLE = true ∧ (fun s => sec ∧ stopKind st = .tile) s) ((fun (s : State) => rput s st 5 L3_WAY_FAILED 2) s0))) = true := by decide +kernel

theorem wit_CacheAndLinkRegisters_4 : (
  let i : Init := ⟨.m, .secure, false, none⟩
  let st : Stop := ⟨0, 1, 3⟩
  let cc : Fin 2 := 1
  let n : Fin 12 := 2
  let sec := i.world = .secure
  let s0 : State := liveSt [⟨0, 1, 3⟩, portStop 2, fordStop 0 1, ⟨0,5,0⟩]
  decide ((fun (s : State) => admitted s i st (3 + cc.val) BLOCK_CTL = true ∧ (fun s => Shown st (3 + cc.val) s ∧ tileLocked s st = false ∧ rbit s st (3 + cc.val) BLOCK_CTL 0 = false) s) ((fun (s : State) => rsetB s st 4 BLOCK_CTL 0 false) s0)) &&
  decide ((fun (s : State) => admitted s i st (3 + cc.val) BLOCK_CTL = true ∧ (fun s => Shown st (3 + cc.val) s ∧ tileLocked s st = false ∧ rbit s st (3 + cc.val) BLOCK_CTL 0 = true) s) ((fun (s : State) => rsetB s st 4 BLOCK_CTL 0 true) s0)) &&
  decide ((fun (s : State) => admitted s i st 5 BLOCK_CTL = true ∧ (fun s => stopKind st = .tile ∧ rbit s st 5 BLOCK_CTL 0 = false) s) ((fun (s : State) => rsetB s st 5 BLOCK_CTL 0 false) s0)) &&
  decide ((fun (s : State) => admitted s i st 5 BLOCK_CTL = true ∧ (fun s => stopKind st = .tile ∧ rbit s st 5 BLOCK_CTL 0 = true) s) ((fun (s : State) => rsetB s st 5 BLOCK_CTL 0 true) s0)) &&
  decide ((fun (s : State) => admitted s i (portStop n) 3 IOTU_FLT_POP = true ∧ (fun s => portProto s n.val ≠ 3) s) ((fun (s : State) => ioPut s n { ioGet s n with flt := [(1,2),(3,4)] }) s0)) &&
  decide ((fun (s : State) => admitted s i (portStop n) 5 CV_CMD = true ∧ (fun s => sec ∧ portProto s n.val = 2 ∧ cvState s n = 2) s) ((fun (s : State) => setDom (rputF (rputF (liveSt [portStop 2]) (portStop 2) 1 PORT_CAP 8 2 2) (portStop 2) cvBlk CV_STAT 0 3 2) (portStop 2) 0 dON) s0)) &&
  decide ((fun (s : State) => admitted s i (portStop n) 5 CV_CMD = true ∧ (fun s => sec ∧ portProto s n.val = 2 ∧ cvState s n = 4) s) ((fun (s : State) => setDom (rputF (rputF (liveSt [portStop 2]) (portStop 2) 1 PORT_CAP 8 2 2) (portStop 2) cvBlk CV_STAT 0 3 4) (portStop 2) 0 dON) s0)) &&
  decide ((fun (s : State) => admitted s i (portStop n) 5 CV_CMD = true ∧ (fun s => sec ∧ portProto s n.val = 2 ∧ cvState s n ≠ 2) s) ((fun (s : State) => setDom (rputF (rputF (liveSt [portStop 2]) (portStop 2) 1 PORT_CAP 8 2 2) (portStop 2) cvBlk CV_STAT 0 3 4) (portStop 2) 0 dON) s0)) &&
  decide ((fun (s : State) => admitted s i (portStop n) 5 CV_CMD = true ∧ (fun s => sec ∧ portProto s n.val = 2 ∧ cvState s n ≠ 4) s) ((fun (s : State) => setDom (rputF (rputF (liveSt [portStop 2]) (portStop 2) 1 PORT_CAP 8 2 2) (portStop 2) cvBlk CV_STAT 0 3 2) (portStop 2) 0 dON) s0))) = true := by decide +kernel

theorem wit_CacheAndLinkRegisters_5 : (
  let i : Init := ⟨.m, .secure, false, none⟩
  let st : Stop := ⟨0, 1, 3⟩
  let cc : Fin 2 := 1
  let n : Fin 12 := 2
  let sec := i.world = .secure
  let on : Bool := false
  let s0 : State := liveSt [⟨0, 1, 3⟩, portStop 2, fordStop 0 1, ⟨0,5,0⟩]
  decide ((fun (s : State) => admitted s i st 3 BLOCK_CTL = true ∧ (fun s => Shown st 3 s ∧ tileLocked s st = true ∧ rbit s st 3 BLOCK_CTL 0 ≠ on) s) ((fun (s : State) => rputF (rsetB s st 3 BLOCK_CTL 0 true) st 0 LOCK_STAT 0 2 1) s0))) = true := by decide +kernel

theorem wit_CacheAndLinkRegisters_6 : (
  let i : Init := ⟨.m, .secure, false, none⟩
  let st : Stop := ⟨0, 1, 3⟩
  let cc : Fin 2 := 1
  let n : Fin 12 := 2
  let sec := i.world = .secure
  let rid : BitVec 16 := 7
  let all : Bool := false
  let s0 : State := liveSt [⟨0, 1, 3⟩, portStop 2, fordStop 0 1, ⟨0,5,0⟩]
  decide ((fun (s : State) => admitted s i (portStop n) 3 IOTU_INV = true ∧ (fun s => portProto s n.val ≠ 3 ∧ (ioGet s n).inv = none) s) ((fun (s : State) => s) s0))) = true := by decide +kernel

theorem wit_CacheAndLinkRegisters_7 : (
  let i : Init := ⟨.m, .secure, false, none⟩
  let st : Stop := ⟨0, 1, 3⟩
  let cc : Fin 2 := 1
  let n : Fin 12 := 2
  let sec := i.world = .secure
  let rid : BitVec 16 := 7
  let all : Bool := true
  let s0 : State := liveSt [⟨0, 1, 3⟩, portStop 2, fordStop 0 1, ⟨0,5,0⟩]
  decide ((fun (s : State) => admitted s i (portStop n) 3 IOTU_INV = true ∧ (fun s => portProto s n.val ≠ 3 ∧ (ioGet s n).inv ≠ none) s) ((fun (s : State) => ioPut s n { ioGet s n with inv := some none }) s0))) = true := by decide +kernel

theorem wit_CacheAndLinkRegisters_8 : (
  let i : Init := ⟨.m, .secure, false, none⟩
  let st : Stop := ⟨0, 1, 3⟩
  let cc : Fin 2 := 1
  let n : Fin 12 := 2
  let sec := i.world = .secure
  let mask : BitVec 4 := 5
  let s0 : State := liveSt [⟨0, 1, 3⟩, portStop 2, fordStop 0 1, ⟨0,5,0⟩]
  decide ((fun (s : State) => admitted s i st 0 RT_LINK_CMD = true ∧ (fun s => sec) s) ((fun (s : State) => setLinkState s (.mesh st 2) 2) s0))) = true := by decide +kernel

theorem wit_CacheAndLinkRegisters_9 : (
  let i : Init := ⟨.m, .secure, false, none⟩
  let st : Stop := ⟨0, 1, 3⟩
  let cc : Fin 2 := 1
  let n : Fin 12 := 2
  let sec := i.world = .secure
  let die : Fin 2 := 0
  let k : Fin 4 := 1
  let s0 : State := liveSt [⟨0, 1, 3⟩, portStop 2, fordStop 0 1, ⟨0,5,0⟩]
  decide ((fun (s : State) => admitted s i (fordStop die k) 1 FORD_CMD = true ∧ (fun s => sec) s) ((fun (s : State) => setLinkState s (.ford 0 1) 2) s0))) = true := by decide +kernel

theorem wit_QueueAndOutriderRegisters_1 : (
  let i : Init := ⟨.m, .secure, false, none⟩
  let st : Stop := ⟨0, 1, 3⟩
  let q : Fin 128 := 5
  let n : Fin 16 := 3
  let v : Reg32 := 0x12345
  let irq : Bool := true
  let on : Bool := true
  let die : Fin 2 := 0
  let w : BitVec 12 := 17
  let b := wbqBase q.val
  let ot := (orRegs n).1
  let oo := (orRegs n).2
  let may := guardOk i = true
  let tile := stopKind st = .tile
  let sec := i.world = .secure
  let s0 : State := liveSt [⟨0, 1, 3⟩, ⟨0, 5, 1⟩]
  decide ((fun (s : State) => admitted s i st 5 (b + WBQ_CFG) = true ∧ (fun s => may ∧ tile ∧ (wqOn s st q.val = true ∨ wbqFld s st q.val WBQ_STAT 5 1 = 1)) s) ((fun (s : State) => { s with wb := { s.wb with enabled := setAdd s.wb.enabled (wbqNum st q.val) } }) s0)) &&
  decide ((fun (s : State) => admitted s i st 5 (b + WBQ_BASE_LO) = true ∧ (fun s => may ∧ tile ∧ (wqOn s st q.val = true ∨ wbqFld s st q.val WBQ_STAT 5 1 = 1)) s) ((fun (s : State) => { s with wb := { s.wb with enabled := setAdd s.wb.enabled (wbqNum st q.val) } }) s0)) &&
  decide ((fun (s : State) => admitted s i st 5 (b + WBQ_BASE_HI) = true ∧ (fun s => may ∧ tile ∧ (wqOn s st q.val = true ∨ wbqFld s st q.val WBQ_STAT 5 1 = 1)) s) ((fun (s : State) => { s with wb := { s.wb with enabled := setAdd s.wb.enabled (wbqNum st q.val) } }) s0)) &&
  decide ((fun (s : State) => admitted s i st 5 (b + WBQ_PROD) = true ∧ (fun s => may ∧ tile ∧ (wqOn s st q.val = true ∨ wbqFld s st q.val WBQ_STAT 5 1 = 1)) s) ((fun (s : State) => { s with wb := { s.wb with enabled := setAdd s.wb.enabled (wbqNum st q.val) } }) s0)) &&
  decide ((fun (s : State) => admitted s i st 5 (b + WBQ_CONS) = true ∧ (fun s => may ∧ tile ∧ (wqOn s st q.val = true ∨ wbqFld s st q.val WBQ_STAT 5 1 = 1)) s) ((fun (s : State) => { s with wb := { s.wb with enabled := setAdd s.wb.enabled (wbqNum st q.val) } }) s0)) &&
  decide ((fun (s : State) => admitted s i st 5 (b + WBQ_CFG) = true ∧ (fun s => may ∧ tile ∧ wqOn s st q.val = false ∧ wbqFld s st q.val WBQ_STAT 5 1 = 0) s) ((fun (s : State) => wqPut s st q.val WBQ_TAIL 5) s0)) &&
  decide ((fun (s : State) => admitted s i st 5 (b + WBQ_BASE_LO) = true ∧ (fun s => may ∧ tile ∧ wqOn s st q.val = false ∧ wbqFld s st q.val WBQ_STAT 5 1 = 0) s) ((fun (s : State) => s) s0)) &&
  decide ((fun (s : State) => admitted s i st 5 (b + WBQ_BASE_HI) = true ∧ (fun s => may ∧ tile ∧ wqOn s st q.val = false ∧ wbqFld s st q.val WBQ_STAT 5 1 = 0) s) ((fun (s : State) => setLatch s st 5 (b + WBQ_BASE_LO) (some 0x500)) s0)) &&
  decide ((fun (s : State) => admitted s i st 5 (b + WBQ_PROD) = true ∧ (fun s => may ∧ tile ∧ wqOn s st q.val = false ∧ wbqFld s st q.val WBQ_STAT 5 1 = 0) s) ((fun (s : State) => s) s0)) &&
  decide ((fun (s : State) => admitted s i st 5 (b + WBQ_CONS) = true ∧ (fun s => may ∧ tile ∧ wqOn s st q.val = false ∧ wbqFld s st q.val WBQ_STAT 5 1 = 0) s) ((fun (s : State) => s) s0)) &&
  decide ((fun (s : State) => admitted s i st 5 (b + WBQ_CTL) = true ∧ (fun s => may ∧ tile ∧ wqOn s st q.val = false ∧ mayEnable (rsetB s st 5 (b + WBQ_CTL) 2 irq) st q.val = true) s) ((fun (s : State) => { (rput (rput (rput s st 5 (b + WBQ_CFG) 4) st 5 (b + WBQ_BASE_LO) (BitVec.ofNat 32 (depotBase 0 st))) st 5 (b + WBQ_BASE_HI) (BitVec.ofNat 32 (depotBase 0 st / 2 ^ 32))) with pkg := { s.pkg with depot := mapSet (fun _ => 0) s.pkg.depot (stopIdx st) 0xFF0 } }) s0)) &&
  decide ((fun (s : State) => admitted s i st 5 (b + WBQ_CTL) = true ∧ (fun s => may ∧ tile ∧ wqOn s st q.val = false ∧ mayEnable (rsetB s st 5 (b + WBQ_CTL) 2 irq) st q.val = false) s) ((fun (s : State) => s) s0))) = true := by decide +kernel

theorem wit_QueueAndOutriderRegisters_2 : (
  let i : Init := ⟨.m, .secure, false, none⟩
  let st : Stop := ⟨0, 1, 3⟩
  let q : Fin 128 := 5
  let n : Fin 16 := 3
  let v : Reg32 := 0x12345
  let irq : Bool := true
  let on : Bool := true
  let die : Fin 2 := 0
  let w : BitVec 12 := 17
  let b := wbqBase q.val
  let ot := (orRegs n).1
  let oo := (orRegs n).2
  let may := guardOk i = true
  let tile := stopKind st = .tile
  let sec := i.world = .secure
  let s0 : State := liveSt [⟨0, 1, 3⟩, ⟨0, 5, 1⟩]
  decide ((fun (s : State) => admitted s i st 5 (b + WBQ_CTL) = true ∧ (fun s => may ∧ tile ∧ wqOn s st q.val = true) s) ((fun (s : State) => { s with wb := { s.wb with enabled := setAdd s.wb.enabled (wbqNum st q.val) } }) s0)) &&
  decide ((fun (s : State) => admitted s i st 5 (b + WBQ_CTL) = true ∧ (fun s => may ∧ tile ∧ wqOn s st q.val = decide (wbqFld s st q.val WBQ_CTL 0 1 = 1)) s) ((fun (s : State) => wqPut s st q.val WBQ_REFUSED 9) s0)) &&
  decide ((fun (s : State) => admitted s i st 5 (b + WBQ_ARM) = true ∧ (fun s => tile) s) ((fun (s : State) => s) s0)) &&
  decide ((fun (s : State) => admitted s i ot 1 (oo + OR_CTL) = true ∧ (fun s => sec) s) ((fun (s : State) => rsetB s ot 1 BLOCK_CTL 0 true) s0)) &&
  decide ((fun (s : State) => admitted s i ot 1 (oo + OR_CTL) = true ∧ (fun s => sec) s) ((fun (s : State) => tput s (.outrider n) { tget s (.outrider n) with run := .running }) s0)) &&
  decide ((fun (s : State) => admitted s i ot 1 (oo + OR_CTL) = true ∧ (fun s => sec ∧ rbit s ot 1 (oo + OR_CTL) 2 ≠ on ∧ (tget s (.outrider n)).run = .stopped) s) ((fun (s : State) => s) s0)) &&
  decide ((fun (s : State) => admitted s i ot 1 (oo + OR_CTL) = true ∧ (fun s => sec ∧ rbit s ot 1 (oo + OR_CTL) 2 ≠ on ∧ (tget s (.outrider n)).run ≠ .stopped) s) ((fun (s : State) => tput s (.outrider n) { tget s (.outrider n) with run := .running }) s0)) &&
  decide ((fun (s : State) => admitted s i ot 1 (oo + OR_CTL) = true ∧ (fun s => sec ∧ rbit s ot 1 (oo + OR_CTL) 2 = on) s) ((fun (s : State) => rsetB s ot 1 (oo + OR_CTL) 2 on) s0)) &&
  decide ((fun (s : State) => admitted s i ot 1 (oo + LC_CMD) = true ∧ (fun s => orMay i n = true) s) ((fun (s : State) => rput s ot 1 (oo + LC_ADDR_LO) 0x1000) s0)) &&
  decide ((fun (s : State) => admitted s i ot 1 (oo + LC_CMD) = true ∧ (fun s => orMay i n = true) s) ((fun (s : State) => rput s ot 1 (oo + LC_ADDR_LO) 0x1000) s0)) &&
  decide ((fun (s : State) => admitted s i ot 1 (oo + LC_CMD) = true ∧ (fun s => orMay i n = true) s) ((fun (s : State) => rput s ot 1 (oo + LC_ADDR_LO) 0x1000) s0)) &&
  decide ((fun (s : State) => admitted s i ot 1 (oo + LC_CMD) = true ∧ (fun s => orMay i n = true) s) ((fun (s : State) => rput s ot 1 (oo + LC_ADDR_LO) 0x1000) s0))) = true := by decide +kernel

theorem wit_QueueAndOutriderRegisters_3 : (
  let i : Init := ⟨.m, .secure, false, none⟩
  let st : Stop := ⟨0, 1, 3⟩
  let q : Fin 128 := 5
  let n : Fin 16 := 3
  let v : Reg32 := 0x12345
  let irq : Bool := true
  let on : Bool := true
  let die : Fin 2 := 0
  let w : BitVec 12 := 17
  let b := wbqBase q.val
  let ot := (orRegs n).1
  let oo := (orRegs n).2
  let may := guardOk i = true
  let tile := stopKind st = .tile
  let sec := i.world = .secure
  let s0 : State := liveSt [⟨0, 1, 3⟩, ⟨0, 5, 1⟩]
  decide ((fun (s : State) => admitted s i ot 1 (oo + LC_CMD) = true ∧ (fun s => orMay i n = true) s) ((fun (s : State) => rput s ot 1 (oo + LC_ADDR_LO) 0x1000) s0)) &&
  decide ((fun (s : State) => admitted s i (orStop die) 2 CP_CLR = true ∧ (fun s => sec) s) ((fun (s : State) => rput s (orStop die) 2 CP_LATE 7) s0)) &&
  decide ((fun (s : State) => admitted s i (orStop die) 3 (TCM_WIN + 4 * w.toNat) = true ∧ (fun s => True) s) ((fun (s : State) => s) s0))) = true := by decide +kernel

theorem wit_MemoryErrorAndLockRegisters_1 : (
  let i : Init := ⟨.m, .secure, false, none⟩
  let st : Stop := ⟨0, 0, 5⟩
  let tl : Stop := ⟨0, 1, 3⟩
  let k : Fin 6 := 1
  let cc : Fin 2 := 1
  let pc : Fin 2 := 1
  let lane : BitVec 7 := 40
  let ch : Fin 8 := 3
  let n : Fin 12 := 2
  let w : Fin 4 := 1
  let home : BitVec 3 := 2
  let on : Bool := true
  let p : Fin 4 := 1
  let die : Fin 2 := 0
  let v : BitVec 16 := 0x0303
  let ss := stkStop k
  let b := scrubOff cc
  let sec := i.world = .secure
  let s0 : State := liveSt [⟨0, 1, 3⟩, ⟨0,0,4⟩, ⟨0,0,5⟩, portStop 2, wsStop 0]
  decide ((fun (s : State) => admitted s i ss 6 STK_CTL = true ∧ (fun s => sec ∧ stkState s k ≠ 1 ∧ stkState s k ≠ 4) s) ((fun (s : State) => s) s0)) &&
  decide ((fun (s : State) => admitted s i ss 6 STK_CTL = true ∧ (fun s => sec ∧ stkState s k ≠ 1 ∧ stkState s k ≠ 4) s) ((fun (s : State) => s) s0)) &&
  decide ((fun (s : State) => admitted s i ss 6 STK_CTL = true ∧ (fun s => sec ∧ stkState s k = 2) s) ((fun (s : State) => setStk s k 2) s0)) &&
  decide ((fun (s : State) => admitted s i ss 6 STK_CTL = true ∧ (fun s => sec ∧ stkState s k = 2) s) ((fun (s : State) => setStk s k 2) s0)) &&
  decide ((fun (s : State) => admitted s i ss 6 STK_CTL = true ∧ (fun s => sec ∧ stkState s k ≠ 1 ∧ stkState s k ≠ 4) s) ((fun (s : State) => rput s ss 6 STK_TEMP 30) s0)) &&
  decide ((fun (s : State) => admitted s i ss 6 W1500_GO = true ∧ (fun s => sec ∧ setHas s.hbm.shifting k.val = false) s) ((fun (s : State) => s) s0)) &&
  decide ((fun (s : State) => admitted s i st (3 + cc.val) PHY_REMAP_CMD = true ∧ (fun s => sec ∧ stopKind st = .memory ∧ rbit s st (3 + cc.val) PHY_STAT 4 = false ∧ lane.toNat < 72) s) ((fun (s : State) => s) s0)) &&
  decide ((fun (s : State) => admitted s i st 5 (b + SPARE_CMD) = true ∧ (fun s => sec ∧ stopKind st = .memory ∧ sparingOf s st cc = none ∧ bits (rget s st 5 (b + SPARE_ROW)).toNat 19 2 ≠ 3 ∧ spareUsed s st cc (bits (rget s st 5 (b + SPARE_ROW)).toNat 21 1) < 64) s) ((fun (s : State) => rput s st 5 (b + SPARE_ROW) 77) s0)) &&
  decide ((fun (s : State) => admitted s i st 5 (b + SPARE_CMD) = true ∧ (fun s => sec ∧ stopKind st = .memory ∧ sparingOf s st cc = none ∧ bits (rget s st 5 (b + SPARE_ROW)).toNat 19 2 = 3) s) ((fun (s : State) => rput s st 5 (b + SPARE_ROW) 0x180000) s0)) &&
  decide ((fun (s : State) => admitted s i (portStop n) 5 (CXW_CTL + 16 * w.val) = true ∧ (fun s => portProto s n.val = 1 ∧ worldLock s = false) s) ((fun (s : State) => rput (rput (setDom (rputF s (portStop 2) 1 PORT_CAP 8 2 1) (portStop 2) 0 dON) (portStop 2) 5 (CXW_BASE + 16) 0x10000) (portStop 2) 5 (CXW_SIZE + 16) 16) s0)) &&
  decide ((fun (s : State) => admitted s i (portStop n) 5 (CXW_CTL + 16 * w.val) = true ∧ (fun s => portProto s n.val = 1 ∧ worldLock s = true) s) ((fun (s : State) => rsetB (setDom (rputF s (portStop 2) 1 PORT_CAP 8 2 1) (portStop 2) 0 dON) (wsStop 0) 11 WA_LOCK 0 true) s0)) &&
  decide ((fun (s : State) => admitted s i tl 8 (ERR_CAP_ACK + 64 * p.val) = true ∧ (fun s => guardOk i = true ∧ (i.world = .normal → p.val < 2)) s) ((fun (s : State) => rsetB s tl 8 (ERR_CAP_SRC + 64) 31 true) s0))) = true := by decide +kernel

theorem wit_MemoryErrorAndLockRegisters_2 : (
  let i : Init := ⟨.m, .secure, false, none⟩
  let st : Stop := ⟨0, 0, 5⟩
  let tl : Stop := ⟨0, 1, 3⟩
  let k : Fin 6 := 1
  let cc : Fin 2 := 1
  let pc : Fin 2 := 1
  let lane : BitVec 7 := 40
  let ch : Fin 8 := 3
  let n : Fin 12 := 2
  let w : Fin 4 := 1
  let home : BitVec 3 := 2
  let on : Bool := true
  let p : Fin 4 := 1
  let die : Fin 2 := 0
  let v : BitVec 16 := 0x0303
  let ss := stkStop k
  let b := scrubOff cc
  let sec := i.world = .secure
  let s0 : State := liveSt [⟨0, 1, 3⟩, ⟨0,0,4⟩, ⟨0,0,5⟩, portStop 2, wsStop 0]
  decide ((fun (s : State) => admitted s i (wsStop die) 10 LEDGER_CLR = true ∧ (fun s => sec) s) ((fun (s : State) => rput s (wsStop 0) 10 LEDGER_LOST 4) s0)) &&
  decide ((fun (s : State) => admitted s i tl 8 INJ_CTL = true ∧ (fun s => v.getLsbD 0 ≠ rbit s tl 8 INJ_CTL 0 ∧ injMay s i.world tl = false) s) ((fun (s : State) => s) s0)) &&
  decide ((fun (s : State) => admitted s i tl 0 LOCK_CMD = true ∧ (fun s => sec ∧ stopKind tl = .tile ∧ tileMode s tl ≤ 1 ∧ quiesced s tl = true ∧ rbit s tl 0 LOCK_STAT 5 = false) s) ((fun (s : State) => s) s0)) &&
  decide ((fun (s : State) => admitted s i tl 0 LOCK_CMD = true ∧ (fun s => sec ∧ stopKind tl = .tile ∧ tileMode s tl ≤ 1 ∧ quiesced s tl = true ∧ rbit s tl 0 LOCK_STAT 5 = false) s) ((fun (s : State) => s) s0)) &&
  decide ((fun (s : State) => admitted s i tl 0 LOCK_CMD = true ∧ (fun s => sec ∧ stopKind tl = .tile ∧ 2 ≤ tileMode s tl ∧ quiesced s tl = true ∧ rbit s tl 0 LOCK_STAT 5 = false) s) ((fun (s : State) => rputF s tl 0 LOCK_STAT 0 2 2) s0)) &&
  decide ((fun (s : State) => admitted s i tl 0 LOCK_CMD = true ∧ (fun s => sec ∧ stopKind tl = .tile ∧ (quiesced s tl = false ∨ rbit s tl 0 LOCK_STAT 5 = true ∨ 2 ≤ tileMode s tl)) s) ((fun (s : State) => rputF s tl 0 LOCK_STAT 0 2 2) s0)) &&
  decide ((fun (s : State) => admitted s i tl 0 LOCK_CMD = true ∧ (fun s => sec ∧ stopKind tl = .tile ∧ (quiesced s tl = false ∨ rbit s tl 0 LOCK_STAT 5 = true ∨ 2 ≤ tileMode s tl)) s) ((fun (s : State) => rsetB s tl 0 LOCK_STAT 5 true) s0)) &&
  decide ((fun (s : State) => admitted s i tl 0 LOCK_CMD = true ∧ (fun s => sec ∧ stopKind tl = .tile ∧ (quiesced s tl = false ∨ rbit s tl 0 LOCK_STAT 5 = true ∨ tileMode s tl ≤ 1)) s) ((fun (s : State) => s) s0)) &&
  decide ((fun (s : State) => admitted s i tl 0 LOCK_CLR = true ∧ (fun s => sec ∧ stopKind tl = .tile) s) ((fun (s : State) => rput s tl 0 LOCK_CNT 4) s0))) = true := by decide +kernel

theorem wit_MemoryErrorAndLockRegisters_3 : (
  let i : Init := ⟨.m, .secure, false, none⟩
  let st : Stop := ⟨0, 0, 5⟩
  let tl : Stop := ⟨0, 1, 3⟩
  let k : Fin 6 := 1
  let cc : Fin 2 := 1
  let pc : Fin 2 := 1
  let lane : BitVec 7 := 40
  let ch : Fin 8 := 3
  let n : Fin 12 := 2
  let w : Fin 4 := 1
  let home : BitVec 3 := 2
  let on : Bool := true
  let p : Fin 4 := 1
  let die : Fin 2 := 0
  let v : BitVec 16 := 0x0303
  let ss := stkStop k
  let b := scrubOff cc
  let sec := i.world = .secure
  let lane : BitVec 7 := 72
  let s0 : State := liveSt [⟨0, 1, 3⟩, ⟨0,0,4⟩, ⟨0,0,5⟩, portStop 2, wsStop 0]
  decide ((fun (s : State) => admitted s i st (3 + cc.val) PHY_REMAP_CMD = true ∧ (fun s => sec ∧ stopKind st = .memory ∧ rbit s st (3 + cc.val) PHY_STAT 4 = false ∧ 72 ≤ lane.toNat) s) ((fun (s : State) => s) s0))) = true := by decide +kernel

theorem wit_MemoryErrorAndLockRegisters_4 : (
  let i : Init := ⟨.m, .secure, false, none⟩
  let st : Stop := ⟨0, 0, 5⟩
  let tl : Stop := ⟨0, 1, 3⟩
  let k : Fin 6 := 1
  let cc : Fin 2 := 1
  let pc : Fin 2 := 1
  let lane : BitVec 7 := 40
  let ch : Fin 8 := 3
  let n : Fin 12 := 2
  let w : Fin 4 := 1
  let home : BitVec 3 := 2
  let on : Bool := true
  let p : Fin 4 := 1
  let die : Fin 2 := 0
  let v : BitVec 16 := 0x0303
  let ss := stkStop k
  let b := scrubOff cc
  let sec := i.world = .secure
  let v2 : BitVec 16 := 0x0303
  let s0 : State := liveSt [⟨0, 1, 3⟩, ⟨0,0,4⟩, ⟨0,0,5⟩, portStop 2, wsStop 0]
  decide ((fun (s : State) => admitted s i tl 8 INJ_CTL = true ∧ (fun s => injMay s i.world tl = true ∧ v2.getLsbD 0 = true ∧ rbit s tl 8 INJ_CTL 0 = false ∧ v2.toNat / 2 % 4 ≤ 1 ∧ v2.toNat / 16 % 16 ≤ 2 ∧ 1 ≤ v2.toNat / 256) s) ((fun (s : State) => rputF (rputF s (wsStop 0) 12 DBG_EFF 0 4 15) (wsStop 1) 12 DBG_EFF 0 4 15) s0))) = true := by decide +kernel

theorem wit_InterruptPowerAndWorldRegisters_1 : (
  let i : Init := ⟨.m, .secure, false, some (.drover ⟨0, 1, 3⟩ 1 0)⟩
  let st : Stop := ⟨0, 1, 3⟩
  let h : Hart := .drover st 1 0
  let n : BitVec 6 := 17
  let k : Fin 14 := 2
  let m : BitVec 12 := 9
  let x : BitVec 9 := 9
  let v : Reg32 := 0x20345
  let d : Fin 16 := 1
  let ap : Fin 7 := 6
  let die : Fin 2 := 0
  let b : Fin 6 := 2
  let e : Fin 32 := 4
  let on : Bool := true
  let pg := intPage h
  let tab := shTable k.val
  let ws := wsStop 0
  let sec := i.world = .secure
  let paged := (match h with | .drover st _ _ => stopKind st = Kind.tile | .outrider _ => True | .waystation _ => False)
  let pmMay := fun (s : State) => guardOk i = true ∧ (i.world = .normal → dbgNonInv s .normal = true)
  let least := fun (s : State) => if pkgState s = 0 then 1000 else 100000
  let s0 : State := liveSt [⟨0, 1, 3⟩, ⟨0,0,4⟩, portStop 2, wsStop 0]
  decide ((fun (s : State) => admitted s i pg.1 pg.2.1 (pg.2.2 + INT_SET) = true ∧ (fun s => paged ∧ pageInert s h = false ∧ 16 ≤ n.toNat ∧ n.toNat ≤ 47 ∧ privSecret s h i.world n.toNat = false) s) ((fun (s : State) => s) s0)) &&
  decide ((fun (s : State) => admitted s i pg.1 pg.2.1 (pg.2.2 + INT_CLR) = true ∧ (fun s => guardOk i = true ∧ paged ∧ pageInert s h = false ∧ privUsed s h n.toNat = true ∧ privSecret s h i.world n.toNat = false) s) ((fun (s : State) => privSet s h 17) s0)) &&
  decide ((fun (s : State) => admitted s i pg.1 pg.2.1 (pg.2.2 + INT_EOI_N) = true ∧ (fun s => paged ∧ pageInert s h = false ∧ i.hart = some h) s) ((fun (s : State) => setRunStack s h .normal [3,4]) s0)) &&
  decide ((fun (s : State) => admitted s i pg.1 pg.2.1 (pg.2.2 + INT_EOI_S) = true ∧ (fun s => sec ∧ paged ∧ pageInert s h = false ∧ i.hart = some h) s) ((fun (s : State) => setRunStack s h .secure [3,4]) s0)) &&
  decide ((fun (s : State) => admitted s i tab.1 tab.2 SH_SET = true ∧ (fun s => m.toNat < shSize k.val ∧ (shSecure s k.val m.toNat = true → sec)) s) ((fun (s : State) => s) s0)) &&
  decide ((fun (s : State) => admitted s i tab.1 tab.2 SH_CLR = true ∧ (fun s => guardOk i = true ∧ m.toNat < shSize k.val ∧ (shSecure s k.val m.toNat = true → sec)) s) ((fun (s : State) => shSet s .secure false 2 9) s0)) &&
  decide ((fun (s : State) => admitted s i tab.1 tab.2 (SH_TGT + 8 * x.toNat) = true ∧ (fun s => guardOk i = true ∧ x.toNat < shSize k.val ∧ (shSecure s k.val x.toNat = true → sec) ∧ shFwd s k.val x.toNat = false) s) ((fun (s : State) => s) s0)) &&
  decide ((fun (s : State) => admitted s i st 9 (16 * d.val + DSEQ_CMD) = true ∧ (fun s => guardOk i = true ∧ domExists st d.val = true ∧ d.val ≠ 15) s) ((fun (s : State) => setDom s st 1 dOFF) s0)) &&
  decide ((fun (s : State) => admitted s i st 9 (16 * d.val + DSEQ_CMD) = true ∧ (fun s => guardOk i = true ∧ domExists st d.val = true ∧ d.val ≠ 15 ∧ domGuarded s i.world st d.val = false ∧ stopKind st = .tile ∧ domQuiet s st d.val = true) s) ((fun (s : State) => s) s0)) &&
  decide ((fun (s : State) => admitted s i st 9 (16 * d.val + DSEQ_CMD) = true ∧ (fun s => guardOk i = true ∧ domExists st d.val = true ∧ d.val ≠ 15 ∧ domGuarded s i.world st d.val = false ∧ domQuiet s st d.val = false) s) ((fun (s : State) => tput s (.drover st 1 0) { tget s (.drover st 1 0) with run := .running }) s0)) &&
  decide ((fun (s : State) => admitted s i (wsStop die) 5 (0x1000 * b.val + BAND_CMD) = true ∧ (fun s => guardOk i = true) s) ((fun (s : State) => s) s0)) &&
  decide ((fun (s : State) => admitted s i (wsStop die) 5 (0x1000 * b.val + BAND_CMD) = true ∧ (fun s => guardOk i = true) s) ((fun (s : State) => s) s0))) = true := by decide +kernel

theorem wit_InterruptPowerAndWorldRegisters_2 : (
  let i : Init := ⟨.m, .secure, false, some (.drover ⟨0, 1, 3⟩ 1 0)⟩
  let st : Stop := ⟨0, 1, 3⟩
  let h : Hart := .drover st 1 0
  let n : BitVec 6 := 17
  let k : Fin 14 := 2
  let m : BitVec 12 := 9
  let x : BitVec 9 := 9
  let v : Reg32 := 0x20345
  let d : Fin 16 := 1
  let ap : Fin 7 := 6
  let die : Fin 2 := 0
  let b : Fin 6 := 2
  let e : Fin 32 := 4
  let on : Bool := true
  let pg := intPage h
  let tab := shTable k.val
  let ws := wsStop 0
  let sec := i.world = .secure
  let paged := (match h with | .drover st _ _ => stopKind st = Kind.tile | .outrider _ => True | .waystation _ => False)
  let pmMay := fun (s : State) => guardOk i = true ∧ (i.world = .normal → dbgNonInv s .normal = true)
  let least := fun (s : State) => if pkgState s = 0 then 1000 else 100000
  let s0 : State := liveSt [⟨0, 1, 3⟩, ⟨0,0,4⟩, portStop 2, wsStop 0]
  decide ((fun (s : State) => admitted s i (wsStop die) 6 (wchBase e.val + WCH_CTL) = true ∧ (fun s => guardOk i = true ∧ (i.world = .normal → rbit s (wsStop die) 6 (wchBase e.val + WCH_CTL) 10 = false)) s) ((fun (s : State) => s) s0)) &&
  decide ((fun (s : State) => admitted s i ws 11 WA_LOCK = true ∧ (fun s => sec) s) ((fun (s : State) => s) s0)) &&
  decide ((fun (s : State) => admitted s i ws 12 DBG_REVOKE = true ∧ (fun s => sec) s) ((fun (s : State) => rput s ws 12 DBG_EFF 0x1FF) s0)) &&
  decide ((fun (s : State) => admitted s i ws 7 PM_GCTL = true ∧ (fun s => pmMay s ∧ rbit s ws 7 PM_GCTL 0 ≠ on ∧ rbit s ws 7 PM_GSTAT 1 = false ∧ tbNow s + least s ≤ rget64 s ws 7 PM_AT_LO) s) ((fun (s : State) => rput s ws 7 PM_AT_LO 5000) s0)) &&
  decide ((fun (s : State) => admitted s i ws 7 PM_GCTL = true ∧ (fun s => pmMay s ∧ rbit s ws 7 PM_GSTAT 1 = false ∧ rget64 s ws 7 PM_AT_LO < tbNow s + least s) s) ((fun (s : State) => s) s0))) = true := by decide +kernel

theorem wit_InterruptPowerAndWorldRegisters_3 : (
  let i : Init := ⟨.m, .secure, false, some (.drover ⟨0, 1, 3⟩ 1 0)⟩
  let st : Stop := ⟨0, 1, 3⟩
  let h : Hart := .drover st 1 0
  let n : BitVec 6 := 17
  let k : Fin 14 := 2
  let m : BitVec 12 := 9
  let x : BitVec 9 := 9
  let v : Reg32 := 0x20345
  let d : Fin 16 := 1
  let ap : Fin 7 := 6
  let die : Fin 2 := 0
  let b : Fin 6 := 2
  let e : Fin 32 := 4
  let on : Bool := true
  let pg := intPage h
  let tab := shTable k.val
  let ws := wsStop 0
  let sec := i.world = .secure
  let n : BitVec 6 := 48
  let paged := (match h with | .drover st _ _ => stopKind st = Kind.tile | .outrider _ => True | .waystation _ => False)
  let pmMay := fun (s : State) => guardOk i = true ∧ (i.world = .normal → dbgNonInv s .normal = true)
  let least := fun (s : State) => if pkgState s = 0 then 1000 else 100000
  let s0 : State := liveSt [⟨0, 1, 3⟩, ⟨0,0,4⟩, portStop 2, wsStop 0]
  decide ((fun (s : State) => admitted s i pg.1 pg.2.1 (pg.2.2 + INT_SET) = true ∧ (fun s => paged ∧ (n.toNat < 16 ∨ 47 < n.toNat ∨ privSecret s h i.world n.toNat = true)) s) ((fun (s : State) => s) s0))) = true := by decide +kernel

theorem wit_InterruptPowerAndWorldRegisters_4 : (
  let i : Init := ⟨.m, .secure, false, some (.drover ⟨0, 1, 3⟩ 1 0)⟩
  let st : Stop := ⟨0, 1, 3⟩
  let h : Hart := .drover st 1 0
  let n : BitVec 6 := 17
  let k : Fin 14 := 2
  let m : BitVec 12 := 9
  let x : BitVec 9 := 9
  let v : Reg32 := 0x20345
  let d : Fin 16 := 1
  let ap : Fin 7 := 6
  let die : Fin 2 := 0
  let b : Fin 6 := 2
  let e : Fin 32 := 4
  let on : Bool := true
  let pg := intPage h
  let tab := shTable k.val
  let ws := wsStop 0
  let sec := i.world = .secure
  let i : Init := ⟨.m, .secure, false, none⟩
  let paged := (match h with | .drover st _ _ => stopKind st = Kind.tile | .outrider _ => True | .waystation _ => False)
  let pmMay := fun (s : State) => guardOk i = true ∧ (i.world = .normal → dbgNonInv s .normal = true)
  let least := fun (s : State) => if pkgState s = 0 then 1000 else 100000
  let s0 : State := liveSt [⟨0, 1, 3⟩, ⟨0,0,4⟩, portStop 2, wsStop 0]
  decide ((fun (s : State) => admitted s i pg.1 pg.2.1 (pg.2.2 + INT_EOI_N) = true ∧ (fun s => paged ∧ i.hart ≠ some h) s) ((fun (s : State) => s) s0))) = true := by decide +kernel

theorem wit_InterruptPowerAndWorldRegisters_5 : (
  let i : Init := ⟨.m, .secure, false, some (.drover ⟨0, 1, 3⟩ 1 0)⟩
  let st : Stop := ⟨0, 1, 3⟩
  let h : Hart := .drover st 1 0
  let n : BitVec 6 := 17
  let k : Fin 14 := 2
  let m : BitVec 12 := 9
  let x : BitVec 9 := 9
  let v : Reg32 := 0x20345
  let d : Fin 16 := 1
  let ap : Fin 7 := 6
  let die : Fin 2 := 0
  let b : Fin 6 := 2
  let e : Fin 32 := 4
  let on : Bool := true
  let pg := intPage h
  let tab := shTable k.val
  let ws := wsStop 0
  let sec := i.world = .secure
  let m : BitVec 12 := 256
  let paged := (match h with | .drover st _ _ => stopKind st = Kind.tile | .outrider _ => True | .waystation _ => False)
  let pmMay := fun (s : State) => guardOk i = true ∧ (i.world = .normal → dbgNonInv s .normal = true)
  let least := fun (s : State) => if pkgState s = 0 then 1000 else 100000
  let s0 : State := liveSt [⟨0, 1, 3⟩, ⟨0,0,4⟩, portStop 2, wsStop 0]
  decide ((fun (s : State) => admitted s i tab.1 tab.2 SH_SET = true ∧ (fun s => shSize k.val ≤ m.toNat) s) ((fun (s : State) => s) s0))) = true := by decide +kernel

theorem wit_InterruptPowerAndWorldRegisters_6 : (
  let i : Init := ⟨.m, .secure, false, some (.drover ⟨0, 1, 3⟩ 1 0)⟩
  let st : Stop := ⟨0, 1, 3⟩
  let h : Hart := .drover st 1 0
  let n : BitVec 6 := 17
  let k : Fin 14 := 2
  let m : BitVec 12 := 9
  let x : BitVec 9 := 9
  let v : Reg32 := 0x20345
  let d : Fin 16 := 1
  let ap : Fin 7 := 6
  let die : Fin 2 := 0
  let b : Fin 6 := 2
  let e : Fin 32 := 4
  let on : Bool := true
  let pg := intPage h
  let tab := shTable k.val
  let ws := wsStop 0
  let sec := i.world = .secure
  let v : Reg32 := 0x20745
  let paged := (match h with | .drover st _ _ => stopKind st = Kind.tile | .outrider _ => True | .waystation _ => False)
  let pmMay := fun (s : State) => guardOk i = true ∧ (i.world = .normal → dbgNonInv s .normal = true)
  let least := fun (s : State) => if pkgState s = 0 then 1000 else 100000
  let s0 : State := liveSt [⟨0, 1, 3⟩, ⟨0,0,4⟩, portStop 2, wsStop 0]
  decide ((fun (s : State) => admitted s i tab.1 tab.2 (SH_CFG + 8 * x.toNat) = true ∧ (fun s => guardOk i = true ∧ x.toNat < shSize k.val ∧ (shSecure s k.val x.toNat = true → sec) ∧ shFwd s k.val x.toNat = false ∧ v.toNat / 512 % 4 ≠ 0) s) ((fun (s : State) => s) s0))) = true := by decide +kernel

theorem wit_InterruptPowerAndWorldRegisters_7 : (
  let i : Init := ⟨.m, .secure, false, some (.drover ⟨0, 1, 3⟩ 1 0)⟩
  let st : Stop := ⟨0, 1, 3⟩
  let h : Hart := .drover st 1 0
  let n : BitVec 6 := 17
  let k : Fin 14 := 2
  let m : BitVec 12 := 9
  let x : BitVec 9 := 9
  let v : Reg32 := 0x20345
  let d : Fin 16 := 1
  let ap : Fin 7 := 6
  let die : Fin 2 := 0
  let b : Fin 6 := 2
  let e : Fin 32 := 4
  let on : Bool := true
  let pg := intPage h
  let tab := shTable k.val
  let ws := wsStop 0
  let sec := i.world = .secure
  let i : Init := ⟨.s, .normal, false, none⟩
  let paged := (match h with | .drover st _ _ => stopKind st = Kind.tile | .outrider _ => True | .waystation _ => False)
  let pmMay := fun (s : State) => guardOk i = true ∧ (i.world = .normal → dbgNonInv s .normal = true)
  let least := fun (s : State) => if pkgState s = 0 then 1000 else 100000
  let s0 : State := liveSt [⟨0, 1, 3⟩, ⟨0,0,4⟩, portStop 2, wsStop 0]
  decide ((fun (s : State) => admitted s i st 9 (16 * d.val + DSEQ_CMD) = true ∧ (fun s => guardOk i = true ∧ domExists st d.val = true ∧ d.val ≠ 15 ∧ domGuarded s i.world st d.val = true) s) ((fun (s : State) => dstatPut s st 1 6 1 1) s0))) = true := by decide +kernel

theorem wit_InterruptPowerAndWorldRegisters_8 : (
  let i : Init := ⟨.m, .secure, false, some (.drover ⟨0, 1, 3⟩ 1 0)⟩
  let st : Stop := ⟨0, 1, 3⟩
  let h : Hart := .drover st 1 0
  let n : BitVec 6 := 17
  let k : Fin 14 := 2
  let m : BitVec 12 := 9
  let x : BitVec 9 := 9
  let v : Reg32 := 0x20345
  let d : Fin 16 := 1
  let ap : Fin 7 := 6
  let die : Fin 2 := 0
  let b : Fin 6 := 2
  let e : Fin 32 := 4
  let on : Bool := true
  let pg := intPage h
  let tab := shTable k.val
  let ws := wsStop 0
  let sec := i.world = .secure
  let st : Stop := ⟨0,0,4⟩
  let i : Init := ⟨.m, .secure, false, some (.waystation 0)⟩
  let paged := (match h with | .drover st _ _ => stopKind st = Kind.tile | .outrider _ => True | .waystation _ => False)
  let pmMay := fun (s : State) => guardOk i = true ∧ (i.world = .normal → dbgNonInv s .normal = true)
  let least := fun (s : State) => if pkgState s = 0 then 1000 else 100000
  let s0 : State := liveSt [⟨0, 1, 3⟩, ⟨0,0,4⟩, portStop 2, wsStop 0]
  decide ((fun (s : State) => admitted s i st 9 (16 * d.val + DSEQ_CMD) = true ∧ (fun s => sec ∧ domExists st d.val = true ∧ d.val ≠ 15 ∧ stopKind st ≠ .tile ∧ (∃ w, i.hart = some (.waystation w)) ∧ domQuiet s st d.val = true) s) ((fun (s : State) => s) s0))) = true := by decide +kernel

theorem wit_InterruptPowerAndWorldRegisters_9 : (
  let i : Init := ⟨.m, .secure, false, some (.drover ⟨0, 1, 3⟩ 1 0)⟩
  let st : Stop := ⟨0, 1, 3⟩
  let h : Hart := .drover st 1 0
  let n : BitVec 6 := 17
  let k : Fin 14 := 2
  let m : BitVec 12 := 9
  let x : BitVec 9 := 9
  let v : Reg32 := 0x20345
  let d : Fin 16 := 1
  let ap : Fin 7 := 6
  let die : Fin 2 := 0
  let b : Fin 6 := 2
  let e : Fin 32 := 4
  let on : Bool := true
  let pg := intPage h
  let tab := shTable k.val
  let ws := wsStop 0
  let sec := i.world = .secure
  let st : Stop := ⟨0,0,4⟩
  let paged := (match h with | .drover st _ _ => stopKind st = Kind.tile | .outrider _ => True | .waystation _ => False)
  let pmMay := fun (s : State) => guardOk i = true ∧ (i.world = .normal → dbgNonInv s .normal = true)
  let least := fun (s : State) => if pkgState s = 0 then 1000 else 100000
  let s0 : State := liveSt [⟨0, 1, 3⟩, ⟨0,0,4⟩, portStop 2, wsStop 0]
  decide ((fun (s : State) => admitted s i st 9 (16 * d.val + DSEQ_CMD) = true ∧ (fun s => guardOk i = true ∧ domExists st d.val = true ∧ d.val ≠ 15 ∧ stopKind st ≠ .tile ∧ (∀ w, i.hart ≠ some (.waystation w)) ∧ domGuarded s i.world st d.val = false) s) ((fun (s : State) => s) s0))) = true := by decide +kernel

theorem wit_InterruptPowerAndWorldRegisters_10 : (
  let i : Init := ⟨.m, .secure, false, some (.drover ⟨0, 1, 3⟩ 1 0)⟩
  let st : Stop := ⟨0, 1, 3⟩
  let h : Hart := .drover st 1 0
  let n : BitVec 6 := 17
  let k : Fin 14 := 2
  let m : BitVec 12 := 9
  let x : BitVec 9 := 9
  let v : Reg32 := 0x20345
  let d : Fin 16 := 1
  let ap : Fin 7 := 6
  let die : Fin 2 := 0
  let b : Fin 6 := 2
  let e : Fin 32 := 4
  let on : Bool := true
  let pg := intPage h
  let tab := shTable k.val
  let ws := wsStop 0
  let sec := i.world = .secure
  let a : BitVec 22 := 0x200000
  let paged := (match h with | .drover st _ _ => stopKind st = Kind.tile | .outrider _ => True | .waystation _ => False)
  let pmMay := fun (s : State) => guardOk i = true ∧ (i.world = .normal → dbgNonInv s .normal = true)
  let least := fun (s : State) => if pkgState s = 0 then 1000 else 100000
  let s0 : State := liveSt [⟨0, 1, 3⟩, ⟨0,0,4⟩, portStop 2, wsStop 0]
  decide ((fun (s : State) => admitted s i ws 11 WA_ASSIGN = true ∧ (fun s => sec ∧ worldLock s = true) s) ((fun (s : State) => rsetB s ws 11 WA_LOCK 0 true) s0))) = true := by decide +kernel

theorem wit_InterruptPowerAndWorldRegisters_11 : (
  let i : Init := ⟨.m, .secure, false, some (.drover ⟨0, 1, 3⟩ 1 0)⟩
  let st : Stop := ⟨0, 1, 3⟩
  let h : Hart := .drover st 1 0
  let n : BitVec 6 := 17
  let k : Fin 14 := 2
  let m : BitVec 12 := 9
  let x : BitVec 9 := 9
  let v : Reg32 := 0x20345
  let d : Fin 16 := 1
  let ap : Fin 7 := 6
  let die : Fin 2 := 0
  let b : Fin 6 := 2
  let e : Fin 32 := 4
  let on : Bool := true
  let pg := intPage h
  let tab := shTable k.val
  let ws := wsStop 0
  let sec := i.world = .secure
  let a : BitVec 22 := BitVec.ofNat 22 (stopLocus 0 ⟨0,1,3⟩ + 65536 + 2^21)
  let paged := (match h with | .drover st _ _ => stopKind st = Kind.tile | .outrider _ => True | .waystation _ => False)
  let pmMay := fun (s : State) => guardOk i = true ∧ (i.world = .normal → dbgNonInv s .normal = true)
  let least := fun (s : State) => if pkgState s = 0 then 1000 else 100000
  let s0 : State := liveSt [⟨0, 1, 3⟩, ⟨0,0,4⟩, portStop 2, wsStop 0]
  decide ((fun (s : State) => admitted s i ws 11 WA_ASSIGN = true ∧ (fun s => sec ∧ worldLock s = false ∧ stopOfLocus (pkgNum s) (a.toNat % 65536) = some st ∧ a.getLsbD 20 = false ∧ domExists st (a.toNat / 65536 % 16) = true) s) ((fun (s : State) => s) s0))) = true := by decide +kernel

theorem wit_InterruptPowerAndWorldRegisters_12 : (
  let i : Init := ⟨.m, .secure, false, some (.drover ⟨0, 1, 3⟩ 1 0)⟩
  let st : Stop := ⟨0, 1, 3⟩
  let h : Hart := .drover st 1 0
  let n : BitVec 6 := 17
  let k : Fin 14 := 2
  let m : BitVec 12 := 9
  let x : BitVec 9 := 9
  let v : Reg32 := 0x20345
  let d : Fin 16 := 1
  let ap : Fin 7 := 6
  let die : Fin 2 := 0
  let b : Fin 6 := 2
  let e : Fin 32 := 4
  let on : Bool := true
  let pg := intPage h
  let tab := shTable k.val
  let ws := wsStop 0
  let sec := i.world = .secure
  let a : BitVec 22 := BitVec.ofNat 22 (stopLocus 0 ⟨0,1,3⟩ + 65536 * 5 + 2^20 + 2^21)
  let paged := (match h with | .drover st _ _ => stopKind st = Kind.tile | .outrider _ => True | .waystation _ => False)
  let pmMay := fun (s : State) => guardOk i = true ∧ (i.world = .normal → dbgNonInv s .normal = true)
  let least := fun (s : State) => if pkgState s = 0 then 1000 else 100000
  let s0 : State := liveSt [⟨0, 1, 3⟩, ⟨0,0,4⟩, portStop 2, wsStop 0]
  decide ((fun (s : State) => admitted s i ws 11 WA_ASSIGN = true ∧ (fun s => sec ∧ worldLock s = false ∧ stopOfLocus (pkgNum s) (a.toNat % 65536) = some st ∧ a.getLsbD 20 = true ∧ stopKind st = .tile ∧ 4 ≤ a.toNat / 65536 % 16 ∧ a.toNat / 65536 % 16 ≤ 11) s) ((fun (s : State) => s) s0))) = true := by decide +kernel

theorem wit_RegisterWritesAndStaging_1 : (
  let i : Init := ⟨.m, .secure, false, some (.drover ⟨0, 1, 3⟩ 1 0)⟩
  let cl : Stop := orStop 0
  let ws : Stop := wsStop 0
  let live := fun (s : State) (st : Stop) (blk : Nat) (l : List Nat) => l.foldl (fun s o => rput s st blk o (rget s st blk (o + 0x8000))) s
  let copies := fun (s : State) (st : Stop) (blk : Nat) (l : List Nat) => l.foldl (fun s o => rput s st blk (o + 0x8000) (rget s st blk o)) s
  let sec := i.world = .secure
  let s0 : State := liveSt [⟨0, 1, 3⟩, orStop 0, wsStop 0]
  decide ((fun (s : State) => admitted s i cl 2 BLOCK_CTL = true ∧ (fun s => rbit s cl 2 BLOCK_STAT 3 = false ∨ rbit s cl 2 BLOCK_STAT 4 = true) s) ((fun (s : State) => s) s0)) &&
  decide ((fun (s : State) => admitted s i cl 2 BLOCK_CTL = true ∧ (fun s => rbit s cl 2 BLOCK_STAT 3 = true ∧ rbit s cl 2 BLOCK_STAT 4 = false ∧ (rfld s cl 2 (CP_CTL + 0x8000) 8 7 < rfld s cl 2 (CP_CTL + 0x8000) 0 7)) s) ((fun (s : State) => rput (rsetB s cl 2 BLOCK_STAT 3 true) cl 2 (CP_CTL + 0x8000) 0x205) s0)) &&
  decide ((fun (s : State) => admitted s i cl 2 BLOCK_CTL = true ∧ (fun s => rbit s cl 2 BLOCK_STAT 3 = true ∧ rbit s cl 2 BLOCK_STAT 4 = false ∧ ¬(rfld s cl 2 (CP_CTL + 0x8000) 8 7 < rfld s cl 2 (CP_CTL + 0x8000) 0 7)) s) ((fun (s : State) => rput (rsetB s cl 2 BLOCK_STAT 3 true) cl 2 (CP_CTL + 0x8000) 0x505) s0)) &&
  decide ((fun (s : State) => admitted s i ws 13 BLOCK_CTL = true ∧ (fun s => sec ∧ rbit s ws 13 BLOCK_STAT 3 = true ∧ rbit s ws 13 BLOCK_STAT 4 = false ∧ rget64 s ws 13 (TB_SET_LO + 0x8000) < tbNow s) s) ((fun (s : State) => { rsetB s ws 13 BLOCK_STAT 3 true with tbase := { s.tbase with tb := 77 } }) s0))) = true := by decide +kernel

theorem wit_RegisterWritesAndStaging_2 : (
  let i : Init := ⟨.m, .secure, false, some (.drover ⟨0, 1, 3⟩ 1 0)⟩
  let cl : Stop := orStop 0
  let ws : Stop := wsStop 0
  let live := fun (s : State) (st : Stop) (blk : Nat) (l : List Nat) => l.foldl (fun s o => rput s st blk o (rget s st blk (o + 0x8000))) s
  let copies := fun (s : State) (st : Stop) (blk : Nat) (l : List Nat) => l.foldl (fun s o => rput s st blk (o + 0x8000) (rget s st blk o)) s
  let sec := i.world = .secure
  let s0 : State := liveSt [⟨0, 1, 3⟩, orStop 0, wsStop 0]
  decide ((fun (s : State) => admitted s i ws 13 BLOCK_CTL = true ∧ (fun s => sec ∧ rbit s ws 13 BLOCK_STAT 3 = true ∧ rbit s ws 13 BLOCK_STAT 4 = false ∧ tbNow s ≤ rget64 s ws 13 (TB_SET_LO + 0x8000) ∧ s.pkg.members = 2 ^ pkgNum s) s) ((fun (s : State) => let s1 := rput (rsetB s ws 13 BLOCK_STAT 3 true) ws 13 (TB_SET_LO + 0x8000) 0x505; { s1 with pkg := { s1.pkg with members := 1 } }) s0)) &&
  decide ((fun (s : State) => admitted s i cl 2 BLOCK_CTL = true ∧ (fun _ => True) s) ((fun (s : State) => rput (rsetB s cl 2 BLOCK_STAT 3 true) cl 2 (CP_CTL + 0x8000) 0x205) s0)) &&
  decide ((fun (s : State) => admitted s i ws 13 BLOCK_CTL = true ∧ (fun s => sec) s) ((fun (s : State) => rput (rsetB s ws 13 BLOCK_STAT 3 true) ws 13 (TB_SET_LO + 0x8000) 0x205) s0))) = true := by decide +kernel

theorem wit_ThreadTimebaseAndOutriderEvents_1 : (
  let h : Hart := .drover ⟨0, 1, 3⟩ 1 0
  let n : Fin 16 := 2
  let k : Fin 6 := 1
  let l : Level := .s
  let a : Word := 0x4000
  let pc : Word := 0x8000
  let target : Word := 0x9000
  let line : Nat := 77
  let falling : Bool := false
  let d : Nat := 9000
  let dir : Bool := true
  let tkn : Bool := true
  let rd : Reg := 7
  let rs1 : Reg := 5
  let b : BrKind := .direct true
  let l2 : List Trace := [.pop]
  let w : WaitSt := ⟨7, 5, plain 0⟩
  let off := fun (s : State) => isDrover h = true ∧ domState s (hartStop h) (hartDom s h) ≠ dON
  let live := fun (s : State) => isDrover h = true ∧ hasBoundary s h = true
  let tsrc := match l with | .u => 0 | .s => 0 | .h => 1 | .m => 2
  let set := fun (s : State) => sbit (tget s h) snPRED_CTL 1 = false
  let ind := fun (s : State) => sbit (tget s h) snTHR_CTL 0 = false
  let r := orRegs n
  let ho : Hart := .outrider n
  let done := fun (s : State) => orPut s n { orGet s n with cmd := none }
  let got := fun (s : State) => courierLine s ho (dataUse false 0 (64 * line)) (64 * line)
  let ws := wsStop 0
  let err := fun (s : State) => ppsError (tbNow s)
  let good := fun (s : State) => if (err s).natAbs ≤ 2 then min 8 (s.tbase.good + 1) else 0
  let pps := fun (s : State) => pkgNum s = 0 ∧ pkgState s = 0 ∧ rbit s ws 13 TB_CTL 0 = true ∧ rbit s ws 13 TB_CTL 1 = falling
  let caught := fun (s : State) => rsetB (rsetB (rput (rput64 s ws 13 TB_PPS_LO (tbNow s)) ws 13 TB_ERR (BitVec.ofInt 32 (err s))) ws 13 TB_STAT 0 true) ws 13 TB_STAT 1 (decide (8 ≤ good s))
  let waits := fun (s : State) => (tget s h).wait = some w ∧ waitReasons s h w.deadline ≠ 0
  let s0 : State := liveSt [⟨0, 1, 3⟩, orStop 0, wsStop 0]
  decide ((fun (s : State) => waits s ∧ off s ∧ pkgState s = 0 ∧ pmFrozen s = true) ((fun (s : State) => (fun (s : State) => rsetB (setDom s ⟨0, 1, 3⟩ 1 0) (wsStop 0) 7 PM_GSTAT 0 true) (tput s h { tget s h with run := .waiting, wait := some ⟨7, 5, plain 0⟩, haltReq := true })) s0)) &&
  decide ((fun (s : State) => waits s ∧ off s ∧ pkgState s ≠ 0) ((fun (s : State) => (fun (s : State) => rputF (setDom s ⟨0, 1, 3⟩ 1 0) (wsStop 0) 4 PKG_STATE 0 4 2) (tput s h { tget s h with run := .waiting, wait := some ⟨7, 5, plain 0⟩, haltReq := true })) s0)) &&
  decide ((fun (s : State) => live s ∧ set s ∧ (predLookup s h 1 pc = none ∨ predLookup s h 1 pc = some target)) ((fun (s : State) => tput s h { tget s h with run := .running }) s0)) &&
  decide ((fun (s : State) => live s ∧ set s ∧ predLookup s h 1 pc = some a ∧ a ≠ target) ((fun (s : State) => train (tput s h { tget s h with run := .running }) h 1 pc a) s0)) &&
  decide ((fun (s : State) => live s ∧ set s) ((fun (s : State) => tput s h { tget s h with run := .running }) s0)) &&
  decide ((fun (s : State) => live s ∧ set s ∧ ind s) ((fun (s : State) => tput s h { tget s h with run := .running }) s0)) &&
  decide ((fun (s : State) => live s ∧ ¬ set s) ((fun (s : State) => (fun (s : State) => tput s h (sput (tget s h) snPRED_CTL 2)) (tput s h { tget s h with run := .running })) s0)) &&
  decide ((fun (s : State) => live s ∧ predLookup s h 1 pc = none) ((fun (s : State) => tput s h { tget s h with run := .running }) s0)) &&
  decide ((fun (s : State) => live s ∧ ¬ ind s) ((fun (s : State) => (fun (s : State) => tput s h (sput (tget s h) snTHR_CTL 1)) (tput s h { tget s h with run := .running })) s0)) &&
  decide ((fun (s : State) => live s ∧ ind s ∧ (rs1 = 1 ∨ rs1 = 5) ∧ rsTop s h = some target) ((fun (s : State) => (fun (s : State) => rsPush s h target) (tput s h { tget s h with run := .running })) s0)) &&
  decide ((fun (s : State) => live s ∧ ind s ∧ (rs1 = 1 ∨ rs1 = 5) ∧ rsTop s h ≠ some target) ((fun (s : State) => tput s h { tget s h with run := .running }) s0)) &&
  decide ((fun (s : State) => live s ∧ ind s ∧ predLookup s h 1 pc = none) ((fun (s : State) => tput s h { tget s h with run := .running }) s0))) = true := by decide +kernel

theorem wit_ThreadTimebaseAndOutriderEvents_2 : (
  let h : Hart := .drover ⟨0, 1, 3⟩ 1 0
  let n : Fin 16 := 2
  let k : Fin 6 := 1
  let l : Level := .s
  let a : Word := 0x4000
  let pc : Word := 0x8000
  let target : Word := 0x9000
  let line : Nat := 77
  let falling : Bool := false
  let d : Nat := 9000
  let dir : Bool := true
  let tkn : Bool := true
  let rd : Reg := 7
  let rs1 : Reg := 5
  let b : BrKind := .direct true
  let l2 : List Trace := [.pop]
  let w : WaitSt := ⟨7, 5, plain 0⟩
  let off := fun (s : State) => isDrover h = true ∧ domState s (hartStop h) (hartDom s h) ≠ dON
  let live := fun (s : State) => isDrover h = true ∧ hasBoundary s h = true
  let tsrc := match l with | .u => 0 | .s => 0 | .h => 1 | .m => 2
  let set := fun (s : State) => sbit (tget s h) snPRED_CTL 1 = false
  let ind := fun (s : State) => sbit (tget s h) snTHR_CTL 0 = false
  let r := orRegs n
  let ho : Hart := .outrider n
  let done := fun (s : State) => orPut s n { orGet s n with cmd := none }
  let got := fun (s : State) => courierLine s ho (dataUse false 0 (64 * line)) (64 * line)
  let ws := wsStop 0
  let err := fun (s : State) => ppsError (tbNow s)
  let good := fun (s : State) => if (err s).natAbs ≤ 2 then min 8 (s.tbase.good + 1) else 0
  let pps := fun (s : State) => pkgNum s = 0 ∧ pkgState s = 0 ∧ rbit s ws 13 TB_CTL 0 = true ∧ rbit s ws 13 TB_CTL 1 = falling
  let caught := fun (s : State) => rsetB (rsetB (rput (rput64 s ws 13 TB_PPS_LO (tbNow s)) ws 13 TB_ERR (BitVec.ofInt 32 (err s))) ws 13 TB_STAT 0 true) ws 13 TB_STAT 1 (decide (8 ≤ good s))
  let waits := fun (s : State) => (tget s h).wait = some w ∧ waitReasons s h w.deadline ≠ 0
  let s0 : State := liveSt [⟨0, 1, 3⟩, orStop 0, wsStop 0]
  decide ((fun (s : State) => ¬ live s) ((fun (s : State) => s) s0)) &&
  decide ((fun (s : State) => live s ∧ loadWaits s h pc = false ∧ (tget s h).park = none) ((fun (s : State) => rsetB (tput s h { tget s h with run := .running }) (hartStop h) 2 CORE_CTL 3 true) s0)) &&
  decide ((fun (s : State) => live s ∧ loadWaits s h pc = true) ((fun (s : State) => train (tput s h { tget s h with run := .running }) h 2 pc 1) s0)) &&
  decide ((fun (s : State) => (tget s h).startAt = some a ∧ hartExists h = true ∧ domState s (hartStop h) (hartDom s h) = dON) ((fun (s : State) => tput s h { tget s h with startAt := some a }) s0)) &&
  decide ((fun (s : State) => (tget s h).startAt = none) ((fun (s : State) => s) s0)) &&
  decide ((fun (s : State) => (∀ n, h ≠ .outrider n) ∧ (tget s h).stopReq = true ∧ hasBoundary s h = true ∧ groupsOf s h = [] ∧ (tget s h).nb = []) ((fun (s : State) => (fun (s : State) => tput s h { tget s h with stopReq := true }) (tput s h { tget s h with run := .running })) s0)) &&
  decide ((fun (s : State) => (tget s ho).stopReq = true ∧ hasBoundary s ho = true ∧ (tget s ho).nb = [] ∧ groupsOf s ho = []) ((fun (s : State) => let s1 := orPut s n { orGet s n with lc := mapSet (fun _ => none) (mapSet (fun _ => none) (orGet s n).lc 3 (some (5,true))) 4 (some (6,false)) }; tput s1 ho { tget s1 ho with run := .running, stopReq := true }) s0)) &&
  decide ((fun (s : State) => haltDue s h = true ∧ hasBoundary s h = true ∧ groupsOf s h = [] ∧ (tget s h).wait = none) ((fun (s : State) => rput (tput s h { tget s h with run := .running, haltReq := true, world := .normal }) ws 12 DBG_EFF 0x1FF) s0)) &&
  decide ((fun (s : State) => haltDue s h = false) ((fun (s : State) => s) s0)) &&
  decide ((fun (s : State) => pps s ∧ err s < -1000 ∧ rbit s ws 13 TB_CTL 2 = true) ((fun (s : State) => let s := rputF (rputF s ws 13 TB_CTL 0 2 1) ws 13 TB_CTL 8 8 40; let s := rsetB s ws 13 TB_CTL 2 true; { s with tbase := { s.tbase with tb := 199990000 } }) s0)) &&
  decide ((fun (s : State) => pps s ∧ ¬ (err s < -1000 ∧ rbit s ws 13 TB_CTL 2 = true)) ((fun (s : State) => let s := rputF (rputF s ws 13 TB_CTL 0 2 1) ws 13 TB_CTL 8 8 40; { s with tbase := { s.tbase with tb := 199999999 } }) s0)) &&
  decide ((fun (s : State) => ¬ pps s) ((fun (s : State) => s) s0))) = true := by decide +kernel

theorem wit_ThreadTimebaseAndOutriderEvents_3 : (
  let h : Hart := .drover ⟨0, 1, 3⟩ 1 0
  let n : Fin 16 := 2
  let k : Fin 6 := 1
  let l : Level := .s
  let a : Word := 0x4000
  let pc : Word := 0x8000
  let target : Word := 0x9000
  let line : Nat := 77
  let falling : Bool := false
  let d : Nat := 9000
  let dir : Bool := true
  let tkn : Bool := true
  let rd : Reg := 7
  let rs1 : Reg := 5
  let b : BrKind := .direct true
  let l2 : List Trace := [.pop]
  let w : WaitSt := ⟨7, 5, plain 0⟩
  let off := fun (s : State) => isDrover h = true ∧ domState s (hartStop h) (hartDom s h) ≠ dON
  let live := fun (s : State) => isDrover h = true ∧ hasBoundary s h = true
  let tsrc := match l with | .u => 0 | .s => 0 | .h => 1 | .m => 2
  let set := fun (s : State) => sbit (tget s h) snPRED_CTL 1 = false
  let ind := fun (s : State) => sbit (tget s h) snTHR_CTL 0 = false
  let r := orRegs n
  let ho : Hart := .outrider n
  let done := fun (s : State) => orPut s n { orGet s n with cmd := none }
  let got := fun (s : State) => courierLine s ho (dataUse false 0 (64 * line)) (64 * line)
  let ws := wsStop 0
  let err := fun (s : State) => ppsError (tbNow s)
  let good := fun (s : State) => if (err s).natAbs ≤ 2 then min 8 (s.tbase.good + 1) else 0
  let pps := fun (s : State) => pkgNum s = 0 ∧ pkgState s = 0 ∧ rbit s ws 13 TB_CTL 0 = true ∧ rbit s ws 13 TB_CTL 1 = falling
  let caught := fun (s : State) => rsetB (rsetB (rput (rput64 s ws 13 TB_PPS_LO (tbNow s)) ws 13 TB_ERR (BitVec.ofInt 32 (err s))) ws 13 TB_STAT 0 true) ws 13 TB_STAT 1 (decide (8 ≤ good s))
  let waits := fun (s : State) => (tget s h).wait = some w ∧ waitReasons s h w.deadline ≠ 0
  let s0 : State := liveSt [⟨0, 1, 3⟩, orStop 0, wsStop 0]
  decide ((fun (s : State) => pkgNum s = 0 ∧ rbit s ws 13 TB_CTL 0 = true ∧ s.tbase.seen = true) ((fun (s : State) => let s := rputF (rputF s ws 13 TB_CTL 0 2 1) ws 13 TB_CTL 8 8 40; { s with tbase := { s.tbase with seen := true } }) s0)) &&
  decide ((fun (s : State) => s.tbase.seen = false) ((fun (s : State) => s) s0)) &&
  decide ((fun (s : State) => s.tbase.load = some (tbNow s + 1, d) ∧ tbNow s < d ∧ d < 2 ^ 64) ((fun (s : State) => { s with tbase := { s.tbase with load := some (1, 9000) } }) s0)) &&
  decide ((fun (s : State) => s.tbase.load = none) ((fun (s : State) => s) s0)) &&
  decide ((fun (s : State) => (orGet s n).cmd = some (1, line) ∧ (got s).2 = true) ((fun (s : State) => orPut s n { orGet s n with cmd := some (1, line) }) s0)) &&
  decide ((fun (s : State) => (orGet s n).cmd = some (2, line) ∧ (got s).2 = true) ((fun (s : State) => orPut s n { orGet s n with cmd := some (2, line) }) s0)) &&
  decide ((fun (s : State) => ((orGet s n).cmd = some (1, line) ∨ (orGet s n).cmd = some (2, line)) ∧ (got s).2 = false) ((fun (s : State) => orPut { s with lock := { s.lock with pins := [(900, line)] } } n { orGet s n with cmd := some (2, line) }) s0)) &&
  decide ((fun (s : State) => (orGet s n).cmd = some (3, line) ∧ lcFind (orGet s n) line = none) ((fun (s : State) => orPut s n { orGet s n with cmd := some (3, line) }) s0)) &&
  decide ((fun (s : State) => (orGet s n).cmd = some (3, line) ∧ lcFind (orGet s n) line = some d) ((fun (s : State) => orPut s n { orGet s n with cmd := some (3, line), lc := [(9000, some (line, true))] }) s0)) &&
  decide ((fun (s : State) => (orGet s n).cmd = some (4, line)) ((fun (s : State) => orPut s n { orGet s n with cmd := some (4, line), lc := [(9, some (line, true))] }) s0)) &&
  decide ((fun (s : State) => (orGet s n).cmd = some (5, line)) ((fun (s : State) => orPut s n { orGet s n with cmd := some (5, line), lc := [(9, some (line, true)), (10, some (4, false))] }) s0)) &&
  decide ((fun (s : State) => (orGet s n).cmd = none) ((fun (s : State) => s) s0))) = true := by decide +kernel

theorem wit_ThreadTimebaseAndOutriderEvents_4 : (
  let h : Hart := .drover ⟨0, 1, 3⟩ 1 0
  let n : Fin 16 := 2
  let k : Fin 6 := 1
  let l : Level := .s
  let a : Word := 0x4000
  let pc : Word := 0x8000
  let target : Word := 0x9000
  let line : Nat := 77
  let falling : Bool := false
  let d : Nat := 9000
  let dir : Bool := true
  let tkn : Bool := true
  let rd : Reg := 7
  let rs1 : Reg := 5
  let b : BrKind := .direct true
  let l2 : List Trace := [.pop]
  let w : WaitSt := ⟨7, 5, plain 0⟩
  let off := fun (s : State) => isDrover h = true ∧ domState s (hartStop h) (hartDom s h) ≠ dON
  let live := fun (s : State) => isDrover h = true ∧ hasBoundary s h = true
  let tsrc := match l with | .u => 0 | .s => 0 | .h => 1 | .m => 2
  let set := fun (s : State) => sbit (tget s h) snPRED_CTL 1 = false
  let ind := fun (s : State) => sbit (tget s h) snTHR_CTL 0 = false
  let r := orRegs n
  let ho : Hart := .outrider n
  let done := fun (s : State) => orPut s n { orGet s n with cmd := none }
  let got := fun (s : State) => courierLine s ho (dataUse false 0 (64 * line)) (64 * line)
  let ws := wsStop 0
  let err := fun (s : State) => ppsError (tbNow s)
  let good := fun (s : State) => if (err s).natAbs ≤ 2 then min 8 (s.tbase.good + 1) else 0
  let pps := fun (s : State) => pkgNum s = 0 ∧ pkgState s = 0 ∧ rbit s ws 13 TB_CTL 0 = true ∧ rbit s ws 13 TB_CTL 1 = falling
  let caught := fun (s : State) => rsetB (rsetB (rput (rput64 s ws 13 TB_PPS_LO (tbNow s)) ws 13 TB_ERR (BitVec.ofInt 32 (err s))) ws 13 TB_STAT 0 true) ws 13 TB_STAT 1 (decide (8 ≤ good s))
  let waits := fun (s : State) => (tget s h).wait = some w ∧ waitReasons s h w.deadline ≠ 0
  let s0 : State := liveSt [⟨0, 1, 3⟩, orStop 0, wsStop 0]
  decide ((fun (s : State) => True) ((fun (s : State) => s) s0)) &&
  decide ((fun (s : State) => k.val ∈ (orGet s n).aged ∧ (rbit s r.1 2 CP_CTL 24 = false ∨ rbit s r.1 2 CP_STAT k.val = true)) ((fun (s : State) => let s := rsetB s r.1 2 CP_CTL 24 false; orPut s n { orGet s n with aged := [1] }) s0)) &&
  decide ((fun (s : State) => k.val ∈ (orGet s n).aged ∧ rbit s r.1 2 CP_CTL 24 = true ∧ rbit s r.1 2 CP_STAT k.val = false) ((fun (s : State) => let s := rsetB s r.1 2 CP_CTL 24 true; orPut s n { orGet s n with aged := [1] }) s0)) &&
  decide ((fun (s : State) => privPending s h tsrc = true ∧ privEnabled s h tsrc = true ∧ (tget s h).run = .waiting ∧ off s ∧ pkgState s ≠ 0) ((fun (s : State) => (let s := setDom s ⟨0, 1, 3⟩ 1 0; let s := tput s h (sput { tget s h with run := .waiting } (snLev .s exTCMP) 0); let s := rput s (intPage h).1 (intPage h).2.1 ((intPage h).2.2 + PSRC_CFG) 0x100; rputF s (wsStop 0) 4 PKG_STATE 0 4 2)) s0)) &&
  decide ((fun (s : State) => privPending s h tsrc = true ∧ privEnabled s h tsrc = true ∧ (tget s h).run = .waiting ∧ off s ∧ pkgState s = 0 ∧ pmFrozen s = true) ((fun (s : State) => (let s := setDom s ⟨0, 1, 3⟩ 1 0; let s := tput s h (sput { tget s h with run := .waiting } (snLev .s exTCMP) 0); let s := rput s (intPage h).1 (intPage h).2.1 ((intPage h).2.2 + PSRC_CFG) 0x100; rsetB s (wsStop 0) 7 PM_GSTAT 0 true)) s0)) &&
  decide ((fun (s : State) => (tget s h).wait = none) ((fun (s : State) => s) s0)) &&
  decide ((fun (s : State) => haltDue s h = true ∧ hasBoundary s h = true ∧ groupsOf s h = [] ∧ (tget s h).wait = some w) ((fun (s : State) => rput (tput s h { tget s h with run := .waiting, wait := some ⟨7, 5, plain 0⟩, haltReq := true, world := .normal }) ws 12 DBG_EFF 0x1FF) s0)) &&
  decide ((fun (s : State) => privPending s h tsrc = false ∨ privEnabled s h tsrc = false ∨ (tget s h).run ≠ .waiting) ((fun (s : State) => s) s0))) = true := by decide +kernel

theorem wit_ErrorEvents_1 : (
  let st : Stop := ⟨0, 1, 3⟩
  let die : Fin 2 := 0
  let band : Fin 6 := 1
  let c : Fin 2 := 1
  let line : Nat := 77
  let addr : Nat := 0x5040
  let a : Agent := .core 3
  let r : Report := ⟨st, 1, false, 0x1005, 9, 2, false, false, 2, some 0x123456789, 7, 55⟩
  let q : List Report := []
  let way : Nat := 2
  let p : Fin 192 := 3
  let ws := wsStop die
  let key := bandKey die band.val
  let queue := fun (s : State) => mapGet (fun _ => []) s.err.queues key
  let armed := fun (s : State) => rbit s st 8 INJ_STAT 0 = true
  let trig := fun (s : State) => rfld s st 8 INJ_CTL 4 2
  let src := fun (s : State) => rfld s st 8 INJ_SRC 0 16
  let left := fun (s : State) => rfld s st 8 INJ_STAT 8 8
  let shown := fun (s : State) (ty : Nat) (x : Option Nat) => rsetB (reportErr s st (src s) ty x 0 0 true) st 8 INJ_STAT 2 true
  let hit := fun (s : State) => trig s = 0 ∨ trig s = 3 ∨ (trig s = 1 ∧ addr / 64 = rget64 s st 8 INJ_ADDR_LO % 2 ^ 52 / 64)
  let cs := 0x1006 + c.val * 0x100
  let h0 := Hart.drover st c 0
  let h1 := Hart.drover st c 1
  let can := fun (s : State) => stopKind st = .tile ∧ tileMode s st ≠ 1 ∧ tileMode s st ≠ 3 ∧ domState s st c.val = dON
  let check := fun (s : State) (h : Hart) (re : Bool) => tmod s h fun t => { t with mchk := t.mchk ++ [(cs, mchkInfo cs false re false false, 0)] }
  let said := fun (s : State) => reportErr s st cs tyUE none 0 (c.val * 32)
  let late := fun (s : State) => reportErr s st 0x3007 tyTIMEOUT (some (64 * line))
  let reads := fun (m : NodeMsg × Option Hart) => decide (m.1.addr / 64 = line) && [1, 2, 4].contains m.1.op
  let writes := fun (m : NodeMsg × Option Hart) => decide (m.1.addr / 64 = line) && [3, 5, 6, 7].contains m.1.op
  let s0 : State := liveSt [⟨0, 1, 3⟩, orStop 0, wsStop 0]
  decide ((fun (s : State) => queue s = r :: q) ((fun (s : State) => { s with err := { s.err with queues := mapSet (fun _ => []) s.err.queues key [r] } }) s0)) &&
  decide ((fun (s : State) => queue s = []) ((fun (s : State) => s) s0)) &&
  decide ((fun (s : State) => setHas s.err.lost key = true ∧ (queue s).length < 16) ((fun (s : State) => { s with err := { s.err with lost := setAdd s.err.lost key } }) s0)) &&
  decide ((fun (s : State) => setHas s.err.lost key = false ∨ 16 ≤ (queue s).length) ((fun (s : State) => s) s0)) &&
  decide ((fun (s : State) => armed s ∧ hit s ∧ rfld s st 8 INJ_CTL 1 2 = 0 ∧ 1 < left (shown s tyCE (some addr))) ((fun (s : State) => rputF (rputF (rputF (rsetB s st 8 INJ_STAT 0 true) st 8 INJ_STAT 8 8 3) st 8 INJ_CTL 0 6 1) st 8 INJ_SRC 0 16 0x1005) s0)) &&
  decide ((fun (s : State) => armed s ∧ hit s ∧ rfld s st 8 INJ_CTL 1 2 = 0 ∧ left (shown s tyCE (some addr)) = 1) ((fun (s : State) => rputF (rputF (rputF (rsetB s st 8 INJ_STAT 0 true) st 8 INJ_STAT 8 8 1) st 8 INJ_CTL 0 6 1) st 8 INJ_SRC 0 16 0x1005) s0)) &&
  decide ((fun (s : State) => armed s ∧ hit s ∧ rfld s st 8 INJ_CTL 1 2 ≠ 0 ∧ rbit s st 8 INJ_CTL 3 = true ∧ isDevice addr = false ∧ left (shown (poisonLine s addr) tyUE (some addr)) = 1) ((fun (s : State) => rputF (rputF (rputF (rsetB s st 8 INJ_STAT 0 true) st 8 INJ_STAT 8 8 1) st 8 INJ_CTL 0 6 11) st 8 INJ_SRC 0 16 0x1005) s0)) &&
  decide ((fun (s : State) => ¬ armed s ∨ ¬ hit s) ((fun (s : State) => rputF (rputF (rputF (rsetB s st 8 INJ_STAT 0 true) st 8 INJ_STAT 8 8 1) st 8 INJ_CTL 0 6 17) st 8 INJ_SRC 0 16 0x1005) s0)) &&
  decide ((fun (s : State) => armed s ∧ trig s = 2 ∧ rget64 s st 8 INJ_TIME_LO ≤ tbNow s ∧ rfld s st 8 INJ_CTL 1 2 = 0 ∧ left (shown s tyCE none) = 1) ((fun (s : State) => rputF (rputF (rputF (rsetB s st 8 INJ_STAT 0 true) st 8 INJ_STAT 8 8 1) st 8 INJ_CTL 0 6 33) st 8 INJ_SRC 0 16 0x1005) s0)) &&
  decide ((fun (s : State) => ¬ armed s ∨ trig s ≠ 2 ∨ tbNow s < rget64 s st 8 INJ_TIME_LO) ((fun (s : State) => rputF (rputF (rputF (rsetB s st 8 INJ_STAT 0 true) st 8 INJ_STAT 8 8 1) st 8 INJ_CTL 0 6 17) st 8 INJ_SRC 0 16 0x1005) s0)) &&
  decide ((fun (s : State) => can s ∧ (tget s h0).run ≠ .stopped ∧ (tget s h1).run ≠ .stopped) ((fun (s : State) => tput (tput s h0 { tget s h0 with run := .running }) h1 { tget s h1 with run := .running }) s0)) &&
  decide ((fun (s : State) => can s ∧ (tget s h1).run ≠ .stopped) ((fun (s : State) => tput (tput s h0 { tget s h0 with run := .running }) h1 { tget s h1 with run := .running }) s0))) = true := by decide +kernel

theorem wit_ErrorEvents_2 : (
  let st : Stop := ⟨0, 1, 3⟩
  let die : Fin 2 := 0
  let band : Fin 6 := 1
  let c : Fin 2 := 1
  let line : Nat := 77
  let addr : Nat := 0x5040
  let a : Agent := .core 3
  let r : Report := ⟨st, 1, false, 0x1005, 9, 2, false, false, 2, some 0x123456789, 7, 55⟩
  let q : List Report := []
  let way : Nat := 2
  let p : Fin 192 := 3
  let ws := wsStop die
  let key := bandKey die band.val
  let queue := fun (s : State) => mapGet (fun _ => []) s.err.queues key
  let armed := fun (s : State) => rbit s st 8 INJ_STAT 0 = true
  let trig := fun (s : State) => rfld s st 8 INJ_CTL 4 2
  let src := fun (s : State) => rfld s st 8 INJ_SRC 0 16
  let left := fun (s : State) => rfld s st 8 INJ_STAT 8 8
  let shown := fun (s : State) (ty : Nat) (x : Option Nat) => rsetB (reportErr s st (src s) ty x 0 0 true) st 8 INJ_STAT 2 true
  let hit := fun (s : State) => trig s = 0 ∨ trig s = 3 ∨ (trig s = 1 ∧ addr / 64 = rget64 s st 8 INJ_ADDR_LO % 2 ^ 52 / 64)
  let cs := 0x1006 + c.val * 0x100
  let h0 := Hart.drover st c 0
  let h1 := Hart.drover st c 1
  let can := fun (s : State) => stopKind st = .tile ∧ tileMode s st ≠ 1 ∧ tileMode s st ≠ 3 ∧ domState s st c.val = dON
  let check := fun (s : State) (h : Hart) (re : Bool) => tmod s h fun t => { t with mchk := t.mchk ++ [(cs, mchkInfo cs false re false false, 0)] }
  let said := fun (s : State) => reportErr s st cs tyUE none 0 (c.val * 32)
  let late := fun (s : State) => reportErr s st 0x3007 tyTIMEOUT (some (64 * line))
  let reads := fun (m : NodeMsg × Option Hart) => decide (m.1.addr / 64 = line) && [1, 2, 4].contains m.1.op
  let writes := fun (m : NodeMsg × Option Hart) => decide (m.1.addr / 64 = line) && [3, 5, 6, 7].contains m.1.op
  let s0 : State := liveSt [⟨0, 1, 3⟩, orStop 0, wsStop 0]
  decide ((fun (s : State) => can s ∧ (tget s h0).run = .stopped) ((fun (s : State) => s) s0)) &&
  decide ((fun (s : State) => ¬ can s) ((fun (s : State) => setDom s st 1 0) s0)) &&
  decide ((fun (s : State) => stopKind st = .tile ∧ s.link.waiting.find? reads = none) ((fun (s : State) => s) s0)) &&
  decide ((fun (s : State) => stopKind st = .tile) ((fun (s : State) => s) s0)) &&
  decide ((fun (s : State) => stopKind st = .tile ∧ (s.link.waiting.find? reads).isSome = true) ((fun (s : State) => { s with link := { s.link with waiting := [((⟨1, 0, 9, 64 * line, 0, [], none⟩ : NodeMsg), none)] } }) s0))) = true := by decide +kernel

theorem wit_ErrorEvents_3 : (
  let st : Stop := ⟨0, 1, 3⟩
  let die : Fin 2 := 0
  let band : Fin 6 := 1
  let c : Fin 2 := 1
  let line : Nat := 77
  let addr : Nat := 0x5040
  let a : Agent := .core 3
  let r : Report := ⟨st, 1, false, 0x1005, 9, 2, false, false, 2, some 0x123456789, 7, 55⟩
  let q : List Report := []
  let way : Nat := 2
  let p : Fin 192 := 3
  let p : Fin 192 := 3
  let ws := wsStop die
  let key := bandKey die band.val
  let queue := fun (s : State) => mapGet (fun _ => []) s.err.queues key
  let armed := fun (s : State) => rbit s st 8 INJ_STAT 0 = true
  let trig := fun (s : State) => rfld s st 8 INJ_CTL 4 2
  let src := fun (s : State) => rfld s st 8 INJ_SRC 0 16
  let left := fun (s : State) => rfld s st 8 INJ_STAT 8 8
  let shown := fun (s : State) (ty : Nat) (x : Option Nat) => rsetB (reportErr s st (src s) ty x 0 0 true) st 8 INJ_STAT 2 true
  let hit := fun (s : State) => trig s = 0 ∨ trig s = 3 ∨ (trig s = 1 ∧ addr / 64 = rget64 s st 8 INJ_ADDR_LO % 2 ^ 52 / 64)
  let cs := 0x1006 + c.val * 0x100
  let h0 := Hart.drover st c 0
  let h1 := Hart.drover st c 1
  let can := fun (s : State) => stopKind st = .tile ∧ tileMode s st ≠ 1 ∧ tileMode s st ≠ 3 ∧ domState s st c.val = dON
  let check := fun (s : State) (h : Hart) (re : Bool) => tmod s h fun t => { t with mchk := t.mchk ++ [(cs, mchkInfo cs false re false false, 0)] }
  let said := fun (s : State) => reportErr s st cs tyUE none 0 (c.val * 32)
  let late := fun (s : State) => reportErr s st 0x3007 tyTIMEOUT (some (64 * line))
  let reads := fun (m : NodeMsg × Option Hart) => decide (m.1.addr / 64 = line) && [1, 2, 4].contains m.1.op
  let writes := fun (m : NodeMsg × Option Hart) => decide (m.1.addr / 64 = line) && [3, 5, 6, 7].contains m.1.op
  let s0 : State := liveSt [⟨0, 1, 3⟩, orStop 0, wsStop 0]
  decide ((fun (s : State) => stopKind st = .tile ∧ l2Find s p.val line = some (way, 3)) ((fun (s : State) => l2Put s 3 line 2 3) s0)) &&
  decide ((fun (s : State) => stopKind st = .tile ∧ l2Find s p.val line = some (way, 1)) ((fun (s : State) => l2Put s 3 line 2 1) s0)) &&
  decide ((fun (s : State) => stopKind st = .tile ∧ l2Find s p.val line = none) ((fun (s : State) => s) s0))) = true := by decide +kernel

theorem wit_ErrorEvents_4 : (
  let st : Stop := ⟨0, 1, 3⟩
  let die : Fin 2 := 0
  let band : Fin 6 := 1
  let c : Fin 2 := 1
  let line : Nat := 77
  let addr : Nat := 0x5040
  let a : Agent := .core 3
  let r : Report := ⟨st, 1, false, 0x1005, 9, 2, false, false, 2, some 0x123456789, 7, 55⟩
  let q : List Report := []
  let way : Nat := 2
  let p : Fin 192 := 3
  let o : Fin 16 := 3
  let ws := wsStop die
  let key := bandKey die band.val
  let queue := fun (s : State) => mapGet (fun _ => []) s.err.queues key
  let armed := fun (s : State) => rbit s st 8 INJ_STAT 0 = true
  let trig := fun (s : State) => rfld s st 8 INJ_CTL 4 2
  let src := fun (s : State) => rfld s st 8 INJ_SRC 0 16
  let left := fun (s : State) => rfld s st 8 INJ_STAT 8 8
  let shown := fun (s : State) (ty : Nat) (x : Option Nat) => rsetB (reportErr s st (src s) ty x 0 0 true) st 8 INJ_STAT 2 true
  let hit := fun (s : State) => trig s = 0 ∨ trig s = 3 ∨ (trig s = 1 ∧ addr / 64 = rget64 s st 8 INJ_ADDR_LO % 2 ^ 52 / 64)
  let cs := 0x1006 + c.val * 0x100
  let h0 := Hart.drover st c 0
  let h1 := Hart.drover st c 1
  let can := fun (s : State) => stopKind st = .tile ∧ tileMode s st ≠ 1 ∧ tileMode s st ≠ 3 ∧ domState s st c.val = dON
  let check := fun (s : State) (h : Hart) (re : Bool) => tmod s h fun t => { t with mchk := t.mchk ++ [(cs, mchkInfo cs false re false false, 0)] }
  let said := fun (s : State) => reportErr s st cs tyUE none 0 (c.val * 32)
  let late := fun (s : State) => reportErr s st 0x3007 tyTIMEOUT (some (64 * line))
  let reads := fun (m : NodeMsg × Option Hart) => decide (m.1.addr / 64 = line) && [1, 2, 4].contains m.1.op
  let writes := fun (m : NodeMsg × Option Hart) => decide (m.1.addr / 64 = line) && [3, 5, 6, 7].contains m.1.op
  let s0 : State := liveSt [⟨0, 1, 3⟩, orStop 0, wsStop 0]
  decide ((fun (s : State) => stopKind st = .tile) ((fun (s : State) => orPut s 3 { orGet s 3 with lc := [(9, some (line, false))] }) s0))) = true := by decide +kernel

set_option maxRecDepth 10000 in
theorem wit_CacheAndHomeEvents_1 : (
  let st : Stop := ⟨0, 1, 0⟩
  let line : Nat := 0
  let far : Nat := 2^34
  let n : Fin 192 := 0
  let m : Fin 192 := 1
  let p : Fin 4 := 1
  let tag : Nat := 7
  let page : Nat := 4
  let nt := false
  let demand := true
  let c : Fin 2 := 1
  let way : Nat := 2
  let w2 : Fin 16 := 5
  let w1 : Fin 8 := 5
  let w3 : Fin 12 := 5
  let addr : Nat := 0x40
  let data : List Byte := [1,2,3]
  let a : Agent := .core n
  let b : Agent := .pkg p tag
  let cw := fun (s : State) (x : Agent) => some (agentWorld s x)
  let sl := fun (s : State) => sliceGet s st
  let evbOf := fun (s : State) => (sl s).evb.find? (fun e => e.line = line)
  let free := fun (s : State) => homeOf s (64 * line) = some st ∧ setHas s.cache.retiring (stopIdx st) = false
  let fresh := fun (s : State) (op : Nat) (x : Agent) => free s ∧ domState s st 2 = dON ∧ (sl s).waits.contains (op, x, line) = false ∧ evbWaits (sl s) op x line = false
  let come := fun (s : State) (op : Nat) (x : Agent) => countScope (agentSend s x st).1 st (op - 1) 1 (cw s x)
  let got := fun (s : State) (op : Nat) (x : Agent) => slotFree (come s op x) st (op, x, line)
  let sent := fun (s : State) (op : Nat) (x : Agent) => fresh s op x ∧ slotOcc s st < 128 ∧ (agentSend s x st).2 = true
  let ready := fun (s : State) (op : Nat) (x : Agent) => sent s op x ∧ linePinned s x line = false ∧ lentReady s line (decide (op = 2 ∨ op = 3 ∨ op = 5)) (agentPkg x) = true
  let home := fun (s : State) (op : Nat) (x : Agent) => ready s op x ∧ evbOf (got s op x) = none
  let gw := fun (s : State) (op : Nat) (x : Agent) => agentWorld (got s op x) x
  let read := fun (s : State) (x : Agent) => homeRead (got s 1 x) st (gw s 1 x) x line nt demand
  let own := fun (s : State) => invOthers (homeRead (packFree (got s 2 a) st line) st (gw s 2 a) a line nt true) st (gw s 2 a) line (some a)
  let upg := fun (s : State) => invOthers (packFree (got s 3 a) st line) st (gw s 3 a) line (some a)
  let onc := fun (s : State) => invOthers (packFree (countScope (got s 5 a) st 0x0F 1 (some (gw s 5 a))) st line) st (gw s 5 a) line none
  let held := fun (s : State) => (l2Holders s line).filter fun e => decide (e.1 ≠ n.val)
  let others := fun (s : State) => match sfFind (sliceGet s st) line with | some (_, e) => decide (e.pkgs ≠ 0 ∨ e.courier ≠ 0) | none => false
  let keepO := fun (s : State) => countScope (sfOwner (l2Move (read s a) m.val line l2O) st line (some (m.val, l2O))) st 0x1A 1 (some (gw s 1 a))
  let evb := fun (s : State) (i : Bool) => ⟨line, i, []⟩ ∈ (sl s).evb ∧ evbOf s = some ⟨line, i, []⟩
  let blk := 3 + c.val
  let ce := fun (s : State) (k cnt src : Nat) => reportErr (rsat (rsat s st k cnt 0 16 1) st k cnt 16 16 1) st src tyCE (some addr)
  let ue := fun (s : State) (src : Nat) => reportErr (markPoison s addr) st src (tyUE + tyPOISON) (some addr)
  let bad := fun (s : State) (k : Nat) => { s with cache := { s.cache with disab := setAdd s.cache.disab (disKey st k) } }
  let gone := fun (s : State) (k : Nat) => { wayEmpty s st k with cache := { (wayEmpty s st k).cache with disab := setDel (wayEmpty s st k).cache.disab (disKey st k) } }
  let drop := fun (s : State) => { s with link := { s.link with held := s.link.held.filter fun l => l.1 ≠ line } }
  let outward := fun (s : State) => paTarget s (64 * line) = .remoteMem p.val ∧ homeOf s (64 * line) = none
  let last := fun (s : State) (v : Nat) => (l2Holders (l2Lose s n.val line way) line).isEmpty = true ∧ (l2Lose s n.val line way).link.held.find? (fun e => decide (e.1 = line ∧ e.2 ≤ 3)) = some (line, v)
  let again := fun (s : State) => { s with cache := { s.cache with retries := s.cache.retries.erase (1, a, line) } }
  let s0 : State := liveSt [⟨0, 1, 0⟩, orStop 0, wsStop 0]
  decide ((fun (s : State) => home s 1 a ∧ held (read s a) = [] ∧ others (read s a) = false ∧ l2Enabled (read s a) n.val = true ∧ l2Find (read s a) n.val line = none) ((fun (s : State) => (fun (s : State) => s) (memSt (rsetB (rsetB s st 3 BLOCK_CTL 0 true) st 4 BLOCK_CTL 0 true))) s0)) &&
  decide ((fun (s : State) => home s 1 a ∧ held (read s a) = [(m.val, l2M)] ∧ l2Enabled (keepO s) n.val = true ∧ l2Find (keepO s) n.val line = none) ((fun (s : State) => (fun (s : State) => l2Put s 1 0 3 l2M) (memSt (rsetB (rsetB s st 3 BLOCK_CTL 0 true) st 4 BLOCK_CTL 0 true))) s0)) &&
  decide ((fun (s : State) => home s 1 b ∧ l2Holders (read s b) line = [] ∧ others (read s b) = false) ((fun (s : State) => (fun (s : State) => s) (memSt (rsetB (rsetB s st 3 BLOCK_CTL 0 true) st 4 BLOCK_CTL 0 true))) s0)) &&
  decide ((fun (s : State) => setHas s.cache.retiring (stopIdx st) = true ∧ homeOf s (64 * line) = some st) ((fun (s : State) => (fun (s : State) => { s with cache := { s.cache with retiring := setAdd [] (stopIdx st) } }) (memSt (rsetB (rsetB s st 3 BLOCK_CTL 0 true) st 4 BLOCK_CTL 0 true))) s0)) &&
  decide ((fun (s : State) => free s ∧ domState s st 2 ≠ dON ∧ pkgState s = 0) ((fun (s : State) => (fun (s : State) => setDom s st 2 0) (memSt (rsetB (rsetB s st 3 BLOCK_CTL 0 true) st 4 BLOCK_CTL 0 true))) s0))) = true := by decide +kernel

set_option maxRecDepth 10000 in
theorem wit_CacheAndHomeEvents_2 : (
  let st : Stop := ⟨0, 1, 0⟩
  let line : Nat := 0
  let far : Nat := 2^34
  let n : Fin 192 := 0
  let m : Fin 192 := 1
  let p : Fin 4 := 1
  let tag : Nat := 7
  let page : Nat := 4
  let nt := false
  let demand := true
  let c : Fin 2 := 1
  let way : Nat := 2
  let w2 : Fin 16 := 5
  let w1 : Fin 8 := 5
  let w3 : Fin 12 := 5
  let addr : Nat := 0x40
  let data : List Byte := [1,2,3]
  let a : Agent := .core n
  let b : Agent := .pkg p tag
  let cw := fun (s : State) (x : Agent) => some (agentWorld s x)
  let sl := fun (s : State) => sliceGet s st
  let evbOf := fun (s : State) => (sl s).evb.find? (fun e => e.line = line)
  let free := fun (s : State) => homeOf s (64 * line) = some st ∧ setHas s.cache.retiring (stopIdx st) = false
  let fresh := fun (s : State) (op : Nat) (x : Agent) => free s ∧ domState s st 2 = dON ∧ (sl s).waits.contains (op, x, line) = false ∧ evbWaits (sl s) op x line = false
  let come := fun (s : State) (op : Nat) (x : Agent) => countScope (agentSend s x st).1 st (op - 1) 1 (cw s x)
  let got := fun (s : State) (op : Nat) (x : Agent) => slotFree (come s op x) st (op, x, line)
  let sent := fun (s : State) (op : Nat) (x : Agent) => fresh s op x ∧ slotOcc s st < 128 ∧ (agentSend s x st).2 = true
  let ready := fun (s : State) (op : Nat) (x : Agent) => sent s op x ∧ linePinned s x line = false ∧ lentReady s line (decide (op = 2 ∨ op = 3 ∨ op = 5)) (agentPkg x) = true
  let home := fun (s : State) (op : Nat) (x : Agent) => ready s op x ∧ evbOf (got s op x) = none
  let gw := fun (s : State) (op : Nat) (x : Agent) => agentWorld (got s op x) x
  let read := fun (s : State) (x : Agent) => homeRead (got s 1 x) st (gw s 1 x) x line nt demand
  let own := fun (s : State) => invOthers (homeRead (packFree (got s 2 a) st line) st (gw s 2 a) a line nt true) st (gw s 2 a) line (some a)
  let upg := fun (s : State) => invOthers (packFree (got s 3 a) st line) st (gw s 3 a) line (some a)
  let onc := fun (s : State) => invOthers (packFree (countScope (got s 5 a) st 0x0F 1 (some (gw s 5 a))) st line) st (gw s 5 a) line none
  let held := fun (s : State) => (l2Holders s line).filter fun e => decide (e.1 ≠ n.val)
  let others := fun (s : State) => match sfFind (sliceGet s st) line with | some (_, e) => decide (e.pkgs ≠ 0 ∨ e.courier ≠ 0) | none => false
  let keepO := fun (s : State) => countScope (sfOwner (l2Move (read s a) m.val line l2O) st line (some (m.val, l2O))) st 0x1A 1 (some (gw s 1 a))
  let evb := fun (s : State) (i : Bool) => ⟨line, i, []⟩ ∈ (sl s).evb ∧ evbOf s = some ⟨line, i, []⟩
  let blk := 3 + c.val
  let ce := fun (s : State) (k cnt src : Nat) => reportErr (rsat (rsat s st k cnt 0 16 1) st k cnt 16 16 1) st src tyCE (some addr)
  let ue := fun (s : State) (src : Nat) => reportErr (markPoison s addr) st src (tyUE + tyPOISON) (some addr)
  let bad := fun (s : State) (k : Nat) => { s with cache := { s.cache with disab := setAdd s.cache.disab (disKey st k) } }
  let gone := fun (s : State) (k : Nat) => { wayEmpty s st k with cache := { (wayEmpty s st k).cache with disab := setDel (wayEmpty s st k).cache.disab (disKey st k) } }
  let drop := fun (s : State) => { s with link := { s.link with held := s.link.held.filter fun l => l.1 ≠ line } }
  let outward := fun (s : State) => paTarget s (64 * line) = .remoteMem p.val ∧ homeOf s (64 * line) = none
  let last := fun (s : State) (v : Nat) => (l2Holders (l2Lose s n.val line way) line).isEmpty = true ∧ (l2Lose s n.val line way).link.held.find? (fun e => decide (e.1 = line ∧ e.2 ≤ 3)) = some (line, v)
  let again := fun (s : State) => { s with cache := { s.cache with retries := s.cache.retries.erase (1, a, line) } }
  let s0 : State := liveSt [⟨0, 1, 0⟩, orStop 0, wsStop 0]
  decide ((fun (s : State) => fresh s 1 a ∧ 128 ≤ slotOcc s st) ((fun (s : State) => (fun (s : State) => sliceMod s st fun sl => { sl with fills := List.replicate 128 (1, false, 0) }) (memSt (rsetB (rsetB s st 3 BLOCK_CTL 0 true) st 4 BLOCK_CTL 0 true))) s0)) &&
  decide ((fun (s : State) => sent s 1 a ∧ linePinned s a line = true) ((fun (s : State) => (fun (s : State) => { s with lock := { s.lock with pins := [(900, 0)] } }) (memSt (rsetB (rsetB s st 3 BLOCK_CTL 0 true) st 4 BLOCK_CTL 0 true))) s0)) &&
  decide ((fun (s : State) => sent s 1 a ∧ linePinned s a line = false ∧ lentReady s line false none = false) ((fun (s : State) => (fun (s : State) => { s with link := { s.link with lent := [(0, 1, 1)] } }) (memSt (rsetB (rsetB s st 3 BLOCK_CTL 0 true) st 4 BLOCK_CTL 0 true))) s0)) &&
  decide ((fun (s : State) => ready s 1 a ∧ evb (got s 1 a) true) ((fun (s : State) => (fun (s : State) => sliceMod s st fun sl => { sl with evb := [⟨0, true, []⟩] }) (memSt (rsetB (rsetB s st 3 BLOCK_CTL 0 true) st 4 BLOCK_CTL 0 true))) s0)) &&
  decide ((fun (s : State) => home s 2 a ∧ l2Enabled (own s) n.val = true) ((fun (s : State) => (fun (s : State) => l2Put s 1 0 3 l2S) (memSt (rsetB (rsetB s st 3 BLOCK_CTL 0 true) st 4 BLOCK_CTL 0 true))) s0))) = true := by decide +kernel

set_option maxRecDepth 10000 in
theorem wit_CacheAndHomeEvents_3 : (
  let st : Stop := ⟨0, 1, 0⟩
  let line : Nat := 0
  let far : Nat := 2^34
  let n : Fin 192 := 0
  let m : Fin 192 := 1
  let p : Fin 4 := 1
  let tag : Nat := 7
  let page : Nat := 4
  let nt := false
  let demand := true
  let c : Fin 2 := 1
  let way : Nat := 2
  let w2 : Fin 16 := 5
  let w1 : Fin 8 := 5
  let w3 : Fin 12 := 5
  let addr : Nat := 0x40
  let data : List Byte := [1,2,3]
  let a : Agent := .core n
  let b : Agent := .pkg p tag
  let cw := fun (s : State) (x : Agent) => some (agentWorld s x)
  let sl := fun (s : State) => sliceGet s st
  let evbOf := fun (s : State) => (sl s).evb.find? (fun e => e.line = line)
  let free := fun (s : State) => homeOf s (64 * line) = some st ∧ setHas s.cache.retiring (stopIdx st) = false
  let fresh := fun (s : State) (op : Nat) (x : Agent) => free s ∧ domState s st 2 = dON ∧ (sl s).waits.contains (op, x, line) = false ∧ evbWaits (sl s) op x line = false
  let come := fun (s : State) (op : Nat) (x : Agent) => countScope (agentSend s x st).1 st (op - 1) 1 (cw s x)
  let got := fun (s : State) (op : Nat) (x : Agent) => slotFree (come s op x) st (op, x, line)
  let sent := fun (s : State) (op : Nat) (x : Agent) => fresh s op x ∧ slotOcc s st < 128 ∧ (agentSend s x st).2 = true
  let ready := fun (s : State) (op : Nat) (x : Agent) => sent s op x ∧ linePinned s x line = false ∧ lentReady s line (decide (op = 2 ∨ op = 3 ∨ op = 5)) (agentPkg x) = true
  let home := fun (s : State) (op : Nat) (x : Agent) => ready s op x ∧ evbOf (got s op x) = none
  let gw := fun (s : State) (op : Nat) (x : Agent) => agentWorld (got s op x) x
  let read := fun (s : State) (x : Agent) => homeRead (got s 1 x) st (gw s 1 x) x line nt demand
  let own := fun (s : State) => invOthers (homeRead (packFree (got s 2 a) st line) st (gw s 2 a) a line nt true) st (gw s 2 a) line (some a)
  let upg := fun (s : State) => invOthers (packFree (got s 3 a) st line) st (gw s 3 a) line (some a)
  let onc := fun (s : State) => invOthers (packFree (countScope (got s 5 a) st 0x0F 1 (some (gw s 5 a))) st line) st (gw s 5 a) line none
  let held := fun (s : State) => (l2Holders s line).filter fun e => decide (e.1 ≠ n.val)
  let others := fun (s : State) => match sfFind (sliceGet s st) line with | some (_, e) => decide (e.pkgs ≠ 0 ∨ e.courier ≠ 0) | none => false
  let keepO := fun (s : State) => countScope (sfOwner (l2Move (read s a) m.val line l2O) st line (some (m.val, l2O))) st 0x1A 1 (some (gw s 1 a))
  let evb := fun (s : State) (i : Bool) => ⟨line, i, []⟩ ∈ (sl s).evb ∧ evbOf s = some ⟨line, i, []⟩
  let blk := 3 + c.val
  let ce := fun (s : State) (k cnt src : Nat) => reportErr (rsat (rsat s st k cnt 0 16 1) st k cnt 16 16 1) st src tyCE (some addr)
  let ue := fun (s : State) (src : Nat) => reportErr (markPoison s addr) st src (tyUE + tyPOISON) (some addr)
  let bad := fun (s : State) (k : Nat) => { s with cache := { s.cache with disab := setAdd s.cache.disab (disKey st k) } }
  let gone := fun (s : State) (k : Nat) => { wayEmpty s st k with cache := { (wayEmpty s st k).cache with disab := setDel (wayEmpty s st k).cache.disab (disKey st k) } }
  let drop := fun (s : State) => { s with link := { s.link with held := s.link.held.filter fun l => l.1 ≠ line } }
  let outward := fun (s : State) => paTarget s (64 * line) = .remoteMem p.val ∧ homeOf s (64 * line) = none
  let last := fun (s : State) (v : Nat) => (l2Holders (l2Lose s n.val line way) line).isEmpty = true ∧ (l2Lose s n.val line way).link.held.find? (fun e => decide (e.1 = line ∧ e.2 ≤ 3)) = some (line, v)
  let again := fun (s : State) => { s with cache := { s.cache with retries := s.cache.retries.erase (1, a, line) } }
  let s0 : State := liveSt [⟨0, 1, 0⟩, orStop 0, wsStop 0]
  decide ((fun (s : State) => home s 3 a ∧ (l2Find s n.val line = some (way, l2S) ∨ l2Find s n.val line = some (way, l2O)) ∧ l2Enabled (upg s) n.val = true) ((fun (s : State) => (fun (s : State) => sfAddCore (sfAddCore (l2Put (l2Put s 1 0 3 l2S) 0 0 2 l2S) st .normal 0 0) st .normal 0 1) (memSt (rsetB (rsetB s st 3 BLOCK_CTL 0 true) st 4 BLOCK_CTL 0 true))) s0)) &&
  decide ((fun (s : State) => l2Find s n.val line = none) ((fun (s : State) => (fun (s : State) => s) (memSt (rsetB (rsetB s st 3 BLOCK_CTL 0 true) st 4 BLOCK_CTL 0 true))) s0)) &&
  decide ((fun (s : State) => home s 4 a) ((fun (s : State) => (fun (s : State) => s) (memSt (rsetB (rsetB s st 3 BLOCK_CTL 0 true) st 4 BLOCK_CTL 0 true))) s0)) &&
  decide ((fun (s : State) => data ≠ [] ∧ data.length ≤ 64 ∧ home s 5 a ∧ (l3Find (sl (onc s)) line).isSome = true) ((fun (s : State) => (fun (s : State) => sliceMod s st fun sl => l3Put sl 0 3 (some ⟨0, false, 2⟩)) (memSt (rsetB (rsetB s st 3 BLOCK_CTL 0 true) st 4 BLOCK_CTL 0 true))) s0)) &&
  decide ((fun (s : State) => data ≠ [] ∧ data.length ≤ 64 ∧ home s 5 a ∧ (l3Find (sl (onc s)) line).isSome = false) ((fun (s : State) => (fun (s : State) => s) (memSt (rsetB (rsetB s st 3 BLOCK_CTL 0 true) st 4 BLOCK_CTL 0 true))) s0))) = true := by decide +kernel

set_option maxRecDepth 10000 in
theorem wit_CacheAndHomeEvents_4 : (
  let st : Stop := ⟨0, 1, 0⟩
  let line : Nat := 0
  let far : Nat := 2^34
  let n : Fin 192 := 0
  let m : Fin 192 := 1
  let p : Fin 4 := 1
  let tag : Nat := 7
  let page : Nat := 4
  let nt := false
  let demand := true
  let c : Fin 2 := 1
  let way : Nat := 2
  let w2 : Fin 16 := 5
  let w1 : Fin 8 := 5
  let w3 : Fin 12 := 5
  let addr : Nat := 0x40
  let data : List Byte := [1,2,3]
  let a : Agent := .core n
  let b : Agent := .pkg p tag
  let cw := fun (s : State) (x : Agent) => some (agentWorld s x)
  let sl := fun (s : State) => sliceGet s st
  let evbOf := fun (s : State) => (sl s).evb.find? (fun e => e.line = line)
  let free := fun (s : State) => homeOf s (64 * line) = some st ∧ setHas s.cache.retiring (stopIdx st) = false
  let fresh := fun (s : State) (op : Nat) (x : Agent) => free s ∧ domState s st 2 = dON ∧ (sl s).waits.contains (op, x, line) = false ∧ evbWaits (sl s) op x line = false
  let come := fun (s : State) (op : Nat) (x : Agent) => countScope (agentSend s x st).1 st (op - 1) 1 (cw s x)
  let got := fun (s : State) (op : Nat) (x : Agent) => slotFree (come s op x) st (op, x, line)
  let sent := fun (s : State) (op : Nat) (x : Agent) => fresh s op x ∧ slotOcc s st < 128 ∧ (agentSend s x st).2 = true
  let ready := fun (s : State) (op : Nat) (x : Agent) => sent s op x ∧ linePinned s x line = false ∧ lentReady s line (decide (op = 2 ∨ op = 3 ∨ op = 5)) (agentPkg x) = true
  let home := fun (s : State) (op : Nat) (x : Agent) => ready s op x ∧ evbOf (got s op x) = none
  let gw := fun (s : State) (op : Nat) (x : Agent) => agentWorld (got s op x) x
  let read := fun (s : State) (x : Agent) => homeRead (got s 1 x) st (gw s 1 x) x line nt demand
  let own := fun (s : State) => invOthers (homeRead (packFree (got s 2 a) st line) st (gw s 2 a) a line nt true) st (gw s 2 a) line (some a)
  let upg := fun (s : State) => invOthers (packFree (got s 3 a) st line) st (gw s 3 a) line (some a)
  let onc := fun (s : State) => invOthers (packFree (countScope (got s 5 a) st 0x0F 1 (some (gw s 5 a))) st line) st (gw s 5 a) line none
  let held := fun (s : State) => (l2Holders s line).filter fun e => decide (e.1 ≠ n.val)
  let others := fun (s : State) => match sfFind (sliceGet s st) line with | some (_, e) => decide (e.pkgs ≠ 0 ∨ e.courier ≠ 0) | none => false
  let keepO := fun (s : State) => countScope (sfOwner (l2Move (read s a) m.val line l2O) st line (some (m.val, l2O))) st 0x1A 1 (some (gw s 1 a))
  let evb := fun (s : State) (i : Bool) => ⟨line, i, []⟩ ∈ (sl s).evb ∧ evbOf s = some ⟨line, i, []⟩
  let blk := 3 + c.val
  let ce := fun (s : State) (k cnt src : Nat) => reportErr (rsat (rsat s st k cnt 0 16 1) st k cnt 16 16 1) st src tyCE (some addr)
  let ue := fun (s : State) (src : Nat) => reportErr (markPoison s addr) st src (tyUE + tyPOISON) (some addr)
  let bad := fun (s : State) (k : Nat) => { s with cache := { s.cache with disab := setAdd s.cache.disab (disKey st k) } }
  let gone := fun (s : State) (k : Nat) => { wayEmpty s st k with cache := { (wayEmpty s st k).cache with disab := setDel (wayEmpty s st k).cache.disab (disKey st k) } }
  let drop := fun (s : State) => { s with link := { s.link with held := s.link.held.filter fun l => l.1 ≠ line } }
  let outward := fun (s : State) => paTarget s (64 * line) = .remoteMem p.val ∧ homeOf s (64 * line) = none
  let last := fun (s : State) (v : Nat) => (l2Holders (l2Lose s n.val line way) line).isEmpty = true ∧ (l2Lose s n.val line way).link.held.find? (fun e => decide (e.1 = line ∧ e.2 ≤ 3)) = some (line, v)
  let again := fun (s : State) => { s with cache := { s.cache with retries := s.cache.retries.erase (1, a, line) } }
  let s0 : State := liveSt [⟨0, 1, 0⟩, orStop 0, wsStop 0]
  decide ((fun (s : State) => homeOf s (64 * line) = some st ∧ (l2Find s n.val line = some (way, l2O) ∨ l2Find s n.val line = some (way, l2M))) ((fun (s : State) => (fun (s : State) => l2Put s 0 0 2 l2M) (memSt (rsetB (rsetB s st 3 BLOCK_CTL 0 true) st 4 BLOCK_CTL 0 true))) s0)) &&
  decide ((fun (s : State) => l2Find s n.val line = some (way, l2S) ∨ l2Find s n.val line = some (way, l2E)) ((fun (s : State) => (fun (s : State) => l2Put s 0 0 2 l2E) (memSt (rsetB (rsetB s st 3 BLOCK_CTL 0 true) st 4 BLOCK_CTL 0 true))) s0)) &&
  decide ((fun (s : State) => homeOf s (64 * line) = some st) ((fun (s : State) => (fun (s : State) => lend s 0 1 (some 2)) (memSt (rsetB (rsetB s st 3 BLOCK_CTL 0 true) st 4 BLOCK_CTL 0 true))) s0)) &&
  decide ((fun (s : State) => homeOf s (64 * line) = some st ∧ (l2Find s n.val line = some (way, l2S) ∨ l2Find s n.val line = some (way, l2E)) ∧ rbit (countScope s st 6 1 (cw s a)) st 5 L3_CTL 2 = false) ((fun (s : State) => (fun (s : State) => rsetB (l2Put s 0 0 2 l2E) st 5 L3_CTL 2 false) (memSt (rsetB (rsetB s st 3 BLOCK_CTL 0 true) st 4 BLOCK_CTL 0 true))) s0)) &&
  decide ((fun (s : State) => homeOf s (64 * line) = some st) ((fun (s : State) => (fun (s : State) => lend s 0 1 (some 1)) (memSt (rsetB (rsetB s st 3 BLOCK_CTL 0 true) st 4 BLOCK_CTL 0 true))) s0))) = true := by decide +kernel

set_option maxRecDepth 10000 in
theorem wit_CacheAndHomeEvents_5 : (
  let st : Stop := ⟨0, 1, 0⟩
  let line : Nat := 0
  let far : Nat := 2^34
  let n : Fin 192 := 0
  let m : Fin 192 := 1
  let p : Fin 4 := 1
  let tag : Nat := 7
  let page : Nat := 4
  let nt := false
  let demand := true
  let c : Fin 2 := 1
  let way : Nat := 2
  let w2 : Fin 16 := 5
  let w1 : Fin 8 := 5
  let w3 : Fin 12 := 5
  let addr : Nat := 0x40
  let data : List Byte := [1,2,3]
  let a : Agent := .core n
  let b : Agent := .pkg p tag
  let cw := fun (s : State) (x : Agent) => some (agentWorld s x)
  let sl := fun (s : State) => sliceGet s st
  let evbOf := fun (s : State) => (sl s).evb.find? (fun e => e.line = line)
  let free := fun (s : State) => homeOf s (64 * line) = some st ∧ setHas s.cache.retiring (stopIdx st) = false
  let fresh := fun (s : State) (op : Nat) (x : Agent) => free s ∧ domState s st 2 = dON ∧ (sl s).waits.contains (op, x, line) = false ∧ evbWaits (sl s) op x line = false
  let come := fun (s : State) (op : Nat) (x : Agent) => countScope (agentSend s x st).1 st (op - 1) 1 (cw s x)
  let got := fun (s : State) (op : Nat) (x : Agent) => slotFree (come s op x) st (op, x, line)
  let sent := fun (s : State) (op : Nat) (x : Agent) => fresh s op x ∧ slotOcc s st < 128 ∧ (agentSend s x st).2 = true
  let ready := fun (s : State) (op : Nat) (x : Agent) => sent s op x ∧ linePinned s x line = false ∧ lentReady s line (decide (op = 2 ∨ op = 3 ∨ op = 5)) (agentPkg x) = true
  let home := fun (s : State) (op : Nat) (x : Agent) => ready s op x ∧ evbOf (got s op x) = none
  let gw := fun (s : State) (op : Nat) (x : Agent) => agentWorld (got s op x) x
  let read := fun (s : State) (x : Agent) => homeRead (got s 1 x) st (gw s 1 x) x line nt demand
  let own := fun (s : State) => invOthers (homeRead (packFree (got s 2 a) st line) st (gw s 2 a) a line nt true) st (gw s 2 a) line (some a)
  let upg := fun (s : State) => invOthers (packFree (got s 3 a) st line) st (gw s 3 a) line (some a)
  let onc := fun (s : State) => invOthers (packFree (countScope (got s 5 a) st 0x0F 1 (some (gw s 5 a))) st line) st (gw s 5 a) line none
  let held := fun (s : State) => (l2Holders s line).filter fun e => decide (e.1 ≠ n.val)
  let others := fun (s : State) => match sfFind (sliceGet s st) line with | some (_, e) => decide (e.pkgs ≠ 0 ∨ e.courier ≠ 0) | none => false
  let keepO := fun (s : State) => countScope (sfOwner (l2Move (read s a) m.val line l2O) st line (some (m.val, l2O))) st 0x1A 1 (some (gw s 1 a))
  let evb := fun (s : State) (i : Bool) => ⟨line, i, []⟩ ∈ (sl s).evb ∧ evbOf s = some ⟨line, i, []⟩
  let blk := 3 + c.val
  let ce := fun (s : State) (k cnt src : Nat) => reportErr (rsat (rsat s st k cnt 0 16 1) st k cnt 16 16 1) st src tyCE (some addr)
  let ue := fun (s : State) (src : Nat) => reportErr (markPoison s addr) st src (tyUE + tyPOISON) (some addr)
  let bad := fun (s : State) (k : Nat) => { s with cache := { s.cache with disab := setAdd s.cache.disab (disKey st k) } }
  let gone := fun (s : State) (k : Nat) => { wayEmpty s st k with cache := { (wayEmpty s st k).cache with disab := setDel (wayEmpty s st k).cache.disab (disKey st k) } }
  let drop := fun (s : State) => { s with link := { s.link with held := s.link.held.filter fun l => l.1 ≠ line } }
  let outward := fun (s : State) => paTarget s (64 * line) = .remoteMem p.val ∧ homeOf s (64 * line) = none
  let last := fun (s : State) (v : Nat) => (l2Holders (l2Lose s n.val line way) line).isEmpty = true ∧ (l2Lose s n.val line way).link.held.find? (fun e => decide (e.1 = line ∧ e.2 ≤ 3)) = some (line, v)
  let again := fun (s : State) => { s with cache := { s.cache with retries := s.cache.retries.erase (1, a, line) } }
  let s0 : State := liveSt [⟨0, 1, 0⟩, orStop 0, wsStop 0]
  decide ((fun (s : State) => evb s true ∧ mcWaits (mcAccept s line) line = false ∧ (sl (mcAccept s line)).fills = []) ((fun (s : State) => (fun (s : State) => sliceMod s st fun sl => { sl with evb := [⟨0, true, []⟩] }) (memSt (rsetB (rsetB s st 3 BLOCK_CTL 0 true) st 4 BLOCK_CTL 0 true))) s0)) &&
  decide ((fun (s : State) => evb s false) ((fun (s : State) => (fun (s : State) => sliceMod s st fun sl => { sl with evb := [⟨0, false, []⟩] }) (memSt (rsetB (rsetB s st 3 BLOCK_CTL 0 true) st 4 BLOCK_CTL 0 true))) s0)) &&
  decide ((fun (s : State) => line ∈ (sl s).pref ∧ poisoned s (64 * line) 64 = false ∧ (sl s).pack.length < 16) ((fun (s : State) => (fun (s : State) => sliceMod s st fun sl => { sl with pref := [0] }) (memSt (rsetB (rsetB s st 3 BLOCK_CTL 0 true) st 4 BLOCK_CTL 0 true))) s0)) &&
  decide ((fun (s : State) => line ∈ (sl s).pref ∧ poisoned s (64 * line) 64 = true) ((fun (s : State) => (fun (s : State) => sliceMod (markPoison s 8) st fun sl => { sl with pref := [0] }) (memSt (rsetB (rsetB s st 3 BLOCK_CTL 0 true) st 4 BLOCK_CTL 0 true))) s0)) &&
  decide ((fun (s : State) => (line, page) ∈ (sl s).pack) ((fun (s : State) => (fun (s : State) => sliceMod s st fun sl => { sl with pack := [(0, 4)] }) (memSt (rsetB (rsetB s st 3 BLOCK_CTL 0 true) st 4 BLOCK_CTL 0 true))) s0))) = true := by decide +kernel

set_option maxRecDepth 10000 in
theorem wit_CacheAndHomeEvents_6 : (
  let st : Stop := ⟨0, 1, 0⟩
  let line : Nat := 0
  let far : Nat := 2^34
  let n : Fin 192 := 0
  let m : Fin 192 := 1
  let p : Fin 4 := 1
  let tag : Nat := 7
  let page : Nat := 4
  let nt := false
  let demand := true
  let c : Fin 2 := 1
  let way : Nat := 2
  let w2 : Fin 16 := 5
  let w1 : Fin 8 := 5
  let w3 : Fin 12 := 5
  let addr : Nat := 0x40
  let data : List Byte := [1,2,3]
  let a : Agent := .core n
  let b : Agent := .pkg p tag
  let cw := fun (s : State) (x : Agent) => some (agentWorld s x)
  let sl := fun (s : State) => sliceGet s st
  let evbOf := fun (s : State) => (sl s).evb.find? (fun e => e.line = line)
  let free := fun (s : State) => homeOf s (64 * line) = some st ∧ setHas s.cache.retiring (stopIdx st) = false
  let fresh := fun (s : State) (op : Nat) (x : Agent) => free s ∧ domState s st 2 = dON ∧ (sl s).waits.contains (op, x, line) = false ∧ evbWaits (sl s) op x line = false
  let come := fun (s : State) (op : Nat) (x : Agent) => countScope (agentSend s x st).1 st (op - 1) 1 (cw s x)
  let got := fun (s : State) (op : Nat) (x : Agent) => slotFree (come s op x) st (op, x, line)
  let sent := fun (s : State) (op : Nat) (x : Agent) => fresh s op x ∧ slotOcc s st < 128 ∧ (agentSend s x st).2 = true
  let ready := fun (s : State) (op : Nat) (x : Agent) => sent s op x ∧ linePinned s x line = false ∧ lentReady s line (decide (op = 2 ∨ op = 3 ∨ op = 5)) (agentPkg x) = true
  let home := fun (s : State) (op : Nat) (x : Agent) => ready s op x ∧ evbOf (got s op x) = none
  let gw := fun (s : State) (op : Nat) (x : Agent) => agentWorld (got s op x) x
  let read := fun (s : State) (x : Agent) => homeRead (got s 1 x) st (gw s 1 x) x line nt demand
  let own := fun (s : State) => invOthers (homeRead (packFree (got s 2 a) st line) st (gw s 2 a) a line nt true) st (gw s 2 a) line (some a)
  let upg := fun (s : State) => invOthers (packFree (got s 3 a) st line) st (gw s 3 a) line (some a)
  let onc := fun (s : State) => invOthers (packFree (countScope (got s 5 a) st 0x0F 1 (some (gw s 5 a))) st line) st (gw s 5 a) line none
  let held := fun (s : State) => (l2Holders s line).filter fun e => decide (e.1 ≠ n.val)
  let others := fun (s : State) => match sfFind (sliceGet s st) line with | some (_, e) => decide (e.pkgs ≠ 0 ∨ e.courier ≠ 0) | none => false
  let keepO := fun (s : State) => countScope (sfOwner (l2Move (read s a) m.val line l2O) st line (some (m.val, l2O))) st 0x1A 1 (some (gw s 1 a))
  let evb := fun (s : State) (i : Bool) => ⟨line, i, []⟩ ∈ (sl s).evb ∧ evbOf s = some ⟨line, i, []⟩
  let blk := 3 + c.val
  let ce := fun (s : State) (k cnt src : Nat) => reportErr (rsat (rsat s st k cnt 0 16 1) st k cnt 16 16 1) st src tyCE (some addr)
  let ue := fun (s : State) (src : Nat) => reportErr (markPoison s addr) st src (tyUE + tyPOISON) (some addr)
  let bad := fun (s : State) (k : Nat) => { s with cache := { s.cache with disab := setAdd s.cache.disab (disKey st k) } }
  let gone := fun (s : State) (k : Nat) => { wayEmpty s st k with cache := { (wayEmpty s st k).cache with disab := setDel (wayEmpty s st k).cache.disab (disKey st k) } }
  let drop := fun (s : State) => { s with link := { s.link with held := s.link.held.filter fun l => l.1 ≠ line } }
  let outward := fun (s : State) => paTarget s (64 * line) = .remoteMem p.val ∧ homeOf s (64 * line) = none
  let last := fun (s : State) (v : Nat) => (l2Holders (l2Lose s n.val line way) line).isEmpty = true ∧ (l2Lose s n.val line way).link.held.find? (fun e => decide (e.1 = line ∧ e.2 ≤ 3)) = some (line, v)
  let again := fun (s : State) => { s with cache := { s.cache with retries := s.cache.retries.erase (1, a, line) } }
  let s0 : State := liveSt [⟨0, 1, 0⟩, orStop 0, wsStop 0]
  decide ((fun (s : State) => True) ((fun (s : State) => (fun (s : State) => sliceMod s st fun sl => { sl with streams := [⟨4, 1, true, 1⟩] }) (memSt (rsetB (rsetB s st 3 BLOCK_CTL 0 true) st 4 BLOCK_CTL 0 true))) s0)) &&
  decide ((fun (s : State) => True) ((fun (s : State) => (fun (s : State) => s) (memSt (rsetB (rsetB s st 3 BLOCK_CTL 0 true) st 4 BLOCK_CTL 0 true))) s0)) &&
  decide ((fun (s : State) => True) ((fun (s : State) => (fun (s : State) => s) (memSt (rsetB (rsetB s st 3 BLOCK_CTL 0 true) st 4 BLOCK_CTL 0 true))) s0)) &&
  decide ((fun (s : State) => True) ((fun (s : State) => (fun (s : State) => s) (memSt (rsetB (rsetB s st 3 BLOCK_CTL 0 true) st 4 BLOCK_CTL 0 true))) s0)) &&
  decide ((fun (s : State) => (let t := ce s blk (L2_WAY_CECNT + 4 * w2.val) (0x2001 + 0x100 * c.val); rfld t st blk (L2_WAY_CECNT + 4 * w2.val) 0 16 ≤ rfld t st blk L2_ERR_THRESH 0 8)) ((fun (s : State) => (fun (s : State) => rputF s st blk L2_ERR_THRESH 0 8 9) (memSt (rsetB (rsetB s st 3 BLOCK_CTL 0 true) st 4 BLOCK_CTL 0 true))) s0))) = true := by decide +kernel

set_option maxRecDepth 10000 in
theorem wit_CacheAndHomeEvents_7 : (
  let st : Stop := ⟨0, 1, 0⟩
  let line : Nat := 0
  let far : Nat := 2^34
  let n : Fin 192 := 0
  let m : Fin 192 := 1
  let p : Fin 4 := 1
  let tag : Nat := 7
  let page : Nat := 4
  let nt := false
  let demand := true
  let c : Fin 2 := 1
  let way : Nat := 2
  let w2 : Fin 16 := 5
  let w1 : Fin 8 := 5
  let w3 : Fin 12 := 5
  let addr : Nat := 0x40
  let data : List Byte := [1,2,3]
  let a : Agent := .core n
  let b : Agent := .pkg p tag
  let cw := fun (s : State) (x : Agent) => some (agentWorld s x)
  let sl := fun (s : State) => sliceGet s st
  let evbOf := fun (s : State) => (sl s).evb.find? (fun e => e.line = line)
  let free := fun (s : State) => homeOf s (64 * line) = some st ∧ setHas s.cache.retiring (stopIdx st) = false
  let fresh := fun (s : State) (op : Nat) (x : Agent) => free s ∧ domState s st 2 = dON ∧ (sl s).waits.contains (op, x, line) = false ∧ evbWaits (sl s) op x line = false
  let come := fun (s : State) (op : Nat) (x : Agent) => countScope (agentSend s x st).1 st (op - 1) 1 (cw s x)
  let got := fun (s : State) (op : Nat) (x : Agent) => slotFree (come s op x) st (op, x, line)
  let sent := fun (s : State) (op : Nat) (x : Agent) => fresh s op x ∧ slotOcc s st < 128 ∧ (agentSend s x st).2 = true
  let ready := fun (s : State) (op : Nat) (x : Agent) => sent s op x ∧ linePinned s x line = false ∧ lentReady s line (decide (op = 2 ∨ op = 3 ∨ op = 5)) (agentPkg x) = true
  let home := fun (s : State) (op : Nat) (x : Agent) => ready s op x ∧ evbOf (got s op x) = none
  let gw := fun (s : State) (op : Nat) (x : Agent) => agentWorld (got s op x) x
  let read := fun (s : State) (x : Agent) => homeRead (got s 1 x) st (gw s 1 x) x line nt demand
  let own := fun (s : State) => invOthers (homeRead (packFree (got s 2 a) st line) st (gw s 2 a) a line nt true) st (gw s 2 a) line (some a)
  let upg := fun (s : State) => invOthers (packFree (got s 3 a) st line) st (gw s 3 a) line (some a)
  let onc := fun (s : State) => invOthers (packFree (countScope (got s 5 a) st 0x0F 1 (some (gw s 5 a))) st line) st (gw s 5 a) line none
  let held := fun (s : State) => (l2Holders s line).filter fun e => decide (e.1 ≠ n.val)
  let others := fun (s : State) => match sfFind (sliceGet s st) line with | some (_, e) => decide (e.pkgs ≠ 0 ∨ e.courier ≠ 0) | none => false
  let keepO := fun (s : State) => countScope (sfOwner (l2Move (read s a) m.val line l2O) st line (some (m.val, l2O))) st 0x1A 1 (some (gw s 1 a))
  let evb := fun (s : State) (i : Bool) => ⟨line, i, []⟩ ∈ (sl s).evb ∧ evbOf s = some ⟨line, i, []⟩
  let blk := 3 + c.val
  let ce := fun (s : State) (k cnt src : Nat) => reportErr (rsat (rsat s st k cnt 0 16 1) st k cnt 16 16 1) st src tyCE (some addr)
  let ue := fun (s : State) (src : Nat) => reportErr (markPoison s addr) st src (tyUE + tyPOISON) (some addr)
  let bad := fun (s : State) (k : Nat) => { s with cache := { s.cache with disab := setAdd s.cache.disab (disKey st k) } }
  let gone := fun (s : State) (k : Nat) => { wayEmpty s st k with cache := { (wayEmpty s st k).cache with disab := setDel (wayEmpty s st k).cache.disab (disKey st k) } }
  let drop := fun (s : State) => { s with link := { s.link with held := s.link.held.filter fun l => l.1 ≠ line } }
  let outward := fun (s : State) => paTarget s (64 * line) = .remoteMem p.val ∧ homeOf s (64 * line) = none
  let last := fun (s : State) (v : Nat) => (l2Holders (l2Lose s n.val line way) line).isEmpty = true ∧ (l2Lose s n.val line way).link.held.find? (fun e => decide (e.1 = line ∧ e.2 ≤ 3)) = some (line, v)
  let again := fun (s : State) => { s with cache := { s.cache with retries := s.cache.retries.erase (1, a, line) } }
  let s0 : State := liveSt [⟨0, 1, 0⟩, orStop 0, wsStop 0]
  decide ((fun (s : State) => (let t := ce s blk (L2_WAY_CECNT + 4 * w2.val) (0x2001 + 0x100 * c.val); rfld t st blk L2_ERR_THRESH 0 8 < rfld t st blk (L2_WAY_CECNT + 4 * w2.val) 0 16)) ((fun (s : State) => (fun (s : State) => rputF s st blk L2_ERR_THRESH 0 8 0) (memSt (rsetB (rsetB s st 3 BLOCK_CTL 0 true) st 4 BLOCK_CTL 0 true))) s0)) &&
  decide ((fun (s : State) => depotMask s st = 0) ((fun (s : State) => (fun (s : State) => s) (memSt (rsetB (rsetB s st 3 BLOCK_CTL 0 true) st 4 BLOCK_CTL 0 true))) s0)) &&
  decide ((fun (s : State) => bit (depotMask s st) w3.val = true) ((fun (s : State) => (fun (s : State) => { s with pkg := { s.pkg with depot := [(stopIdx st, 32)] } }) (memSt (rsetB (rsetB s st 3 BLOCK_CTL 0 true) st 4 BLOCK_CTL 0 true))) s0)) &&
  decide ((fun (s : State) => setHas s.cache.disab (disKey st (16 * c.val + w2.val)) = true) ((fun (s : State) => (fun (s : State) => bad (l2Put s 0 0 5 l2M) 21) (memSt (rsetB (rsetB s st 3 BLOCK_CTL 0 true) st 4 BLOCK_CTL 0 true))) s0)) &&
  decide ((fun (s : State) => setHas s.cache.disab (disKey st (48 + w3.val)) = true) ((fun (s : State) => (fun (s : State) => bad s 53) (memSt (rsetB (rsetB s st 3 BLOCK_CTL 0 true) st 4 BLOCK_CTL 0 true))) s0))) = true := by decide +kernel

set_option maxRecDepth 10000 in
theorem wit_CacheAndHomeEvents_8 : (
  let st : Stop := ⟨0, 1, 0⟩
  let line : Nat := 0
  let far : Nat := 2^34
  let n : Fin 192 := 0
  let m : Fin 192 := 1
  let p : Fin 4 := 1
  let tag : Nat := 7
  let page : Nat := 4
  let nt := false
  let demand := true
  let c : Fin 2 := 1
  let way : Nat := 2
  let w2 : Fin 16 := 5
  let w1 : Fin 8 := 5
  let w3 : Fin 12 := 5
  let addr : Nat := 0x40
  let data : List Byte := [1,2,3]
  let a : Agent := .core n
  let b : Agent := .pkg p tag
  let cw := fun (s : State) (x : Agent) => some (agentWorld s x)
  let sl := fun (s : State) => sliceGet s st
  let evbOf := fun (s : State) => (sl s).evb.find? (fun e => e.line = line)
  let free := fun (s : State) => homeOf s (64 * line) = some st ∧ setHas s.cache.retiring (stopIdx st) = false
  let fresh := fun (s : State) (op : Nat) (x : Agent) => free s ∧ domState s st 2 = dON ∧ (sl s).waits.contains (op, x, line) = false ∧ evbWaits (sl s) op x line = false
  let come := fun (s : State) (op : Nat) (x : Agent) => countScope (agentSend s x st).1 st (op - 1) 1 (cw s x)
  let got := fun (s : State) (op : Nat) (x : Agent) => slotFree (come s op x) st (op, x, line)
  let sent := fun (s : State) (op : Nat) (x : Agent) => fresh s op x ∧ slotOcc s st < 128 ∧ (agentSend s x st).2 = true
  let ready := fun (s : State) (op : Nat) (x : Agent) => sent s op x ∧ linePinned s x line = false ∧ lentReady s line (decide (op = 2 ∨ op = 3 ∨ op = 5)) (agentPkg x) = true
  let home := fun (s : State) (op : Nat) (x : Agent) => ready s op x ∧ evbOf (got s op x) = none
  let gw := fun (s : State) (op : Nat) (x : Agent) => agentWorld (got s op x) x
  let read := fun (s : State) (x : Agent) => homeRead (got s 1 x) st (gw s 1 x) x line nt demand
  let own := fun (s : State) => invOthers (homeRead (packFree (got s 2 a) st line) st (gw s 2 a) a line nt true) st (gw s 2 a) line (some a)
  let upg := fun (s : State) => invOthers (packFree (got s 3 a) st line) st (gw s 3 a) line (some a)
  let onc := fun (s : State) => invOthers (packFree (countScope (got s 5 a) st 0x0F 1 (some (gw s 5 a))) st line) st (gw s 5 a) line none
  let held := fun (s : State) => (l2Holders s line).filter fun e => decide (e.1 ≠ n.val)
  let others := fun (s : State) => match sfFind (sliceGet s st) line with | some (_, e) => decide (e.pkgs ≠ 0 ∨ e.courier ≠ 0) | none => false
  let keepO := fun (s : State) => countScope (sfOwner (l2Move (read s a) m.val line l2O) st line (some (m.val, l2O))) st 0x1A 1 (some (gw s 1 a))
  let evb := fun (s : State) (i : Bool) => ⟨line, i, []⟩ ∈ (sl s).evb ∧ evbOf s = some ⟨line, i, []⟩
  let blk := 3 + c.val
  let ce := fun (s : State) (k cnt src : Nat) => reportErr (rsat (rsat s st k cnt 0 16 1) st k cnt 16 16 1) st src tyCE (some addr)
  let ue := fun (s : State) (src : Nat) => reportErr (markPoison s addr) st src (tyUE + tyPOISON) (some addr)
  let bad := fun (s : State) (k : Nat) => { s with cache := { s.cache with disab := setAdd s.cache.disab (disKey st k) } }
  let gone := fun (s : State) (k : Nat) => { wayEmpty s st k with cache := { (wayEmpty s st k).cache with disab := setDel (wayEmpty s st k).cache.disab (disKey st k) } }
  let drop := fun (s : State) => { s with link := { s.link with held := s.link.held.filter fun l => l.1 ≠ line } }
  let outward := fun (s : State) => paTarget s (64 * line) = .remoteMem p.val ∧ homeOf s (64 * line) = none
  let last := fun (s : State) (v : Nat) => (l2Holders (l2Lose s n.val line way) line).isEmpty = true ∧ (l2Lose s n.val line way).link.held.find? (fun e => decide (e.1 = line ∧ e.2 ≤ 3)) = some (line, v)
  let again := fun (s : State) => { s with cache := { s.cache with retries := s.cache.retries.erase (1, a, line) } }
  let s0 : State := liveSt [⟨0, 1, 0⟩, orStop 0, wsStop 0]
  decide ((fun (s : State) => stopKind st = .tile ∧ rbit s st blk L2_STAT 0 = true) ((fun (s : State) => (fun (s : State) => rsetB (l2Put s 1 0 5 l2M) st blk L2_STAT 0 true) (memSt (rsetB (rsetB s st 3 BLOCK_CTL 0 true) st 4 BLOCK_CTL 0 true))) s0)) &&
  decide ((fun (s : State) => stopKind st = .tile ∧ rbit s st 5 L3_STAT 0 = true ∧ setHas (l3Empty s st).cache.retiring (stopIdx st) = false) ((fun (s : State) => (fun (s : State) => rsetB s st 5 L3_STAT 0 true) (memSt (rsetB (rsetB s st 3 BLOCK_CTL 0 true) st 4 BLOCK_CTL 0 true))) s0)) &&
  decide ((fun (s : State) => rbit s st 5 L3_STAT 1 = true) ((fun (s : State) => (fun (s : State) => rput (rsetB s st 5 L3_STAT 1 true) st 5 L3_DEPOT 48) (memSt (rsetB (rsetB s st 3 BLOCK_CTL 0 true) st 4 BLOCK_CTL 0 true))) s0)) &&
  decide ((fun (s : State) => stopKind st = .tile) ((fun (s : State) => (fun (s : State) => rput s st 5 L3_WAY_CECNT 0x30003) (memSt (rsetB (rsetB s st 3 BLOCK_CTL 0 true) st 4 BLOCK_CTL 0 true))) s0)) &&
  decide ((fun (s : State) => homeOf s (64 * line) = some st ∧ setHas s.cache.retiring (stopIdx st) = true) ((fun (s : State) => (fun (s : State) => { s with cache := { s.cache with retiring := setAdd [] (stopIdx st) } }) (memSt (rsetB (rsetB s st 3 BLOCK_CTL 0 true) st 4 BLOCK_CTL 0 true))) s0))) = true := by decide +kernel

set_option maxRecDepth 10000 in
theorem wit_CacheAndHomeEvents_9 : (
  let st : Stop := ⟨0, 1, 0⟩
  let line : Nat := 0
  let far : Nat := 2^34
  let n : Fin 192 := 0
  let m : Fin 192 := 1
  let p : Fin 4 := 1
  let tag : Nat := 7
  let page : Nat := 4
  let nt := false
  let demand := true
  let c : Fin 2 := 1
  let way : Nat := 2
  let w2 : Fin 16 := 5
  let w1 : Fin 8 := 5
  let w3 : Fin 12 := 5
  let addr : Nat := 0x40
  let data : List Byte := [1,2,3]
  let a : Agent := .core n
  let b : Agent := .pkg p tag
  let cw := fun (s : State) (x : Agent) => some (agentWorld s x)
  let sl := fun (s : State) => sliceGet s st
  let evbOf := fun (s : State) => (sl s).evb.find? (fun e => e.line = line)
  let free := fun (s : State) => homeOf s (64 * line) = some st ∧ setHas s.cache.retiring (stopIdx st) = false
  let fresh := fun (s : State) (op : Nat) (x : Agent) => free s ∧ domState s st 2 = dON ∧ (sl s).waits.contains (op, x, line) = false ∧ evbWaits (sl s) op x line = false
  let come := fun (s : State) (op : Nat) (x : Agent) => countScope (agentSend s x st).1 st (op - 1) 1 (cw s x)
  let got := fun (s : State) (op : Nat) (x : Agent) => slotFree (come s op x) st (op, x, line)
  let sent := fun (s : State) (op : Nat) (x : Agent) => fresh s op x ∧ slotOcc s st < 128 ∧ (agentSend s x st).2 = true
  let ready := fun (s : State) (op : Nat) (x : Agent) => sent s op x ∧ linePinned s x line = false ∧ lentReady s line (decide (op = 2 ∨ op = 3 ∨ op = 5)) (agentPkg x) = true
  let home := fun (s : State) (op : Nat) (x : Agent) => ready s op x ∧ evbOf (got s op x) = none
  let gw := fun (s : State) (op : Nat) (x : Agent) => agentWorld (got s op x) x
  let read := fun (s : State) (x : Agent) => homeRead (got s 1 x) st (gw s 1 x) x line nt demand
  let own := fun (s : State) => invOthers (homeRead (packFree (got s 2 a) st line) st (gw s 2 a) a line nt true) st (gw s 2 a) line (some a)
  let upg := fun (s : State) => invOthers (packFree (got s 3 a) st line) st (gw s 3 a) line (some a)
  let onc := fun (s : State) => invOthers (packFree (countScope (got s 5 a) st 0x0F 1 (some (gw s 5 a))) st line) st (gw s 5 a) line none
  let held := fun (s : State) => (l2Holders s line).filter fun e => decide (e.1 ≠ n.val)
  let others := fun (s : State) => match sfFind (sliceGet s st) line with | some (_, e) => decide (e.pkgs ≠ 0 ∨ e.courier ≠ 0) | none => false
  let keepO := fun (s : State) => countScope (sfOwner (l2Move (read s a) m.val line l2O) st line (some (m.val, l2O))) st 0x1A 1 (some (gw s 1 a))
  let evb := fun (s : State) (i : Bool) => ⟨line, i, []⟩ ∈ (sl s).evb ∧ evbOf s = some ⟨line, i, []⟩
  let blk := 3 + c.val
  let ce := fun (s : State) (k cnt src : Nat) => reportErr (rsat (rsat s st k cnt 0 16 1) st k cnt 16 16 1) st src tyCE (some addr)
  let ue := fun (s : State) (src : Nat) => reportErr (markPoison s addr) st src (tyUE + tyPOISON) (some addr)
  let bad := fun (s : State) (k : Nat) => { s with cache := { s.cache with disab := setAdd s.cache.disab (disKey st k) } }
  let gone := fun (s : State) (k : Nat) => { wayEmpty s st k with cache := { (wayEmpty s st k).cache with disab := setDel (wayEmpty s st k).cache.disab (disKey st k) } }
  let drop := fun (s : State) => { s with link := { s.link with held := s.link.held.filter fun l => l.1 ≠ line } }
  let outward := fun (s : State) => paTarget s (64 * line) = .remoteMem p.val ∧ homeOf s (64 * line) = none
  let last := fun (s : State) (v : Nat) => (l2Holders (l2Lose s n.val line way) line).isEmpty = true ∧ (l2Lose s n.val line way).link.held.find? (fun e => decide (e.1 = line ∧ e.2 ≤ 3)) = some (line, v)
  let again := fun (s : State) => { s with cache := { s.cache with retries := s.cache.retries.erase (1, a, line) } }
  let s0 : State := liveSt [⟨0, 1, 0⟩, orStop 0, wsStop 0]
  decide ((fun (s : State) => homeOf s (64 * line) = some st ∧ setHas s.cache.retiring (stopIdx st) = true) ((fun (s : State) => (fun (s : State) => { s with cache := { s.cache with retiring := setAdd [] (stopIdx st) } }) (memSt (rsetB (rsetB s st 3 BLOCK_CTL 0 true) st 4 BLOCK_CTL 0 true))) s0)) &&
  decide ((fun (s : State) => (1, a, line) ∈ s.cache.retries) ((fun (s : State) => (fun (s : State) => { s with cache := { s.cache with retries := [(1, a, line)] } }) (memSt (rsetB (rsetB s st 3 BLOCK_CTL 0 true) st 4 BLOCK_CTL 0 true))) s0)) &&
  decide ((fun (s : State) => (1, a, line) ∉ s.cache.retries) ((fun (s : State) => (fun (s : State) => s) (memSt (rsetB (rsetB s st 3 BLOCK_CTL 0 true) st 4 BLOCK_CTL 0 true))) s0))) = true := by decide +kernel

set_option maxRecDepth 10000 in
theorem wit_CacheAndHomeEvents_10 : (
  let st : Stop := ⟨0, 1, 0⟩
  let line : Nat := 0
  let far : Nat := 2^34
  let n : Fin 192 := 0
  let m : Fin 192 := 1
  let p : Fin 4 := 1
  let tag : Nat := 7
  let page : Nat := 4
  let nt := false
  let demand := true
  let c : Fin 2 := 1
  let way : Nat := 2
  let w2 : Fin 16 := 5
  let w1 : Fin 8 := 5
  let w3 : Fin 12 := 5
  let addr : Nat := 0x40
  let data : List Byte := [1,2,3]
  let line : Nat := 2^34
  let a : Agent := .core n
  let b : Agent := .pkg p tag
  let cw := fun (s : State) (x : Agent) => some (agentWorld s x)
  let sl := fun (s : State) => sliceGet s st
  let evbOf := fun (s : State) => (sl s).evb.find? (fun e => e.line = line)
  let free := fun (s : State) => homeOf s (64 * line) = some st ∧ setHas s.cache.retiring (stopIdx st) = false
  let fresh := fun (s : State) (op : Nat) (x : Agent) => free s ∧ domState s st 2 = dON ∧ (sl s).waits.contains (op, x, line) = false ∧ evbWaits (sl s) op x line = false
  let come := fun (s : State) (op : Nat) (x : Agent) => countScope (agentSend s x st).1 st (op - 1) 1 (cw s x)
  let got := fun (s : State) (op : Nat) (x : Agent) => slotFree (come s op x) st (op, x, line)
  let sent := fun (s : State) (op : Nat) (x : Agent) => fresh s op x ∧ slotOcc s st < 128 ∧ (agentSend s x st).2 = true
  let ready := fun (s : State) (op : Nat) (x : Agent) => sent s op x ∧ linePinned s x line = false ∧ lentReady s line (decide (op = 2 ∨ op = 3 ∨ op = 5)) (agentPkg x) = true
  let home := fun (s : State) (op : Nat) (x : Agent) => ready s op x ∧ evbOf (got s op x) = none
  let gw := fun (s : State) (op : Nat) (x : Agent) => agentWorld (got s op x) x
  let read := fun (s : State) (x : Agent) => homeRead (got s 1 x) st (gw s 1 x) x line nt demand
  let own := fun (s : State) => invOthers (homeRead (packFree (got s 2 a) st line) st (gw s 2 a) a line nt true) st (gw s 2 a) line (some a)
  let upg := fun (s : State) => invOthers (packFree (got s 3 a) st line) st (gw s 3 a) line (some a)
  let onc := fun (s : State) => invOthers (packFree (countScope (got s 5 a) st 0x0F 1 (some (gw s 5 a))) st line) st (gw s 5 a) line none
  let held := fun (s : State) => (l2Holders s line).filter fun e => decide (e.1 ≠ n.val)
  let others := fun (s : State) => match sfFind (sliceGet s st) line with | some (_, e) => decide (e.pkgs ≠ 0 ∨ e.courier ≠ 0) | none => false
  let keepO := fun (s : State) => countScope (sfOwner (l2Move (read s a) m.val line l2O) st line (some (m.val, l2O))) st 0x1A 1 (some (gw s 1 a))
  let evb := fun (s : State) (i : Bool) => ⟨line, i, []⟩ ∈ (sl s).evb ∧ evbOf s = some ⟨line, i, []⟩
  let blk := 3 + c.val
  let ce := fun (s : State) (k cnt src : Nat) => reportErr (rsat (rsat s st k cnt 0 16 1) st k cnt 16 16 1) st src tyCE (some addr)
  let ue := fun (s : State) (src : Nat) => reportErr (markPoison s addr) st src (tyUE + tyPOISON) (some addr)
  let bad := fun (s : State) (k : Nat) => { s with cache := { s.cache with disab := setAdd s.cache.disab (disKey st k) } }
  let gone := fun (s : State) (k : Nat) => { wayEmpty s st k with cache := { (wayEmpty s st k).cache with disab := setDel (wayEmpty s st k).cache.disab (disKey st k) } }
  let drop := fun (s : State) => { s with link := { s.link with held := s.link.held.filter fun l => l.1 ≠ line } }
  let outward := fun (s : State) => paTarget s (64 * line) = .remoteMem p.val ∧ homeOf s (64 * line) = none
  let last := fun (s : State) (v : Nat) => (l2Holders (l2Lose s n.val line way) line).isEmpty = true ∧ (l2Lose s n.val line way).link.held.find? (fun e => decide (e.1 = line ∧ e.2 ≤ 3)) = some (line, v)
  let again := fun (s : State) => { s with cache := { s.cache with retries := s.cache.retries.erase (1, a, line) } }
  let s0 : State := liveSt [⟨0, 1, 0⟩, orStop 0, wsStop 0]
  decide ((fun (s : State) => outward s ∧ (s.link.waiting.any fun m => decide (m.1.op = 1 ∧ m.1.addr = 64 * line)) = false) ((fun (s : State) => (fun (s : State) => s) (memSt (rsetB (rsetB s st 3 BLOCK_CTL 0 true) st 4 BLOCK_CTL 0 true))) s0)) &&
  decide ((fun (s : State) => outward s ∧ l2Find s n.val line = some (way, l2M) ∧ last s 2) ((fun (s : State) => (fun (s : State) => { l2Put s 0 (2^34) 2 l2M with link := { s.link with held := [(2^34, 2)] } }) (memSt (rsetB (rsetB s st 3 BLOCK_CTL 0 true) st 4 BLOCK_CTL 0 true))) s0)) &&
  decide ((fun (s : State) => outward s ∧ l2Find s n.val line = none ∧ (line, 2) ∈ s.link.held) ((fun (s : State) => (fun (s : State) => { s with link := { s.link with held := [(line, 2)] } }) (memSt (rsetB (rsetB s st 3 BLOCK_CTL 0 true) st 4 BLOCK_CTL 0 true))) s0)) &&
  decide ((fun (s : State) => outward s ∧ l2Find s n.val line = none ∧ (line, 1) ∈ s.link.held) ((fun (s : State) => (fun (s : State) => { s with link := { s.link with held := [(line, 1)] } }) (memSt (rsetB (rsetB s st 3 BLOCK_CTL 0 true) st 4 BLOCK_CTL 0 true))) s0))) = true := by decide +kernel

theorem wit_HbmAndCxlEvents_1 : (
  let c : Fin 2 := 1
  let k : Fin 6 := 0
  let die : Fin 2 := 0
  let pcn : Fin 2 := 1
  let bank : Fin 48 := 7
  let ln : Fin 72 := 40
  let port : Fin 12 := 2
  let pa : Nat := 0x80
  let row : Nat := 2^21 + 5
  let lane : Nat := 72 + 40
  let deg : BitVec 8 := 86
  let out : BitVec 1024 := 0x123456789ABCDEF
  let write := true
  let home : Stop := ⟨0, 1, 2⟩
  let st : Stop := ⟨0, 0, 0⟩
  let l := fun (s : State) => hbmLoc s pa
  let mst := fun (s : State) => locStop (l s)
  let mc := fun (s : State) => locCtl (l s)
  let line := pa / 64 * 64
  let up := fun (s : State) (st : Stop) (blk off : Nat) => rput s st blk off (BitVec.ofNat 32 (min (2 ^ 32 - 1) ((rget s st blk off).toNat + 1)))
  let run := fun (s : State) => stopKind st = .memory ∧ rbit s st (mcBlk c) BLOCK_CTL 0 = true ∧ rbit s st (mcBlk c) MC_STAT 2 = false
  let p := pcNum st c pcn.val
  let b := p * 48 + bank.val
  let owed := fun (s : State) (n : Nat) => setOwed s st c pcn.val n
  let idle := fun (s : State) (q : Nat) => closeRows s fun b => decide (b / 48 = q)
  let fails := fun (s : State) => ((mapGet (fun _ => []) s.hbm.capar (chanNum st c)).filter fun x => decide (tbNow s < x + 100000)) ++ [tbNow s]
  let failed := fun (s : State) (q : List Nat) => hbmMod (reportErr (rsetB s st (mcBlk c) MC_STAT 4 true) st (0x4003 + c.val * 0x100) tyPARITY) fun h => { h with capar := mapSet (fun _ => []) h.capar (chanNum st c) q }
  let hot := fun (s : State) (b : Bool) => (stackChans k).foldl (fun s e => rsetB s e.1 (mcBlk e.2) MC_STAT 1 b) (rput s (stkStop k) 6 STK_TEMP (BitVec.ofNat 32 (deg.toNat + 256 * b2n b)))
  let warm := fun (s : State) => rsetB s (wsStop (stkStop k).die) 4 THERM_STAT 10 ((List.finRange 6).any fun j => decide ((stkStop j).die = (stkStop k).die) && decide (rfld s (wsStop (stkStop k).die) 4 THERM_CTL 8 8 ≤ rfld s (stkStop j) 6 STK_TEMP 0 8))
  let h := laneHalf (lane / 72) (lane % 72)
  let sp := scrubOff c + SPARE_STAT
  let cxl := fun (s : State) => cxlPort s pa = some port
  let ps := portStop port
  let acc := fun (s : State) => (mcRead s (pa / 64)).1
  let issued := fun (s : State) => (mcRead s (pa / 64)).2 = true
  let read := fun (s : State) => mcCount (acc s) (mst s) (mc s) 9 1
  let next := fun (s : State) => rputF (read s) (mst s) 5 (scrubOff (mc s) + SCRUB_POS) 0 26 ((rfld (read s) (mst s) 5 (scrubOff (mc s) + SCRUB_POS) 0 26 + 1) % 50331648)
  let serves := fun (s : State) => paTarget s pa = .hbm ∧ domState s (mst s) (mc s).val = dON ∧ rbit s (mst s) (mcBlk (mc s)) BLOCK_CTL 0 = true ∧ rbit s (mst s) (mcBlk (mc s)) MC_STAT 2 = false
  let kept := fun (s : State) (u scrub : Bool) (n : Nat) => let v : Nat := 1 + (l s).pc * 2 + b2n u * 4 + n * 8 + b2n scrub * 2 ^ 10 + (l s).sid * 2 ^ 11; rput (rput (rput s (mst s) (mcBlk (mc s)) MC_ERR_INFO (BitVec.ofNat 32 v)) (mst s) (mcBlk (mc s)) MC_ERR_ADDR_LO (BitVec.ofNat 32 ((l s).so / 64 * 64))) (mst s) (mcBlk (mc s)) MC_ERR_ADDR_HI (BitVec.ofNat 32 ((l s).so / 2 ^ 32 % 8))
  let first := fun (s : State) => rbit s (mst s) (mcBlk (mc s)) MC_ERR_INFO 0 = false
  let ce := fun (s : State) => mcCount (up (acc s) (mst s) (mcBlk (mc s)) MC_CE_CNT) (mst s) (mc s) 11 1
  let wb := fun (s : State) => rbit (kept (ce s) false false 0) (mst s) (mcBlk (mc s)) MC_CTL 5
  let found := fun (s : State) => memPoison (acc s) (pa / 64) false
  let ue := fun (s : State) => kept (mcCount (up (rewriteLine (found s) (pa / 64)) (mst s) (mcBlk (mc s)) MC_UE_CNT) (mst s) (mc s) 12 1) true false 0
  let queue := fun (s : State) => mcQueue s (chanNum st c)
  let busy := fun (s : State) => anyReadOk s (queue s) p && !panicHeld s (stackOf st)
  let hits := fun (s : State) => (queue s).any fun e => decide (locBank (reqLoc s e) = b) && rowHit s e
  let sent := fun (s : State) => let s1 := slicePut s home { sliceGet s home with evb := [⟨pa / 64, true, []⟩] }; countScope s1 home 0x14 1 (some .normal)
  let out1 := fun (s : State) => meshSend (memStored (sent s) (pa / 64)) home (locStop (hbmLoc (sent s) (64 * (pa / 64))))
  let writes := fun (s : State) => (pcOf s (mcQueue s (p / 2)) p).countP (·.write)
  let s0 : State := liveSt [⟨0, 0, 0⟩, ⟨0, 1, 0⟩, portStop 2, wsStop 0]
  decide ((fun (s : State) => (sliceGet s home).evb = [⟨pa / 64, false, []⟩] ∧ evbCredit s (pa / 64) = true ∧ paTarget (sent s) (64 * (pa / 64)) = .hbm ∧ (out1 s).2 = true) ((fun (s : State) => (fun (s : State) => sliceMod s home fun x => { x with evb := [⟨2, false, []⟩] }) ((fun (s : State) => rsetB s (mst s) (mcBlk (mc s)) BLOCK_CTL 0 true) (memSt s))) s0)) &&
  decide ((fun (s : State) => evbCredit s (pa / 64) = false) ((fun (s : State) => (fun (s : State) => hbmMod s fun h => { h with stage := [(locChan (hbmLoc s 0x80), List.replicate 8 ⟨2, true, none, false, false⟩)] }) ((fun (s : State) => rsetB s (mst s) (mcBlk (mc s)) BLOCK_CTL 0 true) (memSt s))) s0)) &&
  decide ((fun (s : State) => (sliceGet s home).evb = []) ((fun (s : State) => s) s0)) &&
  decide ((fun (s : State) => rbit s (orStop die) 2 CP_STAT k.val = true) ((fun (s : State) => (fun (s : State) => rsetB (setRow s 7 (some 3)) (orStop 0) 2 CP_STAT 0 true) (rsetB (memSt s) st (mcBlk c) BLOCK_CTL 0 true)) s0)) &&
  decide ((fun (s : State) => rbit s (orStop die) 2 CP_STAT k.val = false) ((fun (s : State) => s) s0)) &&
  decide ((fun (s : State) => cpAged s die k.val = false ∧ rbit s (orStop die) 2 CP_STAT k.val = true ∧ cpCount s die k.val < rfld s (orStop die) 2 CP_CTL 8 7) ((fun (s : State) => rputF (rsetB (hbmMod s fun h => { h with panic := [0] }) (orStop 0) 2 CP_STAT 0 true) (orStop 0) 2 CP_CTL 8 7 4) s0)) &&
  decide ((fun (s : State) => rfld s (orStop die) 2 CP_CTL 8 7 ≤ cpCount s die k.val) ((fun (s : State) => rputF s (orStop 0) 2 CP_CTL 8 7 0) s0)) &&
  decide ((fun (s : State) => cpAged s die k.val = true) ((fun (s : State) => orPut s 3 { orGet s 3 with aged := [0] }) s0)) &&
  decide ((fun (s : State) => run s ∧ rbit s st (mcBlk c) MC_CTL 0 = true) ((fun (s : State) => (fun (s : State) => rsetB (setRow s b (some 3)) st (mcBlk c) MC_CTL 0 true) (rsetB (memSt s) st (mcBlk c) BLOCK_CTL 0 true)) s0)) &&
  decide ((fun (s : State) => run s ∧ rbit s st (mcBlk c) MC_CTL 0 = false ∧ busy s = true ∧ owedOf s p + 1 ≤ min 8 (rfld s st (mcBlk c) MC_CTL 1 4)) ((fun (s : State) => (fun (s : State) => (fun (s : State) => hbmMod s fun h => { h with queue := [(chanNum st c, [⟨((List.range 100000).find? fun x => decide (locPc (hbmLoc s (64 * x)) = pcNum st c pcn.val)).getD 0, false, none, false, false⟩])] }) (rputF s st (mcBlk c) MC_CTL 0 5 8)) (rsetB (memSt s) st (mcBlk c) BLOCK_CTL 0 true)) s0)) &&
  decide ((fun (s : State) => run s ∧ rbit s st (mcBlk c) MC_CTL 0 = false ∧ busy s = true ∧ min 8 (rfld s st (mcBlk c) MC_CTL 1 4) < owedOf s p + 1) ((fun (s : State) => (fun (s : State) => (fun (s : State) => hbmMod s fun h => { h with queue := [(chanNum st c, [⟨((List.range 100000).find? fun x => decide (locPc (hbmLoc s (64 * x)) = pcNum st c pcn.val)).getD 0, false, none, false, false⟩])] }) (rputF (setRow s b (some 4)) st (mcBlk c) MC_CTL 0 5 0)) (rsetB (memSt s) st (mcBlk c) BLOCK_CTL 0 true)) s0)) &&
  decide ((fun (s : State) => run s ∧ rbit s st (mcBlk c) MC_CTL 0 = false ∧ busy s = false) ((fun (s : State) => (fun (s : State) => rputF s st (mcBlk c) MC_CTL 0 5 8) (rsetB (memSt s) st (mcBlk c) BLOCK_CTL 0 true)) s0))) = true := by decide +kernel

theorem wit_HbmAndCxlEvents_2 : (
  let c : Fin 2 := 1
  let k : Fin 6 := 0
  let die : Fin 2 := 0
  let pcn : Fin 2 := 1
  let bank : Fin 48 := 7
  let ln : Fin 72 := 40
  let port : Fin 12 := 2
  let pa : Nat := 0x80
  let row : Nat := 2^21 + 5
  let lane : Nat := 72 + 40
  let deg : BitVec 8 := 86
  let out : BitVec 1024 := 0x123456789ABCDEF
  let write := true
  let home : Stop := ⟨0, 1, 2⟩
  let st : Stop := ⟨0, 0, 0⟩
  let l := fun (s : State) => hbmLoc s pa
  let mst := fun (s : State) => locStop (l s)
  let mc := fun (s : State) => locCtl (l s)
  let line := pa / 64 * 64
  let up := fun (s : State) (st : Stop) (blk off : Nat) => rput s st blk off (BitVec.ofNat 32 (min (2 ^ 32 - 1) ((rget s st blk off).toNat + 1)))
  let run := fun (s : State) => stopKind st = .memory ∧ rbit s st (mcBlk c) BLOCK_CTL 0 = true ∧ rbit s st (mcBlk c) MC_STAT 2 = false
  let p := pcNum st c pcn.val
  let b := p * 48 + bank.val
  let owed := fun (s : State) (n : Nat) => setOwed s st c pcn.val n
  let idle := fun (s : State) (q : Nat) => closeRows s fun b => decide (b / 48 = q)
  let fails := fun (s : State) => ((mapGet (fun _ => []) s.hbm.capar (chanNum st c)).filter fun x => decide (tbNow s < x + 100000)) ++ [tbNow s]
  let failed := fun (s : State) (q : List Nat) => hbmMod (reportErr (rsetB s st (mcBlk c) MC_STAT 4 true) st (0x4003 + c.val * 0x100) tyPARITY) fun h => { h with capar := mapSet (fun _ => []) h.capar (chanNum st c) q }
  let hot := fun (s : State) (b : Bool) => (stackChans k).foldl (fun s e => rsetB s e.1 (mcBlk e.2) MC_STAT 1 b) (rput s (stkStop k) 6 STK_TEMP (BitVec.ofNat 32 (deg.toNat + 256 * b2n b)))
  let warm := fun (s : State) => rsetB s (wsStop (stkStop k).die) 4 THERM_STAT 10 ((List.finRange 6).any fun j => decide ((stkStop j).die = (stkStop k).die) && decide (rfld s (wsStop (stkStop k).die) 4 THERM_CTL 8 8 ≤ rfld s (stkStop j) 6 STK_TEMP 0 8))
  let h := laneHalf (lane / 72) (lane % 72)
  let sp := scrubOff c + SPARE_STAT
  let cxl := fun (s : State) => cxlPort s pa = some port
  let ps := portStop port
  let acc := fun (s : State) => (mcRead s (pa / 64)).1
  let issued := fun (s : State) => (mcRead s (pa / 64)).2 = true
  let read := fun (s : State) => mcCount (acc s) (mst s) (mc s) 9 1
  let next := fun (s : State) => rputF (read s) (mst s) 5 (scrubOff (mc s) + SCRUB_POS) 0 26 ((rfld (read s) (mst s) 5 (scrubOff (mc s) + SCRUB_POS) 0 26 + 1) % 50331648)
  let serves := fun (s : State) => paTarget s pa = .hbm ∧ domState s (mst s) (mc s).val = dON ∧ rbit s (mst s) (mcBlk (mc s)) BLOCK_CTL 0 = true ∧ rbit s (mst s) (mcBlk (mc s)) MC_STAT 2 = false
  let kept := fun (s : State) (u scrub : Bool) (n : Nat) => let v : Nat := 1 + (l s).pc * 2 + b2n u * 4 + n * 8 + b2n scrub * 2 ^ 10 + (l s).sid * 2 ^ 11; rput (rput (rput s (mst s) (mcBlk (mc s)) MC_ERR_INFO (BitVec.ofNat 32 v)) (mst s) (mcBlk (mc s)) MC_ERR_ADDR_LO (BitVec.ofNat 32 ((l s).so / 64 * 64))) (mst s) (mcBlk (mc s)) MC_ERR_ADDR_HI (BitVec.ofNat 32 ((l s).so / 2 ^ 32 % 8))
  let first := fun (s : State) => rbit s (mst s) (mcBlk (mc s)) MC_ERR_INFO 0 = false
  let ce := fun (s : State) => mcCount (up (acc s) (mst s) (mcBlk (mc s)) MC_CE_CNT) (mst s) (mc s) 11 1
  let wb := fun (s : State) => rbit (kept (ce s) false false 0) (mst s) (mcBlk (mc s)) MC_CTL 5
  let found := fun (s : State) => memPoison (acc s) (pa / 64) false
  let ue := fun (s : State) => kept (mcCount (up (rewriteLine (found s) (pa / 64)) (mst s) (mcBlk (mc s)) MC_UE_CNT) (mst s) (mc s) 12 1) true false 0
  let queue := fun (s : State) => mcQueue s (chanNum st c)
  let busy := fun (s : State) => anyReadOk s (queue s) p && !panicHeld s (stackOf st)
  let hits := fun (s : State) => (queue s).any fun e => decide (locBank (reqLoc s e) = b) && rowHit s e
  let sent := fun (s : State) => let s1 := slicePut s home { sliceGet s home with evb := [⟨pa / 64, true, []⟩] }; countScope s1 home 0x14 1 (some .normal)
  let out1 := fun (s : State) => meshSend (memStored (sent s) (pa / 64)) home (locStop (hbmLoc (sent s) (64 * (pa / 64))))
  let writes := fun (s : State) => (pcOf s (mcQueue s (p / 2)) p).countP (·.write)
  let s0 : State := liveSt [⟨0, 0, 0⟩, ⟨0, 1, 0⟩, portStop 2, wsStop 0]
  decide ((fun (s : State) => stopKind st = .memory ∧ openRow s b = some row ∧ hits s = false) ((fun (s : State) => setRow s b (some row)) s0)) &&
  decide ((fun (s : State) => hits s = true) ((fun (s : State) => (fun (s : State) => let x := ((List.range 1000000).find? fun x => decide (locBank (hbmLoc s (64 * x)) = b)).getD 0; setRow (hbmMod s fun h => { h with queue := [(chanNum st c, [⟨x, false, none, false, false⟩])] }) b (some (hbmLoc s (64 * x)).row)) (memSt s)) s0)) &&
  decide ((fun (s : State) => openRow s b = none) ((fun (s : State) => s) s0)) &&
  decide ((fun (s : State) => serves s ∧ issued s) ((fun (s : State) => (fun (s : State) => s) ((fun (s : State) => rsetB s (mst s) (mcBlk (mc s)) BLOCK_CTL 0 true) (memSt s))) s0)) &&
  decide ((fun (s : State) => serves s ∧ issued s ∧ first (ce s) ∧ wb s = false) ((fun (s : State) => (fun (s : State) => rsetB s (mst s) (mcBlk (mc s)) MC_CTL 5 false) ((fun (s : State) => rsetB s (mst s) (mcBlk (mc s)) BLOCK_CTL 0 true) (memSt s))) s0)) &&
  decide ((fun (s : State) => serves s ∧ issued s ∧ first (ce s) ∧ wb s = true) ((fun (s : State) => (fun (s : State) => rsetB s (mst s) (mcBlk (mc s)) MC_CTL 5 true) ((fun (s : State) => rsetB s (mst s) (mcBlk (mc s)) BLOCK_CTL 0 true) (memSt s))) s0)) &&
  decide ((fun (s : State) => serves s ∧ issued s ∧ first (mcCount (up (rewriteLine (found s) (pa / 64)) (mst s) (mcBlk (mc s)) MC_UE_CNT) (mst s) (mc s) 12 1) ∧ rbit (reportErr (ue s) (mst s) (0x4002 + (mc s).val * 0x100) tyUE (some line)) (mst s) 5 (scrubOff (mc s) + SCRUB_CTL) 1 = false) ((fun (s : State) => (fun (s : State) => rsetB s (mst s) 5 (scrubOff (mc s) + SCRUB_CTL) 1 false) ((fun (s : State) => rsetB s (mst s) (mcBlk (mc s)) BLOCK_CTL 0 true) (memSt s))) s0)) &&
  decide ((fun (s : State) => serves s ∧ issued s) ((fun (s : State) => (fun (s : State) => s) ((fun (s : State) => rsetB s (mst s) (mcBlk (mc s)) BLOCK_CTL 0 true) (memSt s))) s0)) &&
  decide ((fun (s : State) => serves s ∧ issued s ∧ rbit s (mst s) 5 (scrubOff (mc s) + SCRUB_CTL) 0 = true) ((fun (s : State) => (fun (s : State) => rsetB s (mst s) 5 (scrubOff (mc s) + SCRUB_CTL) 0 true) ((fun (s : State) => rsetB s (mst s) (mcBlk (mc s)) BLOCK_CTL 0 true) (memSt s))) s0)) &&
  decide ((fun (s : State) => serves s ∧ (mcRead s (pa / 64)).2 = false) ((fun (s : State) => (fun (s : State) => hbmMod s fun y => { y with remap := [(chanNum (mst s) (mc s), some (72 * (l s).pc + 3))] }) ((fun (s : State) => rsetB s (mst s) (mcBlk (mc s)) BLOCK_CTL 0 true) (memSt s))) s0)) &&
  decide ((fun (s : State) => paTarget s pa = .hbm ∧ rbit s (mst s) (mcBlk (mc s)) MC_STAT 2 = true) ((fun (s : State) => (fun (s : State) => rsetB s (mst s) (mcBlk (mc s)) MC_STAT 2 true) ((fun (s : State) => rsetB s (mst s) (mcBlk (mc s)) BLOCK_CTL 0 true) (memSt s))) s0)) &&
  decide ((fun (s : State) => paTarget s pa = .hbm ∧ domState s (mst s) (mc s).val = dOFF ∧ pkgState s = 0) ((fun (s : State) => (fun (s : State) => setDom s (mst s) (mc s).val dOFF) ((fun (s : State) => rsetB s (mst s) (mcBlk (mc s)) BLOCK_CTL 0 true) (memSt s))) s0))) = true := by decide +kernel

theorem wit_HbmAndCxlEvents_3 : (
  let c : Fin 2 := 1
  let k : Fin 6 := 0
  let die : Fin 2 := 0
  let pcn : Fin 2 := 1
  let bank : Fin 48 := 7
  let ln : Fin 72 := 40
  let port : Fin 12 := 2
  let pa : Nat := 0x80
  let row : Nat := 2^21 + 5
  let lane : Nat := 72 + 40
  let deg : BitVec 8 := 86
  let out : BitVec 1024 := 0x123456789ABCDEF
  let write := true
  let home : Stop := ⟨0, 1, 2⟩
  let st : Stop := ⟨0, 0, 0⟩
  let l := fun (s : State) => hbmLoc s pa
  let mst := fun (s : State) => locStop (l s)
  let mc := fun (s : State) => locCtl (l s)
  let line := pa / 64 * 64
  let up := fun (s : State) (st : Stop) (blk off : Nat) => rput s st blk off (BitVec.ofNat 32 (min (2 ^ 32 - 1) ((rget s st blk off).toNat + 1)))
  let run := fun (s : State) => stopKind st = .memory ∧ rbit s st (mcBlk c) BLOCK_CTL 0 = true ∧ rbit s st (mcBlk c) MC_STAT 2 = false
  let p := pcNum st c pcn.val
  let b := p * 48 + bank.val
  let owed := fun (s : State) (n : Nat) => setOwed s st c pcn.val n
  let idle := fun (s : State) (q : Nat) => closeRows s fun b => decide (b / 48 = q)
  let fails := fun (s : State) => ((mapGet (fun _ => []) s.hbm.capar (chanNum st c)).filter fun x => decide (tbNow s < x + 100000)) ++ [tbNow s]
  let failed := fun (s : State) (q : List Nat) => hbmMod (reportErr (rsetB s st (mcBlk c) MC_STAT 4 true) st (0x4003 + c.val * 0x100) tyPARITY) fun h => { h with capar := mapSet (fun _ => []) h.capar (chanNum st c) q }
  let hot := fun (s : State) (b : Bool) => (stackChans k).foldl (fun s e => rsetB s e.1 (mcBlk e.2) MC_STAT 1 b) (rput s (stkStop k) 6 STK_TEMP (BitVec.ofNat 32 (deg.toNat + 256 * b2n b)))
  let warm := fun (s : State) => rsetB s (wsStop (stkStop k).die) 4 THERM_STAT 10 ((List.finRange 6).any fun j => decide ((stkStop j).die = (stkStop k).die) && decide (rfld s (wsStop (stkStop k).die) 4 THERM_CTL 8 8 ≤ rfld s (stkStop j) 6 STK_TEMP 0 8))
  let h := laneHalf (lane / 72) (lane % 72)
  let sp := scrubOff c + SPARE_STAT
  let cxl := fun (s : State) => cxlPort s pa = some port
  let ps := portStop port
  let acc := fun (s : State) => (mcRead s (pa / 64)).1
  let issued := fun (s : State) => (mcRead s (pa / 64)).2 = true
  let read := fun (s : State) => mcCount (acc s) (mst s) (mc s) 9 1
  let next := fun (s : State) => rputF (read s) (mst s) 5 (scrubOff (mc s) + SCRUB_POS) 0 26 ((rfld (read s) (mst s) 5 (scrubOff (mc s) + SCRUB_POS) 0 26 + 1) % 50331648)
  let serves := fun (s : State) => paTarget s pa = .hbm ∧ domState s (mst s) (mc s).val = dON ∧ rbit s (mst s) (mcBlk (mc s)) BLOCK_CTL 0 = true ∧ rbit s (mst s) (mcBlk (mc s)) MC_STAT 2 = false
  let kept := fun (s : State) (u scrub : Bool) (n : Nat) => let v : Nat := 1 + (l s).pc * 2 + b2n u * 4 + n * 8 + b2n scrub * 2 ^ 10 + (l s).sid * 2 ^ 11; rput (rput (rput s (mst s) (mcBlk (mc s)) MC_ERR_INFO (BitVec.ofNat 32 v)) (mst s) (mcBlk (mc s)) MC_ERR_ADDR_LO (BitVec.ofNat 32 ((l s).so / 64 * 64))) (mst s) (mcBlk (mc s)) MC_ERR_ADDR_HI (BitVec.ofNat 32 ((l s).so / 2 ^ 32 % 8))
  let first := fun (s : State) => rbit s (mst s) (mcBlk (mc s)) MC_ERR_INFO 0 = false
  let ce := fun (s : State) => mcCount (up (acc s) (mst s) (mcBlk (mc s)) MC_CE_CNT) (mst s) (mc s) 11 1
  let wb := fun (s : State) => rbit (kept (ce s) false false 0) (mst s) (mcBlk (mc s)) MC_CTL 5
  let found := fun (s : State) => memPoison (acc s) (pa / 64) false
  let ue := fun (s : State) => kept (mcCount (up (rewriteLine (found s) (pa / 64)) (mst s) (mcBlk (mc s)) MC_UE_CNT) (mst s) (mc s) 12 1) true false 0
  let queue := fun (s : State) => mcQueue s (chanNum st c)
  let busy := fun (s : State) => anyReadOk s (queue s) p && !panicHeld s (stackOf st)
  let hits := fun (s : State) => (queue s).any fun e => decide (locBank (reqLoc s e) = b) && rowHit s e
  let sent := fun (s : State) => let s1 := slicePut s home { sliceGet s home with evb := [⟨pa / 64, true, []⟩] }; countScope s1 home 0x14 1 (some .normal)
  let out1 := fun (s : State) => meshSend (memStored (sent s) (pa / 64)) home (locStop (hbmLoc (sent s) (64 * (pa / 64))))
  let writes := fun (s : State) => (pcOf s (mcQueue s (p / 2)) p).countP (·.write)
  let s0 : State := liveSt [⟨0, 0, 0⟩, ⟨0, 1, 0⟩, portStop 2, wsStop 0]
  decide ((fun (s : State) => serves s ∧ rbit s (mst s) 5 (scrubOff (mc s) + SCRUB_CTL) 0 = false) ((fun (s : State) => (fun (s : State) => rsetB s (mst s) 5 (scrubOff (mc s) + SCRUB_CTL) 0 false) ((fun (s : State) => rsetB s (mst s) (mcBlk (mc s)) BLOCK_CTL 0 true) (memSt s))) s0)) &&
  decide ((fun (s : State) => stopKind st = .memory ∧ rbit s st (mcBlk c) BLOCK_CTL 0 = true ∧ (fails s).length < 3) ((fun (s : State) => (fun (s : State) => s) (rsetB (memSt s) st (mcBlk c) BLOCK_CTL 0 true)) s0)) &&
  decide ((fun (s : State) => stopKind st = .memory ∧ rbit s st (mcBlk c) BLOCK_CTL 0 = true ∧ 3 ≤ (fails s).length) ((fun (s : State) => (fun (s : State) => hbmMod s fun x => { x with capar := [(chanNum st c, [0, 0])] }) (rsetB (memSt s) st (mcBlk c) BLOCK_CTL 0 true)) s0)) &&
  decide ((fun (s : State) => 85 ≤ deg.toNat ∧ deg.toNat < 105) ((fun (s : State) => rputF s (wsStop 0) 4 THERM_CTL 8 8 70) s0)) &&
  decide ((fun (s : State) => stopKind st = .memory ∧ mapGet (fun _ => none) s.hbm.remap (chanNum st c) = some lane) ((fun (s : State) => hbmMod s fun y => { y with remap := mapSet (fun _ => none) y.remap (chanNum st c) (some lane) }) s0)) &&
  decide ((fun (s : State) => mapGet (fun _ => none) s.hbm.remap (chanNum st c) = none) ((fun (s : State) => s) s0)) &&
  decide ((fun (s : State) => stopKind st = .memory ∧ sparingOf s st c = some row ∧ mapGet (fun _ => []) s.hbm.queued (chanNum st c) = [] ∧ row ∉ mapGet (fun _ => []) s.hbm.spared (chanNum st c)) ((fun (s : State) => hbmMod s fun y => { y with sparing := mapSet (fun _ => none) y.sparing (chanNum st c) (some row) }) s0)) &&
  decide ((fun (s : State) => sparingOf s st c = none) ((fun (s : State) => s) s0)) &&
  decide ((fun (s : State) => stopKind st = .memory) ((fun (s : State) => hbmMod s fun h => { h with lanes := [(5, (2, 3))] }) s0)) &&
  decide ((fun (s : State) => k.val ∈ s.hbm.shifting ∧ (mapGet (fun _ => (0, 0)) s.hbm.w1500 k.val).2 = 64) ((fun (s : State) => hbmMod s fun h => { h with shifting := [0], w1500 := [(0, (9, 64))] }) s0)) &&
  decide ((fun (s : State) => True) ((fun (s : State) => s) s0)) &&
  decide ((fun (s : State) => portProto s port.val = 1 ∧ rbit s ps 5 CXL_STAT 0 = true) ((fun (s : State) => (fun (s : State) => rsetB s (portStop 2) 5 CXL_STAT 0 true) (rput (rput (rput (rputF (memSt s) (portStop 2) 1 PORT_CAP 8 2 1) (portStop 2) 5 CXW_BASE 0x10000) (portStop 2) 5 CXW_SIZE 4) (portStop 2) 5 CXW_CTL 1)) s0))) = true := by decide +kernel

theorem wit_HbmAndCxlEvents_4 : (
  let c : Fin 2 := 1
  let k : Fin 6 := 0
  let die : Fin 2 := 0
  let pcn : Fin 2 := 1
  let bank : Fin 48 := 7
  let ln : Fin 72 := 40
  let port : Fin 12 := 2
  let pa : Nat := 0x80
  let row : Nat := 2^21 + 5
  let lane : Nat := 72 + 40
  let deg : BitVec 8 := 86
  let out : BitVec 1024 := 0x123456789ABCDEF
  let write := true
  let home : Stop := ⟨0, 1, 2⟩
  let st : Stop := ⟨0, 0, 0⟩
  let l := fun (s : State) => hbmLoc s pa
  let mst := fun (s : State) => locStop (l s)
  let mc := fun (s : State) => locCtl (l s)
  let line := pa / 64 * 64
  let up := fun (s : State) (st : Stop) (blk off : Nat) => rput s st blk off (BitVec.ofNat 32 (min (2 ^ 32 - 1) ((rget s st blk off).toNat + 1)))
  let run := fun (s : State) => stopKind st = .memory ∧ rbit s st (mcBlk c) BLOCK_CTL 0 = true ∧ rbit s st (mcBlk c) MC_STAT 2 = false
  let p := pcNum st c pcn.val
  let b := p * 48 + bank.val
  let owed := fun (s : State) (n : Nat) => setOwed s st c pcn.val n
  let idle := fun (s : State) (q : Nat) => closeRows s fun b => decide (b / 48 = q)
  let fails := fun (s : State) => ((mapGet (fun _ => []) s.hbm.capar (chanNum st c)).filter fun x => decide (tbNow s < x + 100000)) ++ [tbNow s]
  let failed := fun (s : State) (q : List Nat) => hbmMod (reportErr (rsetB s st (mcBlk c) MC_STAT 4 true) st (0x4003 + c.val * 0x100) tyPARITY) fun h => { h with capar := mapSet (fun _ => []) h.capar (chanNum st c) q }
  let hot := fun (s : State) (b : Bool) => (stackChans k).foldl (fun s e => rsetB s e.1 (mcBlk e.2) MC_STAT 1 b) (rput s (stkStop k) 6 STK_TEMP (BitVec.ofNat 32 (deg.toNat + 256 * b2n b)))
  let warm := fun (s : State) => rsetB s (wsStop (stkStop k).die) 4 THERM_STAT 10 ((List.finRange 6).any fun j => decide ((stkStop j).die = (stkStop k).die) && decide (rfld s (wsStop (stkStop k).die) 4 THERM_CTL 8 8 ≤ rfld s (stkStop j) 6 STK_TEMP 0 8))
  let h := laneHalf (lane / 72) (lane % 72)
  let sp := scrubOff c + SPARE_STAT
  let cxl := fun (s : State) => cxlPort s pa = some port
  let ps := portStop port
  let acc := fun (s : State) => (mcRead s (pa / 64)).1
  let issued := fun (s : State) => (mcRead s (pa / 64)).2 = true
  let read := fun (s : State) => mcCount (acc s) (mst s) (mc s) 9 1
  let next := fun (s : State) => rputF (read s) (mst s) 5 (scrubOff (mc s) + SCRUB_POS) 0 26 ((rfld (read s) (mst s) 5 (scrubOff (mc s) + SCRUB_POS) 0 26 + 1) % 50331648)
  let serves := fun (s : State) => paTarget s pa = .hbm ∧ domState s (mst s) (mc s).val = dON ∧ rbit s (mst s) (mcBlk (mc s)) BLOCK_CTL 0 = true ∧ rbit s (mst s) (mcBlk (mc s)) MC_STAT 2 = false
  let kept := fun (s : State) (u scrub : Bool) (n : Nat) => let v : Nat := 1 + (l s).pc * 2 + b2n u * 4 + n * 8 + b2n scrub * 2 ^ 10 + (l s).sid * 2 ^ 11; rput (rput (rput s (mst s) (mcBlk (mc s)) MC_ERR_INFO (BitVec.ofNat 32 v)) (mst s) (mcBlk (mc s)) MC_ERR_ADDR_LO (BitVec.ofNat 32 ((l s).so / 64 * 64))) (mst s) (mcBlk (mc s)) MC_ERR_ADDR_HI (BitVec.ofNat 32 ((l s).so / 2 ^ 32 % 8))
  let first := fun (s : State) => rbit s (mst s) (mcBlk (mc s)) MC_ERR_INFO 0 = false
  let ce := fun (s : State) => mcCount (up (acc s) (mst s) (mcBlk (mc s)) MC_CE_CNT) (mst s) (mc s) 11 1
  let wb := fun (s : State) => rbit (kept (ce s) false false 0) (mst s) (mcBlk (mc s)) MC_CTL 5
  let found := fun (s : State) => memPoison (acc s) (pa / 64) false
  let ue := fun (s : State) => kept (mcCount (up (rewriteLine (found s) (pa / 64)) (mst s) (mcBlk (mc s)) MC_UE_CNT) (mst s) (mc s) 12 1) true false 0
  let queue := fun (s : State) => mcQueue s (chanNum st c)
  let busy := fun (s : State) => anyReadOk s (queue s) p && !panicHeld s (stackOf st)
  let hits := fun (s : State) => (queue s).any fun e => decide (locBank (reqLoc s e) = b) && rowHit s e
  let sent := fun (s : State) => let s1 := slicePut s home { sliceGet s home with evb := [⟨pa / 64, true, []⟩] }; countScope s1 home 0x14 1 (some .normal)
  let out1 := fun (s : State) => meshSend (memStored (sent s) (pa / 64)) home (locStop (hbmLoc (sent s) (64 * (pa / 64))))
  let writes := fun (s : State) => (pcOf s (mcQueue s (p / 2)) p).countP (·.write)
  let s0 : State := liveSt [⟨0, 0, 0⟩, ⟨0, 1, 0⟩, portStop 2, wsStop 0]
  decide ((fun (s : State) => portProto s port.val ≠ 1 ∨ rbit s ps 5 CXL_STAT 0 = false) ((fun (s : State) => s) s0))) = true := by decide +kernel

theorem wit_HbmAndCxlEvents_5 : (
  let c : Fin 2 := 1
  let k : Fin 6 := 0
  let die : Fin 2 := 0
  let pcn : Fin 2 := 1
  let bank : Fin 48 := 7
  let ln : Fin 72 := 40
  let port : Fin 12 := 2
  let pa : Nat := 0x80
  let row : Nat := 2^21 + 5
  let lane : Nat := 72 + 40
  let deg : BitVec 8 := 86
  let out : BitVec 1024 := 0x123456789ABCDEF
  let write := true
  let home : Stop := ⟨0, 1, 2⟩
  let st : Stop := ⟨0, 0, 0⟩
  let deg : BitVec 8 := 84
  let l := fun (s : State) => hbmLoc s pa
  let mst := fun (s : State) => locStop (l s)
  let mc := fun (s : State) => locCtl (l s)
  let line := pa / 64 * 64
  let up := fun (s : State) (st : Stop) (blk off : Nat) => rput s st blk off (BitVec.ofNat 32 (min (2 ^ 32 - 1) ((rget s st blk off).toNat + 1)))
  let run := fun (s : State) => stopKind st = .memory ∧ rbit s st (mcBlk c) BLOCK_CTL 0 = true ∧ rbit s st (mcBlk c) MC_STAT 2 = false
  let p := pcNum st c pcn.val
  let b := p * 48 + bank.val
  let owed := fun (s : State) (n : Nat) => setOwed s st c pcn.val n
  let idle := fun (s : State) (q : Nat) => closeRows s fun b => decide (b / 48 = q)
  let fails := fun (s : State) => ((mapGet (fun _ => []) s.hbm.capar (chanNum st c)).filter fun x => decide (tbNow s < x + 100000)) ++ [tbNow s]
  let failed := fun (s : State) (q : List Nat) => hbmMod (reportErr (rsetB s st (mcBlk c) MC_STAT 4 true) st (0x4003 + c.val * 0x100) tyPARITY) fun h => { h with capar := mapSet (fun _ => []) h.capar (chanNum st c) q }
  let hot := fun (s : State) (b : Bool) => (stackChans k).foldl (fun s e => rsetB s e.1 (mcBlk e.2) MC_STAT 1 b) (rput s (stkStop k) 6 STK_TEMP (BitVec.ofNat 32 (deg.toNat + 256 * b2n b)))
  let warm := fun (s : State) => rsetB s (wsStop (stkStop k).die) 4 THERM_STAT 10 ((List.finRange 6).any fun j => decide ((stkStop j).die = (stkStop k).die) && decide (rfld s (wsStop (stkStop k).die) 4 THERM_CTL 8 8 ≤ rfld s (stkStop j) 6 STK_TEMP 0 8))
  let h := laneHalf (lane / 72) (lane % 72)
  let sp := scrubOff c + SPARE_STAT
  let cxl := fun (s : State) => cxlPort s pa = some port
  let ps := portStop port
  let acc := fun (s : State) => (mcRead s (pa / 64)).1
  let issued := fun (s : State) => (mcRead s (pa / 64)).2 = true
  let read := fun (s : State) => mcCount (acc s) (mst s) (mc s) 9 1
  let next := fun (s : State) => rputF (read s) (mst s) 5 (scrubOff (mc s) + SCRUB_POS) 0 26 ((rfld (read s) (mst s) 5 (scrubOff (mc s) + SCRUB_POS) 0 26 + 1) % 50331648)
  let serves := fun (s : State) => paTarget s pa = .hbm ∧ domState s (mst s) (mc s).val = dON ∧ rbit s (mst s) (mcBlk (mc s)) BLOCK_CTL 0 = true ∧ rbit s (mst s) (mcBlk (mc s)) MC_STAT 2 = false
  let kept := fun (s : State) (u scrub : Bool) (n : Nat) => let v : Nat := 1 + (l s).pc * 2 + b2n u * 4 + n * 8 + b2n scrub * 2 ^ 10 + (l s).sid * 2 ^ 11; rput (rput (rput s (mst s) (mcBlk (mc s)) MC_ERR_INFO (BitVec.ofNat 32 v)) (mst s) (mcBlk (mc s)) MC_ERR_ADDR_LO (BitVec.ofNat 32 ((l s).so / 64 * 64))) (mst s) (mcBlk (mc s)) MC_ERR_ADDR_HI (BitVec.ofNat 32 ((l s).so / 2 ^ 32 % 8))
  let first := fun (s : State) => rbit s (mst s) (mcBlk (mc s)) MC_ERR_INFO 0 = false
  let ce := fun (s : State) => mcCount (up (acc s) (mst s) (mcBlk (mc s)) MC_CE_CNT) (mst s) (mc s) 11 1
  let wb := fun (s : State) => rbit (kept (ce s) false false 0) (mst s) (mcBlk (mc s)) MC_CTL 5
  let found := fun (s : State) => memPoison (acc s) (pa / 64) false
  let ue := fun (s : State) => kept (mcCount (up (rewriteLine (found s) (pa / 64)) (mst s) (mcBlk (mc s)) MC_UE_CNT) (mst s) (mc s) 12 1) true false 0
  let queue := fun (s : State) => mcQueue s (chanNum st c)
  let busy := fun (s : State) => anyReadOk s (queue s) p && !panicHeld s (stackOf st)
  let hits := fun (s : State) => (queue s).any fun e => decide (locBank (reqLoc s e) = b) && rowHit s e
  let sent := fun (s : State) => let s1 := slicePut s home { sliceGet s home with evb := [⟨pa / 64, true, []⟩] }; countScope s1 home 0x14 1 (some .normal)
  let out1 := fun (s : State) => meshSend (memStored (sent s) (pa / 64)) home (locStop (hbmLoc (sent s) (64 * (pa / 64))))
  let writes := fun (s : State) => (pcOf s (mcQueue s (p / 2)) p).countP (·.write)
  let s0 : State := liveSt [⟨0, 0, 0⟩, ⟨0, 1, 0⟩, portStop 2, wsStop 0]
  decide ((fun (s : State) => 84 ≤ deg.toNat ∧ deg.toNat < 105 ∧ rbit s (stkStop k) 6 STK_TEMP 8 = true) ((fun (s : State) => rput s (stkStop k) 6 STK_TEMP 0x155) s0))) = true := by decide +kernel

theorem wit_HbmAndCxlEvents_6 : (
  let c : Fin 2 := 1
  let k : Fin 6 := 0
  let die : Fin 2 := 0
  let pcn : Fin 2 := 1
  let bank : Fin 48 := 7
  let ln : Fin 72 := 40
  let port : Fin 12 := 2
  let pa : Nat := 0x80
  let row : Nat := 2^21 + 5
  let lane : Nat := 72 + 40
  let deg : BitVec 8 := 86
  let out : BitVec 1024 := 0x123456789ABCDEF
  let write := true
  let home : Stop := ⟨0, 1, 2⟩
  let st : Stop := ⟨0, 0, 0⟩
  let deg : BitVec 8 := 83
  let l := fun (s : State) => hbmLoc s pa
  let mst := fun (s : State) => locStop (l s)
  let mc := fun (s : State) => locCtl (l s)
  let line := pa / 64 * 64
  let up := fun (s : State) (st : Stop) (blk off : Nat) => rput s st blk off (BitVec.ofNat 32 (min (2 ^ 32 - 1) ((rget s st blk off).toNat + 1)))
  let run := fun (s : State) => stopKind st = .memory ∧ rbit s st (mcBlk c) BLOCK_CTL 0 = true ∧ rbit s st (mcBlk c) MC_STAT 2 = false
  let p := pcNum st c pcn.val
  let b := p * 48 + bank.val
  let owed := fun (s : State) (n : Nat) => setOwed s st c pcn.val n
  let idle := fun (s : State) (q : Nat) => closeRows s fun b => decide (b / 48 = q)
  let fails := fun (s : State) => ((mapGet (fun _ => []) s.hbm.capar (chanNum st c)).filter fun x => decide (tbNow s < x + 100000)) ++ [tbNow s]
  let failed := fun (s : State) (q : List Nat) => hbmMod (reportErr (rsetB s st (mcBlk c) MC_STAT 4 true) st (0x4003 + c.val * 0x100) tyPARITY) fun h => { h with capar := mapSet (fun _ => []) h.capar (chanNum st c) q }
  let hot := fun (s : State) (b : Bool) => (stackChans k).foldl (fun s e => rsetB s e.1 (mcBlk e.2) MC_STAT 1 b) (rput s (stkStop k) 6 STK_TEMP (BitVec.ofNat 32 (deg.toNat + 256 * b2n b)))
  let warm := fun (s : State) => rsetB s (wsStop (stkStop k).die) 4 THERM_STAT 10 ((List.finRange 6).any fun j => decide ((stkStop j).die = (stkStop k).die) && decide (rfld s (wsStop (stkStop k).die) 4 THERM_CTL 8 8 ≤ rfld s (stkStop j) 6 STK_TEMP 0 8))
  let h := laneHalf (lane / 72) (lane % 72)
  let sp := scrubOff c + SPARE_STAT
  let cxl := fun (s : State) => cxlPort s pa = some port
  let ps := portStop port
  let acc := fun (s : State) => (mcRead s (pa / 64)).1
  let issued := fun (s : State) => (mcRead s (pa / 64)).2 = true
  let read := fun (s : State) => mcCount (acc s) (mst s) (mc s) 9 1
  let next := fun (s : State) => rputF (read s) (mst s) 5 (scrubOff (mc s) + SCRUB_POS) 0 26 ((rfld (read s) (mst s) 5 (scrubOff (mc s) + SCRUB_POS) 0 26 + 1) % 50331648)
  let serves := fun (s : State) => paTarget s pa = .hbm ∧ domState s (mst s) (mc s).val = dON ∧ rbit s (mst s) (mcBlk (mc s)) BLOCK_CTL 0 = true ∧ rbit s (mst s) (mcBlk (mc s)) MC_STAT 2 = false
  let kept := fun (s : State) (u scrub : Bool) (n : Nat) => let v : Nat := 1 + (l s).pc * 2 + b2n u * 4 + n * 8 + b2n scrub * 2 ^ 10 + (l s).sid * 2 ^ 11; rput (rput (rput s (mst s) (mcBlk (mc s)) MC_ERR_INFO (BitVec.ofNat 32 v)) (mst s) (mcBlk (mc s)) MC_ERR_ADDR_LO (BitVec.ofNat 32 ((l s).so / 64 * 64))) (mst s) (mcBlk (mc s)) MC_ERR_ADDR_HI (BitVec.ofNat 32 ((l s).so / 2 ^ 32 % 8))
  let first := fun (s : State) => rbit s (mst s) (mcBlk (mc s)) MC_ERR_INFO 0 = false
  let ce := fun (s : State) => mcCount (up (acc s) (mst s) (mcBlk (mc s)) MC_CE_CNT) (mst s) (mc s) 11 1
  let wb := fun (s : State) => rbit (kept (ce s) false false 0) (mst s) (mcBlk (mc s)) MC_CTL 5
  let found := fun (s : State) => memPoison (acc s) (pa / 64) false
  let ue := fun (s : State) => kept (mcCount (up (rewriteLine (found s) (pa / 64)) (mst s) (mcBlk (mc s)) MC_UE_CNT) (mst s) (mc s) 12 1) true false 0
  let queue := fun (s : State) => mcQueue s (chanNum st c)
  let busy := fun (s : State) => anyReadOk s (queue s) p && !panicHeld s (stackOf st)
  let hits := fun (s : State) => (queue s).any fun e => decide (locBank (reqLoc s e) = b) && rowHit s e
  let sent := fun (s : State) => let s1 := slicePut s home { sliceGet s home with evb := [⟨pa / 64, true, []⟩] }; countScope s1 home 0x14 1 (some .normal)
  let out1 := fun (s : State) => meshSend (memStored (sent s) (pa / 64)) home (locStop (hbmLoc (sent s) (64 * (pa / 64))))
  let writes := fun (s : State) => (pcOf s (mcQueue s (p / 2)) p).countP (·.write)
  let s0 : State := liveSt [⟨0, 0, 0⟩, ⟨0, 1, 0⟩, portStop 2, wsStop 0]
  decide ((fun (s : State) => deg.toNat ≤ 83) ((fun (s : State) => rput s (stkStop k) 6 STK_TEMP 0x155) s0))) = true := by decide +kernel

theorem wit_HbmAndCxlEvents_7 : (
  let c : Fin 2 := 1
  let k : Fin 6 := 0
  let die : Fin 2 := 0
  let pcn : Fin 2 := 1
  let bank : Fin 48 := 7
  let ln : Fin 72 := 40
  let port : Fin 12 := 2
  let pa : Nat := 0x80
  let row : Nat := 2^21 + 5
  let lane : Nat := 72 + 40
  let deg : BitVec 8 := 86
  let out : BitVec 1024 := 0x123456789ABCDEF
  let write := true
  let home : Stop := ⟨0, 1, 2⟩
  let st : Stop := ⟨0, 0, 0⟩
  let deg : BitVec 8 := 105
  let l := fun (s : State) => hbmLoc s pa
  let mst := fun (s : State) => locStop (l s)
  let mc := fun (s : State) => locCtl (l s)
  let line := pa / 64 * 64
  let up := fun (s : State) (st : Stop) (blk off : Nat) => rput s st blk off (BitVec.ofNat 32 (min (2 ^ 32 - 1) ((rget s st blk off).toNat + 1)))
  let run := fun (s : State) => stopKind st = .memory ∧ rbit s st (mcBlk c) BLOCK_CTL 0 = true ∧ rbit s st (mcBlk c) MC_STAT 2 = false
  let p := pcNum st c pcn.val
  let b := p * 48 + bank.val
  let owed := fun (s : State) (n : Nat) => setOwed s st c pcn.val n
  let idle := fun (s : State) (q : Nat) => closeRows s fun b => decide (b / 48 = q)
  let fails := fun (s : State) => ((mapGet (fun _ => []) s.hbm.capar (chanNum st c)).filter fun x => decide (tbNow s < x + 100000)) ++ [tbNow s]
  let failed := fun (s : State) (q : List Nat) => hbmMod (reportErr (rsetB s st (mcBlk c) MC_STAT 4 true) st (0x4003 + c.val * 0x100) tyPARITY) fun h => { h with capar := mapSet (fun _ => []) h.capar (chanNum st c) q }
  let hot := fun (s : State) (b : Bool) => (stackChans k).foldl (fun s e => rsetB s e.1 (mcBlk e.2) MC_STAT 1 b) (rput s (stkStop k) 6 STK_TEMP (BitVec.ofNat 32 (deg.toNat + 256 * b2n b)))
  let warm := fun (s : State) => rsetB s (wsStop (stkStop k).die) 4 THERM_STAT 10 ((List.finRange 6).any fun j => decide ((stkStop j).die = (stkStop k).die) && decide (rfld s (wsStop (stkStop k).die) 4 THERM_CTL 8 8 ≤ rfld s (stkStop j) 6 STK_TEMP 0 8))
  let h := laneHalf (lane / 72) (lane % 72)
  let sp := scrubOff c + SPARE_STAT
  let cxl := fun (s : State) => cxlPort s pa = some port
  let ps := portStop port
  let acc := fun (s : State) => (mcRead s (pa / 64)).1
  let issued := fun (s : State) => (mcRead s (pa / 64)).2 = true
  let read := fun (s : State) => mcCount (acc s) (mst s) (mc s) 9 1
  let next := fun (s : State) => rputF (read s) (mst s) 5 (scrubOff (mc s) + SCRUB_POS) 0 26 ((rfld (read s) (mst s) 5 (scrubOff (mc s) + SCRUB_POS) 0 26 + 1) % 50331648)
  let serves := fun (s : State) => paTarget s pa = .hbm ∧ domState s (mst s) (mc s).val = dON ∧ rbit s (mst s) (mcBlk (mc s)) BLOCK_CTL 0 = true ∧ rbit s (mst s) (mcBlk (mc s)) MC_STAT 2 = false
  let kept := fun (s : State) (u scrub : Bool) (n : Nat) => let v : Nat := 1 + (l s).pc * 2 + b2n u * 4 + n * 8 + b2n scrub * 2 ^ 10 + (l s).sid * 2 ^ 11; rput (rput (rput s (mst s) (mcBlk (mc s)) MC_ERR_INFO (BitVec.ofNat 32 v)) (mst s) (mcBlk (mc s)) MC_ERR_ADDR_LO (BitVec.ofNat 32 ((l s).so / 64 * 64))) (mst s) (mcBlk (mc s)) MC_ERR_ADDR_HI (BitVec.ofNat 32 ((l s).so / 2 ^ 32 % 8))
  let first := fun (s : State) => rbit s (mst s) (mcBlk (mc s)) MC_ERR_INFO 0 = false
  let ce := fun (s : State) => mcCount (up (acc s) (mst s) (mcBlk (mc s)) MC_CE_CNT) (mst s) (mc s) 11 1
  let wb := fun (s : State) => rbit (kept (ce s) false false 0) (mst s) (mcBlk (mc s)) MC_CTL 5
  let found := fun (s : State) => memPoison (acc s) (pa / 64) false
  let ue := fun (s : State) => kept (mcCount (up (rewriteLine (found s) (pa / 64)) (mst s) (mcBlk (mc s)) MC_UE_CNT) (mst s) (mc s) 12 1) true false 0
  let queue := fun (s : State) => mcQueue s (chanNum st c)
  let busy := fun (s : State) => anyReadOk s (queue s) p && !panicHeld s (stackOf st)
  let hits := fun (s : State) => (queue s).any fun e => decide (locBank (reqLoc s e) = b) && rowHit s e
  let sent := fun (s : State) => let s1 := slicePut s home { sliceGet s home with evb := [⟨pa / 64, true, []⟩] }; countScope s1 home 0x14 1 (some .normal)
  let out1 := fun (s : State) => meshSend (memStored (sent s) (pa / 64)) home (locStop (hbmLoc (sent s) (64 * (pa / 64))))
  let writes := fun (s : State) => (pcOf s (mcQueue s (p / 2)) p).countP (·.write)
  let s0 : State := liveSt [⟨0, 0, 0⟩, ⟨0, 1, 0⟩, portStop 2, wsStop 0]
  decide ((fun (s : State) => 105 ≤ deg.toNat) ((fun (s : State) => s) s0))) = true := by decide +kernel

theorem wit_HbmAndCxlEvents_8 : (
  let c : Fin 2 := 1
  let k : Fin 6 := 0
  let die : Fin 2 := 0
  let pcn : Fin 2 := 1
  let bank : Fin 48 := 7
  let ln : Fin 72 := 40
  let port : Fin 12 := 2
  let pa : Nat := 0x80
  let row : Nat := 2^21 + 5
  let lane : Nat := 72 + 40
  let deg : BitVec 8 := 86
  let out : BitVec 1024 := 0x123456789ABCDEF
  let write := true
  let home : Stop := ⟨0, 1, 2⟩
  let st : Stop := ⟨0, 0, 0⟩
  let pa : Nat := 0x100000000080
  let l := fun (s : State) => hbmLoc s pa
  let mst := fun (s : State) => locStop (l s)
  let mc := fun (s : State) => locCtl (l s)
  let line := pa / 64 * 64
  let up := fun (s : State) (st : Stop) (blk off : Nat) => rput s st blk off (BitVec.ofNat 32 (min (2 ^ 32 - 1) ((rget s st blk off).toNat + 1)))
  let run := fun (s : State) => stopKind st = .memory ∧ rbit s st (mcBlk c) BLOCK_CTL 0 = true ∧ rbit s st (mcBlk c) MC_STAT 2 = false
  let p := pcNum st c pcn.val
  let b := p * 48 + bank.val
  let owed := fun (s : State) (n : Nat) => setOwed s st c pcn.val n
  let idle := fun (s : State) (q : Nat) => closeRows s fun b => decide (b / 48 = q)
  let fails := fun (s : State) => ((mapGet (fun _ => []) s.hbm.capar (chanNum st c)).filter fun x => decide (tbNow s < x + 100000)) ++ [tbNow s]
  let failed := fun (s : State) (q : List Nat) => hbmMod (reportErr (rsetB s st (mcBlk c) MC_STAT 4 true) st (0x4003 + c.val * 0x100) tyPARITY) fun h => { h with capar := mapSet (fun _ => []) h.capar (chanNum st c) q }
  let hot := fun (s : State) (b : Bool) => (stackChans k).foldl (fun s e => rsetB s e.1 (mcBlk e.2) MC_STAT 1 b) (rput s (stkStop k) 6 STK_TEMP (BitVec.ofNat 32 (deg.toNat + 256 * b2n b)))
  let warm := fun (s : State) => rsetB s (wsStop (stkStop k).die) 4 THERM_STAT 10 ((List.finRange 6).any fun j => decide ((stkStop j).die = (stkStop k).die) && decide (rfld s (wsStop (stkStop k).die) 4 THERM_CTL 8 8 ≤ rfld s (stkStop j) 6 STK_TEMP 0 8))
  let h := laneHalf (lane / 72) (lane % 72)
  let sp := scrubOff c + SPARE_STAT
  let cxl := fun (s : State) => cxlPort s pa = some port
  let ps := portStop port
  let acc := fun (s : State) => (mcRead s (pa / 64)).1
  let issued := fun (s : State) => (mcRead s (pa / 64)).2 = true
  let read := fun (s : State) => mcCount (acc s) (mst s) (mc s) 9 1
  let next := fun (s : State) => rputF (read s) (mst s) 5 (scrubOff (mc s) + SCRUB_POS) 0 26 ((rfld (read s) (mst s) 5 (scrubOff (mc s) + SCRUB_POS) 0 26 + 1) % 50331648)
  let serves := fun (s : State) => paTarget s pa = .hbm ∧ domState s (mst s) (mc s).val = dON ∧ rbit s (mst s) (mcBlk (mc s)) BLOCK_CTL 0 = true ∧ rbit s (mst s) (mcBlk (mc s)) MC_STAT 2 = false
  let kept := fun (s : State) (u scrub : Bool) (n : Nat) => let v : Nat := 1 + (l s).pc * 2 + b2n u * 4 + n * 8 + b2n scrub * 2 ^ 10 + (l s).sid * 2 ^ 11; rput (rput (rput s (mst s) (mcBlk (mc s)) MC_ERR_INFO (BitVec.ofNat 32 v)) (mst s) (mcBlk (mc s)) MC_ERR_ADDR_LO (BitVec.ofNat 32 ((l s).so / 64 * 64))) (mst s) (mcBlk (mc s)) MC_ERR_ADDR_HI (BitVec.ofNat 32 ((l s).so / 2 ^ 32 % 8))
  let first := fun (s : State) => rbit s (mst s) (mcBlk (mc s)) MC_ERR_INFO 0 = false
  let ce := fun (s : State) => mcCount (up (acc s) (mst s) (mcBlk (mc s)) MC_CE_CNT) (mst s) (mc s) 11 1
  let wb := fun (s : State) => rbit (kept (ce s) false false 0) (mst s) (mcBlk (mc s)) MC_CTL 5
  let found := fun (s : State) => memPoison (acc s) (pa / 64) false
  let ue := fun (s : State) => kept (mcCount (up (rewriteLine (found s) (pa / 64)) (mst s) (mcBlk (mc s)) MC_UE_CNT) (mst s) (mc s) 12 1) true false 0
  let queue := fun (s : State) => mcQueue s (chanNum st c)
  let busy := fun (s : State) => anyReadOk s (queue s) p && !panicHeld s (stackOf st)
  let hits := fun (s : State) => (queue s).any fun e => decide (locBank (reqLoc s e) = b) && rowHit s e
  let sent := fun (s : State) => let s1 := slicePut s home { sliceGet s home with evb := [⟨pa / 64, true, []⟩] }; countScope s1 home 0x14 1 (some .normal)
  let out1 := fun (s : State) => meshSend (memStored (sent s) (pa / 64)) home (locStop (hbmLoc (sent s) (64 * (pa / 64))))
  let writes := fun (s : State) => (pcOf s (mcQueue s (p / 2)) p).countP (·.write)
  let s0 : State := liveSt [⟨0, 0, 0⟩, ⟨0, 1, 0⟩, portStop 2, wsStop 0]
  decide ((fun (s : State) => cxl s) ((fun (s : State) => (fun (s : State) => s) (rput (rput (rput (rputF (memSt s) (portStop 2) 1 PORT_CAP 8 2 1) (portStop 2) 5 CXW_BASE 0x10000) (portStop 2) 5 CXW_SIZE 4) (portStop 2) 5 CXW_CTL 1)) s0)) &&
  decide ((fun (s : State) => cxl s) ((fun (s : State) => (fun (s : State) => s) (rput (rput (rput (rputF (memSt s) (portStop 2) 1 PORT_CAP 8 2 1) (portStop 2) 5 CXW_BASE 0x10000) (portStop 2) 5 CXW_SIZE 4) (portStop 2) 5 CXW_CTL 1)) s0)) &&
  decide ((fun (s : State) => cxl s) ((fun (s : State) => (fun (s : State) => s) (rput (rput (rput (rputF (memSt s) (portStop 2) 1 PORT_CAP 8 2 1) (portStop 2) 5 CXW_BASE 0x10000) (portStop 2) 5 CXW_SIZE 4) (portStop 2) 5 CXW_CTL 1)) s0))) = true := by decide +kernel

theorem wit_MeshCaravanAndMessageEvents_1 : (
  let st : Stop := ⟨0, 1, 3⟩
  let st2 : Stop := ⟨0, 1, 3⟩
  let d : Fin 4 := 0
  let die : Fin 2 := 0
  let k : Fin 4 := 1
  let port : Fin 12 := 2
  let p : Fin 4 := 1
  let kept : Fin 4 := 3
  let fec : Nat := 3
  let crc := true
  let idle := false
  let ackv := true
  let ackseq : BitVec 10 := 5
  let crvc : Fin 8 := 3
  let crn : BitVec 9 := 4
  let sz : Fin 4 := 3
  let blk : Nat := 1
  let off : Nat := 8
  let tag : Nat := 9
  let line : Nat := 0
  let n : Fin 192 := 0
  let m : NodeMsg := ⟨1, pkgLocus 1, 9, 0, 0, [], none⟩
  let who : Option Hart := some (.drover ⟨0, 1, 3⟩ 1 0)
  let h : Hart := .drover ⟨0, 1, 3⟩ 1 0
  let data : List Byte := List.replicate 64 5
  let value : Word := 77
  let at_ : Word := 900
  let dw : Word := 0x123456789
  let seq : BitVec 10 := 5
  let pa : Nat := 0x100000
  let way : Nat := 3
  let w : World := .normal
  let lv : Level := .s
  let e : NetLink := .mesh ⟨0, 1, 3⟩ 0
  let b : Bcast := ⟨4, none, 2 ^ 32 + 9, ⟨2, 0, 5, 0, 0, 48⟩, [7, 9]⟩
  let cfg : Nat := rkey (wsStop 0) 13 TB_CTL
  let map : BitVec 4 := 4
  let on : Hart := .outrider 3
  let ms := NetLink.mesh st d
  let fd := NetLink.ford die k
  let ps := portStop port
  let cv := fun (s : State) => portProto s port.val = 2 ∧ cvState s port = 2
  let up := fun (s : State) (st : Stop) (blk off : Nat) => rput s st blk off (BitVec.ofNat 32 (min (2 ^ 32 - 1) ((rget s st blk off).toNat + 1)))
  let wait := fun (s : State) (op : Nat) => waitingFor s p.val tag = some (m, who) ∧ m.op = op
  let other := fun (s : State) => p.val ≠ pkgNum s
  let was := fun (s : State) => unwait s p.val tag
  let lc := fun (s : State) => cvGet s port.val
  let fecd := fun (s : State) => rput s ps cvBlk CV_FEC_CNT (BitVec.ofNat 32 (min (2 ^ 32 - 1) ((rget s ps cvBlk CV_FEC_CNT).toNat + fec)))
  let credited := fun (s : State) => cvPut (fecd s) port.val { lc (fecd s) with used := mapSet (fun _ => 0) (lc (fecd s)).used crvc.val (mapGet (fun _ => 0) (lc (fecd s)).used crvc.val - crn.toNat) }
  let came := fun (s : State) => if ackv then cvAcked (credited s) port ackseq.toNat else pump (credited s)
  let taken := fun (s : State) => cvPut (came s) port.val { lc (came s) with rx := seq.toNat, nak := false, unacked := (lc (came s)).unacked + 1 }
  let reg := pkgInit lv w
  let adm := fun (s : State) => regPlace s (pkgNum s * 2 ^ 30 + rkey st blk off) = some (st, blk, off) ∧ pathFails s st = false ∧ regRefuse s w st blk off = .no ∧ stopPowered s st = true ∧ (accDomain s st blk off = 15 ∨ domState s st (accDomain s st blk off) = dON) ∧ blockHeld s (pkgNum s * 2 ^ 30 + rkey st blk off) = false
  let drop := fun (s : State) => { s with link := { s.link with waiting := s.link.waiting.filter fun m => !(lostFor s h pa).contains m } }
  let src := noRouteSource h
  let msg : InvMsg := ⟨2, 0, 5, 0, 0, 48⟩
  let s0 : State := liveSt [⟨0, 1, 0⟩, ⟨0, 1, 3⟩, portStop 2, wsStop 0]
  decide ((fun (s : State) => linkState s ms < 2) ((fun (s : State) => s) s0)) &&
  decide ((fun (s : State) => linkState s ms < 2 ∧ linkFails (countReplay s ms) ms < 7) ((fun (s : State) => s) s0)) &&
  decide ((fun (s : State) => linkState s e < 2 ∧ 7 ≤ linkFails (countReplay s e) e) ((fun (s : State) => setLinkFails s e 7) s0)) &&
  decide ((fun (s : State) => linkState s fd < 2) ((fun (s : State) => setLinkState s fd 1) s0)) &&
  decide ((fun (s : State) => 2 ≤ linkState s e) ((fun (s : State) => setLinkState s e 2) s0)) &&
  decide ((fun (s : State) => linkState s (.mesh st d) = 2) ((fun (s : State) => setLinkState s ms 2) s0)) &&
  decide ((fun (s : State) => ∀ d, linkState s (.mesh st d) ≠ 2) ((fun (s : State) => s) s0)) &&
  decide ((fun (s : State) => setHas s.link.training (trainKey ms) = true) ((fun (s : State) => reviveLink (setLinkState s ms 2) ms) s0)) &&
  decide ((fun (s : State) => setHas s.link.training (trainKey ms) = true) ((fun (s : State) => reviveLink (setLinkState s ms 2) ms) s0)) &&
  decide ((fun (s : State) => setHas s.link.training (trainKey fd) = true) ((fun (s : State) => reviveLink (setLinkState s fd 2) fd) s0)) &&
  decide ((fun (s : State) => setHas s.link.training (trainKey e) = false) ((fun (s : State) => s) s0)) &&
  decide ((fun (s : State) => portProto s port.val = 2 ∧ (cvState s port = 1 ∨ cvState s port = 3)) ((fun (s : State) => (fun (s : State) => s) (rputF (rputF (rputF (memSt s) (portStop 2) 1 PORT_CAP 8 2 2) (portStop 2) cvBlk CV_STAT 0 3 3) (portStop 2) cvBlk CV_CTL 0 2 1)) s0))) = true := by decide +kernel

theorem wit_MeshCaravanAndMessageEvents_2 : (
  let st : Stop := ⟨0, 1, 3⟩
  let st2 : Stop := ⟨0, 1, 3⟩
  let d : Fin 4 := 0
  let die : Fin 2 := 0
  let k : Fin 4 := 1
  let port : Fin 12 := 2
  let p : Fin 4 := 1
  let kept : Fin 4 := 3
  let fec : Nat := 3
  let crc := true
  let idle := false
  let ackv := true
  let ackseq : BitVec 10 := 5
  let crvc : Fin 8 := 3
  let crn : BitVec 9 := 4
  let sz : Fin 4 := 3
  let blk : Nat := 1
  let off : Nat := 8
  let tag : Nat := 9
  let line : Nat := 0
  let n : Fin 192 := 0
  let m : NodeMsg := ⟨1, pkgLocus 1, 9, 0, 0, [], none⟩
  let who : Option Hart := some (.drover ⟨0, 1, 3⟩ 1 0)
  let h : Hart := .drover ⟨0, 1, 3⟩ 1 0
  let data : List Byte := List.replicate 64 5
  let value : Word := 77
  let at_ : Word := 900
  let dw : Word := 0x123456789
  let seq : BitVec 10 := 5
  let pa : Nat := 0x100000
  let way : Nat := 3
  let w : World := .normal
  let lv : Level := .s
  let e : NetLink := .mesh ⟨0, 1, 3⟩ 0
  let b : Bcast := ⟨4, none, 2 ^ 32 + 9, ⟨2, 0, 5, 0, 0, 48⟩, [7, 9]⟩
  let cfg : Nat := rkey (wsStop 0) 13 TB_CTL
  let map : BitVec 4 := 4
  let on : Hart := .outrider 3
  let ms := NetLink.mesh st d
  let fd := NetLink.ford die k
  let ps := portStop port
  let cv := fun (s : State) => portProto s port.val = 2 ∧ cvState s port = 2
  let up := fun (s : State) (st : Stop) (blk off : Nat) => rput s st blk off (BitVec.ofNat 32 (min (2 ^ 32 - 1) ((rget s st blk off).toNat + 1)))
  let wait := fun (s : State) (op : Nat) => waitingFor s p.val tag = some (m, who) ∧ m.op = op
  let other := fun (s : State) => p.val ≠ pkgNum s
  let was := fun (s : State) => unwait s p.val tag
  let lc := fun (s : State) => cvGet s port.val
  let fecd := fun (s : State) => rput s ps cvBlk CV_FEC_CNT (BitVec.ofNat 32 (min (2 ^ 32 - 1) ((rget s ps cvBlk CV_FEC_CNT).toNat + fec)))
  let credited := fun (s : State) => cvPut (fecd s) port.val { lc (fecd s) with used := mapSet (fun _ => 0) (lc (fecd s)).used crvc.val (mapGet (fun _ => 0) (lc (fecd s)).used crvc.val - crn.toNat) }
  let came := fun (s : State) => if ackv then cvAcked (credited s) port ackseq.toNat else pump (credited s)
  let taken := fun (s : State) => cvPut (came s) port.val { lc (came s) with rx := seq.toNat, nak := false, unacked := (lc (came s)).unacked + 1 }
  let reg := pkgInit lv w
  let adm := fun (s : State) => regPlace s (pkgNum s * 2 ^ 30 + rkey st blk off) = some (st, blk, off) ∧ pathFails s st = false ∧ regRefuse s w st blk off = .no ∧ stopPowered s st = true ∧ (accDomain s st blk off = 15 ∨ domState s st (accDomain s st blk off) = dON) ∧ blockHeld s (pkgNum s * 2 ^ 30 + rkey st blk off) = false
  let drop := fun (s : State) => { s with link := { s.link with waiting := s.link.waiting.filter fun m => !(lostFor s h pa).contains m } }
  let src := noRouteSource h
  let msg : InvMsg := ⟨2, 0, 5, 0, 0, 48⟩
  let s0 : State := liveSt [⟨0, 1, 0⟩, ⟨0, 1, 3⟩, portStop 2, wsStop 0]
  decide ((fun (s : State) => portProto s port.val ≠ 2 ∨ (cvState s port ≠ 1 ∧ cvState s port ≠ 3)) ((fun (s : State) => (fun (s : State) => s) (rputF (rputF (rputF (memSt s) (portStop 2) 1 PORT_CAP 8 2 2) (portStop 2) cvBlk CV_STAT 0 3 2) (portStop 2) cvBlk CV_CTL 0 2 1)) s0)) &&
  decide ((fun (s : State) => portProto s port.val = 2 ∧ cvState s port = 1 ∧ p.val = cvPartner s port ∧ p.val ≠ pkgNum s) ((fun (s : State) => (fun (s : State) => s) (rputF (rputF (rputF (memSt s) (portStop 2) 1 PORT_CAP 8 2 2) (portStop 2) cvBlk CV_STAT 0 3 1) (portStop 2) cvBlk CV_CTL 0 2 1)) s0)) &&
  decide ((fun (s : State) => cvState s port ≠ 1) ((fun (s : State) => (fun (s : State) => s) (rputF (rputF (rputF (memSt s) (portStop 2) 1 PORT_CAP 8 2 2) (portStop 2) cvBlk CV_STAT 0 3 2) (portStop 2) cvBlk CV_CTL 0 2 1)) s0)) &&
  decide ((fun (s : State) => ¬ cv s ∨ pkgNum s = 0) ((fun (s : State) => (fun (s : State) => s) (rputF (rputF (rputF (memSt s) (portStop 2) 1 PORT_CAP 8 2 2) (portStop 2) cvBlk CV_STAT 0 3 2) (portStop 2) cvBlk CV_CTL 0 2 1)) s0)) &&
  decide ((fun (s : State) => cv s) ((fun (s : State) => (fun (s : State) => s) (rputF (rputF (rputF (memSt s) (portStop 2) 1 PORT_CAP 8 2 2) (portStop 2) cvBlk CV_STAT 0 3 2) (portStop 2) cvBlk CV_CTL 0 2 1)) s0)) &&
  decide ((fun (s : State) => cv s ∧ (lc (up (fecd s) ps cvBlk CV_CRC_CNT)).nak = false) ((fun (s : State) => (fun (s : State) => s) (rputF (rputF (rputF (memSt s) (portStop 2) 1 PORT_CAP 8 2 2) (portStop 2) cvBlk CV_STAT 0 3 2) (portStop 2) cvBlk CV_CTL 0 2 1)) s0)) &&
  decide ((fun (s : State) => cv s ∧ (lc (up (fecd s) ps cvBlk CV_CRC_CNT)).nak = true) ((fun (s : State) => (fun (s : State) => cvPut s 2 { cvGet s 2 with nak := true }) (rputF (rputF (rputF (memSt s) (portStop 2) 1 PORT_CAP 8 2 2) (portStop 2) cvBlk CV_STAT 0 3 2) (portStop 2) cvBlk CV_CTL 0 2 1)) s0)) &&
  decide ((fun (s : State) => cv s) ((fun (s : State) => (fun (s : State) => cvPut s 2 { cvGet s 2 with used := [(3, 60)], buf := [5, 6] }) (rputF (rputF (rputF (memSt s) (portStop 2) 1 PORT_CAP 8 2 2) (portStop 2) cvBlk CV_STAT 0 3 2) (portStop 2) cvBlk CV_CTL 0 2 1)) s0)) &&
  decide ((fun (s : State) => cv s ∧ seq.toNat ≠ ((lc (came s)).rx + 1) % 1024) ((fun (s : State) => (fun (s : State) => cvPut s 2 { cvGet s 2 with rx := 9 }) (rputF (rputF (rputF (memSt s) (portStop 2) 1 PORT_CAP 8 2 2) (portStop 2) cvBlk CV_STAT 0 3 2) (portStop 2) cvBlk CV_CTL 0 2 1)) s0)) &&
  decide ((fun (s : State) => cv s ∧ seq.toNat = ((lc (came s)).rx + 1) % 1024 ∧ (lc (came s)).unacked + 1 < 64) ((fun (s : State) => (fun (s : State) => cvPut s 2 { cvGet s 2 with rx := 4, buf := [5, 7], used := [(3, 9)] }) (rputF (rputF (rputF (memSt s) (portStop 2) 1 PORT_CAP 8 2 2) (portStop 2) cvBlk CV_STAT 0 3 2) (portStop 2) cvBlk CV_CTL 0 2 1)) s0)) &&
  decide ((fun (s : State) => cv s ∧ seq.toNat = ((lc (came s)).rx + 1) % 1024 ∧ 64 ≤ (lc (came s)).unacked + 1) ((fun (s : State) => (fun (s : State) => cvPut s 2 { cvGet s 2 with rx := 4, unacked := 63 }) (rputF (rputF (rputF (memSt s) (portStop 2) 1 PORT_CAP 8 2 2) (portStop 2) cvBlk CV_STAT 0 3 2) (portStop 2) cvBlk CV_CTL 0 2 1)) s0)) &&
  decide ((fun (s : State) => ¬ cv s) ((fun (s : State) => s) s0))) = true := by decide +kernel

theorem wit_MeshCaravanAndMessageEvents_3 : (
  let st : Stop := ⟨0, 1, 3⟩
  let st2 : Stop := ⟨0, 1, 3⟩
  let d : Fin 4 := 0
  let die : Fin 2 := 0
  let k : Fin 4 := 1
  let port : Fin 12 := 2
  let p : Fin 4 := 1
  let kept : Fin 4 := 3
  let fec : Nat := 3
  let crc := true
  let idle := false
  let ackv := true
  let ackseq : BitVec 10 := 5
  let crvc : Fin 8 := 3
  let crn : BitVec 9 := 4
  let sz : Fin 4 := 3
  let blk : Nat := 1
  let off : Nat := 8
  let tag : Nat := 9
  let line : Nat := 0
  let n : Fin 192 := 0
  let m : NodeMsg := ⟨1, pkgLocus 1, 9, 0, 0, [], none⟩
  let who : Option Hart := some (.drover ⟨0, 1, 3⟩ 1 0)
  let h : Hart := .drover ⟨0, 1, 3⟩ 1 0
  let data : List Byte := List.replicate 64 5
  let value : Word := 77
  let at_ : Word := 900
  let dw : Word := 0x123456789
  let seq : BitVec 10 := 5
  let pa : Nat := 0x100000
  let way : Nat := 3
  let w : World := .normal
  let lv : Level := .s
  let e : NetLink := .mesh ⟨0, 1, 3⟩ 0
  let b : Bcast := ⟨4, none, 2 ^ 32 + 9, ⟨2, 0, 5, 0, 0, 48⟩, [7, 9]⟩
  let cfg : Nat := rkey (wsStop 0) 13 TB_CTL
  let map : BitVec 4 := 4
  let on : Hart := .outrider 3
  let ms := NetLink.mesh st d
  let fd := NetLink.ford die k
  let ps := portStop port
  let cv := fun (s : State) => portProto s port.val = 2 ∧ cvState s port = 2
  let up := fun (s : State) (st : Stop) (blk off : Nat) => rput s st blk off (BitVec.ofNat 32 (min (2 ^ 32 - 1) ((rget s st blk off).toNat + 1)))
  let wait := fun (s : State) (op : Nat) => waitingFor s p.val tag = some (m, who) ∧ m.op = op
  let other := fun (s : State) => p.val ≠ pkgNum s
  let was := fun (s : State) => unwait s p.val tag
  let lc := fun (s : State) => cvGet s port.val
  let fecd := fun (s : State) => rput s ps cvBlk CV_FEC_CNT (BitVec.ofNat 32 (min (2 ^ 32 - 1) ((rget s ps cvBlk CV_FEC_CNT).toNat + fec)))
  let credited := fun (s : State) => cvPut (fecd s) port.val { lc (fecd s) with used := mapSet (fun _ => 0) (lc (fecd s)).used crvc.val (mapGet (fun _ => 0) (lc (fecd s)).used crvc.val - crn.toNat) }
  let came := fun (s : State) => if ackv then cvAcked (credited s) port ackseq.toNat else pump (credited s)
  let taken := fun (s : State) => cvPut (came s) port.val { lc (came s) with rx := seq.toNat, nak := false, unacked := (lc (came s)).unacked + 1 }
  let reg := pkgInit lv w
  let adm := fun (s : State) => regPlace s (pkgNum s * 2 ^ 30 + rkey st blk off) = some (st, blk, off) ∧ pathFails s st = false ∧ regRefuse s w st blk off = .no ∧ stopPowered s st = true ∧ (accDomain s st blk off = 15 ∨ domState s st (accDomain s st blk off) = dON) ∧ blockHeld s (pkgNum s * 2 ^ 30 + rkey st blk off) = false
  let drop := fun (s : State) => { s with link := { s.link with waiting := s.link.waiting.filter fun m => !(lostFor s h pa).contains m } }
  let src := noRouteSource h
  let msg : InvMsg := ⟨2, 0, 5, 0, 0, 48⟩
  let s0 : State := liveSt [⟨0, 1, 0⟩, ⟨0, 1, 3⟩, portStop 2, wsStop 0]
  decide ((fun (s : State) => cv s ∧ (lc s).buf = [] ∧ (let s2 := up s ps cvBlk CV_REPLAY_CNT; (lc s2).lastNak ≠ some seq.toNat)) ((fun (s : State) => (fun (s : State) => s) (rputF (rputF (rputF (memSt s) (portStop 2) 1 PORT_CAP 8 2 2) (portStop 2) cvBlk CV_STAT 0 3 2) (portStop 2) cvBlk CV_CTL 0 2 1)) s0)) &&
  decide ((fun (s : State) => cv s ∧ (lc s).buf = [] ∧ (let s2 := up s ps cvBlk CV_REPLAY_CNT; (lc s2).lastNak = some seq.toNat ∧ (lc s2).fails = 7)) ((fun (s : State) => (fun (s : State) => cvPut s 2 { cvGet s 2 with lastNak := some 5, fails := 7 }) (rputF (rputF (rputF (memSt s) (portStop 2) 1 PORT_CAP 8 2 2) (portStop 2) cvBlk CV_STAT 0 3 2) (portStop 2) cvBlk CV_CTL 0 2 1)) s0)) &&
  decide ((fun (s : State) => cv s) ((fun (s : State) => (fun (s : State) => s) (rputF (rputF (rputF (memSt s) (portStop 2) 1 PORT_CAP 8 2 2) (portStop 2) cvBlk CV_STAT 0 3 2) (portStop 2) cvBlk CV_CTL 0 2 1)) s0)) &&
  decide ((fun (s : State) => ¬ cv s) ((fun (s : State) => s) s0)) &&
  decide ((fun (s : State) => snoopWaits s line = false ∧ l2Find s n.val line = some (way, l2M)) ((fun (s : State) => l2Put s 0 0 3 l2M) s0)) &&
  decide ((fun (s : State) => snoopWaits s line = false ∧ l2Find s n.val line = some (way, l2E)) ((fun (s : State) => l2Put s 0 0 3 l2E) s0)) &&
  decide ((fun (s : State) => snoopWaits s line = false ∧ l2Find s n.val line = some (way, l2S)) ((fun (s : State) => l2Put (memSt s) 0 0 3 l2S) s0)) &&
  decide ((fun (s : State) => snoopWaits s line = true) ((fun (s : State) => { s with lock := { s.lock with pins := [(3, 0)] } }) s0)) &&
  decide ((fun (s : State) => snoopWaits s line = false ∧ s.link.held = [(line, 2)]) ((fun (s : State) => { s with link := { s.link with held := [(0, 2)] } }) s0)) &&
  decide ((fun (s : State) => snoopWaits s line = false ∧ s.link.held = [(line, 2)]) ((fun (s : State) => { s with link := { s.link with held := [(0, 2)] } }) s0)) &&
  decide ((fun (s : State) => snoopWaits s line = false ∧ s.link.held = []) ((fun (s : State) => s) s0)) &&
  decide ((fun (s : State) => on = .outrider 3) ((fun (s : State) => orPut s 2 { orGet s 2 with lc := [(4, some (0, false))] }) s0))) = true := by decide +kernel

theorem wit_MeshCaravanAndMessageEvents_4 : (
  let st : Stop := ⟨0, 1, 3⟩
  let st2 : Stop := ⟨0, 1, 3⟩
  let d : Fin 4 := 0
  let die : Fin 2 := 0
  let k : Fin 4 := 1
  let port : Fin 12 := 2
  let p : Fin 4 := 1
  let kept : Fin 4 := 3
  let fec : Nat := 3
  let crc := true
  let idle := false
  let ackv := true
  let ackseq : BitVec 10 := 5
  let crvc : Fin 8 := 3
  let crn : BitVec 9 := 4
  let sz : Fin 4 := 3
  let blk : Nat := 1
  let off : Nat := 8
  let tag : Nat := 9
  let line : Nat := 0
  let n : Fin 192 := 0
  let m : NodeMsg := ⟨1, pkgLocus 1, 9, 0, 0, [], none⟩
  let who : Option Hart := some (.drover ⟨0, 1, 3⟩ 1 0)
  let h : Hart := .drover ⟨0, 1, 3⟩ 1 0
  let data : List Byte := List.replicate 64 5
  let value : Word := 77
  let at_ : Word := 900
  let dw : Word := 0x123456789
  let seq : BitVec 10 := 5
  let pa : Nat := 0x100000
  let way : Nat := 3
  let w : World := .normal
  let lv : Level := .s
  let e : NetLink := .mesh ⟨0, 1, 3⟩ 0
  let b : Bcast := ⟨4, none, 2 ^ 32 + 9, ⟨2, 0, 5, 0, 0, 48⟩, [7, 9]⟩
  let cfg : Nat := rkey (wsStop 0) 13 TB_CTL
  let map : BitVec 4 := 4
  let on : Hart := .outrider 3
  let ms := NetLink.mesh st d
  let fd := NetLink.ford die k
  let ps := portStop port
  let cv := fun (s : State) => portProto s port.val = 2 ∧ cvState s port = 2
  let up := fun (s : State) (st : Stop) (blk off : Nat) => rput s st blk off (BitVec.ofNat 32 (min (2 ^ 32 - 1) ((rget s st blk off).toNat + 1)))
  let wait := fun (s : State) (op : Nat) => waitingFor s p.val tag = some (m, who) ∧ m.op = op
  let other := fun (s : State) => p.val ≠ pkgNum s
  let was := fun (s : State) => unwait s p.val tag
  let lc := fun (s : State) => cvGet s port.val
  let fecd := fun (s : State) => rput s ps cvBlk CV_FEC_CNT (BitVec.ofNat 32 (min (2 ^ 32 - 1) ((rget s ps cvBlk CV_FEC_CNT).toNat + fec)))
  let credited := fun (s : State) => cvPut (fecd s) port.val { lc (fecd s) with used := mapSet (fun _ => 0) (lc (fecd s)).used crvc.val (mapGet (fun _ => 0) (lc (fecd s)).used crvc.val - crn.toNat) }
  let came := fun (s : State) => if ackv then cvAcked (credited s) port ackseq.toNat else pump (credited s)
  let taken := fun (s : State) => cvPut (came s) port.val { lc (came s) with rx := seq.toNat, nak := false, unacked := (lc (came s)).unacked + 1 }
  let reg := pkgInit lv w
  let adm := fun (s : State) => regPlace s (pkgNum s * 2 ^ 30 + rkey st blk off) = some (st, blk, off) ∧ pathFails s st = false ∧ regRefuse s w st blk off = .no ∧ stopPowered s st = true ∧ (accDomain s st blk off = 15 ∨ domState s st (accDomain s st blk off) = dON) ∧ blockHeld s (pkgNum s * 2 ^ 30 + rkey st blk off) = false
  let drop := fun (s : State) => { s with link := { s.link with waiting := s.link.waiting.filter fun m => !(lostFor s h pa).contains m } }
  let src := noRouteSource h
  let msg : InvMsg := ⟨2, 0, 5, 0, 0, 48⟩
  let s0 : State := liveSt [⟨0, 1, 0⟩, ⟨0, 1, 3⟩, portStop 2, wsStop 0]
  decide ((fun (s : State) => (tget s h).park = none ∧ lostFor s h pa ≠ []) ((fun (s : State) => { s with link := { s.link with waiting := [((⟨1, pkgLocus 1, 9, 0x100000, 0, [], none⟩ : NodeMsg), some h)] } }) s0)) &&
  decide ((fun (s : State) => (tget s h).park = none ∧ lostFor s h pa = []) ((fun (s : State) => s) s0)) &&
  decide ((fun (s : State) => s.cpu.bcasts = []) ((fun (s : State) => s) s0)) &&
  decide ((fun (s : State) => other s ∧ invPlaces s none ≠ []) ((fun (s : State) => memSt s) s0)) &&
  decide ((fun (s : State) => cv s ∧ pkgNum s ≠ 0 ∧ (1 : Nat) ≠ 0 ∧ (relayedFrom0 s).isEmpty = true) ((fun (s : State) => (let s := rputF (rputF (rputF (memSt s) (portStop 2) 1 PORT_CAP 8 2 2) (portStop 2) cvBlk CV_STAT 0 3 2) (portStop 2) cvBlk CV_CTL 0 2 1; rputF (rputF s (wsStop 0) 3 STRAP 0 2 2) (wsStop 0) 3 PKG_TOPO 0 2 2)) s0)) &&
  decide ((fun (s : State) => s.cpu.bcasts = [b] ∧ b.left = [7, 9] ∧ domState s st2 1 = dOFF ∧ (st2 : Stop) = ⟨0, 1, 3⟩) ((fun (s : State) => setDom { s with cpu := { s.cpu with bcasts := [b] } } ⟨0, 1, 3⟩ 1 0) s0))) = true := by decide +kernel

theorem wit_MeshCaravanAndMessageEvents_5 : (
  let st : Stop := ⟨0, 1, 3⟩
  let st2 : Stop := ⟨0, 1, 3⟩
  let d : Fin 4 := 0
  let die : Fin 2 := 0
  let k : Fin 4 := 1
  let port : Fin 12 := 2
  let p : Fin 4 := 1
  let kept : Fin 4 := 3
  let fec : Nat := 3
  let crc := true
  let idle := false
  let ackv := true
  let ackseq : BitVec 10 := 5
  let crvc : Fin 8 := 3
  let crn : BitVec 9 := 4
  let sz : Fin 4 := 3
  let blk : Nat := 1
  let off : Nat := 8
  let tag : Nat := 9
  let line : Nat := 0
  let n : Fin 192 := 0
  let m : NodeMsg := ⟨1, pkgLocus 1, 9, 0, 0, [], none⟩
  let who : Option Hart := some (.drover ⟨0, 1, 3⟩ 1 0)
  let h : Hart := .drover ⟨0, 1, 3⟩ 1 0
  let data : List Byte := List.replicate 64 5
  let value : Word := 77
  let at_ : Word := 900
  let dw : Word := 0x123456789
  let seq : BitVec 10 := 5
  let pa : Nat := 0x100000
  let way : Nat := 3
  let w : World := .normal
  let lv : Level := .s
  let e : NetLink := .mesh ⟨0, 1, 3⟩ 0
  let b : Bcast := ⟨4, none, 2 ^ 32 + 9, ⟨2, 0, 5, 0, 0, 48⟩, [7, 9]⟩
  let cfg : Nat := rkey (wsStop 0) 13 TB_CTL
  let map : BitVec 4 := 4
  let on : Hart := .outrider 3
  let p : Fin 4 := 0
  let ms := NetLink.mesh st d
  let fd := NetLink.ford die k
  let ps := portStop port
  let cv := fun (s : State) => portProto s port.val = 2 ∧ cvState s port = 2
  let up := fun (s : State) (st : Stop) (blk off : Nat) => rput s st blk off (BitVec.ofNat 32 (min (2 ^ 32 - 1) ((rget s st blk off).toNat + 1)))
  let wait := fun (s : State) (op : Nat) => waitingFor s p.val tag = some (m, who) ∧ m.op = op
  let other := fun (s : State) => p.val ≠ pkgNum s
  let was := fun (s : State) => unwait s p.val tag
  let lc := fun (s : State) => cvGet s port.val
  let fecd := fun (s : State) => rput s ps cvBlk CV_FEC_CNT (BitVec.ofNat 32 (min (2 ^ 32 - 1) ((rget s ps cvBlk CV_FEC_CNT).toNat + fec)))
  let credited := fun (s : State) => cvPut (fecd s) port.val { lc (fecd s) with used := mapSet (fun _ => 0) (lc (fecd s)).used crvc.val (mapGet (fun _ => 0) (lc (fecd s)).used crvc.val - crn.toNat) }
  let came := fun (s : State) => if ackv then cvAcked (credited s) port ackseq.toNat else pump (credited s)
  let taken := fun (s : State) => cvPut (came s) port.val { lc (came s) with rx := seq.toNat, nak := false, unacked := (lc (came s)).unacked + 1 }
  let reg := pkgInit lv w
  let adm := fun (s : State) => regPlace s (pkgNum s * 2 ^ 30 + rkey st blk off) = some (st, blk, off) ∧ pathFails s st = false ∧ regRefuse s w st blk off = .no ∧ stopPowered s st = true ∧ (accDomain s st blk off = 15 ∨ domState s st (accDomain s st blk off) = dON) ∧ blockHeld s (pkgNum s * 2 ^ 30 + rkey st blk off) = false
  let drop := fun (s : State) => { s with link := { s.link with waiting := s.link.waiting.filter fun m => !(lostFor s h pa).contains m } }
  let src := noRouteSource h
  let msg : InvMsg := ⟨2, 0, 5, 0, 0, 48⟩
  let s0 : State := liveSt [⟨0, 1, 0⟩, ⟨0, 1, 3⟩, portStop 2, wsStop 0]
  decide ((fun (s : State) => portProto s port.val = 2 ∧ cvState s port = 1 ∧ p.val = pkgNum s) ((fun (s : State) => (fun (s : State) => s) (rputF (rputF (rputF (memSt s) (portStop 2) 1 PORT_CAP 8 2 2) (portStop 2) cvBlk CV_STAT 0 3 1) (portStop 2) cvBlk CV_CTL 0 2 1)) s0))) = true := by decide +kernel

theorem wit_MeshCaravanAndMessageEvents_6 : (
  let st : Stop := ⟨0, 1, 3⟩
  let st2 : Stop := ⟨0, 1, 3⟩
  let d : Fin 4 := 0
  let die : Fin 2 := 0
  let k : Fin 4 := 1
  let port : Fin 12 := 2
  let p : Fin 4 := 1
  let kept : Fin 4 := 3
  let fec : Nat := 3
  let crc := true
  let idle := false
  let ackv := true
  let ackseq : BitVec 10 := 5
  let crvc : Fin 8 := 3
  let crn : BitVec 9 := 4
  let sz : Fin 4 := 3
  let blk : Nat := 1
  let off : Nat := 8
  let tag : Nat := 9
  let line : Nat := 0
  let n : Fin 192 := 0
  let m : NodeMsg := ⟨1, pkgLocus 1, 9, 0, 0, [], none⟩
  let who : Option Hart := some (.drover ⟨0, 1, 3⟩ 1 0)
  let h : Hart := .drover ⟨0, 1, 3⟩ 1 0
  let data : List Byte := List.replicate 64 5
  let value : Word := 77
  let at_ : Word := 900
  let dw : Word := 0x123456789
  let seq : BitVec 10 := 5
  let pa : Nat := 0x100000
  let way : Nat := 3
  let w : World := .normal
  let lv : Level := .s
  let e : NetLink := .mesh ⟨0, 1, 3⟩ 0
  let b : Bcast := ⟨4, none, 2 ^ 32 + 9, ⟨2, 0, 5, 0, 0, 48⟩, [7, 9]⟩
  let cfg : Nat := rkey (wsStop 0) 13 TB_CTL
  let map : BitVec 4 := 4
  let on : Hart := .outrider 3
  let m : NodeMsg := ⟨0x20, pkgLocus 1, 9, 0, 0, [], none⟩
  let who : Option Hart := some (.drover ⟨0, 1, 3⟩ 1 0)
  let ms := NetLink.mesh st d
  let fd := NetLink.ford die k
  let ps := portStop port
  let cv := fun (s : State) => portProto s port.val = 2 ∧ cvState s port = 2
  let up := fun (s : State) (st : Stop) (blk off : Nat) => rput s st blk off (BitVec.ofNat 32 (min (2 ^ 32 - 1) ((rget s st blk off).toNat + 1)))
  let wait := fun (s : State) (op : Nat) => waitingFor s p.val tag = some (m, who) ∧ m.op = op
  let other := fun (s : State) => p.val ≠ pkgNum s
  let was := fun (s : State) => unwait s p.val tag
  let lc := fun (s : State) => cvGet s port.val
  let fecd := fun (s : State) => rput s ps cvBlk CV_FEC_CNT (BitVec.ofNat 32 (min (2 ^ 32 - 1) ((rget s ps cvBlk CV_FEC_CNT).toNat + fec)))
  let credited := fun (s : State) => cvPut (fecd s) port.val { lc (fecd s) with used := mapSet (fun _ => 0) (lc (fecd s)).used crvc.val (mapGet (fun _ => 0) (lc (fecd s)).used crvc.val - crn.toNat) }
  let came := fun (s : State) => if ackv then cvAcked (credited s) port ackseq.toNat else pump (credited s)
  let taken := fun (s : State) => cvPut (came s) port.val { lc (came s) with rx := seq.toNat, nak := false, unacked := (lc (came s)).unacked + 1 }
  let reg := pkgInit lv w
  let adm := fun (s : State) => regPlace s (pkgNum s * 2 ^ 30 + rkey st blk off) = some (st, blk, off) ∧ pathFails s st = false ∧ regRefuse s w st blk off = .no ∧ stopPowered s st = true ∧ (accDomain s st blk off = 15 ∨ domState s st (accDomain s st blk off) = dON) ∧ blockHeld s (pkgNum s * 2 ^ 30 + rkey st blk off) = false
  let drop := fun (s : State) => { s with link := { s.link with waiting := s.link.waiting.filter fun m => !(lostFor s h pa).contains m } }
  let src := noRouteSource h
  let msg : InvMsg := ⟨2, 0, 5, 0, 0, 48⟩
  let s0 : State := liveSt [⟨0, 1, 0⟩, ⟨0, 1, 3⟩, portStop 2, wsStop 0]
  decide ((fun (s : State) => wait s 0x20 ∧ data.length = 64) ((fun (s : State) => (fun (s : State) => s) { memSt s with link := { (memSt s).link with waiting := [((⟨0x20, pkgLocus 1, 9, 0, 0, [], none⟩ : NodeMsg), some (.drover ⟨0, 1, 3⟩ 1 0))] } }) s0)) &&
  decide ((fun (s : State) => wait s 0x20) ((fun (s : State) => (fun (s : State) => s) { memSt s with link := { (memSt s).link with waiting := [((⟨0x20, pkgLocus 1, 9, 0, 0, [], none⟩ : NodeMsg), some (.drover ⟨0, 1, 3⟩ 1 0))] } }) s0))) = true := by decide +kernel

theorem wit_MeshCaravanAndMessageEvents_7 : (
  let st : Stop := ⟨0, 1, 3⟩
  let st2 : Stop := ⟨0, 1, 3⟩
  let d : Fin 4 := 0
  let die : Fin 2 := 0
  let k : Fin 4 := 1
  let port : Fin 12 := 2
  let p : Fin 4 := 1
  let kept : Fin 4 := 3
  let fec : Nat := 3
  let crc := true
  let idle := false
  let ackv := true
  let ackseq : BitVec 10 := 5
  let crvc : Fin 8 := 3
  let crn : BitVec 9 := 4
  let sz : Fin 4 := 3
  let blk : Nat := 1
  let off : Nat := 8
  let tag : Nat := 9
  let line : Nat := 0
  let n : Fin 192 := 0
  let m : NodeMsg := ⟨1, pkgLocus 1, 9, 0, 0, [], none⟩
  let who : Option Hart := some (.drover ⟨0, 1, 3⟩ 1 0)
  let h : Hart := .drover ⟨0, 1, 3⟩ 1 0
  let data : List Byte := List.replicate 64 5
  let value : Word := 77
  let at_ : Word := 900
  let dw : Word := 0x123456789
  let seq : BitVec 10 := 5
  let pa : Nat := 0x100000
  let way : Nat := 3
  let w : World := .normal
  let lv : Level := .s
  let e : NetLink := .mesh ⟨0, 1, 3⟩ 0
  let b : Bcast := ⟨4, none, 2 ^ 32 + 9, ⟨2, 0, 5, 0, 0, 48⟩, [7, 9]⟩
  let cfg : Nat := rkey (wsStop 0) 13 TB_CTL
  let map : BitVec 4 := 4
  let on : Hart := .outrider 3
  let m : NodeMsg := ⟨0x21, pkgLocus 1, 9, 0, 0, [], none⟩
  let who : Option Hart := some (.drover ⟨0, 1, 3⟩ 1 0)
  let st : Stop := ⟨0, 1, 0⟩
  let ms := NetLink.mesh st d
  let fd := NetLink.ford die k
  let ps := portStop port
  let cv := fun (s : State) => portProto s port.val = 2 ∧ cvState s port = 2
  let up := fun (s : State) (st : Stop) (blk off : Nat) => rput s st blk off (BitVec.ofNat 32 (min (2 ^ 32 - 1) ((rget s st blk off).toNat + 1)))
  let wait := fun (s : State) (op : Nat) => waitingFor s p.val tag = some (m, who) ∧ m.op = op
  let other := fun (s : State) => p.val ≠ pkgNum s
  let was := fun (s : State) => unwait s p.val tag
  let lc := fun (s : State) => cvGet s port.val
  let fecd := fun (s : State) => rput s ps cvBlk CV_FEC_CNT (BitVec.ofNat 32 (min (2 ^ 32 - 1) ((rget s ps cvBlk CV_FEC_CNT).toNat + fec)))
  let credited := fun (s : State) => cvPut (fecd s) port.val { lc (fecd s) with used := mapSet (fun _ => 0) (lc (fecd s)).used crvc.val (mapGet (fun _ => 0) (lc (fecd s)).used crvc.val - crn.toNat) }
  let came := fun (s : State) => if ackv then cvAcked (credited s) port ackseq.toNat else pump (credited s)
  let taken := fun (s : State) => cvPut (came s) port.val { lc (came s) with rx := seq.toNat, nak := false, unacked := (lc (came s)).unacked + 1 }
  let reg := pkgInit lv w
  let adm := fun (s : State) => regPlace s (pkgNum s * 2 ^ 30 + rkey st blk off) = some (st, blk, off) ∧ pathFails s st = false ∧ regRefuse s w st blk off = .no ∧ stopPowered s st = true ∧ (accDomain s st blk off = 15 ∨ domState s st (accDomain s st blk off) = dON) ∧ blockHeld s (pkgNum s * 2 ^ 30 + rkey st blk off) = false
  let drop := fun (s : State) => { s with link := { s.link with waiting := s.link.waiting.filter fun m => !(lostFor s h pa).contains m } }
  let src := noRouteSource h
  let msg : InvMsg := ⟨2, 0, 5, 0, 0, 48⟩
  let s0 : State := liveSt [⟨0, 1, 0⟩, ⟨0, 1, 3⟩, portStop 2, wsStop 0]
  decide ((fun (s : State) => wait s 0x21 ∧ data.length = 64 ∧ homeOf (lend (memStore (was s) (64 * (m.addr / 64)) data) (m.addr / 64) p.val none) (64 * (m.addr / 64)) = some st) ((fun (s : State) => (fun (s : State) => s) { memSt s with link := { (memSt s).link with waiting := [((⟨0x21, pkgLocus 1, 9, 0, 0, [], none⟩ : NodeMsg), some (.drover ⟨0, 1, 3⟩ 1 0))] } }) s0))) = true := by decide +kernel

theorem wit_MeshCaravanAndMessageEvents_8 : (
  let st : Stop := ⟨0, 1, 3⟩
  let st2 : Stop := ⟨0, 1, 3⟩
  let d : Fin 4 := 0
  let die : Fin 2 := 0
  let k : Fin 4 := 1
  let port : Fin 12 := 2
  let p : Fin 4 := 1
  let kept : Fin 4 := 3
  let fec : Nat := 3
  let crc := true
  let idle := false
  let ackv := true
  let ackseq : BitVec 10 := 5
  let crvc : Fin 8 := 3
  let crn : BitVec 9 := 4
  let sz : Fin 4 := 3
  let blk : Nat := 1
  let off : Nat := 8
  let tag : Nat := 9
  let line : Nat := 0
  let n : Fin 192 := 0
  let m : NodeMsg := ⟨1, pkgLocus 1, 9, 0, 0, [], none⟩
  let who : Option Hart := some (.drover ⟨0, 1, 3⟩ 1 0)
  let h : Hart := .drover ⟨0, 1, 3⟩ 1 0
  let data : List Byte := List.replicate 64 5
  let value : Word := 77
  let at_ : Word := 900
  let dw : Word := 0x123456789
  let seq : BitVec 10 := 5
  let pa : Nat := 0x100000
  let way : Nat := 3
  let w : World := .normal
  let lv : Level := .s
  let e : NetLink := .mesh ⟨0, 1, 3⟩ 0
  let b : Bcast := ⟨4, none, 2 ^ 32 + 9, ⟨2, 0, 5, 0, 0, 48⟩, [7, 9]⟩
  let cfg : Nat := rkey (wsStop 0) 13 TB_CTL
  let map : BitVec 4 := 4
  let on : Hart := .outrider 3
  let m : NodeMsg := ⟨0xC, pkgLocus 1, 9, 0, 3 * 2 ^ 44, [], none⟩
  let who : Option Hart := some (.drover ⟨0, 1, 3⟩ 1 0)
  let ms := NetLink.mesh st d
  let fd := NetLink.ford die k
  let ps := portStop port
  let cv := fun (s : State) => portProto s port.val = 2 ∧ cvState s port = 2
  let up := fun (s : State) (st : Stop) (blk off : Nat) => rput s st blk off (BitVec.ofNat 32 (min (2 ^ 32 - 1) ((rget s st blk off).toNat + 1)))
  let wait := fun (s : State) (op : Nat) => waitingFor s p.val tag = some (m, who) ∧ m.op = op
  let other := fun (s : State) => p.val ≠ pkgNum s
  let was := fun (s : State) => unwait s p.val tag
  let lc := fun (s : State) => cvGet s port.val
  let fecd := fun (s : State) => rput s ps cvBlk CV_FEC_CNT (BitVec.ofNat 32 (min (2 ^ 32 - 1) ((rget s ps cvBlk CV_FEC_CNT).toNat + fec)))
  let credited := fun (s : State) => cvPut (fecd s) port.val { lc (fecd s) with used := mapSet (fun _ => 0) (lc (fecd s)).used crvc.val (mapGet (fun _ => 0) (lc (fecd s)).used crvc.val - crn.toNat) }
  let came := fun (s : State) => if ackv then cvAcked (credited s) port ackseq.toNat else pump (credited s)
  let taken := fun (s : State) => cvPut (came s) port.val { lc (came s) with rx := seq.toNat, nak := false, unacked := (lc (came s)).unacked + 1 }
  let reg := pkgInit lv w
  let adm := fun (s : State) => regPlace s (pkgNum s * 2 ^ 30 + rkey st blk off) = some (st, blk, off) ∧ pathFails s st = false ∧ regRefuse s w st blk off = .no ∧ stopPowered s st = true ∧ (accDomain s st blk off = 15 ∨ domState s st (accDomain s st blk off) = dON) ∧ blockHeld s (pkgNum s * 2 ^ 30 + rkey st blk off) = false
  let drop := fun (s : State) => { s with link := { s.link with waiting := s.link.waiting.filter fun m => !(lostFor s h pa).contains m } }
  let src := noRouteSource h
  let msg : InvMsg := ⟨2, 0, 5, 0, 0, 48⟩
  let s0 : State := liveSt [⟨0, 1, 0⟩, ⟨0, 1, 3⟩, portStop 2, wsStop 0]
  decide ((fun (s : State) => wait s 0xC) ((fun (s : State) => (fun (s : State) => s) { memSt s with link := { (memSt s).link with waiting := [((⟨0xC, pkgLocus 1, 9, 0, 3 * 2 ^ 44, [], none⟩ : NodeMsg), some (.drover ⟨0, 1, 3⟩ 1 0))] } }) s0))) = true := by decide +kernel

theorem wit_MeshCaravanAndMessageEvents_9 : (
  let st : Stop := ⟨0, 1, 3⟩
  let st2 : Stop := ⟨0, 1, 3⟩
  let d : Fin 4 := 0
  let die : Fin 2 := 0
  let k : Fin 4 := 1
  let port : Fin 12 := 2
  let p : Fin 4 := 1
  let kept : Fin 4 := 3
  let fec : Nat := 3
  let crc := true
  let idle := false
  let ackv := true
  let ackseq : BitVec 10 := 5
  let crvc : Fin 8 := 3
  let crn : BitVec 9 := 4
  let sz : Fin 4 := 3
  let blk : Nat := 1
  let off : Nat := 8
  let tag : Nat := 9
  let line : Nat := 0
  let n : Fin 192 := 0
  let m : NodeMsg := ⟨1, pkgLocus 1, 9, 0, 0, [], none⟩
  let who : Option Hart := some (.drover ⟨0, 1, 3⟩ 1 0)
  let h : Hart := .drover ⟨0, 1, 3⟩ 1 0
  let data : List Byte := List.replicate 64 5
  let value : Word := 77
  let at_ : Word := 900
  let dw : Word := 0x123456789
  let seq : BitVec 10 := 5
  let pa : Nat := 0x100000
  let way : Nat := 3
  let w : World := .normal
  let lv : Level := .s
  let e : NetLink := .mesh ⟨0, 1, 3⟩ 0
  let b : Bcast := ⟨4, none, 2 ^ 32 + 9, ⟨2, 0, 5, 0, 0, 48⟩, [7, 9]⟩
  let cfg : Nat := rkey (wsStop 0) 13 TB_CTL
  let map : BitVec 4 := 4
  let on : Hart := .outrider 3
  let m : NodeMsg := ⟨2, pkgLocus 1, 9, 0, 0, [], none⟩
  let who : Option Hart := some (.drover ⟨0, 1, 3⟩ 1 0)
  let ms := NetLink.mesh st d
  let fd := NetLink.ford die k
  let ps := portStop port
  let cv := fun (s : State) => portProto s port.val = 2 ∧ cvState s port = 2
  let up := fun (s : State) (st : Stop) (blk off : Nat) => rput s st blk off (BitVec.ofNat 32 (min (2 ^ 32 - 1) ((rget s st blk off).toNat + 1)))
  let wait := fun (s : State) (op : Nat) => waitingFor s p.val tag = some (m, who) ∧ m.op = op
  let other := fun (s : State) => p.val ≠ pkgNum s
  let was := fun (s : State) => unwait s p.val tag
  let lc := fun (s : State) => cvGet s port.val
  let fecd := fun (s : State) => rput s ps cvBlk CV_FEC_CNT (BitVec.ofNat 32 (min (2 ^ 32 - 1) ((rget s ps cvBlk CV_FEC_CNT).toNat + fec)))
  let credited := fun (s : State) => cvPut (fecd s) port.val { lc (fecd s) with used := mapSet (fun _ => 0) (lc (fecd s)).used crvc.val (mapGet (fun _ => 0) (lc (fecd s)).used crvc.val - crn.toNat) }
  let came := fun (s : State) => if ackv then cvAcked (credited s) port ackseq.toNat else pump (credited s)
  let taken := fun (s : State) => cvPut (came s) port.val { lc (came s) with rx := seq.toNat, nak := false, unacked := (lc (came s)).unacked + 1 }
  let reg := pkgInit lv w
  let adm := fun (s : State) => regPlace s (pkgNum s * 2 ^ 30 + rkey st blk off) = some (st, blk, off) ∧ pathFails s st = false ∧ regRefuse s w st blk off = .no ∧ stopPowered s st = true ∧ (accDomain s st blk off = 15 ∨ domState s st (accDomain s st blk off) = dON) ∧ blockHeld s (pkgNum s * 2 ^ 30 + rkey st blk off) = false
  let drop := fun (s : State) => { s with link := { s.link with waiting := s.link.waiting.filter fun m => !(lostFor s h pa).contains m } }
  let src := noRouteSource h
  let msg : InvMsg := ⟨2, 0, 5, 0, 0, 48⟩
  let s0 : State := liveSt [⟨0, 1, 0⟩, ⟨0, 1, 3⟩, portStop 2, wsStop 0]
  decide ((fun (s : State) => wait s 2 ∧ other s ∧ data.length = 64 ∧ (∀ n, who ≠ some (.outrider n))) ((fun (s : State) => (fun (s : State) => s) { memSt s with link := { (memSt s).link with waiting := [((⟨2, pkgLocus 1, 9, 0, 0, [], none⟩ : NodeMsg), some (.drover ⟨0, 1, 3⟩ 1 0))] } }) s0))) = true := by decide +kernel

theorem wit_MeshCaravanAndMessageEvents_10 : (
  let st : Stop := ⟨0, 1, 3⟩
  let st2 : Stop := ⟨0, 1, 3⟩
  let d : Fin 4 := 0
  let die : Fin 2 := 0
  let k : Fin 4 := 1
  let port : Fin 12 := 2
  let p : Fin 4 := 1
  let kept : Fin 4 := 3
  let fec : Nat := 3
  let crc := true
  let idle := false
  let ackv := true
  let ackseq : BitVec 10 := 5
  let crvc : Fin 8 := 3
  let crn : BitVec 9 := 4
  let sz : Fin 4 := 3
  let blk : Nat := 1
  let off : Nat := 8
  let tag : Nat := 9
  let line : Nat := 0
  let n : Fin 192 := 0
  let m : NodeMsg := ⟨1, pkgLocus 1, 9, 0, 0, [], none⟩
  let who : Option Hart := some (.drover ⟨0, 1, 3⟩ 1 0)
  let h : Hart := .drover ⟨0, 1, 3⟩ 1 0
  let data : List Byte := List.replicate 64 5
  let value : Word := 77
  let at_ : Word := 900
  let dw : Word := 0x123456789
  let seq : BitVec 10 := 5
  let pa : Nat := 0x100000
  let way : Nat := 3
  let w : World := .normal
  let lv : Level := .s
  let e : NetLink := .mesh ⟨0, 1, 3⟩ 0
  let b : Bcast := ⟨4, none, 2 ^ 32 + 9, ⟨2, 0, 5, 0, 0, 48⟩, [7, 9]⟩
  let cfg : Nat := rkey (wsStop 0) 13 TB_CTL
  let map : BitVec 4 := 4
  let on : Hart := .outrider 3
  let m : NodeMsg := ⟨4, pkgLocus 1, 9, 0, 0, [], none⟩
  let who : Option Hart := some (.drover ⟨0, 1, 3⟩ 1 0)
  let ms := NetLink.mesh st d
  let fd := NetLink.ford die k
  let ps := portStop port
  let cv := fun (s : State) => portProto s port.val = 2 ∧ cvState s port = 2
  let up := fun (s : State) (st : Stop) (blk off : Nat) => rput s st blk off (BitVec.ofNat 32 (min (2 ^ 32 - 1) ((rget s st blk off).toNat + 1)))
  let wait := fun (s : State) (op : Nat) => waitingFor s p.val tag = some (m, who) ∧ m.op = op
  let other := fun (s : State) => p.val ≠ pkgNum s
  let was := fun (s : State) => unwait s p.val tag
  let lc := fun (s : State) => cvGet s port.val
  let fecd := fun (s : State) => rput s ps cvBlk CV_FEC_CNT (BitVec.ofNat 32 (min (2 ^ 32 - 1) ((rget s ps cvBlk CV_FEC_CNT).toNat + fec)))
  let credited := fun (s : State) => cvPut (fecd s) port.val { lc (fecd s) with used := mapSet (fun _ => 0) (lc (fecd s)).used crvc.val (mapGet (fun _ => 0) (lc (fecd s)).used crvc.val - crn.toNat) }
  let came := fun (s : State) => if ackv then cvAcked (credited s) port ackseq.toNat else pump (credited s)
  let taken := fun (s : State) => cvPut (came s) port.val { lc (came s) with rx := seq.toNat, nak := false, unacked := (lc (came s)).unacked + 1 }
  let reg := pkgInit lv w
  let adm := fun (s : State) => regPlace s (pkgNum s * 2 ^ 30 + rkey st blk off) = some (st, blk, off) ∧ pathFails s st = false ∧ regRefuse s w st blk off = .no ∧ stopPowered s st = true ∧ (accDomain s st blk off = 15 ∨ domState s st (accDomain s st blk off) = dON) ∧ blockHeld s (pkgNum s * 2 ^ 30 + rkey st blk off) = false
  let drop := fun (s : State) => { s with link := { s.link with waiting := s.link.waiting.filter fun m => !(lostFor s h pa).contains m } }
  let src := noRouteSource h
  let msg : InvMsg := ⟨2, 0, 5, 0, 0, 48⟩
  let s0 : State := liveSt [⟨0, 1, 0⟩, ⟨0, 1, 3⟩, portStop 2, wsStop 0]
  decide ((fun (s : State) => wait s 4 ∧ other s ∧ data.length = 64 ∧ (∀ n, who ≠ some (.outrider n))) ((fun (s : State) => (fun (s : State) => s) { memSt s with link := { (memSt s).link with waiting := [((⟨4, pkgLocus 1, 9, 0, 0, [], none⟩ : NodeMsg), some (.drover ⟨0, 1, 3⟩ 1 0))] } }) s0))) = true := by decide +kernel

theorem wit_MeshCaravanAndMessageEvents_11 : (
  let st : Stop := ⟨0, 1, 3⟩
  let st2 : Stop := ⟨0, 1, 3⟩
  let d : Fin 4 := 0
  let die : Fin 2 := 0
  let k : Fin 4 := 1
  let port : Fin 12 := 2
  let p : Fin 4 := 1
  let kept : Fin 4 := 3
  let fec : Nat := 3
  let crc := true
  let idle := false
  let ackv := true
  let ackseq : BitVec 10 := 5
  let crvc : Fin 8 := 3
  let crn : BitVec 9 := 4
  let sz : Fin 4 := 3
  let blk : Nat := 1
  let off : Nat := 8
  let tag : Nat := 9
  let line : Nat := 0
  let n : Fin 192 := 0
  let m : NodeMsg := ⟨1, pkgLocus 1, 9, 0, 0, [], none⟩
  let who : Option Hart := some (.drover ⟨0, 1, 3⟩ 1 0)
  let h : Hart := .drover ⟨0, 1, 3⟩ 1 0
  let data : List Byte := List.replicate 64 5
  let value : Word := 77
  let at_ : Word := 900
  let dw : Word := 0x123456789
  let seq : BitVec 10 := 5
  let pa : Nat := 0x100000
  let way : Nat := 3
  let w : World := .normal
  let lv : Level := .s
  let e : NetLink := .mesh ⟨0, 1, 3⟩ 0
  let b : Bcast := ⟨4, none, 2 ^ 32 + 9, ⟨2, 0, 5, 0, 0, 48⟩, [7, 9]⟩
  let cfg : Nat := rkey (wsStop 0) 13 TB_CTL
  let map : BitVec 4 := 4
  let on : Hart := .outrider 3
  let m : NodeMsg := ⟨3, pkgLocus 1, 9, 0, 0, [], none⟩
  let who : Option Hart := some (.drover ⟨0, 1, 3⟩ 1 0)
  let ms := NetLink.mesh st d
  let fd := NetLink.ford die k
  let ps := portStop port
  let cv := fun (s : State) => portProto s port.val = 2 ∧ cvState s port = 2
  let up := fun (s : State) (st : Stop) (blk off : Nat) => rput s st blk off (BitVec.ofNat 32 (min (2 ^ 32 - 1) ((rget s st blk off).toNat + 1)))
  let wait := fun (s : State) (op : Nat) => waitingFor s p.val tag = some (m, who) ∧ m.op = op
  let other := fun (s : State) => p.val ≠ pkgNum s
  let was := fun (s : State) => unwait s p.val tag
  let lc := fun (s : State) => cvGet s port.val
  let fecd := fun (s : State) => rput s ps cvBlk CV_FEC_CNT (BitVec.ofNat 32 (min (2 ^ 32 - 1) ((rget s ps cvBlk CV_FEC_CNT).toNat + fec)))
  let credited := fun (s : State) => cvPut (fecd s) port.val { lc (fecd s) with used := mapSet (fun _ => 0) (lc (fecd s)).used crvc.val (mapGet (fun _ => 0) (lc (fecd s)).used crvc.val - crn.toNat) }
  let came := fun (s : State) => if ackv then cvAcked (credited s) port ackseq.toNat else pump (credited s)
  let taken := fun (s : State) => cvPut (came s) port.val { lc (came s) with rx := seq.toNat, nak := false, unacked := (lc (came s)).unacked + 1 }
  let reg := pkgInit lv w
  let adm := fun (s : State) => regPlace s (pkgNum s * 2 ^ 30 + rkey st blk off) = some (st, blk, off) ∧ pathFails s st = false ∧ regRefuse s w st blk off = .no ∧ stopPowered s st = true ∧ (accDomain s st blk off = 15 ∨ domState s st (accDomain s st blk off) = dON) ∧ blockHeld s (pkgNum s * 2 ^ 30 + rkey st blk off) = false
  let drop := fun (s : State) => { s with link := { s.link with waiting := s.link.waiting.filter fun m => !(lostFor s h pa).contains m } }
  let src := noRouteSource h
  let msg : InvMsg := ⟨2, 0, 5, 0, 0, 48⟩
  let s0 : State := liveSt [⟨0, 1, 0⟩, ⟨0, 1, 3⟩, portStop 2, wsStop 0]
  decide ((fun (s : State) => wait s 3 ∧ who = some h) ((fun (s : State) => (fun (s : State) => s) { memSt s with link := { (memSt s).link with waiting := [((⟨3, pkgLocus 1, 9, 0, 0, [], none⟩ : NodeMsg), some (.drover ⟨0, 1, 3⟩ 1 0))] } }) s0))) = true := by decide +kernel

theorem wit_MeshCaravanAndMessageEvents_12 : (
  let st : Stop := ⟨0, 1, 3⟩
  let st2 : Stop := ⟨0, 1, 3⟩
  let d : Fin 4 := 0
  let die : Fin 2 := 0
  let k : Fin 4 := 1
  let port : Fin 12 := 2
  let p : Fin 4 := 1
  let kept : Fin 4 := 3
  let fec : Nat := 3
  let crc := true
  let idle := false
  let ackv := true
  let ackseq : BitVec 10 := 5
  let crvc : Fin 8 := 3
  let crn : BitVec 9 := 4
  let sz : Fin 4 := 3
  let blk : Nat := 1
  let off : Nat := 8
  let tag : Nat := 9
  let line : Nat := 0
  let n : Fin 192 := 0
  let m : NodeMsg := ⟨1, pkgLocus 1, 9, 0, 0, [], none⟩
  let who : Option Hart := some (.drover ⟨0, 1, 3⟩ 1 0)
  let h : Hart := .drover ⟨0, 1, 3⟩ 1 0
  let data : List Byte := List.replicate 64 5
  let value : Word := 77
  let at_ : Word := 900
  let dw : Word := 0x123456789
  let seq : BitVec 10 := 5
  let pa : Nat := 0x100000
  let way : Nat := 3
  let w : World := .normal
  let lv : Level := .s
  let e : NetLink := .mesh ⟨0, 1, 3⟩ 0
  let b : Bcast := ⟨4, none, 2 ^ 32 + 9, ⟨2, 0, 5, 0, 0, 48⟩, [7, 9]⟩
  let cfg : Nat := rkey (wsStop 0) 13 TB_CTL
  let map : BitVec 4 := 4
  let on : Hart := .outrider 3
  let m : NodeMsg := ⟨6, pkgLocus 1, 9, 0, 0, [], none⟩
  let who : Option Hart := some (.drover ⟨0, 1, 3⟩ 1 0)
  let ms := NetLink.mesh st d
  let fd := NetLink.ford die k
  let ps := portStop port
  let cv := fun (s : State) => portProto s port.val = 2 ∧ cvState s port = 2
  let up := fun (s : State) (st : Stop) (blk off : Nat) => rput s st blk off (BitVec.ofNat 32 (min (2 ^ 32 - 1) ((rget s st blk off).toNat + 1)))
  let wait := fun (s : State) (op : Nat) => waitingFor s p.val tag = some (m, who) ∧ m.op = op
  let other := fun (s : State) => p.val ≠ pkgNum s
  let was := fun (s : State) => unwait s p.val tag
  let lc := fun (s : State) => cvGet s port.val
  let fecd := fun (s : State) => rput s ps cvBlk CV_FEC_CNT (BitVec.ofNat 32 (min (2 ^ 32 - 1) ((rget s ps cvBlk CV_FEC_CNT).toNat + fec)))
  let credited := fun (s : State) => cvPut (fecd s) port.val { lc (fecd s) with used := mapSet (fun _ => 0) (lc (fecd s)).used crvc.val (mapGet (fun _ => 0) (lc (fecd s)).used crvc.val - crn.toNat) }
  let came := fun (s : State) => if ackv then cvAcked (credited s) port ackseq.toNat else pump (credited s)
  let taken := fun (s : State) => cvPut (came s) port.val { lc (came s) with rx := seq.toNat, nak := false, unacked := (lc (came s)).unacked + 1 }
  let reg := pkgInit lv w
  let adm := fun (s : State) => regPlace s (pkgNum s * 2 ^ 30 + rkey st blk off) = some (st, blk, off) ∧ pathFails s st = false ∧ regRefuse s w st blk off = .no ∧ stopPowered s st = true ∧ (accDomain s st blk off = 15 ∨ domState s st (accDomain s st blk off) = dON) ∧ blockHeld s (pkgNum s * 2 ^ 30 + rkey st blk off) = false
  let drop := fun (s : State) => { s with link := { s.link with waiting := s.link.waiting.filter fun m => !(lostFor s h pa).contains m } }
  let src := noRouteSource h
  let msg : InvMsg := ⟨2, 0, 5, 0, 0, 48⟩
  let s0 : State := liveSt [⟨0, 1, 0⟩, ⟨0, 1, 3⟩, portStop 2, wsStop 0]
  decide ((fun (s : State) => wait s 6) ((fun (s : State) => (fun (s : State) => s) { memSt s with link := { (memSt s).link with waiting := [((⟨6, pkgLocus 1, 9, 0, 0, [], none⟩ : NodeMsg), some (.drover ⟨0, 1, 3⟩ 1 0))] } }) s0))) = true := by decide +kernel

theorem wit_MeshCaravanAndMessageEvents_13 : (
  let st : Stop := ⟨0, 1, 3⟩
  let st2 : Stop := ⟨0, 1, 3⟩
  let d : Fin 4 := 0
  let die : Fin 2 := 0
  let k : Fin 4 := 1
  let port : Fin 12 := 2
  let p : Fin 4 := 1
  let kept : Fin 4 := 3
  let fec : Nat := 3
  let crc := true
  let idle := false
  let ackv := true
  let ackseq : BitVec 10 := 5
  let crvc : Fin 8 := 3
  let crn : BitVec 9 := 4
  let sz : Fin 4 := 3
  let blk : Nat := 1
  let off : Nat := 8
  let tag : Nat := 9
  let line : Nat := 0
  let n : Fin 192 := 0
  let m : NodeMsg := ⟨1, pkgLocus 1, 9, 0, 0, [], none⟩
  let who : Option Hart := some (.drover ⟨0, 1, 3⟩ 1 0)
  let h : Hart := .drover ⟨0, 1, 3⟩ 1 0
  let data : List Byte := List.replicate 64 5
  let value : Word := 77
  let at_ : Word := 900
  let dw : Word := 0x123456789
  let seq : BitVec 10 := 5
  let pa : Nat := 0x100000
  let way : Nat := 3
  let w : World := .normal
  let lv : Level := .s
  let e : NetLink := .mesh ⟨0, 1, 3⟩ 0
  let b : Bcast := ⟨4, none, 2 ^ 32 + 9, ⟨2, 0, 5, 0, 0, 48⟩, [7, 9]⟩
  let cfg : Nat := rkey (wsStop 0) 13 TB_CTL
  let map : BitVec 4 := 4
  let on : Hart := .outrider 3
  let m : NodeMsg := ⟨1, pkgLocus 1, 9, 0, 0, [], none⟩
  let who : Option Hart := some (.drover ⟨0, 1, 3⟩ 1 0)
  let ms := NetLink.mesh st d
  let fd := NetLink.ford die k
  let ps := portStop port
  let cv := fun (s : State) => portProto s port.val = 2 ∧ cvState s port = 2
  let up := fun (s : State) (st : Stop) (blk off : Nat) => rput s st blk off (BitVec.ofNat 32 (min (2 ^ 32 - 1) ((rget s st blk off).toNat + 1)))
  let wait := fun (s : State) (op : Nat) => waitingFor s p.val tag = some (m, who) ∧ m.op = op
  let other := fun (s : State) => p.val ≠ pkgNum s
  let was := fun (s : State) => unwait s p.val tag
  let lc := fun (s : State) => cvGet s port.val
  let fecd := fun (s : State) => rput s ps cvBlk CV_FEC_CNT (BitVec.ofNat 32 (min (2 ^ 32 - 1) ((rget s ps cvBlk CV_FEC_CNT).toNat + fec)))
  let credited := fun (s : State) => cvPut (fecd s) port.val { lc (fecd s) with used := mapSet (fun _ => 0) (lc (fecd s)).used crvc.val (mapGet (fun _ => 0) (lc (fecd s)).used crvc.val - crn.toNat) }
  let came := fun (s : State) => if ackv then cvAcked (credited s) port ackseq.toNat else pump (credited s)
  let taken := fun (s : State) => cvPut (came s) port.val { lc (came s) with rx := seq.toNat, nak := false, unacked := (lc (came s)).unacked + 1 }
  let reg := pkgInit lv w
  let adm := fun (s : State) => regPlace s (pkgNum s * 2 ^ 30 + rkey st blk off) = some (st, blk, off) ∧ pathFails s st = false ∧ regRefuse s w st blk off = .no ∧ stopPowered s st = true ∧ (accDomain s st blk off = 15 ∨ domState s st (accDomain s st blk off) = dON) ∧ blockHeld s (pkgNum s * 2 ^ 30 + rkey st blk off) = false
  let drop := fun (s : State) => { s with link := { s.link with waiting := s.link.waiting.filter fun m => !(lostFor s h pa).contains m } }
  let src := noRouteSource h
  let msg : InvMsg := ⟨2, 0, 5, 0, 0, 48⟩
  let s0 : State := liveSt [⟨0, 1, 0⟩, ⟨0, 1, 3⟩, portStop 2, wsStop 0]
  decide ((fun (s : State) => wait s 1) ((fun (s : State) => (fun (s : State) => s) { memSt s with link := { (memSt s).link with waiting := [((⟨1, pkgLocus 1, 9, 0, 0, [], none⟩ : NodeMsg), some (.drover ⟨0, 1, 3⟩ 1 0))] } }) s0))) = true := by decide +kernel

theorem wit_MeshCaravanAndMessageEvents_14 : (
  let st : Stop := ⟨0, 1, 3⟩
  let st2 : Stop := ⟨0, 1, 3⟩
  let d : Fin 4 := 0
  let die : Fin 2 := 0
  let k : Fin 4 := 1
  let port : Fin 12 := 2
  let p : Fin 4 := 1
  let kept : Fin 4 := 3
  let fec : Nat := 3
  let crc := true
  let idle := false
  let ackv := true
  let ackseq : BitVec 10 := 5
  let crvc : Fin 8 := 3
  let crn : BitVec 9 := 4
  let sz : Fin 4 := 3
  let blk : Nat := 1
  let off : Nat := 8
  let tag : Nat := 9
  let line : Nat := 0
  let n : Fin 192 := 0
  let m : NodeMsg := ⟨1, pkgLocus 1, 9, 0, 0, [], none⟩
  let who : Option Hart := some (.drover ⟨0, 1, 3⟩ 1 0)
  let h : Hart := .drover ⟨0, 1, 3⟩ 1 0
  let data : List Byte := List.replicate 64 5
  let value : Word := 77
  let at_ : Word := 900
  let dw : Word := 0x123456789
  let seq : BitVec 10 := 5
  let pa : Nat := 0x100000
  let way : Nat := 3
  let w : World := .normal
  let lv : Level := .s
  let e : NetLink := .mesh ⟨0, 1, 3⟩ 0
  let b : Bcast := ⟨4, none, 2 ^ 32 + 9, ⟨2, 0, 5, 0, 0, 48⟩, [7, 9]⟩
  let cfg : Nat := rkey (wsStop 0) 13 TB_CTL
  let map : BitVec 4 := 4
  let on : Hart := .outrider 3
  let m : NodeMsg := ⟨8, pkgLocus 1, 9, 0, 3, [], none⟩
  let who : Option Hart := some (.drover ⟨0, 1, 3⟩ 1 0)
  let ms := NetLink.mesh st d
  let fd := NetLink.ford die k
  let ps := portStop port
  let cv := fun (s : State) => portProto s port.val = 2 ∧ cvState s port = 2
  let up := fun (s : State) (st : Stop) (blk off : Nat) => rput s st blk off (BitVec.ofNat 32 (min (2 ^ 32 - 1) ((rget s st blk off).toNat + 1)))
  let wait := fun (s : State) (op : Nat) => waitingFor s p.val tag = some (m, who) ∧ m.op = op
  let other := fun (s : State) => p.val ≠ pkgNum s
  let was := fun (s : State) => unwait s p.val tag
  let lc := fun (s : State) => cvGet s port.val
  let fecd := fun (s : State) => rput s ps cvBlk CV_FEC_CNT (BitVec.ofNat 32 (min (2 ^ 32 - 1) ((rget s ps cvBlk CV_FEC_CNT).toNat + fec)))
  let credited := fun (s : State) => cvPut (fecd s) port.val { lc (fecd s) with used := mapSet (fun _ => 0) (lc (fecd s)).used crvc.val (mapGet (fun _ => 0) (lc (fecd s)).used crvc.val - crn.toNat) }
  let came := fun (s : State) => if ackv then cvAcked (credited s) port ackseq.toNat else pump (credited s)
  let taken := fun (s : State) => cvPut (came s) port.val { lc (came s) with rx := seq.toNat, nak := false, unacked := (lc (came s)).unacked + 1 }
  let reg := pkgInit lv w
  let adm := fun (s : State) => regPlace s (pkgNum s * 2 ^ 30 + rkey st blk off) = some (st, blk, off) ∧ pathFails s st = false ∧ regRefuse s w st blk off = .no ∧ stopPowered s st = true ∧ (accDomain s st blk off = 15 ∨ domState s st (accDomain s st blk off) = dON) ∧ blockHeld s (pkgNum s * 2 ^ 30 + rkey st blk off) = false
  let drop := fun (s : State) => { s with link := { s.link with waiting := s.link.waiting.filter fun m => !(lostFor s h pa).contains m } }
  let src := noRouteSource h
  let msg : InvMsg := ⟨2, 0, 5, 0, 0, 48⟩
  let s0 : State := liveSt [⟨0, 1, 0⟩, ⟨0, 1, 3⟩, portStop 2, wsStop 0]
  decide ((fun (s : State) => wait s 8 ∧ who = some h) ((fun (s : State) => (fun (s : State) => s) { memSt s with link := { (memSt s).link with waiting := [((⟨8, pkgLocus 1, 9, 0, 3, [], none⟩ : NodeMsg), some (.drover ⟨0, 1, 3⟩ 1 0))] } }) s0))) = true := by decide +kernel

theorem wit_MeshCaravanAndMessageEvents_15 : (
  let st : Stop := ⟨0, 1, 3⟩
  let st2 : Stop := ⟨0, 1, 3⟩
  let d : Fin 4 := 0
  let die : Fin 2 := 0
  let k : Fin 4 := 1
  let port : Fin 12 := 2
  let p : Fin 4 := 1
  let kept : Fin 4 := 3
  let fec : Nat := 3
  let crc := true
  let idle := false
  let ackv := true
  let ackseq : BitVec 10 := 5
  let crvc : Fin 8 := 3
  let crn : BitVec 9 := 4
  let sz : Fin 4 := 3
  let blk : Nat := 1
  let off : Nat := 8
  let tag : Nat := 9
  let line : Nat := 0
  let n : Fin 192 := 0
  let m : NodeMsg := ⟨1, pkgLocus 1, 9, 0, 0, [], none⟩
  let who : Option Hart := some (.drover ⟨0, 1, 3⟩ 1 0)
  let h : Hart := .drover ⟨0, 1, 3⟩ 1 0
  let data : List Byte := List.replicate 64 5
  let value : Word := 77
  let at_ : Word := 900
  let dw : Word := 0x123456789
  let seq : BitVec 10 := 5
  let pa : Nat := 0x100000
  let way : Nat := 3
  let w : World := .normal
  let lv : Level := .s
  let e : NetLink := .mesh ⟨0, 1, 3⟩ 0
  let b : Bcast := ⟨4, none, 2 ^ 32 + 9, ⟨2, 0, 5, 0, 0, 48⟩, [7, 9]⟩
  let cfg : Nat := rkey (wsStop 0) 13 TB_CTL
  let map : BitVec 4 := 4
  let on : Hart := .outrider 3
  let m : NodeMsg := ⟨9, pkgLocus 1, 9, 0, 3, [], none⟩
  let who : Option Hart := some (.drover ⟨0, 1, 3⟩ 1 0)
  let ms := NetLink.mesh st d
  let fd := NetLink.ford die k
  let ps := portStop port
  let cv := fun (s : State) => portProto s port.val = 2 ∧ cvState s port = 2
  let up := fun (s : State) (st : Stop) (blk off : Nat) => rput s st blk off (BitVec.ofNat 32 (min (2 ^ 32 - 1) ((rget s st blk off).toNat + 1)))
  let wait := fun (s : State) (op : Nat) => waitingFor s p.val tag = some (m, who) ∧ m.op = op
  let other := fun (s : State) => p.val ≠ pkgNum s
  let was := fun (s : State) => unwait s p.val tag
  let lc := fun (s : State) => cvGet s port.val
  let fecd := fun (s : State) => rput s ps cvBlk CV_FEC_CNT (BitVec.ofNat 32 (min (2 ^ 32 - 1) ((rget s ps cvBlk CV_FEC_CNT).toNat + fec)))
  let credited := fun (s : State) => cvPut (fecd s) port.val { lc (fecd s) with used := mapSet (fun _ => 0) (lc (fecd s)).used crvc.val (mapGet (fun _ => 0) (lc (fecd s)).used crvc.val - crn.toNat) }
  let came := fun (s : State) => if ackv then cvAcked (credited s) port ackseq.toNat else pump (credited s)
  let taken := fun (s : State) => cvPut (came s) port.val { lc (came s) with rx := seq.toNat, nak := false, unacked := (lc (came s)).unacked + 1 }
  let reg := pkgInit lv w
  let adm := fun (s : State) => regPlace s (pkgNum s * 2 ^ 30 + rkey st blk off) = some (st, blk, off) ∧ pathFails s st = false ∧ regRefuse s w st blk off = .no ∧ stopPowered s st = true ∧ (accDomain s st blk off = 15 ∨ domState s st (accDomain s st blk off) = dON) ∧ blockHeld s (pkgNum s * 2 ^ 30 + rkey st blk off) = false
  let drop := fun (s : State) => { s with link := { s.link with waiting := s.link.waiting.filter fun m => !(lostFor s h pa).contains m } }
  let src := noRouteSource h
  let msg : InvMsg := ⟨2, 0, 5, 0, 0, 48⟩
  let s0 : State := liveSt [⟨0, 1, 0⟩, ⟨0, 1, 3⟩, portStop 2, wsStop 0]
  decide ((fun (s : State) => wait s 9 ∧ who = some h) ((fun (s : State) => (fun (s : State) => s) { memSt s with link := { (memSt s).link with waiting := [((⟨9, pkgLocus 1, 9, 0, 3, [], none⟩ : NodeMsg), some (.drover ⟨0, 1, 3⟩ 1 0))] } }) s0))) = true := by decide +kernel

theorem wit_MeshCaravanAndMessageEvents_16 : (
  let st : Stop := ⟨0, 1, 3⟩
  let st2 : Stop := ⟨0, 1, 3⟩
  let d : Fin 4 := 0
  let die : Fin 2 := 0
  let k : Fin 4 := 1
  let port : Fin 12 := 2
  let p : Fin 4 := 1
  let kept : Fin 4 := 3
  let fec : Nat := 3
  let crc := true
  let idle := false
  let ackv := true
  let ackseq : BitVec 10 := 5
  let crvc : Fin 8 := 3
  let crn : BitVec 9 := 4
  let sz : Fin 4 := 3
  let blk : Nat := 1
  let off : Nat := 8
  let tag : Nat := 9
  let line : Nat := 0
  let n : Fin 192 := 0
  let m : NodeMsg := ⟨1, pkgLocus 1, 9, 0, 0, [], none⟩
  let who : Option Hart := some (.drover ⟨0, 1, 3⟩ 1 0)
  let h : Hart := .drover ⟨0, 1, 3⟩ 1 0
  let data : List Byte := List.replicate 64 5
  let value : Word := 77
  let at_ : Word := 900
  let dw : Word := 0x123456789
  let seq : BitVec 10 := 5
  let pa : Nat := 0x100000
  let way : Nat := 3
  let w : World := .normal
  let lv : Level := .s
  let e : NetLink := .mesh ⟨0, 1, 3⟩ 0
  let b : Bcast := ⟨4, none, 2 ^ 32 + 9, ⟨2, 0, 5, 0, 0, 48⟩, [7, 9]⟩
  let cfg : Nat := rkey (wsStop 0) 13 TB_CTL
  let map : BitVec 4 := 4
  let on : Hart := .outrider 3
  let m : NodeMsg := ⟨0xB, pkgLocus 1, 9, 0, 3, [], none⟩
  let who : Option Hart := some (.drover ⟨0, 1, 3⟩ 1 0)
  let ms := NetLink.mesh st d
  let fd := NetLink.ford die k
  let ps := portStop port
  let cv := fun (s : State) => portProto s port.val = 2 ∧ cvState s port = 2
  let up := fun (s : State) (st : Stop) (blk off : Nat) => rput s st blk off (BitVec.ofNat 32 (min (2 ^ 32 - 1) ((rget s st blk off).toNat + 1)))
  let wait := fun (s : State) (op : Nat) => waitingFor s p.val tag = some (m, who) ∧ m.op = op
  let other := fun (s : State) => p.val ≠ pkgNum s
  let was := fun (s : State) => unwait s p.val tag
  let lc := fun (s : State) => cvGet s port.val
  let fecd := fun (s : State) => rput s ps cvBlk CV_FEC_CNT (BitVec.ofNat 32 (min (2 ^ 32 - 1) ((rget s ps cvBlk CV_FEC_CNT).toNat + fec)))
  let credited := fun (s : State) => cvPut (fecd s) port.val { lc (fecd s) with used := mapSet (fun _ => 0) (lc (fecd s)).used crvc.val (mapGet (fun _ => 0) (lc (fecd s)).used crvc.val - crn.toNat) }
  let came := fun (s : State) => if ackv then cvAcked (credited s) port ackseq.toNat else pump (credited s)
  let taken := fun (s : State) => cvPut (came s) port.val { lc (came s) with rx := seq.toNat, nak := false, unacked := (lc (came s)).unacked + 1 }
  let reg := pkgInit lv w
  let adm := fun (s : State) => regPlace s (pkgNum s * 2 ^ 30 + rkey st blk off) = some (st, blk, off) ∧ pathFails s st = false ∧ regRefuse s w st blk off = .no ∧ stopPowered s st = true ∧ (accDomain s st blk off = 15 ∨ domState s st (accDomain s st blk off) = dON) ∧ blockHeld s (pkgNum s * 2 ^ 30 + rkey st blk off) = false
  let drop := fun (s : State) => { s with link := { s.link with waiting := s.link.waiting.filter fun m => !(lostFor s h pa).contains m } }
  let src := noRouteSource h
  let msg : InvMsg := ⟨2, 0, 5, 0, 0, 48⟩
  let s0 : State := liveSt [⟨0, 1, 0⟩, ⟨0, 1, 3⟩, portStop 2, wsStop 0]
  decide ((fun (s : State) => wait s 0xB ∧ who = some h) ((fun (s : State) => (fun (s : State) => s) { memSt s with link := { (memSt s).link with waiting := [((⟨0xB, pkgLocus 1, 9, 0, 3, [], none⟩ : NodeMsg), some (.drover ⟨0, 1, 3⟩ 1 0))] } }) s0))) = true := by decide +kernel

theorem wit_MeshCaravanAndMessageEvents_17 : (
  let st : Stop := ⟨0, 1, 3⟩
  let st2 : Stop := ⟨0, 1, 3⟩
  let d : Fin 4 := 0
  let die : Fin 2 := 0
  let k : Fin 4 := 1
  let port : Fin 12 := 2
  let p : Fin 4 := 1
  let kept : Fin 4 := 3
  let fec : Nat := 3
  let crc := true
  let idle := false
  let ackv := true
  let ackseq : BitVec 10 := 5
  let crvc : Fin 8 := 3
  let crn : BitVec 9 := 4
  let sz : Fin 4 := 3
  let blk : Nat := 1
  let off : Nat := 8
  let tag : Nat := 9
  let line : Nat := 0
  let n : Fin 192 := 0
  let m : NodeMsg := ⟨1, pkgLocus 1, 9, 0, 0, [], none⟩
  let who : Option Hart := some (.drover ⟨0, 1, 3⟩ 1 0)
  let h : Hart := .drover ⟨0, 1, 3⟩ 1 0
  let data : List Byte := List.replicate 64 5
  let value : Word := 77
  let at_ : Word := 900
  let dw : Word := 0x123456789
  let seq : BitVec 10 := 5
  let pa : Nat := 0x100000
  let way : Nat := 3
  let w : World := .normal
  let lv : Level := .s
  let e : NetLink := .mesh ⟨0, 1, 3⟩ 0
  let b : Bcast := ⟨4, none, 2 ^ 32 + 9, ⟨2, 0, 5, 0, 0, 48⟩, [7, 9]⟩
  let cfg : Nat := rkey (wsStop 0) 13 TB_CTL
  let map : BitVec 4 := 4
  let on : Hart := .outrider 3
  let blk : Nat := 0
  let off : Nat := RT_DROP
  let pa : Nat := 0xFFF0000000000 + rkey st blk off
  let ms := NetLink.mesh st d
  let fd := NetLink.ford die k
  let ps := portStop port
  let cv := fun (s : State) => portProto s port.val = 2 ∧ cvState s port = 2
  let up := fun (s : State) (st : Stop) (blk off : Nat) => rput s st blk off (BitVec.ofNat 32 (min (2 ^ 32 - 1) ((rget s st blk off).toNat + 1)))
  let wait := fun (s : State) (op : Nat) => waitingFor s p.val tag = some (m, who) ∧ m.op = op
  let other := fun (s : State) => p.val ≠ pkgNum s
  let was := fun (s : State) => unwait s p.val tag
  let lc := fun (s : State) => cvGet s port.val
  let fecd := fun (s : State) => rput s ps cvBlk CV_FEC_CNT (BitVec.ofNat 32 (min (2 ^ 32 - 1) ((rget s ps cvBlk CV_FEC_CNT).toNat + fec)))
  let credited := fun (s : State) => cvPut (fecd s) port.val { lc (fecd s) with used := mapSet (fun _ => 0) (lc (fecd s)).used crvc.val (mapGet (fun _ => 0) (lc (fecd s)).used crvc.val - crn.toNat) }
  let came := fun (s : State) => if ackv then cvAcked (credited s) port ackseq.toNat else pump (credited s)
  let taken := fun (s : State) => cvPut (came s) port.val { lc (came s) with rx := seq.toNat, nak := false, unacked := (lc (came s)).unacked + 1 }
  let reg := pkgInit lv w
  let adm := fun (s : State) => regPlace s (pkgNum s * 2 ^ 30 + rkey st blk off) = some (st, blk, off) ∧ pathFails s st = false ∧ regRefuse s w st blk off = .no ∧ stopPowered s st = true ∧ (accDomain s st blk off = 15 ∨ domState s st (accDomain s st blk off) = dON) ∧ blockHeld s (pkgNum s * 2 ^ 30 + rkey st blk off) = false
  let drop := fun (s : State) => { s with link := { s.link with waiting := s.link.waiting.filter fun m => !(lostFor s h pa).contains m } }
  let src := noRouteSource h
  let msg : InvMsg := ⟨2, 0, 5, 0, 0, 48⟩
  let s0 : State := liveSt [⟨0, 1, 0⟩, ⟨0, 1, 3⟩, portStop 2, wsStop 0]
  decide ((fun (s : State) => other s ∧ seenTarget s w pa = .regs (pkgNum s * 2 ^ 30 + rkey st blk off) ∧ pa % 4 = 0 ∧ adm s) ((fun (s : State) => memSt s) s0))) = true := by decide +kernel

theorem wit_MeshCaravanAndMessageEvents_18 : (
  let st : Stop := ⟨0, 1, 3⟩
  let st2 : Stop := ⟨0, 1, 3⟩
  let d : Fin 4 := 0
  let die : Fin 2 := 0
  let k : Fin 4 := 1
  let port : Fin 12 := 2
  let p : Fin 4 := 1
  let kept : Fin 4 := 3
  let fec : Nat := 3
  let crc := true
  let idle := false
  let ackv := true
  let ackseq : BitVec 10 := 5
  let crvc : Fin 8 := 3
  let crn : BitVec 9 := 4
  let sz : Fin 4 := 3
  let blk : Nat := 1
  let off : Nat := 8
  let tag : Nat := 9
  let line : Nat := 0
  let n : Fin 192 := 0
  let m : NodeMsg := ⟨1, pkgLocus 1, 9, 0, 0, [], none⟩
  let who : Option Hart := some (.drover ⟨0, 1, 3⟩ 1 0)
  let h : Hart := .drover ⟨0, 1, 3⟩ 1 0
  let data : List Byte := List.replicate 64 5
  let value : Word := 77
  let at_ : Word := 900
  let dw : Word := 0x123456789
  let seq : BitVec 10 := 5
  let pa : Nat := 0x100000
  let way : Nat := 3
  let w : World := .normal
  let lv : Level := .s
  let e : NetLink := .mesh ⟨0, 1, 3⟩ 0
  let b : Bcast := ⟨4, none, 2 ^ 32 + 9, ⟨2, 0, 5, 0, 0, 48⟩, [7, 9]⟩
  let cfg : Nat := rkey (wsStop 0) 13 TB_CTL
  let map : BitVec 4 := 4
  let on : Hart := .outrider 3
  let cfg : Nat := rkey (wsStop 0) 2 0
  let cfg := cfg + 2 ^ 20
  let pa : Nat := 0xFFF0000000000 + cfg
  let ms := NetLink.mesh st d
  let fd := NetLink.ford die k
  let ps := portStop port
  let cv := fun (s : State) => portProto s port.val = 2 ∧ cvState s port = 2
  let up := fun (s : State) (st : Stop) (blk off : Nat) => rput s st blk off (BitVec.ofNat 32 (min (2 ^ 32 - 1) ((rget s st blk off).toNat + 1)))
  let wait := fun (s : State) (op : Nat) => waitingFor s p.val tag = some (m, who) ∧ m.op = op
  let other := fun (s : State) => p.val ≠ pkgNum s
  let was := fun (s : State) => unwait s p.val tag
  let lc := fun (s : State) => cvGet s port.val
  let fecd := fun (s : State) => rput s ps cvBlk CV_FEC_CNT (BitVec.ofNat 32 (min (2 ^ 32 - 1) ((rget s ps cvBlk CV_FEC_CNT).toNat + fec)))
  let credited := fun (s : State) => cvPut (fecd s) port.val { lc (fecd s) with used := mapSet (fun _ => 0) (lc (fecd s)).used crvc.val (mapGet (fun _ => 0) (lc (fecd s)).used crvc.val - crn.toNat) }
  let came := fun (s : State) => if ackv then cvAcked (credited s) port ackseq.toNat else pump (credited s)
  let taken := fun (s : State) => cvPut (came s) port.val { lc (came s) with rx := seq.toNat, nak := false, unacked := (lc (came s)).unacked + 1 }
  let reg := pkgInit lv w
  let adm := fun (s : State) => regPlace s (pkgNum s * 2 ^ 30 + rkey st blk off) = some (st, blk, off) ∧ pathFails s st = false ∧ regRefuse s w st blk off = .no ∧ stopPowered s st = true ∧ (accDomain s st blk off = 15 ∨ domState s st (accDomain s st blk off) = dON) ∧ blockHeld s (pkgNum s * 2 ^ 30 + rkey st blk off) = false
  let drop := fun (s : State) => { s with link := { s.link with waiting := s.link.waiting.filter fun m => !(lostFor s h pa).contains m } }
  let src := noRouteSource h
  let msg : InvMsg := ⟨2, 0, 5, 0, 0, 48⟩
  let s0 : State := liveSt [⟨0, 1, 0⟩, ⟨0, 1, 3⟩, portStop 2, wsStop 0]
  decide ((fun (s : State) => other s ∧ seenTarget s w pa = .regs cfg ∧ pa % 4 = 0 ∧ regPlace s cfg = none) ((fun (s : State) => memSt s) s0))) = true := by decide +kernel

theorem wit_MeshCaravanAndMessageEvents_19 : (
  let st : Stop := ⟨0, 1, 3⟩
  let st2 : Stop := ⟨0, 1, 3⟩
  let d : Fin 4 := 0
  let die : Fin 2 := 0
  let k : Fin 4 := 1
  let port : Fin 12 := 2
  let p : Fin 4 := 1
  let kept : Fin 4 := 3
  let fec : Nat := 3
  let crc := true
  let idle := false
  let ackv := true
  let ackseq : BitVec 10 := 5
  let crvc : Fin 8 := 3
  let crn : BitVec 9 := 4
  let sz : Fin 4 := 3
  let blk : Nat := 1
  let off : Nat := 8
  let tag : Nat := 9
  let line : Nat := 0
  let n : Fin 192 := 0
  let m : NodeMsg := ⟨1, pkgLocus 1, 9, 0, 0, [], none⟩
  let who : Option Hart := some (.drover ⟨0, 1, 3⟩ 1 0)
  let h : Hart := .drover ⟨0, 1, 3⟩ 1 0
  let data : List Byte := List.replicate 64 5
  let value : Word := 77
  let at_ : Word := 900
  let dw : Word := 0x123456789
  let seq : BitVec 10 := 5
  let pa : Nat := 0x100000
  let way : Nat := 3
  let w : World := .normal
  let lv : Level := .s
  let e : NetLink := .mesh ⟨0, 1, 3⟩ 0
  let b : Bcast := ⟨4, none, 2 ^ 32 + 9, ⟨2, 0, 5, 0, 0, 48⟩, [7, 9]⟩
  let cfg : Nat := rkey (wsStop 0) 13 TB_CTL
  let map : BitVec 4 := 4
  let on : Hart := .outrider 3
  let way : Nat := 4
  let pa := depotBase 0 ⟨0,1,3⟩
  let ms := NetLink.mesh st d
  let fd := NetLink.ford die k
  let ps := portStop port
  let cv := fun (s : State) => portProto s port.val = 2 ∧ cvState s port = 2
  let up := fun (s : State) (st : Stop) (blk off : Nat) => rput s st blk off (BitVec.ofNat 32 (min (2 ^ 32 - 1) ((rget s st blk off).toNat + 1)))
  let wait := fun (s : State) (op : Nat) => waitingFor s p.val tag = some (m, who) ∧ m.op = op
  let other := fun (s : State) => p.val ≠ pkgNum s
  let was := fun (s : State) => unwait s p.val tag
  let lc := fun (s : State) => cvGet s port.val
  let fecd := fun (s : State) => rput s ps cvBlk CV_FEC_CNT (BitVec.ofNat 32 (min (2 ^ 32 - 1) ((rget s ps cvBlk CV_FEC_CNT).toNat + fec)))
  let credited := fun (s : State) => cvPut (fecd s) port.val { lc (fecd s) with used := mapSet (fun _ => 0) (lc (fecd s)).used crvc.val (mapGet (fun _ => 0) (lc (fecd s)).used crvc.val - crn.toNat) }
  let came := fun (s : State) => if ackv then cvAcked (credited s) port ackseq.toNat else pump (credited s)
  let taken := fun (s : State) => cvPut (came s) port.val { lc (came s) with rx := seq.toNat, nak := false, unacked := (lc (came s)).unacked + 1 }
  let reg := pkgInit lv w
  let adm := fun (s : State) => regPlace s (pkgNum s * 2 ^ 30 + rkey st blk off) = some (st, blk, off) ∧ pathFails s st = false ∧ regRefuse s w st blk off = .no ∧ stopPowered s st = true ∧ (accDomain s st blk off = 15 ∨ domState s st (accDomain s st blk off) = dON) ∧ blockHeld s (pkgNum s * 2 ^ 30 + rkey st blk off) = false
  let drop := fun (s : State) => { s with link := { s.link with waiting := s.link.waiting.filter fun m => !(lostFor s h pa).contains m } }
  let src := noRouteSource h
  let msg : InvMsg := ⟨2, 0, 5, 0, 0, 48⟩
  let s0 : State := liveSt [⟨0, 1, 0⟩, ⟨0, 1, 3⟩, portStop 2, wsStop 0]
  decide ((fun (s : State) => other s ∧ seenTarget s w pa = .depot st way) ((fun (s : State) => (let s := memSt s; { s with pkg := { s.pkg with depot := [(stopIdx ⟨0,1,3⟩, 16)] } })) s0)) &&
  decide ((fun (s : State) => other s ∧ seenTarget s w pa = .depot st way) ((fun (s : State) => (let s := memSt s; { s with pkg := { s.pkg with depot := [(stopIdx ⟨0,1,3⟩, 16)] } })) s0)) &&
  decide ((fun (s : State) => other s ∧ seenTarget s w pa = .depot st way) ((fun (s : State) => (let s := memSt s; { s with pkg := { s.pkg with depot := [(stopIdx ⟨0,1,3⟩, 16)] } })) s0))) = true := by decide +kernel

theorem wit_MeshCaravanAndMessageEvents_20 : (
  let st : Stop := ⟨0, 1, 3⟩
  let st2 : Stop := ⟨0, 1, 3⟩
  let d : Fin 4 := 0
  let die : Fin 2 := 0
  let k : Fin 4 := 1
  let port : Fin 12 := 2
  let p : Fin 4 := 1
  let kept : Fin 4 := 3
  let fec : Nat := 3
  let crc := true
  let idle := false
  let ackv := true
  let ackseq : BitVec 10 := 5
  let crvc : Fin 8 := 3
  let crn : BitVec 9 := 4
  let sz : Fin 4 := 3
  let blk : Nat := 1
  let off : Nat := 8
  let tag : Nat := 9
  let line : Nat := 0
  let n : Fin 192 := 0
  let m : NodeMsg := ⟨1, pkgLocus 1, 9, 0, 0, [], none⟩
  let who : Option Hart := some (.drover ⟨0, 1, 3⟩ 1 0)
  let h : Hart := .drover ⟨0, 1, 3⟩ 1 0
  let data : List Byte := List.replicate 64 5
  let value : Word := 77
  let at_ : Word := 900
  let dw : Word := 0x123456789
  let seq : BitVec 10 := 5
  let pa : Nat := 0x100000
  let way : Nat := 3
  let w : World := .normal
  let lv : Level := .s
  let e : NetLink := .mesh ⟨0, 1, 3⟩ 0
  let b : Bcast := ⟨4, none, 2 ^ 32 + 9, ⟨2, 0, 5, 0, 0, 48⟩, [7, 9]⟩
  let cfg : Nat := rkey (wsStop 0) 13 TB_CTL
  let map : BitVec 4 := 4
  let on : Hart := .outrider 3
  let pa : Nat := 0xFFF0000000000 + cfg
  let ms := NetLink.mesh st d
  let fd := NetLink.ford die k
  let ps := portStop port
  let cv := fun (s : State) => portProto s port.val = 2 ∧ cvState s port = 2
  let up := fun (s : State) (st : Stop) (blk off : Nat) => rput s st blk off (BitVec.ofNat 32 (min (2 ^ 32 - 1) ((rget s st blk off).toNat + 1)))
  let wait := fun (s : State) (op : Nat) => waitingFor s p.val tag = some (m, who) ∧ m.op = op
  let other := fun (s : State) => p.val ≠ pkgNum s
  let was := fun (s : State) => unwait s p.val tag
  let lc := fun (s : State) => cvGet s port.val
  let fecd := fun (s : State) => rput s ps cvBlk CV_FEC_CNT (BitVec.ofNat 32 (min (2 ^ 32 - 1) ((rget s ps cvBlk CV_FEC_CNT).toNat + fec)))
  let credited := fun (s : State) => cvPut (fecd s) port.val { lc (fecd s) with used := mapSet (fun _ => 0) (lc (fecd s)).used crvc.val (mapGet (fun _ => 0) (lc (fecd s)).used crvc.val - crn.toNat) }
  let came := fun (s : State) => if ackv then cvAcked (credited s) port ackseq.toNat else pump (credited s)
  let taken := fun (s : State) => cvPut (came s) port.val { lc (came s) with rx := seq.toNat, nak := false, unacked := (lc (came s)).unacked + 1 }
  let reg := pkgInit lv w
  let adm := fun (s : State) => regPlace s (pkgNum s * 2 ^ 30 + rkey st blk off) = some (st, blk, off) ∧ pathFails s st = false ∧ regRefuse s w st blk off = .no ∧ stopPowered s st = true ∧ (accDomain s st blk off = 15 ∨ domState s st (accDomain s st blk off) = dON) ∧ blockHeld s (pkgNum s * 2 ^ 30 + rkey st blk off) = false
  let drop := fun (s : State) => { s with link := { s.link with waiting := s.link.waiting.filter fun m => !(lostFor s h pa).contains m } }
  let src := noRouteSource h
  let msg : InvMsg := ⟨2, 0, 5, 0, 0, 48⟩
  let s0 : State := liveSt [⟨0, 1, 0⟩, ⟨0, 1, 3⟩, portStop 2, wsStop 0]
  decide ((fun (s : State) => other s ∧ seenTarget s w pa = .regs cfg) ((fun (s : State) => memSt s) s0))) = true := by decide +kernel

theorem wit_MeshCaravanAndMessageEvents_21 : (
  let st : Stop := ⟨0, 1, 3⟩
  let st2 : Stop := ⟨0, 1, 3⟩
  let d : Fin 4 := 0
  let die : Fin 2 := 0
  let k : Fin 4 := 1
  let port : Fin 12 := 2
  let p : Fin 4 := 1
  let kept : Fin 4 := 3
  let fec : Nat := 3
  let crc := true
  let idle := false
  let ackv := true
  let ackseq : BitVec 10 := 5
  let crvc : Fin 8 := 3
  let crn : BitVec 9 := 4
  let sz : Fin 4 := 3
  let blk : Nat := 1
  let off : Nat := 8
  let tag : Nat := 9
  let line : Nat := 0
  let n : Fin 192 := 0
  let m : NodeMsg := ⟨1, pkgLocus 1, 9, 0, 0, [], none⟩
  let who : Option Hart := some (.drover ⟨0, 1, 3⟩ 1 0)
  let h : Hart := .drover ⟨0, 1, 3⟩ 1 0
  let data : List Byte := List.replicate 64 5
  let value : Word := 77
  let at_ : Word := 900
  let dw : Word := 0x123456789
  let seq : BitVec 10 := 5
  let pa : Nat := 0x100000
  let way : Nat := 3
  let w : World := .normal
  let lv : Level := .s
  let e : NetLink := .mesh ⟨0, 1, 3⟩ 0
  let b : Bcast := ⟨4, none, 2 ^ 32 + 9, ⟨2, 0, 5, 0, 0, 48⟩, [7, 9]⟩
  let cfg : Nat := rkey (wsStop 0) 13 TB_CTL
  let map : BitVec 4 := 4
  let on : Hart := .outrider 3
  let b : Bcast := ⟨4, none, 2 ^ 32 + 9, ⟨2, 0, 5, 0, 0, 48⟩, [514, 9]⟩
  let ms := NetLink.mesh st d
  let fd := NetLink.ford die k
  let ps := portStop port
  let cv := fun (s : State) => portProto s port.val = 2 ∧ cvState s port = 2
  let up := fun (s : State) (st : Stop) (blk off : Nat) => rput s st blk off (BitVec.ofNat 32 (min (2 ^ 32 - 1) ((rget s st blk off).toNat + 1)))
  let wait := fun (s : State) (op : Nat) => waitingFor s p.val tag = some (m, who) ∧ m.op = op
  let other := fun (s : State) => p.val ≠ pkgNum s
  let was := fun (s : State) => unwait s p.val tag
  let lc := fun (s : State) => cvGet s port.val
  let fecd := fun (s : State) => rput s ps cvBlk CV_FEC_CNT (BitVec.ofNat 32 (min (2 ^ 32 - 1) ((rget s ps cvBlk CV_FEC_CNT).toNat + fec)))
  let credited := fun (s : State) => cvPut (fecd s) port.val { lc (fecd s) with used := mapSet (fun _ => 0) (lc (fecd s)).used crvc.val (mapGet (fun _ => 0) (lc (fecd s)).used crvc.val - crn.toNat) }
  let came := fun (s : State) => if ackv then cvAcked (credited s) port ackseq.toNat else pump (credited s)
  let taken := fun (s : State) => cvPut (came s) port.val { lc (came s) with rx := seq.toNat, nak := false, unacked := (lc (came s)).unacked + 1 }
  let reg := pkgInit lv w
  let adm := fun (s : State) => regPlace s (pkgNum s * 2 ^ 30 + rkey st blk off) = some (st, blk, off) ∧ pathFails s st = false ∧ regRefuse s w st blk off = .no ∧ stopPowered s st = true ∧ (accDomain s st blk off = 15 ∨ domState s st (accDomain s st blk off) = dON) ∧ blockHeld s (pkgNum s * 2 ^ 30 + rkey st blk off) = false
  let drop := fun (s : State) => { s with link := { s.link with waiting := s.link.waiting.filter fun m => !(lostFor s h pa).contains m } }
  let src := noRouteSource h
  let msg : InvMsg := ⟨2, 0, 5, 0, 0, 48⟩
  let s0 : State := liveSt [⟨0, 1, 0⟩, ⟨0, 1, 3⟩, portStop 2, wsStop 0]
  decide ((fun (s : State) => s.cpu.bcasts = [b] ∧ 512 + port.val ∈ b.left ∧ portBusy (invIotu s port b.msg) port = false) ((fun (s : State) => { s with cpu := { s.cpu with bcasts := [b] } }) s0))) = true := by decide +kernel

theorem wit_ResetAndBootEvents_1 : (
  let k : Fin 6 := 1
  let ch : Fin 8 := 3
  let port : Fin 12 := 2
  let straps : BitVec 6 := 0x24
  let lanes : BitVec 16 := 0xFF
  let serial : Word := 0x1234567812345678
  let f : Flash := ⟨true, [1], [2], [3], [4], [5], false, true, [], []⟩
  let ws := wsStop 0
  let fall := fun (s : State) => (setBootStep (fwAuthFail s) 2)
  let latched := fun (s : State) (k : Nat) => { s with ws := { s.ws with trigger := some (s.ws.trigger.getD k) } }
  let done := fun (s : State) => bootStep s = 9 ∧ s.ws.path = 0
  let rails := fun (s : State) => rput s ws 3 RAIL_STAT (rget s ws 3 RAIL_STAT ||| BitVec.ofNat 32 (railBits s.ws.rail))
  let rail := fun (s : State) (g : Nat) => { s with ws := { s.ws with rail := g } }
  let calm := fun (s : State) => bootStep s ≠ 4 ∧ s.ws.trigger = none
  let work := fun (s : State) => mapGet (fun _ => 0) s.hbm.work k.val
  let named := fun (s : State) => rput64 (setWork s k 0) (stkStop k) 6 STK_SERIAL_LO serial.toNat
  let cst := chanStop k ch
  let cc := chanCtl ch
  let cv := fun (s : State) => portProto s port.val = 2 ∧ cvState s port = 2
  let trained := fun (s : State) => portProto s port.val = 2 ∧ (cvState s port = 3 ∨ (cvState s port = 1 ∧ (cvGet s port.val).ident = true))
  let least := fun (s : State) => min 2 (rfld s (portStop port) cvBlk CV_CTL 2 2)
  let formed := fun (s : State) => bootFormed (formNode s)
  let s0 : State := liveSt [⟨0, 1, 0⟩, portStop 2, wsStop 0]
  decide ((fun (s : State) => bootStep s = 0 ∧ f.swap = false) ((fun (s : State) => s) s0)) &&
  decide ((fun (s : State) => bootStep s = 0 ∧ s.ws.flash.swap = false) ((fun (s : State) => s) s0)) &&
  decide ((fun (s : State) => bootStep s ≠ 0) ((fun (s : State) => (fun (s : State) => s) (let t := setBootStep s 9; { t with ws := { t.ws with path := 0 } })) s0)) &&
  decide ((fun (s : State) => bootStep s ≠ 1) ((fun (s : State) => s) s0)) &&
  decide ((fun (s : State) => 0 < s.ws.rail ∧ s.ws.rail < 5) ((fun (s : State) => rail s 2) s0)) &&
  decide ((fun (s : State) => s.ws.rail = 5) ((fun (s : State) => rail s 5) s0)) &&
  decide ((fun (s : State) => s.ws.rail = 0) ((fun (s : State) => s) s0)) &&
  decide ((fun (s : State) => s.ws.rail ≠ 0) ((fun (s : State) => rail s 5) s0)) &&
  decide ((fun (s : State) => bootStep s = 3 ∧ s.ws.rail = 0 ∧ rfld s ws 3 BOOT_STAT 4 4 = 3 ∧ rbit s ws 3 BOOT_STAT 9 = false ∧ rfld s ws 3 RAIL_STAT 0 13 = 0) ((fun (s : State) => rput (rput s ws 3 BOOT_STAT 0x33) ws 3 RAIL_STAT 0) s0)) &&
  decide ((fun (s : State) => rbit s ws 3 BOOT_STAT 9 = true) ((fun (s : State) => rput s ws 3 BOOT_STAT 0x233) s0)) &&
  decide ((fun (s : State) => bootStep s ≠ 0) ((fun (s : State) => (fun (s : State) => rput s (wsStop 1) 10 LEDGER_LOST 5) (let t := setBootStep s 9; { t with ws := { t.ws with path := 0 } })) s0)) &&
  decide ((fun (s : State) => bootStep s = 0) ((fun (s : State) => s) s0))) = true := by decide +kernel

theorem wit_ResetAndBootEvents_2 : (
  let k : Fin 6 := 1
  let ch : Fin 8 := 3
  let port : Fin 12 := 2
  let straps : BitVec 6 := 0x24
  let lanes : BitVec 16 := 0xFF
  let serial : Word := 0x1234567812345678
  let f : Flash := ⟨true, [1], [2], [3], [4], [5], false, true, [], []⟩
  let ws := wsStop 0
  let fall := fun (s : State) => (setBootStep (fwAuthFail s) 2)
  let latched := fun (s : State) (k : Nat) => { s with ws := { s.ws with trigger := some (s.ws.trigger.getD k) } }
  let done := fun (s : State) => bootStep s = 9 ∧ s.ws.path = 0
  let rails := fun (s : State) => rput s ws 3 RAIL_STAT (rget s ws 3 RAIL_STAT ||| BitVec.ofNat 32 (railBits s.ws.rail))
  let rail := fun (s : State) (g : Nat) => { s with ws := { s.ws with rail := g } }
  let calm := fun (s : State) => bootStep s ≠ 4 ∧ s.ws.trigger = none
  let work := fun (s : State) => mapGet (fun _ => 0) s.hbm.work k.val
  let named := fun (s : State) => rput64 (setWork s k 0) (stkStop k) 6 STK_SERIAL_LO serial.toNat
  let cst := chanStop k ch
  let cc := chanCtl ch
  let cv := fun (s : State) => portProto s port.val = 2 ∧ cvState s port = 2
  let trained := fun (s : State) => portProto s port.val = 2 ∧ (cvState s port = 3 ∨ (cvState s port = 1 ∧ (cvGet s port.val).ident = true))
  let least := fun (s : State) => min 2 (rfld s (portStop port) cvBlk CV_CTL 2 2)
  let formed := fun (s : State) => bootFormed (formNode s)
  let s0 : State := liveSt [⟨0, 1, 0⟩, portStop 2, wsStop 0]
  decide ((fun (s : State) => True) ((fun (s : State) => (fun (s : State) => rput s (wsStop 1) 10 LEDGER_LOST 5) (let t := setBootStep s 9; { t with ws := { t.ws with path := 0 } })) s0)) &&
  decide ((fun (s : State) => done s ∧ pkgState s = 0) ((fun (s : State) => (fun (s : State) => s) (let t := setBootStep s 9; { t with ws := { t.ws with path := 0 } })) s0)) &&
  decide ((fun (s : State) => s.ws.path = 1 ∧ bootStep s ≠ 0 ∧ pkgState s ≠ 7) ((fun (s : State) => (fun (s : State) => s) (let t := setBootStep s 4; { t with ws := { t.ws with path := 1 } })) s0)) &&
  decide ((fun (s : State) => done s ∧ pkgState s = 3) ((fun (s : State) => (fun (s : State) => rputF s ws 4 PKG_STATE 0 4 3) (let t := setBootStep s 9; { t with ws := { t.ws with path := 0 } })) s0)) &&
  decide ((fun (s : State) => done s ∧ pkgState s = 2) ((fun (s : State) => (fun (s : State) => rputF s ws 4 PKG_STATE 0 4 2) (let t := setBootStep s 9; { t with ws := { t.ws with path := 0 } })) s0)) &&
  decide ((fun (s : State) => s.ws.path = 3 ∧ 4 < bootStep s ∧ pkgState s ≠ 7) ((fun (s : State) => (fun (s : State) => s) (let t := setBootStep s 6; { t with ws := { t.ws with path := 3 } })) s0)) &&
  decide ((fun (s : State) => s.ws.path = 3 ∧ 0 < bootStep s ∧ bootStep s ≤ 4 ∧ pkgState s ≠ 7) ((fun (s : State) => (fun (s : State) => s) (let t := setBootStep s 4; { t with ws := { t.ws with path := 3 } })) s0)) &&
  decide ((fun (s : State) => bootStep s = 0 ∨ pkgState s = 7 ∨ s.ws.path = 2) ((fun (s : State) => (fun (s : State) => s) (let t := setBootStep s 6; { t with ws := { t.ws with path := 2 } })) s0)) &&
  decide ((fun (s : State) => cv s ∧ done s ∧ pkgState s = 0) ((fun (s : State) => (fun (s : State) => (fun (s : State) => s) (let t := setBootStep s 9; { t with ws := { t.ws with path := 0 } })) (rputF (rputF (rputF (memSt s) (portStop 2) 1 PORT_CAP 8 2 2) (portStop 2) cvBlk CV_STAT 0 3 2) (portStop 2) cvBlk CV_CTL 0 2 1)) s0)) &&
  decide ((fun (s : State) => ¬ cv s) ((fun (s : State) => s) s0)) &&
  decide ((fun (s : State) => epStrapped s = true ∧ bootStep s ≠ 0 ∧ rbit s ws 3 STRAP 5 = false) ((fun (s : State) => (fun (s : State) => rput s ws 3 STRAP 4) (let t := setBootStep s 9; { t with ws := { t.ws with path := 0 } })) s0)) &&
  decide ((fun (s : State) => epStrapped s = true ∧ done s ∧ pkgState s = 0 ∧ rbit s ws 3 STRAP 5 = true ∧ (let t := epPerst s; done t ∧ pkgState t = 0)) ((fun (s : State) => (fun (s : State) => rput s ws 3 STRAP 0x24) (let t := setBootStep s 9; { t with ws := { t.ws with path := 0 } })) s0))) = true := by decide +kernel

theorem wit_ResetAndBootEvents_3 : (
  let k : Fin 6 := 1
  let ch : Fin 8 := 3
  let port : Fin 12 := 2
  let straps : BitVec 6 := 0x24
  let lanes : BitVec 16 := 0xFF
  let serial : Word := 0x1234567812345678
  let f : Flash := ⟨true, [1], [2], [3], [4], [5], false, true, [], []⟩
  let ws := wsStop 0
  let fall := fun (s : State) => (setBootStep (fwAuthFail s) 2)
  let latched := fun (s : State) (k : Nat) => { s with ws := { s.ws with trigger := some (s.ws.trigger.getD k) } }
  let done := fun (s : State) => bootStep s = 9 ∧ s.ws.path = 0
  let rails := fun (s : State) => rput s ws 3 RAIL_STAT (rget s ws 3 RAIL_STAT ||| BitVec.ofNat 32 (railBits s.ws.rail))
  let rail := fun (s : State) (g : Nat) => { s with ws := { s.ws with rail := g } }
  let calm := fun (s : State) => bootStep s ≠ 4 ∧ s.ws.trigger = none
  let work := fun (s : State) => mapGet (fun _ => 0) s.hbm.work k.val
  let named := fun (s : State) => rput64 (setWork s k 0) (stkStop k) 6 STK_SERIAL_LO serial.toNat
  let cst := chanStop k ch
  let cc := chanCtl ch
  let cv := fun (s : State) => portProto s port.val = 2 ∧ cvState s port = 2
  let trained := fun (s : State) => portProto s port.val = 2 ∧ (cvState s port = 3 ∨ (cvState s port = 1 ∧ (cvGet s port.val).ident = true))
  let least := fun (s : State) => min 2 (rfld s (portStop port) cvBlk CV_CTL 2 2)
  let formed := fun (s : State) => bootFormed (formNode s)
  let s0 : State := liveSt [⟨0, 1, 0⟩, portStop 2, wsStop 0]
  decide ((fun (s : State) => epStrapped s = false) ((fun (s : State) => (fun (s : State) => s) (let t := setBootStep s 9; { t with ws := { t.ws with path := 0 } })) s0)) &&
  decide ((fun (s : State) => pkgState s = 6 ∧ s.ws.path = 0) ((fun (s : State) => rputF s ws 4 PKG_STATE 0 4 6) s0)) &&
  decide ((fun (s : State) => True) ((fun (s : State) => rputF s ws 4 PKG_STATE 0 4 6) s0)) &&
  decide ((fun (s : State) => pkgState s = 6 ∧ s.ws.path = 0) ((fun (s : State) => rputF s ws 4 PKG_STATE 0 4 6) s0)) &&
  decide ((fun (s : State) => work s = 1 ∧ calm s) ((fun (s : State) => (fun (s : State) => s) (setWork s k 1)) s0)) &&
  decide ((fun (s : State) => work s = 2 ∧ calm s) ((fun (s : State) => (fun (s : State) => s) (setWork s k 2)) s0)) &&
  decide ((fun (s : State) => work s = 2) ((fun (s : State) => (fun (s : State) => s) (setWork s k 2)) s0)) &&
  decide ((fun (s : State) => work s = 1 ∧ calm s) ((fun (s : State) => (fun (s : State) => s) (setWork s k 1)) s0)) &&
  decide ((fun (s : State) => work s = 3 ∧ calm s) ((fun (s : State) => (fun (s : State) => s) (setWork s k 3)) s0)) &&
  decide ((fun (s : State) => work s = 0) ((fun (s : State) => s) s0)) &&
  decide ((fun (s : State) => rbit s cst (mcBlk cc) MC_STAT 3 = true) ((fun (s : State) => rput s cst (mcBlk cc) MC_STAT 0xC) s0)) &&
  decide ((fun (s : State) => rbit s cst (mcBlk cc) MC_STAT 3 = true) ((fun (s : State) => rput s cst (mcBlk cc) MC_STAT 0xC) s0))) = true := by decide +kernel

theorem wit_ResetAndBootEvents_4 : (
  let k : Fin 6 := 1
  let ch : Fin 8 := 3
  let port : Fin 12 := 2
  let straps : BitVec 6 := 0x24
  let lanes : BitVec 16 := 0xFF
  let serial : Word := 0x1234567812345678
  let f : Flash := ⟨true, [1], [2], [3], [4], [5], false, true, [], []⟩
  let ws := wsStop 0
  let fall := fun (s : State) => (setBootStep (fwAuthFail s) 2)
  let latched := fun (s : State) (k : Nat) => { s with ws := { s.ws with trigger := some (s.ws.trigger.getD k) } }
  let done := fun (s : State) => bootStep s = 9 ∧ s.ws.path = 0
  let rails := fun (s : State) => rput s ws 3 RAIL_STAT (rget s ws 3 RAIL_STAT ||| BitVec.ofNat 32 (railBits s.ws.rail))
  let rail := fun (s : State) (g : Nat) => { s with ws := { s.ws with rail := g } }
  let calm := fun (s : State) => bootStep s ≠ 4 ∧ s.ws.trigger = none
  let work := fun (s : State) => mapGet (fun _ => 0) s.hbm.work k.val
  let named := fun (s : State) => rput64 (setWork s k 0) (stkStop k) 6 STK_SERIAL_LO serial.toNat
  let cst := chanStop k ch
  let cc := chanCtl ch
  let cv := fun (s : State) => portProto s port.val = 2 ∧ cvState s port = 2
  let trained := fun (s : State) => portProto s port.val = 2 ∧ (cvState s port = 3 ∨ (cvState s port = 1 ∧ (cvGet s port.val).ident = true))
  let least := fun (s : State) => min 2 (rfld s (portStop port) cvBlk CV_CTL 2 2)
  let formed := fun (s : State) => bootFormed (formNode s)
  let s0 : State := liveSt [⟨0, 1, 0⟩, portStop 2, wsStop 0]
  decide ((fun (s : State) => trained s ∧ lanes = 0xFF ∧ 1 ≤ least s ∧ (let t := relayUpdate (cvStatPut (cvStatPut s port 0 3 2) port 3 2 1); t.link.forming = false)) ((fun (s : State) => (fun (s : State) => rputF s (portStop 2) cvBlk CV_CTL 2 2 2) (rputF (rputF (rputF (memSt s) (portStop 2) 1 PORT_CAP 8 2 2) (portStop 2) cvBlk CV_STAT 0 3 3) (portStop 2) cvBlk CV_CTL 0 2 1)) s0)) &&
  decide ((fun (s : State) => trained s ∧ (laneWidth lanes = none ∨ (lanes = 0xFF ∧ least s = 0))) ((fun (s : State) => (fun (s : State) => s) (rputF (rputF (rputF (memSt s) (portStop 2) 1 PORT_CAP 8 2 2) (portStop 2) cvBlk CV_STAT 0 3 3) (portStop 2) cvBlk CV_CTL 0 2 1)) s0)) &&
  decide ((fun (s : State) => ¬ trained s) ((fun (s : State) => s) s0)) &&
  decide ((fun (s : State) => s.link.forming = true ∧ s.ws.path = 1) ((fun (s : State) => (fun (s : State) => { s with link := { s.link with forming := true } }) (let t := setBootStep s 7; { t with ws := { t.ws with path := 1 } })) s0)) &&
  decide ((fun (s : State) => s.link.forming = false) ((fun (s : State) => s) s0)) &&
  decide ((fun (s : State) => pkgState s ≠ 3) ((fun (s : State) => s) s0)) &&
  decide ((fun (s : State) => pkgState s = 3 ∧ (∀ k, stkState s k ≠ 3) ∧ s.ws.trigger = none) ((fun (s : State) => rputF s ws 4 PKG_STATE 0 4 3) s0))) = true := by decide +kernel

theorem wit_ResetAndBootEvents_5 : (
  let k : Fin 6 := 1
  let ch : Fin 8 := 3
  let port : Fin 12 := 2
  let straps : BitVec 6 := 0x24
  let lanes : BitVec 16 := 0xFF
  let serial : Word := 0x1234567812345678
  let f : Flash := ⟨true, [1], [2], [3], [4], [5], false, true, [], []⟩
  let f : Flash := ⟨true, [1], [2], [3], [4], [5], true, true, [], []⟩
  let ws := wsStop 0
  let fall := fun (s : State) => (setBootStep (fwAuthFail s) 2)
  let latched := fun (s : State) (k : Nat) => { s with ws := { s.ws with trigger := some (s.ws.trigger.getD k) } }
  let done := fun (s : State) => bootStep s = 9 ∧ s.ws.path = 0
  let rails := fun (s : State) => rput s ws 3 RAIL_STAT (rget s ws 3 RAIL_STAT ||| BitVec.ofNat 32 (railBits s.ws.rail))
  let rail := fun (s : State) (g : Nat) => { s with ws := { s.ws with rail := g } }
  let calm := fun (s : State) => bootStep s ≠ 4 ∧ s.ws.trigger = none
  let work := fun (s : State) => mapGet (fun _ => 0) s.hbm.work k.val
  let named := fun (s : State) => rput64 (setWork s k 0) (stkStop k) 6 STK_SERIAL_LO serial.toNat
  let cst := chanStop k ch
  let cc := chanCtl ch
  let cv := fun (s : State) => portProto s port.val = 2 ∧ cvState s port = 2
  let trained := fun (s : State) => portProto s port.val = 2 ∧ (cvState s port = 3 ∨ (cvState s port = 1 ∧ (cvGet s port.val).ident = true))
  let least := fun (s : State) => min 2 (rfld s (portStop port) cvBlk CV_CTL 2 2)
  let formed := fun (s : State) => bootFormed (formNode s)
  let s0 : State := liveSt [⟨0, 1, 0⟩, portStop 2, wsStop 0]
  decide ((fun (s : State) => bootStep s = 0 ∧ f.swap = true) ((fun (s : State) => s) s0))) = true := by decide +kernel

theorem wit_PortFaceAndInterruptEvents_1 : (
  let port : Fin 12 := 2
  let rid : BitVec 16 := 256
  let tc : Fin 8 := 1
  let addr : Word := 0x1000
  let len : BitVec 13 := 100
  let pa : Nat := 0x1000
  let data : List Byte := [1,2,3,4]
  let h : Hart := .drover ⟨0, 1, 3⟩ 1 0
  let k : Fin 14 := 2
  let i : Nat := 7
  let w : World := .normal
  let locus : BitVec 16 := BitVec.ofNat 16 (stopLocus 0 ⟨0,1,3⟩ + 32)
  let src : BitVec 12 := 17
  let q : Fin 64 := 3
  let rate : Fin 8 := 4
  let width : Fin 32 := 16
  let aer : Fin 32 := 5
  let tag : Nat := 4
  let nt := false
  let ro := false
  let lost : Nat := 0
  let dw : Fin 16 := 4
  let be : BitVec 4 := 15
  let v : Reg32 := 0x12345678
  let slot : Nat := 5
  let st : Stop := ⟨0, 1, 3⟩
  let r : OutReq := ⟨2, 4, .env, 0, 0x40, 4, [], 0⟩
  let ps := portStop port
  let es := portStop 0
  let root := fun (s : State) (n : Nat) => pkgState s = 0 ∧ (portProto s port.val = 0 ∨ portProto s port.val = 1) ∧ linkUp s port = true ∧ 0 < n ∧ addr.toNat % 4096 + n ≤ 4096
  let tr := fun (s : State) (kind : AKind) => (ioTranslate s port rid.toNat kind addr.toNat).1
  let res := fun (s : State) (kind : AKind) => (ioTranslate s port rid.toNat kind addr.toNat).2
  let pw := fun (s : State) => portWorld s port
  let hits := fun (s : State) (kind : AKind) (t : InTarget) => res s kind = .ok pa nt ∧ inTarget (tr s kind) port (pw (tr s kind)) pa = t
  let all := fun (s : State) (n : Nat) => ((linesOf pa n).all fun l => decide (inTarget s port (pw s) (max pa (64 * l)) = .memory)) = true
  let sk := fun (s : State) => streamOf s port rid.toNat tc.val
  let rd := fun (s : State) => (⟨port.val, 1, 0, rid.toNat, addr.toNat, len.toNat, [], false, sk s, none, none⟩ : InReq)
  let wr := fun (s : State) (relaxed : Bool) => (⟨port.val, 0, 0, rid.toNat, addr.toNat, data.length, data, relaxed, sk s, none, none⟩ : InReq)
  let am := fun (s : State) (n : Nat) => (⟨port.val, 2, 1, rid.toNat, addr.toNat, n, data, false, sk s, none, none⟩ : InReq)
  let turn := fun (u : State) (x : InReq) (signal : Bool) => (inEarlier u x).any (mustFollow none signal x) = false
  let fetch := fun (s : State) => inboundLines (tr s .read) port (sk s) pa len.toNat false nt
  let store := fun (s : State) => inboundLines (tr s .write) port (sk s) pa data.length true (nt || decide (sk s ≠ 0))
  let swap := fun (s : State) => inboundLines (tr s .rw) port (sk s) pa 8 true (decide (sk s ≠ 0))
  let lost2 := fun (s : State) => let m := s.io.posted.countP fun x => decide (x.port = port.val); let k := min lost m; let s1 := portSend (rputF s ps 1 PORT_STAT 0 9 0) port.val (m - k); portEvent (endRequests (rsetB (rsat { s1 with io := { s1.io with posted := s1.io.posted.filter fun x => decide (x.port ≠ port.val) } } ps 1 PORT_DROP 0 32 k) ps 1 PORT_STAT 9 true) port.val .down) port
  let door := fun (s : State) => ((let x : InReq := ⟨0, 0, 0, 0, 0x20000 + 0x40 * q.val, data.length, data, false, 0, none, none⟩; (inWaiting s x).getD x))
  let refuse := fun (s : State) => ioCount (rsetB (rsat s ps 1 PORT_UR_CNT 0 32 1) ps 1 PORT_STAT 11 true) port 9 1
  let answered := fun (s : State) (c : Nat) (d : List Byte) (p : Bool) => { s with io := { s.io with cpl := mapSet (fun _ => (0, [], false)) s.io.cpl port.val (c, d, p) } }
  let face := fun (s : State) => pkgState s = 0 ∧ portProto s 0 = 3 ∧ faceOpen s = true
  let found := fun (s : State) => s.io.reqs.find? (fun r => decide (r.port = port.val ∧ r.tag = tag)) = some r
  let out := fun (s : State) => { s with io := { s.io with reqs := s.io.reqs.filter fun x => !decide (x.port = port.val ∧ x.tag = tag) } }
  let priv := fun (s : State) => locus.toNat / 16384 = pkgNum s ∧ locusNamesPlace locus.toNat = true ∧ droverOf (pkgNum s) locus.toNat = some h
  let seen := fun (s : State) => pageInert s h = false ∧ privSecret s h w src.toNat = false ∧ 16 ≤ src.toNat ∧ src.toNat ≤ 47
  let lanes := BitVec.ofNat 32 (((List.range 4).map fun i => if be.getLsbD i then 0xFF * 2 ^ (8 * i) else 0).sum)
  let s0 : State := liveSt [⟨0, 1, 3⟩, ⟨0, 3, 0⟩, ⟨0, 2, 0⟩, ⟨0, 2, 1⟩, ⟨0, 0, 8⟩, portStop 0, portStop 2, wsStop 0]
  decide ((fun (s : State) => root s len.toNat ∧ hits s .read .memory ∧ all (tr s .read) len.toNat ∧ turn (tr s .read) (rd s) false ∧ (fetch s).2 = true) ((fun (s : State) => (fun (s : State) => s) (let s := memSt s; let s := rsetB (rsetB s (portStop 2) 3 BLOCK_CTL 0 true) (portStop 2) 1 PORT_STAT 0 true; ioPut s 2 { ioGet s 2 with ctx := [(256, [5,0,0,0])] })) s0)) &&
  decide ((fun (s : State) => root s len.toNat ∧ hits s .read .memory ∧ all (tr s .read) len.toNat ∧ turn (tr s .read) (rd s) false ∧ (fetch s).2 = false) ((fun (s : State) => (fun (s : State) => { s with lock := { s.lock with pins := [(3, 0x40)] } }) (let s := memSt s; let s := rsetB (rsetB s (portStop 2) 3 BLOCK_CTL 0 true) (portStop 2) 1 PORT_STAT 0 true; ioPut s 2 { ioGet s 2 with ctx := [(256, [5,0,0,0])] })) s0)) &&
  decide ((fun (s : State) => root s len.toNat ∧ hits s .read .memory ∧ ¬ turn (tr s .read) (rd s) false) ((fun (s : State) => (fun (s : State) => { s with io := { s.io with inq := [⟨2, 0, 0, 3, 0x2000, 4, [1,2,3,4], false, 0, none, none⟩] } }) (let s := memSt s; let s := rsetB (rsetB s (portStop 2) 3 BLOCK_CTL 0 true) (portStop 2) 1 PORT_STAT 0 true; ioPut s 2 { ioGet s 2 with ctx := [(256, [5,0,0,0])] })) s0)) &&
  decide ((fun (s : State) => root s len.toNat ∧ res s .read = .fault true) ((fun (s : State) => (fun (s : State) => markPoison (ioPut s 2 { ioGet s 2 with ctx := [] }) (ctxAddr s 2 256)) (let s := memSt s; let s := rsetB (rsetB s (portStop 2) 3 BLOCK_CTL 0 true) (portStop 2) 1 PORT_STAT 0 true; ioPut s 2 { ioGet s 2 with ctx := [(256, [5,0,0,0])] })) s0)) &&
  decide ((fun (s : State) => root s len.toNat ∧ res s .read = .fault false) ((fun (s : State) => (fun (s : State) => rsetB s (portStop 2) 3 BLOCK_CTL 0 false) (let s := memSt s; let s := rsetB (rsetB s (portStop 2) 3 BLOCK_CTL 0 true) (portStop 2) 1 PORT_STAT 0 true; ioPut s 2 { ioGet s 2 with ctx := [(256, [5,0,0,0])] })) s0)) &&
  decide ((fun (s : State) => pkgState s ≠ 0 ∧ pkgState s ≠ 7) ((fun (s : State) => rputF s (wsStop 0) 4 PKG_STATE 0 4 2) s0)) &&
  decide ((fun (s : State) => pkgState s = 0 ∧ (portProto s port.val = 2 ∨ portProto s port.val ≠ 3 ∧ linkUp s port = false ∧ s.io.inq = [])) ((fun (s : State) => memSt s) s0)) &&
  decide ((fun (s : State) => root s data.length ∧ hits s .write .memory ∧ all (tr s .write) data.length ∧ turn (tr s .write) (wr s ro) false ∧ (store s).2 = true) ((fun (s : State) => (fun (s : State) => s) (let s := memSt s; let s := rsetB (rsetB s (portStop 2) 3 BLOCK_CTL 0 true) (portStop 2) 1 PORT_STAT 0 true; ioPut s 2 { ioGet s 2 with ctx := [(256, [5,0,0,0])] })) s0)) &&
  decide ((fun (s : State) => root s data.length ∧ hits s .write .memory ∧ turn (tr s .write) (wr s false) false) ((fun (s : State) => (fun (s : State) => s) (let s := memSt s; let s := rsetB (rsetB s (portStop 2) 3 BLOCK_CTL 0 true) (portStop 2) 1 PORT_STAT 0 true; ioPut s 2 { ioGet s 2 with ctx := [(256, [5,0,0,0])] })) s0)) &&
  decide ((fun (s : State) => root s 8 ∧ hits s .rw .memory ∧ pa % 8 = 0 ∧ turn (tr s .rw) (am s 8) false ∧ (swap s).2 = true ∧ (amoAt (swap s).1 none pa 8 1 data).2 = .data (memRead (swap s).1 pa 8) none) ((fun (s : State) => (fun (s : State) => s) (let s := memSt s; let s := rsetB (rsetB s (portStop 2) 3 BLOCK_CTL 0 true) (portStop 2) 1 PORT_STAT 0 true; ioPut s 2 { ioGet s 2 with ctx := [(256, [5,0,0,0])] })) s0)) &&
  decide ((fun (s : State) => root s 16 ∧ hits s .rw .memory ∧ turn (tr s .rw) (am s 16) false) ((fun (s : State) => (fun (s : State) => s) (let s := memSt s; let s := rsetB (rsetB s (portStop 2) 3 BLOCK_CTL 0 true) (portStop 2) 1 PORT_STAT 0 true; ioPut s 2 { ioGet s 2 with ctx := [(256, [5,0,0,0])] })) s0)) &&
  decide ((fun (s : State) => face s ∧ turn s (door s) true ∧ epDoor s q.val = none) ((fun (s : State) => (fun (s : State) => s) (let s := memSt s; rsetB (rsetB (rputF (rput s (wsStop 0) 3 STRAP 4) (portStop 0) 1 PORT_CAP 8 2 3) (portStop 0) 6 BLOCK_CTL 0 true) (portStop 0) 6 EP_STAT 0 true)) s0))) = true := by decide +kernel

theorem wit_PortFaceAndInterruptEvents_2 : (
  let port : Fin 12 := 2
  let rid : BitVec 16 := 256
  let tc : Fin 8 := 1
  let addr : Word := 0x1000
  let len : BitVec 13 := 100
  let pa : Nat := 0x1000
  let data : List Byte := [1,2,3,4]
  let h : Hart := .drover ⟨0, 1, 3⟩ 1 0
  let k : Fin 14 := 2
  let i : Nat := 7
  let w : World := .normal
  let locus : BitVec 16 := BitVec.ofNat 16 (stopLocus 0 ⟨0,1,3⟩ + 32)
  let src : BitVec 12 := 17
  let q : Fin 64 := 3
  let rate : Fin 8 := 4
  let width : Fin 32 := 16
  let aer : Fin 32 := 5
  let tag : Nat := 4
  let nt := false
  let ro := false
  let lost : Nat := 0
  let dw : Fin 16 := 4
  let be : BitVec 4 := 15
  let v : Reg32 := 0x12345678
  let slot : Nat := 5
  let st : Stop := ⟨0, 1, 3⟩
  let r : OutReq := ⟨2, 4, .env, 0, 0x40, 4, [], 0⟩
  let ps := portStop port
  let es := portStop 0
  let root := fun (s : State) (n : Nat) => pkgState s = 0 ∧ (portProto s port.val = 0 ∨ portProto s port.val = 1) ∧ linkUp s port = true ∧ 0 < n ∧ addr.toNat % 4096 + n ≤ 4096
  let tr := fun (s : State) (kind : AKind) => (ioTranslate s port rid.toNat kind addr.toNat).1
  let res := fun (s : State) (kind : AKind) => (ioTranslate s port rid.toNat kind addr.toNat).2
  let pw := fun (s : State) => portWorld s port
  let hits := fun (s : State) (kind : AKind) (t : InTarget) => res s kind = .ok pa nt ∧ inTarget (tr s kind) port (pw (tr s kind)) pa = t
  let all := fun (s : State) (n : Nat) => ((linesOf pa n).all fun l => decide (inTarget s port (pw s) (max pa (64 * l)) = .memory)) = true
  let sk := fun (s : State) => streamOf s port rid.toNat tc.val
  let rd := fun (s : State) => (⟨port.val, 1, 0, rid.toNat, addr.toNat, len.toNat, [], false, sk s, none, none⟩ : InReq)
  let wr := fun (s : State) (relaxed : Bool) => (⟨port.val, 0, 0, rid.toNat, addr.toNat, data.length, data, relaxed, sk s, none, none⟩ : InReq)
  let am := fun (s : State) (n : Nat) => (⟨port.val, 2, 1, rid.toNat, addr.toNat, n, data, false, sk s, none, none⟩ : InReq)
  let turn := fun (u : State) (x : InReq) (signal : Bool) => (inEarlier u x).any (mustFollow none signal x) = false
  let fetch := fun (s : State) => inboundLines (tr s .read) port (sk s) pa len.toNat false nt
  let store := fun (s : State) => inboundLines (tr s .write) port (sk s) pa data.length true (nt || decide (sk s ≠ 0))
  let swap := fun (s : State) => inboundLines (tr s .rw) port (sk s) pa 8 true (decide (sk s ≠ 0))
  let lost2 := fun (s : State) => let m := s.io.posted.countP fun x => decide (x.port = port.val); let k := min lost m; let s1 := portSend (rputF s ps 1 PORT_STAT 0 9 0) port.val (m - k); portEvent (endRequests (rsetB (rsat { s1 with io := { s1.io with posted := s1.io.posted.filter fun x => decide (x.port ≠ port.val) } } ps 1 PORT_DROP 0 32 k) ps 1 PORT_STAT 9 true) port.val .down) port
  let door := fun (s : State) => ((let x : InReq := ⟨0, 0, 0, 0, 0x20000 + 0x40 * q.val, data.length, data, false, 0, none, none⟩; (inWaiting s x).getD x))
  let refuse := fun (s : State) => ioCount (rsetB (rsat s ps 1 PORT_UR_CNT 0 32 1) ps 1 PORT_STAT 11 true) port 9 1
  let answered := fun (s : State) (c : Nat) (d : List Byte) (p : Bool) => { s with io := { s.io with cpl := mapSet (fun _ => (0, [], false)) s.io.cpl port.val (c, d, p) } }
  let face := fun (s : State) => pkgState s = 0 ∧ portProto s 0 = 3 ∧ faceOpen s = true
  let found := fun (s : State) => s.io.reqs.find? (fun r => decide (r.port = port.val ∧ r.tag = tag)) = some r
  let out := fun (s : State) => { s with io := { s.io with reqs := s.io.reqs.filter fun x => !decide (x.port = port.val ∧ x.tag = tag) } }
  let priv := fun (s : State) => locus.toNat / 16384 = pkgNum s ∧ locusNamesPlace locus.toNat = true ∧ droverOf (pkgNum s) locus.toNat = some h
  let seen := fun (s : State) => pageInert s h = false ∧ privSecret s h w src.toNat = false ∧ 16 ≤ src.toNat ∧ src.toNat ≤ 47
  let lanes := BitVec.ofNat 32 (((List.range 4).map fun i => if be.getLsbD i then 0xFF * 2 ^ (8 * i) else 0).sum)
  let s0 : State := liveSt [⟨0, 1, 3⟩, ⟨0, 3, 0⟩, ⟨0, 2, 0⟩, ⟨0, 2, 1⟩, ⟨0, 0, 8⟩, portStop 0, portStop 2, wsStop 0]
  decide ((fun (s : State) => face s ∧ turn s (door s) true ∧ epDoor s q.val = some (st, slot)) ((fun (s : State) => (fun (s : State) => rput s (portStop 0) 6 (EP_DB + 12) (BitVec.ofNat 32 (2^23 + 5 * 2^16 + stopLocus 0 ⟨0,1,3⟩))) (let s := memSt s; rsetB (rsetB (rputF (rput s (wsStop 0) 3 STRAP 4) (portStop 0) 1 PORT_CAP 8 2 3) (portStop 0) 6 BLOCK_CTL 0 true) (portStop 0) 6 EP_STAT 0 true)) s0)) &&
  decide ((fun (s : State) => (portProto s port.val = 0 ∨ portProto s port.val = 1) ∧ linkUp s port = true ∧ (ctxLookup s port rid.toNat).2 = .ok [5, 0, 0, 0] ∧ (let u := (ctxLookup s port rid.toNat).1; rbit u ps 3 BLOCK_CTL 0 = true ∧ ctxValid u port [5, 0, 0, 0] = true)) ((fun (s : State) => (fun (s : State) => s) (let s := memSt s; let s := rsetB (rsetB s (portStop 2) 3 BLOCK_CTL 0 true) (portStop 2) 1 PORT_STAT 0 true; ioPut s 2 { ioGet s 2 with ctx := [(256, [5,0,0,0])] })) s0)) &&
  decide ((fun (s : State) => found s ∧ r.kind = 0 ∧ r.n ≤ data.length) ((fun (s : State) => { s with io := { s.io with reqs := [r] } }) s0)) &&
  decide ((fun (s : State) => found s ∧ r.kind = 0) ((fun (s : State) => { s with io := { s.io with reqs := [r] } }) s0)) &&
  decide ((fun (s : State) => s.io.reqs = []) ((fun (s : State) => s) s0)) &&
  decide ((fun (s : State) => found s ∧ r.kind = 0) ((fun (s : State) => { s with io := { s.io with reqs := [r] } }) s0)) &&
  decide ((fun (s : State) => (portProto s port.val = 0 ∨ portProto s port.val = 1) ∧ linkUp s port = true) ((fun (s : State) => (fun (s : State) => s) (let s := memSt s; let s := rsetB (rsetB s (portStop 2) 3 BLOCK_CTL 0 true) (portStop 2) 1 PORT_STAT 0 true; ioPut s 2 { ioGet s 2 with ctx := [(256, [5,0,0,0])] })) s0)) &&
  decide ((fun (s : State) => (portProto s port.val = 0 ∨ portProto s port.val = 1) ∧ linkUp s port = true) ((fun (s : State) => (fun (s : State) => s) (let s := memSt s; let s := rsetB (rsetB s (portStop 2) 3 BLOCK_CTL 0 true) (portStop 2) 1 PORT_STAT 0 true; ioPut s 2 { ioGet s 2 with ctx := [(256, [5,0,0,0])] })) s0)) &&
  decide ((fun (s : State) => linkUp s port = false) ((fun (s : State) => s) s0)) &&
  decide ((fun (s : State) => (portProto s port.val = 0 ∨ portProto s port.val = 1) ∧ linkUp s port = false ∧ domState s ps 0 = dON ∧ rbit s ps 1 BLOCK_CTL 0 = true) ((fun (s : State) => (fun (s : State) => setDom (rsetB (rputF (rputF (rsetB s (portStop 2) 1 PORT_STAT 0 false) (portStop 2) 1 PORT_CAP 8 2 1) (portStop 2) 1 PORT_CTL 0 3 3) (portStop 2) 1 BLOCK_CTL 0 true) (portStop 2) 0 dON) (let s := memSt s; let s := rsetB (rsetB s (portStop 2) 3 BLOCK_CTL 0 true) (portStop 2) 1 PORT_STAT 0 true; ioPut s 2 { ioGet s 2 with ctx := [(256, [5,0,0,0])] })) s0)) &&
  decide ((fun (s : State) => portProto s port.val < 2) ((fun (s : State) => s) s0)) &&
  decide ((fun (s : State) => portProto s port.val < 2) ((fun (s : State) => s) s0))) = true := by decide +kernel

theorem wit_PortFaceAndInterruptEvents_3 : (
  let port : Fin 12 := 2
  let rid : BitVec 16 := 256
  let tc : Fin 8 := 1
  let addr : Word := 0x1000
  let len : BitVec 13 := 100
  let pa : Nat := 0x1000
  let data : List Byte := [1,2,3,4]
  let h : Hart := .drover ⟨0, 1, 3⟩ 1 0
  let k : Fin 14 := 2
  let i : Nat := 7
  let w : World := .normal
  let locus : BitVec 16 := BitVec.ofNat 16 (stopLocus 0 ⟨0,1,3⟩ + 32)
  let src : BitVec 12 := 17
  let q : Fin 64 := 3
  let rate : Fin 8 := 4
  let width : Fin 32 := 16
  let aer : Fin 32 := 5
  let tag : Nat := 4
  let nt := false
  let ro := false
  let lost : Nat := 0
  let dw : Fin 16 := 4
  let be : BitVec 4 := 15
  let v : Reg32 := 0x12345678
  let slot : Nat := 5
  let st : Stop := ⟨0, 1, 3⟩
  let r : OutReq := ⟨2, 4, .env, 0, 0x40, 4, [], 0⟩
  let ps := portStop port
  let es := portStop 0
  let root := fun (s : State) (n : Nat) => pkgState s = 0 ∧ (portProto s port.val = 0 ∨ portProto s port.val = 1) ∧ linkUp s port = true ∧ 0 < n ∧ addr.toNat % 4096 + n ≤ 4096
  let tr := fun (s : State) (kind : AKind) => (ioTranslate s port rid.toNat kind addr.toNat).1
  let res := fun (s : State) (kind : AKind) => (ioTranslate s port rid.toNat kind addr.toNat).2
  let pw := fun (s : State) => portWorld s port
  let hits := fun (s : State) (kind : AKind) (t : InTarget) => res s kind = .ok pa nt ∧ inTarget (tr s kind) port (pw (tr s kind)) pa = t
  let all := fun (s : State) (n : Nat) => ((linesOf pa n).all fun l => decide (inTarget s port (pw s) (max pa (64 * l)) = .memory)) = true
  let sk := fun (s : State) => streamOf s port rid.toNat tc.val
  let rd := fun (s : State) => (⟨port.val, 1, 0, rid.toNat, addr.toNat, len.toNat, [], false, sk s, none, none⟩ : InReq)
  let wr := fun (s : State) (relaxed : Bool) => (⟨port.val, 0, 0, rid.toNat, addr.toNat, data.length, data, relaxed, sk s, none, none⟩ : InReq)
  let am := fun (s : State) (n : Nat) => (⟨port.val, 2, 1, rid.toNat, addr.toNat, n, data, false, sk s, none, none⟩ : InReq)
  let turn := fun (u : State) (x : InReq) (signal : Bool) => (inEarlier u x).any (mustFollow none signal x) = false
  let fetch := fun (s : State) => inboundLines (tr s .read) port (sk s) pa len.toNat false nt
  let store := fun (s : State) => inboundLines (tr s .write) port (sk s) pa data.length true (nt || decide (sk s ≠ 0))
  let swap := fun (s : State) => inboundLines (tr s .rw) port (sk s) pa 8 true (decide (sk s ≠ 0))
  let lost2 := fun (s : State) => let m := s.io.posted.countP fun x => decide (x.port = port.val); let k := min lost m; let s1 := portSend (rputF s ps 1 PORT_STAT 0 9 0) port.val (m - k); portEvent (endRequests (rsetB (rsat { s1 with io := { s1.io with posted := s1.io.posted.filter fun x => decide (x.port ≠ port.val) } } ps 1 PORT_DROP 0 32 k) ps 1 PORT_STAT 9 true) port.val .down) port
  let door := fun (s : State) => ((let x : InReq := ⟨0, 0, 0, 0, 0x20000 + 0x40 * q.val, data.length, data, false, 0, none, none⟩; (inWaiting s x).getD x))
  let refuse := fun (s : State) => ioCount (rsetB (rsat s ps 1 PORT_UR_CNT 0 32 1) ps 1 PORT_STAT 11 true) port 9 1
  let answered := fun (s : State) (c : Nat) (d : List Byte) (p : Bool) => { s with io := { s.io with cpl := mapSet (fun _ => (0, [], false)) s.io.cpl port.val (c, d, p) } }
  let face := fun (s : State) => pkgState s = 0 ∧ portProto s 0 = 3 ∧ faceOpen s = true
  let found := fun (s : State) => s.io.reqs.find? (fun r => decide (r.port = port.val ∧ r.tag = tag)) = some r
  let out := fun (s : State) => { s with io := { s.io with reqs := s.io.reqs.filter fun x => !decide (x.port = port.val ∧ x.tag = tag) } }
  let priv := fun (s : State) => locus.toNat / 16384 = pkgNum s ∧ locusNamesPlace locus.toNat = true ∧ droverOf (pkgNum s) locus.toNat = some h
  let seen := fun (s : State) => pageInert s h = false ∧ privSecret s h w src.toNat = false ∧ 16 ≤ src.toNat ∧ src.toNat ≤ 47
  let lanes := BitVec.ofNat 32 (((List.range 4).map fun i => if be.getLsbD i then 0xFF * 2 ^ (8 * i) else 0).sum)
  let s0 : State := liveSt [⟨0, 1, 3⟩, ⟨0, 3, 0⟩, ⟨0, 2, 0⟩, ⟨0, 2, 1⟩, ⟨0, 0, 8⟩, portStop 0, portStop 2, wsStop 0]
  decide ((fun (s : State) => portProto s port.val < 2) ((fun (s : State) => s) s0)) &&
  decide ((fun (s : State) => portProto s port.val < 2) ((fun (s : State) => rput s (portStop 2) 1 PORT_EVT_SRC 0x103) s0)) &&
  decide ((fun (s : State) => face s) ((fun (s : State) => (fun (s : State) => s) (let s := memSt s; rsetB (rsetB (rputF (rput s (wsStop 0) 3 STRAP 4) (portStop 0) 1 PORT_CAP 8 2 3) (portStop 0) 6 BLOCK_CTL 0 true) (portStop 0) 6 EP_STAT 0 true)) s0)) &&
  decide ((fun (s : State) => face s) ((fun (s : State) => (fun (s : State) => s) (let s := memSt s; rsetB (rsetB (rputF (rput s (wsStop 0) 3 STRAP 4) (portStop 0) 1 PORT_CAP 8 2 3) (portStop 0) 6 BLOCK_CTL 0 true) (portStop 0) 6 EP_STAT 0 true)) s0)) &&
  decide ((fun (s : State) => True) ((fun (s : State) => s) s0)) &&
  decide ((fun (s : State) => True) ((fun (s : State) => { s with io := { s.io with perst := true } }) s0)) &&
  decide ((fun (s : State) => i < shSize k.val ∧ shPending s k.val i = true ∧ (shCfg s k.val i).getLsbD 8 = true ∧ shFwd s k.val i = false ∧ shTarget s k.val i = some h ∧ (shListOf s h).length < 32) ((fun (s : State) => rput (rput (shSet s .secure false 2 7) (portStop 2) 4 (SH_TGT + 56) (BitVec.ofNat 32 (stopLocus 0 ⟨0,1,3⟩ + 32))) (portStop 2) 4 (SH_CFG + 56) 0x1B3) s0)) &&
  decide ((fun (s : State) => i < shSize k.val ∧ shPending s k.val i = true ∧ (shCfg s k.val i).getLsbD 8 = true ∧ shTarget s k.val i = none) ((fun (s : State) => rput (rput (shSet s .secure false 2 7) (portStop 2) 4 (SH_TGT + 56) 0x3FC0) (portStop 2) 4 (SH_CFG + 56) 0x1B3) s0)) &&
  decide ((fun (s : State) => shSize k.val ≤ i ∨ shPending s k.val i = false) ((fun (s : State) => s) s0)) &&
  decide ((fun (s : State) => True) ((fun (s : State) => rput s (portStop 2) 4 (SH_CFG + 56) 0x1B3) s0)) &&
  decide ((fun (s : State) => (ioGet s port).inv = some none ∧ portBusy s port = false) ((fun (s : State) => (fun (s : State) => ioPut s 2 { ioGet s 2 with inv := some none }) (let s := memSt s; let s := rsetB (rsetB s (portStop 2) 3 BLOCK_CTL 0 true) (portStop 2) 1 PORT_STAT 0 true; ioPut s 2 { ioGet s 2 with ctx := [(256, [5,0,0,0])] })) s0)) &&
  decide ((fun (s : State) => (ioGet s port).inv = some (some rid.toNat) ∧ portBusy s port = false) ((fun (s : State) => (fun (s : State) => ioPut s 2 { ioGet s 2 with inv := some (some 256) }) (let s := memSt s; let s := rsetB (rsetB s (portStop 2) 3 BLOCK_CTL 0 true) (portStop 2) 1 PORT_STAT 0 true; ioPut s 2 { ioGet s 2 with ctx := [(256, [5,0,0,0])] })) s0))) = true := by decide +kernel

theorem wit_PortFaceAndInterruptEvents_4 : (
  let port : Fin 12 := 2
  let rid : BitVec 16 := 256
  let tc : Fin 8 := 1
  let addr : Word := 0x1000
  let len : BitVec 13 := 100
  let pa : Nat := 0x1000
  let data : List Byte := [1,2,3,4]
  let h : Hart := .drover ⟨0, 1, 3⟩ 1 0
  let k : Fin 14 := 2
  let i : Nat := 7
  let w : World := .normal
  let locus : BitVec 16 := BitVec.ofNat 16 (stopLocus 0 ⟨0,1,3⟩ + 32)
  let src : BitVec 12 := 17
  let q : Fin 64 := 3
  let rate : Fin 8 := 4
  let width : Fin 32 := 16
  let aer : Fin 32 := 5
  let tag : Nat := 4
  let nt := false
  let ro := false
  let lost : Nat := 0
  let dw : Fin 16 := 4
  let be : BitVec 4 := 15
  let v : Reg32 := 0x12345678
  let slot : Nat := 5
  let st : Stop := ⟨0, 1, 3⟩
  let r : OutReq := ⟨2, 4, .env, 0, 0x40, 4, [], 0⟩
  let ps := portStop port
  let es := portStop 0
  let root := fun (s : State) (n : Nat) => pkgState s = 0 ∧ (portProto s port.val = 0 ∨ portProto s port.val = 1) ∧ linkUp s port = true ∧ 0 < n ∧ addr.toNat % 4096 + n ≤ 4096
  let tr := fun (s : State) (kind : AKind) => (ioTranslate s port rid.toNat kind addr.toNat).1
  let res := fun (s : State) (kind : AKind) => (ioTranslate s port rid.toNat kind addr.toNat).2
  let pw := fun (s : State) => portWorld s port
  let hits := fun (s : State) (kind : AKind) (t : InTarget) => res s kind = .ok pa nt ∧ inTarget (tr s kind) port (pw (tr s kind)) pa = t
  let all := fun (s : State) (n : Nat) => ((linesOf pa n).all fun l => decide (inTarget s port (pw s) (max pa (64 * l)) = .memory)) = true
  let sk := fun (s : State) => streamOf s port rid.toNat tc.val
  let rd := fun (s : State) => (⟨port.val, 1, 0, rid.toNat, addr.toNat, len.toNat, [], false, sk s, none, none⟩ : InReq)
  let wr := fun (s : State) (relaxed : Bool) => (⟨port.val, 0, 0, rid.toNat, addr.toNat, data.length, data, relaxed, sk s, none, none⟩ : InReq)
  let am := fun (s : State) (n : Nat) => (⟨port.val, 2, 1, rid.toNat, addr.toNat, n, data, false, sk s, none, none⟩ : InReq)
  let turn := fun (u : State) (x : InReq) (signal : Bool) => (inEarlier u x).any (mustFollow none signal x) = false
  let fetch := fun (s : State) => inboundLines (tr s .read) port (sk s) pa len.toNat false nt
  let store := fun (s : State) => inboundLines (tr s .write) port (sk s) pa data.length true (nt || decide (sk s ≠ 0))
  let swap := fun (s : State) => inboundLines (tr s .rw) port (sk s) pa 8 true (decide (sk s ≠ 0))
  let lost2 := fun (s : State) => let m := s.io.posted.countP fun x => decide (x.port = port.val); let k := min lost m; let s1 := portSend (rputF s ps 1 PORT_STAT 0 9 0) port.val (m - k); portEvent (endRequests (rsetB (rsat { s1 with io := { s1.io with posted := s1.io.posted.filter fun x => decide (x.port ≠ port.val) } } ps 1 PORT_DROP 0 32 k) ps 1 PORT_STAT 9 true) port.val .down) port
  let door := fun (s : State) => ((let x : InReq := ⟨0, 0, 0, 0, 0x20000 + 0x40 * q.val, data.length, data, false, 0, none, none⟩; (inWaiting s x).getD x))
  let refuse := fun (s : State) => ioCount (rsetB (rsat s ps 1 PORT_UR_CNT 0 32 1) ps 1 PORT_STAT 11 true) port 9 1
  let answered := fun (s : State) (c : Nat) (d : List Byte) (p : Bool) => { s with io := { s.io with cpl := mapSet (fun _ => (0, [], false)) s.io.cpl port.val (c, d, p) } }
  let face := fun (s : State) => pkgState s = 0 ∧ portProto s 0 = 3 ∧ faceOpen s = true
  let found := fun (s : State) => s.io.reqs.find? (fun r => decide (r.port = port.val ∧ r.tag = tag)) = some r
  let out := fun (s : State) => { s with io := { s.io with reqs := s.io.reqs.filter fun x => !decide (x.port = port.val ∧ x.tag = tag) } }
  let priv := fun (s : State) => locus.toNat / 16384 = pkgNum s ∧ locusNamesPlace locus.toNat = true ∧ droverOf (pkgNum s) locus.toNat = some h
  let seen := fun (s : State) => pageInert s h = false ∧ privSecret s h w src.toNat = false ∧ 16 ≤ src.toNat ∧ src.toNat ≤ 47
  let lanes := BitVec.ofNat 32 (((List.range 4).map fun i => if be.getLsbD i then 0xFF * 2 ^ (8 * i) else 0).sum)
  let s0 : State := liveSt [⟨0, 1, 3⟩, ⟨0, 3, 0⟩, ⟨0, 2, 0⟩, ⟨0, 2, 1⟩, ⟨0, 0, 8⟩, portStop 0, portStop 2, wsStop 0]
  decide ((fun (s : State) => (ioGet s port).inv = none) ((fun (s : State) => s) s0)) &&
  decide ((fun (s : State) => portBusy s port = true) ((fun (s : State) => (fun (s : State) => { s with io := { s.io with inq := [⟨2, 0, 0, 3, 0x2000, 4, [1,2,3,4], false, 0, some (1, 5), none⟩] } }) (let s := memSt s; let s := rsetB (rsetB s (portStop 2) 3 BLOCK_CTL 0 true) (portStop 2) 1 PORT_STAT 0 true; ioPut s 2 { ioGet s 2 with ctx := [(256, [5,0,0,0])] })) s0)) &&
  decide ((fun (s : State) => root s data.length ∧ res s .write = .fault true) ((fun (s : State) => (let s := (let s := memSt s; let s := rsetB (rsetB (rsetB s (portStop 2) 3 BLOCK_CTL 0 true) (portStop 2) 1 PORT_STAT 0 true) (portStop 2) 3 BLOCK_CTL 0 true; s); markPoison s (ctxAddr s 2 256))) s0)) &&
  decide ((fun (s : State) => priv s ∧ seen s ∧ stopOf (locus.toNat / 64 % 256) = some ⟨0, 1, 3⟩ ∧ tileMode s ⟨0, 1, 3⟩ = 0 ∧ coreAbsent s ⟨0, 1, 3⟩ 1 = false) ((fun (s : State) => s) s0))) = true := by decide +kernel

theorem wit_PortFaceAndInterruptEvents_5 : (
  let port : Fin 12 := 2
  let rid : BitVec 16 := 256
  let tc : Fin 8 := 1
  let addr : Word := 0x1000
  let len : BitVec 13 := 100
  let pa : Nat := 0x1000
  let data : List Byte := [1,2,3,4]
  let h : Hart := .drover ⟨0, 1, 3⟩ 1 0
  let k : Fin 14 := 2
  let i : Nat := 7
  let w : World := .normal
  let locus : BitVec 16 := BitVec.ofNat 16 (stopLocus 0 ⟨0,1,3⟩ + 32)
  let src : BitVec 12 := 17
  let q : Fin 64 := 3
  let rate : Fin 8 := 4
  let width : Fin 32 := 16
  let aer : Fin 32 := 5
  let tag : Nat := 4
  let nt := false
  let ro := false
  let lost : Nat := 0
  let dw : Fin 16 := 4
  let be : BitVec 4 := 15
  let v : Reg32 := 0x12345678
  let slot : Nat := 5
  let st : Stop := ⟨0, 1, 3⟩
  let r : OutReq := ⟨2, 4, .env, 0, 0x40, 4, [], 0⟩
  let pa : Nat := 0xFFF0000000000 + rkey (portStop 2) 4 SH_SET
  let addr : Word := BitVec.ofNat 64 pa
  let data : List Byte := [7,0,0,0]
  let ps := portStop port
  let es := portStop 0
  let root := fun (s : State) (n : Nat) => pkgState s = 0 ∧ (portProto s port.val = 0 ∨ portProto s port.val = 1) ∧ linkUp s port = true ∧ 0 < n ∧ addr.toNat % 4096 + n ≤ 4096
  let tr := fun (s : State) (kind : AKind) => (ioTranslate s port rid.toNat kind addr.toNat).1
  let res := fun (s : State) (kind : AKind) => (ioTranslate s port rid.toNat kind addr.toNat).2
  let pw := fun (s : State) => portWorld s port
  let hits := fun (s : State) (kind : AKind) (t : InTarget) => res s kind = .ok pa nt ∧ inTarget (tr s kind) port (pw (tr s kind)) pa = t
  let all := fun (s : State) (n : Nat) => ((linesOf pa n).all fun l => decide (inTarget s port (pw s) (max pa (64 * l)) = .memory)) = true
  let sk := fun (s : State) => streamOf s port rid.toNat tc.val
  let rd := fun (s : State) => (⟨port.val, 1, 0, rid.toNat, addr.toNat, len.toNat, [], false, sk s, none, none⟩ : InReq)
  let wr := fun (s : State) (relaxed : Bool) => (⟨port.val, 0, 0, rid.toNat, addr.toNat, data.length, data, relaxed, sk s, none, none⟩ : InReq)
  let am := fun (s : State) (n : Nat) => (⟨port.val, 2, 1, rid.toNat, addr.toNat, n, data, false, sk s, none, none⟩ : InReq)
  let turn := fun (u : State) (x : InReq) (signal : Bool) => (inEarlier u x).any (mustFollow none signal x) = false
  let fetch := fun (s : State) => inboundLines (tr s .read) port (sk s) pa len.toNat false nt
  let store := fun (s : State) => inboundLines (tr s .write) port (sk s) pa data.length true (nt || decide (sk s ≠ 0))
  let swap := fun (s : State) => inboundLines (tr s .rw) port (sk s) pa 8 true (decide (sk s ≠ 0))
  let lost2 := fun (s : State) => let m := s.io.posted.countP fun x => decide (x.port = port.val); let k := min lost m; let s1 := portSend (rputF s ps 1 PORT_STAT 0 9 0) port.val (m - k); portEvent (endRequests (rsetB (rsat { s1 with io := { s1.io with posted := s1.io.posted.filter fun x => decide (x.port ≠ port.val) } } ps 1 PORT_DROP 0 32 k) ps 1 PORT_STAT 9 true) port.val .down) port
  let door := fun (s : State) => ((let x : InReq := ⟨0, 0, 0, 0, 0x20000 + 0x40 * q.val, data.length, data, false, 0, none, none⟩; (inWaiting s x).getD x))
  let refuse := fun (s : State) => ioCount (rsetB (rsat s ps 1 PORT_UR_CNT 0 32 1) ps 1 PORT_STAT 11 true) port 9 1
  let answered := fun (s : State) (c : Nat) (d : List Byte) (p : Bool) => { s with io := { s.io with cpl := mapSet (fun _ => (0, [], false)) s.io.cpl port.val (c, d, p) } }
  let face := fun (s : State) => pkgState s = 0 ∧ portProto s 0 = 3 ∧ faceOpen s = true
  let found := fun (s : State) => s.io.reqs.find? (fun r => decide (r.port = port.val ∧ r.tag = tag)) = some r
  let out := fun (s : State) => { s with io := { s.io with reqs := s.io.reqs.filter fun x => !decide (x.port = port.val ∧ x.tag = tag) } }
  let priv := fun (s : State) => locus.toNat / 16384 = pkgNum s ∧ locusNamesPlace locus.toNat = true ∧ droverOf (pkgNum s) locus.toNat = some h
  let seen := fun (s : State) => pageInert s h = false ∧ privSecret s h w src.toNat = false ∧ 16 ≤ src.toNat ∧ src.toNat ≤ 47
  let lanes := BitVec.ofNat 32 (((List.range 4).map fun i => if be.getLsbD i then 0xFF * 2 ^ (8 * i) else 0).sum)
  let s0 : State := liveSt [⟨0, 1, 3⟩, ⟨0, 3, 0⟩, ⟨0, 2, 0⟩, ⟨0, 2, 1⟩, ⟨0, 0, 8⟩, portStop 0, portStop 2, wsStop 0]
  decide ((fun (s : State) => root s data.length ∧ hits s .write .shared ∧ data.length = 4 ∧ turn (tr s .write) (wr s ro) true) ((fun (s : State) => (fun (s : State) => s) (let s := memSt s; let s := rsetB (rsetB s (portStop 2) 3 BLOCK_CTL 0 true) (portStop 2) 1 PORT_STAT 0 true; ioPut s 2 { ioGet s 2 with ctx := [(256, [5,0,0,0])] })) s0)) &&
  decide ((fun (s : State) => root s data.length ∧ hits s .write .shared ∧ ¬ turn (tr s .write) (wr s ro) true) ((fun (s : State) => (fun (s : State) => { s with io := { s.io with inq := [⟨2, 0, 0, 3, 0x2000, 4, [1,2,3,4], false, 0, none, none⟩] } }) (let s := memSt s; let s := rsetB (rsetB s (portStop 2) 3 BLOCK_CTL 0 true) (portStop 2) 1 PORT_STAT 0 true; ioPut s 2 { ioGet s 2 with ctx := [(256, [5,0,0,0])] })) s0))) = true := by decide +kernel

theorem wit_PortFaceAndInterruptEvents_6 : (
  let port : Fin 12 := 2
  let rid : BitVec 16 := 256
  let tc : Fin 8 := 1
  let addr : Word := 0x1000
  let len : BitVec 13 := 100
  let pa : Nat := 0x1000
  let data : List Byte := [1,2,3,4]
  let h : Hart := .drover ⟨0, 1, 3⟩ 1 0
  let k : Fin 14 := 2
  let i : Nat := 7
  let w : World := .normal
  let locus : BitVec 16 := BitVec.ofNat 16 (stopLocus 0 ⟨0,1,3⟩ + 32)
  let src : BitVec 12 := 17
  let q : Fin 64 := 3
  let rate : Fin 8 := 4
  let width : Fin 32 := 16
  let aer : Fin 32 := 5
  let tag : Nat := 4
  let nt := false
  let ro := false
  let lost : Nat := 0
  let dw : Fin 16 := 4
  let be : BitVec 4 := 15
  let v : Reg32 := 0x12345678
  let slot : Nat := 5
  let st : Stop := ⟨0, 1, 3⟩
  let r : OutReq := ⟨2, 4, .env, 0, 0x40, 4, [], 0⟩
  let pa : Nat := 0xFFF0000000000 + rkey ⟨0,1,3⟩ 5 (0x4000 + 5 * 64)
  let addr : Word := BitVec.ofNat 64 pa
  let ps := portStop port
  let es := portStop 0
  let root := fun (s : State) (n : Nat) => pkgState s = 0 ∧ (portProto s port.val = 0 ∨ portProto s port.val = 1) ∧ linkUp s port = true ∧ 0 < n ∧ addr.toNat % 4096 + n ≤ 4096
  let tr := fun (s : State) (kind : AKind) => (ioTranslate s port rid.toNat kind addr.toNat).1
  let res := fun (s : State) (kind : AKind) => (ioTranslate s port rid.toNat kind addr.toNat).2
  let pw := fun (s : State) => portWorld s port
  let hits := fun (s : State) (kind : AKind) (t : InTarget) => res s kind = .ok pa nt ∧ inTarget (tr s kind) port (pw (tr s kind)) pa = t
  let all := fun (s : State) (n : Nat) => ((linesOf pa n).all fun l => decide (inTarget s port (pw s) (max pa (64 * l)) = .memory)) = true
  let sk := fun (s : State) => streamOf s port rid.toNat tc.val
  let rd := fun (s : State) => (⟨port.val, 1, 0, rid.toNat, addr.toNat, len.toNat, [], false, sk s, none, none⟩ : InReq)
  let wr := fun (s : State) (relaxed : Bool) => (⟨port.val, 0, 0, rid.toNat, addr.toNat, data.length, data, relaxed, sk s, none, none⟩ : InReq)
  let am := fun (s : State) (n : Nat) => (⟨port.val, 2, 1, rid.toNat, addr.toNat, n, data, false, sk s, none, none⟩ : InReq)
  let turn := fun (u : State) (x : InReq) (signal : Bool) => (inEarlier u x).any (mustFollow none signal x) = false
  let fetch := fun (s : State) => inboundLines (tr s .read) port (sk s) pa len.toNat false nt
  let store := fun (s : State) => inboundLines (tr s .write) port (sk s) pa data.length true (nt || decide (sk s ≠ 0))
  let swap := fun (s : State) => inboundLines (tr s .rw) port (sk s) pa 8 true (decide (sk s ≠ 0))
  let lost2 := fun (s : State) => let m := s.io.posted.countP fun x => decide (x.port = port.val); let k := min lost m; let s1 := portSend (rputF s ps 1 PORT_STAT 0 9 0) port.val (m - k); portEvent (endRequests (rsetB (rsat { s1 with io := { s1.io with posted := s1.io.posted.filter fun x => decide (x.port ≠ port.val) } } ps 1 PORT_DROP 0 32 k) ps 1 PORT_STAT 9 true) port.val .down) port
  let door := fun (s : State) => ((let x : InReq := ⟨0, 0, 0, 0, 0x20000 + 0x40 * q.val, data.length, data, false, 0, none, none⟩; (inWaiting s x).getD x))
  let refuse := fun (s : State) => ioCount (rsetB (rsat s ps 1 PORT_UR_CNT 0 32 1) ps 1 PORT_STAT 11 true) port 9 1
  let answered := fun (s : State) (c : Nat) (d : List Byte) (p : Bool) => { s with io := { s.io with cpl := mapSet (fun _ => (0, [], false)) s.io.cpl port.val (c, d, p) } }
  let face := fun (s : State) => pkgState s = 0 ∧ portProto s 0 = 3 ∧ faceOpen s = true
  let found := fun (s : State) => s.io.reqs.find? (fun r => decide (r.port = port.val ∧ r.tag = tag)) = some r
  let out := fun (s : State) => { s with io := { s.io with reqs := s.io.reqs.filter fun x => !decide (x.port = port.val ∧ x.tag = tag) } }
  let priv := fun (s : State) => locus.toNat / 16384 = pkgNum s ∧ locusNamesPlace locus.toNat = true ∧ droverOf (pkgNum s) locus.toNat = some h
  let seen := fun (s : State) => pageInert s h = false ∧ privSecret s h w src.toNat = false ∧ 16 ≤ src.toNat ∧ src.toNat ≤ 47
  let lanes := BitVec.ofNat 32 (((List.range 4).map fun i => if be.getLsbD i then 0xFF * 2 ^ (8 * i) else 0).sum)
  let s0 : State := liveSt [⟨0, 1, 3⟩, ⟨0, 3, 0⟩, ⟨0, 2, 0⟩, ⟨0, 2, 1⟩, ⟨0, 0, 8⟩, portStop 0, portStop 2, wsStop 0]
  decide ((fun (s : State) => root s data.length ∧ hits s .write (.doorbell st slot 0) ∧ turn (tr s .write) (wr s false) true) ((fun (s : State) => (fun (s : State) => s) (let s := memSt s; let s := rsetB (rsetB s (portStop 2) 3 BLOCK_CTL 0 true) (portStop 2) 1 PORT_STAT 0 true; ioPut s 2 { ioGet s 2 with ctx := [(256, [5,0,0,0])] })) s0))) = true := by decide +kernel

theorem wit_PortFaceAndInterruptEvents_7 : (
  let port : Fin 12 := 2
  let rid : BitVec 16 := 256
  let tc : Fin 8 := 1
  let addr : Word := 0x1000
  let len : BitVec 13 := 100
  let pa : Nat := 0x1000
  let data : List Byte := [1,2,3,4]
  let h : Hart := .drover ⟨0, 1, 3⟩ 1 0
  let k : Fin 14 := 2
  let i : Nat := 7
  let w : World := .normal
  let locus : BitVec 16 := BitVec.ofNat 16 (stopLocus 0 ⟨0,1,3⟩ + 32)
  let src : BitVec 12 := 17
  let q : Fin 64 := 3
  let rate : Fin 8 := 4
  let width : Fin 32 := 16
  let aer : Fin 32 := 5
  let tag : Nat := 4
  let nt := false
  let ro := false
  let lost : Nat := 0
  let dw : Fin 16 := 4
  let be : BitVec 4 := 15
  let v : Reg32 := 0x12345678
  let slot : Nat := 5
  let st : Stop := ⟨0, 1, 3⟩
  let r : OutReq := ⟨2, 4, .env, 0, 0x40, 4, [], 0⟩
  let r : OutReq := ⟨2, 4, .env, 2, 0x40, 4, [], 0⟩
  let ps := portStop port
  let es := portStop 0
  let root := fun (s : State) (n : Nat) => pkgState s = 0 ∧ (portProto s port.val = 0 ∨ portProto s port.val = 1) ∧ linkUp s port = true ∧ 0 < n ∧ addr.toNat % 4096 + n ≤ 4096
  let tr := fun (s : State) (kind : AKind) => (ioTranslate s port rid.toNat kind addr.toNat).1
  let res := fun (s : State) (kind : AKind) => (ioTranslate s port rid.toNat kind addr.toNat).2
  let pw := fun (s : State) => portWorld s port
  let hits := fun (s : State) (kind : AKind) (t : InTarget) => res s kind = .ok pa nt ∧ inTarget (tr s kind) port (pw (tr s kind)) pa = t
  let all := fun (s : State) (n : Nat) => ((linesOf pa n).all fun l => decide (inTarget s port (pw s) (max pa (64 * l)) = .memory)) = true
  let sk := fun (s : State) => streamOf s port rid.toNat tc.val
  let rd := fun (s : State) => (⟨port.val, 1, 0, rid.toNat, addr.toNat, len.toNat, [], false, sk s, none, none⟩ : InReq)
  let wr := fun (s : State) (relaxed : Bool) => (⟨port.val, 0, 0, rid.toNat, addr.toNat, data.length, data, relaxed, sk s, none, none⟩ : InReq)
  let am := fun (s : State) (n : Nat) => (⟨port.val, 2, 1, rid.toNat, addr.toNat, n, data, false, sk s, none, none⟩ : InReq)
  let turn := fun (u : State) (x : InReq) (signal : Bool) => (inEarlier u x).any (mustFollow none signal x) = false
  let fetch := fun (s : State) => inboundLines (tr s .read) port (sk s) pa len.toNat false nt
  let store := fun (s : State) => inboundLines (tr s .write) port (sk s) pa data.length true (nt || decide (sk s ≠ 0))
  let swap := fun (s : State) => inboundLines (tr s .rw) port (sk s) pa 8 true (decide (sk s ≠ 0))
  let lost2 := fun (s : State) => let m := s.io.posted.countP fun x => decide (x.port = port.val); let k := min lost m; let s1 := portSend (rputF s ps 1 PORT_STAT 0 9 0) port.val (m - k); portEvent (endRequests (rsetB (rsat { s1 with io := { s1.io with posted := s1.io.posted.filter fun x => decide (x.port ≠ port.val) } } ps 1 PORT_DROP 0 32 k) ps 1 PORT_STAT 9 true) port.val .down) port
  let door := fun (s : State) => ((let x : InReq := ⟨0, 0, 0, 0, 0x20000 + 0x40 * q.val, data.length, data, false, 0, none, none⟩; (inWaiting s x).getD x))
  let refuse := fun (s : State) => ioCount (rsetB (rsat s ps 1 PORT_UR_CNT 0 32 1) ps 1 PORT_STAT 11 true) port 9 1
  let answered := fun (s : State) (c : Nat) (d : List Byte) (p : Bool) => { s with io := { s.io with cpl := mapSet (fun _ => (0, [], false)) s.io.cpl port.val (c, d, p) } }
  let face := fun (s : State) => pkgState s = 0 ∧ portProto s 0 = 3 ∧ faceOpen s = true
  let found := fun (s : State) => s.io.reqs.find? (fun r => decide (r.port = port.val ∧ r.tag = tag)) = some r
  let out := fun (s : State) => { s with io := { s.io with reqs := s.io.reqs.filter fun x => !decide (x.port = port.val ∧ x.tag = tag) } }
  let priv := fun (s : State) => locus.toNat / 16384 = pkgNum s ∧ locusNamesPlace locus.toNat = true ∧ droverOf (pkgNum s) locus.toNat = some h
  let seen := fun (s : State) => pageInert s h = false ∧ privSecret s h w src.toNat = false ∧ 16 ≤ src.toNat ∧ src.toNat ≤ 47
  let lanes := BitVec.ofNat 32 (((List.range 4).map fun i => if be.getLsbD i then 0xFF * 2 ^ (8 * i) else 0).sum)
  let s0 : State := liveSt [⟨0, 1, 3⟩, ⟨0, 3, 0⟩, ⟨0, 2, 0⟩, ⟨0, 2, 1⟩, ⟨0, 0, 8⟩, portStop 0, portStop 2, wsStop 0]
  decide ((fun (s : State) => found s ∧ r.kind = 2) ((fun (s : State) => { s with io := { s.io with reqs := [r] } }) s0))) = true := by decide +kernel

theorem wit_PortFaceAndInterruptEvents_8 : (
  let port : Fin 12 := 2
  let rid : BitVec 16 := 256
  let tc : Fin 8 := 1
  let addr : Word := 0x1000
  let len : BitVec 13 := 100
  let pa : Nat := 0x1000
  let data : List Byte := [1,2,3,4]
  let h : Hart := .drover ⟨0, 1, 3⟩ 1 0
  let k : Fin 14 := 2
  let i : Nat := 7
  let w : World := .normal
  let locus : BitVec 16 := BitVec.ofNat 16 (stopLocus 0 ⟨0,1,3⟩ + 32)
  let src : BitVec 12 := 17
  let q : Fin 64 := 3
  let rate : Fin 8 := 4
  let width : Fin 32 := 16
  let aer : Fin 32 := 5
  let tag : Nat := 4
  let nt := false
  let ro := false
  let lost : Nat := 0
  let dw : Fin 16 := 4
  let be : BitVec 4 := 15
  let v : Reg32 := 0x12345678
  let slot : Nat := 5
  let st : Stop := ⟨0, 1, 3⟩
  let r : OutReq := ⟨2, 4, .env, 0, 0x40, 4, [], 0⟩
  let port : Fin 12 := 0
  let ps := portStop port
  let es := portStop 0
  let root := fun (s : State) (n : Nat) => pkgState s = 0 ∧ (portProto s port.val = 0 ∨ portProto s port.val = 1) ∧ linkUp s port = true ∧ 0 < n ∧ addr.toNat % 4096 + n ≤ 4096
  let tr := fun (s : State) (kind : AKind) => (ioTranslate s port rid.toNat kind addr.toNat).1
  let res := fun (s : State) (kind : AKind) => (ioTranslate s port rid.toNat kind addr.toNat).2
  let pw := fun (s : State) => portWorld s port
  let hits := fun (s : State) (kind : AKind) (t : InTarget) => res s kind = .ok pa nt ∧ inTarget (tr s kind) port (pw (tr s kind)) pa = t
  let all := fun (s : State) (n : Nat) => ((linesOf pa n).all fun l => decide (inTarget s port (pw s) (max pa (64 * l)) = .memory)) = true
  let sk := fun (s : State) => streamOf s port rid.toNat tc.val
  let rd := fun (s : State) => (⟨port.val, 1, 0, rid.toNat, addr.toNat, len.toNat, [], false, sk s, none, none⟩ : InReq)
  let wr := fun (s : State) (relaxed : Bool) => (⟨port.val, 0, 0, rid.toNat, addr.toNat, data.length, data, relaxed, sk s, none, none⟩ : InReq)
  let am := fun (s : State) (n : Nat) => (⟨port.val, 2, 1, rid.toNat, addr.toNat, n, data, false, sk s, none, none⟩ : InReq)
  let turn := fun (u : State) (x : InReq) (signal : Bool) => (inEarlier u x).any (mustFollow none signal x) = false
  let fetch := fun (s : State) => inboundLines (tr s .read) port (sk s) pa len.toNat false nt
  let store := fun (s : State) => inboundLines (tr s .write) port (sk s) pa data.length true (nt || decide (sk s ≠ 0))
  let swap := fun (s : State) => inboundLines (tr s .rw) port (sk s) pa 8 true (decide (sk s ≠ 0))
  let lost2 := fun (s : State) => let m := s.io.posted.countP fun x => decide (x.port = port.val); let k := min lost m; let s1 := portSend (rputF s ps 1 PORT_STAT 0 9 0) port.val (m - k); portEvent (endRequests (rsetB (rsat { s1 with io := { s1.io with posted := s1.io.posted.filter fun x => decide (x.port ≠ port.val) } } ps 1 PORT_DROP 0 32 k) ps 1 PORT_STAT 9 true) port.val .down) port
  let door := fun (s : State) => ((let x : InReq := ⟨0, 0, 0, 0, 0x20000 + 0x40 * q.val, data.length, data, false, 0, none, none⟩; (inWaiting s x).getD x))
  let refuse := fun (s : State) => ioCount (rsetB (rsat s ps 1 PORT_UR_CNT 0 32 1) ps 1 PORT_STAT 11 true) port 9 1
  let answered := fun (s : State) (c : Nat) (d : List Byte) (p : Bool) => { s with io := { s.io with cpl := mapSet (fun _ => (0, [], false)) s.io.cpl port.val (c, d, p) } }
  let face := fun (s : State) => pkgState s = 0 ∧ portProto s 0 = 3 ∧ faceOpen s = true
  let found := fun (s : State) => s.io.reqs.find? (fun r => decide (r.port = port.val ∧ r.tag = tag)) = some r
  let out := fun (s : State) => { s with io := { s.io with reqs := s.io.reqs.filter fun x => !decide (x.port = port.val ∧ x.tag = tag) } }
  let priv := fun (s : State) => locus.toNat / 16384 = pkgNum s ∧ locusNamesPlace locus.toNat = true ∧ droverOf (pkgNum s) locus.toNat = some h
  let seen := fun (s : State) => pageInert s h = false ∧ privSecret s h w src.toNat = false ∧ 16 ≤ src.toNat ∧ src.toNat ≤ 47
  let lanes := BitVec.ofNat 32 (((List.range 4).map fun i => if be.getLsbD i then 0xFF * 2 ^ (8 * i) else 0).sum)
  let s0 : State := liveSt [⟨0, 1, 3⟩, ⟨0, 3, 0⟩, ⟨0, 2, 0⟩, ⟨0, 2, 1⟩, ⟨0, 0, 8⟩, portStop 0, portStop 2, wsStop 0]
  decide ((fun (s : State) => portProto s port.val = 3 ∧ linkUp s port = true) ((fun (s : State) => (fun (s : State) => s) (let s := memSt s; rsetB (rsetB (rputF (rput s (wsStop 0) 3 STRAP 4) (portStop 0) 1 PORT_CAP 8 2 3) (portStop 0) 6 BLOCK_CTL 0 true) (portStop 0) 6 EP_STAT 0 true)) s0)) &&
  decide ((fun (s : State) => portProto s port.val = 3 ∧ linkUp s port = false ∧ domState s ps 0 = dON ∧ rbit s ps 6 BLOCK_CTL 0 = true ∧ s.io.perst = false) ((fun (s : State) => (fun (s : State) => setDom (rsetB s (portStop 0) 6 EP_STAT 0 false) (portStop 0) 0 dON) (let s := memSt s; rsetB (rsetB (rputF (rput s (wsStop 0) 3 STRAP 4) (portStop 0) 1 PORT_CAP 8 2 3) (portStop 0) 6 BLOCK_CTL 0 true) (portStop 0) 6 EP_STAT 0 true)) s0))) = true := by decide +kernel

theorem wit_PortFaceAndInterruptEvents_9 : (
  let port : Fin 12 := 2
  let rid : BitVec 16 := 256
  let tc : Fin 8 := 1
  let addr : Word := 0x1000
  let len : BitVec 13 := 100
  let pa : Nat := 0x1000
  let data : List Byte := [1,2,3,4]
  let h : Hart := .drover ⟨0, 1, 3⟩ 1 0
  let k : Fin 14 := 2
  let i : Nat := 7
  let w : World := .normal
  let locus : BitVec 16 := BitVec.ofNat 16 (stopLocus 0 ⟨0,1,3⟩ + 32)
  let src : BitVec 12 := 17
  let q : Fin 64 := 3
  let rate : Fin 8 := 4
  let width : Fin 32 := 16
  let aer : Fin 32 := 5
  let tag : Nat := 4
  let nt := false
  let ro := false
  let lost : Nat := 0
  let dw : Fin 16 := 4
  let be : BitVec 4 := 15
  let v : Reg32 := 0x12345678
  let slot : Nat := 5
  let st : Stop := ⟨0, 1, 3⟩
  let r : OutReq := ⟨2, 4, .env, 0, 0x40, 4, [], 0⟩
  let locus : BitVec 16 := BitVec.ofNat 16 (stopLocus 0 (portStop 2))
  let ps := portStop port
  let es := portStop 0
  let root := fun (s : State) (n : Nat) => pkgState s = 0 ∧ (portProto s port.val = 0 ∨ portProto s port.val = 1) ∧ linkUp s port = true ∧ 0 < n ∧ addr.toNat % 4096 + n ≤ 4096
  let tr := fun (s : State) (kind : AKind) => (ioTranslate s port rid.toNat kind addr.toNat).1
  let res := fun (s : State) (kind : AKind) => (ioTranslate s port rid.toNat kind addr.toNat).2
  let pw := fun (s : State) => portWorld s port
  let hits := fun (s : State) (kind : AKind) (t : InTarget) => res s kind = .ok pa nt ∧ inTarget (tr s kind) port (pw (tr s kind)) pa = t
  let all := fun (s : State) (n : Nat) => ((linesOf pa n).all fun l => decide (inTarget s port (pw s) (max pa (64 * l)) = .memory)) = true
  let sk := fun (s : State) => streamOf s port rid.toNat tc.val
  let rd := fun (s : State) => (⟨port.val, 1, 0, rid.toNat, addr.toNat, len.toNat, [], false, sk s, none, none⟩ : InReq)
  let wr := fun (s : State) (relaxed : Bool) => (⟨port.val, 0, 0, rid.toNat, addr.toNat, data.length, data, relaxed, sk s, none, none⟩ : InReq)
  let am := fun (s : State) (n : Nat) => (⟨port.val, 2, 1, rid.toNat, addr.toNat, n, data, false, sk s, none, none⟩ : InReq)
  let turn := fun (u : State) (x : InReq) (signal : Bool) => (inEarlier u x).any (mustFollow none signal x) = false
  let fetch := fun (s : State) => inboundLines (tr s .read) port (sk s) pa len.toNat false nt
  let store := fun (s : State) => inboundLines (tr s .write) port (sk s) pa data.length true (nt || decide (sk s ≠ 0))
  let swap := fun (s : State) => inboundLines (tr s .rw) port (sk s) pa 8 true (decide (sk s ≠ 0))
  let lost2 := fun (s : State) => let m := s.io.posted.countP fun x => decide (x.port = port.val); let k := min lost m; let s1 := portSend (rputF s ps 1 PORT_STAT 0 9 0) port.val (m - k); portEvent (endRequests (rsetB (rsat { s1 with io := { s1.io with posted := s1.io.posted.filter fun x => decide (x.port ≠ port.val) } } ps 1 PORT_DROP 0 32 k) ps 1 PORT_STAT 9 true) port.val .down) port
  let door := fun (s : State) => ((let x : InReq := ⟨0, 0, 0, 0, 0x20000 + 0x40 * q.val, data.length, data, false, 0, none, none⟩; (inWaiting s x).getD x))
  let refuse := fun (s : State) => ioCount (rsetB (rsat s ps 1 PORT_UR_CNT 0 32 1) ps 1 PORT_STAT 11 true) port 9 1
  let answered := fun (s : State) (c : Nat) (d : List Byte) (p : Bool) => { s with io := { s.io with cpl := mapSet (fun _ => (0, [], false)) s.io.cpl port.val (c, d, p) } }
  let face := fun (s : State) => pkgState s = 0 ∧ portProto s 0 = 3 ∧ faceOpen s = true
  let found := fun (s : State) => s.io.reqs.find? (fun r => decide (r.port = port.val ∧ r.tag = tag)) = some r
  let out := fun (s : State) => { s with io := { s.io with reqs := s.io.reqs.filter fun x => !decide (x.port = port.val ∧ x.tag = tag) } }
  let priv := fun (s : State) => locus.toNat / 16384 = pkgNum s ∧ locusNamesPlace locus.toNat = true ∧ droverOf (pkgNum s) locus.toNat = some h
  let seen := fun (s : State) => pageInert s h = false ∧ privSecret s h w src.toNat = false ∧ 16 ≤ src.toNat ∧ src.toNat ≤ 47
  let lanes := BitVec.ofNat 32 (((List.range 4).map fun i => if be.getLsbD i then 0xFF * 2 ^ (8 * i) else 0).sum)
  let s0 : State := liveSt [⟨0, 1, 3⟩, ⟨0, 3, 0⟩, ⟨0, 2, 0⟩, ⟨0, 2, 1⟩, ⟨0, 0, 8⟩, portStop 0, portStop 2, wsStop 0]
  decide ((fun (s : State) => locus.toNat / 16384 = pkgNum s ∧ locus.toNat % 64 = 0 ∧ stopOf (locus.toNat / 64 % 256) = some ps ∧ src.toNat < shSize port.val ∧ shSecure s port.val src.toNat = false) ((fun (s : State) => s) s0))) = true := by decide +kernel

theorem wit_PortFaceAndInterruptEvents_10 : (
  let port : Fin 12 := 2
  let rid : BitVec 16 := 256
  let tc : Fin 8 := 1
  let addr : Word := 0x1000
  let len : BitVec 13 := 100
  let pa : Nat := 0x1000
  let data : List Byte := [1,2,3,4]
  let h : Hart := .drover ⟨0, 1, 3⟩ 1 0
  let k : Fin 14 := 2
  let i : Nat := 7
  let w : World := .normal
  let locus : BitVec 16 := BitVec.ofNat 16 (stopLocus 0 ⟨0,1,3⟩ + 32)
  let src : BitVec 12 := 17
  let q : Fin 64 := 3
  let rate : Fin 8 := 4
  let width : Fin 32 := 16
  let aer : Fin 32 := 5
  let tag : Nat := 4
  let nt := false
  let ro := false
  let lost : Nat := 0
  let dw : Fin 16 := 4
  let be : BitVec 4 := 15
  let v : Reg32 := 0x12345678
  let slot : Nat := 5
  let st : Stop := ⟨0, 1, 3⟩
  let r : OutReq := ⟨2, 4, .env, 0, 0x40, 4, [], 0⟩
  let locus : BitVec 16 := 0x4000
  let ps := portStop port
  let es := portStop 0
  let root := fun (s : State) (n : Nat) => pkgState s = 0 ∧ (portProto s port.val = 0 ∨ portProto s port.val = 1) ∧ linkUp s port = true ∧ 0 < n ∧ addr.toNat % 4096 + n ≤ 4096
  let tr := fun (s : State) (kind : AKind) => (ioTranslate s port rid.toNat kind addr.toNat).1
  let res := fun (s : State) (kind : AKind) => (ioTranslate s port rid.toNat kind addr.toNat).2
  let pw := fun (s : State) => portWorld s port
  let hits := fun (s : State) (kind : AKind) (t : InTarget) => res s kind = .ok pa nt ∧ inTarget (tr s kind) port (pw (tr s kind)) pa = t
  let all := fun (s : State) (n : Nat) => ((linesOf pa n).all fun l => decide (inTarget s port (pw s) (max pa (64 * l)) = .memory)) = true
  let sk := fun (s : State) => streamOf s port rid.toNat tc.val
  let rd := fun (s : State) => (⟨port.val, 1, 0, rid.toNat, addr.toNat, len.toNat, [], false, sk s, none, none⟩ : InReq)
  let wr := fun (s : State) (relaxed : Bool) => (⟨port.val, 0, 0, rid.toNat, addr.toNat, data.length, data, relaxed, sk s, none, none⟩ : InReq)
  let am := fun (s : State) (n : Nat) => (⟨port.val, 2, 1, rid.toNat, addr.toNat, n, data, false, sk s, none, none⟩ : InReq)
  let turn := fun (u : State) (x : InReq) (signal : Bool) => (inEarlier u x).any (mustFollow none signal x) = false
  let fetch := fun (s : State) => inboundLines (tr s .read) port (sk s) pa len.toNat false nt
  let store := fun (s : State) => inboundLines (tr s .write) port (sk s) pa data.length true (nt || decide (sk s ≠ 0))
  let swap := fun (s : State) => inboundLines (tr s .rw) port (sk s) pa 8 true (decide (sk s ≠ 0))
  let lost2 := fun (s : State) => let m := s.io.posted.countP fun x => decide (x.port = port.val); let k := min lost m; let s1 := portSend (rputF s ps 1 PORT_STAT 0 9 0) port.val (m - k); portEvent (endRequests (rsetB (rsat { s1 with io := { s1.io with posted := s1.io.posted.filter fun x => decide (x.port ≠ port.val) } } ps 1 PORT_DROP 0 32 k) ps 1 PORT_STAT 9 true) port.val .down) port
  let door := fun (s : State) => ((let x : InReq := ⟨0, 0, 0, 0, 0x20000 + 0x40 * q.val, data.length, data, false, 0, none, none⟩; (inWaiting s x).getD x))
  let refuse := fun (s : State) => ioCount (rsetB (rsat s ps 1 PORT_UR_CNT 0 32 1) ps 1 PORT_STAT 11 true) port 9 1
  let answered := fun (s : State) (c : Nat) (d : List Byte) (p : Bool) => { s with io := { s.io with cpl := mapSet (fun _ => (0, [], false)) s.io.cpl port.val (c, d, p) } }
  let face := fun (s : State) => pkgState s = 0 ∧ portProto s 0 = 3 ∧ faceOpen s = true
  let found := fun (s : State) => s.io.reqs.find? (fun r => decide (r.port = port.val ∧ r.tag = tag)) = some r
  let out := fun (s : State) => { s with io := { s.io with reqs := s.io.reqs.filter fun x => !decide (x.port = port.val ∧ x.tag = tag) } }
  let priv := fun (s : State) => locus.toNat / 16384 = pkgNum s ∧ locusNamesPlace locus.toNat = true ∧ droverOf (pkgNum s) locus.toNat = some h
  let seen := fun (s : State) => pageInert s h = false ∧ privSecret s h w src.toNat = false ∧ 16 ≤ src.toNat ∧ src.toNat ≤ 47
  let lanes := BitVec.ofNat 32 (((List.range 4).map fun i => if be.getLsbD i then 0xFF * 2 ^ (8 * i) else 0).sum)
  let s0 : State := liveSt [⟨0, 1, 3⟩, ⟨0, 3, 0⟩, ⟨0, 2, 0⟩, ⟨0, 2, 1⟩, ⟨0, 0, 8⟩, portStop 0, portStop 2, wsStop 0]
  decide ((fun (s : State) => locus.toNat / 16384 ≠ pkgNum s) ((fun (s : State) => s) s0))) = true := by decide +kernel

theorem wit_PortFaceAndInterruptEvents_11 : (
  let port : Fin 12 := 2
  let rid : BitVec 16 := 256
  let tc : Fin 8 := 1
  let addr : Word := 0x1000
  let len : BitVec 13 := 100
  let pa : Nat := 0x1000
  let data : List Byte := [1,2,3,4]
  let h : Hart := .drover ⟨0, 1, 3⟩ 1 0
  let k : Fin 14 := 2
  let i : Nat := 7
  let w : World := .normal
  let locus : BitVec 16 := BitVec.ofNat 16 (stopLocus 0 ⟨0,1,3⟩ + 32)
  let src : BitVec 12 := 17
  let q : Fin 64 := 3
  let rate : Fin 8 := 4
  let width : Fin 32 := 16
  let aer : Fin 32 := 5
  let tag : Nat := 4
  let nt := false
  let ro := false
  let lost : Nat := 0
  let dw : Fin 16 := 4
  let be : BitVec 4 := 15
  let v : Reg32 := 0x12345678
  let slot : Nat := 5
  let st : Stop := ⟨0, 1, 3⟩
  let r : OutReq := ⟨2, 4, .env, 0, 0x40, 4, [], 0⟩
  let locus : BitVec 16 := BitVec.ofNat 16 (stopLocus 0 (portStop 2) + 5)
  let ps := portStop port
  let es := portStop 0
  let root := fun (s : State) (n : Nat) => pkgState s = 0 ∧ (portProto s port.val = 0 ∨ portProto s port.val = 1) ∧ linkUp s port = true ∧ 0 < n ∧ addr.toNat % 4096 + n ≤ 4096
  let tr := fun (s : State) (kind : AKind) => (ioTranslate s port rid.toNat kind addr.toNat).1
  let res := fun (s : State) (kind : AKind) => (ioTranslate s port rid.toNat kind addr.toNat).2
  let pw := fun (s : State) => portWorld s port
  let hits := fun (s : State) (kind : AKind) (t : InTarget) => res s kind = .ok pa nt ∧ inTarget (tr s kind) port (pw (tr s kind)) pa = t
  let all := fun (s : State) (n : Nat) => ((linesOf pa n).all fun l => decide (inTarget s port (pw s) (max pa (64 * l)) = .memory)) = true
  let sk := fun (s : State) => streamOf s port rid.toNat tc.val
  let rd := fun (s : State) => (⟨port.val, 1, 0, rid.toNat, addr.toNat, len.toNat, [], false, sk s, none, none⟩ : InReq)
  let wr := fun (s : State) (relaxed : Bool) => (⟨port.val, 0, 0, rid.toNat, addr.toNat, data.length, data, relaxed, sk s, none, none⟩ : InReq)
  let am := fun (s : State) (n : Nat) => (⟨port.val, 2, 1, rid.toNat, addr.toNat, n, data, false, sk s, none, none⟩ : InReq)
  let turn := fun (u : State) (x : InReq) (signal : Bool) => (inEarlier u x).any (mustFollow none signal x) = false
  let fetch := fun (s : State) => inboundLines (tr s .read) port (sk s) pa len.toNat false nt
  let store := fun (s : State) => inboundLines (tr s .write) port (sk s) pa data.length true (nt || decide (sk s ≠ 0))
  let swap := fun (s : State) => inboundLines (tr s .rw) port (sk s) pa 8 true (decide (sk s ≠ 0))
  let lost2 := fun (s : State) => let m := s.io.posted.countP fun x => decide (x.port = port.val); let k := min lost m; let s1 := portSend (rputF s ps 1 PORT_STAT 0 9 0) port.val (m - k); portEvent (endRequests (rsetB (rsat { s1 with io := { s1.io with posted := s1.io.posted.filter fun x => decide (x.port ≠ port.val) } } ps 1 PORT_DROP 0 32 k) ps 1 PORT_STAT 9 true) port.val .down) port
  let door := fun (s : State) => ((let x : InReq := ⟨0, 0, 0, 0, 0x20000 + 0x40 * q.val, data.length, data, false, 0, none, none⟩; (inWaiting s x).getD x))
  let refuse := fun (s : State) => ioCount (rsetB (rsat s ps 1 PORT_UR_CNT 0 32 1) ps 1 PORT_STAT 11 true) port 9 1
  let answered := fun (s : State) (c : Nat) (d : List Byte) (p : Bool) => { s with io := { s.io with cpl := mapSet (fun _ => (0, [], false)) s.io.cpl port.val (c, d, p) } }
  let face := fun (s : State) => pkgState s = 0 ∧ portProto s 0 = 3 ∧ faceOpen s = true
  let found := fun (s : State) => s.io.reqs.find? (fun r => decide (r.port = port.val ∧ r.tag = tag)) = some r
  let out := fun (s : State) => { s with io := { s.io with reqs := s.io.reqs.filter fun x => !decide (x.port = port.val ∧ x.tag = tag) } }
  let priv := fun (s : State) => locus.toNat / 16384 = pkgNum s ∧ locusNamesPlace locus.toNat = true ∧ droverOf (pkgNum s) locus.toNat = some h
  let seen := fun (s : State) => pageInert s h = false ∧ privSecret s h w src.toNat = false ∧ 16 ≤ src.toNat ∧ src.toNat ≤ 47
  let lanes := BitVec.ofNat 32 (((List.range 4).map fun i => if be.getLsbD i then 0xFF * 2 ^ (8 * i) else 0).sum)
  let s0 : State := liveSt [⟨0, 1, 3⟩, ⟨0, 3, 0⟩, ⟨0, 2, 0⟩, ⟨0, 2, 1⟩, ⟨0, 0, 8⟩, portStop 0, portStop 2, wsStop 0]
  decide ((fun (s : State) => locus.toNat / 16384 = pkgNum s ∧ setAt s w locus.toNat false src.toNat = none) ((fun (s : State) => s) s0))) = true := by decide +kernel

theorem wit_LockedPairEvents_1 : (
  let st : Stop := ⟨0, 1, 3⟩
  let t : Fin 2 := 1
  let core : Fin 2 := 0
  let k : Mismatch := .access
  let ns : Nat := 1200
  let th : Fin 2 := 0
  let g : LockGroup := ⟨Thread.initial, 5, 0, 77⟩
  let gs : List LockGroup := []
  let check : BitVec 64 := 77
  let e : Nat × Nat × Nat × Bool := (2, 1, 0, false)
  let g : LockGroup := ⟨{ Thread.initial with pc := 8 }, 5, 0, 77⟩
  let h := Hart.drover st 0 t
  let key := hartKey h
  let i := stopIdx st
  let freed := fun (s : State) => let s1 := { s with lock := { s.lock with cairn := mapSet (fun _ => Thread.initial) s.lock.cairn key g.after, groups := mapSet (fun _ => []) s.lock.groups key gs } }; tmod s1 h fun u => { u with stores := u.stores.map fun x => if x.seq < g.seq then { x with good := true } else x }
  let front := fun (s : State) => mapGet (fun _ => []) s.lock.groups key = g :: gs
  let pinned := fun (s : State) => s.lock.pins.any fun x => decide (x.1 = key)
  let comp := fun (s : State) => stopKind st = .tile ∧ tileMode s st = 1 ∧ rbit s st 0 LOCK_STAT 4 = false
  let recent := fun (s : State) => (mapGet (fun _ => []) s.lock.window i).filter (fun x => decide (tbNow s < x + 100000)) ++ [tbNow s]
  let counted := fun (s : State) => rsat (rsetB { s with lock := { s.lock with window := mapSet (fun _ => []) s.lock.window i (recent s) } } st 0 LOCK_STAT 7 true) st 0 LOCK_CNT 0 24 1
  let sound := fun (s : State) => ((pairHarts st).any fun h => setHas s.lock.bad (hartKey h)) = false
  let event := fun (s : State) (x : Option (Nat × Nat × Nat × Bool)) => { s with lock := { s.lock with event := mapSet (fun _ => none) s.lock.event i x } }
  let stopped := fun (s : State) (e : Nat × Nat × Nat × Bool) => event ((pairHarts st).foldl discardWork (rsetB s st 0 LOCK_STAT 3 true)) (some e)
  let was := fun (s : State) => mapGet (fun _ => none) s.lock.event i
  let tested := fun (s : State) => stopKind st = .tile ∧ rbit s st 0 LOCK_STAT 4 = true
  let cmd := fun (s : State) (c : Nat) => stopKind st = .tile ∧ rbit s st 0 LOCK_STAT 5 = true ∧ mapGet (fun _ => 0) s.lock.cmd i = c
  let ended := fun (s : State) => rsetB { s with lock := { s.lock with cmd := mapSet (fun _ => 0) s.lock.cmd i 0 } } st 0 LOCK_STAT 5 false
  let s0 : State := liveSt [⟨0, 1, 3⟩, wsStop 0]
  decide ((fun (s : State) => comp s ∧ front s ∧ g.sig = check ∧ g.kind = 0 ∧ pinned s = false) ((fun (s : State) => (fun (s : State) => (let s1 := { s with lock := { s.lock with groups := mapSet (fun _ => []) s.lock.groups key [g] } }; tput s1 h { tget s1 h with run := .running, stores := [⟨4, 0x100, 0x100, [1], false, false, false, false, 0⟩] })) (rputF s st 0 LOCK_STAT 0 2 1)) s0)) &&
  decide ((fun (s : State) => comp s ∧ front s ∧ g.sig = check ∧ g.kind = 0 ∧ pinned s = true) ((fun (s : State) => (fun (s : State) => (let s1 := { s with lock := { s.lock with groups := mapSet (fun _ => []) s.lock.groups key [g] } }; let s2 := tput s1 h { tget s1 h with run := .running, stores := [⟨4, 0x100, 0x100, [1], false, false, false, false, 0⟩] }; { s2 with lock := { s2.lock with pins := [(key, 4)] } })) (rputF s st 0 LOCK_STAT 0 2 1)) s0))) = true := by decide +kernel

theorem wit_LockedPairEvents_2 : (
  let st : Stop := ⟨0, 1, 3⟩
  let t : Fin 2 := 1
  let core : Fin 2 := 0
  let k : Mismatch := .access
  let ns : Nat := 1200
  let th : Fin 2 := 0
  let g : LockGroup := ⟨Thread.initial, 5, 0, 77⟩
  let gs : List LockGroup := []
  let check : BitVec 64 := 77
  let e : Nat × Nat × Nat × Bool := (2, 1, 0, false)
  let g : LockGroup := ⟨Thread.initial, 5, 1, 77⟩
  let h := Hart.drover st 0 t
  let key := hartKey h
  let i := stopIdx st
  let freed := fun (s : State) => let s1 := { s with lock := { s.lock with cairn := mapSet (fun _ => Thread.initial) s.lock.cairn key g.after, groups := mapSet (fun _ => []) s.lock.groups key gs } }; tmod s1 h fun u => { u with stores := u.stores.map fun x => if x.seq < g.seq then { x with good := true } else x }
  let front := fun (s : State) => mapGet (fun _ => []) s.lock.groups key = g :: gs
  let pinned := fun (s : State) => s.lock.pins.any fun x => decide (x.1 = key)
  let comp := fun (s : State) => stopKind st = .tile ∧ tileMode s st = 1 ∧ rbit s st 0 LOCK_STAT 4 = false
  let recent := fun (s : State) => (mapGet (fun _ => []) s.lock.window i).filter (fun x => decide (tbNow s < x + 100000)) ++ [tbNow s]
  let counted := fun (s : State) => rsat (rsetB { s with lock := { s.lock with window := mapSet (fun _ => []) s.lock.window i (recent s) } } st 0 LOCK_STAT 7 true) st 0 LOCK_CNT 0 24 1
  let sound := fun (s : State) => ((pairHarts st).any fun h => setHas s.lock.bad (hartKey h)) = false
  let event := fun (s : State) (x : Option (Nat × Nat × Nat × Bool)) => { s with lock := { s.lock with event := mapSet (fun _ => none) s.lock.event i x } }
  let stopped := fun (s : State) (e : Nat × Nat × Nat × Bool) => event ((pairHarts st).foldl discardWork (rsetB s st 0 LOCK_STAT 3 true)) (some e)
  let was := fun (s : State) => mapGet (fun _ => none) s.lock.event i
  let tested := fun (s : State) => stopKind st = .tile ∧ rbit s st 0 LOCK_STAT 4 = true
  let cmd := fun (s : State) (c : Nat) => stopKind st = .tile ∧ rbit s st 0 LOCK_STAT 5 = true ∧ mapGet (fun _ => 0) s.lock.cmd i = c
  let ended := fun (s : State) => rsetB { s with lock := { s.lock with cmd := mapSet (fun _ => 0) s.lock.cmd i 0 } } st 0 LOCK_STAT 5 false
  let s0 : State := liveSt [⟨0, 1, 3⟩, wsStop 0]
  decide ((fun (s : State) => comp s ∧ front s ∧ g.sig = check ∧ g.kind = 1 ∧ pinned s = false) ((fun (s : State) => (fun (s : State) => (let s1 := { s with lock := { s.lock with groups := mapSet (fun _ => []) s.lock.groups key [g] } }; tput s1 h { tget s1 h with run := .running, stores := [⟨4, 0x100, 0x100, [1], false, false, false, false, 0⟩] })) (rputF s st 0 LOCK_STAT 0 2 1)) s0))) = true := by decide +kernel

theorem wit_LockedPairEvents_3 : (
  let st : Stop := ⟨0, 1, 3⟩
  let t : Fin 2 := 1
  let core : Fin 2 := 0
  let k : Mismatch := .access
  let ns : Nat := 1200
  let th : Fin 2 := 0
  let g : LockGroup := ⟨Thread.initial, 5, 0, 77⟩
  let gs : List LockGroup := []
  let check : BitVec 64 := 77
  let e : Nat × Nat × Nat × Bool := (2, 1, 0, false)
  let check : BitVec 64 := 76
  let h := Hart.drover st 0 t
  let key := hartKey h
  let i := stopIdx st
  let freed := fun (s : State) => let s1 := { s with lock := { s.lock with cairn := mapSet (fun _ => Thread.initial) s.lock.cairn key g.after, groups := mapSet (fun _ => []) s.lock.groups key gs } }; tmod s1 h fun u => { u with stores := u.stores.map fun x => if x.seq < g.seq then { x with good := true } else x }
  let front := fun (s : State) => mapGet (fun _ => []) s.lock.groups key = g :: gs
  let pinned := fun (s : State) => s.lock.pins.any fun x => decide (x.1 = key)
  let comp := fun (s : State) => stopKind st = .tile ∧ tileMode s st = 1 ∧ rbit s st 0 LOCK_STAT 4 = false
  let recent := fun (s : State) => (mapGet (fun _ => []) s.lock.window i).filter (fun x => decide (tbNow s < x + 100000)) ++ [tbNow s]
  let counted := fun (s : State) => rsat (rsetB { s with lock := { s.lock with window := mapSet (fun _ => []) s.lock.window i (recent s) } } st 0 LOCK_STAT 7 true) st 0 LOCK_CNT 0 24 1
  let sound := fun (s : State) => ((pairHarts st).any fun h => setHas s.lock.bad (hartKey h)) = false
  let event := fun (s : State) (x : Option (Nat × Nat × Nat × Bool)) => { s with lock := { s.lock with event := mapSet (fun _ => none) s.lock.event i x } }
  let stopped := fun (s : State) (e : Nat × Nat × Nat × Bool) => event ((pairHarts st).foldl discardWork (rsetB s st 0 LOCK_STAT 3 true)) (some e)
  let was := fun (s : State) => mapGet (fun _ => none) s.lock.event i
  let tested := fun (s : State) => stopKind st = .tile ∧ rbit s st 0 LOCK_STAT 4 = true
  let cmd := fun (s : State) (c : Nat) => stopKind st = .tile ∧ rbit s st 0 LOCK_STAT 5 = true ∧ mapGet (fun _ => 0) s.lock.cmd i = c
  let ended := fun (s : State) => rsetB { s with lock := { s.lock with cmd := mapSet (fun _ => 0) s.lock.cmd i 0 } } st 0 LOCK_STAT 5 false
  let s0 : State := liveSt [⟨0, 1, 3⟩, wsStop 0]
  decide ((fun (s : State) => comp s ∧ front s ∧ g.sig ≠ check ∧ sound s ∧ (recent s).length < 3) ((fun (s : State) => (fun (s : State) => (let s1 := { s with lock := { s.lock with groups := mapSet (fun _ => []) s.lock.groups key [g] } }; tput s1 h { tget s1 h with run := .running, stores := [⟨4, 0x100, 0x100, [1], false, false, false, false, 0⟩] })) (rputF s st 0 LOCK_STAT 0 2 1)) s0))) = true := by decide +kernel

theorem wit_LockedPairEvents_4 : (
  let st : Stop := ⟨0, 1, 3⟩
  let t : Fin 2 := 1
  let core : Fin 2 := 0
  let k : Mismatch := .access
  let ns : Nat := 1200
  let th : Fin 2 := 0
  let g : LockGroup := ⟨Thread.initial, 5, 0, 77⟩
  let gs : List LockGroup := []
  let check : BitVec 64 := 77
  let e : Nat × Nat × Nat × Bool := (2, 1, 0, false)
  let h := Hart.drover st 0 t
  let key := hartKey h
  let i := stopIdx st
  let freed := fun (s : State) => let s1 := { s with lock := { s.lock with cairn := mapSet (fun _ => Thread.initial) s.lock.cairn key g.after, groups := mapSet (fun _ => []) s.lock.groups key gs } }; tmod s1 h fun u => { u with stores := u.stores.map fun x => if x.seq < g.seq then { x with good := true } else x }
  let front := fun (s : State) => mapGet (fun _ => []) s.lock.groups key = g :: gs
  let pinned := fun (s : State) => s.lock.pins.any fun x => decide (x.1 = key)
  let comp := fun (s : State) => stopKind st = .tile ∧ tileMode s st = 1 ∧ rbit s st 0 LOCK_STAT 4 = false
  let recent := fun (s : State) => (mapGet (fun _ => []) s.lock.window i).filter (fun x => decide (tbNow s < x + 100000)) ++ [tbNow s]
  let counted := fun (s : State) => rsat (rsetB { s with lock := { s.lock with window := mapSet (fun _ => []) s.lock.window i (recent s) } } st 0 LOCK_STAT 7 true) st 0 LOCK_CNT 0 24 1
  let sound := fun (s : State) => ((pairHarts st).any fun h => setHas s.lock.bad (hartKey h)) = false
  let event := fun (s : State) (x : Option (Nat × Nat × Nat × Bool)) => { s with lock := { s.lock with event := mapSet (fun _ => none) s.lock.event i x } }
  let stopped := fun (s : State) (e : Nat × Nat × Nat × Bool) => event ((pairHarts st).foldl discardWork (rsetB s st 0 LOCK_STAT 3 true)) (some e)
  let was := fun (s : State) => mapGet (fun _ => none) s.lock.event i
  let tested := fun (s : State) => stopKind st = .tile ∧ rbit s st 0 LOCK_STAT 4 = true
  let cmd := fun (s : State) (c : Nat) => stopKind st = .tile ∧ rbit s st 0 LOCK_STAT 5 = true ∧ mapGet (fun _ => 0) s.lock.cmd i = c
  let ended := fun (s : State) => rsetB { s with lock := { s.lock with cmd := mapSet (fun _ => 0) s.lock.cmd i 0 } } st 0 LOCK_STAT 5 false
  let s0 : State := liveSt [⟨0, 1, 3⟩, wsStop 0]
  decide ((fun (s : State) => comp s ∧ mapGet (fun _ => []) s.lock.groups key = []) ((fun (s : State) => (fun (s : State) => s) (rputF s st 0 LOCK_STAT 0 2 1)) s0)) &&
  decide ((fun (s : State) => comp s ∧ mismatchKind k ≠ 4 ∧ sound s ∧ (recent s).length < 3) ((fun (s : State) => (fun (s : State) => tput s h { tget s h with stores := [⟨4, 0x100, 0x100, [1], false, false, false, false, 0⟩] }) (rputF s st 0 LOCK_STAT 0 2 1)) s0)) &&
  decide ((fun (s : State) => comp s ∧ sound s ∧ (recent s).length < 3) ((fun (s : State) => (fun (s : State) => s) (rputF s st 0 LOCK_STAT 0 2 1)) s0)) &&
  decide ((fun (s : State) => comp s ∧ mismatchKind k ≠ 4 ∧ sound s ∧ 3 ≤ (recent s).length) ((fun (s : State) => (fun (s : State) => { s with lock := { s.lock with window := [(i, [0, 0])] } }) (rputF s st 0 LOCK_STAT 0 2 1)) s0)) &&
  decide ((fun (s : State) => comp s ∧ mismatchKind k ≠ 4 ∧ ¬ sound s) ((fun (s : State) => (fun (s : State) => { s with lock := { s.lock with bad := [key] } }) (rputF s st 0 LOCK_STAT 0 2 1)) s0)) &&
  decide ((fun (s : State) => ¬ comp s) ((fun (s : State) => s) s0)) &&
  decide ((fun (s : State) => comp s ∧ mapGet (fun _ => 0) s.lock.req key = 1) ((fun (s : State) => (fun (s : State) => { s with lock := { s.lock with req := [(key, 1)] } }) (rputF s st 0 LOCK_STAT 0 2 1)) s0)) &&
  decide ((fun (s : State) => comp s ∧ mapGet (fun _ => 0) s.lock.req key = 1 ∧ sound s ∧ (recent s).length < 3) ((fun (s : State) => (fun (s : State) => { s with lock := { s.lock with req := [(key, 1)] } }) (rputF s st 0 LOCK_STAT 0 2 1)) s0)) &&
  decide ((fun (s : State) => mapGet (fun _ => 0) s.lock.req key ≠ 1) ((fun (s : State) => (fun (s : State) => s) (rputF s st 0 LOCK_STAT 0 2 1)) s0)) &&
  decide ((fun (s : State) => stopKind st = .tile ∧ rbit s st 0 LOCK_STAT 3 = true ∧ mapGet (fun _ => none) s.lock.event i = some e ∧ recoverReady s st = true ∧ e.2.2.2 = false) ((fun (s : State) => (fun (s : State) => event (rsetB s st 0 LOCK_STAT 3 true) (some (2, 1, 0, false))) (rputF s st 0 LOCK_STAT 0 2 1)) s0)) &&
  decide ((fun (s : State) => rbit s st 0 LOCK_STAT 3 = false) ((fun (s : State) => (fun (s : State) => s) (rputF s st 0 LOCK_STAT 0 2 1)) s0)) &&
  decide ((fun (s : State) => tested s ∧ was s = none) ((fun (s : State) => (fun (s : State) => rsetB s st 0 LOCK_STAT 4 true) (rputF s st 0 LOCK_STAT 0 2 1)) s0))) = true := by decide +kernel

theorem wit_LockedPairEvents_5 : (
  let st : Stop := ⟨0, 1, 3⟩
  let t : Fin 2 := 1
  let core : Fin 2 := 0
  let k : Mismatch := .access
  let ns : Nat := 1200
  let th : Fin 2 := 0
  let g : LockGroup := ⟨Thread.initial, 5, 0, 77⟩
  let gs : List LockGroup := []
  let check : BitVec 64 := 77
  let e : Nat × Nat × Nat × Bool := (2, 1, 0, false)
  let h := Hart.drover st 0 t
  let key := hartKey h
  let i := stopIdx st
  let freed := fun (s : State) => let s1 := { s with lock := { s.lock with cairn := mapSet (fun _ => Thread.initial) s.lock.cairn key g.after, groups := mapSet (fun _ => []) s.lock.groups key gs } }; tmod s1 h fun u => { u with stores := u.stores.map fun x => if x.seq < g.seq then { x with good := true } else x }
  let front := fun (s : State) => mapGet (fun _ => []) s.lock.groups key = g :: gs
  let pinned := fun (s : State) => s.lock.pins.any fun x => decide (x.1 = key)
  let comp := fun (s : State) => stopKind st = .tile ∧ tileMode s st = 1 ∧ rbit s st 0 LOCK_STAT 4 = false
  let recent := fun (s : State) => (mapGet (fun _ => []) s.lock.window i).filter (fun x => decide (tbNow s < x + 100000)) ++ [tbNow s]
  let counted := fun (s : State) => rsat (rsetB { s with lock := { s.lock with window := mapSet (fun _ => []) s.lock.window i (recent s) } } st 0 LOCK_STAT 7 true) st 0 LOCK_CNT 0 24 1
  let sound := fun (s : State) => ((pairHarts st).any fun h => setHas s.lock.bad (hartKey h)) = false
  let event := fun (s : State) (x : Option (Nat × Nat × Nat × Bool)) => { s with lock := { s.lock with event := mapSet (fun _ => none) s.lock.event i x } }
  let stopped := fun (s : State) (e : Nat × Nat × Nat × Bool) => event ((pairHarts st).foldl discardWork (rsetB s st 0 LOCK_STAT 3 true)) (some e)
  let was := fun (s : State) => mapGet (fun _ => none) s.lock.event i
  let tested := fun (s : State) => stopKind st = .tile ∧ rbit s st 0 LOCK_STAT 4 = true
  let cmd := fun (s : State) (c : Nat) => stopKind st = .tile ∧ rbit s st 0 LOCK_STAT 5 = true ∧ mapGet (fun _ => 0) s.lock.cmd i = c
  let ended := fun (s : State) => rsetB { s with lock := { s.lock with cmd := mapSet (fun _ => 0) s.lock.cmd i 0 } } st 0 LOCK_STAT 5 false
  let s0 : State := liveSt [⟨0, 1, 3⟩, wsStop 0]
  decide ((fun (s : State) => tested s ∧ was s = some e) ((fun (s : State) => (fun (s : State) => event (rsetB s st 0 LOCK_STAT 4 true) (some e)) (rputF s st 0 LOCK_STAT 0 2 1)) s0)) &&
  decide ((fun (s : State) => tested s ∧ was s = none) ((fun (s : State) => (fun (s : State) => rsetB s st 0 LOCK_STAT 4 true) (rputF s st 0 LOCK_STAT 0 2 1)) s0)) &&
  decide ((fun (s : State) => tested s ∧ was s = some e) ((fun (s : State) => (fun (s : State) => event (rsetB s st 0 LOCK_STAT 4 true) (some e)) (rputF s st 0 LOCK_STAT 0 2 1)) s0)) &&
  decide ((fun (s : State) => tested s ∧ was s = none) ((fun (s : State) => (fun (s : State) => rsetB s st 0 LOCK_STAT 4 true) (rputF s st 0 LOCK_STAT 0 2 1)) s0)) &&
  decide ((fun (s : State) => tested s ∧ was s = some e) ((fun (s : State) => (fun (s : State) => event (rsetB s st 0 LOCK_STAT 4 true) (some e)) (rputF s st 0 LOCK_STAT 0 2 1)) s0)) &&
  decide ((fun (s : State) => tested s ∧ was s = none) ((fun (s : State) => (fun (s : State) => rsetB s st 0 LOCK_STAT 4 true) (rputF s st 0 LOCK_STAT 0 2 1)) s0)) &&
  decide ((fun (s : State) => tested s ∧ was s = some e) ((fun (s : State) => (fun (s : State) => event (rsetB s st 0 LOCK_STAT 4 true) (some e)) (rputF s st 0 LOCK_STAT 0 2 1)) s0)) &&
  decide ((fun (s : State) => ¬ tested s) ((fun (s : State) => s) s0)) &&
  decide ((fun (s : State) => comp s) ((fun (s : State) => (fun (s : State) => s) (rputF s st 0 LOCK_STAT 0 2 1)) s0)) &&
  decide ((fun (s : State) => comp s) ((fun (s : State) => (fun (s : State) => s) (rputF s st 0 LOCK_STAT 0 2 1)) s0)) &&
  decide ((fun (s : State) => True) ((fun (s : State) => (fun (s : State) => s) (rputF s st 0 LOCK_STAT 0 2 1)) s0)) &&
  decide ((fun (s : State) => cmd s 1 ∧ tileMode (ended s) st = 0) ((fun (s : State) => (fun (s : State) => s) (rsetB { s with lock := { s.lock with cmd := [(i, 1)] } } st 0 LOCK_STAT 5 true)) s0))) = true := by decide +kernel

theorem wit_LockedPairEvents_6 : (
  let st : Stop := ⟨0, 1, 3⟩
  let t : Fin 2 := 1
  let core : Fin 2 := 0
  let k : Mismatch := .access
  let ns : Nat := 1200
  let th : Fin 2 := 0
  let g : LockGroup := ⟨Thread.initial, 5, 0, 77⟩
  let gs : List LockGroup := []
  let check : BitVec 64 := 77
  let e : Nat × Nat × Nat × Bool := (2, 1, 0, false)
  let h := Hart.drover st 0 t
  let key := hartKey h
  let i := stopIdx st
  let freed := fun (s : State) => let s1 := { s with lock := { s.lock with cairn := mapSet (fun _ => Thread.initial) s.lock.cairn key g.after, groups := mapSet (fun _ => []) s.lock.groups key gs } }; tmod s1 h fun u => { u with stores := u.stores.map fun x => if x.seq < g.seq then { x with good := true } else x }
  let front := fun (s : State) => mapGet (fun _ => []) s.lock.groups key = g :: gs
  let pinned := fun (s : State) => s.lock.pins.any fun x => decide (x.1 = key)
  let comp := fun (s : State) => stopKind st = .tile ∧ tileMode s st = 1 ∧ rbit s st 0 LOCK_STAT 4 = false
  let recent := fun (s : State) => (mapGet (fun _ => []) s.lock.window i).filter (fun x => decide (tbNow s < x + 100000)) ++ [tbNow s]
  let counted := fun (s : State) => rsat (rsetB { s with lock := { s.lock with window := mapSet (fun _ => []) s.lock.window i (recent s) } } st 0 LOCK_STAT 7 true) st 0 LOCK_CNT 0 24 1
  let sound := fun (s : State) => ((pairHarts st).any fun h => setHas s.lock.bad (hartKey h)) = false
  let event := fun (s : State) (x : Option (Nat × Nat × Nat × Bool)) => { s with lock := { s.lock with event := mapSet (fun _ => none) s.lock.event i x } }
  let stopped := fun (s : State) (e : Nat × Nat × Nat × Bool) => event ((pairHarts st).foldl discardWork (rsetB s st 0 LOCK_STAT 3 true)) (some e)
  let was := fun (s : State) => mapGet (fun _ => none) s.lock.event i
  let tested := fun (s : State) => stopKind st = .tile ∧ rbit s st 0 LOCK_STAT 4 = true
  let cmd := fun (s : State) (c : Nat) => stopKind st = .tile ∧ rbit s st 0 LOCK_STAT 5 = true ∧ mapGet (fun _ => 0) s.lock.cmd i = c
  let ended := fun (s : State) => rsetB { s with lock := { s.lock with cmd := mapSet (fun _ => 0) s.lock.cmd i 0 } } st 0 LOCK_STAT 5 false
  let s0 : State := liveSt [⟨0, 1, 3⟩, wsStop 0]
  decide ((fun (s : State) => cmd s 1 ∧ tileMode (ended s) st = 1) ((fun (s : State) => (fun (s : State) => rputF s st 0 LOCK_STAT 0 2 1) (rsetB { s with lock := { s.lock with cmd := [(i, 1)] } } st 0 LOCK_STAT 5 true)) s0)) &&
  decide ((fun (s : State) => cmd s 2 ∧ tileMode (ended s) st = 1) ((fun (s : State) => (fun (s : State) => rputF s st 0 LOCK_STAT 0 2 1) (rsetB { s with lock := { s.lock with cmd := [(i, 2)] } } st 0 LOCK_STAT 5 true)) s0)) &&
  decide ((fun (s : State) => cmd s 3 ∧ tileMode (ended s) st = 3) ((fun (s : State) => (fun (s : State) => rputF s st 0 LOCK_STAT 0 2 3) (rsetB { s with lock := { s.lock with cmd := [(i, 3)] } } st 0 LOCK_STAT 5 true)) s0)) &&
  decide ((fun (s : State) => cmd s 3 ∧ tileMode (ended s) st = 3) ((fun (s : State) => (fun (s : State) => rputF s st 0 LOCK_STAT 0 2 3) (rsetB { s with lock := { s.lock with cmd := [(i, 3)] } } st 0 LOCK_STAT 5 true)) s0)) &&
  decide ((fun (s : State) => cmd s 3 ∧ tileMode (ended s) st = 2 ∧ rbit (ended s) st 0 LOCK_STAT 2 = true) ((fun (s : State) => (fun (s : State) => rputF s st 0 LOCK_STAT 0 3 6) (rsetB { s with lock := { s.lock with cmd := [(i, 3)] } } st 0 LOCK_STAT 5 true)) s0)) &&
  decide ((fun (s : State) => rbit s st 0 LOCK_STAT 5 = false) ((fun (s : State) => s) s0))) = true := by decide +kernel

theorem wit_LockedPairEvents_7 : (
  let st : Stop := ⟨0, 1, 3⟩
  let t : Fin 2 := 1
  let core : Fin 2 := 0
  let k : Mismatch := .access
  let ns : Nat := 1200
  let th : Fin 2 := 0
  let g : LockGroup := ⟨Thread.initial, 5, 0, 77⟩
  let gs : List LockGroup := []
  let check : BitVec 64 := 77
  let e : Nat × Nat × Nat × Bool := (2, 1, 0, false)
  let e : Nat × Nat × Nat × Bool := (2, 1, 0, true)
  let h := Hart.drover st 0 t
  let key := hartKey h
  let i := stopIdx st
  let freed := fun (s : State) => let s1 := { s with lock := { s.lock with cairn := mapSet (fun _ => Thread.initial) s.lock.cairn key g.after, groups := mapSet (fun _ => []) s.lock.groups key gs } }; tmod s1 h fun u => { u with stores := u.stores.map fun x => if x.seq < g.seq then { x with good := true } else x }
  let front := fun (s : State) => mapGet (fun _ => []) s.lock.groups key = g :: gs
  let pinned := fun (s : State) => s.lock.pins.any fun x => decide (x.1 = key)
  let comp := fun (s : State) => stopKind st = .tile ∧ tileMode s st = 1 ∧ rbit s st 0 LOCK_STAT 4 = false
  let recent := fun (s : State) => (mapGet (fun _ => []) s.lock.window i).filter (fun x => decide (tbNow s < x + 100000)) ++ [tbNow s]
  let counted := fun (s : State) => rsat (rsetB { s with lock := { s.lock with window := mapSet (fun _ => []) s.lock.window i (recent s) } } st 0 LOCK_STAT 7 true) st 0 LOCK_CNT 0 24 1
  let sound := fun (s : State) => ((pairHarts st).any fun h => setHas s.lock.bad (hartKey h)) = false
  let event := fun (s : State) (x : Option (Nat × Nat × Nat × Bool)) => { s with lock := { s.lock with event := mapSet (fun _ => none) s.lock.event i x } }
  let stopped := fun (s : State) (e : Nat × Nat × Nat × Bool) => event ((pairHarts st).foldl discardWork (rsetB s st 0 LOCK_STAT 3 true)) (some e)
  let was := fun (s : State) => mapGet (fun _ => none) s.lock.event i
  let tested := fun (s : State) => stopKind st = .tile ∧ rbit s st 0 LOCK_STAT 4 = true
  let cmd := fun (s : State) (c : Nat) => stopKind st = .tile ∧ rbit s st 0 LOCK_STAT 5 = true ∧ mapGet (fun _ => 0) s.lock.cmd i = c
  let ended := fun (s : State) => rsetB { s with lock := { s.lock with cmd := mapSet (fun _ => 0) s.lock.cmd i 0 } } st 0 LOCK_STAT 5 false
  let s0 : State := liveSt [⟨0, 1, 3⟩, wsStop 0]
  decide ((fun (s : State) => stopKind st = .tile ∧ rbit s st 0 LOCK_STAT 3 = true ∧ mapGet (fun _ => none) s.lock.event i = some e ∧ recoverReady s st = true ∧ e.2.2.2 = true) ((fun (s : State) => (fun (s : State) => event (rsetB s st 0 LOCK_STAT 3 true) (some (2, 1, 0, true))) (rputF s st 0 LOCK_STAT 0 2 1)) s0))) = true := by decide +kernel

theorem wit_PowerEvents_1 : (
  let st : Stop := ⟨0, 1, 3⟩
  let die : Fin 2 := 0
  let b : Fin 6 := 1
  let d : Fin 3 := 1
  let dd : Fin 16 := 1
  let ap : Fin 7 := 6
  let kind : Fin 7 := 2
  let pk : Fin 8 := 3
  let arg : BitVec 16 := 9
  let deg : BitVec 8 := 60
  let watts : BitVec 10 := 400
  let n : Fin 32 := 0
  let pins : BitVec 8 := 5
  let x : Nat := 3
  let ws := wsStop die
  let key := bandKey die b.val
  let rk := bandKey die (railOf b.val)
  let goal := fun (s : State) => min (min (rfld s ws 5 (bandBase b.val + BAND_CTL) 0 6) (freqCeiling (bandCores s die b.val))) (min (bandGrant s key) (bandTherm s key))
  let pll := 1 ≤ b.val ∧ b.val ≤ 4
  let limit := fun (s : State) => rfld s (wsStop 0) 4 PKG_PWR_LIMIT 0 10
  let shown := fun (s : State) => let v : Reg32 := BitVec.ofNat 32 (watts.toNat + baseFreq (limit s) * 65536); rput (rput s (wsStop 0) 4 PKG_PWR_EST v) (wsStop 1) 4 PKG_PWR_EST v
  let isDom := domExists st dd.val = true ∧ dd ≠ 15
  let lists := fun (s : State) => { s with pow := { s.pow with temps := mapSet (fun _ => 0) s.pow.temps (stopIdx st) deg.toNat } }
  let hot := fun (s : State) => rputF (lists s) (wsStop st.die) 5 (bandBase st.y.val + BAND_STAT) 16 8 (hottest (lists s) (rowStops st.die st.y.val))
  let read := fun (s : State) => rputF (hot s) (wsStop st.die) 4 THERM_STAT 0 8 (hottest (hot s) (dieStops st.die))
  let sampled := fun (s : State) => (let e := mapGet (fun _ => WchSt.initial) s.pow.wch (die.val * 32); wchSample { s with pow := { s.pow with wch := mapSet (fun _ => WchSt.initial) s.pow.wch (die.val * 32) { e with age := 0 } } } die 0 (some pins.toNat))
  let slow := fun (s : State) => rsetB s (wsStop st.die) 4 THERM_STAT 8 ([1, 2, 3, 4].any fun b => decide (bandTherm s (bandKey st.die b) < 32))
  let s0 : State := liveSt [⟨0, 1, 3⟩, ⟨0,0,4⟩, wsStop 0]
  decide ((fun (s : State) => pll ∧ goal s < bandFreq s die b.val) ((fun (s : State) => setBandFreq (rputF s ws 5 (bandBase b.val + BAND_CTL) 0 6 20) die b.val 26) s0)) &&
  decide ((fun (s : State) => pll ∧ bandFreq s die b.val < goal s) ((fun (s : State) => setBandFreq (rputF s ws 5 (bandBase b.val + BAND_CTL) 0 6 20) die b.val 10) s0)) &&
  decide ((fun (s : State) => setHas s.pow.volt key = true ∧ goal { s with pow := { s.pow with volt := setDel s.pow.volt key } } = goal s) ((fun (s : State) => { setBandFreq (rputF s ws 5 (bandBase b.val + BAND_CTL) 0 6 20) die b.val 10 with pow := { s.pow with volt := [1] } }) s0)) &&
  decide ((fun (s : State) => setHas s.pow.volt key = false) ((fun (s : State) => s) s0)) &&
  decide ((fun (s : State) => watts.toNat ≤ limit (shown s) ∧ limit (shown s) = limit s) ((fun (s : State) => setGrant (rputF s (wsStop 0) 4 PKG_PWR_LIMIT 0 10 450) 1 12) s0)) &&
  decide ((fun (s : State) => limit s < watts.toNat ∧ highestBand (shown s) = some (die, b.val) ∧ (let g := min (bandGrant (shown s) key) (bandFreq (shown s) die b.val); baseHolds (shown s) = false ∧ 8 < g)) ((fun (s : State) => rputF (setBandFreq (rputF s ws 5 (bandBase b.val + BAND_CTL) 0 6 20) die b.val 26) (wsStop 0) 4 PKG_PWR_LIMIT 0 10 350) s0)) &&
  decide ((fun (s : State) => stopKind st = .tile ∧ rbit s st 9 (16 * d.val + DSEQ_CTL) 0 = true ∧ domUsable s st d.val = true) ((fun (s : State) => rsetB s st 9 (16 * d.val + DSEQ_CTL) 0 true) s0)) &&
  decide ((fun (s : State) => stopKind st ≠ .tile ∨ rbit s st 9 (16 * d.val + DSEQ_CTL) 0 = false) ((fun (s : State) => rsetB s st 9 (16 * d.val + DSEQ_CTL) 0 false) s0)) &&
  decide ((fun (s : State) => isDom ∧ kind ≠ 0 ∧ pkgState s = 0) ((fun (s : State) => setDom s st 1 dOFF) s0)) &&
  decide ((fun (s : State) => isDom ∧ kind ≠ 0 ∧ pkgState s ≠ 0 ∧ pk ≠ 0) ((fun (s : State) => rputF s (wsStop 0) 4 PKG_STATE 0 4 2) s0)) &&
  decide ((fun (s : State) => isDom ∧ (domState s st dd.val = dENTERING ∨ domState s st dd.val = dWAKING)) ((fun (s : State) => setDom s st 1 dWAKING) s0)) &&
  decide ((fun (s : State) => domState s st dd.val = dON ∨ domState s st dd.val = dOFF) ((fun (s : State) => s) s0))) = true := by decide +kernel

theorem wit_PowerEvents_2 : (
  let st : Stop := ⟨0, 1, 3⟩
  let die : Fin 2 := 0
  let b : Fin 6 := 1
  let d : Fin 3 := 1
  let dd : Fin 16 := 1
  let ap : Fin 7 := 6
  let kind : Fin 7 := 2
  let pk : Fin 8 := 3
  let arg : BitVec 16 := 9
  let deg : BitVec 8 := 60
  let watts : BitVec 10 := 400
  let n : Fin 32 := 0
  let pins : BitVec 8 := 5
  let x : Nat := 3
  let ws := wsStop die
  let key := bandKey die b.val
  let rk := bandKey die (railOf b.val)
  let goal := fun (s : State) => min (min (rfld s ws 5 (bandBase b.val + BAND_CTL) 0 6) (freqCeiling (bandCores s die b.val))) (min (bandGrant s key) (bandTherm s key))
  let pll := 1 ≤ b.val ∧ b.val ≤ 4
  let limit := fun (s : State) => rfld s (wsStop 0) 4 PKG_PWR_LIMIT 0 10
  let shown := fun (s : State) => let v : Reg32 := BitVec.ofNat 32 (watts.toNat + baseFreq (limit s) * 65536); rput (rput s (wsStop 0) 4 PKG_PWR_EST v) (wsStop 1) 4 PKG_PWR_EST v
  let isDom := domExists st dd.val = true ∧ dd ≠ 15
  let lists := fun (s : State) => { s with pow := { s.pow with temps := mapSet (fun _ => 0) s.pow.temps (stopIdx st) deg.toNat } }
  let hot := fun (s : State) => rputF (lists s) (wsStop st.die) 5 (bandBase st.y.val + BAND_STAT) 16 8 (hottest (lists s) (rowStops st.die st.y.val))
  let read := fun (s : State) => rputF (hot s) (wsStop st.die) 4 THERM_STAT 0 8 (hottest (hot s) (dieStops st.die))
  let sampled := fun (s : State) => (let e := mapGet (fun _ => WchSt.initial) s.pow.wch (die.val * 32); wchSample { s with pow := { s.pow with wch := mapSet (fun _ => WchSt.initial) s.pow.wch (die.val * 32) { e with age := 0 } } } die 0 (some pins.toNat))
  let slow := fun (s : State) => rsetB s (wsStop st.die) 4 THERM_STAT 8 ([1, 2, 3, 4].any fun b => decide (bandTherm s (bandKey st.die b) < 32))
  let s0 : State := liveSt [⟨0, 1, 3⟩, ⟨0,0,4⟩, wsStop 0]
  decide ((fun (s : State) => stopKind st ≠ .memory ∧ domExists st dd.val = true ∧ domState s st dd.val = dWAKING) ((fun (s : State) => setDom s st 1 dWAKING) s0)) &&
  decide ((fun (s : State) => domState s st dd.val ≠ dWAKING) ((fun (s : State) => s) s0)) &&
  decide ((fun (s : State) => pkgState s = 1 ∧ (setPkgState (bandsDown (stacksDown (slicesDown (coresDown s) false)) false) 2).pow.latched = []) ((fun (s : State) => rputF s (wsStop 0) 4 PKG_STATE 0 4 1) s0)) &&
  decide ((fun (s : State) => pkgState s = 1 ∧ (setPkgState (bandsDown (stacksDown (slicesDown (coresDown s) false)) false) 2).pow.latched = [(2, x)]) ((fun (s : State) => (let s := rputF s (wsStop 0) 4 PKG_STATE 0 4 1; { s with pow := { s.pow with latched := [(2, 3)] } })) s0)) &&
  decide ((fun (s : State) => pkgState s = 4 ∧ (setPkgState (dormantDown (bandsDown (stacksDown (slicesDown (coresDown s) true)) true)) 5).pow.latched = []) ((fun (s : State) => rputF s (wsStop 0) 4 PKG_STATE 0 4 4) s0)) &&
  decide ((fun (s : State) => pkgState s ≠ 1 ∧ pkgState s ≠ 4) ((fun (s : State) => s) s0)) &&
  decide ((fun (s : State) => stopKind st = .tile ∧ deg.toNat < 115) ((fun (s : State) => rputF s (wsStop 0) 4 THERM_CTL 0 8 50) s0)) &&
  decide ((fun (s : State) => setHas s.pow.droop rk = false) ((fun (s : State) => s) s0)) &&
  decide ((fun (s : State) => setHas s.pow.droop rk = true) ((fun (s : State) => { s with pow := { s.pow with droop := [1] } }) s0)) &&
  decide ((fun (s : State) => True) ((fun (s : State) => { s with pow := { s.pow with droop := [1] } }) s0)) &&
  decide ((fun (s : State) => True) ((fun (s : State) => s) s0)) &&
  decide ((fun (s : State) => rbit s ws 6 WCH_GCTL 0 = false) ((fun (s : State) => rsetB s ws 6 WCH_GCTL 0 false) s0))) = true := by decide +kernel

theorem wit_PowerEvents_3 : (
  let st : Stop := ⟨0, 1, 3⟩
  let die : Fin 2 := 0
  let b : Fin 6 := 1
  let d : Fin 3 := 1
  let dd : Fin 16 := 1
  let ap : Fin 7 := 6
  let kind : Fin 7 := 2
  let pk : Fin 8 := 3
  let arg : BitVec 16 := 9
  let deg : BitVec 8 := 60
  let watts : BitVec 10 := 400
  let n : Fin 32 := 0
  let pins : BitVec 8 := 5
  let x : Nat := 3
  let ws := wsStop die
  let key := bandKey die b.val
  let rk := bandKey die (railOf b.val)
  let goal := fun (s : State) => min (min (rfld s ws 5 (bandBase b.val + BAND_CTL) 0 6) (freqCeiling (bandCores s die b.val))) (min (bandGrant s key) (bandTherm s key))
  let pll := 1 ≤ b.val ∧ b.val ≤ 4
  let limit := fun (s : State) => rfld s (wsStop 0) 4 PKG_PWR_LIMIT 0 10
  let shown := fun (s : State) => let v : Reg32 := BitVec.ofNat 32 (watts.toNat + baseFreq (limit s) * 65536); rput (rput s (wsStop 0) 4 PKG_PWR_EST v) (wsStop 1) 4 PKG_PWR_EST v
  let isDom := domExists st dd.val = true ∧ dd ≠ 15
  let lists := fun (s : State) => { s with pow := { s.pow with temps := mapSet (fun _ => 0) s.pow.temps (stopIdx st) deg.toNat } }
  let hot := fun (s : State) => rputF (lists s) (wsStop st.die) 5 (bandBase st.y.val + BAND_STAT) 16 8 (hottest (lists s) (rowStops st.die st.y.val))
  let read := fun (s : State) => rputF (hot s) (wsStop st.die) 4 THERM_STAT 0 8 (hottest (hot s) (dieStops st.die))
  let sampled := fun (s : State) => (let e := mapGet (fun _ => WchSt.initial) s.pow.wch (die.val * 32); wchSample { s with pow := { s.pow with wch := mapSet (fun _ => WchSt.initial) s.pow.wch (die.val * 32) { e with age := 0 } } } die 0 (some pins.toNat))
  let slow := fun (s : State) => rsetB s (wsStop st.die) 4 THERM_STAT 8 ([1, 2, 3, 4].any fun b => decide (bandTherm s (bandKey st.die b) < 32))
  let s0 : State := liveSt [⟨0, 1, 3⟩, ⟨0,0,4⟩, wsStop 0]
  decide ((fun (s : State) => rbit s ws 6 WCH_GCTL 0 = true ∧ ∀ n : Fin 32, rbit s ws 6 (wchBase n.val) 0 = false) ((fun (s : State) => rsetB s ws 6 WCH_GCTL 0 true) s0)) &&
  decide ((fun (s : State) => rbit s ws 6 WCH_GCTL 0 = true ∧ wchReg s die 0 WCH_PERIOD = 1 ∧ ∀ n : Fin 32, rbit s ws 6 (wchBase n.val) 0 = decide (n = 0)) ((fun (s : State) => let s := rsetB s ws 6 WCH_GCTL 0 true; rput (rsetB s ws 6 (wchBase 0) 0 true) ws 6 (wchBase 0 + WCH_PERIOD) 1) s0)) &&
  decide ((fun (s : State) => rbit s ws 6 WCH_GCTL 0 = true ∧ wchReg s die 0 WCH_PERIOD = 1 ∧ bits (wchReg s die 0 WCH_CTL) 1 2 = 2 ∧ (∀ n : Fin 32, rbit s ws 6 (wchBase n.val) 0 = decide (n = 0)) ∧ ∀ n : Fin 32, n ≠ 0 → rbit (sampled s) ws 6 (wchBase n.val) 0 = false) ((fun (s : State) => (let s := rsetB s ws 6 WCH_GCTL 0 true; rput (rput s ws 6 (wchBase 0 + WCH_PERIOD) 1) ws 6 (wchBase 0) 5)) s0))) = true := by decide +kernel

theorem wit_PowerEvents_4 : (
  let st : Stop := ⟨0, 1, 3⟩
  let die : Fin 2 := 0
  let b : Fin 6 := 1
  let d : Fin 3 := 1
  let dd : Fin 16 := 1
  let ap : Fin 7 := 6
  let kind : Fin 7 := 2
  let pk : Fin 8 := 3
  let arg : BitVec 16 := 9
  let deg : BitVec 8 := 60
  let watts : BitVec 10 := 400
  let n : Fin 32 := 0
  let pins : BitVec 8 := 5
  let x : Nat := 3
  let b : Fin 6 := 0
  let ws := wsStop die
  let key := bandKey die b.val
  let rk := bandKey die (railOf b.val)
  let goal := fun (s : State) => min (min (rfld s ws 5 (bandBase b.val + BAND_CTL) 0 6) (freqCeiling (bandCores s die b.val))) (min (bandGrant s key) (bandTherm s key))
  let pll := 1 ≤ b.val ∧ b.val ≤ 4
  let limit := fun (s : State) => rfld s (wsStop 0) 4 PKG_PWR_LIMIT 0 10
  let shown := fun (s : State) => let v : Reg32 := BitVec.ofNat 32 (watts.toNat + baseFreq (limit s) * 65536); rput (rput s (wsStop 0) 4 PKG_PWR_EST v) (wsStop 1) 4 PKG_PWR_EST v
  let isDom := domExists st dd.val = true ∧ dd ≠ 15
  let lists := fun (s : State) => { s with pow := { s.pow with temps := mapSet (fun _ => 0) s.pow.temps (stopIdx st) deg.toNat } }
  let hot := fun (s : State) => rputF (lists s) (wsStop st.die) 5 (bandBase st.y.val + BAND_STAT) 16 8 (hottest (lists s) (rowStops st.die st.y.val))
  let read := fun (s : State) => rputF (hot s) (wsStop st.die) 4 THERM_STAT 0 8 (hottest (hot s) (dieStops st.die))
  let sampled := fun (s : State) => (let e := mapGet (fun _ => WchSt.initial) s.pow.wch (die.val * 32); wchSample { s with pow := { s.pow with wch := mapSet (fun _ => WchSt.initial) s.pow.wch (die.val * 32) { e with age := 0 } } } die 0 (some pins.toNat))
  let slow := fun (s : State) => rsetB s (wsStop st.die) 4 THERM_STAT 8 ([1, 2, 3, 4].any fun b => decide (bandTherm s (bandKey st.die b) < 32))
  let s0 : State := liveSt [⟨0, 1, 3⟩, ⟨0,0,4⟩, wsStop 0]
  decide ((fun (s : State) => ¬ pll ∨ bandFreq s die b.val = goal s) ((fun (s : State) => s) s0))) = true := by decide +kernel

theorem wit_PowerEvents_5 : (
  let st : Stop := ⟨0, 1, 3⟩
  let die : Fin 2 := 0
  let b : Fin 6 := 1
  let d : Fin 3 := 1
  let dd : Fin 16 := 1
  let ap : Fin 7 := 6
  let kind : Fin 7 := 2
  let pk : Fin 8 := 3
  let arg : BitVec 16 := 9
  let deg : BitVec 8 := 60
  let watts : BitVec 10 := 400
  let n : Fin 32 := 0
  let pins : BitVec 8 := 5
  let x : Nat := 3
  let dd : Fin 16 := 9
  let ws := wsStop die
  let key := bandKey die b.val
  let rk := bandKey die (railOf b.val)
  let goal := fun (s : State) => min (min (rfld s ws 5 (bandBase b.val + BAND_CTL) 0 6) (freqCeiling (bandCores s die b.val))) (min (bandGrant s key) (bandTherm s key))
  let pll := 1 ≤ b.val ∧ b.val ≤ 4
  let limit := fun (s : State) => rfld s (wsStop 0) 4 PKG_PWR_LIMIT 0 10
  let shown := fun (s : State) => let v : Reg32 := BitVec.ofNat 32 (watts.toNat + baseFreq (limit s) * 65536); rput (rput s (wsStop 0) 4 PKG_PWR_EST v) (wsStop 1) 4 PKG_PWR_EST v
  let isDom := domExists st dd.val = true ∧ dd ≠ 15
  let lists := fun (s : State) => { s with pow := { s.pow with temps := mapSet (fun _ => 0) s.pow.temps (stopIdx st) deg.toNat } }
  let hot := fun (s : State) => rputF (lists s) (wsStop st.die) 5 (bandBase st.y.val + BAND_STAT) 16 8 (hottest (lists s) (rowStops st.die st.y.val))
  let read := fun (s : State) => rputF (hot s) (wsStop st.die) 4 THERM_STAT 0 8 (hottest (hot s) (dieStops st.die))
  let sampled := fun (s : State) => (let e := mapGet (fun _ => WchSt.initial) s.pow.wch (die.val * 32); wchSample { s with pow := { s.pow with wch := mapSet (fun _ => WchSt.initial) s.pow.wch (die.val * 32) { e with age := 0 } } } die 0 (some pins.toNat))
  let slow := fun (s : State) => rsetB s (wsStop st.die) 4 THERM_STAT 8 ([1, 2, 3, 4].any fun b => decide (bandTherm s (bandKey st.die b) < 32))
  let s0 : State := liveSt [⟨0, 1, 3⟩, ⟨0,0,4⟩, wsStop 0]
  decide ((fun (s : State) => ¬ isDom) ((fun (s : State) => s) s0))) = true := by decide +kernel

theorem wit_PowerEvents_6 : (
  let st : Stop := ⟨0, 1, 3⟩
  let die : Fin 2 := 0
  let b : Fin 6 := 1
  let d : Fin 3 := 1
  let dd : Fin 16 := 1
  let ap : Fin 7 := 6
  let kind : Fin 7 := 2
  let pk : Fin 8 := 3
  let arg : BitVec 16 := 9
  let deg : BitVec 8 := 60
  let watts : BitVec 10 := 400
  let n : Fin 32 := 0
  let pins : BitVec 8 := 5
  let x : Nat := 3
  let st : Stop := ⟨0,0,4⟩
  let ws := wsStop die
  let key := bandKey die b.val
  let rk := bandKey die (railOf b.val)
  let goal := fun (s : State) => min (min (rfld s ws 5 (bandBase b.val + BAND_CTL) 0 6) (freqCeiling (bandCores s die b.val))) (min (bandGrant s key) (bandTherm s key))
  let pll := 1 ≤ b.val ∧ b.val ≤ 4
  let limit := fun (s : State) => rfld s (wsStop 0) 4 PKG_PWR_LIMIT 0 10
  let shown := fun (s : State) => let v : Reg32 := BitVec.ofNat 32 (watts.toNat + baseFreq (limit s) * 65536); rput (rput s (wsStop 0) 4 PKG_PWR_EST v) (wsStop 1) 4 PKG_PWR_EST v
  let isDom := domExists st dd.val = true ∧ dd ≠ 15
  let lists := fun (s : State) => { s with pow := { s.pow with temps := mapSet (fun _ => 0) s.pow.temps (stopIdx st) deg.toNat } }
  let hot := fun (s : State) => rputF (lists s) (wsStop st.die) 5 (bandBase st.y.val + BAND_STAT) 16 8 (hottest (lists s) (rowStops st.die st.y.val))
  let read := fun (s : State) => rputF (hot s) (wsStop st.die) 4 THERM_STAT 0 8 (hottest (hot s) (dieStops st.die))
  let sampled := fun (s : State) => (let e := mapGet (fun _ => WchSt.initial) s.pow.wch (die.val * 32); wchSample { s with pow := { s.pow with wch := mapSet (fun _ => WchSt.initial) s.pow.wch (die.val * 32) { e with age := 0 } } } die 0 (some pins.toNat))
  let slow := fun (s : State) => rsetB s (wsStop st.die) 4 THERM_STAT 8 ([1, 2, 3, 4].any fun b => decide (bandTherm s (bandKey st.die b) < 32))
  let s0 : State := liveSt [⟨0, 1, 3⟩, ⟨0,0,4⟩, wsStop 0]
  decide ((fun (s : State) => stopKind st = .memory ∧ dd.val < 2 ∧ domState s st dd.val = dWAKING) ((fun (s : State) => rsetB (setDom s st 1 dWAKING) st 2 MC_STAT 2 true) s0)) &&
  decide ((fun (s : State) => stopKind st ≠ .tile ∧ deg.toNat < 115) ((fun (s : State) => s) s0))) = true := by decide +kernel

theorem wit_PowerEvents_7 : (
  let st : Stop := ⟨0, 1, 3⟩
  let die : Fin 2 := 0
  let b : Fin 6 := 1
  let d : Fin 3 := 1
  let dd : Fin 16 := 1
  let ap : Fin 7 := 6
  let kind : Fin 7 := 2
  let pk : Fin 8 := 3
  let arg : BitVec 16 := 9
  let deg : BitVec 8 := 60
  let watts : BitVec 10 := 400
  let n : Fin 32 := 0
  let pins : BitVec 8 := 5
  let x : Nat := 3
  let deg : BitVec 8 := 115
  let ws := wsStop die
  let key := bandKey die b.val
  let rk := bandKey die (railOf b.val)
  let goal := fun (s : State) => min (min (rfld s ws 5 (bandBase b.val + BAND_CTL) 0 6) (freqCeiling (bandCores s die b.val))) (min (bandGrant s key) (bandTherm s key))
  let pll := 1 ≤ b.val ∧ b.val ≤ 4
  let limit := fun (s : State) => rfld s (wsStop 0) 4 PKG_PWR_LIMIT 0 10
  let shown := fun (s : State) => let v : Reg32 := BitVec.ofNat 32 (watts.toNat + baseFreq (limit s) * 65536); rput (rput s (wsStop 0) 4 PKG_PWR_EST v) (wsStop 1) 4 PKG_PWR_EST v
  let isDom := domExists st dd.val = true ∧ dd ≠ 15
  let lists := fun (s : State) => { s with pow := { s.pow with temps := mapSet (fun _ => 0) s.pow.temps (stopIdx st) deg.toNat } }
  let hot := fun (s : State) => rputF (lists s) (wsStop st.die) 5 (bandBase st.y.val + BAND_STAT) 16 8 (hottest (lists s) (rowStops st.die st.y.val))
  let read := fun (s : State) => rputF (hot s) (wsStop st.die) 4 THERM_STAT 0 8 (hottest (hot s) (dieStops st.die))
  let sampled := fun (s : State) => (let e := mapGet (fun _ => WchSt.initial) s.pow.wch (die.val * 32); wchSample { s with pow := { s.pow with wch := mapSet (fun _ => WchSt.initial) s.pow.wch (die.val * 32) { e with age := 0 } } } die 0 (some pins.toNat))
  let slow := fun (s : State) => rsetB s (wsStop st.die) 4 THERM_STAT 8 ([1, 2, 3, 4].any fun b => decide (bandTherm s (bandKey st.die b) < 32))
  let s0 : State := liveSt [⟨0, 1, 3⟩, ⟨0,0,4⟩, wsStop 0]
  decide ((fun (s : State) => stopKind st = .tile ∧ 115 ≤ deg.toNat) ((fun (s : State) => s) s0))) = true := by decide +kernel

theorem wit_MailboxFaceAndCounterEvents_1 : (
  let m : Fin 16 := 3
  let ack : Bool := false
  let freeze : Bool := true
  let snap : Bool := true
  let t : Nat := 0
  let ws := wsStop 0
  let es := portStop 0
  let n := m.val
  let base := 0x800 * m.val
  let stat := fun (s : State) => rfld s ws 1 (base + MB_STATUS) 0 2
  let put := fun (s : State) (v : Nat) => rputF s ws 1 (base + MB_STATUS) 0 2 v
  let overrun := fun (s : State) => rsat (rsetB s ws 1 (base + MB_STATUS) 2 true) ws 1 (base + MB_CNT) 16 16 1
  let queued := fun (s : State) => { put s 1 with ws := { (put s 1).ws with order := s.ws.order ++ [n] } }
  let s0 : State := liveSt [⟨0, 1, 3⟩, ⟨0, 0, 8⟩, portStop 0, wsStop 0]
  decide ((fun (s : State) => s.pm.cmd = none) ((fun (s : State) => s) s0)) &&
  decide ((fun (s : State) => s.pm.cmd = some (freeze, snap, t) ∧ t ≤ tbNow s) ((fun (s : State) => { s with pm := { s.pm with cmd := some (true, true, 0) } }) s0)) &&
  decide ((fun (s : State) => epStrapped s = false ∨ rbit s es 6 EP_STAT 0 = false) ((fun (s : State) => s) s0)) &&
  decide ((fun (s : State) => epStrapped s = true ∧ rbit s es 6 EP_STAT 0 = true) ((fun (s : State) => (let s := memSt s; rsetB (rsetB (rputF (rput s (wsStop 0) 3 STRAP 4) (portStop 0) 1 PORT_CAP 8 2 3) (portStop 0) 6 BLOCK_CTL 0 true) (portStop 0) 6 EP_STAT 0 true)) s0)) &&
  decide ((fun (s : State) => epStrapped s = false ∨ rbit s es 6 EP_STAT 0 = false) ((fun (s : State) => s) s0)) &&
  decide ((fun (s : State) => epStrapped s = true ∧ rbit s es 6 EP_STAT 0 = true) ((fun (s : State) => (let s := memSt s; rsetB (rsetB (rputF (rput s (wsStop 0) 3 STRAP 4) (portStop 0) 1 PORT_CAP 8 2 3) (portStop 0) 6 BLOCK_CTL 0 true) (portStop 0) 6 EP_STAT 0 true)) s0)) &&
  decide ((fun (s : State) => s.io.flr = true ∧ rbit s es 6 EP_STAT 0 = false) ((fun (s : State) => { s with io := { s.io with flr := true } }) s0)) &&
  decide ((fun (s : State) => s.io.flr = false) ((fun (s : State) => s) s0)) &&
  decide ((fun (s : State) => stat s = 0 ∧ (mbClassR s n = false ∨ pkgState s = 0 ∨ pkgState s = 7)) ((fun (s : State) => (let s := rputF (rputF (s) (wsStop 0) 1 (0x1800 + MB_STATUS) 0 2 0) (wsStop 0) 1 0x1800 0 16 256; s)) s0)) &&
  decide ((fun (s : State) => stat s = 0 ∧ mbClassR (queued s) n = true ∧ pkgState (queued s) ≠ 0 ∧ pkgState (queued s) ≠ 7) ((fun (s : State) => (let s := rputF (rputF (rputF s (wsStop 0) 4 PKG_STATE 0 4 2) (wsStop 0) 1 (0x1800 + MB_STATUS) 0 2 0) (wsStop 0) 1 0x1800 0 16 768; s)) s0)) &&
  decide ((fun (s : State) => stat s = 1) ((fun (s : State) => (let s := rputF (rputF (s) (wsStop 0) 1 (0x1800 + MB_STATUS) 0 2 1) (wsStop 0) 1 0x1800 0 16 256; s)) s0)) &&
  decide ((fun (s : State) => stat s = 2) ((fun (s : State) => (let s := rputF (rputF (s) (wsStop 0) 1 (0x1800 + MB_STATUS) 0 2 2) (wsStop 0) 1 0x1800 0 16 256; s)) s0))) = true := by decide +kernel

theorem wit_MailboxFaceAndCounterEvents_2 : (
  let m : Fin 16 := 3
  let ack : Bool := false
  let freeze : Bool := true
  let snap : Bool := true
  let t : Nat := 0
  let ws := wsStop 0
  let es := portStop 0
  let n := m.val
  let base := 0x800 * m.val
  let stat := fun (s : State) => rfld s ws 1 (base + MB_STATUS) 0 2
  let put := fun (s : State) (v : Nat) => rputF s ws 1 (base + MB_STATUS) 0 2 v
  let overrun := fun (s : State) => rsat (rsetB s ws 1 (base + MB_STATUS) 2 true) ws 1 (base + MB_CNT) 16 16 1
  let queued := fun (s : State) => { put s 1 with ws := { (put s 1).ws with order := s.ws.order ++ [n] } }
  let s0 : State := liveSt [⟨0, 1, 3⟩, ⟨0, 0, 8⟩, portStop 0, wsStop 0]
  decide ((fun (s : State) => stat s = 2) ((fun (s : State) => (let s := rputF (rputF (s) (wsStop 0) 1 (0x1800 + MB_STATUS) 0 2 2) (wsStop 0) 1 0x1800 0 16 256; s)) s0)) &&
  decide ((fun (s : State) => stat s = 2) ((fun (s : State) => (let s := rputF (rputF (s) (wsStop 0) 1 (0x1800 + MB_STATUS) 0 2 2) (wsStop 0) 1 0x1800 0 16 256; s)) s0)) &&
  decide ((fun (s : State) => stat s ≠ 2) ((fun (s : State) => (let s := rputF (rputF (s) (wsStop 0) 1 (0x1800 + MB_STATUS) 0 2 1) (wsStop 0) 1 0x1800 0 16 256; s)) s0))) = true := by decide +kernel

theorem wit_MailboxFaceAndCounterEvents_3 : (
  let m : Fin 16 := 3
  let ack : Bool := false
  let freeze : Bool := true
  let snap : Bool := true
  let t : Nat := 0
  let t : Nat := 2 ^ 63
  let ws := wsStop 0
  let es := portStop 0
  let n := m.val
  let base := 0x800 * m.val
  let stat := fun (s : State) => rfld s ws 1 (base + MB_STATUS) 0 2
  let put := fun (s : State) (v : Nat) => rputF s ws 1 (base + MB_STATUS) 0 2 v
  let overrun := fun (s : State) => rsat (rsetB s ws 1 (base + MB_STATUS) 2 true) ws 1 (base + MB_CNT) 16 16 1
  let queued := fun (s : State) => { put s 1 with ws := { (put s 1).ws with order := s.ws.order ++ [n] } }
  let s0 : State := liveSt [⟨0, 1, 3⟩, ⟨0, 0, 8⟩, portStop 0, wsStop 0]
  decide ((fun (s : State) => s.pm.cmd = some (freeze, snap, t) ∧ tbNow s < t) ((fun (s : State) => { s with pm := { s.pm with cmd := some (true, true, 2 ^ 63) } }) s0))) = true := by decide +kernel

theorem wit_WaystationEvents_1 : (
  let m : Fin 28 := 3
  let k : Fin 16 := 3
  let peer : BitVec 8 := 9
  let q : List Byte := [0x12, 0x84, 0, 0]
  let eid : BitVec 8 := 17
  let addr : BitVec 7 := 40
  let static : BitVec 7 := 0x58
  let sensor : BitVec 16 := 20
  let a : BitVec 32 := 0
  let b : BitVec 32 := 64
  let d : Fin 2 := 0
  let owner : Bool := true
  let r : MbRun := ⟨5, [], false, 7⟩
  let data : List Byte := [1, 2]
  let ws := wsStop 0
  let say := fun (s : State) (x : List Byte) => { s with ws := { s.ws with sent := s.ws.sent ++ [[BitVec.ofNat 8 peer.toNat] ++ x] } }
  let conn := fun (s : State) (c v : Nat) => { s with ws := { s.ws with spdm := mapSet (fun _ => 0) s.ws.spdm c v } }
  let at3 := fun (s : State) (code : Nat) => pl q 1 1 = code ∧ 3 ≤ spdmState s 16
  let early := fun (s : State) (code need : Nat) => pl q 1 1 = code ∧ spdmState s 16 < need
  let unready := fun (s : State) => say s [5, 0x12, 0x7F, 4, 0]
  let here := fun (s : State) (n code : Nat) => mbNext s n = true ∧ mbOpcode s n = 0x0800 ∧ n ≠ 14 ∧ getF (mb s n 0) 16 16 ≤ 248 ∧ pl (mbPayload s n) 1 1 = code
  let begun := fun (s : State) (n : Nat) => (let v := spdmAnswer s n (mbPayload s n); { v.1 with ws := { v.1.ws with run := mapSet (fun _ => none) v.1.ws.run n (some ⟨0, v.2, false, tbNow v.1⟩) } })
  let pair := fun (s : State) => (activeDie s = 0 ∧ d = 1) ∨ (activeDie s ≠ 0 ∧ d = 0)
  let out := fun (s : State) (src : Nat) => reportErr s (wsStop d) src 0
  let took := fun (s : State) => (let u := tput (setStandby (rsetB s ws 3 WS_STAT 0 (!rbit s ws 3 WS_STAT 0)) 1) (.waystation d) Thread.initial; let v := rsat (rsetB u ws 3 WS_STAT 5 true) ws 3 WS_STAT 16 16 1; reportErr (addEvent v 4 (stopLocus (pkgNum s) (activeStop v)) 0x9005 true) (activeStop v) 0x9005 0)
  let alone := fun (s : State) => (let u := (List.range 14).foldl mbAbort s; wsStart ([24, 25, 26, 27].foldl (fun s j => if mbState s j = 1 then mbComplete s j 0xC [] else s) u) d)
  let free := fun (s : State) => (s.ws.run.any fun e => decide (mbPlace s e.1 = some (2 ^ 44)) && e.2.isSome) = false
  let pldm := fun (v : Served) => say v.s ([1, 5] ++ natLe 1 v.status)
  let s0 : State := liveSt [⟨0, 1, 3⟩, ⟨0, 0, 8⟩, portStop 0, wsStop 0, wsStop 1]
  decide ((fun (s : State) => mapGet (fun _ => none) s.ws.run m.val = some r ∧ r.status ≠ 0) ((fun (s : State) => (let s := (let s := rput (rputF (s) (wsStop 0) 1 (0x1800 + MB_STATUS) 0 2 1) (wsStop 0) 1 0x1800 256; { rputF s (wsStop 0) 3 BOOT_STAT 0 4 5 with ws := { s.ws with order := [3] } }); { s with ws := { s.ws with run := [(3, some ⟨5, [], false, 7⟩)] } })) s0)) &&
  decide ((fun (s : State) => mapGet (fun _ => none) s.ws.run m.val = none ∧ mbNext s m.val = true ∧ mbCat (mbOpcode s m.val) = none) ((fun (s : State) => (let s := rput (rputF (s) (wsStop 0) 1 (0x1800 + MB_STATUS) 0 2 1) (wsStop 0) 1 0x1800 4660; { rputF s (wsStop 0) 3 BOOT_STAT 0 4 5 with ws := { s.ws with order := [3] } })) s0)) &&
  decide ((fun (s : State) => mapGet (fun _ => none) s.ws.run m.val = none ∧ mbState s m.val ≠ 1) ((fun (s : State) => (let s := rput (rputF (s) (wsStop 0) 1 (0x1800 + MB_STATUS) 0 2 2) (wsStop 0) 1 0x1800 256; { rputF s (wsStop 0) 3 BOOT_STAT 0 4 5 with ws := { s.ws with order := [3] } })) s0)) &&
  decide ((fun (s : State) => mbNext s k.val = true ∧ mbOpcode s k.val = 0x0800 ∧ k ≠ 14 ∧ getF (mb s k.val 0) 16 16 ≤ 248) ((fun (s : State) => rput ((let s := rput (rputF (s) (wsStop 0) 1 (0x1800 + MB_STATUS) 0 2 1) (wsStop 0) 1 0x1800 264192; { rputF s (wsStop 0) 3 BOOT_STAT 0 4 5 with ws := { s.ws with order := [3] } })) (wsStop 0) 1 0x1808 (BitVec.ofNat 32 (0x12 + 132 * 256))) s0)) &&
  decide ((fun (s : State) => here s k.val 0x84) ((fun (s : State) => rput ((let s := rput (rputF (s) (wsStop 0) 1 (0x1800 + MB_STATUS) 0 2 1) (wsStop 0) 1 0x1800 264192; { rputF s (wsStop 0) 3 BOOT_STAT 0 4 5 with ws := { s.ws with order := [3] } })) (wsStop 0) 1 0x1808 (BitVec.ofNat 32 (0x12 + 132 * 256))) s0)) &&
  decide ((fun (s : State) => here s k.val 0xe1) ((fun (s : State) => rput ((let s := rput (rputF (s) (wsStop 0) 1 (0x1800 + MB_STATUS) 0 2 1) (wsStop 0) 1 0x1800 264192; { rputF s (wsStop 0) 3 BOOT_STAT 0 4 5 with ws := { s.ws with order := [3] } })) (wsStop 0) 1 0x1808 (BitVec.ofNat 32 (0x12 + 225 * 256))) s0)) &&
  decide ((fun (s : State) => here s k.val 0xe3) ((fun (s : State) => rput ((let s := rput (rputF (s) (wsStop 0) 1 (0x1800 + MB_STATUS) 0 2 1) (wsStop 0) 1 0x1800 264192; { rputF s (wsStop 0) 3 BOOT_STAT 0 4 5 with ws := { s.ws with order := [3] } })) (wsStop 0) 1 0x1808 (BitVec.ofNat 32 (0x12 + 227 * 256))) s0)) &&
  decide ((fun (s : State) => here s k.val 0x81) ((fun (s : State) => rput ((let s := rput (rputF (s) (wsStop 0) 1 (0x1800 + MB_STATUS) 0 2 1) (wsStop 0) 1 0x1800 264192; { rputF s (wsStop 0) 3 BOOT_STAT 0 4 5 with ws := { s.ws with order := [3] } })) (wsStop 0) 1 0x1808 (BitVec.ofNat 32 (0x12 + 129 * 256))) s0)) &&
  decide ((fun (s : State) => here s k.val 0x82) ((fun (s : State) => rput ((let s := rput (rputF (s) (wsStop 0) 1 (0x1800 + MB_STATUS) 0 2 1) (wsStop 0) 1 0x1800 264192; { rputF s (wsStop 0) 3 BOOT_STAT 0 4 5 with ws := { s.ws with order := [3] } })) (wsStop 0) 1 0x1808 (BitVec.ofNat 32 (0x12 + 130 * 256))) s0)) &&
  decide ((fun (s : State) => here s k.val 0x83) ((fun (s : State) => rput ((let s := rput (rputF (s) (wsStop 0) 1 (0x1800 + MB_STATUS) 0 2 1) (wsStop 0) 1 0x1800 264192; { rputF s (wsStop 0) 3 BOOT_STAT 0 4 5 with ws := { s.ws with order := [3] } })) (wsStop 0) 1 0x1808 (BitVec.ofNat 32 (0x12 + 131 * 256))) s0)) &&
  decide ((fun (s : State) => here s k.val 0xe0) ((fun (s : State) => rput ((let s := rput (rputF (s) (wsStop 0) 1 (0x1800 + MB_STATUS) 0 2 1) (wsStop 0) 1 0x1800 264192; { rputF s (wsStop 0) 3 BOOT_STAT 0 4 5 with ws := { s.ws with order := [3] } })) (wsStop 0) 1 0x1808 (BitVec.ofNat 32 (0x12 + 224 * 256))) s0)) &&
  decide ((fun (s : State) => True) ((fun (s : State) => s) s0))) = true := by decide +kernel

theorem wit_WaystationEvents_2 : (
  let m : Fin 28 := 3
  let k : Fin 16 := 3
  let peer : BitVec 8 := 9
  let q : List Byte := [0x12, 0x84, 0, 0]
  let eid : BitVec 8 := 17
  let addr : BitVec 7 := 40
  let static : BitVec 7 := 0x58
  let sensor : BitVec 16 := 20
  let a : BitVec 32 := 0
  let b : BitVec 32 := 64
  let d : Fin 2 := 0
  let owner : Bool := true
  let r : MbRun := ⟨5, [], false, 7⟩
  let data : List Byte := [1, 2]
  let ws := wsStop 0
  let say := fun (s : State) (x : List Byte) => { s with ws := { s.ws with sent := s.ws.sent ++ [[BitVec.ofNat 8 peer.toNat] ++ x] } }
  let conn := fun (s : State) (c v : Nat) => { s with ws := { s.ws with spdm := mapSet (fun _ => 0) s.ws.spdm c v } }
  let at3 := fun (s : State) (code : Nat) => pl q 1 1 = code ∧ 3 ≤ spdmState s 16
  let early := fun (s : State) (code need : Nat) => pl q 1 1 = code ∧ spdmState s 16 < need
  let unready := fun (s : State) => say s [5, 0x12, 0x7F, 4, 0]
  let here := fun (s : State) (n code : Nat) => mbNext s n = true ∧ mbOpcode s n = 0x0800 ∧ n ≠ 14 ∧ getF (mb s n 0) 16 16 ≤ 248 ∧ pl (mbPayload s n) 1 1 = code
  let begun := fun (s : State) (n : Nat) => (let v := spdmAnswer s n (mbPayload s n); { v.1 with ws := { v.1.ws with run := mapSet (fun _ => none) v.1.ws.run n (some ⟨0, v.2, false, tbNow v.1⟩) } })
  let pair := fun (s : State) => (activeDie s = 0 ∧ d = 1) ∨ (activeDie s ≠ 0 ∧ d = 0)
  let out := fun (s : State) (src : Nat) => reportErr s (wsStop d) src 0
  let took := fun (s : State) => (let u := tput (setStandby (rsetB s ws 3 WS_STAT 0 (!rbit s ws 3 WS_STAT 0)) 1) (.waystation d) Thread.initial; let v := rsat (rsetB u ws 3 WS_STAT 5 true) ws 3 WS_STAT 16 16 1; reportErr (addEvent v 4 (stopLocus (pkgNum s) (activeStop v)) 0x9005 true) (activeStop v) 0x9005 0)
  let alone := fun (s : State) => (let u := (List.range 14).foldl mbAbort s; wsStart ([24, 25, 26, 27].foldl (fun s j => if mbState s j = 1 then mbComplete s j 0xC [] else s) u) d)
  let free := fun (s : State) => (s.ws.run.any fun e => decide (mbPlace s e.1 = some (2 ^ 44)) && e.2.isSome) = false
  let pldm := fun (v : Served) => say v.s ([1, 5] ++ natLe 1 v.status)
  let s0 : State := liveSt [⟨0, 1, 3⟩, ⟨0, 0, 8⟩, portStop 0, wsStop 0, wsStop 1]
  decide ((fun (s : State) => static.toNat = 0x58 + rfld s ws 3 STRAP 3 2) ((fun (s : State) => s) s0)) &&
  decide ((fun (s : State) => eid ≠ 0 ∧ eid ≠ 0xFF) ((fun (s : State) => s) s0)) &&
  decide ((fun (s : State) => True) ((fun (s : State) => s) s0)) &&
  decide ((fun (s : State) => True) ((fun (s : State) => s) s0)) &&
  decide ((fun (s : State) => True) ((fun (s : State) => s) s0)) &&
  decide ((fun (s : State) => sensor = 20) ((fun (s : State) => s) s0)) &&
  decide ((fun (s : State) => free s) ((fun (s : State) => s) s0)) &&
  decide ((fun (s : State) => free s) ((fun (s : State) => { s with ws := { s.ws with fwu := ⟨1, 0, 64, []⟩ } }) s0)) &&
  decide ((fun (s : State) => free s) ((fun (s : State) => s) s0)) &&
  decide ((fun (s : State) => free s) ((fun (s : State) => s) s0)) &&
  decide ((fun (s : State) => free s) ((fun (s : State) => { s with ws := { s.ws with fwu := ⟨1, 0, 64, []⟩ } }) s0)) &&
  decide ((fun (s : State) => (s.ws.run.any fun e => decide (mbPlace s e.1 = some (2 ^ 44)) && e.2.isSome) = true) ((fun (s : State) => (let s := (let s := rput (rputF (s) (wsStop 0) 1 (0x1800 + MB_STATUS) 0 2 1) (wsStop 0) 1 0x1800 1794; { rputF s (wsStop 0) 3 BOOT_STAT 0 4 5 with ws := { s.ws with order := [3] } }); { s with ws := { s.ws with run := [(3, some ⟨0, [], true, 7⟩)] } })) s0))) = true := by decide +kernel

theorem wit_WaystationEvents_3 : (
  let m : Fin 28 := 3
  let k : Fin 16 := 3
  let peer : BitVec 8 := 9
  let q : List Byte := [0x12, 0x84, 0, 0]
  let eid : BitVec 8 := 17
  let addr : BitVec 7 := 40
  let static : BitVec 7 := 0x58
  let sensor : BitVec 16 := 20
  let a : BitVec 32 := 0
  let b : BitVec 32 := 64
  let d : Fin 2 := 0
  let owner : Bool := true
  let r : MbRun := ⟨5, [], false, 7⟩
  let data : List Byte := [1, 2]
  let ws := wsStop 0
  let say := fun (s : State) (x : List Byte) => { s with ws := { s.ws with sent := s.ws.sent ++ [[BitVec.ofNat 8 peer.toNat] ++ x] } }
  let conn := fun (s : State) (c v : Nat) => { s with ws := { s.ws with spdm := mapSet (fun _ => 0) s.ws.spdm c v } }
  let at3 := fun (s : State) (code : Nat) => pl q 1 1 = code ∧ 3 ≤ spdmState s 16
  let early := fun (s : State) (code need : Nat) => pl q 1 1 = code ∧ spdmState s 16 < need
  let unready := fun (s : State) => say s [5, 0x12, 0x7F, 4, 0]
  let here := fun (s : State) (n code : Nat) => mbNext s n = true ∧ mbOpcode s n = 0x0800 ∧ n ≠ 14 ∧ getF (mb s n 0) 16 16 ≤ 248 ∧ pl (mbPayload s n) 1 1 = code
  let begun := fun (s : State) (n : Nat) => (let v := spdmAnswer s n (mbPayload s n); { v.1 with ws := { v.1.ws with run := mapSet (fun _ => none) v.1.ws.run n (some ⟨0, v.2, false, tbNow v.1⟩) } })
  let pair := fun (s : State) => (activeDie s = 0 ∧ d = 1) ∨ (activeDie s ≠ 0 ∧ d = 0)
  let out := fun (s : State) (src : Nat) => reportErr s (wsStop d) src 0
  let took := fun (s : State) => (let u := tput (setStandby (rsetB s ws 3 WS_STAT 0 (!rbit s ws 3 WS_STAT 0)) 1) (.waystation d) Thread.initial; let v := rsat (rsetB u ws 3 WS_STAT 5 true) ws 3 WS_STAT 16 16 1; reportErr (addEvent v 4 (stopLocus (pkgNum s) (activeStop v)) 0x9005 true) (activeStop v) 0x9005 0)
  let alone := fun (s : State) => (let u := (List.range 14).foldl mbAbort s; wsStart ([24, 25, 26, 27].foldl (fun s j => if mbState s j = 1 then mbComplete s j 0xC [] else s) u) d)
  let free := fun (s : State) => (s.ws.run.any fun e => decide (mbPlace s e.1 = some (2 ^ 44)) && e.2.isSome) = false
  let pldm := fun (v : Served) => say v.s ([1, 5] ++ natLe 1 v.status)
  let s0 : State := liveSt [⟨0, 1, 3⟩, ⟨0, 0, 8⟩, portStop 0, wsStop 0, wsStop 1]
  decide ((fun (s : State) => True) ((fun (s : State) => s) s0)) &&
  decide ((fun (s : State) => mbState s (if owner then 12 else 13) ≠ 0) ((fun (s : State) => mbSetState s 12 2) s0)) &&
  decide ((fun (s : State) => mbState s (if owner then 12 else 13) = 0) ((fun (s : State) => s) s0)) &&
  decide ((fun (s : State) => bootStep s < 3) ((fun (s : State) => s) s0)) &&
  decide ((fun (s : State) => 3 ≤ bootStep s ∧ activeDie s = d.val ∧ standby (out s 0x9003) = 2 ∧ activeDie (out s 0x9003) = d.val) ((fun (s : State) => setStandby (rputF s (wsStop 0) 3 BOOT_STAT 0 4 5) 2) s0)) &&
  decide ((fun (s : State) => 3 ≤ bootStep s ∧ activeDie s = d.val ∧ standby (out s 0x9003) ≠ 2 ∧ activeDie (out s 0x9003) = d.val) ((fun (s : State) => setStandby (rputF s (wsStop 0) 3 BOOT_STAT 0 4 5) 0) s0)) &&
  decide ((fun (s : State) => bootStep s < 3) ((fun (s : State) => s) s0)) &&
  decide ((fun (s : State) => 3 ≤ bootStep s) ((fun (s : State) => (rputF s (wsStop 0) 3 BOOT_STAT 0 4 5)) s0)) &&
  decide ((fun (s : State) => activeDie s = d.val) ((fun (s : State) => s) s0)) &&
  decide ((fun (s : State) => standby s ≠ 1) ((fun (s : State) => s) s0))) = true := by decide +kernel

theorem wit_WaystationEvents_4 : (
  let m : Fin 28 := 3
  let k : Fin 16 := 3
  let peer : BitVec 8 := 9
  let q : List Byte := [0x12, 0x84, 0, 0]
  let eid : BitVec 8 := 17
  let addr : BitVec 7 := 40
  let static : BitVec 7 := 0x58
  let sensor : BitVec 16 := 20
  let a : BitVec 32 := 0
  let b : BitVec 32 := 64
  let d : Fin 2 := 0
  let owner : Bool := true
  let r : MbRun := ⟨5, [], false, 7⟩
  let data : List Byte := [1, 2]
  let r : MbRun := ⟨0, [1], false, 7⟩
  let ws := wsStop 0
  let say := fun (s : State) (x : List Byte) => { s with ws := { s.ws with sent := s.ws.sent ++ [[BitVec.ofNat 8 peer.toNat] ++ x] } }
  let conn := fun (s : State) (c v : Nat) => { s with ws := { s.ws with spdm := mapSet (fun _ => 0) s.ws.spdm c v } }
  let at3 := fun (s : State) (code : Nat) => pl q 1 1 = code ∧ 3 ≤ spdmState s 16
  let early := fun (s : State) (code need : Nat) => pl q 1 1 = code ∧ spdmState s 16 < need
  let unready := fun (s : State) => say s [5, 0x12, 0x7F, 4, 0]
  let here := fun (s : State) (n code : Nat) => mbNext s n = true ∧ mbOpcode s n = 0x0800 ∧ n ≠ 14 ∧ getF (mb s n 0) 16 16 ≤ 248 ∧ pl (mbPayload s n) 1 1 = code
  let begun := fun (s : State) (n : Nat) => (let v := spdmAnswer s n (mbPayload s n); { v.1 with ws := { v.1.ws with run := mapSet (fun _ => none) v.1.ws.run n (some ⟨0, v.2, false, tbNow v.1⟩) } })
  let pair := fun (s : State) => (activeDie s = 0 ∧ d = 1) ∨ (activeDie s ≠ 0 ∧ d = 0)
  let out := fun (s : State) (src : Nat) => reportErr s (wsStop d) src 0
  let took := fun (s : State) => (let u := tput (setStandby (rsetB s ws 3 WS_STAT 0 (!rbit s ws 3 WS_STAT 0)) 1) (.waystation d) Thread.initial; let v := rsat (rsetB u ws 3 WS_STAT 5 true) ws 3 WS_STAT 16 16 1; reportErr (addEvent v 4 (stopLocus (pkgNum s) (activeStop v)) 0x9005 true) (activeStop v) 0x9005 0)
  let alone := fun (s : State) => (let u := (List.range 14).foldl mbAbort s; wsStart ([24, 25, 26, 27].foldl (fun s j => if mbState s j = 1 then mbComplete s j 0xC [] else s) u) d)
  let free := fun (s : State) => (s.ws.run.any fun e => decide (mbPlace s e.1 = some (2 ^ 44)) && e.2.isSome) = false
  let pldm := fun (v : Served) => say v.s ([1, 5] ++ natLe 1 v.status)
  let s0 : State := liveSt [⟨0, 1, 3⟩, ⟨0, 0, 8⟩, portStop 0, wsStop 0, wsStop 1]
  decide ((fun (s : State) => mapGet (fun _ => none) s.ws.run m.val = some r ∧ r.status = 0 ∧ mbBg s m.val = false ∧ (mbOpcode s m.val < 0x0200 ∨ 0x0700 ≤ mbOpcode s m.val)) ((fun (s : State) => (let s := (let s := rput (rputF (s) (wsStop 0) 1 (0x1800 + MB_STATUS) 0 2 1) (wsStop 0) 1 0x1800 256; { rputF s (wsStop 0) 3 BOOT_STAT 0 4 5 with ws := { s.ws with order := [3] } }); { s with ws := { s.ws with run := [(3, some ⟨0, [1], false, 7⟩)] } })) s0))) = true := by decide +kernel

theorem wit_WaystationEvents_5 : (
  let m : Fin 28 := 3
  let k : Fin 16 := 3
  let peer : BitVec 8 := 9
  let q : List Byte := [0x12, 0x84, 0, 0]
  let eid : BitVec 8 := 17
  let addr : BitVec 7 := 40
  let static : BitVec 7 := 0x58
  let sensor : BitVec 16 := 20
  let a : BitVec 32 := 0
  let b : BitVec 32 := 64
  let d : Fin 2 := 0
  let owner : Bool := true
  let r : MbRun := ⟨5, [], false, 7⟩
  let data : List Byte := [1, 2]
  let q : List Byte := [0x12, 1, 0, 0, 0, 0, 0, 0]
  let ws := wsStop 0
  let say := fun (s : State) (x : List Byte) => { s with ws := { s.ws with sent := s.ws.sent ++ [[BitVec.ofNat 8 peer.toNat] ++ x] } }
  let conn := fun (s : State) (c v : Nat) => { s with ws := { s.ws with spdm := mapSet (fun _ => 0) s.ws.spdm c v } }
  let at3 := fun (s : State) (code : Nat) => pl q 1 1 = code ∧ 3 ≤ spdmState s 16
  let early := fun (s : State) (code need : Nat) => pl q 1 1 = code ∧ spdmState s 16 < need
  let unready := fun (s : State) => say s [5, 0x12, 0x7F, 4, 0]
  let here := fun (s : State) (n code : Nat) => mbNext s n = true ∧ mbOpcode s n = 0x0800 ∧ n ≠ 14 ∧ getF (mb s n 0) 16 16 ≤ 248 ∧ pl (mbPayload s n) 1 1 = code
  let begun := fun (s : State) (n : Nat) => (let v := spdmAnswer s n (mbPayload s n); { v.1 with ws := { v.1.ws with run := mapSet (fun _ => none) v.1.ws.run n (some ⟨0, v.2, false, tbNow v.1⟩) } })
  let pair := fun (s : State) => (activeDie s = 0 ∧ d = 1) ∨ (activeDie s ≠ 0 ∧ d = 0)
  let out := fun (s : State) (src : Nat) => reportErr s (wsStop d) src 0
  let took := fun (s : State) => (let u := tput (setStandby (rsetB s ws 3 WS_STAT 0 (!rbit s ws 3 WS_STAT 0)) 1) (.waystation d) Thread.initial; let v := rsat (rsetB u ws 3 WS_STAT 5 true) ws 3 WS_STAT 16 16 1; reportErr (addEvent v 4 (stopLocus (pkgNum s) (activeStop v)) 0x9005 true) (activeStop v) 0x9005 0)
  let alone := fun (s : State) => (let u := (List.range 14).foldl mbAbort s; wsStart ([24, 25, 26, 27].foldl (fun s j => if mbState s j = 1 then mbComplete s j 0xC [] else s) u) d)
  let free := fun (s : State) => (s.ws.run.any fun e => decide (mbPlace s e.1 = some (2 ^ 44)) && e.2.isSome) = false
  let pldm := fun (v : Served) => say v.s ([1, 5] ++ natLe 1 v.status)
  let s0 : State := liveSt [⟨0, 1, 3⟩, ⟨0, 0, 8⟩, portStop 0, wsStop 0, wsStop 1]
  decide ((fun (s : State) => pl q 1 1 ≠ 0x84) ((fun (s : State) => s) s0)) &&
  decide ((fun (s : State) => pl q 1 1 ≠ 0xe1) ((fun (s : State) => s) s0)) &&
  decide ((fun (s : State) => pl q 1 1 ≠ 0xe3) ((fun (s : State) => s) s0)) &&
  decide ((fun (s : State) => pl q 1 1 ≠ 0x81) ((fun (s : State) => s) s0)) &&
  decide ((fun (s : State) => pl q 1 1 ≠ 0x82) ((fun (s : State) => s) s0)) &&
  decide ((fun (s : State) => pl q 1 1 ≠ 0x83) ((fun (s : State) => s) s0)) &&
  decide ((fun (s : State) => pl q 1 1 ≠ 0xe0) ((fun (s : State) => s) s0))) = true := by decide +kernel

theorem wit_WaystationEvents_6 : (
  let m : Fin 28 := 3
  let k : Fin 16 := 3
  let peer : BitVec 8 := 9
  let q : List Byte := [0x12, 0x84, 0, 0]
  let eid : BitVec 8 := 17
  let addr : BitVec 7 := 40
  let static : BitVec 7 := 0x58
  let sensor : BitVec 16 := 20
  let a : BitVec 32 := 0
  let b : BitVec 32 := 64
  let d : Fin 2 := 0
  let owner : Bool := true
  let r : MbRun := ⟨5, [], false, 7⟩
  let data : List Byte := [1, 2]
  let q : List Byte := [0x12, 132, 0, 0, 0, 0, 0, 0]
  let ws := wsStop 0
  let say := fun (s : State) (x : List Byte) => { s with ws := { s.ws with sent := s.ws.sent ++ [[BitVec.ofNat 8 peer.toNat] ++ x] } }
  let conn := fun (s : State) (c v : Nat) => { s with ws := { s.ws with spdm := mapSet (fun _ => 0) s.ws.spdm c v } }
  let at3 := fun (s : State) (code : Nat) => pl q 1 1 = code ∧ 3 ≤ spdmState s 16
  let early := fun (s : State) (code need : Nat) => pl q 1 1 = code ∧ spdmState s 16 < need
  let unready := fun (s : State) => say s [5, 0x12, 0x7F, 4, 0]
  let here := fun (s : State) (n code : Nat) => mbNext s n = true ∧ mbOpcode s n = 0x0800 ∧ n ≠ 14 ∧ getF (mb s n 0) 16 16 ≤ 248 ∧ pl (mbPayload s n) 1 1 = code
  let begun := fun (s : State) (n : Nat) => (let v := spdmAnswer s n (mbPayload s n); { v.1 with ws := { v.1.ws with run := mapSet (fun _ => none) v.1.ws.run n (some ⟨0, v.2, false, tbNow v.1⟩) } })
  let pair := fun (s : State) => (activeDie s = 0 ∧ d = 1) ∨ (activeDie s ≠ 0 ∧ d = 0)
  let out := fun (s : State) (src : Nat) => reportErr s (wsStop d) src 0
  let took := fun (s : State) => (let u := tput (setStandby (rsetB s ws 3 WS_STAT 0 (!rbit s ws 3 WS_STAT 0)) 1) (.waystation d) Thread.initial; let v := rsat (rsetB u ws 3 WS_STAT 5 true) ws 3 WS_STAT 16 16 1; reportErr (addEvent v 4 (stopLocus (pkgNum s) (activeStop v)) 0x9005 true) (activeStop v) 0x9005 0)
  let alone := fun (s : State) => (let u := (List.range 14).foldl mbAbort s; wsStart ([24, 25, 26, 27].foldl (fun s j => if mbState s j = 1 then mbComplete s j 0xC [] else s) u) d)
  let free := fun (s : State) => (s.ws.run.any fun e => decide (mbPlace s e.1 = some (2 ^ 44)) && e.2.isSome) = false
  let pldm := fun (v : Served) => say v.s ([1, 5] ++ natLe 1 v.status)
  let s0 : State := liveSt [⟨0, 1, 3⟩, ⟨0, 0, 8⟩, portStop 0, wsStop 0, wsStop 1]
  decide ((fun (s : State) => pl q 1 1 = 0x84) ((fun (s : State) => s) s0))) = true := by decide +kernel

theorem wit_WaystationEvents_7 : (
  let m : Fin 28 := 3
  let k : Fin 16 := 3
  let peer : BitVec 8 := 9
  let q : List Byte := [0x12, 0x84, 0, 0]
  let eid : BitVec 8 := 17
  let addr : BitVec 7 := 40
  let static : BitVec 7 := 0x58
  let sensor : BitVec 16 := 20
  let a : BitVec 32 := 0
  let b : BitVec 32 := 64
  let d : Fin 2 := 0
  let owner : Bool := true
  let r : MbRun := ⟨5, [], false, 7⟩
  let data : List Byte := [1, 2]
  let q : List Byte := [0x12, 225, 0, 0, 0, 0, 0, 0]
  let ws := wsStop 0
  let say := fun (s : State) (x : List Byte) => { s with ws := { s.ws with sent := s.ws.sent ++ [[BitVec.ofNat 8 peer.toNat] ++ x] } }
  let conn := fun (s : State) (c v : Nat) => { s with ws := { s.ws with spdm := mapSet (fun _ => 0) s.ws.spdm c v } }
  let at3 := fun (s : State) (code : Nat) => pl q 1 1 = code ∧ 3 ≤ spdmState s 16
  let early := fun (s : State) (code need : Nat) => pl q 1 1 = code ∧ spdmState s 16 < need
  let unready := fun (s : State) => say s [5, 0x12, 0x7F, 4, 0]
  let here := fun (s : State) (n code : Nat) => mbNext s n = true ∧ mbOpcode s n = 0x0800 ∧ n ≠ 14 ∧ getF (mb s n 0) 16 16 ≤ 248 ∧ pl (mbPayload s n) 1 1 = code
  let begun := fun (s : State) (n : Nat) => (let v := spdmAnswer s n (mbPayload s n); { v.1 with ws := { v.1.ws with run := mapSet (fun _ => none) v.1.ws.run n (some ⟨0, v.2, false, tbNow v.1⟩) } })
  let pair := fun (s : State) => (activeDie s = 0 ∧ d = 1) ∨ (activeDie s ≠ 0 ∧ d = 0)
  let out := fun (s : State) (src : Nat) => reportErr s (wsStop d) src 0
  let took := fun (s : State) => (let u := tput (setStandby (rsetB s ws 3 WS_STAT 0 (!rbit s ws 3 WS_STAT 0)) 1) (.waystation d) Thread.initial; let v := rsat (rsetB u ws 3 WS_STAT 5 true) ws 3 WS_STAT 16 16 1; reportErr (addEvent v 4 (stopLocus (pkgNum s) (activeStop v)) 0x9005 true) (activeStop v) 0x9005 0)
  let alone := fun (s : State) => (let u := (List.range 14).foldl mbAbort s; wsStart ([24, 25, 26, 27].foldl (fun s j => if mbState s j = 1 then mbComplete s j 0xC [] else s) u) d)
  let free := fun (s : State) => (s.ws.run.any fun e => decide (mbPlace s e.1 = some (2 ^ 44)) && e.2.isSome) = false
  let pldm := fun (v : Served) => say v.s ([1, 5] ++ natLe 1 v.status)
  let s0 : State := liveSt [⟨0, 1, 3⟩, ⟨0, 0, 8⟩, portStop 0, wsStop 0, wsStop 1]
  decide ((fun (s : State) => early s 0xE1 1) ((fun (s : State) => s) s0)) &&
  decide ((fun (s : State) => pl q 1 1 = 0xE1 ∧ 1 ≤ spdmState s 16) ((fun (s : State) => { s with ws := { s.ws with spdm := [(16, 3)], flash := { s.ws.flash with chain := [1,2,3,4,5] } } }) s0))) = true := by decide +kernel

theorem wit_WaystationEvents_8 : (
  let m : Fin 28 := 3
  let k : Fin 16 := 3
  let peer : BitVec 8 := 9
  let q : List Byte := [0x12, 0x84, 0, 0]
  let eid : BitVec 8 := 17
  let addr : BitVec 7 := 40
  let static : BitVec 7 := 0x58
  let sensor : BitVec 16 := 20
  let a : BitVec 32 := 0
  let b : BitVec 32 := 64
  let d : Fin 2 := 0
  let owner : Bool := true
  let r : MbRun := ⟨5, [], false, 7⟩
  let data : List Byte := [1, 2]
  let q : List Byte := [0x12, 227, 0, 0, 0, 0, 0, 0]
  let ws := wsStop 0
  let say := fun (s : State) (x : List Byte) => { s with ws := { s.ws with sent := s.ws.sent ++ [[BitVec.ofNat 8 peer.toNat] ++ x] } }
  let conn := fun (s : State) (c v : Nat) => { s with ws := { s.ws with spdm := mapSet (fun _ => 0) s.ws.spdm c v } }
  let at3 := fun (s : State) (code : Nat) => pl q 1 1 = code ∧ 3 ≤ spdmState s 16
  let early := fun (s : State) (code need : Nat) => pl q 1 1 = code ∧ spdmState s 16 < need
  let unready := fun (s : State) => say s [5, 0x12, 0x7F, 4, 0]
  let here := fun (s : State) (n code : Nat) => mbNext s n = true ∧ mbOpcode s n = 0x0800 ∧ n ≠ 14 ∧ getF (mb s n 0) 16 16 ≤ 248 ∧ pl (mbPayload s n) 1 1 = code
  let begun := fun (s : State) (n : Nat) => (let v := spdmAnswer s n (mbPayload s n); { v.1 with ws := { v.1.ws with run := mapSet (fun _ => none) v.1.ws.run n (some ⟨0, v.2, false, tbNow v.1⟩) } })
  let pair := fun (s : State) => (activeDie s = 0 ∧ d = 1) ∨ (activeDie s ≠ 0 ∧ d = 0)
  let out := fun (s : State) (src : Nat) => reportErr s (wsStop d) src 0
  let took := fun (s : State) => (let u := tput (setStandby (rsetB s ws 3 WS_STAT 0 (!rbit s ws 3 WS_STAT 0)) 1) (.waystation d) Thread.initial; let v := rsat (rsetB u ws 3 WS_STAT 5 true) ws 3 WS_STAT 16 16 1; reportErr (addEvent v 4 (stopLocus (pkgNum s) (activeStop v)) 0x9005 true) (activeStop v) 0x9005 0)
  let alone := fun (s : State) => (let u := (List.range 14).foldl mbAbort s; wsStart ([24, 25, 26, 27].foldl (fun s j => if mbState s j = 1 then mbComplete s j 0xC [] else s) u) d)
  let free := fun (s : State) => (s.ws.run.any fun e => decide (mbPlace s e.1 = some (2 ^ 44)) && e.2.isSome) = false
  let pldm := fun (v : Served) => say v.s ([1, 5] ++ natLe 1 v.status)
  let s0 : State := liveSt [⟨0, 1, 3⟩, ⟨0, 0, 8⟩, portStop 0, wsStop 0, wsStop 1]
  decide ((fun (s : State) => early s 0xE3 2) ((fun (s : State) => s) s0)) &&
  decide ((fun (s : State) => pl q 1 1 = 0xE3 ∧ 2 ≤ spdmState s 16) ((fun (s : State) => { s with ws := { s.ws with spdm := [(16, 3)], flash := { s.ws.flash with chain := [1,2,3,4,5] } } }) s0))) = true := by decide +kernel

theorem wit_WaystationEvents_9 : (
  let m : Fin 28 := 3
  let k : Fin 16 := 3
  let peer : BitVec 8 := 9
  let q : List Byte := [0x12, 0x84, 0, 0]
  let eid : BitVec 8 := 17
  let addr : BitVec 7 := 40
  let static : BitVec 7 := 0x58
  let sensor : BitVec 16 := 20
  let a : BitVec 32 := 0
  let b : BitVec 32 := 64
  let d : Fin 2 := 0
  let owner : Bool := true
  let r : MbRun := ⟨5, [], false, 7⟩
  let data : List Byte := [1, 2]
  let q : List Byte := [0x12, 129, 0, 0, 0, 0, 0, 0]
  let ws := wsStop 0
  let say := fun (s : State) (x : List Byte) => { s with ws := { s.ws with sent := s.ws.sent ++ [[BitVec.ofNat 8 peer.toNat] ++ x] } }
  let conn := fun (s : State) (c v : Nat) => { s with ws := { s.ws with spdm := mapSet (fun _ => 0) s.ws.spdm c v } }
  let at3 := fun (s : State) (code : Nat) => pl q 1 1 = code ∧ 3 ≤ spdmState s 16
  let early := fun (s : State) (code need : Nat) => pl q 1 1 = code ∧ spdmState s 16 < need
  let unready := fun (s : State) => say s [5, 0x12, 0x7F, 4, 0]
  let here := fun (s : State) (n code : Nat) => mbNext s n = true ∧ mbOpcode s n = 0x0800 ∧ n ≠ 14 ∧ getF (mb s n 0) 16 16 ≤ 248 ∧ pl (mbPayload s n) 1 1 = code
  let begun := fun (s : State) (n : Nat) => (let v := spdmAnswer s n (mbPayload s n); { v.1 with ws := { v.1.ws with run := mapSet (fun _ => none) v.1.ws.run n (some ⟨0, v.2, false, tbNow v.1⟩) } })
  let pair := fun (s : State) => (activeDie s = 0 ∧ d = 1) ∨ (activeDie s ≠ 0 ∧ d = 0)
  let out := fun (s : State) (src : Nat) => reportErr s (wsStop d) src 0
  let took := fun (s : State) => (let u := tput (setStandby (rsetB s ws 3 WS_STAT 0 (!rbit s ws 3 WS_STAT 0)) 1) (.waystation d) Thread.initial; let v := rsat (rsetB u ws 3 WS_STAT 5 true) ws 3 WS_STAT 16 16 1; reportErr (addEvent v 4 (stopLocus (pkgNum s) (activeStop v)) 0x9005 true) (activeStop v) 0x9005 0)
  let alone := fun (s : State) => (let u := (List.range 14).foldl mbAbort s; wsStart ([24, 25, 26, 27].foldl (fun s j => if mbState s j = 1 then mbComplete s j 0xC [] else s) u) d)
  let free := fun (s : State) => (s.ws.run.any fun e => decide (mbPlace s e.1 = some (2 ^ 44)) && e.2.isSome) = false
  let pldm := fun (v : Served) => say v.s ([1, 5] ++ natLe 1 v.status)
  let s0 : State := liveSt [⟨0, 1, 3⟩, ⟨0, 0, 8⟩, portStop 0, wsStop 0, wsStop 1]
  decide ((fun (s : State) => early s 0x81 3) ((fun (s : State) => s) s0)) &&
  decide ((fun (s : State) => at3 s 0x81) ((fun (s : State) => { s with ws := { s.ws with spdm := [(16, 3)], flash := { s.ws.flash with chain := [1,2,3,4,5] } } }) s0))) = true := by decide +kernel

theorem wit_WaystationEvents_10 : (
  let m : Fin 28 := 3
  let k : Fin 16 := 3
  let peer : BitVec 8 := 9
  let q : List Byte := [0x12, 0x84, 0, 0]
  let eid : BitVec 8 := 17
  let addr : BitVec 7 := 40
  let static : BitVec 7 := 0x58
  let sensor : BitVec 16 := 20
  let a : BitVec 32 := 0
  let b : BitVec 32 := 64
  let d : Fin 2 := 0
  let owner : Bool := true
  let r : MbRun := ⟨5, [], false, 7⟩
  let data : List Byte := [1, 2]
  let q : List Byte := [0x12, 130, 0, 0, 0, 0, 0, 0]
  let ws := wsStop 0
  let say := fun (s : State) (x : List Byte) => { s with ws := { s.ws with sent := s.ws.sent ++ [[BitVec.ofNat 8 peer.toNat] ++ x] } }
  let conn := fun (s : State) (c v : Nat) => { s with ws := { s.ws with spdm := mapSet (fun _ => 0) s.ws.spdm c v } }
  let at3 := fun (s : State) (code : Nat) => pl q 1 1 = code ∧ 3 ≤ spdmState s 16
  let early := fun (s : State) (code need : Nat) => pl q 1 1 = code ∧ spdmState s 16 < need
  let unready := fun (s : State) => say s [5, 0x12, 0x7F, 4, 0]
  let here := fun (s : State) (n code : Nat) => mbNext s n = true ∧ mbOpcode s n = 0x0800 ∧ n ≠ 14 ∧ getF (mb s n 0) 16 16 ≤ 248 ∧ pl (mbPayload s n) 1 1 = code
  let begun := fun (s : State) (n : Nat) => (let v := spdmAnswer s n (mbPayload s n); { v.1 with ws := { v.1.ws with run := mapSet (fun _ => none) v.1.ws.run n (some ⟨0, v.2, false, tbNow v.1⟩) } })
  let pair := fun (s : State) => (activeDie s = 0 ∧ d = 1) ∨ (activeDie s ≠ 0 ∧ d = 0)
  let out := fun (s : State) (src : Nat) => reportErr s (wsStop d) src 0
  let took := fun (s : State) => (let u := tput (setStandby (rsetB s ws 3 WS_STAT 0 (!rbit s ws 3 WS_STAT 0)) 1) (.waystation d) Thread.initial; let v := rsat (rsetB u ws 3 WS_STAT 5 true) ws 3 WS_STAT 16 16 1; reportErr (addEvent v 4 (stopLocus (pkgNum s) (activeStop v)) 0x9005 true) (activeStop v) 0x9005 0)
  let alone := fun (s : State) => (let u := (List.range 14).foldl mbAbort s; wsStart ([24, 25, 26, 27].foldl (fun s j => if mbState s j = 1 then mbComplete s j 0xC [] else s) u) d)
  let free := fun (s : State) => (s.ws.run.any fun e => decide (mbPlace s e.1 = some (2 ^ 44)) && e.2.isSome) = false
  let pldm := fun (v : Served) => say v.s ([1, 5] ++ natLe 1 v.status)
  let s0 : State := liveSt [⟨0, 1, 3⟩, ⟨0, 0, 8⟩, portStop 0, wsStop 0, wsStop 1]
  decide ((fun (s : State) => early s 0x82 3) ((fun (s : State) => s) s0))) = true := by decide +kernel

theorem wit_WaystationEvents_11 : (
  let m : Fin 28 := 3
  let k : Fin 16 := 3
  let peer : BitVec 8 := 9
  let q : List Byte := [0x12, 0x84, 0, 0]
  let eid : BitVec 8 := 17
  let addr : BitVec 7 := 40
  let static : BitVec 7 := 0x58
  let sensor : BitVec 16 := 20
  let a : BitVec 32 := 0
  let b : BitVec 32 := 64
  let d : Fin 2 := 0
  let owner : Bool := true
  let r : MbRun := ⟨5, [], false, 7⟩
  let data : List Byte := [1, 2]
  let q : List Byte := [0x12, 130, 1, 0, 0, 0, 0, 0]
  let ws := wsStop 0
  let say := fun (s : State) (x : List Byte) => { s with ws := { s.ws with sent := s.ws.sent ++ [[BitVec.ofNat 8 peer.toNat] ++ x] } }
  let conn := fun (s : State) (c v : Nat) => { s with ws := { s.ws with spdm := mapSet (fun _ => 0) s.ws.spdm c v } }
  let at3 := fun (s : State) (code : Nat) => pl q 1 1 = code ∧ 3 ≤ spdmState s 16
  let early := fun (s : State) (code need : Nat) => pl q 1 1 = code ∧ spdmState s 16 < need
  let unready := fun (s : State) => say s [5, 0x12, 0x7F, 4, 0]
  let here := fun (s : State) (n code : Nat) => mbNext s n = true ∧ mbOpcode s n = 0x0800 ∧ n ≠ 14 ∧ getF (mb s n 0) 16 16 ≤ 248 ∧ pl (mbPayload s n) 1 1 = code
  let begun := fun (s : State) (n : Nat) => (let v := spdmAnswer s n (mbPayload s n); { v.1 with ws := { v.1.ws with run := mapSet (fun _ => none) v.1.ws.run n (some ⟨0, v.2, false, tbNow v.1⟩) } })
  let pair := fun (s : State) => (activeDie s = 0 ∧ d = 1) ∨ (activeDie s ≠ 0 ∧ d = 0)
  let out := fun (s : State) (src : Nat) => reportErr s (wsStop d) src 0
  let took := fun (s : State) => (let u := tput (setStandby (rsetB s ws 3 WS_STAT 0 (!rbit s ws 3 WS_STAT 0)) 1) (.waystation d) Thread.initial; let v := rsat (rsetB u ws 3 WS_STAT 5 true) ws 3 WS_STAT 16 16 1; reportErr (addEvent v 4 (stopLocus (pkgNum s) (activeStop v)) 0x9005 true) (activeStop v) 0x9005 0)
  let alone := fun (s : State) => (let u := (List.range 14).foldl mbAbort s; wsStart ([24, 25, 26, 27].foldl (fun s j => if mbState s j = 1 then mbComplete s j 0xC [] else s) u) d)
  let free := fun (s : State) => (s.ws.run.any fun e => decide (mbPlace s e.1 = some (2 ^ 44)) && e.2.isSome) = false
  let pldm := fun (v : Served) => say v.s ([1, 5] ++ natLe 1 v.status)
  let s0 : State := liveSt [⟨0, 1, 3⟩, ⟨0, 0, 8⟩, portStop 0, wsStop 0, wsStop 1]
  decide ((fun (s : State) => at3 s 0x82 ∧ (pl q 2 1 ≠ 0 ∨ s.ws.flash.chain.length ≤ pl q 4 2)) ((fun (s : State) => { s with ws := { s.ws with spdm := [(16, 3)], flash := { s.ws.flash with chain := [1,2,3,4,5] } } }) s0))) = true := by decide +kernel

theorem wit_WaystationEvents_12 : (
  let m : Fin 28 := 3
  let k : Fin 16 := 3
  let peer : BitVec 8 := 9
  let q : List Byte := [0x12, 0x84, 0, 0]
  let eid : BitVec 8 := 17
  let addr : BitVec 7 := 40
  let static : BitVec 7 := 0x58
  let sensor : BitVec 16 := 20
  let a : BitVec 32 := 0
  let b : BitVec 32 := 64
  let d : Fin 2 := 0
  let owner : Bool := true
  let r : MbRun := ⟨5, [], false, 7⟩
  let data : List Byte := [1, 2]
  let q : List Byte := [0x12, 130, 0, 0, 1, 0, 2, 0]
  let ws := wsStop 0
  let say := fun (s : State) (x : List Byte) => { s with ws := { s.ws with sent := s.ws.sent ++ [[BitVec.ofNat 8 peer.toNat] ++ x] } }
  let conn := fun (s : State) (c v : Nat) => { s with ws := { s.ws with spdm := mapSet (fun _ => 0) s.ws.spdm c v } }
  let at3 := fun (s : State) (code : Nat) => pl q 1 1 = code ∧ 3 ≤ spdmState s 16
  let early := fun (s : State) (code need : Nat) => pl q 1 1 = code ∧ spdmState s 16 < need
  let unready := fun (s : State) => say s [5, 0x12, 0x7F, 4, 0]
  let here := fun (s : State) (n code : Nat) => mbNext s n = true ∧ mbOpcode s n = 0x0800 ∧ n ≠ 14 ∧ getF (mb s n 0) 16 16 ≤ 248 ∧ pl (mbPayload s n) 1 1 = code
  let begun := fun (s : State) (n : Nat) => (let v := spdmAnswer s n (mbPayload s n); { v.1 with ws := { v.1.ws with run := mapSet (fun _ => none) v.1.ws.run n (some ⟨0, v.2, false, tbNow v.1⟩) } })
  let pair := fun (s : State) => (activeDie s = 0 ∧ d = 1) ∨ (activeDie s ≠ 0 ∧ d = 0)
  let out := fun (s : State) (src : Nat) => reportErr s (wsStop d) src 0
  let took := fun (s : State) => (let u := tput (setStandby (rsetB s ws 3 WS_STAT 0 (!rbit s ws 3 WS_STAT 0)) 1) (.waystation d) Thread.initial; let v := rsat (rsetB u ws 3 WS_STAT 5 true) ws 3 WS_STAT 16 16 1; reportErr (addEvent v 4 (stopLocus (pkgNum s) (activeStop v)) 0x9005 true) (activeStop v) 0x9005 0)
  let alone := fun (s : State) => (let u := (List.range 14).foldl mbAbort s; wsStart ([24, 25, 26, 27].foldl (fun s j => if mbState s j = 1 then mbComplete s j 0xC [] else s) u) d)
  let free := fun (s : State) => (s.ws.run.any fun e => decide (mbPlace s e.1 = some (2 ^ 44)) && e.2.isSome) = false
  let pldm := fun (v : Served) => say v.s ([1, 5] ++ natLe 1 v.status)
  let s0 : State := liveSt [⟨0, 1, 3⟩, ⟨0, 0, 8⟩, portStop 0, wsStop 0, wsStop 1]
  decide ((fun (s : State) => at3 s 0x82 ∧ pl q 2 1 = 0 ∧ pl q 4 2 < s.ws.flash.chain.length) ((fun (s : State) => { s with ws := { s.ws with spdm := [(16, 3)], flash := { s.ws.flash with chain := [1,2,3,4,5] } } }) s0))) = true := by decide +kernel

theorem wit_WaystationEvents_13 : (
  let m : Fin 28 := 3
  let k : Fin 16 := 3
  let peer : BitVec 8 := 9
  let q : List Byte := [0x12, 0x84, 0, 0]
  let eid : BitVec 8 := 17
  let addr : BitVec 7 := 40
  let static : BitVec 7 := 0x58
  let sensor : BitVec 16 := 20
  let a : BitVec 32 := 0
  let b : BitVec 32 := 64
  let d : Fin 2 := 0
  let owner : Bool := true
  let r : MbRun := ⟨5, [], false, 7⟩
  let data : List Byte := [1, 2]
  let q : List Byte := [0x12, 131, 0, 0, 0, 0, 0, 0]
  let ws := wsStop 0
  let say := fun (s : State) (x : List Byte) => { s with ws := { s.ws with sent := s.ws.sent ++ [[BitVec.ofNat 8 peer.toNat] ++ x] } }
  let conn := fun (s : State) (c v : Nat) => { s with ws := { s.ws with spdm := mapSet (fun _ => 0) s.ws.spdm c v } }
  let at3 := fun (s : State) (code : Nat) => pl q 1 1 = code ∧ 3 ≤ spdmState s 16
  let early := fun (s : State) (code need : Nat) => pl q 1 1 = code ∧ spdmState s 16 < need
  let unready := fun (s : State) => say s [5, 0x12, 0x7F, 4, 0]
  let here := fun (s : State) (n code : Nat) => mbNext s n = true ∧ mbOpcode s n = 0x0800 ∧ n ≠ 14 ∧ getF (mb s n 0) 16 16 ≤ 248 ∧ pl (mbPayload s n) 1 1 = code
  let begun := fun (s : State) (n : Nat) => (let v := spdmAnswer s n (mbPayload s n); { v.1 with ws := { v.1.ws with run := mapSet (fun _ => none) v.1.ws.run n (some ⟨0, v.2, false, tbNow v.1⟩) } })
  let pair := fun (s : State) => (activeDie s = 0 ∧ d = 1) ∨ (activeDie s ≠ 0 ∧ d = 0)
  let out := fun (s : State) (src : Nat) => reportErr s (wsStop d) src 0
  let took := fun (s : State) => (let u := tput (setStandby (rsetB s ws 3 WS_STAT 0 (!rbit s ws 3 WS_STAT 0)) 1) (.waystation d) Thread.initial; let v := rsat (rsetB u ws 3 WS_STAT 5 true) ws 3 WS_STAT 16 16 1; reportErr (addEvent v 4 (stopLocus (pkgNum s) (activeStop v)) 0x9005 true) (activeStop v) 0x9005 0)
  let alone := fun (s : State) => (let u := (List.range 14).foldl mbAbort s; wsStart ([24, 25, 26, 27].foldl (fun s j => if mbState s j = 1 then mbComplete s j 0xC [] else s) u) d)
  let free := fun (s : State) => (s.ws.run.any fun e => decide (mbPlace s e.1 = some (2 ^ 44)) && e.2.isSome) = false
  let pldm := fun (v : Served) => say v.s ([1, 5] ++ natLe 1 v.status)
  let s0 : State := liveSt [⟨0, 1, 3⟩, ⟨0, 0, 8⟩, portStop 0, wsStop 0, wsStop 1]
  decide ((fun (s : State) => early s 0x83 3) ((fun (s : State) => s) s0)) &&
  decide ((fun (s : State) => at3 s 0x83 ∧ pl q 2 1 = 0 ∧ pl q 3 1 = 0) ((fun (s : State) => { s with ws := { s.ws with spdm := [(16, 3)], flash := { s.ws.flash with chain := [1,2,3,4,5] } } }) s0))) = true := by decide +kernel

theorem wit_WaystationEvents_14 : (
  let m : Fin 28 := 3
  let k : Fin 16 := 3
  let peer : BitVec 8 := 9
  let q : List Byte := [0x12, 0x84, 0, 0]
  let eid : BitVec 8 := 17
  let addr : BitVec 7 := 40
  let static : BitVec 7 := 0x58
  let sensor : BitVec 16 := 20
  let a : BitVec 32 := 0
  let b : BitVec 32 := 64
  let d : Fin 2 := 0
  let owner : Bool := true
  let r : MbRun := ⟨5, [], false, 7⟩
  let data : List Byte := [1, 2]
  let q : List Byte := [0x12, 131, 1, 0, 0, 0, 0, 0]
  let ws := wsStop 0
  let say := fun (s : State) (x : List Byte) => { s with ws := { s.ws with sent := s.ws.sent ++ [[BitVec.ofNat 8 peer.toNat] ++ x] } }
  let conn := fun (s : State) (c v : Nat) => { s with ws := { s.ws with spdm := mapSet (fun _ => 0) s.ws.spdm c v } }
  let at3 := fun (s : State) (code : Nat) => pl q 1 1 = code ∧ 3 ≤ spdmState s 16
  let early := fun (s : State) (code need : Nat) => pl q 1 1 = code ∧ spdmState s 16 < need
  let unready := fun (s : State) => say s [5, 0x12, 0x7F, 4, 0]
  let here := fun (s : State) (n code : Nat) => mbNext s n = true ∧ mbOpcode s n = 0x0800 ∧ n ≠ 14 ∧ getF (mb s n 0) 16 16 ≤ 248 ∧ pl (mbPayload s n) 1 1 = code
  let begun := fun (s : State) (n : Nat) => (let v := spdmAnswer s n (mbPayload s n); { v.1 with ws := { v.1.ws with run := mapSet (fun _ => none) v.1.ws.run n (some ⟨0, v.2, false, tbNow v.1⟩) } })
  let pair := fun (s : State) => (activeDie s = 0 ∧ d = 1) ∨ (activeDie s ≠ 0 ∧ d = 0)
  let out := fun (s : State) (src : Nat) => reportErr s (wsStop d) src 0
  let took := fun (s : State) => (let u := tput (setStandby (rsetB s ws 3 WS_STAT 0 (!rbit s ws 3 WS_STAT 0)) 1) (.waystation d) Thread.initial; let v := rsat (rsetB u ws 3 WS_STAT 5 true) ws 3 WS_STAT 16 16 1; reportErr (addEvent v 4 (stopLocus (pkgNum s) (activeStop v)) 0x9005 true) (activeStop v) 0x9005 0)
  let alone := fun (s : State) => (let u := (List.range 14).foldl mbAbort s; wsStart ([24, 25, 26, 27].foldl (fun s j => if mbState s j = 1 then mbComplete s j 0xC [] else s) u) d)
  let free := fun (s : State) => (s.ws.run.any fun e => decide (mbPlace s e.1 = some (2 ^ 44)) && e.2.isSome) = false
  let pldm := fun (v : Served) => say v.s ([1, 5] ++ natLe 1 v.status)
  let s0 : State := liveSt [⟨0, 1, 3⟩, ⟨0, 0, 8⟩, portStop 0, wsStop 0, wsStop 1]
  decide ((fun (s : State) => at3 s 0x83 ∧ pl q 2 1 ≠ 0) ((fun (s : State) => { s with ws := { s.ws with spdm := [(16, 3)], flash := { s.ws.flash with chain := [1,2,3,4,5] } } }) s0))) = true := by decide +kernel

theorem wit_WaystationEvents_15 : (
  let m : Fin 28 := 3
  let k : Fin 16 := 3
  let peer : BitVec 8 := 9
  let q : List Byte := [0x12, 0x84, 0, 0]
  let eid : BitVec 8 := 17
  let addr : BitVec 7 := 40
  let static : BitVec 7 := 0x58
  let sensor : BitVec 16 := 20
  let a : BitVec 32 := 0
  let b : BitVec 32 := 64
  let d : Fin 2 := 0
  let owner : Bool := true
  let r : MbRun := ⟨5, [], false, 7⟩
  let data : List Byte := [1, 2]
  let q : List Byte := [0x12, 224, 0, 0, 0, 0, 0, 0]
  let ws := wsStop 0
  let say := fun (s : State) (x : List Byte) => { s with ws := { s.ws with sent := s.ws.sent ++ [[BitVec.ofNat 8 peer.toNat] ++ x] } }
  let conn := fun (s : State) (c v : Nat) => { s with ws := { s.ws with spdm := mapSet (fun _ => 0) s.ws.spdm c v } }
  let at3 := fun (s : State) (code : Nat) => pl q 1 1 = code ∧ 3 ≤ spdmState s 16
  let early := fun (s : State) (code need : Nat) => pl q 1 1 = code ∧ spdmState s 16 < need
  let unready := fun (s : State) => say s [5, 0x12, 0x7F, 4, 0]
  let here := fun (s : State) (n code : Nat) => mbNext s n = true ∧ mbOpcode s n = 0x0800 ∧ n ≠ 14 ∧ getF (mb s n 0) 16 16 ≤ 248 ∧ pl (mbPayload s n) 1 1 = code
  let begun := fun (s : State) (n : Nat) => (let v := spdmAnswer s n (mbPayload s n); { v.1 with ws := { v.1.ws with run := mapSet (fun _ => none) v.1.ws.run n (some ⟨0, v.2, false, tbNow v.1⟩) } })
  let pair := fun (s : State) => (activeDie s = 0 ∧ d = 1) ∨ (activeDie s ≠ 0 ∧ d = 0)
  let out := fun (s : State) (src : Nat) => reportErr s (wsStop d) src 0
  let took := fun (s : State) => (let u := tput (setStandby (rsetB s ws 3 WS_STAT 0 (!rbit s ws 3 WS_STAT 0)) 1) (.waystation d) Thread.initial; let v := rsat (rsetB u ws 3 WS_STAT 5 true) ws 3 WS_STAT 16 16 1; reportErr (addEvent v 4 (stopLocus (pkgNum s) (activeStop v)) 0x9005 true) (activeStop v) 0x9005 0)
  let alone := fun (s : State) => (let u := (List.range 14).foldl mbAbort s; wsStart ([24, 25, 26, 27].foldl (fun s j => if mbState s j = 1 then mbComplete s j 0xC [] else s) u) d)
  let free := fun (s : State) => (s.ws.run.any fun e => decide (mbPlace s e.1 = some (2 ^ 44)) && e.2.isSome) = false
  let pldm := fun (v : Served) => say v.s ([1, 5] ++ natLe 1 v.status)
  let s0 : State := liveSt [⟨0, 1, 3⟩, ⟨0, 0, 8⟩, portStop 0, wsStop 0, wsStop 1]
  decide ((fun (s : State) => early s 0xE0 3) ((fun (s : State) => s) s0)) &&
  decide ((fun (s : State) => at3 s 0xE0 ∧ pl q 3 1 = 0 ∧ bit (pl q 2 1) 0 = false) ((fun (s : State) => { s with ws := { s.ws with spdm := [(16, 3)], flash := { s.ws.flash with chain := [1,2,3,4,5] } } }) s0))) = true := by decide +kernel

theorem wit_WaystationEvents_16 : (
  let m : Fin 28 := 3
  let k : Fin 16 := 3
  let peer : BitVec 8 := 9
  let q : List Byte := [0x12, 0x84, 0, 0]
  let eid : BitVec 8 := 17
  let addr : BitVec 7 := 40
  let static : BitVec 7 := 0x58
  let sensor : BitVec 16 := 20
  let a : BitVec 32 := 0
  let b : BitVec 32 := 64
  let d : Fin 2 := 0
  let owner : Bool := true
  let r : MbRun := ⟨5, [], false, 7⟩
  let data : List Byte := [1, 2]
  let q : List Byte := [0x12, 224, 0, 7, 0, 0, 0, 0]
  let ws := wsStop 0
  let say := fun (s : State) (x : List Byte) => { s with ws := { s.ws with sent := s.ws.sent ++ [[BitVec.ofNat 8 peer.toNat] ++ x] } }
  let conn := fun (s : State) (c v : Nat) => { s with ws := { s.ws with spdm := mapSet (fun _ => 0) s.ws.spdm c v } }
  let at3 := fun (s : State) (code : Nat) => pl q 1 1 = code ∧ 3 ≤ spdmState s 16
  let early := fun (s : State) (code need : Nat) => pl q 1 1 = code ∧ spdmState s 16 < need
  let unready := fun (s : State) => say s [5, 0x12, 0x7F, 4, 0]
  let here := fun (s : State) (n code : Nat) => mbNext s n = true ∧ mbOpcode s n = 0x0800 ∧ n ≠ 14 ∧ getF (mb s n 0) 16 16 ≤ 248 ∧ pl (mbPayload s n) 1 1 = code
  let begun := fun (s : State) (n : Nat) => (let v := spdmAnswer s n (mbPayload s n); { v.1 with ws := { v.1.ws with run := mapSet (fun _ => none) v.1.ws.run n (some ⟨0, v.2, false, tbNow v.1⟩) } })
  let pair := fun (s : State) => (activeDie s = 0 ∧ d = 1) ∨ (activeDie s ≠ 0 ∧ d = 0)
  let out := fun (s : State) (src : Nat) => reportErr s (wsStop d) src 0
  let took := fun (s : State) => (let u := tput (setStandby (rsetB s ws 3 WS_STAT 0 (!rbit s ws 3 WS_STAT 0)) 1) (.waystation d) Thread.initial; let v := rsat (rsetB u ws 3 WS_STAT 5 true) ws 3 WS_STAT 16 16 1; reportErr (addEvent v 4 (stopLocus (pkgNum s) (activeStop v)) 0x9005 true) (activeStop v) 0x9005 0)
  let alone := fun (s : State) => (let u := (List.range 14).foldl mbAbort s; wsStart ([24, 25, 26, 27].foldl (fun s j => if mbState s j = 1 then mbComplete s j 0xC [] else s) u) d)
  let free := fun (s : State) => (s.ws.run.any fun e => decide (mbPlace s e.1 = some (2 ^ 44)) && e.2.isSome) = false
  let pldm := fun (v : Served) => say v.s ([1, 5] ++ natLe 1 v.status)
  let s0 : State := liveSt [⟨0, 1, 3⟩, ⟨0, 0, 8⟩, portStop 0, wsStop 0, wsStop 1]
  decide ((fun (s : State) => at3 s 0xE0 ∧ 6 < pl q 3 1) ((fun (s : State) => { s with ws := { s.ws with spdm := [(16, 3)], flash := { s.ws.flash with chain := [1,2,3,4,5] } } }) s0))) = true := by decide +kernel

theorem wit_WaystationEvents_17 : (
  let m : Fin 28 := 3
  let k : Fin 16 := 3
  let peer : BitVec 8 := 9
  let q : List Byte := [0x12, 0x84, 0, 0]
  let eid : BitVec 8 := 17
  let addr : BitVec 7 := 40
  let static : BitVec 7 := 0x58
  let sensor : BitVec 16 := 20
  let a : BitVec 32 := 0
  let b : BitVec 32 := 64
  let d : Fin 2 := 0
  let owner : Bool := true
  let r : MbRun := ⟨5, [], false, 7⟩
  let data : List Byte := [1, 2]
  let q : List Byte := [0x12, 224, 0, 5, 0, 0, 0, 0]
  let ws := wsStop 0
  let say := fun (s : State) (x : List Byte) => { s with ws := { s.ws with sent := s.ws.sent ++ [[BitVec.ofNat 8 peer.toNat] ++ x] } }
  let conn := fun (s : State) (c v : Nat) => { s with ws := { s.ws with spdm := mapSet (fun _ => 0) s.ws.spdm c v } }
  let at3 := fun (s : State) (code : Nat) => pl q 1 1 = code ∧ 3 ≤ spdmState s 16
  let early := fun (s : State) (code need : Nat) => pl q 1 1 = code ∧ spdmState s 16 < need
  let unready := fun (s : State) => say s [5, 0x12, 0x7F, 4, 0]
  let here := fun (s : State) (n code : Nat) => mbNext s n = true ∧ mbOpcode s n = 0x0800 ∧ n ≠ 14 ∧ getF (mb s n 0) 16 16 ≤ 248 ∧ pl (mbPayload s n) 1 1 = code
  let begun := fun (s : State) (n : Nat) => (let v := spdmAnswer s n (mbPayload s n); { v.1 with ws := { v.1.ws with run := mapSet (fun _ => none) v.1.ws.run n (some ⟨0, v.2, false, tbNow v.1⟩) } })
  let pair := fun (s : State) => (activeDie s = 0 ∧ d = 1) ∨ (activeDie s ≠ 0 ∧ d = 0)
  let out := fun (s : State) (src : Nat) => reportErr s (wsStop d) src 0
  let took := fun (s : State) => (let u := tput (setStandby (rsetB s ws 3 WS_STAT 0 (!rbit s ws 3 WS_STAT 0)) 1) (.waystation d) Thread.initial; let v := rsat (rsetB u ws 3 WS_STAT 5 true) ws 3 WS_STAT 16 16 1; reportErr (addEvent v 4 (stopLocus (pkgNum s) (activeStop v)) 0x9005 true) (activeStop v) 0x9005 0)
  let alone := fun (s : State) => (let u := (List.range 14).foldl mbAbort s; wsStart ([24, 25, 26, 27].foldl (fun s j => if mbState s j = 1 then mbComplete s j 0xC [] else s) u) d)
  let free := fun (s : State) => (s.ws.run.any fun e => decide (mbPlace s e.1 = some (2 ^ 44)) && e.2.isSome) = false
  let pldm := fun (v : Served) => say v.s ([1, 5] ++ natLe 1 v.status)
  let s0 : State := liveSt [⟨0, 1, 3⟩, ⟨0, 0, 8⟩, portStop 0, wsStop 0, wsStop 1]
  decide ((fun (s : State) => at3 s 0xE0 ∧ 1 ≤ pl q 3 1 ∧ pl q 3 1 ≤ 6 ∧ bit (pl q 2 1) 0 = false) ((fun (s : State) => { s with ws := { s.ws with spdm := [(16, 3)], flash := { s.ws.flash with chain := [1,2,3,4,5] } } }) s0))) = true := by decide +kernel

theorem wit_WaystationEvents_18 : (
  let m : Fin 28 := 3
  let k : Fin 16 := 3
  let peer : BitVec 8 := 9
  let q : List Byte := [0x12, 0x84, 0, 0]
  let eid : BitVec 8 := 17
  let addr : BitVec 7 := 40
  let static : BitVec 7 := 0x58
  let sensor : BitVec 16 := 20
  let a : BitVec 32 := 0
  let b : BitVec 32 := 64
  let d : Fin 2 := 0
  let owner : Bool := true
  let r : MbRun := ⟨5, [], false, 7⟩
  let data : List Byte := [1, 2]
  let static : BitVec 7 := 3
  let ws := wsStop 0
  let say := fun (s : State) (x : List Byte) => { s with ws := { s.ws with sent := s.ws.sent ++ [[BitVec.ofNat 8 peer.toNat] ++ x] } }
  let conn := fun (s : State) (c v : Nat) => { s with ws := { s.ws with spdm := mapSet (fun _ => 0) s.ws.spdm c v } }
  let at3 := fun (s : State) (code : Nat) => pl q 1 1 = code ∧ 3 ≤ spdmState s 16
  let early := fun (s : State) (code need : Nat) => pl q 1 1 = code ∧ spdmState s 16 < need
  let unready := fun (s : State) => say s [5, 0x12, 0x7F, 4, 0]
  let here := fun (s : State) (n code : Nat) => mbNext s n = true ∧ mbOpcode s n = 0x0800 ∧ n ≠ 14 ∧ getF (mb s n 0) 16 16 ≤ 248 ∧ pl (mbPayload s n) 1 1 = code
  let begun := fun (s : State) (n : Nat) => (let v := spdmAnswer s n (mbPayload s n); { v.1 with ws := { v.1.ws with run := mapSet (fun _ => none) v.1.ws.run n (some ⟨0, v.2, false, tbNow v.1⟩) } })
  let pair := fun (s : State) => (activeDie s = 0 ∧ d = 1) ∨ (activeDie s ≠ 0 ∧ d = 0)
  let out := fun (s : State) (src : Nat) => reportErr s (wsStop d) src 0
  let took := fun (s : State) => (let u := tput (setStandby (rsetB s ws 3 WS_STAT 0 (!rbit s ws 3 WS_STAT 0)) 1) (.waystation d) Thread.initial; let v := rsat (rsetB u ws 3 WS_STAT 5 true) ws 3 WS_STAT 16 16 1; reportErr (addEvent v 4 (stopLocus (pkgNum s) (activeStop v)) 0x9005 true) (activeStop v) 0x9005 0)
  let alone := fun (s : State) => (let u := (List.range 14).foldl mbAbort s; wsStart ([24, 25, 26, 27].foldl (fun s j => if mbState s j = 1 then mbComplete s j 0xC [] else s) u) d)
  let free := fun (s : State) => (s.ws.run.any fun e => decide (mbPlace s e.1 = some (2 ^ 44)) && e.2.isSome) = false
  let pldm := fun (v : Served) => say v.s ([1, 5] ++ natLe 1 v.status)
  let s0 : State := liveSt [⟨0, 1, 3⟩, ⟨0, 0, 8⟩, portStop 0, wsStop 0, wsStop 1]
  decide ((fun (s : State) => static.toNat ≠ 0x58 + rfld s ws 3 STRAP 3 2) ((fun (s : State) => s) s0))) = true := by decide +kernel

theorem wit_WaystationEvents_19 : (
  let m : Fin 28 := 3
  let k : Fin 16 := 3
  let peer : BitVec 8 := 9
  let q : List Byte := [0x12, 0x84, 0, 0]
  let eid : BitVec 8 := 17
  let addr : BitVec 7 := 40
  let static : BitVec 7 := 0x58
  let sensor : BitVec 16 := 20
  let a : BitVec 32 := 0
  let b : BitVec 32 := 64
  let d : Fin 2 := 0
  let owner : Bool := true
  let r : MbRun := ⟨5, [], false, 7⟩
  let data : List Byte := [1, 2]
  let eid : BitVec 8 := 0
  let ws := wsStop 0
  let say := fun (s : State) (x : List Byte) => { s with ws := { s.ws with sent := s.ws.sent ++ [[BitVec.ofNat 8 peer.toNat] ++ x] } }
  let conn := fun (s : State) (c v : Nat) => { s with ws := { s.ws with spdm := mapSet (fun _ => 0) s.ws.spdm c v } }
  let at3 := fun (s : State) (code : Nat) => pl q 1 1 = code ∧ 3 ≤ spdmState s 16
  let early := fun (s : State) (code need : Nat) => pl q 1 1 = code ∧ spdmState s 16 < need
  let unready := fun (s : State) => say s [5, 0x12, 0x7F, 4, 0]
  let here := fun (s : State) (n code : Nat) => mbNext s n = true ∧ mbOpcode s n = 0x0800 ∧ n ≠ 14 ∧ getF (mb s n 0) 16 16 ≤ 248 ∧ pl (mbPayload s n) 1 1 = code
  let begun := fun (s : State) (n : Nat) => (let v := spdmAnswer s n (mbPayload s n); { v.1 with ws := { v.1.ws with run := mapSet (fun _ => none) v.1.ws.run n (some ⟨0, v.2, false, tbNow v.1⟩) } })
  let pair := fun (s : State) => (activeDie s = 0 ∧ d = 1) ∨ (activeDie s ≠ 0 ∧ d = 0)
  let out := fun (s : State) (src : Nat) => reportErr s (wsStop d) src 0
  let took := fun (s : State) => (let u := tput (setStandby (rsetB s ws 3 WS_STAT 0 (!rbit s ws 3 WS_STAT 0)) 1) (.waystation d) Thread.initial; let v := rsat (rsetB u ws 3 WS_STAT 5 true) ws 3 WS_STAT 16 16 1; reportErr (addEvent v 4 (stopLocus (pkgNum s) (activeStop v)) 0x9005 true) (activeStop v) 0x9005 0)
  let alone := fun (s : State) => (let u := (List.range 14).foldl mbAbort s; wsStart ([24, 25, 26, 27].foldl (fun s j => if mbState s j = 1 then mbComplete s j 0xC [] else s) u) d)
  let free := fun (s : State) => (s.ws.run.any fun e => decide (mbPlace s e.1 = some (2 ^ 44)) && e.2.isSome) = false
  let pldm := fun (v : Served) => say v.s ([1, 5] ++ natLe 1 v.status)
  let s0 : State := liveSt [⟨0, 1, 3⟩, ⟨0, 0, 8⟩, portStop 0, wsStop 0, wsStop 1]
  decide ((fun (s : State) => eid = 0 ∨ eid = 0xFF) ((fun (s : State) => s) s0))) = true := by decide +kernel

theorem wit_WaystationEvents_20 : (
  let m : Fin 28 := 3
  let k : Fin 16 := 3
  let peer : BitVec 8 := 9
  let q : List Byte := [0x12, 0x84, 0, 0]
  let eid : BitVec 8 := 17
  let addr : BitVec 7 := 40
  let static : BitVec 7 := 0x58
  let sensor : BitVec 16 := 20
  let a : BitVec 32 := 0
  let b : BitVec 32 := 64
  let d : Fin 2 := 0
  let owner : Bool := true
  let r : MbRun := ⟨5, [], false, 7⟩
  let data : List Byte := [1, 2]
  let sensor : BitVec 16 := 1
  let ws := wsStop 0
  let say := fun (s : State) (x : List Byte) => { s with ws := { s.ws with sent := s.ws.sent ++ [[BitVec.ofNat 8 peer.toNat] ++ x] } }
  let conn := fun (s : State) (c v : Nat) => { s with ws := { s.ws with spdm := mapSet (fun _ => 0) s.ws.spdm c v } }
  let at3 := fun (s : State) (code : Nat) => pl q 1 1 = code ∧ 3 ≤ spdmState s 16
  let early := fun (s : State) (code need : Nat) => pl q 1 1 = code ∧ spdmState s 16 < need
  let unready := fun (s : State) => say s [5, 0x12, 0x7F, 4, 0]
  let here := fun (s : State) (n code : Nat) => mbNext s n = true ∧ mbOpcode s n = 0x0800 ∧ n ≠ 14 ∧ getF (mb s n 0) 16 16 ≤ 248 ∧ pl (mbPayload s n) 1 1 = code
  let begun := fun (s : State) (n : Nat) => (let v := spdmAnswer s n (mbPayload s n); { v.1 with ws := { v.1.ws with run := mapSet (fun _ => none) v.1.ws.run n (some ⟨0, v.2, false, tbNow v.1⟩) } })
  let pair := fun (s : State) => (activeDie s = 0 ∧ d = 1) ∨ (activeDie s ≠ 0 ∧ d = 0)
  let out := fun (s : State) (src : Nat) => reportErr s (wsStop d) src 0
  let took := fun (s : State) => (let u := tput (setStandby (rsetB s ws 3 WS_STAT 0 (!rbit s ws 3 WS_STAT 0)) 1) (.waystation d) Thread.initial; let v := rsat (rsetB u ws 3 WS_STAT 5 true) ws 3 WS_STAT 16 16 1; reportErr (addEvent v 4 (stopLocus (pkgNum s) (activeStop v)) 0x9005 true) (activeStop v) 0x9005 0)
  let alone := fun (s : State) => (let u := (List.range 14).foldl mbAbort s; wsStart ([24, 25, 26, 27].foldl (fun s j => if mbState s j = 1 then mbComplete s j 0xC [] else s) u) d)
  let free := fun (s : State) => (s.ws.run.any fun e => decide (mbPlace s e.1 = some (2 ^ 44)) && e.2.isSome) = false
  let pldm := fun (v : Served) => say v.s ([1, 5] ++ natLe 1 v.status)
  let s0 : State := liveSt [⟨0, 1, 3⟩, ⟨0, 0, 8⟩, portStop 0, wsStop 0, wsStop 1]
  decide ((fun (s : State) => sensor = 1) ((fun (s : State) => s) s0))) = true := by decide +kernel

theorem wit_WaystationEvents_21 : (
  let m : Fin 28 := 3
  let k : Fin 16 := 3
  let peer : BitVec 8 := 9
  let q : List Byte := [0x12, 0x84, 0, 0]
  let eid : BitVec 8 := 17
  let addr : BitVec 7 := 40
  let static : BitVec 7 := 0x58
  let sensor : BitVec 16 := 20
  let a : BitVec 32 := 0
  let b : BitVec 32 := 64
  let d : Fin 2 := 0
  let owner : Bool := true
  let r : MbRun := ⟨5, [], false, 7⟩
  let data : List Byte := [1, 2]
  let sensor : BitVec 16 := 2
  let ws := wsStop 0
  let say := fun (s : State) (x : List Byte) => { s with ws := { s.ws with sent := s.ws.sent ++ [[BitVec.ofNat 8 peer.toNat] ++ x] } }
  let conn := fun (s : State) (c v : Nat) => { s with ws := { s.ws with spdm := mapSet (fun _ => 0) s.ws.spdm c v } }
  let at3 := fun (s : State) (code : Nat) => pl q 1 1 = code ∧ 3 ≤ spdmState s 16
  let early := fun (s : State) (code need : Nat) => pl q 1 1 = code ∧ spdmState s 16 < need
  let unready := fun (s : State) => say s [5, 0x12, 0x7F, 4, 0]
  let here := fun (s : State) (n code : Nat) => mbNext s n = true ∧ mbOpcode s n = 0x0800 ∧ n ≠ 14 ∧ getF (mb s n 0) 16 16 ≤ 248 ∧ pl (mbPayload s n) 1 1 = code
  let begun := fun (s : State) (n : Nat) => (let v := spdmAnswer s n (mbPayload s n); { v.1 with ws := { v.1.ws with run := mapSet (fun _ => none) v.1.ws.run n (some ⟨0, v.2, false, tbNow v.1⟩) } })
  let pair := fun (s : State) => (activeDie s = 0 ∧ d = 1) ∨ (activeDie s ≠ 0 ∧ d = 0)
  let out := fun (s : State) (src : Nat) => reportErr s (wsStop d) src 0
  let took := fun (s : State) => (let u := tput (setStandby (rsetB s ws 3 WS_STAT 0 (!rbit s ws 3 WS_STAT 0)) 1) (.waystation d) Thread.initial; let v := rsat (rsetB u ws 3 WS_STAT 5 true) ws 3 WS_STAT 16 16 1; reportErr (addEvent v 4 (stopLocus (pkgNum s) (activeStop v)) 0x9005 true) (activeStop v) 0x9005 0)
  let alone := fun (s : State) => (let u := (List.range 14).foldl mbAbort s; wsStart ([24, 25, 26, 27].foldl (fun s j => if mbState s j = 1 then mbComplete s j 0xC [] else s) u) d)
  let free := fun (s : State) => (s.ws.run.any fun e => decide (mbPlace s e.1 = some (2 ^ 44)) && e.2.isSome) = false
  let pldm := fun (v : Served) => say v.s ([1, 5] ++ natLe 1 v.status)
  let s0 : State := liveSt [⟨0, 1, 3⟩, ⟨0, 0, 8⟩, portStop 0, wsStop 0, wsStop 1]
  decide ((fun (s : State) => sensor = 2) ((fun (s : State) => s) s0))) = true := by decide +kernel

theorem wit_WaystationEvents_22 : (
  let m : Fin 28 := 3
  let k : Fin 16 := 3
  let peer : BitVec 8 := 9
  let q : List Byte := [0x12, 0x84, 0, 0]
  let eid : BitVec 8 := 17
  let addr : BitVec 7 := 40
  let static : BitVec 7 := 0x58
  let sensor : BitVec 16 := 20
  let a : BitVec 32 := 0
  let b : BitVec 32 := 64
  let d : Fin 2 := 0
  let owner : Bool := true
  let r : MbRun := ⟨5, [], false, 7⟩
  let data : List Byte := [1, 2]
  let sensor : BitVec 16 := 9
  let ws := wsStop 0
  let say := fun (s : State) (x : List Byte) => { s with ws := { s.ws with sent := s.ws.sent ++ [[BitVec.ofNat 8 peer.toNat] ++ x] } }
  let conn := fun (s : State) (c v : Nat) => { s with ws := { s.ws with spdm := mapSet (fun _ => 0) s.ws.spdm c v } }
  let at3 := fun (s : State) (code : Nat) => pl q 1 1 = code ∧ 3 ≤ spdmState s 16
  let early := fun (s : State) (code need : Nat) => pl q 1 1 = code ∧ spdmState s 16 < need
  let unready := fun (s : State) => say s [5, 0x12, 0x7F, 4, 0]
  let here := fun (s : State) (n code : Nat) => mbNext s n = true ∧ mbOpcode s n = 0x0800 ∧ n ≠ 14 ∧ getF (mb s n 0) 16 16 ≤ 248 ∧ pl (mbPayload s n) 1 1 = code
  let begun := fun (s : State) (n : Nat) => (let v := spdmAnswer s n (mbPayload s n); { v.1 with ws := { v.1.ws with run := mapSet (fun _ => none) v.1.ws.run n (some ⟨0, v.2, false, tbNow v.1⟩) } })
  let pair := fun (s : State) => (activeDie s = 0 ∧ d = 1) ∨ (activeDie s ≠ 0 ∧ d = 0)
  let out := fun (s : State) (src : Nat) => reportErr s (wsStop d) src 0
  let took := fun (s : State) => (let u := tput (setStandby (rsetB s ws 3 WS_STAT 0 (!rbit s ws 3 WS_STAT 0)) 1) (.waystation d) Thread.initial; let v := rsat (rsetB u ws 3 WS_STAT 5 true) ws 3 WS_STAT 16 16 1; reportErr (addEvent v 4 (stopLocus (pkgNum s) (activeStop v)) 0x9005 true) (activeStop v) 0x9005 0)
  let alone := fun (s : State) => (let u := (List.range 14).foldl mbAbort s; wsStart ([24, 25, 26, 27].foldl (fun s j => if mbState s j = 1 then mbComplete s j 0xC [] else s) u) d)
  let free := fun (s : State) => (s.ws.run.any fun e => decide (mbPlace s e.1 = some (2 ^ 44)) && e.2.isSome) = false
  let pldm := fun (v : Served) => say v.s ([1, 5] ++ natLe 1 v.status)
  let s0 : State := liveSt [⟨0, 1, 3⟩, ⟨0, 0, 8⟩, portStop 0, wsStop 0, wsStop 1]
  decide ((fun (s : State) => sensor = 9) ((fun (s : State) => s) s0))) = true := by decide +kernel

theorem wit_WaystationEvents_23 : (
  let m : Fin 28 := 3
  let k : Fin 16 := 3
  let peer : BitVec 8 := 9
  let q : List Byte := [0x12, 0x84, 0, 0]
  let eid : BitVec 8 := 17
  let addr : BitVec 7 := 40
  let static : BitVec 7 := 0x58
  let sensor : BitVec 16 := 20
  let a : BitVec 32 := 0
  let b : BitVec 32 := 64
  let d : Fin 2 := 0
  let owner : Bool := true
  let r : MbRun := ⟨5, [], false, 7⟩
  let data : List Byte := [1, 2]
  let sensor : BitVec 16 := 10
  let ws := wsStop 0
  let say := fun (s : State) (x : List Byte) => { s with ws := { s.ws with sent := s.ws.sent ++ [[BitVec.ofNat 8 peer.toNat] ++ x] } }
  let conn := fun (s : State) (c v : Nat) => { s with ws := { s.ws with spdm := mapSet (fun _ => 0) s.ws.spdm c v } }
  let at3 := fun (s : State) (code : Nat) => pl q 1 1 = code ∧ 3 ≤ spdmState s 16
  let early := fun (s : State) (code need : Nat) => pl q 1 1 = code ∧ spdmState s 16 < need
  let unready := fun (s : State) => say s [5, 0x12, 0x7F, 4, 0]
  let here := fun (s : State) (n code : Nat) => mbNext s n = true ∧ mbOpcode s n = 0x0800 ∧ n ≠ 14 ∧ getF (mb s n 0) 16 16 ≤ 248 ∧ pl (mbPayload s n) 1 1 = code
  let begun := fun (s : State) (n : Nat) => (let v := spdmAnswer s n (mbPayload s n); { v.1 with ws := { v.1.ws with run := mapSet (fun _ => none) v.1.ws.run n (some ⟨0, v.2, false, tbNow v.1⟩) } })
  let pair := fun (s : State) => (activeDie s = 0 ∧ d = 1) ∨ (activeDie s ≠ 0 ∧ d = 0)
  let out := fun (s : State) (src : Nat) => reportErr s (wsStop d) src 0
  let took := fun (s : State) => (let u := tput (setStandby (rsetB s ws 3 WS_STAT 0 (!rbit s ws 3 WS_STAT 0)) 1) (.waystation d) Thread.initial; let v := rsat (rsetB u ws 3 WS_STAT 5 true) ws 3 WS_STAT 16 16 1; reportErr (addEvent v 4 (stopLocus (pkgNum s) (activeStop v)) 0x9005 true) (activeStop v) 0x9005 0)
  let alone := fun (s : State) => (let u := (List.range 14).foldl mbAbort s; wsStart ([24, 25, 26, 27].foldl (fun s j => if mbState s j = 1 then mbComplete s j 0xC [] else s) u) d)
  let free := fun (s : State) => (s.ws.run.any fun e => decide (mbPlace s e.1 = some (2 ^ 44)) && e.2.isSome) = false
  let pldm := fun (v : Served) => say v.s ([1, 5] ++ natLe 1 v.status)
  let s0 : State := liveSt [⟨0, 1, 3⟩, ⟨0, 0, 8⟩, portStop 0, wsStop 0, wsStop 1]
  decide ((fun (s : State) => sensor = 10) ((fun (s : State) => s) s0))) = true := by decide +kernel

theorem wit_WaystationEvents_24 : (
  let m : Fin 28 := 3
  let k : Fin 16 := 3
  let peer : BitVec 8 := 9
  let q : List Byte := [0x12, 0x84, 0, 0]
  let eid : BitVec 8 := 17
  let addr : BitVec 7 := 40
  let static : BitVec 7 := 0x58
  let sensor : BitVec 16 := 20
  let a : BitVec 32 := 0
  let b : BitVec 32 := 64
  let d : Fin 2 := 0
  let owner : Bool := true
  let r : MbRun := ⟨5, [], false, 7⟩
  let data : List Byte := [1, 2]
  let sensor : BitVec 16 := 21
  let ws := wsStop 0
  let say := fun (s : State) (x : List Byte) => { s with ws := { s.ws with sent := s.ws.sent ++ [[BitVec.ofNat 8 peer.toNat] ++ x] } }
  let conn := fun (s : State) (c v : Nat) => { s with ws := { s.ws with spdm := mapSet (fun _ => 0) s.ws.spdm c v } }
  let at3 := fun (s : State) (code : Nat) => pl q 1 1 = code ∧ 3 ≤ spdmState s 16
  let early := fun (s : State) (code need : Nat) => pl q 1 1 = code ∧ spdmState s 16 < need
  let unready := fun (s : State) => say s [5, 0x12, 0x7F, 4, 0]
  let here := fun (s : State) (n code : Nat) => mbNext s n = true ∧ mbOpcode s n = 0x0800 ∧ n ≠ 14 ∧ getF (mb s n 0) 16 16 ≤ 248 ∧ pl (mbPayload s n) 1 1 = code
  let begun := fun (s : State) (n : Nat) => (let v := spdmAnswer s n (mbPayload s n); { v.1 with ws := { v.1.ws with run := mapSet (fun _ => none) v.1.ws.run n (some ⟨0, v.2, false, tbNow v.1⟩) } })
  let pair := fun (s : State) => (activeDie s = 0 ∧ d = 1) ∨ (activeDie s ≠ 0 ∧ d = 0)
  let out := fun (s : State) (src : Nat) => reportErr s (wsStop d) src 0
  let took := fun (s : State) => (let u := tput (setStandby (rsetB s ws 3 WS_STAT 0 (!rbit s ws 3 WS_STAT 0)) 1) (.waystation d) Thread.initial; let v := rsat (rsetB u ws 3 WS_STAT 5 true) ws 3 WS_STAT 16 16 1; reportErr (addEvent v 4 (stopLocus (pkgNum s) (activeStop v)) 0x9005 true) (activeStop v) 0x9005 0)
  let alone := fun (s : State) => (let u := (List.range 14).foldl mbAbort s; wsStart ([24, 25, 26, 27].foldl (fun s j => if mbState s j = 1 then mbComplete s j 0xC [] else s) u) d)
  let free := fun (s : State) => (s.ws.run.any fun e => decide (mbPlace s e.1 = some (2 ^ 44)) && e.2.isSome) = false
  let pldm := fun (v : Served) => say v.s ([1, 5] ++ natLe 1 v.status)
  let s0 : State := liveSt [⟨0, 1, 3⟩, ⟨0, 0, 8⟩, portStop 0, wsStop 0, wsStop 1]
  decide ((fun (s : State) => sensor = 0 ∨ (10 < sensor.toNat ∧ sensor ≠ 20)) ((fun (s : State) => s) s0))) = true := by decide +kernel

theorem wit_WaystationEvents_25 : (
  let m : Fin 28 := 3
  let k : Fin 16 := 3
  let peer : BitVec 8 := 9
  let q : List Byte := [0x12, 0x84, 0, 0]
  let eid : BitVec 8 := 17
  let addr : BitVec 7 := 40
  let static : BitVec 7 := 0x58
  let sensor : BitVec 16 := 20
  let a : BitVec 32 := 0
  let b : BitVec 32 := 64
  let d : Fin 2 := 0
  let owner : Bool := true
  let r : MbRun := ⟨5, [], false, 7⟩
  let data : List Byte := [1, 2]
  let d : Fin 2 := 1
  let ws := wsStop 0
  let say := fun (s : State) (x : List Byte) => { s with ws := { s.ws with sent := s.ws.sent ++ [[BitVec.ofNat 8 peer.toNat] ++ x] } }
  let conn := fun (s : State) (c v : Nat) => { s with ws := { s.ws with spdm := mapSet (fun _ => 0) s.ws.spdm c v } }
  let at3 := fun (s : State) (code : Nat) => pl q 1 1 = code ∧ 3 ≤ spdmState s 16
  let early := fun (s : State) (code need : Nat) => pl q 1 1 = code ∧ spdmState s 16 < need
  let unready := fun (s : State) => say s [5, 0x12, 0x7F, 4, 0]
  let here := fun (s : State) (n code : Nat) => mbNext s n = true ∧ mbOpcode s n = 0x0800 ∧ n ≠ 14 ∧ getF (mb s n 0) 16 16 ≤ 248 ∧ pl (mbPayload s n) 1 1 = code
  let begun := fun (s : State) (n : Nat) => (let v := spdmAnswer s n (mbPayload s n); { v.1 with ws := { v.1.ws with run := mapSet (fun _ => none) v.1.ws.run n (some ⟨0, v.2, false, tbNow v.1⟩) } })
  let pair := fun (s : State) => (activeDie s = 0 ∧ d = 1) ∨ (activeDie s ≠ 0 ∧ d = 0)
  let out := fun (s : State) (src : Nat) => reportErr s (wsStop d) src 0
  let took := fun (s : State) => (let u := tput (setStandby (rsetB s ws 3 WS_STAT 0 (!rbit s ws 3 WS_STAT 0)) 1) (.waystation d) Thread.initial; let v := rsat (rsetB u ws 3 WS_STAT 5 true) ws 3 WS_STAT 16 16 1; reportErr (addEvent v 4 (stopLocus (pkgNum s) (activeStop v)) 0x9005 true) (activeStop v) 0x9005 0)
  let alone := fun (s : State) => (let u := (List.range 14).foldl mbAbort s; wsStart ([24, 25, 26, 27].foldl (fun s j => if mbState s j = 1 then mbComplete s j 0xC [] else s) u) d)
  let free := fun (s : State) => (s.ws.run.any fun e => decide (mbPlace s e.1 = some (2 ^ 44)) && e.2.isSome) = false
  let pldm := fun (v : Served) => say v.s ([1, 5] ++ natLe 1 v.status)
  let s0 : State := liveSt [⟨0, 1, 3⟩, ⟨0, 0, 8⟩, portStop 0, wsStop 0, wsStop 1]
  decide ((fun (s : State) => 3 ≤ bootStep s ∧ activeDie s ≠ d.val ∧ standby s ≠ 2) ((fun (s : State) => setStandby (rputF s (wsStop 0) 3 BOOT_STAT 0 4 5) 3) s0)) &&
  decide ((fun (s : State) => 3 ≤ bootStep s ∧ activeDie s ≠ d.val ∧ standby s = 2) ((fun (s : State) => setStandby (rputF s (wsStop 0) 3 BOOT_STAT 0 4 5) 2) s0)) &&
  decide ((fun (s : State) => standby s = 1 ∧ pair s) ((fun (s : State) => setStandby (rputF s (wsStop 0) 3 BOOT_STAT 0 4 5) 1) s0)) &&
  decide ((fun (s : State) => standby s = 1 ∧ pair s) ((fun (s : State) => setStandby (rputF s (wsStop 0) 3 BOOT_STAT 0 4 5) 1) s0))) = true := by decide +kernel

theorem wit_MailboxCommands_1 : (
  let m : Fin 28 := 3
  let late : Bool := false
  let straps : BitVec 6 := 0
  let st : Stop := ⟨0, 1, 3⟩
  let d : Fin 2 := 1
  let k : Fin 6 := 2
  let n : Fin 16 := 0
  let c : Fin 2 := 0
  let ws := wsStop 0
  let f := fun (s : State) (i n : Nat) => pl (mbPayload s m.val) i n
  let w := mbWorld m.val
  let asked := fun (s : State) (op side len : Nat) => mbNext s m.val = true ∧ mbOpcode s m.val = op ∧ side &&& mbSide m.val ≠ 0 ∧ getF (mb s m.val 0) 16 16 = len ∧ mbBusyPlace s m.val = false
  let ends := fun (s : State) (code : Nat) (x : List Byte) (bg : Bool) => { s with ws := { s.ws with run := mapSet (fun _ => none) s.ws.run m.val (some ⟨code, x, bg, tbNow s⟩) } }
  let ok := fun (s : State) (x : List Byte) => ends s 0 x false
  let later := fun (s : State) => ends s 0 [] true
  let bad := fun (s : State) (code : Nat) => ends s code [] false
  let names := fun (s : State) (kd : Kind) => namedStop s (f s 0 2) kd = some st
  let flash := fun (s : State) (g : Flash) => { s with ws := { s.ws with flash := g } }
  let repaired := fun (s : State) (x : Nat × Nat × Nat) => flash s { s.ws.flash with repairs := s.ws.flash.repairs ++ [x] }
  let stacked := fun (s : State) => bit s.pkg.stackSet (chanOf st c).1 = true
  let sec := fun (s : State) => rbit s ws 11 WA_OR_SEC n.val
  let orow := fun (s : State) => f s 0 1 = n.val ∧ (w = .secure ∨ sec s = false)
  let s0 : State := liveSt ([⟨0, 1, 3⟩, ⟨0, 0, 8⟩, wsStop 0, wsStop 1] ++ (List.finRange 12).map portStop ++ allStops.filter (fun st => decide (stopKind st = .memory)))
  decide ((fun (s : State) => asked s 0x0101 15 0) ((fun (s : State) => (let s := rput (rputF (memSt s) (wsStop 0) 1 (6144 + MB_STATUS) 0 2 1) (wsStop 0) 1 6144 257; let s := rsetB (rputF s (wsStop 0) 3 BOOT_STAT 0 4 5) (wsStop 0) 11 WA_LOCK 0 true; { s with ws := { s.ws with order := [3] } })) s0)) &&
  decide ((fun (s : State) => asked s 0x0102 15 2 ∧ numaNodes s = [] ) ((fun (s : State) => (let s := rput (rputF ({ (memSt s) with pkg := { s.pkg with stackSet := 0 , interleaved := false} }) (wsStop 0) 1 (6144 + MB_STATUS) 0 2 1) (wsStop 0) 1 6144 131330; let s := rsetB (rputF s (wsStop 0) 3 BOOT_STAT 0 4 5) (wsStop 0) 11 WA_LOCK 0 true; let s := rput s (wsStop 0) 1 6152 0; { s with ws := { s.ws with order := [3] } })) s0)) &&
  decide ((fun (s : State) => asked s 0x0102 15 2) ((fun (s : State) => (let s := rput (rputF (memSt s) (wsStop 0) 1 (6144 + MB_STATUS) 0 2 1) (wsStop 0) 1 6144 131330; let s := rsetB (rputF s (wsStop 0) 3 BOOT_STAT 0 4 5) (wsStop 0) 11 WA_LOCK 0 true; let s := rput s (wsStop 0) 1 6152 1; { s with ws := { s.ws with order := [3] } })) s0)) &&
  decide ((fun (s : State) => asked s 0x0103 15 0) ((fun (s : State) => (let s := rput (rputF (memSt s) (wsStop 0) 1 (6144 + MB_STATUS) 0 2 1) (wsStop 0) 1 6144 259; let s := rsetB (rputF s (wsStop 0) 3 BOOT_STAT 0 4 5) (wsStop 0) 11 WA_LOCK 0 true; { s with ws := { s.ws with order := [3] } })) s0)) &&
  decide ((fun (s : State) => asked s 0x0200 11 2) ((fun (s : State) => (let s := rput (rputF (memSt s) (wsStop 0) 1 (6144 + MB_STATUS) 0 2 1) (wsStop 0) 1 6144 131584; let s := rsetB (rputF s (wsStop 0) 3 BOOT_STAT 0 4 5) (wsStop 0) 11 WA_LOCK 0 true; let s := rput s (wsStop 0) 1 6152 400; { s with ws := { s.ws with order := [3] } })) s0)) &&
  decide ((fun (s : State) => asked s 0x0201 3 2 ∧ mapGet (fun _ => none) s.ws.run m.val = none ∧ 1000 < f s 0 2) ((fun (s : State) => (let s := rput (rputF (memSt s) (wsStop 0) 1 (6144 + MB_STATUS) 0 2 1) (wsStop 0) 1 6144 131585; let s := rsetB (rputF s (wsStop 0) 3 BOOT_STAT 0 4 5) (wsStop 0) 11 WA_LOCK 0 true; let s := rput s (wsStop 0) 1 6152 4096; { s with ws := { s.ws with order := [3] } })) s0)) &&
  decide ((fun (s : State) => asked s 0x0201 3 2 ∧ mapGet (fun _ => none) s.ws.run m.val = none ∧ f s 0 2 ≤ 1000 ∧ mayCamp s w = true ∧ otherClassR s m.val = false) ((fun (s : State) => (let s := rput (rputF (memSt s) (wsStop 0) 1 (6144 + MB_STATUS) 0 2 1) (wsStop 0) 1 6144 131585; let s := rsetB (rputF s (wsStop 0) 3 BOOT_STAT 0 4 5) (wsStop 0) 11 WA_LOCK 0 true; let s := rput s (wsStop 0) 1 6152 10; { s with ws := { s.ws with order := [3] } })) s0)) &&
  decide ((fun (s : State) => asked s 0x0201 3 2 ∧ mapGet (fun _ => none) s.ws.run m.val = none ∧ f s 0 2 ≤ 1000 ∧ (mayCamp s w = false ∨ otherClassR s m.val = true) ∧ late = false ∧ f s 0 2 ≠ 0) ((fun (s : State) => (let s := rput (rputF (tput (memSt s) (.drover ⟨0,1,3⟩ 0 0) { Thread.initial with run := .running }) (wsStop 0) 1 (6144 + MB_STATUS) 0 2 1) (wsStop 0) 1 6144 131585; let s := rsetB (rputF s (wsStop 0) 3 BOOT_STAT 0 4 5) (wsStop 0) 11 WA_LOCK 0 true; let s := rput s (wsStop 0) 1 6152 10; { s with ws := { s.ws with order := [3] } })) s0)) &&
  decide ((fun (s : State) => asked s 0x0202 3 2 ∧ mapGet (fun _ => none) s.ws.run m.val = none ∧ 1000 < f s 0 2) ((fun (s : State) => (let s := rput (rputF (memSt s) (wsStop 0) 1 (6144 + MB_STATUS) 0 2 1) (wsStop 0) 1 6144 131586; let s := rsetB (rputF s (wsStop 0) 3 BOOT_STAT 0 4 5) (wsStop 0) 11 WA_LOCK 0 true; let s := rput s (wsStop 0) 1 6152 4096; { s with ws := { s.ws with order := [3] } })) s0)) &&
  decide ((fun (s : State) => asked s 0x0202 3 2 ∧ mapGet (fun _ => none) s.ws.run m.val = none ∧ f s 0 2 ≤ 1000 ∧ mayDormant s w = true ∧ otherClassR s m.val = false) ((fun (s : State) => (let s := rput (rputF (memSt s) (wsStop 0) 1 (6144 + MB_STATUS) 0 2 1) (wsStop 0) 1 6144 131586; let s := rsetB (rputF s (wsStop 0) 3 BOOT_STAT 0 4 5) (wsStop 0) 11 WA_LOCK 0 true; let s := rput s (wsStop 0) 1 6152 10; { s with ws := { s.ws with order := [3] } })) s0)) &&
  decide ((fun (s : State) => asked s 0x0203 3 2 ∧ f s 0 1 = d.val ∧ f s 1 1 ≤ 1) ((fun (s : State) => (let s := rput (rputF (memSt s) (wsStop 0) 1 (6144 + MB_STATUS) 0 2 1) (wsStop 0) 1 6144 131587; let s := rsetB (rputF s (wsStop 0) 3 BOOT_STAT 0 4 5) (wsStop 0) 11 WA_LOCK 0 true; let s := rput s (wsStop 0) 1 6152 257; { s with ws := { s.ws with order := [3] } })) s0)) &&
  decide ((fun (s : State) => asked s 0x0203 3 2 ∧ (1 < f s 0 1 ∨ 1 < f s 1 1)) ((fun (s : State) => (let s := rput (rputF (memSt s) (wsStop 0) 1 (6144 + MB_STATUS) 0 2 1) (wsStop 0) 1 6144 131587; let s := rsetB (rputF s (wsStop 0) 3 BOOT_STAT 0 4 5) (wsStop 0) 11 WA_LOCK 0 true; let s := rput s (wsStop 0) 1 6152 258; { s with ws := { s.ws with order := [3] } })) s0))) = true := by decide +kernel

theorem wit_MailboxCommands_2 : (
  let m : Fin 28 := 3
  let late : Bool := false
  let straps : BitVec 6 := 0
  let st : Stop := ⟨0, 1, 3⟩
  let d : Fin 2 := 1
  let k : Fin 6 := 2
  let n : Fin 16 := 0
  let c : Fin 2 := 0
  let ws := wsStop 0
  let f := fun (s : State) (i n : Nat) => pl (mbPayload s m.val) i n
  let w := mbWorld m.val
  let asked := fun (s : State) (op side len : Nat) => mbNext s m.val = true ∧ mbOpcode s m.val = op ∧ side &&& mbSide m.val ≠ 0 ∧ getF (mb s m.val 0) 16 16 = len ∧ mbBusyPlace s m.val = false
  let ends := fun (s : State) (code : Nat) (x : List Byte) (bg : Bool) => { s with ws := { s.ws with run := mapSet (fun _ => none) s.ws.run m.val (some ⟨code, x, bg, tbNow s⟩) } }
  let ok := fun (s : State) (x : List Byte) => ends s 0 x false
  let later := fun (s : State) => ends s 0 [] true
  let bad := fun (s : State) (code : Nat) => ends s code [] false
  let names := fun (s : State) (kd : Kind) => namedStop s (f s 0 2) kd = some st
  let flash := fun (s : State) (g : Flash) => { s with ws := { s.ws with flash := g } }
  let repaired := fun (s : State) (x : Nat × Nat × Nat) => flash s { s.ws.flash with repairs := s.ws.flash.repairs ++ [x] }
  let stacked := fun (s : State) => bit s.pkg.stackSet (chanOf st c).1 = true
  let sec := fun (s : State) => rbit s ws 11 WA_OR_SEC n.val
  let orow := fun (s : State) => f s 0 1 = n.val ∧ (w = .secure ∨ sec s = false)
  let s0 : State := liveSt ([⟨0, 1, 3⟩, ⟨0, 0, 8⟩, wsStop 0, wsStop 1] ++ (List.finRange 12).map portStop ++ allStops.filter (fun st => decide (stopKind st = .memory)))
  decide ((fun (s : State) => asked s 0x0204 11 5 ∧ (2 < f s 0 1 ∨ f s 1 1 ≠ 0)) ((fun (s : State) => (let s := rput (rputF (memSt s) (wsStop 0) 1 (6144 + MB_STATUS) 0 2 1) (wsStop 0) 1 6144 328196; let s := rsetB (rputF s (wsStop 0) 3 BOOT_STAT 0 4 5) (wsStop 0) 11 WA_LOCK 0 true; let s := rput s (wsStop 0) 1 6152 3; let s := rput s (wsStop 0) 1 6156 0; { s with ws := { s.ws with order := [3] } })) s0)) &&
  decide ((fun (s : State) => asked s 0x0204 11 5 ∧ f s 0 1 < 2 ∧ f s 1 1 = 0 ∧ mbSide m.val &&& 10 = 0) ((fun (s : State) => (let s := rput (rputF (memSt s) (wsStop 0) 1 (6144 + MB_STATUS) 0 2 1) (wsStop 0) 1 6144 328196; let s := rsetB (rputF s (wsStop 0) 3 BOOT_STAT 0 4 5) (wsStop 0) 11 WA_LOCK 0 true; let s := rput s (wsStop 0) 1 6152 1; let s := rput s (wsStop 0) 1 6156 0; { s with ws := { s.ws with order := [3] } })) s0)) &&
  decide ((fun (s : State) => asked s 0x0204 11 5 ∧ f s 0 1 = 2 ∧ f s 1 1 = 0 ∧ mbSide m.val &&& 3 ≠ 0 ∧ stopOfLocus (pkgNum s) (f s 2 2) = some st ∧ f s 4 1 ≠ 15 ∧ domExists st (f s 4 1) = true ∧ (domSecure s st (f s 4 1) = false ∨ w = .secure)) ((fun (s : State) => rputF (let s := rput (rputF (memSt s) (wsStop 0) 1 (6144 + MB_STATUS) 0 2 1) (wsStop 0) 1 6144 328196; let s := rsetB (rputF s (wsStop 0) 3 BOOT_STAT 0 4 5) (wsStop 0) 11 WA_LOCK 0 true; let s := rput s (wsStop 0) 1 6152 2; let s := rput s (wsStop 0) 1 6156 2; { s with ws := { s.ws with order := [3] } }) (wsStop 0) 1 6152 16 16 (stopLocus 0 ⟨0, 1, 3⟩)) s0)) &&
  decide ((fun (s : State) => mapGet (fun _ => none) s.ws.run m.val = none ∧ s.ws.reset = some (2, stopIdx st, 2) ∧ stopOf (stopIdx st) = some st ∧ pkgState s ≠ 7) ((fun (s : State) => { memSt s with ws := { s.ws with reset := some (2, stopIdx ⟨0,1,3⟩, 2) } }) s0)) &&
  decide ((fun (s : State) => mapGet (fun _ => none) s.ws.run m.val = none ∧ s.ws.reset = none) ((fun (s : State) => memSt s) s0)) &&
  decide ((fun (s : State) => asked s 0x0300 3 2 ∧ names s .tile ∧ (domSecure s st 2 = false ∨ w = .secure) ∧ setHas s.pkg.retired (stopIdx st) = false ∧ mayRetire s st = true) ((fun (s : State) => (let s := (let s := rput (rputF (memSt s) (wsStop 0) 1 (6144 + MB_STATUS) 0 2 1) (wsStop 0) 1 6144 131840; let s := rsetB (rputF s (wsStop 0) 3 BOOT_STAT 0 4 5) (wsStop 0) 11 WA_LOCK 0 true; let s := rput s (wsStop 0) 1 6152 0; { s with ws := { s.ws with order := [3] } }); rputF s (wsStop 0) 1 6152 0 16 (stopLocus 0 ⟨0, 1, 3⟩))) s0)) &&
  decide ((fun (s : State) => asked s 0x0300 3 2 ∧ names s .tile ∧ (domSecure s st 2 = false ∨ w = .secure) ∧ setHas s.pkg.retired (stopIdx st) = false ∧ mayRetire s st = false) ((fun (s : State) => (let s := (let s := rput (rputF (rput (memSt s) ⟨0, 1, 3⟩ 5 L3_DEPOT 16) (wsStop 0) 1 (6144 + MB_STATUS) 0 2 1) (wsStop 0) 1 6144 131840; let s := rsetB (rputF s (wsStop 0) 3 BOOT_STAT 0 4 5) (wsStop 0) 11 WA_LOCK 0 true; let s := rput s (wsStop 0) 1 6152 0; { s with ws := { s.ws with order := [3] } }); rputF s (wsStop 0) 1 6152 0 16 (stopLocus 0 ⟨0, 1, 3⟩))) s0)) &&
  decide ((fun (s : State) => asked s 0x0300 3 2 ∧ namedStop s (f s 0 2) .tile = none ∧ (locusNamesPlace (f s 0 2) = false ∨ f s 0 2 / 16384 = pkgNum s)) ((fun (s : State) => (let s := (let s := rput (rputF (memSt s) (wsStop 0) 1 (6144 + MB_STATUS) 0 2 1) (wsStop 0) 1 6144 131840; let s := rsetB (rputF s (wsStop 0) 3 BOOT_STAT 0 4 5) (wsStop 0) 11 WA_LOCK 0 true; let s := rput s (wsStop 0) 1 6152 0; { s with ws := { s.ws with order := [3] } }); rputF s (wsStop 0) 1 6152 0 16 (stopLocus 0 (wsStop 0)))) s0)) &&
  decide ((fun (s : State) => asked s 0x0300 3 2 ∧ locusNamesPlace (f s 0 2) = true ∧ f s 0 2 / 16384 ≠ pkgNum s) ((fun (s : State) => (let s := rput (rputF (memSt s) (wsStop 0) 1 (6144 + MB_STATUS) 0 2 1) (wsStop 0) 1 6144 131840; let s := rsetB (rputF s (wsStop 0) 3 BOOT_STAT 0 4 5) (wsStop 0) 11 WA_LOCK 0 true; let s := rput s (wsStop 0) 1 6152 17600; { s with ws := { s.ws with order := [3] } })) s0)) &&
  decide ((fun (s : State) => asked s 0x0301 3 6 ∧ names s .tile ∧ f s 2 1 = 2 ∧ f s 3 1 = 0 ∧ f s 4 2 < 2 ^ 12 ∧ (domSecure s st 2 = false ∨ w = .secure)) ((fun (s : State) => (let s := (let s := rput (rputF (rput (memSt s) ⟨0,1,3⟩ 5 L3_WAY_FAILED 7) (wsStop 0) 1 (6144 + MB_STATUS) 0 2 1) (wsStop 0) 1 6144 393985; let s := rsetB (rputF s (wsStop 0) 3 BOOT_STAT 0 4 5) (wsStop 0) 11 WA_LOCK 0 true; let s := rput s (wsStop 0) 1 6152 131072; let s := rput s (wsStop 0) 1 6156 3; { s with ws := { s.ws with order := [3] } }); rputF s (wsStop 0) 1 6152 0 16 (stopLocus 0 ⟨0, 1, 3⟩))) s0)) &&
  decide ((fun (s : State) => asked s 0x0301 3 6 ∧ names s .tile ∧ f s 2 1 = c.val ∧ f s 3 1 = 0 ∧ f s 4 2 < 2 ^ 16 ∧ (domSecure s st c.val = false ∨ w = .secure)) ((fun (s : State) => (let s := (let s := rput (rputF (rput (memSt s) ⟨0,1,3⟩ 3 L2_WAY_FAILED 7) (wsStop 0) 1 (6144 + MB_STATUS) 0 2 1) (wsStop 0) 1 6144 393985; let s := rsetB (rputF s (wsStop 0) 3 BOOT_STAT 0 4 5) (wsStop 0) 11 WA_LOCK 0 true; let s := rput s (wsStop 0) 1 6152 0; let s := rput s (wsStop 0) 1 6156 3; { s with ws := { s.ws with order := [3] } }); rputF s (wsStop 0) 1 6152 0 16 (stopLocus 0 ⟨0, 1, 3⟩))) s0)) &&
  decide ((fun (s : State) => asked s 0x0301 3 6 ∧ names s .tile ∧ f s 2 1 = 3 + c.val ∧ f s 3 1 = 0 ∧ f s 4 2 < 2 ^ 8 ∧ (domSecure s st c.val = false ∨ w = .secure)) ((fun (s : State) => (let s := (let s := rput (rputF (rput (memSt s) ⟨0,1,3⟩ 3 L1D_WAY_FAILED 7) (wsStop 0) 1 (6144 + MB_STATUS) 0 2 1) (wsStop 0) 1 6144 393985; let s := rsetB (rputF s (wsStop 0) 3 BOOT_STAT 0 4 5) (wsStop 0) 11 WA_LOCK 0 true; let s := rput s (wsStop 0) 1 6152 196608; let s := rput s (wsStop 0) 1 6156 3; { s with ws := { s.ws with order := [3] } }); rputF s (wsStop 0) 1 6152 0 16 (stopLocus 0 ⟨0, 1, 3⟩))) s0))) = true := by decide +kernel

theorem wit_MailboxCommands_3 : (
  let m : Fin 28 := 3
  let late : Bool := false
  let straps : BitVec 6 := 0
  let st : Stop := ⟨0, 1, 3⟩
  let d : Fin 2 := 1
  let k : Fin 6 := 2
  let n : Fin 16 := 0
  let c : Fin 2 := 0
  let ws := wsStop 0
  let f := fun (s : State) (i n : Nat) => pl (mbPayload s m.val) i n
  let w := mbWorld m.val
  let asked := fun (s : State) (op side len : Nat) => mbNext s m.val = true ∧ mbOpcode s m.val = op ∧ side &&& mbSide m.val ≠ 0 ∧ getF (mb s m.val 0) 16 16 = len ∧ mbBusyPlace s m.val = false
  let ends := fun (s : State) (code : Nat) (x : List Byte) (bg : Bool) => { s with ws := { s.ws with run := mapSet (fun _ => none) s.ws.run m.val (some ⟨code, x, bg, tbNow s⟩) } }
  let ok := fun (s : State) (x : List Byte) => ends s 0 x false
  let later := fun (s : State) => ends s 0 [] true
  let bad := fun (s : State) (code : Nat) => ends s code [] false
  let names := fun (s : State) (kd : Kind) => namedStop s (f s 0 2) kd = some st
  let flash := fun (s : State) (g : Flash) => { s with ws := { s.ws with flash := g } }
  let repaired := fun (s : State) (x : Nat × Nat × Nat) => flash s { s.ws.flash with repairs := s.ws.flash.repairs ++ [x] }
  let stacked := fun (s : State) => bit s.pkg.stackSet (chanOf st c).1 = true
  let sec := fun (s : State) => rbit s ws 11 WA_OR_SEC n.val
  let orow := fun (s : State) => f s 0 1 = n.val ∧ (w = .secure ∨ sec s = false)
  let s0 : State := liveSt ([⟨0, 1, 3⟩, ⟨0, 0, 8⟩, wsStop 0, wsStop 1] ++ (List.finRange 12).map portStop ++ allStops.filter (fun st => decide (stopKind st = .memory)))
  decide ((fun (s : State) => asked s 0x0302 3 5 ∧ (2 < f s 0 1 ∨ f s 1 1 ≠ 0)) ((fun (s : State) => (let s := rput (rputF (memSt s) (wsStop 0) 1 (6144 + MB_STATUS) 0 2 1) (wsStop 0) 1 6144 328450; let s := rsetB (rputF s (wsStop 0) 3 BOOT_STAT 0 4 5) (wsStop 0) 11 WA_LOCK 0 true; let s := rput s (wsStop 0) 1 6152 3; let s := rput s (wsStop 0) 1 6156 0; { s with ws := { s.ws with order := [3] } })) s0)) &&
  decide ((fun (s : State) => asked s 0x0302 3 5 ∧ f s 0 1 = 0 ∧ f s 1 1 = 0 ∧ stopOfLocus (pkgNum s) (f s 2 2) = some st ∧ f s 4 1 = 2 ∧ linkState s (.mesh st 1) = 2) ((fun (s : State) => rputF (let s := rput (rputF (setLinkState (memSt s) (.mesh ⟨0, 1, 3⟩ 1) 2) (wsStop 0) 1 (6144 + MB_STATUS) 0 2 1) (wsStop 0) 1 6144 328450; let s := rsetB (rputF s (wsStop 0) 3 BOOT_STAT 0 4 5) (wsStop 0) 11 WA_LOCK 0 true; let s := rput s (wsStop 0) 1 6152 0; let s := rput s (wsStop 0) 1 6156 2; { s with ws := { s.ws with order := [3] } }) (wsStop 0) 1 6152 16 16 (stopLocus 0 ⟨0, 1, 3⟩)) s0)) &&
  decide ((fun (s : State) => asked s 0x0302 3 5 ∧ f s 0 1 = 0 ∧ f s 1 1 = 0 ∧ stopOfLocus (pkgNum s) (f s 2 2) = some st ∧ f s 4 1 = 2 ∧ linkState s (.mesh st 1) ≠ 2) ((fun (s : State) => rputF (let s := rput (rputF (memSt s) (wsStop 0) 1 (6144 + MB_STATUS) 0 2 1) (wsStop 0) 1 6144 328450; let s := rsetB (rputF s (wsStop 0) 3 BOOT_STAT 0 4 5) (wsStop 0) 11 WA_LOCK 0 true; let s := rput s (wsStop 0) 1 6152 0; let s := rput s (wsStop 0) 1 6156 2; { s with ws := { s.ws with order := [3] } }) (wsStop 0) 1 6152 16 16 (stopLocus 0 ⟨0, 1, 3⟩)) s0)) &&
  decide ((fun (s : State) => asked s 0x0305 3 2 ∧ f s 0 1 = k.val ∧ f s 1 1 = 0xFF ∧ bit s.pkg.stackSet k.val = true ∧ (w = .secure ∨ ((stackChans k).all fun e => !domSecure s e.1 e.2.val) = true) ∧ stkState s k = 2) ((fun (s : State) => (let s := rput (rputF (rputF (memSt s) (stkStop 2) 6 STK_STAT 0 3 2) (wsStop 0) 1 (6144 + MB_STATUS) 0 2 1) (wsStop 0) 1 6144 131845; let s := rsetB (rputF s (wsStop 0) 3 BOOT_STAT 0 4 5) (wsStop 0) 11 WA_LOCK 0 true; let s := rput s (wsStop 0) 1 6152 65282; { s with ws := { s.ws with order := [3] } })) s0)) &&
  decide ((fun (s : State) => asked s 0x0305 3 2 ∧ f s 0 1 = k.val ∧ f s 1 1 = 5 ∧ bit s.pkg.stackSet k.val = true ∧ (w = .secure ∨ ((stackChans k).all fun e => !domSecure s e.1 e.2.val) = true) ∧ stkState s k = 2) ((fun (s : State) => (let s := rput (rputF (rputF (memSt s) (stkStop 2) 6 STK_STAT 0 3 2) (wsStop 0) 1 (6144 + MB_STATUS) 0 2 1) (wsStop 0) 1 6144 131845; let s := rsetB (rputF s (wsStop 0) 3 BOOT_STAT 0 4 5) (wsStop 0) 11 WA_LOCK 0 true; let s := rput s (wsStop 0) 1 6152 1282; { s with ws := { s.ws with order := [3] } })) s0)) &&
  decide ((fun (s : State) => asked s 0x0305 3 2 ∧ f s 0 1 = k.val ∧ f s 1 1 = 0xFF ∧ bit s.pkg.stackSet k.val = true ∧ (w = .secure ∨ ((stackChans k).all fun e => !domSecure s e.1 e.2.val) = true) ∧ stkState s k ≠ 2) ((fun (s : State) => (let s := rput (rputF (memSt s) (wsStop 0) 1 (6144 + MB_STATUS) 0 2 1) (wsStop 0) 1 6144 131845; let s := rsetB (rputF s (wsStop 0) 3 BOOT_STAT 0 4 5) (wsStop 0) 11 WA_LOCK 0 true; let s := rput s (wsStop 0) 1 6152 65282; { s with ws := { s.ws with order := [3] } })) s0)) &&
  decide ((fun (s : State) => asked s 0x0306 15 3 ∧ f s 0 1 = d.val ∧ f s 1 1 ≤ 31 ∧ 1 ≤ f s 2 1 ∧ f s 2 1 ≤ 7) ((fun (s : State) => (let s := rput (rputF (memSt s) (wsStop 0) 1 (6144 + MB_STATUS) 0 2 1) (wsStop 0) 1 6144 197382; let s := rsetB (rputF s (wsStop 0) 3 BOOT_STAT 0 4 5) (wsStop 0) 11 WA_LOCK 0 true; let s := rput s (wsStop 0) 1 6152 139009; { s with ws := { s.ws with order := [3] } })) s0)) &&
  decide ((fun (s : State) => asked s 0x0400 3 3 ∧ names s .tile ∧ (f s 2 1 < 1 ∨ 3 < f s 2 1)) ((fun (s : State) => (let s := (let s := rput (rputF (memSt s) (wsStop 0) 1 (6144 + MB_STATUS) 0 2 1) (wsStop 0) 1 6144 197632; let s := rsetB (rputF s (wsStop 0) 3 BOOT_STAT 0 4 5) (wsStop 0) 11 WA_LOCK 0 true; let s := rput s (wsStop 0) 1 6152 0; { s with ws := { s.ws with order := [3] } }); rputF s (wsStop 0) 1 6152 0 16 (stopLocus 0 ⟨0, 1, 3⟩))) s0)) &&
  decide ((fun (s : State) => asked s 0x0400 3 3 ∧ names s .tile ∧ f s 2 1 = 1 ∧ (w = .secure ∨ domSecure s st 0 = false ∧ domSecure s st 1 = false) ∧ ((tileHarts st).all fun h => decide ((tget s h).run = .stopped) && (tget s h).startAt.isNone) = true ∧ tileMode s st ≤ 1) ((fun (s : State) => (let s := (let s := rput (rputF (memSt s) (wsStop 0) 1 (6144 + MB_STATUS) 0 2 1) (wsStop 0) 1 6144 197632; let s := rsetB (rputF s (wsStop 0) 3 BOOT_STAT 0 4 5) (wsStop 0) 11 WA_LOCK 0 true; let s := rput s (wsStop 0) 1 6152 65536; { s with ws := { s.ws with order := [3] } }); rputF s (wsStop 0) 1 6152 0 16 (stopLocus 0 ⟨0, 1, 3⟩))) s0)) &&
  decide ((fun (s : State) => asked s 0x0400 3 3 ∧ names s .tile ∧ f s 2 1 = 1 ∧ (w = .secure ∨ domSecure s st 0 = false ∧ domSecure s st 1 = false) ∧ ((tileHarts st).all fun h => decide ((tget s h).run = .stopped) && (tget s h).startAt.isNone) = false) ((fun (s : State) => (let s := (let s := rput (rputF (tput (memSt s) (.drover ⟨0,1,3⟩ 0 0) { Thread.initial with run := .running }) (wsStop 0) 1 (6144 + MB_STATUS) 0 2 1) (wsStop 0) 1 6144 197632; let s := rsetB (rputF s (wsStop 0) 3 BOOT_STAT 0 4 5) (wsStop 0) 11 WA_LOCK 0 true; let s := rput s (wsStop 0) 1 6152 65536; { s with ws := { s.ws with order := [3] } }); rputF s (wsStop 0) 1 6152 0 16 (stopLocus 0 ⟨0, 1, 3⟩))) s0)) &&
  decide ((fun (s : State) => asked s 0x0401 15 2 ∧ names s .tile) ((fun (s : State) => (let s := (let s := rput (rputF (memSt s) (wsStop 0) 1 (6144 + MB_STATUS) 0 2 1) (wsStop 0) 1 6144 132097; let s := rsetB (rputF s (wsStop 0) 3 BOOT_STAT 0 4 5) (wsStop 0) 11 WA_LOCK 0 true; let s := rput s (wsStop 0) 1 6152 0; { s with ws := { s.ws with order := [3] } }); rputF s (wsStop 0) 1 6152 0 16 (stopLocus 0 ⟨0, 1, 3⟩))) s0)) &&
  decide ((fun (s : State) => asked s 0x0500 3 1 ∧ f s 0 1 = 0) ((fun (s : State) => (let s := rput (rputF (memSt s) (wsStop 0) 1 (6144 + MB_STATUS) 0 2 1) (wsStop 0) 1 6144 66816; let s := rsetB (rputF s (wsStop 0) 3 BOOT_STAT 0 4 5) (wsStop 0) 11 WA_LOCK 0 true; let s := rput s (wsStop 0) 1 6152 0; { s with ws := { s.ws with order := [3] } })) s0))) = true := by decide +kernel

theorem wit_MailboxCommands_4 : (
  let m : Fin 28 := 3
  let late : Bool := false
  let straps : BitVec 6 := 0
  let st : Stop := ⟨0, 1, 3⟩
  let d : Fin 2 := 1
  let k : Fin 6 := 2
  let n : Fin 16 := 0
  let c : Fin 2 := 0
  let ws := wsStop 0
  let f := fun (s : State) (i n : Nat) => pl (mbPayload s m.val) i n
  let w := mbWorld m.val
  let asked := fun (s : State) (op side len : Nat) => mbNext s m.val = true ∧ mbOpcode s m.val = op ∧ side &&& mbSide m.val ≠ 0 ∧ getF (mb s m.val 0) 16 16 = len ∧ mbBusyPlace s m.val = false
  let ends := fun (s : State) (code : Nat) (x : List Byte) (bg : Bool) => { s with ws := { s.ws with run := mapSet (fun _ => none) s.ws.run m.val (some ⟨code, x, bg, tbNow s⟩) } }
  let ok := fun (s : State) (x : List Byte) => ends s 0 x false
  let later := fun (s : State) => ends s 0 [] true
  let bad := fun (s : State) (code : Nat) => ends s code [] false
  let names := fun (s : State) (kd : Kind) => namedStop s (f s 0 2) kd = some st
  let flash := fun (s : State) (g : Flash) => { s with ws := { s.ws with flash := g } }
  let repaired := fun (s : State) (x : Nat × Nat × Nat) => flash s { s.ws.flash with repairs := s.ws.flash.repairs ++ [x] }
  let stacked := fun (s : State) => bit s.pkg.stackSet (chanOf st c).1 = true
  let sec := fun (s : State) => rbit s ws 11 WA_OR_SEC n.val
  let orow := fun (s : State) => f s 0 1 = n.val ∧ (w = .secure ∨ sec s = false)
  let s0 : State := liveSt ([⟨0, 1, 3⟩, ⟨0, 0, 8⟩, wsStop 0, wsStop 1] ++ (List.finRange 12).map portStop ++ allStops.filter (fun st => decide (stopKind st = .memory)))
  decide ((fun (s : State) => asked s 0x0500 3 1 ∧ f s 0 1 = 1) ((fun (s : State) => (let s := rput (rputF (memSt s) (wsStop 0) 1 (6144 + MB_STATUS) 0 2 1) (wsStop 0) 1 6144 66816; let s := rsetB (rputF s (wsStop 0) 3 BOOT_STAT 0 4 5) (wsStop 0) 11 WA_LOCK 0 true; let s := rput s (wsStop 0) 1 6152 1; { s with ws := { s.ws with order := [3] } })) s0)) &&
  decide ((fun (s : State) => asked s 0x0502 15 1 ∧ (∀ j : Fin 12, portProto s j.val ≠ 1)) ((fun (s : State) => (let s := rput (rputF (memSt s) (wsStop 0) 1 (6144 + MB_STATUS) 0 2 1) (wsStop 0) 1 6144 66818; let s := rsetB (rputF s (wsStop 0) 3 BOOT_STAT 0 4 5) (wsStop 0) 11 WA_LOCK 0 true; let s := rput s (wsStop 0) 1 6152 0; { s with ws := { s.ws with order := [3] } })) s0)) &&
  decide ((fun (s : State) => asked s 0x0600 3 76 ∧ 16 ≤ f s 0 1) ((fun (s : State) => (let s := rput (rputF (memSt s) (wsStop 0) 1 (6144 + MB_STATUS) 0 2 1) (wsStop 0) 1 6144 4982272; let s := rsetB (rputF s (wsStop 0) 3 BOOT_STAT 0 4 5) (wsStop 0) 11 WA_LOCK 0 true; let s := rput s (wsStop 0) 1 6152 16; let s := rput s (wsStop 0) 1 6156 0; let s := rput s (wsStop 0) 1 6160 0; let s := rput s (wsStop 0) 1 6164 0; let s := rput s (wsStop 0) 1 6168 0; let s := rput s (wsStop 0) 1 6172 0; let s := rput s (wsStop 0) 1 6176 0; let s := rput s (wsStop 0) 1 6180 0; let s := rput s (wsStop 0) 1 6184 0; let s := rput s (wsStop 0) 1 6188 0; let s := rput s (wsStop 0) 1 6192 0; let s := rput s (wsStop 0) 1 6196 0; let s := rput s (wsStop 0) 1 6200 0; let s := rput s (wsStop 0) 1 6204 0; let s := rput s (wsStop 0) 1 6208 0; let s := rput s (wsStop 0) 1 6212 0; let s := rput s (wsStop 0) 1 6216 0; let s := rput s (wsStop 0) 1 6220 0; let s := rput s (wsStop 0) 1 6224 0; { s with ws := { s.ws with order := [3] } })) s0)) &&
  decide ((fun (s : State) => asked s 0x0600 3 76 ∧ f s 0 1 = n.val ∧ (3 < f s 1 1 ∨ f s 2 2 ≠ 0 ∨ f s 8 4 % 8 ≠ 0 ∨ 0x80000 < f s 4 4 + f s 8 4 ∨ 2 ^ 52 ≤ f s 12 8)) ((fun (s : State) => (let s := rput (rputF (memSt s) (wsStop 0) 1 (6144 + MB_STATUS) 0 2 1) (wsStop 0) 1 6144 4982272; let s := rsetB (rputF s (wsStop 0) 3 BOOT_STAT 0 4 5) (wsStop 0) 11 WA_LOCK 0 true; let s := rput s (wsStop 0) 1 6152 0; let s := rput s (wsStop 0) 1 6156 0; let s := rput s (wsStop 0) 1 6160 7; let s := rput s (wsStop 0) 1 6164 0; let s := rput s (wsStop 0) 1 6168 0; let s := rput s (wsStop 0) 1 6172 0; let s := rput s (wsStop 0) 1 6176 0; let s := rput s (wsStop 0) 1 6180 0; let s := rput s (wsStop 0) 1 6184 0; let s := rput s (wsStop 0) 1 6188 0; let s := rput s (wsStop 0) 1 6192 0; let s := rput s (wsStop 0) 1 6196 0; let s := rput s (wsStop 0) 1 6200 0; let s := rput s (wsStop 0) 1 6204 0; let s := rput s (wsStop 0) 1 6208 0; let s := rput s (wsStop 0) 1 6212 0; let s := rput s (wsStop 0) 1 6216 0; let s := rput s (wsStop 0) 1 6220 0; let s := rput s (wsStop 0) 1 6224 0; { s with ws := { s.ws with order := [3] } })) s0)) &&
  decide ((fun (s : State) => asked s 0x0601 3 1 ∧ orow s) ((fun (s : State) => (let s := rput (rputF (tput (memSt s) (.outrider 0) { Thread.initial with run := .running }) (wsStop 0) 1 (6144 + MB_STATUS) 0 2 1) (wsStop 0) 1 6144 67073; let s := rsetB (rputF s (wsStop 0) 3 BOOT_STAT 0 4 5) (wsStop 0) 11 WA_LOCK 0 true; let s := rput s (wsStop 0) 1 6152 0; { s with ws := { s.ws with order := [3] } })) s0)) &&
  decide ((fun (s : State) => asked s 0x0601 3 1 ∧ f s 0 1 = n.val ∧ w = .normal ∧ sec s = true) ((fun (s : State) => (let s := rput (rputF (rput (memSt s) (wsStop 0) 11 WA_OR_SEC 1) (wsStop 0) 1 (6144 + MB_STATUS) 0 2 1) (wsStop 0) 1 6144 67073; let s := rsetB (rputF s (wsStop 0) 3 BOOT_STAT 0 4 5) (wsStop 0) 11 WA_LOCK 0 true; let s := rput s (wsStop 0) 1 6152 0; { s with ws := { s.ws with order := [3] } })) s0)) &&
  decide ((fun (s : State) => asked s 0x0602 15 1 ∧ 16 ≤ f s 0 1) ((fun (s : State) => (let s := rput (rputF (memSt s) (wsStop 0) 1 (6144 + MB_STATUS) 0 2 1) (wsStop 0) 1 6144 67074; let s := rsetB (rputF s (wsStop 0) 3 BOOT_STAT 0 4 5) (wsStop 0) 11 WA_LOCK 0 true; let s := rput s (wsStop 0) 1 6152 16; { s with ws := { s.ws with order := [3] } })) s0)) &&
  decide ((fun (s : State) => asked s 0x0901 15 0) ((fun (s : State) => (let s := rput (rputF (memSt s) (wsStop 0) 1 (6144 + MB_STATUS) 0 2 1) (wsStop 0) 1 6144 2305; let s := rsetB (rputF s (wsStop 0) 3 BOOT_STAT 0 4 5) (wsStop 0) 11 WA_LOCK 0 true; { s with ws := { s.ws with order := [3] } })) s0)) &&
  decide ((fun (s : State) => asked s 0x0902 15 4 ∧ s.ws.events = []) ((fun (s : State) => (let s := rput (rputF ({ memSt s with ws := { s.ws with events := [] } }) (wsStop 0) 1 (6144 + MB_STATUS) 0 2 1) (wsStop 0) 1 6144 264450; let s := rsetB (rputF s (wsStop 0) 3 BOOT_STAT 0 4 5) (wsStop 0) 11 WA_LOCK 0 true; let s := rput s (wsStop 0) 1 6152 0; { s with ws := { s.ws with order := [3] } })) s0)) &&
  decide ((fun (s : State) => asked s 0x0902 15 4) ((fun (s : State) => (let s := rput (rputF (memSt s) (wsStop 0) 1 (6144 + MB_STATUS) 0 2 1) (wsStop 0) 1 6144 264450; let s := rsetB (rputF s (wsStop 0) 3 BOOT_STAT 0 4 5) (wsStop 0) 11 WA_LOCK 0 true; let s := rput s (wsStop 0) 1 6152 0; { s with ws := { s.ws with order := [3] } })) s0)) &&
  decide ((fun (s : State) => asked s 0x0100 15 0) ((fun (s : State) => (let s := rput (rputF (memSt s) (wsStop 0) 1 (6144 + MB_STATUS) 0 2 1) (wsStop 0) 1 6144 256; let s := rsetB (rputF s (wsStop 0) 3 BOOT_STAT 0 4 5) (wsStop 0) 11 WA_LOCK 0 true; { s with ws := { s.ws with order := [3] } })) s0)) &&
  decide ((fun (s : State) => mapGet (fun _ => none) s.ws.run m.val = none ∧ s.ws.reset = some (0, 0, 0) ∧ pkgState s ≠ 7) ((fun (s : State) => { memSt s with ws := { s.ws with reset := some (0, 0, 0) } }) s0))) = true := by decide +kernel

theorem wit_MailboxCommands_5 : (
  let m : Fin 28 := 3
  let late : Bool := false
  let straps : BitVec 6 := 0
  let st : Stop := ⟨0, 1, 3⟩
  let d : Fin 2 := 1
  let k : Fin 6 := 2
  let n : Fin 16 := 0
  let c : Fin 2 := 0
  let ws := wsStop 0
  let f := fun (s : State) (i n : Nat) => pl (mbPayload s m.val) i n
  let w := mbWorld m.val
  let asked := fun (s : State) (op side len : Nat) => mbNext s m.val = true ∧ mbOpcode s m.val = op ∧ side &&& mbSide m.val ≠ 0 ∧ getF (mb s m.val 0) 16 16 = len ∧ mbBusyPlace s m.val = false
  let ends := fun (s : State) (code : Nat) (x : List Byte) (bg : Bool) => { s with ws := { s.ws with run := mapSet (fun _ => none) s.ws.run m.val (some ⟨code, x, bg, tbNow s⟩) } }
  let ok := fun (s : State) (x : List Byte) => ends s 0 x false
  let later := fun (s : State) => ends s 0 [] true
  let bad := fun (s : State) (code : Nat) => ends s code [] false
  let names := fun (s : State) (kd : Kind) => namedStop s (f s 0 2) kd = some st
  let flash := fun (s : State) (g : Flash) => { s with ws := { s.ws with flash := g } }
  let repaired := fun (s : State) (x : Nat × Nat × Nat) => flash s { s.ws.flash with repairs := s.ws.flash.repairs ++ [x] }
  let stacked := fun (s : State) => bit s.pkg.stackSet (chanOf st c).1 = true
  let sec := fun (s : State) => rbit s ws 11 WA_OR_SEC n.val
  let orow := fun (s : State) => f s 0 1 = n.val ∧ (w = .secure ∨ sec s = false)
  let s0 : State := liveSt ([⟨0, 1, 3⟩, ⟨0, 0, 8⟩, wsStop 0, wsStop 1] ++ (List.finRange 12).map portStop ++ allStops.filter (fun st => decide (stopKind st = .memory)))
  decide ((fun (s : State) => mapGet (fun _ => none) s.ws.run m.val = none ∧ s.ws.reset = some (1, 0, 0) ∧ pkgState s ≠ 7) ((fun (s : State) => { memSt s with ws := { s.ws with reset := some (1, 0, 0) } }) s0)) &&
  decide ((fun (s : State) => asked s 0x0602 15 1 ∧ orow s) ((fun (s : State) => (let s := rput (rputF (memSt s) (wsStop 0) 1 (6144 + MB_STATUS) 0 2 1) (wsStop 0) 1 6144 67074; let s := rsetB (rputF s (wsStop 0) 3 BOOT_STAT 0 4 5) (wsStop 0) 11 WA_LOCK 0 true; let s := rput s (wsStop 0) 1 6152 0; { s with ws := { s.ws with order := [3] } })) s0)) &&
  decide ((fun (s : State) => asked s 0x0801 15 240) ((fun (s : State) => (let s := rput (rputF (memSt s) (wsStop 0) 1 (6144 + MB_STATUS) 0 2 1) (wsStop 0) 1 6144 15730689; let s := rsetB (rputF s (wsStop 0) 3 BOOT_STAT 0 4 5) (wsStop 0) 11 WA_LOCK 0 true; let s := rput s (wsStop 0) 1 6152 0; let s := rput s (wsStop 0) 1 6156 0; let s := rput s (wsStop 0) 1 6160 0; let s := rput s (wsStop 0) 1 6164 0; let s := rput s (wsStop 0) 1 6168 0; let s := rput s (wsStop 0) 1 6172 0; let s := rput s (wsStop 0) 1 6176 0; let s := rput s (wsStop 0) 1 6180 0; let s := rput s (wsStop 0) 1 6184 0; let s := rput s (wsStop 0) 1 6188 0; let s := rput s (wsStop 0) 1 6192 0; let s := rput s (wsStop 0) 1 6196 0; let s := rput s (wsStop 0) 1 6200 0; let s := rput s (wsStop 0) 1 6204 0; let s := rput s (wsStop 0) 1 6208 0; let s := rput s (wsStop 0) 1 6212 0; let s := rput s (wsStop 0) 1 6216 0; let s := rput s (wsStop 0) 1 6220 0; let s := rput s (wsStop 0) 1 6224 0; let s := rput s (wsStop 0) 1 6228 0; let s := rput s (wsStop 0) 1 6232 0; let s := rput s (wsStop 0) 1 6236 0; let s := rput s (wsStop 0) 1 6240 0; let s := rput s (wsStop 0) 1 6244 0; let s := rput s (wsStop 0) 1 6248 0; let s := rput s (wsStop 0) 1 6252 0; let s := rput s (wsStop 0) 1 6256 0; let s := rput s (wsStop 0) 1 6260 0; let s := rput s (wsStop 0) 1 6264 0; let s := rput s (wsStop 0) 1 6268 0; let s := rput s (wsStop 0) 1 6272 0; let s := rput s (wsStop 0) 1 6276 0; let s := rput s (wsStop 0) 1 6280 0; let s := rput s (wsStop 0) 1 6284 0; let s := rput s (wsStop 0) 1 6288 0; let s := rput s (wsStop 0) 1 6292 0; let s := rput s (wsStop 0) 1 6296 0; let s := rput s (wsStop 0) 1 6300 0; let s := rput s (wsStop 0) 1 6304 0; let s := rput s (wsStop 0) 1 6308 0; let s := rput s (wsStop 0) 1 6312 0; let s := rput s (wsStop 0) 1 6316 0; let s := rput s (wsStop 0) 1 6320 0; let s := rput s (wsStop 0) 1 6324 0; let s := rput s (wsStop 0) 1 6328 0; let s := rput s (wsStop 0) 1 6332 0; let s := rput s (wsStop 0) 1 6336 0; let s := rput s (wsStop 0) 1 6340 0; let s := rput s (wsStop 0) 1 6344 0; let s := rput s (wsStop 0) 1 6348 0; let s := rput s (wsStop 0) 1 6352 0; let s := rput s (wsStop 0) 1 6356 0; let s := rput s (wsStop 0) 1 6360 0; let s := rput s (wsStop 0) 1 6364 0; let s := rput s (wsStop 0) 1 6368 0; let s := rput s (wsStop 0) 1 6372 0; let s := rput s (wsStop 0) 1 6376 0; let s := rput s (wsStop 0) 1 6380 0; let s := rput s (wsStop 0) 1 6384 0; let s := rput s (wsStop 0) 1 6388 0; { s with ws := { s.ws with order := [3] } })) s0)) &&
  decide ((fun (s : State) => asked s 0x0802 15 0) ((fun (s : State) => (let s := rput (rputF (memSt s) (wsStop 0) 1 (6144 + MB_STATUS) 0 2 1) (wsStop 0) 1 6144 2050; let s := rsetB (rputF s (wsStop 0) 3 BOOT_STAT 0 4 5) (wsStop 0) 11 WA_LOCK 0 true; { s with ws := { s.ws with order := [3] } })) s0)) &&
  decide ((fun (s : State) => asked s 0x0900 15 0) ((fun (s : State) => (let s := rput (rputF (memSt s) (wsStop 0) 1 (6144 + MB_STATUS) 0 2 1) (wsStop 0) 1 6144 2304; let s := rsetB (rputF s (wsStop 0) 3 BOOT_STAT 0 4 5) (wsStop 0) 11 WA_LOCK 0 true; { s with ws := { s.ws with order := [3] } })) s0)) &&
  decide ((fun (s : State) => mbNext s m.val = true ∧ mbOpcode s m.val = 0x0307 ∧ 2 &&& mbSide m.val = 0) ((fun (s : State) => (let s := rput (rputF (memSt s) (wsStop 0) 1 (6144 + MB_STATUS) 0 2 1) (wsStop 0) 1 6144 66311; let s := rsetB (rputF s (wsStop 0) 3 BOOT_STAT 0 4 5) (wsStop 0) 11 WA_LOCK 0 true; let s := rput s (wsStop 0) 1 6152 1; { s with ws := { s.ws with order := [3] } })) s0)) &&
  decide ((fun (s : State) => mbNext s m.val = true ∧ mbOpcode s m.val = 0x0102 ∧ 15 &&& mbSide m.val ≠ 0 ∧ getF (mb s m.val 0) 16 16 ≠ 2) ((fun (s : State) => (let s := rput (rputF (memSt s) (wsStop 0) 1 (6144 + MB_STATUS) 0 2 1) (wsStop 0) 1 6144 65794; let s := rsetB (rputF s (wsStop 0) 3 BOOT_STAT 0 4 5) (wsStop 0) 11 WA_LOCK 0 true; let s := rput s (wsStop 0) 1 6152 1; { s with ws := { s.ws with order := [3] } })) s0))) = true := by decide +kernel

theorem wit_MailboxCommands_6 : (
  let m : Fin 28 := 3
  let late : Bool := false
  let straps : BitVec 6 := 0
  let st : Stop := ⟨0, 1, 3⟩
  let d : Fin 2 := 1
  let k : Fin 6 := 2
  let n : Fin 16 := 0
  let c : Fin 2 := 0
  let late : Bool := true
  let ws := wsStop 0
  let f := fun (s : State) (i n : Nat) => pl (mbPayload s m.val) i n
  let w := mbWorld m.val
  let asked := fun (s : State) (op side len : Nat) => mbNext s m.val = true ∧ mbOpcode s m.val = op ∧ side &&& mbSide m.val ≠ 0 ∧ getF (mb s m.val 0) 16 16 = len ∧ mbBusyPlace s m.val = false
  let ends := fun (s : State) (code : Nat) (x : List Byte) (bg : Bool) => { s with ws := { s.ws with run := mapSet (fun _ => none) s.ws.run m.val (some ⟨code, x, bg, tbNow s⟩) } }
  let ok := fun (s : State) (x : List Byte) => ends s 0 x false
  let later := fun (s : State) => ends s 0 [] true
  let bad := fun (s : State) (code : Nat) => ends s code [] false
  let names := fun (s : State) (kd : Kind) => namedStop s (f s 0 2) kd = some st
  let flash := fun (s : State) (g : Flash) => { s with ws := { s.ws with flash := g } }
  let repaired := fun (s : State) (x : Nat × Nat × Nat) => flash s { s.ws.flash with repairs := s.ws.flash.repairs ++ [x] }
  let stacked := fun (s : State) => bit s.pkg.stackSet (chanOf st c).1 = true
  let sec := fun (s : State) => rbit s ws 11 WA_OR_SEC n.val
  let orow := fun (s : State) => f s 0 1 = n.val ∧ (w = .secure ∨ sec s = false)
  let s0 : State := liveSt ([⟨0, 1, 3⟩, ⟨0, 0, 8⟩, wsStop 0, wsStop 1] ++ (List.finRange 12).map portStop ++ allStops.filter (fun st => decide (stopKind st = .memory)))
  decide ((fun (s : State) => asked s 0x0201 3 2 ∧ mapGet (fun _ => none) s.ws.run m.val = none ∧ f s 0 2 ≤ 1000 ∧ (mayCamp s w = false ∨ otherClassR s m.val = true) ∧ (late = true ∨ f s 0 2 = 0)) ((fun (s : State) => (let s := rput (rputF (tput (memSt s) (.drover ⟨0,1,3⟩ 0 0) { Thread.initial with run := .running }) (wsStop 0) 1 (6144 + MB_STATUS) 0 2 1) (wsStop 0) 1 6144 131585; let s := rsetB (rputF s (wsStop 0) 3 BOOT_STAT 0 4 5) (wsStop 0) 11 WA_LOCK 0 true; let s := rput s (wsStop 0) 1 6152 10; { s with ws := { s.ws with order := [3] } })) s0)) &&
  decide ((fun (s : State) => asked s 0x0202 3 2 ∧ mapGet (fun _ => none) s.ws.run m.val = none ∧ f s 0 2 ≤ 1000 ∧ (mayDormant s w = false ∨ otherClassR s m.val = true) ∧ (late = true ∨ f s 0 2 = 0)) ((fun (s : State) => (let s := rput (rputF (tput (memSt s) (.drover ⟨0,1,3⟩ 0 0) { Thread.initial with run := .running }) (wsStop 0) 1 (6144 + MB_STATUS) 0 2 1) (wsStop 0) 1 6144 131586; let s := rsetB (rputF s (wsStop 0) 3 BOOT_STAT 0 4 5) (wsStop 0) 11 WA_LOCK 0 true; let s := rput s (wsStop 0) 1 6152 10; { s with ws := { s.ws with order := [3] } })) s0))) = true := by decide +kernel

theorem wit_MailboxCommands_7 : (
  let m : Fin 28 := 3
  let late : Bool := false
  let straps : BitVec 6 := 0
  let st : Stop := ⟨0, 1, 3⟩
  let d : Fin 2 := 1
  let k : Fin 6 := 2
  let n : Fin 16 := 0
  let c : Fin 2 := 0
  let m : Fin 28 := 5
  let ws := wsStop 0
  let f := fun (s : State) (i n : Nat) => pl (mbPayload s m.val) i n
  let w := mbWorld m.val
  let asked := fun (s : State) (op side len : Nat) => mbNext s m.val = true ∧ mbOpcode s m.val = op ∧ side &&& mbSide m.val ≠ 0 ∧ getF (mb s m.val 0) 16 16 = len ∧ mbBusyPlace s m.val = false
  let ends := fun (s : State) (code : Nat) (x : List Byte) (bg : Bool) => { s with ws := { s.ws with run := mapSet (fun _ => none) s.ws.run m.val (some ⟨code, x, bg, tbNow s⟩) } }
  let ok := fun (s : State) (x : List Byte) => ends s 0 x false
  let later := fun (s : State) => ends s 0 [] true
  let bad := fun (s : State) (code : Nat) => ends s code [] false
  let names := fun (s : State) (kd : Kind) => namedStop s (f s 0 2) kd = some st
  let flash := fun (s : State) (g : Flash) => { s with ws := { s.ws with flash := g } }
  let repaired := fun (s : State) (x : Nat × Nat × Nat) => flash s { s.ws.flash with repairs := s.ws.flash.repairs ++ [x] }
  let stacked := fun (s : State) => bit s.pkg.stackSet (chanOf st c).1 = true
  let sec := fun (s : State) => rbit s ws 11 WA_OR_SEC n.val
  let orow := fun (s : State) => f s 0 1 = n.val ∧ (w = .secure ∨ sec s = false)
  let s0 : State := liveSt ([⟨0, 1, 3⟩, ⟨0, 0, 8⟩, wsStop 0, wsStop 1] ++ (List.finRange 12).map portStop ++ allStops.filter (fun st => decide (stopKind st = .memory)))
  decide ((fun (s : State) => asked s 0x0204 11 5 ∧ f s 0 1 < 2 ∧ f s 1 1 = 0 ∧ mbSide m.val &&& 10 ≠ 0) ((fun (s : State) => (let s := rput (rputF (memSt s) (wsStop 0) 1 (10240 + MB_STATUS) 0 2 1) (wsStop 0) 1 10240 328196; let s := rsetB (rputF s (wsStop 0) 3 BOOT_STAT 0 4 5) (wsStop 0) 11 WA_LOCK 0 true; let s := rput s (wsStop 0) 1 10248 1; let s := rput s (wsStop 0) 1 10252 0; { s with ws := { s.ws with order := [5] } })) s0)) &&
  decide ((fun (s : State) => asked s 0x0307 2 1 ∧ f s 0 1 = d.val) ((fun (s : State) => (let s := rput (rputF (memSt s) (wsStop 0) 1 (10240 + MB_STATUS) 0 2 1) (wsStop 0) 1 10240 66311; let s := rsetB (rputF s (wsStop 0) 3 BOOT_STAT 0 4 5) (wsStop 0) 11 WA_LOCK 0 true; let s := rput s (wsStop 0) 1 10248 1; { s with ws := { s.ws with order := [5] } })) s0)) &&
  decide ((fun (s : State) => asked s 0x0501 2 24 ∧ (11 < f s 0 1 ∨ 3 < f s 1 1 ∨ 5 < f s 2 1 ∨ 1 < f s 3 1)) ((fun (s : State) => (let s := rput (rputF (memSt s) (wsStop 0) 1 (10240 + MB_STATUS) 0 2 1) (wsStop 0) 1 10240 1574145; let s := rsetB (rputF s (wsStop 0) 3 BOOT_STAT 0 4 5) (wsStop 0) 11 WA_LOCK 0 true; let s := rput s (wsStop 0) 1 10248 12; let s := rput s (wsStop 0) 1 10252 0; let s := rput s (wsStop 0) 1 10256 0; let s := rput s (wsStop 0) 1 10260 0; let s := rput s (wsStop 0) 1 10264 0; let s := rput s (wsStop 0) 1 10268 0; { s with ws := { s.ws with order := [5] } })) s0)) &&
  decide ((fun (s : State) => asked s 0x0501 2 24 ∧ f s 0 1 ≤ 11 ∧ f s 1 1 ≤ 3 ∧ f s 2 1 ≤ 5 ∧ f s 3 1 ≤ 1 ∧ windowsOk ((s.ws.flash.cxl.filter fun g => decide (g.1 ≠ f s 0 1 * 4 + f s 1 1)) ++ [(f s 0 1 * 4 + f s 1 1, f s 2 1, decide (f s 3 1 = 1), f s 4 8, f s 12 4, f s 16 8)]) = true) ((fun (s : State) => (let s := rput (rputF (memSt s) (wsStop 0) 1 (10240 + MB_STATUS) 0 2 1) (wsStop 0) 1 10240 1574145; let s := rsetB (rputF s (wsStop 0) 3 BOOT_STAT 0 4 5) (wsStop 0) 11 WA_LOCK 0 true; let s := rput s (wsStop 0) 1 10248 16974082; let s := rput s (wsStop 0) 1 10252 0; let s := rput s (wsStop 0) 1 10256 4096; let s := rput s (wsStop 0) 1 10260 4; let s := rput s (wsStop 0) 1 10264 0; let s := rput s (wsStop 0) 1 10268 0; { s with ws := { s.ws with order := [5] } })) s0)) &&
  decide ((fun (s : State) => asked s 0x0700 10 8 ∧ f s 1 3 = 0 ∧ f s 0 1 = 0 ∧ 0 < f s 4 4 ∧ f s 4 4 ≤ 0x800000 ∧ s.ws.fwu.stage = 0) ((fun (s : State) => (let s := rput (rputF ({ memSt s with ws := { s.ws with flash := { s.ws.flash with slotB := [1] } } }) (wsStop 0) 1 (10240 + MB_STATUS) 0 2 1) (wsStop 0) 1 10240 526080; let s := rsetB (rputF s (wsStop 0) 3 BOOT_STAT 0 4 5) (wsStop 0) 11 WA_LOCK 0 true; let s := rput s (wsStop 0) 1 10248 0; let s := rput s (wsStop 0) 1 10252 64; { s with ws := { s.ws with order := [5] } })) s0)) &&
  decide ((fun (s : State) => asked s 0x0700 10 8 ∧ f s 1 3 = 0 ∧ f s 0 1 = 1 ∧ 0 < f s 4 4 ∧ f s 4 4 ≤ 0x10000 ∧ s.ws.fwu.stage = 0) ((fun (s : State) => (let s := rput (rputF (memSt s) (wsStop 0) 1 (10240 + MB_STATUS) 0 2 1) (wsStop 0) 1 10240 526080; let s := rsetB (rputF s (wsStop 0) 3 BOOT_STAT 0 4 5) (wsStop 0) 11 WA_LOCK 0 true; let s := rput s (wsStop 0) 1 10248 1; let s := rput s (wsStop 0) 1 10252 64; { s with ws := { s.ws with order := [5] } })) s0)) &&
  decide ((fun (s : State) => asked s 0x0700 10 8 ∧ f s 1 3 = 0 ∧ f s 0 1 ≤ 1 ∧ 0 < f s 4 4 ∧ f s 4 4 ≤ 0x10000 ∧ s.ws.fwu.stage ≠ 0) ((fun (s : State) => (let s := rput (rputF ({ memSt s with ws := { s.ws with fwu := ⟨1,0,5,[]⟩ } }) (wsStop 0) 1 (10240 + MB_STATUS) 0 2 1) (wsStop 0) 1 10240 526080; let s := rsetB (rputF s (wsStop 0) 3 BOOT_STAT 0 4 5) (wsStop 0) 11 WA_LOCK 0 true; let s := rput s (wsStop 0) 1 10248 1; let s := rput s (wsStop 0) 1 10252 64; { s with ws := { s.ws with order := [5] } })) s0)) &&
  decide ((fun (s : State) => mbNext s m.val = true ∧ mbOpcode s m.val = 0x0701 ∧ 10 &&& mbSide m.val ≠ 0 ∧ getF (mb s m.val 0) 16 16 ≤ 248 ∧ mbBusyPlace s m.val = false ∧ 8 ≤ (mbPayload s m.val).length ∧ (mbPayload s m.val).length = 8 + f s 4 2 ∧ f s 4 2 ≤ 240 ∧ f s 6 2 = 0 ∧ s.ws.fwu.stage = 1 ∧ s.ws.fwu.comp = 1 ∧ f s 0 4 = s.ws.fwu.data.length ∧ f s 0 4 + f s 4 2 ≤ s.ws.fwu.len) ((fun (s : State) => (let s := rput (rputF ({ memSt s with ws := { s.ws with fwu := ⟨1,1,5,[9]⟩ } }) (wsStop 0) 1 (10240 + MB_STATUS) 0 2 1) (wsStop 0) 1 10240 657153; let s := rsetB (rputF s (wsStop 0) 3 BOOT_STAT 0 4 5) (wsStop 0) 11 WA_LOCK 0 true; let s := rput s (wsStop 0) 1 10248 1; let s := rput s (wsStop 0) 1 10252 2; let s := rput s (wsStop 0) 1 10256 2055; { s with ws := { s.ws with order := [5] } })) s0)) &&
  decide ((fun (s : State) => asked s 0x0702 10 0 ∧ (s.ws.fwu.stage ≠ 1 ∨ s.ws.fwu.data.length ≠ s.ws.fwu.len)) ((fun (s : State) => (let s := rput (rputF (memSt s) (wsStop 0) 1 (10240 + MB_STATUS) 0 2 1) (wsStop 0) 1 10240 1794; let s := rsetB (rputF s (wsStop 0) 3 BOOT_STAT 0 4 5) (wsStop 0) 11 WA_LOCK 0 true; { s with ws := { s.ws with order := [5] } })) s0)) &&
  decide ((fun (s : State) => asked s 0x0703 10 1 ∧ f s 0 1 = 0 ∧ s.ws.fwu.stage = 2 ∧ s.ws.fwu.comp = 0) ((fun (s : State) => (let s := rput (rputF ({ memSt s with ws := { s.ws with fwu := ⟨2,0,5,[9]⟩ } }) (wsStop 0) 1 (10240 + MB_STATUS) 0 2 1) (wsStop 0) 1 10240 67331; let s := rsetB (rputF s (wsStop 0) 3 BOOT_STAT 0 4 5) (wsStop 0) 11 WA_LOCK 0 true; let s := rput s (wsStop 0) 1 10248 0; { s with ws := { s.ws with order := [5] } })) s0)) &&
  decide ((fun (s : State) => asked s 0x0703 10 1 ∧ f s 0 1 ≤ 1 ∧ (f s 0 1 = 0 ∨ s.ws.fwu.comp ≠ 1) ∧ s.ws.fwu.stage ≠ 2) ((fun (s : State) => (let s := rput (rputF (memSt s) (wsStop 0) 1 (10240 + MB_STATUS) 0 2 1) (wsStop 0) 1 10240 67331; let s := rsetB (rputF s (wsStop 0) 3 BOOT_STAT 0 4 5) (wsStop 0) 11 WA_LOCK 0 true; let s := rput s (wsStop 0) 1 10248 0; { s with ws := { s.ws with order := [5] } })) s0)) &&
  decide ((fun (s : State) => asked s 0x0703 10 1 ∧ f s 0 1 = 1 ∧ s.ws.fwu.comp = 0 ∧ s.ws.fwu.stage = 2 ∧ rfld s ws 3 WS_STAT 1 2 ≠ 2) ((fun (s : State) => (let s := rput (rputF ({ memSt s with ws := { s.ws with fwu := ⟨2,0,5,[9]⟩ } }) (wsStop 0) 1 (10240 + MB_STATUS) 0 2 1) (wsStop 0) 1 10240 67331; let s := rsetB (rputF s (wsStop 0) 3 BOOT_STAT 0 4 5) (wsStop 0) 11 WA_LOCK 0 true; let s := rput s (wsStop 0) 1 10248 1; { s with ws := { s.ws with order := [5] } })) s0))) = true := by decide +kernel

theorem wit_MailboxCommands_8 : (
  let m : Fin 28 := 3
  let late : Bool := false
  let straps : BitVec 6 := 0
  let st : Stop := ⟨0, 1, 3⟩
  let d : Fin 2 := 1
  let k : Fin 6 := 2
  let n : Fin 16 := 0
  let c : Fin 2 := 0
  let m : Fin 28 := 5
  let ws := wsStop 0
  let f := fun (s : State) (i n : Nat) => pl (mbPayload s m.val) i n
  let w := mbWorld m.val
  let asked := fun (s : State) (op side len : Nat) => mbNext s m.val = true ∧ mbOpcode s m.val = op ∧ side &&& mbSide m.val ≠ 0 ∧ getF (mb s m.val 0) 16 16 = len ∧ mbBusyPlace s m.val = false
  let ends := fun (s : State) (code : Nat) (x : List Byte) (bg : Bool) => { s with ws := { s.ws with run := mapSet (fun _ => none) s.ws.run m.val (some ⟨code, x, bg, tbNow s⟩) } }
  let ok := fun (s : State) (x : List Byte) => ends s 0 x false
  let later := fun (s : State) => ends s 0 [] true
  let bad := fun (s : State) (code : Nat) => ends s code [] false
  let names := fun (s : State) (kd : Kind) => namedStop s (f s 0 2) kd = some st
  let flash := fun (s : State) (g : Flash) => { s with ws := { s.ws with flash := g } }
  let repaired := fun (s : State) (x : Nat × Nat × Nat) => flash s { s.ws.flash with repairs := s.ws.flash.repairs ++ [x] }
  let stacked := fun (s : State) => bit s.pkg.stackSet (chanOf st c).1 = true
  let sec := fun (s : State) => rbit s ws 11 WA_OR_SEC n.val
  let orow := fun (s : State) => f s 0 1 = n.val ∧ (w = .secure ∨ sec s = false)
  let s0 : State := liveSt ([⟨0, 1, 3⟩, ⟨0, 0, 8⟩, wsStop 0, wsStop 1] ++ (List.finRange 12).map portStop ++ allStops.filter (fun st => decide (stopKind st = .memory)))
  decide ((fun (s : State) => asked s 0x0704 10 0) ((fun (s : State) => (let s := rput (rputF ({ memSt s with ws := { s.ws with fwu := ⟨2,0,5,[9]⟩ } }) (wsStop 0) 1 (10240 + MB_STATUS) 0 2 1) (wsStop 0) 1 10240 1796; let s := rsetB (rputF s (wsStop 0) 3 BOOT_STAT 0 4 5) (wsStop 0) 11 WA_LOCK 0 true; { s with ws := { s.ws with order := [5] } })) s0)) &&
  decide ((fun (s : State) => asked s 0x0705 2 0) ((fun (s : State) => (let s := rput (rputF (memSt s) (wsStop 0) 1 (10240 + MB_STATUS) 0 2 1) (wsStop 0) 1 10240 1797; let s := rsetB (rputF s (wsStop 0) 3 BOOT_STAT 0 4 5) (wsStop 0) 11 WA_LOCK 0 true; { s with ws := { s.ws with order := [5] } })) s0))) = true := by decide +kernel

theorem wit_MailboxCommands_9 : (
  let m : Fin 28 := 3
  let late : Bool := false
  let straps : BitVec 6 := 0
  let st : Stop := ⟨0, 1, 3⟩
  let d : Fin 2 := 1
  let k : Fin 6 := 2
  let n : Fin 16 := 0
  let c : Fin 2 := 0
  let st : Stop := ((allStops.filter (fun st => decide (stopKind st = .memory))).head?.getD ⟨0,0,0⟩)
  let ws := wsStop 0
  let f := fun (s : State) (i n : Nat) => pl (mbPayload s m.val) i n
  let w := mbWorld m.val
  let asked := fun (s : State) (op side len : Nat) => mbNext s m.val = true ∧ mbOpcode s m.val = op ∧ side &&& mbSide m.val ≠ 0 ∧ getF (mb s m.val 0) 16 16 = len ∧ mbBusyPlace s m.val = false
  let ends := fun (s : State) (code : Nat) (x : List Byte) (bg : Bool) => { s with ws := { s.ws with run := mapSet (fun _ => none) s.ws.run m.val (some ⟨code, x, bg, tbNow s⟩) } }
  let ok := fun (s : State) (x : List Byte) => ends s 0 x false
  let later := fun (s : State) => ends s 0 [] true
  let bad := fun (s : State) (code : Nat) => ends s code [] false
  let names := fun (s : State) (kd : Kind) => namedStop s (f s 0 2) kd = some st
  let flash := fun (s : State) (g : Flash) => { s with ws := { s.ws with flash := g } }
  let repaired := fun (s : State) (x : Nat × Nat × Nat) => flash s { s.ws.flash with repairs := s.ws.flash.repairs ++ [x] }
  let stacked := fun (s : State) => bit s.pkg.stackSet (chanOf st c).1 = true
  let sec := fun (s : State) => rbit s ws 11 WA_OR_SEC n.val
  let orow := fun (s : State) => f s 0 1 = n.val ∧ (w = .secure ∨ sec s = false)
  let s0 : State := liveSt ([⟨0, 1, 3⟩, ⟨0, 0, 8⟩, wsStop 0, wsStop 1] ++ (List.finRange 12).map portStop ++ allStops.filter (fun st => decide (stopKind st = .memory)))
  decide ((fun (s : State) => asked s 0x0303 3 5 ∧ names s .memory ∧ f s 2 1 = c.val ∧ f s 3 1 < 2 ∧ f s 4 1 < 72 ∧ stacked s ∧ (w = .secure ∨ domSecure s st c.val = false) ∧ rbit s st (phyBlk c) PHY_STAT 4 = false ∧ rbit s st (phyBlk c) PHY_REMAP (8 * laneHalf (f s 3 1) (f s 4 1) + 7) = false) ((fun (s : State) => (let s := (let s := rput (rputF (memSt s) (wsStop 0) 1 (6144 + MB_STATUS) 0 2 1) (wsStop 0) 1 6144 328451; let s := rsetB (rputF s (wsStop 0) 3 BOOT_STAT 0 4 5) (wsStop 0) 11 WA_LOCK 0 true; let s := rput s (wsStop 0) 1 6152 16777216; let s := rput s (wsStop 0) 1 6156 9; { s with ws := { s.ws with order := [3] } }); rputF s (wsStop 0) 1 6152 0 16 (stopLocus 0 ((allStops.filter (fun st => decide (stopKind st = .memory))).head?.getD ⟨0,0,0⟩)))) s0)) &&
  decide ((fun (s : State) => asked s 0x0303 3 5 ∧ names s .memory ∧ f s 2 1 = c.val ∧ f s 3 1 < 2 ∧ f s 4 1 < 72 ∧ bit s.pkg.stackSet (chanOf st c).1 = false) ((fun (s : State) => (let s := (let s := rput (rputF (s) (wsStop 0) 1 (6144 + MB_STATUS) 0 2 1) (wsStop 0) 1 6144 328451; let s := rsetB (rputF s (wsStop 0) 3 BOOT_STAT 0 4 5) (wsStop 0) 11 WA_LOCK 0 true; let s := rput s (wsStop 0) 1 6152 16777216; let s := rput s (wsStop 0) 1 6156 9; { s with ws := { s.ws with order := [3] } }); rputF s (wsStop 0) 1 6152 0 16 (stopLocus 0 ((allStops.filter (fun st => decide (stopKind st = .memory))).head?.getD ⟨0,0,0⟩)))) s0)) &&
  decide ((fun (s : State) => asked s 0x0304 3 8 ∧ names s .memory ∧ f s 2 1 = c.val ∧ f s 3 1 < 2 ∧ f s 4 1 < 3 ∧ f s 5 1 < 16 ∧ f s 6 2 < 2 ^ 15 ∧ stacked s ∧ (w = .secure ∨ domSecure s st c.val = false) ∧ sparingOf s st c = none ∧ spareUsed s st c (f s 3 1) < 64) ((fun (s : State) => (let s := (let s := rput (rputF (memSt s) (wsStop 0) 1 (6144 + MB_STATUS) 0 2 1) (wsStop 0) 1 6144 525060; let s := rsetB (rputF s (wsStop 0) 3 BOOT_STAT 0 4 5) (wsStop 0) 11 WA_LOCK 0 true; let s := rput s (wsStop 0) 1 6152 16777216; let s := rput s (wsStop 0) 1 6156 17107202; { s with ws := { s.ws with order := [3] } }); rputF s (wsStop 0) 1 6152 0 16 (stopLocus 0 ((allStops.filter (fun st => decide (stopKind st = .memory))).head?.getD ⟨0,0,0⟩)))) s0)) &&
  decide ((fun (s : State) => asked s 0x0304 3 8 ∧ names s .memory ∧ f s 2 1 = c.val ∧ f s 3 1 < 2 ∧ f s 4 1 < 3 ∧ f s 5 1 < 16 ∧ f s 6 2 < 2 ^ 15 ∧ stacked s ∧ (w = .secure ∨ domSecure s st c.val = false) ∧ sparingOf s st c = none ∧ 64 ≤ spareUsed s st c (f s 3 1)) ((fun (s : State) => (let s := (let s := rput (rputF (rputF (memSt s) ((allStops.filter (fun st => decide (stopKind st = .memory))).head?.getD ⟨0,0,0⟩) 5 (scrubOff 0 + SPARE_STAT) 7 7 64) (wsStop 0) 1 (6144 + MB_STATUS) 0 2 1) (wsStop 0) 1 6144 525060; let s := rsetB (rputF s (wsStop 0) 3 BOOT_STAT 0 4 5) (wsStop 0) 11 WA_LOCK 0 true; let s := rput s (wsStop 0) 1 6152 16777216; let s := rput s (wsStop 0) 1 6156 17107202; { s with ws := { s.ws with order := [3] } }); rputF s (wsStop 0) 1 6152 0 16 (stopLocus 0 ((allStops.filter (fun st => decide (stopKind st = .memory))).head?.getD ⟨0,0,0⟩)))) s0)) &&
  decide ((fun (s : State) => asked s 0x0304 3 8 ∧ names s .memory ∧ f s 2 1 = c.val ∧ f s 3 1 < 2 ∧ f s 4 1 < 3 ∧ f s 5 1 < 16 ∧ f s 6 2 < 2 ^ 15 ∧ stacked s ∧ w = .normal ∧ domSecure s st c.val = true) ((fun (s : State) => (let s := (let s := rput (rputF (rputF (memSt s) ((allStops.filter (fun st => decide (stopKind st = .memory))).head?.getD ⟨0,0,0⟩) 9 DSEQ_STAT 6 1 1) (wsStop 0) 1 (6144 + MB_STATUS) 0 2 1) (wsStop 0) 1 6144 525060; let s := rsetB (rputF s (wsStop 0) 3 BOOT_STAT 0 4 5) (wsStop 0) 11 WA_LOCK 0 true; let s := rput s (wsStop 0) 1 6152 16777216; let s := rput s (wsStop 0) 1 6156 17107202; { s with ws := { s.ws with order := [3] } }); rputF s (wsStop 0) 1 6152 0 16 (stopLocus 0 ((allStops.filter (fun st => decide (stopKind st = .memory))).head?.getD ⟨0,0,0⟩)))) s0))) = true := by decide +kernel

theorem wit_MailboxCommands_10 : (
  let m : Fin 28 := 3
  let late : Bool := false
  let straps : BitVec 6 := 0
  let st : Stop := ⟨0, 1, 3⟩
  let d : Fin 2 := 1
  let k : Fin 6 := 2
  let n : Fin 16 := 0
  let c : Fin 2 := 0
  let asked2 := fun (s : State) => mbNext s 3 = true ∧ mbOpcode s 3 = 0x0300 ∧ 3 &&& mbSide 3 ≠ 0 ∧ getF (mb s 3 0) 16 16 = 2
  let ws := wsStop 0
  let f := fun (s : State) (i n : Nat) => pl (mbPayload s m.val) i n
  let w := mbWorld m.val
  let asked := fun (s : State) (op side len : Nat) => mbNext s m.val = true ∧ mbOpcode s m.val = op ∧ side &&& mbSide m.val ≠ 0 ∧ getF (mb s m.val 0) 16 16 = len ∧ mbBusyPlace s m.val = false
  let ends := fun (s : State) (code : Nat) (x : List Byte) (bg : Bool) => { s with ws := { s.ws with run := mapSet (fun _ => none) s.ws.run m.val (some ⟨code, x, bg, tbNow s⟩) } }
  let ok := fun (s : State) (x : List Byte) => ends s 0 x false
  let later := fun (s : State) => ends s 0 [] true
  let bad := fun (s : State) (code : Nat) => ends s code [] false
  let names := fun (s : State) (kd : Kind) => namedStop s (f s 0 2) kd = some st
  let flash := fun (s : State) (g : Flash) => { s with ws := { s.ws with flash := g } }
  let repaired := fun (s : State) (x : Nat × Nat × Nat) => flash s { s.ws.flash with repairs := s.ws.flash.repairs ++ [x] }
  let stacked := fun (s : State) => bit s.pkg.stackSet (chanOf st c).1 = true
  let sec := fun (s : State) => rbit s ws 11 WA_OR_SEC n.val
  let orow := fun (s : State) => f s 0 1 = n.val ∧ (w = .secure ∨ sec s = false)
  let s0 : State := liveSt ([⟨0, 1, 3⟩, ⟨0, 0, 8⟩, wsStop 0, wsStop 1] ++ (List.finRange 12).map portStop ++ allStops.filter (fun st => decide (stopKind st = .memory)))
  decide ((fun (s : State) => asked2 s ∧ mbBusyPlace s m.val = true) ((fun (s : State) => (let s := (let s := rput (rputF (memSt s) (wsStop 0) 1 (6144 + MB_STATUS) 0 2 1) (wsStop 0) 1 6144 131840; let s := rsetB (rputF s (wsStop 0) 3 BOOT_STAT 0 4 5) (wsStop 0) 11 WA_LOCK 0 true; let s := rput s (wsStop 0) 1 6152 0; { s with ws := { s.ws with order := [3] } }); let s := rput (rputF s (wsStop 0) 1 (0x800 + MB_STATUS) 0 2 1) (wsStop 0) 1 0x800 0x20300; { s with ws := { s.ws with run := [(1, some ⟨0, [], true, 0⟩)] } })) s0))) = true := by decide +kernel

end Sys2Proof.Tests
end

section
/-!
O56 fails. Its GET_TOPOLOGY clause has 96 set bits for the compute tiles whatever cores the package has; the model leaves out the bit of a
tile with both cores absent (R490, R619).
-/

namespace Sys2Proof.Machine

/-- A package of which tile (0, 1, 0) has no core, past boot step 2, with GET_TOPOLOGY submitted in mailbox 3. -/
def corelessTileAsked : State :=
  let tile : Stop := ⟨0, 1, 0⟩
  let booted := rputF State.reset (wsStop 0) 3 BOOT_STAT 0 4 5
  let asked := mbSetState (mbPut booted 3 0 0x0101) 3 1
  { asked with
    pkg := { asked.pkg with noCore := [coreKey tile 0, coreKey tile 1] }
    ws := { asked.ws with order := [3] } }

/-- The byte of an answer at offset `i` of the payload, in the run entry of mailbox `m`. -/
def answeredByte (o : Host.Outcome State Fault Refusal) (m i : Nat) : Option Byte :=
  match o with
  | .next s => (mapGet (fun _ => none) s.ws.run m).bind fun r => r.data[i]?
  | _ => none

/-- The command is GET_TOPOLOGY with no payload, from a mailbox that may give it, and its turn has come. -/
theorem corelessTileAsked_asked :
    mbNext corelessTileAsked 3 = true ∧ mbOpcode corelessTileAsked 3 = 0x0101 ∧ 15 &&& mbSide 3 ≠ 0 ∧
      getF (mb corelessTileAsked 3 0) 16 16 = 0 ∧ mbBusyPlace corelessTileAsked 3 = false := by
  decide +kernel

/-- The model answers with the bit of tile (0, 1, 0) clear. -/
theorem getTopology_corelessTile : answeredByte (exec (.getTopology 3) corelessTileAsked) 3 8 = some 0xFE := by
  decide +kernel

/-- Refutes O56: for a tile with both cores absent GET_TOPOLOGY answers a clear bit where the statement has a set one. -/
theorem not_mailboxCommands : ¬ Obligations.MailboxCommands := by
  unfold Obligations.MailboxCommands
  intro h
  obtain ⟨-, hTopo, -⟩ := h 3 false 0 ⟨0, 1, 0⟩ 0 0 0 0
  have hNext := hTopo corelessTileAsked corelessTileAsked_asked
  have hByte := getTopology_corelessTile
  rw [hNext] at hByte
  exact absurd hByte (by decide +kernel)

end Sys2Proof.Machine
end

section
/-!
O60: every step keeps memory in its canonical form.

`MemInv` speaks of the list of bytes alone.  The model changes that list by writing, zeroing or poisoning bytes, by leaving entries out, and
by a reset, and keeps it in every other operation; the laws of the writes stand in Sys2Proof/Laws/State.lean.  So the proof has one rule per
operation of the model that answers a state: if the state it is given is in canonical form, so is the state it answers.  A rule goes
through the operation's definition once, branch by branch, and cites the rules of the operations that it calls; `outInv_exec` collects the
rules of the rows, and `outInv_step` adds the tick of the timebase.

The rules are named after what the operation answers: `memInv_f` a state, `pairInv_f` and `sndInv_f` a state with a result, `optInv_f` and
`optPairInv_f` where there may be none, `effInv_f` an instruction's effect, `servedInv_f` a mailbox answer, `outInv_f` the outcome of a row.
-/

namespace Sys2Proof.Machine

/-! ## Canonical memory in what an operation answers -/

/-- The state that stands first in a pair has canonical memory. -/
def PairInv {α : Type} (p : State × α) : Prop := MemInv p.1

/-- The state that stands second in a pair has canonical memory. -/
def SndInv {α : Type} (p : α × State) : Prop := MemInv p.2

/-- A state that may be missing has canonical memory where it is there. -/
def OptInv (o : Option State) : Prop := ∀ s, o = some s → MemInv s

/-- A state with a result, where there is one, has canonical memory. -/
def OptPairInv {α : Type} (o : Option (State × α)) : Prop := ∀ p, o = some p → PairInv p

/-- Where a row ends in a next state, its memory is canonical. -/
def OutInv (o : Host.Outcome State Fault Refusal) : Prop := ∀ s, o = .next s → MemInv s

/-- The state that an instruction's effect leaves, however the instruction ends. -/
def Eff.state : Eff → State
  | .done s _ _ => s
  | .exc s _ => s
  | .stay s => s

/-- The state that an instruction's effect leaves has canonical memory. -/
def EffInv (r : Eff) : Prop := MemInv r.state

/-- The state that serving a mailbox command leaves has canonical memory. -/
def ServedInv (r : Served) : Prop := MemInv r.s

/-- A state whose memory is that of another in canonical form, whatever else has changed. -/
theorem memInv_mk {t : State} (ht : MemInv t)
    {pending fresh reg cpu pm intr err pkg tbase wb io link lock cache hbm orr iotu pow ws} :
    MemInv ⟨pending, fresh, reg, cpu, t.mem, pm, intr, err, pkg, tbase, wb, io, link, lock, cache, hbm, orr, iotu, pow, ws⟩ := ht

/-! A pair, an effect, an answer or an outcome is made of a state with canonical memory, and one is taken from it. -/

theorem pairInv_mk {α : Type} {s : State} (hs : MemInv s) {x : α} : PairInv (s, x) := hs

theorem servedInv_mk {s : State} (hs : MemInv s) {c x b} : ServedInv ⟨s, c, x, b⟩ := hs

theorem effInv_done {s : State} (hs : MemInv s) {pc : Word} {info : RetInfo} : EffInv (.done s pc info) := hs

theorem effInv_exc {s : State} (hs : MemInv s) {e : Exc} : EffInv (.exc s e) := hs

theorem effInv_stay {s : State} (hs : MemInv s) : EffInv (.stay s) := hs

theorem memInv_of_pair {α : Type} {p : State × α} (hp : PairInv p) : MemInv p.1 := hp

theorem memInv_of_served {r : Served} (hr : ServedInv r) : MemInv r.s := hr

theorem memInv_of_eff {r r' : Eff} (e : r = r') (h : EffInv r) : EffInv r' := e ▸ h

theorem memInv_fst {α : Type} {p : State × α} {s : State} {x : α} (e : p = (s, x)) (h : PairInv p) : MemInv s := by
  subst e; exact h

theorem optInv_some {s : State} (hs : MemInv s) : OptInv (some s) := fun _ e => Option.some.inj e ▸ hs

theorem optInv_none : OptInv none := fun _ e => nomatch e

theorem optPairInv_some {α : Type} {p : State × α} (hp : PairInv p) : OptPairInv (some p) := fun _ e => Option.some.inj e ▸ hp

theorem optPairInv_none {α : Type} : OptPairInv (none : Option (State × α)) := fun _ e => nomatch e

theorem outInv_next {s : State} (hs : MemInv s) : OutInv (.next s) := fun _ e => by injection e with e; exact e ▸ hs

theorem optInv_map {α : Type} {f : α → State} {o : Option α} (hf : ∀ a, MemInv (f a)) : OptInv (o.map f) := by
  intro s e
  obtain ⟨a, -, rfl⟩ := Option.map_eq_some_iff.mp e
  exact hf a

theorem optInv_map_state {f : State → State} {o : Option State} (ho : OptInv o) (hf : ∀ s, MemInv s → MemInv (f s)) : OptInv (o.map f) := by
  intro s e
  obtain ⟨a, ha, rfl⟩ := Option.map_eq_some_iff.mp e
  exact hf a (ho a ha)

theorem pairInv_getD {α : Type} {o : Option (State × α)} {p : State × α} (ho : OptPairInv o) (hp : PairInv p) : PairInv (o.getD p) := by
  cases o with
  | none => exact hp
  | some t => exact ho t rfl

theorem memInv_getD {o : Option State} {s : State} (ho : OptInv o) (hs : MemInv s) : MemInv (o.getD s) := by
  cases o with
  | none => exact hs
  | some t => exact ho t rfl

/-! What holds of both branches of a choice holds of the choice, whatever decides it; and what the body of a fold keeps, the fold keeps. -/

theorem pred_ite {α : Type} {P : α → Prop} {c : Prop} [Decidable c] {a b : α} (ha : P a) (hb : P b) : P (if c then a else b) :=
  iteInduction (fun _ => ha) fun _ => hb

theorem pred_dite {α : Type} {P : α → Prop} {c : Prop} [Decidable c] {a : c → α} {b : ¬c → α} (ha : ∀ h, P (a h))
    (hb : ∀ h, P (b h)) : P (if h : c then a h else b h) := by
  split
  · exact ha _
  · exact hb _

theorem memInv_foldl {α : Type} {f : State → α → State} {s : State} (l : List α) (hs : MemInv s)
    (hf : ∀ s a, MemInv s → MemInv (f s a)) : MemInv (l.foldl f s) :=
  List.foldlRecOn l f hs fun s h a _ => hf s a h

theorem pairInv_foldl {α β : Type} {f : State × β → α → State × β} {p : State × β} (l : List α) (hp : PairInv p)
    (hf : ∀ p a, PairInv p → PairInv (f p a)) : PairInv (l.foldl f p) :=
  List.foldlRecOn l f hp fun s h a _ => hf s a h

/-! ## The operations that write memory -/

theorem memInv_markPoison {s : State} (hs : MemInv s) {a : Nat} : MemInv (markPoison s a) := markPoison_wf s a hs

theorem memInv_memStore {s : State} (hs : MemInv s) {a : Nat} {d : List Byte} : MemInv (memStore s a d) := memStore_wf s a d hs

theorem memInv_memWriteBytes {s : State} (hs : MemInv s) {a : Nat} {d : List Byte} : MemInv (memWriteBytes s a d) :=
  memWriteBytes_wf s a d hs

theorem memInv_memZero {s : State} (hs : MemInv s) {a n : Nat} : MemInv (memZero s a n) := memZero_wf s a n hs

theorem memInv_poisonLine {s : State} (hs : MemInv s) {a : Nat} : MemInv (poisonLine s a) := poisonLine_wf s a hs

theorem memInv_agentWrite {s : State} (hs : MemInv s) {me : Option Hart} {a : Nat} {d : List Byte} : MemInv (agentWrite s me a d) :=
  agentWrite_wf s me a d hs

/-!
## One rule per operation of the model

In the order of the model's files.  Most are a term that follows the branches of the definition; where a definition names an intermediate
state that several branches use, the rule names it too and says once that its memory is canonical.
-/

section Rules

variable {s : State} {st : Stop} {h : Hart} {w : World} {i : Init} {die c : Fin 2} {data : List Byte} {me : Option Hart} {r : Regime}
variable {line n k p off blk tag op m q e arg kind addr d va a t src place dst size ns id ev ea cnt ch code cause pa port v b f : Nat}
variable (hs : MemInv s)
include hs

/-! ### State -/

omit hs in
theorem memInv_reset : MemInv State.reset := reset_memory_wf

/-! ### Regs -/

theorem memInv_rput {v : Reg32} : MemInv (rput s st blk off v) := hs

theorem memInv_rputF {lo w : Nat} : MemInv (rputF s st blk off lo w v) := memInv_rput hs

theorem memInv_rsetB {i : Nat} {b : Bool} : MemInv (rsetB s st blk off i b) := memInv_rputF hs

theorem memInv_rsat {lo w : Nat} : MemInv (rsat s st blk off lo w n) := memInv_rputF hs

theorem memInv_rput64 : MemInv (rput64 s st blk off v) := memInv_rput (memInv_rput hs)

theorem memInv_useFree : MemInv (useFree s) := hs

theorem memInv_addEvent {locus source : Nat} {secure : Bool} : MemInv (addEvent s kind locus source secure) := hs

theorem memInv_tput {t : Thread} : MemInv (tput s h t) := hs

theorem memInv_tmod {f : Thread → Thread} : MemInv (tmod s h f) := memInv_tput hs

theorem memInv_cput {c : CoreSt} : MemInv (cput s k c) := hs

/-! ### AddrMap -/

theorem memInv_clearResv : MemInv (clearResv s me a n) := hs

/-! ### Intr -/

theorem memInv_privSet : MemInv (privSet s h n) := pred_ite (memInv_mk hs) hs

theorem memInv_privClear : MemInv (privClear s h n) := hs

theorem memInv_setRunStack {l : List Nat} : MemInv (setRunStack s h w l) := hs

theorem memInv_emptyRunStacks : MemInv (emptyRunStacks s h) := memInv_setRunStack (memInv_setRunStack hs)

theorem memInv_setShList {l : List Nat} : MemInv (setShList s h l) := hs

theorem memInv_shWithdraw {i : Nat} : MemInv (shWithdraw s k i) := hs

theorem memInv_shOffer {i : Nat} : MemInv (shOffer s k i) := by
  unfold shOffer
  refine pred_ite ?_ hs
  split
  · exact pred_ite (memInv_setShList hs) hs
  · exact hs

theorem memInv_shOfferAll : MemInv (shOfferAll s) := memInv_foldl _ hs fun _ _ ht => memInv_shOffer ht

theorem pairInv_intAck : PairInv (intAck s h w) := by
  unfold intAck
  split
  · exact hs
  · refine pred_ite (pairInv_mk (memInv_shOfferAll (memInv_shWithdraw (memInv_mk (memInv_setRunStack hs))))) ?_
    exact pred_ite (pairInv_mk (memInv_privClear (memInv_setRunStack hs))) (pairInv_mk (memInv_setRunStack hs))

theorem memInv_intEoi : MemInv (intEoi s h w) := by
  unfold intEoi
  split
  · exact memInv_rsetB hs
  · exact memInv_setRunStack hs

/-! ### Count -/

theorem memInv_pmAdd : MemInv (pmAdd s k n) := pred_ite (memInv_mk (memInv_mk hs)) (memInv_mk hs)

theorem memInv_countScope {w : Option World} : MemInv (countScope s st e n w) := pred_ite hs (pred_ite hs (memInv_pmAdd hs))

theorem memInv_comparator : MemInv (comparator s h e n) := pred_ite (pred_ite (memInv_privSet (memInv_tput hs)) (memInv_tput hs)) hs

theorem memInv_countThread : MemInv (countThread s h e n) := by
  unfold countThread
  split
  · exact pred_ite hs (pred_ite (memInv_foldl _ (memInv_pmAdd hs) fun _ _ ht => memInv_comparator ht) (memInv_pmAdd hs))
  · exact hs

theorem memInv_countEvents {es : List Nat} : MemInv (countEvents s h es) := memInv_foldl _ hs fun _ _ ht => memInv_countThread ht

/-! ### Dom -/

theorem memInv_dstatPut {lo w : Nat} : MemInv (dstatPut s st d lo w v) := memInv_rputF hs

theorem memInv_setDom : MemInv (setDom s st d v) := memInv_dstatPut hs

theorem memInv_flushStores : MemInv (flushStores s h) := memInv_foldl _ (memInv_tput hs) fun _ _ ht => memInv_agentWrite ht

theorem memInv_stopThread : MemInv (stopThread s h) := memInv_tput (memInv_flushStores hs)

theorem memInv_coreLost {d : Fin 2} : MemInv (coreLost s st d) := memInv_foldl _ (memInv_cput (memInv_mk hs)) fun _ _ ht => memInv_tmod ht

theorem memInv_zeroDepot : MemInv (zeroDepot s st) := memInv_foldl _ hs fun _ _ ht => pred_ite (memInv_memZero ht) ht

theorem memInv_emptyDepotQueues : MemInv (emptyDepotQueues s st) :=
  memInv_foldl _ hs fun _ _ ht => pred_ite (memInv_mk (memInv_rput (memInv_rput (memInv_rput ht)))) ht

/-! ### Wire -/

theorem memInv_cvPut {c : CvLink} : MemInv (cvPut s n c) := hs

theorem memInv_cvStatPut {n : Fin 12} {lo w : Nat} : MemInv (cvStatPut s n lo w v) := memInv_rputF hs

theorem memInv_cvSend {m : NodeMsg} {n : Fin 12} : MemInv (cvSend s m n ch) := memInv_mk (memInv_cvPut hs)

theorem memInv_pump : MemInv (pump s) := by
  unfold pump
  dsimp only
  refine memInv_mk ?_
  refine pairInv_foldl _ (pairInv_mk hs) fun _ _ ht => ?_
  split
  · exact pairInv_mk (memInv_cvSend ht)
  · exact ht

theorem memInv_sendMsg : MemInv (sendMsg s op dst tag addr arg data) := memInv_pump (memInv_mk hs)

theorem memInv_sendFrom {src : Option Nat} {h : Option Hart} : MemInv (sendFrom s src h op dst addr arg data) := memInv_pump (memInv_mk hs)

theorem memInv_sendWait {h : Option Hart} : MemInv (sendWait s h op dst addr arg data) := memInv_sendFrom hs

theorem memInv_snoopLent {write : Bool} {but : Option Nat} : MemInv (snoopLent s line write but) :=
  memInv_foldl _ hs fun _ _ ht => pred_ite ht (memInv_sendWait ht)

theorem memInv_lend {st : Option Nat} : MemInv (lend s line p st) := hs

/-! ### Slices -/

theorem memInv_orPut {n : Fin 16} {o : OrSt} : MemInv (orPut s n o) := hs

theorem memInv_lcDropped {n : Fin 16} : MemInv (lcDropped s n line) := memInv_tmod hs

theorem memInv_lcFill {n : Fin 16} {lock : Bool} : MemInv (lcFill s n line lock) := by
  unfold lcFill
  dsimp only
  split
  · exact pred_ite (memInv_orPut hs) hs
  · split
    · exact hs
    · refine memInv_orPut ?_
      split
      · exact memInv_lcDropped hs
      · exact hs

theorem memInv_slicePut {v : SliceSt} : MemInv (slicePut s st v) := hs

theorem memInv_sliceMod {f : SliceSt → SliceSt} : MemInv (sliceMod s st f) := memInv_slicePut hs

theorem memInv_l2Put {way : Nat} : MemInv (l2Put s n line way v) := hs

theorem memInv_l2Move : MemInv (l2Move s n line v) := by
  unfold l2Move
  split
  · exact memInv_l2Put hs
  · exact hs

theorem memInv_plruPut {set : Nat} : MemInv (plruPut s n set b) := hs

theorem memInv_plruUse {set lv w : Nat} {stream : Bool} : MemInv (plruUse s n set lv w stream) := memInv_plruPut hs

theorem memInv_l1Put {side set w : Nat} : MemInv (l1Put s n side set w v) := hs

theorem memInv_l1SideDrop {side : Nat} : MemInv (l1SideDrop s n side line) := hs

theorem memInv_l1Drop : MemInv (l1Drop s n line) := hs

theorem memInv_l1Use {side : Nat} {stream : Bool} : MemInv (l1Use s n side va line stream) := by
  unfold l1Use
  dsimp only
  split
  · exact pred_ite (memInv_l1Put (memInv_plruUse hs)) (memInv_plruUse hs)
  · split
    · exact hs
    · refine memInv_plruUse ?_
      refine memInv_l1Put ?_
      split
      · exact memInv_l1Put hs
      · exact hs

theorem memInv_l3Fill {dirty : Bool} {age : Nat} {hit : Option Nat} : MemInv (l3Fill s st line dirty age hit) := by
  unfold l3Fill
  dsimp only
  split
  · exact memInv_slicePut hs
  · refine pred_ite hs ?_
    split
    · exact hs
    · exact pred_ite (memInv_slicePut hs) (memInv_slicePut hs)

theorem memInv_l3SetAge {age : Nat} : MemInv (l3SetAge s st line age) := by
  unfold l3SetAge
  dsimp only
  split
  · exact memInv_slicePut hs
  · exact hs

theorem memInv_l2Lose {w : Nat} : MemInv (l2Lose s n line w) :=
  memInv_foldl _ (memInv_l2Put (memInv_l1Drop hs)) fun _ _ ht => memInv_tmod ht

theorem memInv_sfDropCore : MemInv (sfDropCore s st line n) := by
  unfold sfDropCore
  dsimp only
  split
  · exact pred_ite hs (memInv_slicePut hs)
  · exact hs

theorem memInv_proxyDrop : MemInv (proxyDrop s line n) := by
  unfold proxyDrop
  split
  · exact memInv_sfDropCore hs
  · exact hs

theorem memInv_remoteLeave : MemInv (remoteLeave s line) := by
  unfold remoteLeave
  split
  · refine pred_ite hs ?_
    split
    · exact hs
    · exact pred_ite (memInv_sendWait (memInv_mk hs)) (memInv_sendWait (memInv_mk hs))
  · exact hs

theorem memInv_invHolder : MemInv (invHolder s st line n) := by
  unfold invHolder
  split
  · exact pred_ite (memInv_remoteLeave (memInv_l2Lose hs)) (pred_ite (memInv_l3Fill (memInv_l2Lose hs)) (memInv_l2Lose hs))
  · exact hs

theorem memInv_invPkg : MemInv (invPkg s line p) := memInv_sendWait hs

theorem memInv_invCourier {dies : Nat} : MemInv (invCourier s line dies me) := by
  unfold invCourier
  dsimp only
  refine memInv_foldl _ hs fun _ _ ht => ?_
  refine pred_ite ht ?_
  split
  · exact ht
  · split
    · exact memInv_orPut (memInv_lcDropped ht)
    · exact memInv_lcDropped ht

theorem memInv_invEntry {e : SfEnt} {but : Option Nat} : MemInv (invEntry s st e but me) :=
  memInv_remoteLeave (memInv_foldl _ (memInv_invCourier (memInv_foldl _ hs fun _ _ ht => pred_ite ht (memInv_invHolder ht))) fun _ _ ht =>
    memInv_invPkg ht)

theorem memInv_packFree : MemInv (packFree s st line) := memInv_sliceMod hs

theorem memInv_l2Leave {home : Option Stop} : MemInv (l2Leave s home n line) := by
  unfold l2Leave
  split
  · exact hs
  · split
    · exact memInv_remoteLeave (memInv_proxyDrop (memInv_l2Lose hs))
    · refine pred_ite (memInv_l3Fill (memInv_packFree (memInv_sfDropCore (memInv_l2Lose hs)))) ?_
      exact pred_ite (memInv_l3Fill (memInv_sfDropCore (memInv_l2Lose hs))) (memInv_sfDropCore (memInv_l2Lose hs))

theorem memInv_l2Empty : MemInv (l2Empty s n) := memInv_foldl _ hs fun _ _ ht => memInv_l2Leave ht

theorem memInv_sfEmpty : MemInv (sfEmpty s st) := memInv_sliceMod (memInv_foldl _ hs fun _ _ ht => memInv_invEntry ht)

theorem memInv_coreDown : MemInv (coreDown s st c) := memInv_coreLost (memInv_l2Empty hs)

theorem memInv_sliceDown : MemInv (sliceDown s st) := memInv_mk (memInv_foldl _ (memInv_sfEmpty hs) fun _ _ ht => memInv_l2Lose ht)

theorem memInv_domainReset : MemInv (domainReset s st d) := by
  unfold domainReset
  extract_lets +onlyGivenNames s1 s2
  have hs1 : MemInv s1 := memInv_foldl _ hs fun _ _ ht => memInv_stopThread ht
  have hs2 : MemInv s2 := by
    unfold s2
    split
    · exact pred_dite (fun _ => memInv_coreDown hs1) (fun _ => pred_ite (memInv_emptyDepotQueues (memInv_zeroDepot (memInv_sliceDown hs1)))
        hs1)
    · exact hs1
  exact pred_ite (memInv_setDom hs2) hs2

/-! ### Err -/

theorem memInv_setSrcCfg {v : Reg32} : MemInv (setSrcCfg s st src v) := hs

theorem memInv_deliverNotif : MemInv (deliverNotif s st src w) := by
  unfold deliverNotif
  split
  · exact memInv_privSet hs
  · exact memInv_addEvent hs

theorem memInv_notify : MemInv (notify s st src w) := pred_ite (memInv_deliverNotif hs) (memInv_mk hs)

theorem memInv_deliverLatched : MemInv (deliverLatched s) := by
  unfold deliverLatched
  refine memInv_foldl _ (memInv_mk hs) fun _ _ ht => ?_
  split
  · exact memInv_deliverNotif ht
  · exact ht

theorem memInv_ledgerSeal {d : Fin 2} {i : Nat} : MemInv (ledgerSeal s d i) := memInv_rputF hs

theorem memInv_ledgerCapture {r : Report} : MemInv (ledgerCapture s r) := by
  unfold ledgerCapture
  extract_lets +onlyGivenNames _ _ _ _ _ _ _ _ _ _ _ _ s5 s6
  have hs5 : MemInv s5 := memInv_rputF (memInv_rputF (memInv_ledgerSeal (memInv_rput
    (memInv_rput (memInv_rput (memInv_rput (memInv_rput (memInv_rput (memInv_rput (memInv_rput hs))))))))))
  have hs6 : MemInv s6 := pred_ite (memInv_rsetB hs5) hs5
  exact pred_ite (memInv_rput hs6) hs6

theorem memInv_ledgerMerge {r : Report} : MemInv (ledgerMerge s r) := by
  unfold ledgerMerge
  dsimp only
  split
  · exact memInv_rsat hs
  · exact memInv_ledgerSeal (memInv_rput hs)

theorem memInv_ledgerEnter {r : Report} : MemInv (ledgerEnter s r) := pred_ite (memInv_ledgerMerge hs) (memInv_ledgerCapture hs)

theorem memInv_queueReport {r : Report} : MemInv (queueReport s r) :=
  pred_ite (memInv_ledgerEnter hs) (pred_ite (memInv_mk hs) (memInv_mk (memInv_rsat hs)))

theorem memInv_capture {r : Report} : MemInv (capture s st p r) := by
  refine pred_ite (memInv_queueReport (memInv_rputF (memInv_rput hs))) ?_
  exact memInv_queueReport (memInv_rsetB (memInv_rput (memInv_rput64 (memInv_rput
    (memInv_rput64 (memInv_rput (memInv_rput (memInv_rput hs))))))))

theorem memInv_reportErr {ty : Nat} {addr : Option Nat} {synd thr : Nat} {inj : Bool} {sevUp : Nat} {owner : Option World} :
    MemInv (reportErr s st src ty addr synd thr inj sevUp owner) := by
  unfold reportErr
  split
  · exact hs
  · extract_lets +onlyGivenNames _ _ _ _ _ _ _ _ _ s3
    have hs3 : MemInv s3 := by
      unfold s3
      refine pred_ite ?_ (memInv_capture (memInv_setSrcCfg hs))
      split
      · exact memInv_domainReset (memInv_capture (memInv_setSrcCfg hs))
      · exact memInv_capture (memInv_setSrcCfg hs)
    exact pred_ite (memInv_notify hs3) hs3

theorem memInv_violation {locus : Nat} : MemInv (violation s locus kind blk) := memInv_rsetB (memInv_rput (memInv_rput hs))

/-! ### Ops -/

theorem memInv_guestEntry : MemInv (guestEntry s h) := memInv_tmod hs

theorem memInv_guestExit : MemInv (guestExit s h) :=
  pred_ite (memInv_tput hs) (memInv_foldl _ hs fun _ _ ht => pred_ite ht (memInv_agentWrite ht))

theorem memInv_takeAt {l : Level} {val info epc : Word} : MemInv (takeAt s h l cause val info epc off ev) :=
  memInv_tput (pred_ite (memInv_guestExit (memInv_tput (memInv_countThread hs))) (memInv_tput (memInv_countThread hs)))

theorem memInv_takeException {e : Exc} {epc : Word} : MemInv (takeException s h e epc) := by
  unfold takeException
  split <;> exact memInv_takeAt hs

theorem pairInv_consume : PairInv (consume s h e addr) := pairInv_mk (memInv_reportErr hs)

/-! ### PowerOps -/

theorem memInv_autoGate : MemInv (autoGate s st) := pred_ite (memInv_rputF hs) hs

theorem memInv_domOff : MemInv (domOff s st d) := by
  unfold domOff
  refine memInv_autoGate ?_
  refine memInv_rsat ?_
  refine memInv_dstatPut ?_
  refine memInv_setDom ?_
  split
  · exact pred_dite (fun _ => memInv_coreDown hs) (fun _ => pred_ite (memInv_sliceDown hs) hs)
  · exact memInv_memZero hs
  · exact memInv_rputF (memInv_rputF (memInv_rputF hs))
  · exact memInv_rputF (memInv_rputF hs)
  · exact hs

theorem memInv_domSteps {ap : Nat} : MemInv (domSteps s st d ap) := by
  unfold domSteps
  extract_lets +onlyGivenNames s1
  have hs1 : MemInv s1 := pred_ite (memInv_foldl _ hs fun _ _ ht => memInv_flushStores ht) hs
  refine pred_ite hs1 ?_
  split
  · exact pred_ite (memInv_l2Empty hs1) hs1
  · extract_lets +onlyGivenNames s2
    have hs2 : MemInv s2 := pred_ite (memInv_sfEmpty hs1) hs1
    exact pred_ite (memInv_sliceMod hs2) hs2

theorem memInv_domEnter {ap : Nat} : MemInv (domEnter s st d ap) := by
  refine pred_ite hs ?_
  exact memInv_foldl _ hs fun _ _ ht => pred_ite ht (pred_ite (memInv_domOff (memInv_domSteps ht))
    (memInv_dstatPut (memInv_setDom (memInv_domSteps ht))))

theorem memInv_gateEnter : MemInv (gateEnter s st d) := pred_ite (memInv_mk hs) (memInv_domEnter hs)

theorem memInv_domWake : MemInv (domWake s st d kind) := by
  unfold domWake
  refine pred_ite hs ?_
  refine memInv_foldl _ hs fun _ _ ht => ?_
  refine pred_ite (memInv_rsat (memInv_dstatPut (memInv_dstatPut (memInv_dstatPut (memInv_setDom ht))))) ?_
  refine pred_ite (memInv_mk ht) ?_
  refine pred_ite ?_ ht
  extract_lets +onlyGivenNames _ s1
  have hs1 : MemInv s1 := memInv_dstatPut (memInv_dstatPut (memInv_setDom (pred_ite (memInv_domOff ht) ht)))
  exact pred_ite (memInv_rputF hs1) hs1

theorem memInv_domUp : MemInv (domUp s st d) :=
  memInv_foldl _ (pred_ite (memInv_mk hs) hs) fun _ _ ht => pred_ite ht (pred_ite (memInv_domEnter (memInv_mk (memInv_setDom ht)))
    (memInv_setDom ht))

theorem memInv_secRefused : MemInv (secRefused s st d) := memInv_reportErr (memInv_dstatPut hs)

theorem memInv_seqDown {ws : Bool} {ap : Nat} : MemInv (seqDown s w ws st d ap) :=
  pred_ite hs (pred_ite (memInv_secRefused hs) (pred_ite (memInv_dstatPut hs) (memInv_domEnter hs)))

theorem memInv_seqUp : MemInv (seqUp s st d) := pred_ite hs (memInv_domWake hs)

theorem memInv_bandGate : MemInv (bandGate s w die b) := by
  refine pred_ite hs ?_
  refine pred_ite (memInv_rputF (memInv_foldl _ hs fun _ _ ht => pred_ite (memInv_rsetB (memInv_secRefused ht)) (memInv_gateEnter ht))) ?_
  exact memInv_foldl _ hs fun _ _ ht => pred_ite (memInv_rsetB (memInv_secRefused ht)) (memInv_gateEnter ht)

theorem memInv_bandUp : MemInv (bandUp s die b) := pred_ite hs (memInv_foldl _ hs fun _ _ ht => memInv_domWake ht)

theorem memInv_setPkgState : MemInv (setPkgState s v) := memInv_rputF hs

theorem memInv_startExit : MemInv (startExit s kind arg) := memInv_setPkgState (memInv_rput64 (memInv_rput hs))

theorem memInv_pkgWake : MemInv (pkgWake s kind arg) := by
  unfold pkgWake
  split
  · exact memInv_mk (memInv_rsetB (memInv_rput hs))
  · exact memInv_mk (memInv_rsetB (memInv_rput hs))
  · exact memInv_startExit hs
  · exact memInv_startExit hs
  · exact hs

theorem memInv_contentsLost : MemInv (contentsLost s) := mapWf_filter memDefault s.mem.bytes _ hs

theorem memInv_thermalTrip : MemInv (thermalTrip s die) := by
  refine pred_ite hs ?_
  exact memInv_rputF (memInv_setPkgState (memInv_contentsLost (memInv_foldl _ (memInv_reportErr hs) fun _ _ ht => memInv_foldl _ ht
    fun _ _ ht => memInv_setDom ht)))

/-! ### HbmQueue -/

theorem memInv_hbmMod {f : HbmSt → HbmSt} : MemInv (hbmMod s f) := hs

theorem memInv_mcCount : MemInv (mcCount s st c e n) := memInv_countScope hs

theorem memInv_setRow {r : Option Nat} : MemInv (setRow s b r) := memInv_hbmMod hs

theorem memInv_closeRows {p : Nat → Bool} : MemInv (closeRows s p) := memInv_hbmMod hs

theorem memInv_chanWake : MemInv (chanWake s ch) := pred_ite hs (memInv_domWake hs)

theorem memInv_mcAdmit : MemInv (mcAdmit s ch) := by
  unfold mcAdmit
  dsimp only
  refine pred_ite hs ?_
  refine memInv_hbmMod ?_
  refine pairInv_foldl _ (pairInv_mk hs) fun _ _ ht => ?_
  split
  · exact pairInv_mk (pred_ite (memInv_mcCount (memInv_hbmMod ht)) (memInv_hbmMod ht))
  · exact ht

theorem memInv_mcArrive {r : HbmReq} : MemInv (mcArrive s r) := memInv_mcAdmit (memInv_hbmMod (memInv_chanWake hs))

theorem memInv_mcDrain : MemInv (mcDrain s p) := pred_ite (pred_ite (memInv_hbmMod hs) hs) (pred_ite (memInv_mcCount (memInv_hbmMod hs)) hs)

theorem memInv_mcIssue {q : List HbmReq} {i : Nat} {e : HbmReq} : MemInv (mcIssue s p q i e) := by
  unfold mcIssue
  extract_lets +onlyGivenNames _ _ _ _ s2 s3
  have hs2 : MemInv s2 := pred_ite (memInv_mcCount (memInv_mcCount hs)) (memInv_mcCount hs)
  have hs3 : MemInv s3 := pred_ite (memInv_mcCount hs2) hs2
  exact pred_ite (memInv_mcCount (memInv_setRow (memInv_hbmMod hs3))) (memInv_hbmMod hs3)

theorem memInv_setPtrs {v : Nat × Nat} : MemInv (setPtrs s p v) := memInv_hbmMod hs

theorem memInv_mcColumn : MemInv (mcColumn s p) := by
  unfold mcColumn
  refine pred_ite hs ?_
  split
  · exact memInv_setPtrs (memInv_mcIssue hs)
  · exact hs

theorem memInv_mcRow : MemInv (mcRow s p) := by
  unfold mcRow
  dsimp only
  split
  · exact pred_ite (memInv_mcCount (memInv_setRow (memInv_setPtrs hs))) (memInv_mcCount (memInv_setRow (memInv_hbmMod (memInv_setPtrs hs))))
  · exact hs

theorem memInv_mcClock : MemInv (mcClock s p) := memInv_mcAdmit (memInv_mcRow (memInv_mcColumn (memInv_mcDrain hs)))

theorem memInv_mcRun {stop : State → Bool} : MemInv (mcRun s p stop n) := by
  induction n generalizing s with
  | zero => exact hs
  | succ n ih => exact pred_ite hs (ih (memInv_mcClock hs))

theorem memInv_mcAsk : MemInv (mcAsk s line) := pred_ite hs (memInv_mcArrive hs)

theorem pairInv_mcRead : PairInv (mcRead s line) := pairInv_mk (memInv_hbmMod (memInv_mcRun (memInv_mcAsk hs)))

theorem memInv_mcAccept : MemInv (mcAccept s line) := memInv_mcRun hs

theorem memInv_mcFinish : MemInv (mcFinish s ch) := memInv_foldl _ hs fun _ _ ht => memInv_mcRun ht

/-! ### Route -/

theorem memInv_routeDrop : MemInv (routeDrop s st) := memInv_reportErr (memInv_rsat hs)

theorem pairInv_legSend {a b : Stop} : PairInv (legSend s a b) := by
  unfold legSend
  dsimp only
  split
  · refine pairInv_mk ?_
    refine memInv_routeDrop ?_
    split
    · exact memInv_rsat hs
    · exact hs
  · refine pairInv_mk ?_
    split
    · exact memInv_rsat hs
    · exact hs

theorem pairInv_meshSend {a b : Stop} : PairInv (meshSend s a b) :=
  pairInv_foldl _ (pairInv_mk hs) fun _ _ ht => pred_ite (pairInv_legSend ht) (pairInv_mk ht)

/-! ### Coherence -/

theorem memInv_stall : MemInv (stall s h code) := by
  unfold stall
  split
  · exact memInv_rputF hs
  · exact hs

theorem pairInv_courier : PairInv (courier s h code) := by
  unfold courier
  split
  · exact pred_ite (pairInv_mk (memInv_stall hs)) (pairInv_mk (memInv_pkgWake (memInv_stall hs)))
  · exact pairInv_mk (memInv_stall hs)

theorem memInv_sfOwner {o : Option (Nat × Nat)} : MemInv (sfOwner s st line o) := by
  unfold sfOwner
  split
  · exact pred_ite hs (memInv_slicePut hs)
  · exact hs

theorem memInv_sfMod {f : SfEnt → SfEnt} : MemInv (sfMod s st w line f) := by
  unfold sfMod
  dsimp only
  split
  · exact memInv_slicePut hs
  · split
    · exact hs
    · refine memInv_slicePut ?_
      split
      · exact memInv_countScope (memInv_invEntry hs)
      · exact hs

theorem memInv_sfAddCore : MemInv (sfAddCore s st w line n) := pred_ite (memInv_countScope (memInv_sfMod hs)) (memInv_sfMod hs)

theorem memInv_sfPkg {on : Bool} : MemInv (sfPkg s st w line p on) := by
  unfold sfPkg
  dsimp only
  refine pred_ite (memInv_sfMod hs) ?_
  split
  · exact memInv_slicePut hs
  · exact hs

theorem memInv_sfCourier : MemInv (sfCourier s st w line h) := by
  unfold sfCourier
  split
  · exact memInv_sfMod hs
  · exact hs

theorem memInv_invOthers {keep : Option Agent} : MemInv (invOthers s st w line keep) := by
  unfold invOthers
  split
  · exact memInv_slicePut (memInv_countScope (memInv_invEntry hs))
  · exact hs

theorem memInv_freeLine : MemInv (freeLine s line) := memInv_foldl _ hs fun _ _ ht => memInv_memWriteBytes (memInv_useFree ht)

theorem memInv_memFetch {src : Option Nat} {courier : Bool} : MemInv (memFetch s st src courier line) := by
  unfold memFetch
  split
  · refine pred_ite (memInv_mcArrive (pairInv_meshSend (pred_ite (memInv_poisonLine (memInv_hbmMod hs)) hs))) ?_
    exact pairInv_meshSend (pred_ite (memInv_poisonLine (memInv_hbmMod hs)) hs)
  · exact hs

theorem memInv_packPrefetch {up : Bool} : MemInv (packPrefetch s st w line up) :=
  memInv_foldl _ hs fun _ _ ht => pred_ite (memInv_memFetch (memInv_countScope (memInv_slicePut ht))) ht

theorem pairInv_demandMiss : PairInv (demandMiss s st w line) :=
  pairInv_mk (pred_ite (memInv_packPrefetch (memInv_slicePut hs)) (memInv_slicePut hs))

theorem memInv_missFill {dirty nt flag : Bool} : MemInv (missFill s st w line dirty nt flag) :=
  pred_ite (memInv_countScope (memInv_countScope (memInv_l3Fill hs))) (memInv_countScope (memInv_l3Fill hs))

theorem memInv_l3FailOut : MemInv (l3FailOut s st line) := by
  unfold l3FailOut
  dsimp only
  split
  · exact hs
  · exact pred_ite hs (memInv_slicePut hs)

theorem memInv_homeRead {a : Agent} {nt demand : Bool} : MemInv (homeRead s st w a line nt demand) := by
  unfold homeRead
  refine pred_ite (memInv_l3FailOut (pred_ite (memInv_countScope hs) (memInv_l3SetAge (memInv_countScope hs)))) ?_
  refine pred_ite (pred_ite (memInv_l3Fill (memInv_packFree (memInv_countScope hs))) (memInv_countScope hs)) ?_
  extract_lets +onlyGivenNames _ m
  have hm : PairInv m := pred_ite (pairInv_demandMiss (memInv_memFetch (memInv_countScope hs)))
    (pairInv_mk (memInv_memFetch (memInv_countScope hs)))
  split
  · exact hm
  · exact memInv_missFill hm

theorem memInv_l2Take {nt : Bool} : MemInv (l2Take s n line v nt) := by
  unfold l2Take
  dsimp only
  refine pred_ite hs ?_
  split
  · exact memInv_plruUse (memInv_l2Put hs)
  · split
    · exact hs
    · exact memInv_plruUse (memInv_l2Put (pred_ite hs (memInv_l2Leave hs)))

theorem memInv_answerPkg {a : Agent} {grant : Option Nat} : MemInv (answerPkg s a line grant) := by
  unfold answerPkg
  split
  · exact memInv_sendMsg hs
  · exact memInv_sendMsg hs
  · exact hs

theorem memInv_doReadShared {a : Agent} {nt demand : Bool} : MemInv (doReadShared s st a line nt demand) := by
  unfold doReadShared
  extract_lets +onlyGivenNames _ _ _ s2 _
  have hs2 : MemInv s2 := memInv_foldl _ (memInv_homeRead hs) fun _ _ ht => pred_ite (memInv_countScope (memInv_sfOwner (memInv_l2Move ht)))
    (pred_ite (memInv_countScope (memInv_sfOwner (memInv_l2Move ht))) ht)
  split
  · refine pred_ite hs2 ?_
    extract_lets +onlyGivenNames _ s3
    have hs3 : MemInv s3 := memInv_l2Take (memInv_sfAddCore hs2)
    exact pred_ite (memInv_sfOwner hs3) hs3
  · exact memInv_answerPkg (memInv_lend (memInv_sfPkg hs2))
  · exact memInv_sfCourier hs2
  · exact hs2

theorem memInv_doReadOwn {a : Agent} {nt data : Bool} : MemInv (doReadOwn s st a line nt data) := by
  unfold doReadOwn
  extract_lets +onlyGivenNames _ _ s1
  have hs1 : MemInv s1 := pred_ite (memInv_homeRead (memInv_packFree hs)) (memInv_packFree hs)
  split
  · exact pred_ite (memInv_sfOwner (memInv_l2Take (memInv_sfAddCore (memInv_invOthers hs1)))) (memInv_invOthers hs1)
  · exact memInv_answerPkg (memInv_lend (memInv_sfPkg (memInv_invOthers hs1)))
  · exact memInv_invOthers hs1

theorem memInv_doReadOnce {a : Agent} {nt : Bool} : MemInv (doReadOnce s st a line nt) :=
  memInv_answerPkg (memInv_homeRead (memInv_countScope hs))

theorem memInv_writeAtHome {keep : Option Agent} {nt : Bool} : MemInv (writeAtHome s st w keep line nt) := by
  refine pred_ite (memInv_l3Fill (memInv_invOthers (memInv_packFree hs))) ?_
  exact memInv_missFill (pairInv_demandMiss (memInv_invOthers (memInv_packFree hs)))

theorem memInv_doWriteOnce {a : Agent} {nt : Bool} : MemInv (doWriteOnce s st a line nt) := memInv_writeAtHome (memInv_countScope hs)

theorem memInv_doRequest {a : Agent} {nt demand : Bool} : MemInv (doRequest s st op a line nt demand) := by
  unfold doRequest
  split
  · exact memInv_doReadShared hs
  · exact memInv_doReadOwn hs
  · exact memInv_doReadOwn hs
  · exact memInv_doWriteOnce hs
  · exact memInv_doReadOnce hs

theorem pairInv_evbRace {a : Agent} {nt demand : Bool} : PairInv (evbRace s st op a line nt demand) := by
  unfold evbRace
  dsimp only
  split
  · exact pairInv_mk (memInv_doRequest hs)
  · refine pred_ite (pred_ite (pairInv_mk hs) (pairInv_mk (memInv_countScope (memInv_slicePut hs)))) ?_
    exact pairInv_mk (memInv_doRequest (memInv_countScope (memInv_l3Fill (memInv_slicePut hs))))

theorem pairInv_agentSend {a : Agent} : PairInv (agentSend s a st) := by
  unfold agentSend
  split
  · exact pairInv_meshSend hs
  · exact hs

theorem memInv_agentReply {a : Agent} : MemInv (agentReply s a st) := by
  unfold agentReply
  split
  · exact pairInv_meshSend hs
  · exact hs

theorem memInv_slotTake {r : Nat × Agent × Nat} : MemInv (slotTake s st r) := memInv_sliceMod hs

theorem memInv_slotFree {r : Nat × Agent × Nat} : MemInv (slotFree s st r) := memInv_sliceMod hs

theorem pairInv_serveLine {a : Agent} {nt demand : Bool} : PairInv (serveLine s st op a line nt demand) := by
  unfold serveLine
  extract_lets +onlyGivenNames _ _ sent
  have hsent : PairInv sent := pred_ite (pairInv_mk hs) (pairInv_agentSend hs)
  refine pred_ite (pairInv_mk hs) ?_
  refine pred_ite (pairInv_mk hsent) ?_
  extract_lets +onlyGivenNames _ s1
  have hs1 : MemInv s1 := pred_ite hs (memInv_countScope hsent)
  refine pred_ite (pairInv_mk (memInv_slotTake hs1)) ?_
  refine pred_ite (pairInv_mk (memInv_snoopLent (memInv_slotTake hs1))) ?_
  extract_lets +onlyGivenNames r
  have hr : PairInv r := pairInv_evbRace (memInv_slotFree hs1)
  exact pairInv_mk (pred_ite (memInv_agentReply hr) hr)

theorem pairInv_request {a : Agent} {nt demand : Bool} : PairInv (request s op a line nt demand) := by
  unfold request
  split
  · split
    · exact pred_ite (pairInv_mk hs) (pairInv_mk (memInv_sendFrom hs))
    · exact hs
  · exact pred_ite (pairInv_mk hs) (pred_ite (pairInv_mk (pred_ite (memInv_domWake hs) hs)) (pairInv_serveLine hs))

theorem memInv_cxlDown : MemInv (cxlDown s pa) := by
  unfold cxlDown
  refine pred_ite ?_ hs
  split
  · exact memInv_rsetB hs
  · exact hs

theorem sndInv_lockGate : SndInv (lockGate s h) := by
  unfold lockGate
  dsimp only
  refine pred_ite hs ?_
  split
  · exact hs
  · exact memInv_mk hs
  · exact hs

theorem memInv_lineHit {u : LineUse} : MemInv (lineHit s n line u) := by
  unfold lineHit
  split
  · exact hs
  · extract_lets +onlyGivenNames s1 _ s3
    have hs1 : MemInv s1 := pred_ite (memInv_l2Put hs) hs
    have hs3 : MemInv s3 := pred_ite (memInv_l1Use (memInv_plruUse hs1)) (memInv_plruUse hs1)
    exact pred_ite (memInv_l2Leave hs3) hs3

theorem memInv_lineFilled {u : LineUse} : MemInv (lineFilled s n line u) := pred_ite (memInv_l1Use hs) hs

theorem memInv_noRouteCheck : MemInv (noRouteCheck s h pa) := memInv_tmod (memInv_reportErr hs)

theorem pairInv_hartRequest {a : Agent} {nt : Bool} : PairInv (hartRequest s h op a line nt) := by
  unfold hartRequest
  split
  · exact pred_ite (pairInv_mk (memInv_noRouteCheck (pairInv_request hs))) (pairInv_request hs)
  · exact pairInv_request hs

theorem pairInv_lineAsk {u : LineUse} : PairInv (lineAsk s h op line u) := by
  refine pred_ite (pairInv_mk (sndInv_lockGate hs)) ?_
  exact pred_ite (pairInv_mk (memInv_lineFilled (pairInv_hartRequest (sndInv_lockGate hs)))) (pairInv_hartRequest (sndInv_lockGate hs))

theorem memInv_heldUsed {u : LineUse} : MemInv (heldUsed s line u) := hs

theorem memInv_proxyAdd : MemInv (proxyAdd s line n v) := by
  unfold proxyAdd
  split
  · exact pred_ite (memInv_sfOwner (memInv_sfAddCore hs)) (memInv_sfAddCore hs)
  · exact hs

theorem memInv_proxyCourier : MemInv (proxyCourier s line) := by
  unfold proxyCourier
  dsimp only
  split
  · split
    · exact memInv_slicePut (memInv_invCourier hs)
    · exact memInv_invCourier hs
  · exact memInv_invCourier hs

theorem memInv_remoteUse {u : LineUse} : MemInv (remoteUse s n line u) := by
  unfold remoteUse
  extract_lets +onlyGivenNames _ _ s1 s2
  have hs1 : MemInv s1 := by
    unfold s1
    refine memInv_foldl _ hs fun _ _ ht => ?_
    refine pred_ite ?_ (memInv_l2Move ht)
    split
    · exact memInv_proxyDrop (memInv_l2Lose ht)
    · exact ht
  have hs2 : MemInv s2 := memInv_heldUsed (pred_ite (memInv_proxyCourier hs1) hs1)
  refine pred_ite hs2 ?_
  split
  · exact memInv_lineHit (pred_ite (memInv_l2Move hs2) (memInv_l2Move hs2))
  · exact memInv_lineFilled (memInv_l2Take (memInv_proxyAdd hs2))

theorem memInv_remoteAsk {write nc : Bool} : MemInv (remoteAsk s h p line write nc) := pred_ite hs (memInv_sendWait hs)

theorem pairInv_droverLine {u : LineUse} : PairInv (droverLine s h u pa) := by
  unfold droverLine
  refine pred_ite (pairInv_mk hs) ?_
  split
  · exact pred_ite (pairInv_mk (memInv_remoteUse hs)) (pairInv_mk (pred_ite (memInv_remoteAsk (sndInv_lockGate hs)) (sndInv_lockGate hs)))
  · refine pred_ite (pairInv_mk hs) ?_
    refine pred_ite (pairInv_lineAsk hs) ?_
    split
    · exact pred_ite (pairInv_mk (memInv_lineHit hs)) (pairInv_lineAsk hs)
    · exact pairInv_lineAsk hs

theorem memInv_cpRaise : MemInv (cpRaise s die k) := pred_ite (memInv_rput (memInv_countScope (memInv_rsetB (memInv_rsetB hs)))) hs

theorem memInv_cpEntered : MemInv (cpEntered s h pa) := by
  unfold cpEntered
  split
  · exact pred_ite (memInv_cpRaise hs) hs
  · exact hs

theorem pairInv_courierLine {u : LineUse} : PairInv (courierLine s h u pa) := by
  unfold courierLine
  extract_lets +onlyGivenNames _ cached fill
  have hFill {t : State} (ht : MemInv t) : MemInv (fill t) := by
    unfold fill
    split
    · exact memInv_sfCourier (memInv_lcFill ht)
    · exact memInv_lcFill ht
    · exact ht
  refine pred_ite (pairInv_mk hs) (pred_ite (pairInv_mk hs) ?_)
  split
  · exact pred_ite (pairInv_mk (hFill (memInv_heldUsed hs))) (pairInv_mk (memInv_remoteAsk hs))
  · refine pred_ite (pairInv_mk hs) ?_
    extract_lets r s1
    have hs1 : MemInv s1 := memInv_cpEntered (pairInv_hartRequest hs)
    exact pairInv_mk (pred_ite (hFill hs1) hs1)

theorem pairInv_lineTake {u : LineUse} : PairInv (lineTake s h u pa) := by
  unfold lineTake
  refine pred_ite (pairInv_mk hs) ?_
  split
  · exact pairInv_droverLine hs
  · exact pairInv_courierLine hs

theorem pairInv_linesTake {l : List (LineUse × Nat)} : PairInv (linesTake s h l) := by
  induction l generalizing s with
  | nil => exact hs
  | cons x l ih => exact pred_ite (ih (pairInv_lineTake hs)) (pairInv_lineTake hs)

theorem pairInv_portLine {n : Fin 12} {stream : Fin 64} {write nt : Bool} : PairInv (portLine s n stream write nt line) := by
  unfold portLine
  split
  · exact pred_ite (pairInv_mk hs) (pred_ite (pairInv_mk hs) (pairInv_mk (memInv_sendFrom hs)))
  · exact pred_ite (pairInv_mk hs) (pairInv_request hs)

/-! ### Translate -/

theorem memInv_drainOne : MemInv (drainOne s h) := by
  unfold drainOne
  split
  · exact hs
  · refine pred_ite hs ?_
    split
    · exact pred_ite hs (memInv_sendWait hs)
    · exact pred_ite (memInv_agentWrite (memInv_tmod (pairInv_lineTake hs))) (pairInv_lineTake hs)

theorem memInv_drainStores : MemInv (drainStores s h n) := by
  induction n generalizing s with
  | zero => exact hs
  | succ n ih => exact ih (memInv_drainOne hs)

theorem memInv_drainAll : MemInv (drainAll s h) := memInv_drainStores hs

theorem pairInv_walkLine {write : Bool} : PairInv (walkLine s r ea write) := by
  unfold walkLine
  split
  · exact pairInv_lineTake hs
  · exact pairInv_portLine hs
  · exact hs

theorem pairInv_readEntry : PairInv (readEntry s r ea) := by
  refine pred_ite (pairInv_mk hs) ?_
  refine pred_ite (pairInv_mk hs) ?_
  refine pred_ite (pairInv_mk (memInv_cxlDown hs)) ?_
  exact pred_ite (pairInv_mk (pairInv_walkLine hs)) (pred_ite (pairInv_mk (pairInv_walkLine hs)) (pairInv_mk (pairInv_walkLine hs)))

theorem memInv_writeEntry : MemInv (writeEntry s me ea v) := memInv_agentWrite hs

theorem memInv_countAd : MemInv (countAd s me ev) := by
  unfold countAd
  split
  · exact memInv_countThread hs
  · exact hs

theorem pairInv_adReady : PairInv (adReady s r ea) := by
  unfold adReady
  split
  · exact pred_ite (pairInv_walkLine (sndInv_lockGate hs)) (pairInv_mk (sndInv_lockGate hs))
  · exact pairInv_walkLine hs

theorem pairInv_walk2 {kind : AKind} {needD : Bool} {table ia tbl : Nat} : PairInv (walk2 s r kind needD table ia tbl k) := by
  induction k generalizing s table with
  | zero => exact hs
  | succ k ih =>
    unfold walk2
    dsimp only
    split
    next e => exact memInv_fst e (pairInv_readEntry hs)
    next e =>
      have h1 := memInv_fst e (pairInv_readEntry hs)
      split
      · exact h1
      · split
        · next e => exact memInv_fst e (ih h1)
        · next e => exact memInv_fst e (ih h1)
      · split
        · exact h1
        · exact pred_ite (pred_ite (memInv_countAd (memInv_writeEntry (pairInv_adReady h1))) (pairInv_adReady h1)) h1

theorem pairInv_stage2 {kind : AKind} {needD : Bool} {ia tbl : Nat} : PairInv (stage2 s r kind needD ia tbl) :=
  pred_ite (pairInv_mk hs) (pairInv_walk2 hs)

theorem memInv_setD : MemInv (setD s r ea) := pred_ite hs (memInv_countAd (memInv_writeEntry hs))

theorem pairInv_updateReady {gpa : Nat} : PairInv (updateReady s r ea gpa) := by
  unfold updateReady
  refine pred_ite ?_ (pred_ite (pairInv_mk (pairInv_adReady hs)) (pairInv_mk (pairInv_adReady hs)))
  split
  next e => exact memInv_fst e (pairInv_stage2 hs)
  next e =>
    have h1 := memInv_fst e (pairInv_stage2 hs)
    refine pred_ite ?_ (pred_ite (pairInv_mk (pairInv_adReady h1)) (pairInv_mk (pairInv_adReady h1)))
    refine pred_ite ?_ (pairInv_mk (pairInv_adReady h1))
    exact pred_ite (pairInv_mk (pairInv_adReady (pairInv_adReady h1))) (pairInv_mk (pairInv_adReady (pairInv_adReady h1)))

theorem pairInv_setA1 {gpa : Nat} : PairInv (setA1 s r ea gpa e) := by
  unfold setA1
  split
  next e => exact memInv_fst e (pairInv_updateReady hs)
  next e =>
    have h1 := memInv_fst e (pairInv_updateReady hs)
    refine pairInv_mk ?_
    refine memInv_countAd ?_
    refine memInv_writeEntry ?_
    split
    · exact memInv_setD h1
    · exact h1

theorem pairInv_entryAddr {gpa : Nat} : PairInv (entryAddr s r gpa) := by
  unfold entryAddr
  refine pred_ite ?_ (pairInv_mk hs)
  split
  next e => exact memInv_fst e (pairInv_stage2 hs)
  next e => exact memInv_fst e (pairInv_stage2 hs)

theorem pairInv_finish1 {kind : AKind} {needD : Bool} {out : Nat} {l : TLeaf} : PairInv (finish1 s r kind needD out l) := by
  unfold finish1
  refine pred_ite ?_ (pairInv_mk hs)
  split
  next e => exact memInv_fst e (pairInv_stage2 hs)
  next e => exact memInv_fst e (pairInv_stage2 hs)

theorem pairInv_walk1 {kind : AKind} {needD : Bool} {table ia : Nat} : PairInv (walk1 s r kind needD table ia k) := by
  induction k generalizing s table with
  | zero => exact hs
  | succ k ih =>
    unfold walk1
    dsimp only
    split
    next e => exact memInv_fst e (pairInv_entryAddr hs)
    next e =>
      have h1 := memInv_fst e (pairInv_entryAddr hs)
      split
      next e => exact memInv_fst e (pairInv_readEntry h1)
      next e =>
        have h2 := memInv_fst e (pairInv_readEntry h1)
        split
        · exact h2
        · split
          · next e => exact memInv_fst e (ih h2)
          · next e => exact memInv_fst e (ih h2)
        · split
          · exact h2
          · refine pred_ite ?_ (pairInv_finish1 h2)
            split
            next e => exact memInv_fst e (pairInv_setA1 h2)
            next e => exact pairInv_finish1 (memInv_fst e (pairInv_setA1 h2))

theorem pairInv_walk {kind : AKind} {needD : Bool} : PairInv (walk s r kind needD va) := by
  unfold walk
  refine pred_ite (pred_ite (pairInv_mk hs) ?_) (pred_ite ?_ (pred_ite (pairInv_mk hs) (pairInv_mk hs)))
  · extract_lets b
    have h1 : PairInv (walk1 s r kind needD b.1 va b.2) := pairInv_walk1 hs
    split
    · next e => exact memInv_fst e h1
    next e =>
      have h2 := memInv_fst e h1
      split
      · refine pred_ite ?_ (pairInv_mk h2)
        split
        · next e => exact memInv_fst e (pairInv_stage2 h2)
        · next e => exact memInv_fst e (pairInv_stage2 h2)
      · exact h2
  · split
    · next e => exact memInv_fst e (pairInv_stage2 hs)
    · next e => exact memInv_fst e (pairInv_stage2 hs)

theorem memInv_tlbPut {l : List TlbEnt} : MemInv (tlbPut s h l) := by
  unfold tlbPut
  split
  · exact memInv_cput hs
  · exact hs

theorem memInv_tlbDrop : MemInv (tlbDrop s h r va) := memInv_tlbPut hs

theorem memInv_tlbAdd {t : Tran} : MemInv (tlbAdd s h r va t) := by
  unfold tlbAdd
  split
  · exact hs
  · exact pred_ite hs (memInv_cput hs)

theorem pairInv_translate {kind : AKind} {needD : Bool} : PairInv (translate s h kind needD va) := by
  unfold translate
  extract_lets r
  split
  · exact hs
  · have hw : PairInv (walk s { r with wc := wcOf s h } kind needD va) := pairInv_walk hs
    split
    · next e => exact memInv_tlbAdd (memInv_fst e hw)
    · next e =>
      extract_lets s2
      have hs2 : MemInv s2 := memInv_drainAll (memInv_tlbDrop (memInv_fst e hw))
      refine pred_ite (pairInv_mk hs2) ?_
      split
      · next e => exact memInv_tlbAdd (memInv_fst e (pairInv_walk hs2))
      · next e => exact memInv_fst e (pairInv_walk hs2)
    · next e => exact memInv_fst e hw

theorem pairInv_pageReady {s1 s2 : Option TLeaf} : PairInv (pageReady s r s1 s2) := by
  unfold pageReady
  extract_lets +onlyGivenNames _ a
  have ha : PairInv a := by
    unfold a
    split
    · refine pred_ite ?_ (pairInv_mk hs)
      split
      next e => exact memInv_fst e (pairInv_updateReady hs)
      next e => exact memInv_fst e (pairInv_updateReady hs)
    · exact hs
  split
  · exact pred_ite (pairInv_adReady ha) (pairInv_mk ha)
  · exact ha

theorem memInv_pageCommit {s1 s2 : Option TLeaf} : MemInv (pageCommit s r s1 s2) := by
  unfold pageCommit
  extract_lets +onlyGivenNames a
  have ha : MemInv a := by
    unfold a
    split
    · refine pred_ite ?_ hs
      extract_lets +onlyGivenNames b
      have hb : MemInv b := by
        unfold b
        refine pred_ite ?_ hs
        split
        next e =>
          have h2 := memInv_fst e (pairInv_stage2 hs)
          exact pred_ite (memInv_setD h2) h2
        next e => exact memInv_fst e (pairInv_stage2 hs)
      exact memInv_setD hb
    · exact hs
  split
  · exact pred_ite (memInv_setD ha) ha
  · exact ha

theorem pairInv_commitReady {ps : Pages} : PairInv (commitReady s h ps) :=
  pairInv_foldl _ (pairInv_mk hs) fun _ _ ht => pred_ite (pairInv_mk ht) (pairInv_mk
    (pred_ite (pairInv_pageReady ht) (memInv_tlbDrop (pairInv_pageReady ht))))

theorem memInv_commitPages {ps : Pages} : MemInv (commitPages s h ps) :=
  memInv_foldl _ hs fun _ _ ht => pred_ite (memInv_tlbDrop (memInv_pageCommit ht)) ht

theorem pairInv_tranExc {kind : AKind} {half : Nat} {x : TErr} : PairInv (tranExc s h kind va half x) := by
  unfold tranExc
  split
  · exact hs
  · refine pairInv_mk ?_
    split
    · exact memInv_violation hs
    · exact hs
  · exact hs
  · exact pairInv_mk (pairInv_consume hs)
  · exact hs

/-! ### Run -/

theorem memInv_addGroup {r : GroupRec} : MemInv (addGroup s h kind r) := hs

theorem memInv_pushGroup {r : GroupRec} : MemInv (pushGroup s h r) := pred_ite (memInv_addGroup hs) hs

theorem memInv_takeInterrupt {l : Level} : MemInv (takeInterrupt s h l) := memInv_pushGroup (memInv_takeAt hs)

theorem memInv_takeMchk : MemInv (takeMchk s h) := by
  unfold takeMchk
  split
  · exact hs
  · exact memInv_pushGroup (memInv_takeAt (memInv_tmod hs))

theorem memInv_haltNow : MemInv (haltNow s h) := memInv_tmod hs

theorem memInv_cairnSync : MemInv (cairnSync s h) := pred_ite (memInv_mk hs) hs

theorem memInv_haltAt : MemInv (haltAt s h) := pred_ite (memInv_cairnSync (memInv_haltNow (memInv_drainAll hs))) hs

theorem optInv_atBoundary : OptInv (atBoundary s h) := by
  refine pred_ite (optInv_some (memInv_addGroup hs)) ?_
  refine pred_ite (optInv_some (memInv_haltAt hs)) ?_
  exact pred_ite (optInv_some (memInv_takeMchk hs)) (optInv_map fun _ => memInv_takeInterrupt hs)

theorem memInv_sample {pc : Word} {info : RetInfo} : MemInv (sample s h pc info) := by
  unfold sample
  dsimp only
  split
  · exact hs
  · refine pred_ite (memInv_tmod hs) ?_
    refine pred_ite (memInv_tmod (memInv_tmod hs)) ?_
    exact memInv_tmod (pred_ite (memInv_mk (memInv_tmod (memInv_useFree (memInv_tmod hs))))
      (memInv_agentWrite (memInv_useFree (memInv_tmod hs))))

theorem memInv_retire {t0 : Thread} {pc : Word} {info : RetInfo} : MemInv (retire s h t0 pc info) := by
  refine pred_ite (memInv_takeException (memInv_pushGroup (memInv_sample (memInv_countEvents (memInv_tmod (memInv_tmod hs)))))) ?_
  exact memInv_pushGroup (memInv_sample (memInv_countEvents (memInv_tmod (memInv_tmod hs))))

theorem effInv_fin {word : BitVec 32} : EffInv (fin s h word) := hs

theorem memInv_vdirty {v : VecUse} : MemInv (vdirty s h v) := pred_ite (memInv_tmod hs) hs

theorem pairInv_fetchCheck : PairInv (fetchCheck s h) := by
  unfold fetchCheck
  dsimp only
  split
  next e => exact pairInv_mk (pairInv_tranExc (memInv_fst e (pairInv_translate hs)))
  next e =>
    have h1 := memInv_fst e (pairInv_translate hs)
    refine pred_ite (pairInv_mk ?_) ?_
    · split
      · exact memInv_violation h1
      · exact h1
    · refine pred_ite (pairInv_mk (pairInv_consume (memInv_cxlDown h1))) ?_
      exact pred_ite (pairInv_mk (pairInv_lineTake h1)) (pred_ite (pairInv_mk (pairInv_consume (pairInv_lineTake h1)))
        (pairInv_mk (pairInv_lineTake h1)))

theorem pairInv_fetchLine : PairInv (fetchLine s h a) := by
  refine pred_ite (pairInv_lineTake (memInv_of_pair (pred_ite (pairInv_courier hs) (pairInv_mk hs)))) ?_
  exact pred_ite (pairInv_courier hs) (pairInv_mk hs)

theorem pairInv_physFetch : PairInv (physFetch s h) := by
  unfold physFetch
  dsimp only
  split
  · exact hs
  · split
    · exact hs
    · exact pred_ite (pairInv_mk (pairInv_consume hs)) (pairInv_mk hs)
    · exact hs
    · exact hs
    · exact hs
    · exact hs
    · exact hs
    · refine pred_ite (pairInv_mk hs) ?_
      refine pred_ite (pairInv_mk (pairInv_fetchLine hs)) ?_
      exact pred_ite (pairInv_mk (pairInv_consume (pairInv_fetchLine hs))) (pairInv_mk (pairInv_fetchLine hs))

theorem memInv_raise {e : Exc} {word : BitVec 32} : MemInv (raise s h e word) := memInv_pushGroup (memInv_takeException hs)

theorem optInv_boundary {word : BitVec 32} : OptInv (boundary s h word) := pred_ite optInv_none (optInv_atBoundary hs)

theorem memInv_runFetched {q : BitVec 4} {i : Ins} {body : State → Eff} (hbody : ∀ t, MemInv t → EffInv (body t)) :
    MemInv (runFetched s h q i body) := by
  unfold runFetched
  refine pred_ite (memInv_raise hs) ?_
  refine pred_ite (memInv_retire hs) ?_
  refine pred_ite (memInv_stall hs) ?_
  split
  · exact memInv_raise hs
  · split
    next e => exact memInv_retire (memInv_vdirty (memInv_of_eff e (hbody _ hs)))
    next e => exact memInv_raise (memInv_of_eff e (hbody _ hs))
    next e => exact memInv_of_eff e (hbody _ hs)

theorem outInv_runInstr {q : BitVec 4} {i : Ins} {body : State → Eff} (hbody : ∀ t, MemInv t → EffInv (body t)) :
    OutInv (runInstr s h q i body) := by
  unfold runInstr
  refine pred_ite (outInv_next hs) ?_
  split
  next e => exact outInv_next ((optInv_boundary hs) _ e)
  · extract_lets +onlyGivenNames f
    have hf : PairInv f := pred_ite (pairInv_fetchCheck hs) (pairInv_physFetch hs)
    split
    · exact outInv_next (memInv_raise hf)
    · exact pred_ite (outInv_next hf) (outInv_next (memInv_runFetched hf (fun _ ht => hbody _ ht)))

theorem outInv_runX {q : BitVec 4} {i : Ins} {rd : Reg} {f : Thread → Word} : OutInv (runX s h q i rd f) :=
  outInv_runInstr hs (fun _ ht => effInv_fin (memInv_tmod ht))

/-! ### Branch -/

theorem memInv_rsPush {a : Word} : MemInv (rsPush s h a) := by
  unfold rsPush
  split
  · exact hs
  · exact memInv_tmod hs

theorem memInv_rsPop : MemInv (rsPop s h) := memInv_tmod hs

theorem memInv_rsHint {rd rs1 : Reg} {ret : Word} : MemInv (rsHint s h rd rs1 ret) :=
  pred_ite hs (pred_ite (memInv_rsPush hs) (pred_ite (memInv_rsPop hs) (pred_ite (memInv_rsPush (memInv_rsPop hs)) hs)))

theorem outInv_execJl {q : BitVec 4} {imm : BitVec 22} : OutInv (execJl h q imm s) :=
  outInv_runInstr hs (fun _ ht => effInv_done (memInv_tmod (memInv_rsPush ht)))

theorem outInv_execJalr {q : BitVec 4} {rd rs1 : Reg} {imm : BitVec 12} : OutInv (execJalr h q rd rs1 imm s) :=
  outInv_runInstr hs (fun _ ht => pred_ite ht (effInv_done (memInv_tmod (memInv_rsHint ht))))

/-! ### Predict -/

theorem memInv_train {pc val : Word} : MemInv (train s h kind pc val) := by
  unfold train
  split
  · exact memInv_cput hs
  · exact hs

theorem memInv_trainBranch {pc : Word} {b : BrKind} {tkn : Bool} {target : Word} : MemInv (trainBranch s h pc b tkn target) := by
  unfold trainBranch
  refine pred_ite ?_ ?_
  · refine memInv_train ?_
    split
    · exact pred_ite hs (memInv_train hs)
    · exact hs
  · split
    · exact pred_ite hs (memInv_train hs)
    · exact hs

theorem memInv_prefetch {own nt : Bool} {side : Nat} : MemInv (prefetch s h va own nt side) := by
  unfold prefetch
  refine pred_ite hs ?_
  split
  next e =>
    have h1 := memInv_fst e (pairInv_translate hs)
    exact pred_ite h1 (pairInv_lineTake h1)
  · exact hs

theorem memInv_hwPrefetch {l2 : Bool} {trig : Nat} : MemInv (hwPrefetch s h l2 trig va) := by
  unfold hwPrefetch
  refine pred_ite hs ?_
  split
  · exact hs
  · exact pred_ite hs (pairInv_lineTake hs)

theorem memInv_touch {fetch : Bool} : MemInv (touch s h va fetch) := by
  unfold touch
  refine pred_ite hs ?_
  split
  next e =>
    have h1 := memInv_fst e (pairInv_translate hs)
    exact pred_ite h1 (pairInv_lineTake h1)
  · exact hs

theorem memInv_leaveTrace {e : Trace} : MemInv (leaveTrace h s e) := by
  unfold leaveTrace
  split
  · exact memInv_rsPush hs
  · exact pred_ite hs (memInv_rsPop hs)
  · exact memInv_touch hs
  · exact pred_ite hs (memInv_train hs)
  · exact memInv_hwPrefetch hs

/-! ### SysRegs -/

theorem pairInv_pmcRead : PairInv (pmcRead s h e) :=
  pred_ite (pairInv_mk hs) (pred_ite (pairInv_mk (memInv_useFree hs)) (pred_ite (pairInv_mk hs) (pairInv_mk hs)))

theorem pairInv_sysRead : PairInv (sysRead s h n) := by
  unfold sysRead
  refine pred_ite (pairInv_mk hs) ?_
  refine pred_ite (pairInv_mk hs) ?_
  refine pred_ite (pairInv_mk hs) ?_
  refine pred_ite (pairInv_mk hs) ?_
  refine pred_ite (pred_ite (pairInv_mk (memInv_tmod (pairInv_pmcRead hs))) (pairInv_mk (pairInv_pmcRead hs))) ?_
  exact pred_ite (pairInv_mk hs) (pred_ite (pairInv_mk hs) (pairInv_mk hs))

theorem memInv_ovfWrite {v : Word} : MemInv (ovfWrite s h k v) := hs

theorem memInv_sysWrite {v : Word} : MemInv (sysWrite s h n v) :=
  pred_ite hs (pred_ite (memInv_ovfWrite hs) (pred_ite (memInv_tput hs) (pred_ite (memInv_tput hs) (memInv_tput hs))))

/-! ### Gate -/

theorem memInv_wakeWait {w : WaitSt} {reasons : Nat} : MemInv (wakeWait s h w reasons) := memInv_retire (memInv_tput hs)

theorem memInv_invCore {m : InvMsg} : MemInv (invCore s k m) := memInv_cput hs

theorem memInv_sendInv {m : InvMsg} : MemInv (sendInv s h k m) :=
  memInv_foldl _ (memInv_mk (memInv_invCore hs)) fun _ _ ht => memInv_sendWait ht

theorem memInv_ackInv : MemInv (ackInv s id p) := hs

/-! ### System -/

theorem outInv_execMfs {q : BitVec 4} {rd : Reg} {sn : BitVec 12} : OutInv (execMfs h q rd sn s) :=
  outInv_runInstr hs (fun _ ht => effInv_fin (memInv_tmod (pairInv_sysRead ht)))

theorem effInv_callExc {imm : BitVec 16} : EffInv (callExc s h cause imm) := effInv_exc (memInv_tmod (memInv_countEvents hs))

theorem outInv_execSyncSt {q : BitVec 4} : OutInv (execSyncSt h q s) :=
  outInv_runInstr hs (fun _ ht => effInv_fin (pred_ite ht (memInv_countThread (memInv_tmod ht))))

theorem outInv_execXret {q : BitVec 4} : OutInv (execXret h q s) :=
  outInv_runInstr hs (fun _ ht => pred_ite ht (effInv_done (pred_ite (memInv_guestEntry (memInv_tput ht)) (memInv_tput ht))))

theorem outInv_execWait {q : BitVec 4} {rd rs1 : Reg} : OutInv (execWait h q rd rs1 s) :=
  outInv_runInstr hs (fun _ ht => pred_ite (effInv_fin (memInv_tmod ht)) (effInv_stay (memInv_tmod ht)))

theorem outInv_execBpFlush {q : BitVec 4} : OutInv (execBpFlush h q s) := by
  unfold execBpFlush
  refine outInv_runInstr hs (fun _ ht => ?_)
  split
  · split
    · exact effInv_fin (memInv_foldl _ (memInv_cput ht) fun _ _ ht => memInv_tmod ht)
    · exact effInv_fin (memInv_cput ht)
  · exact effInv_fin ht

theorem outInv_execSealRot {q : BitVec 4} : OutInv (execSealRot h q s) := by
  unfold execSealRot
  refine outInv_runInstr hs (fun _ ht => ?_)
  split
  · exact pred_ite (effInv_fin (memInv_foldl _ (memInv_cput (memInv_useFree ht)) fun _ _ ht => memInv_tmod ht)) ht
  · exact effInv_fin ht

theorem outInv_runInv {q : BitVec 4} {w : BitVec 32} {xs : List Reg} {sc : Nat} {addr id : Thread → Word} :
    OutInv (runInv s h q w xs sc addr id) := by
  unfold runInv
  refine outInv_runInstr hs (fun _ ht => ?_)
  refine pred_ite (memInv_drainAll ht) ?_
  refine pred_ite (sndInv_lockGate (memInv_drainAll ht)) ?_
  split
  · exact effInv_done (memInv_sendInv (memInv_drainAll ht))
  · exact memInv_drainAll ht

/-! ### ThreadCtl -/

theorem memInv_setStartErr : MemInv (setStartErr s h) := by
  unfold setStartErr
  split
  · exact memInv_rsetB hs
  · exact memInv_rsetB hs
  · exact hs

theorem memInv_startGo : MemInv (startGo s h) := pred_ite (memInv_setStartErr hs) (memInv_tmod (memInv_emptyRunStacks hs))

theorem memInv_startStop : MemInv (startStop s h) := by
  unfold startStop
  split
  · exact pred_ite hs (pred_ite (memInv_tput hs) (memInv_tput hs))
  · exact pred_ite (memInv_tput hs) (memInv_tput hs)

theorem memInv_startCtl {go stop : Bool} : MemInv (startCtl s h go stop) := pred_ite (memInv_startStop hs) (pred_ite (memInv_startGo hs) hs)

theorem memInv_ovfClear : MemInv (ovfClear s h) := hs

theorem memInv_startDone : MemInv (startDone s h) := by
  unfold startDone
  split
  · exact hs
  · exact pred_ite (memInv_cairnSync (memInv_stall (memInv_tput (memInv_ovfClear hs)))) hs

theorem memInv_stopDone : MemInv (stopDone s h) :=
  pred_ite (pred_ite (memInv_cairnSync (memInv_emptyRunStacks (memInv_stopThread (memInv_drainAll hs)))) (memInv_drainAll hs)) hs

theorem memInv_stopAll {l : List Hart} : MemInv (stopAll s l) := memInv_foldl _ hs fun _ _ ht => memInv_startStop ht

theorem memInv_dbgRefuse : MemInv (dbgRefuse s st c) := memInv_rsetB hs

theorem memInv_haltReq : MemInv (haltReq s w st c t) := pred_ite (pred_ite hs (memInv_tmod hs)) (memInv_dbgRefuse hs)

theorem memInv_resumeNow : MemInv (resumeNow s h) := pred_ite (memInv_cairnSync (memInv_tput hs)) hs

theorem memInv_resumeReq : MemInv (resumeReq s w st c t) := pred_ite (memInv_resumeNow hs) (memInv_dbgRefuse hs)

theorem memInv_dbgCtl : MemInv (dbgCtl s w st c v) := by
  unfold dbgCtl
  extract_lets +onlyGivenNames s1 s2 s3
  have hs1 : MemInv s1 := pred_ite (memInv_haltReq hs) hs
  have hs2 : MemInv s2 := pred_ite (memInv_haltReq hs1) hs1
  have hs3 : MemInv s3 := pred_ite (memInv_resumeReq hs2) hs2
  exact pred_ite (memInv_resumeReq hs3) hs3

theorem memInv_haltDone : MemInv (haltDone s h) := by
  unfold haltDone
  refine pred_ite ?_ hs
  refine memInv_haltAt ?_
  split
  · exact memInv_wakeWait hs
  · exact memInv_tmod hs

theorem memInv_dbgWithdraw : MemInv (dbgWithdraw s w) := memInv_foldl _ hs fun _ _ ht => pred_ite (memInv_resumeNow (memInv_tmod ht)) ht

theorem pairInv_dbgGet {e : Hart × Nat × Nat} : PairInv (dbgGet s e) := by
  unfold dbgGet
  split
  · exact hs
  · exact hs
  · exact hs
  · exact hs
  · exact pred_ite (pairInv_mk (pairInv_sysRead hs)) (pairInv_mk hs)
  · exact hs

theorem memInv_dbgPut {e : Hart × Nat × Nat} {x : Nat} : MemInv (dbgPut s e x) := by
  unfold dbgPut
  split
  · exact pred_ite (memInv_tput hs) hs
  · exact pred_ite (memInv_tput hs) hs
  · exact pred_ite (memInv_tput hs) hs
  · exact memInv_tput hs
  · exact pred_ite (memInv_sysWrite hs) hs
  · exact pred_ite (memInv_tput hs) hs

theorem memInv_dbgRcmd : MemInv (dbgRcmd s w st c v) :=
  pred_ite hs (pred_ite (memInv_rsetB hs) (pred_ite (memInv_rput64 (pairInv_dbgGet hs)) (memInv_dbgPut hs)))

theorem outInv_execTakeInterrupt : OutInv (execTakeInterrupt h s) := by
  unfold execTakeInterrupt
  refine pred_ite (outInv_next hs) ?_
  refine pred_ite (outInv_next (memInv_takeMchk hs)) ?_
  refine pred_ite (outInv_next hs) ?_
  split
  · exact outInv_next (memInv_takeInterrupt hs)
  · exact outInv_next hs

theorem memInv_threadWake : MemInv (threadWake s h) :=
  pred_ite (memInv_pkgWake hs) (pred_ite (memInv_countThread (memInv_domWake hs)) (memInv_domWake hs))

theorem outInv_execWaitWake : OutInv (execWaitWake h s) := by
  unfold execWaitWake
  split
  · exact outInv_next hs
  · exact pred_ite (outInv_next hs) (pred_ite (outInv_next (memInv_threadWake hs)) (outInv_next (memInv_wakeWait hs)))

theorem outInv_execBranchResolve {pc : Word} {b : BrKind} {dir tkn : Bool} {target : Word} {traces : List Trace} :
    OutInv (execBranchResolve h pc b dir tkn target traces s) := by
  unfold execBranchResolve
  refine pred_ite (outInv_next hs) ?_
  extract_lets +onlyGivenNames _ s2
  have hs2 : MemInv s2 := pred_ite (memInv_countThread (memInv_trainBranch hs)) (memInv_trainBranch hs)
  exact outInv_next (memInv_foldl _ (pred_ite (memInv_countThread hs2) hs2) fun _ _ ht => memInv_leaveTrace ht)

theorem outInv_execMemoryOrderViolation {load : Reissue} : OutInv (execMemoryOrderViolation h load s) := by
  refine pred_ite (outInv_next hs) ?_
  exact outInv_next (memInv_foldl _ (memInv_tmod (memInv_countThread (memInv_train hs))) fun _ _ ht => memInv_leaveTrace ht)

/-! ### Caches -/

theorem memInv_wayCount : MemInv (wayCount s st blk off) := memInv_rsat (memInv_rsat hs)

theorem memInv_wayDisable : MemInv (wayDisable s st place) := pred_ite (memInv_rsetB (memInv_mk hs)) (memInv_rsetB (memInv_mk hs))

theorem memInv_wayCe {thr : Nat} {may : Bool} : MemInv (wayCe s st blk cnt thr place src addr may) :=
  pred_ite (memInv_wayDisable (memInv_reportErr (memInv_wayCount hs))) (memInv_reportErr (memInv_wayCount hs))

theorem memInv_wayUe : MemInv (wayUe s st place src addr) := memInv_wayDisable (memInv_reportErr (memInv_markPoison hs))

theorem memInv_cleanDrop {arr : CacheArr} : MemInv (cleanDrop s arr addr) := by
  unfold cleanDrop
  split
  · exact memInv_l1SideDrop hs
  · exact memInv_l1SideDrop hs
  · split
    · exact memInv_sfDropCore (memInv_l2Lose hs)
    · exact memInv_remoteLeave (memInv_l2Lose hs)
    · exact hs
  · split
    · exact memInv_slicePut hs
    · exact hs
  · exact hs

theorem memInv_tagLost {dirty : Bool} : MemInv (tagLost s st place addr dirty src) := by
  unfold tagLost
  extract_lets +onlyGivenNames _ _ _ s1
  have hs1 : MemInv s1 := by
    unfold s1
    refine pred_ite ?_ ?_
    · split
      · exact memInv_l2Lose hs
      · exact hs
    · split
      · exact memInv_slicePut hs
      · exact hs
  exact pred_ite (memInv_reportErr (memInv_freeLine hs1)) (memInv_reportErr hs1)

theorem outInv_execCacheArrayError {arr : CacheArr} {ue dirty : Bool} : OutInv (execCacheArrayError arr addr ue dirty s) := by
  unfold execCacheArrayError
  extract_lets +onlyGivenNames s1
  have hs1 : MemInv s1 := pred_ite (memInv_cleanDrop hs) hs
  split
  · exact outInv_next (memInv_reportErr (memInv_cleanDrop hs))
  · exact pred_ite (outInv_next (memInv_wayUe hs)) (outInv_next (memInv_wayCe hs1))
  · exact pred_ite (outInv_next (memInv_wayUe hs)) (outInv_next (memInv_wayCe hs1))
  · exact pred_ite (outInv_next (memInv_tagLost hs)) (outInv_next (memInv_wayCe hs))
  · refine pred_ite (pred_ite (outInv_next (memInv_reportErr (memInv_markPoison hs))) (outInv_next (memInv_wayCe hs))) ?_
    exact pred_ite (outInv_next (memInv_wayUe hs)) (outInv_next (memInv_wayCe hs1))
  · exact pred_ite (outInv_next (memInv_tagLost hs)) (outInv_next (memInv_wayCe hs))

theorem memInv_wayEmpty : MemInv (wayEmpty s st place) :=
  pred_ite (memInv_foldl _ hs fun _ _ ht => memInv_l2Leave ht) (pred_ite (memInv_mk hs) (memInv_slicePut hs))

theorem outInv_execWayDisableDone : OutInv (execWayDisableDone st place s) := by
  unfold execWayDisableDone
  refine pred_ite (outInv_next hs) ?_
  refine pred_ite (outInv_next (memInv_wayEmpty hs)) ?_
  refine pred_ite (outInv_next (memInv_reportErr (memInv_rsetB (memInv_rsetB (pred_ite (memInv_rsetB (memInv_mk (memInv_wayEmpty hs)))
    (memInv_rsetB (memInv_mk (memInv_wayEmpty hs)))))))) ?_
  exact outInv_next (memInv_reportErr (memInv_rsetB (memInv_rsetB (memInv_rsetB (memInv_rsetB (memInv_mk (memInv_wayEmpty hs)))))))

theorem memInv_reenable {failed : Nat} : MemInv (reenable s st blk failed cnt n v) :=
  memInv_foldl _ hs fun _ _ ht => pred_ite (memInv_rputF (memInv_rsetB ht)) ht

theorem memInv_reenableL3 : MemInv (reenableL3 s st v) := memInv_rsetB (memInv_reenable hs)

theorem memInv_winClear : MemInv (winClear s st blk cnt n) := memInv_foldl _ hs fun _ _ ht => memInv_rputF ht

theorem memInv_l2En {on : Bool} : MemInv (l2En s st c on) := pred_ite (memInv_rsetB (memInv_rsetB hs)) (memInv_rsetB hs)

theorem outInv_execL2DrainDone : OutInv (execL2DrainDone st c s) :=
  pred_ite (outInv_next (memInv_rsetB (memInv_l2Empty hs))) (outInv_next hs)

theorem memInv_l3En {on : Bool} : MemInv (l3En s st on) := pred_ite (memInv_sliceMod (memInv_rsetB (memInv_rsetB hs))) (memInv_rsetB hs)

theorem memInv_l3Empty : MemInv (l3Empty s st) := memInv_foldl _ (memInv_slicePut hs) fun _ _ ht => memInv_doRequest ht

theorem outInv_execL3DrainDone : OutInv (execL3DrainDone st s) := by
  refine pred_ite (outInv_next hs) ?_
  refine pred_ite (outInv_next (memInv_domOff (memInv_rsetB (memInv_mk (memInv_l3Empty
    (memInv_sfEmpty (memInv_rsetB (memInv_l3Empty hs)))))))) ?_
  exact outInv_next (memInv_rsetB (memInv_l3Empty hs))

theorem memInv_retireSlice : MemInv (retireSlice s st) := memInv_mk (memInv_l3En (memInv_rsetB hs))

theorem memInv_depotWrite : MemInv (depotWrite s w st v) := pred_ite (memInv_rsetB hs) (memInv_rsetB (memInv_rput hs))

theorem memInv_depotApply : MemInv (depotApply s st) := memInv_mk (memInv_foldl _ hs fun _ _ ht => pred_ite (memInv_memZero ht) ht)

theorem outInv_execConvertDone : OutInv (execConvertDone st s) :=
  pred_ite (outInv_next (memInv_rsetB (memInv_depotApply hs))) (outInv_next hs)

theorem outInv_execWriteOnce {a : Agent} : OutInv (execWriteOnce a pa data s) := by
  unfold execWriteOnce
  refine pred_ite (outInv_next hs) ?_
  split
  · split
    · exact outInv_next (memInv_sendWait hs)
    · exact outInv_next hs
  · exact outInv_next (pred_ite (memInv_answerPkg (memInv_agentWrite (pairInv_request hs))) (pairInv_request hs))

theorem outInv_execWriteBack {a : Agent} : OutInv (execWriteBack a line data s) := by
  unfold execWriteBack
  split
  · split
    · refine pred_ite (outInv_next hs) ?_
      split
      · exact outInv_next (memInv_l2Leave (memInv_countScope hs))
      · exact outInv_next (memInv_l2Leave hs)
    · split
      · exact pred_ite (outInv_next (memInv_sendWait (memInv_mk hs))) (outInv_next hs)
      · exact outInv_next hs
  · split
    · exact outInv_next (memInv_answerPkg (memInv_l3Fill (memInv_agentWrite (memInv_packFree
        (memInv_sfPkg (memInv_lend (memInv_countScope hs)))))))
    · exact outInv_next hs
  · exact outInv_next hs

theorem outInv_execNotify {a : Agent} : OutInv (execNotify a line s) := by
  unfold execNotify
  split
  · split
    · refine pred_ite (outInv_next hs) ?_
      split
      · exact outInv_next (memInv_l2Leave (memInv_countScope hs))
      · exact outInv_next (memInv_l2Leave hs)
    · split
      · exact pred_ite (outInv_next (memInv_sendWait (memInv_mk hs))) (outInv_next hs)
      · exact outInv_next hs
  · split
    · exact outInv_next (memInv_answerPkg (memInv_sfPkg (memInv_lend (memInv_countScope hs))))
    · exact outInv_next hs
  · exact outInv_next hs

theorem outInv_execMemoryAck : OutInv (execMemoryAck st line s) := by
  unfold execMemoryAck
  split
  · exact outInv_next hs
  · refine pred_ite (outInv_next (pred_ite (memInv_mcAccept hs) hs)) ?_
    refine outInv_next ?_
    refine memInv_foldl _ ?_ fun _ _ ht => memInv_doRequest ht
    split
    · exact memInv_l3Fill (memInv_slicePut (pred_ite (memInv_mcAccept hs) hs))
    · exact memInv_slicePut (pred_ite (memInv_mcAccept hs) hs)

theorem memInv_packOff {v : Reg32} : MemInv (packOff s st v) := pred_ite hs (memInv_sliceMod hs)

theorem outInv_execPackFill : OutInv (execPackFill st line s) :=
  pred_ite (outInv_next hs) (pred_ite (outInv_next (memInv_countScope (memInv_slicePut hs))) (outInv_next (memInv_slicePut hs)))

theorem outInv_execPackExpire : OutInv (execPackExpire st line s) :=
  pred_ite (outInv_next (memInv_countScope (memInv_sliceMod hs))) (outInv_next hs)

theorem outInv_execRetry {a : Agent} : OutInv (execRetry op a line s) := by
  unfold execRetry
  split
  · refine pred_ite ?_ (outInv_next hs)
    split
    · exact outInv_next (memInv_sendMsg (memInv_countScope hs))
    · exact outInv_next (memInv_mk (memInv_countScope hs))
  · exact outInv_next hs

theorem outInv_execRetryReissue {a : Agent} : OutInv (execRetryReissue op a line s) :=
  pred_ite (outInv_next (pairInv_request (memInv_mk hs))) (outInv_next hs)

/-! ### Mesh -/

theorem memInv_setLinkState {l : NetLink} : MemInv (setLinkState s l v) := by
  unfold setLinkState
  split <;> exact memInv_rputF hs

theorem memInv_setDeadEvt {x : NetLink} : MemInv (setDeadEvt s x) := by
  unfold setDeadEvt
  split <;> exact memInv_rsetB hs

theorem memInv_fordSubsts : MemInv (fordSubsts s) := by
  unfold fordSubsts
  refine memInv_foldl _ hs fun _ _ ht => ?_
  refine memInv_foldl _ ht fun _ _ ht => ?_
  refine pred_ite ?_ (memInv_rputF ht)
  split
  · exact memInv_rputF ht
  · exact ht

theorem memInv_setLinkFails {l : NetLink} : MemInv (setLinkFails s l n) := hs

theorem memInv_linkDead {l : NetLink} : MemInv (linkDead s l) := by
  unfold linkDead
  extract_lets +onlyGivenNames s1
  have hs1 : MemInv s1 := memInv_foldl _ hs fun _ _ ht => memInv_reportErr (memInv_setLinkFails
    (memInv_setDeadEvt (memInv_setLinkState ht)))
  split
  · exact memInv_fordSubsts hs1
  · exact hs1

theorem memInv_countReplay {x : NetLink} : MemInv (countReplay s x) := by
  unfold countReplay
  split <;> exact memInv_rsat (memInv_rsat hs)

theorem outInv_execFlitCrcFail {l : NetLink} {good : Bool} : OutInv (execFlitCrcFail l good s) := by
  unfold execFlitCrcFail
  refine pred_ite (outInv_next hs) ?_
  refine pred_ite (outInv_next (memInv_reportErr (memInv_setLinkFails (memInv_setLinkState (memInv_countReplay hs))))) ?_
  refine pred_ite (outInv_next (memInv_linkDead (memInv_countReplay hs))) ?_
  exact outInv_next (memInv_setLinkFails (memInv_setLinkState (memInv_countReplay hs)))

theorem memInv_reviveLink {l : NetLink} : MemInv (reviveLink s l) := by
  unfold reviveLink
  refine pred_ite hs ?_
  split
  · exact memInv_foldl _ (memInv_mk hs) fun _ _ ht => memInv_setLinkState ht
  · exact memInv_mk hs

theorem outInv_execLinkRetrained {l : NetLink} {ok : Bool} : OutInv (execLinkRetrained l ok s) := by
  unfold execLinkRetrained
  refine pred_ite (outInv_next hs) ?_
  extract_lets +onlyGivenNames _ _ s2
  have hs2 : MemInv s2 := memInv_foldl _ (memInv_mk hs) fun _ _ ht => pred_ite (memInv_setLinkState ht)
    (memInv_setDeadEvt (memInv_setLinkState ht))
  split
  · exact outInv_next (memInv_fordSubsts hs2)
  · exact outInv_next hs2

/-! ### Timebase -/

theorem memInv_tbSet : MemInv (tbSet s v) := hs

theorem memInv_tbTick : MemInv (tbTick s) := by
  unfold tbTick
  split
  · exact pred_ite (memInv_tbSet (memInv_mk hs)) (memInv_mk hs)
  · exact memInv_mk hs

theorem memInv_ppsEdge : MemInv (ppsEdge s) := by
  refine pred_ite (memInv_rsetB (memInv_mk (memInv_mk (memInv_rsetB (memInv_rsetB (memInv_rput (memInv_rput64 hs))))))) ?_
  exact memInv_useFree (memInv_mk (memInv_mk (memInv_rsetB (memInv_rsetB (memInv_rput (memInv_rput64 hs))))))

theorem memInv_ppsResume : MemInv (ppsResume s) := memInv_rsetB (memInv_mk hs)

theorem outInv_execTbLoad : OutInv (execTbLoad s) := by
  unfold execTbLoad
  split
  · exact pred_ite (outInv_next (memInv_tbTick hs)) (outInv_next hs)
  · exact outInv_next hs

/-! ### Caravan -/

theorem memInv_cvControl {n : Fin 12} : MemInv (cvControl s n op addr arg) := memInv_mk (pred_ite (memInv_cvPut hs) hs)

theorem memInv_relayUpdate : MemInv (relayUpdate s) :=
  memInv_pump (memInv_foldl _ hs fun _ _ ht => pred_ite (memInv_reportErr (memInv_rput ht)) (memInv_rput ht))

theorem memInv_cvDead {n : Fin 12} : MemInv (cvDead s n) :=
  memInv_relayUpdate (memInv_foldl _ (memInv_reportErr (memInv_cvPut (memInv_cvStatPut (memInv_cvStatPut (memInv_cvStatPut hs)))))
    fun _ _ ht => pred_ite (memInv_cvControl ht) ht)

theorem memInv_cvRetrain {n : Fin 12} : MemInv (cvRetrain s n) := by
  refine pred_ite (memInv_cvDead (memInv_cvPut (memInv_cvStatPut (memInv_rput hs)))) ?_
  exact memInv_cvStatPut (memInv_cvPut (memInv_cvStatPut (memInv_rput hs)))

theorem memInv_cvTrain {n : Fin 12} : MemInv (cvTrain s n) := memInv_cvPut (memInv_cvStatPut hs)

theorem outInv_execIdent {port : Fin 12} {pkg : Fin 4} {die : Word} : OutInv (execIdent port pkg die s) := by
  refine pred_ite (outInv_next hs) ?_
  refine pred_ite (outInv_next (memInv_cvStatPut (memInv_cvStatPut (memInv_rput64 (memInv_cvStatPut hs))))) ?_
  exact outInv_next (memInv_cvPut (memInv_rput64 (memInv_cvStatPut hs)))

theorem memInv_formNode : MemInv (formNode s) :=
  pred_ite (memInv_foldl _ (memInv_mk hs) fun _ _ ht => pred_ite (memInv_cvControl ht) ht) (memInv_mk hs)

theorem memInv_cvAcked {n : Fin 12} {ack : Nat} : MemInv (cvAcked s n ack) :=
  pred_ite (memInv_pump (pred_ite (memInv_reportErr (memInv_cvPut hs)) (memInv_cvPut hs))) hs

theorem memInv_cvAck {n : Fin 12} : MemInv (cvAck s n) := memInv_cvControl (memInv_cvPut hs)

theorem outInv_execCaravanFlit {port : Fin 12} {fec : Nat} {crc idle : Bool} {seq : BitVec 10} {ackv : Bool} {ackseq : BitVec 10}
    {crvc : Fin 8} {crn : BitVec 9} : OutInv (execCaravanFlit port fec crc idle seq ackv ackseq crvc crn s) := by
  unfold execCaravanFlit
  refine pred_ite (outInv_next hs) ?_
  refine pred_ite (outInv_next (pred_ite (memInv_rput (memInv_rput hs)) (memInv_cvControl (memInv_cvPut (memInv_rput (memInv_rput hs))))))
    ?_
  extract_lets +onlyGivenNames _ _ _ s3
  have hs3 : MemInv s3 := pred_ite (memInv_cvAcked (memInv_cvPut (memInv_rput hs))) (memInv_pump (memInv_cvPut (memInv_rput hs)))
  exact pred_ite (outInv_next hs3) (outInv_next (pred_ite (memInv_cvAck (memInv_cvPut hs3)) (memInv_cvPut hs3)))

theorem outInv_execNak {port : Fin 12} {ackseq : BitVec 10} : OutInv (execNak port ackseq s) := by
  refine pred_ite (outInv_next hs) ?_
  exact outInv_next (pred_ite (memInv_cvRetrain (memInv_cvPut (memInv_rput (memInv_cvAcked hs))))
    (memInv_cvPut (memInv_rput (memInv_cvAcked hs))))

theorem outInv_execDeadnote {port : Fin 12} {map : BitVec 4} : OutInv (execDeadnote port map s) :=
  pred_ite (outInv_next hs) (outInv_next (memInv_relayUpdate (memInv_mk hs)))

theorem outInv_execTbsync {port : Fin 12} {value at_ : Word} : OutInv (execTbsync port value at_ s) := by
  unfold execTbsync
  refine pred_ite (outInv_next hs) ?_
  extract_lets +onlyGivenNames s1
  have hs1 : MemInv s1 := memInv_foldl _ hs fun _ _ ht => by
    split
    · exact memInv_cvControl ht
    · exact ht
  exact pred_ite (outInv_next (memInv_tbSet hs1)) (outInv_next (memInv_mk hs1))

theorem optInv_tbCommit : OptInv (tbCommit s v) := by
  refine pred_ite optInv_none ?_
  refine pred_ite (optInv_some (memInv_mk hs)) ?_
  exact pred_ite optInv_none (optInv_some (memInv_foldl _ (memInv_mk (memInv_useFree hs)) fun _ _ ht => pred_ite (memInv_cvControl ht) ht))

theorem memInv_unwait : MemInv (unwait s p tag) := hs

theorem memInv_hold {v : Option Nat} : MemInv (hold s line v) := hs

theorem memInv_ackDone {m : NodeMsg} {who : Option Hart} : MemInv (ackDone s m who) := by
  unfold ackDone
  split
  · refine pred_ite (memInv_hold hs) ?_
    refine pred_ite ?_ hs
    split
    · exact pred_ite (memInv_agentWrite (memInv_tmod hs)) hs
    · exact hs
  · exact hs

theorem memInv_landLine {poison : BitVec 8} : MemInv (landLine s line data poison) :=
  memInv_foldl _ (memInv_memStore hs) fun _ _ ht => pred_ite (memInv_markPoison ht) ht

theorem memInv_coresSnooped {inv : Bool} : MemInv (coresSnooped s line inv) := by
  unfold coresSnooped
  extract_lets +onlyGivenNames s1
  have hs1 : MemInv s1 := by
    unfold s1
    refine memInv_foldl _ hs fun _ _ ht => ?_
    refine pred_ite ?_ (memInv_l2Move ht)
    split
    · exact memInv_proxyDrop (memInv_l2Lose ht)
    · exact ht
  refine pred_ite (memInv_proxyCourier hs1) ?_
  split
  · exact memInv_sfOwner hs1
  · exact hs1

theorem memInv_snoopAnswer {inv : Bool} : MemInv (snoopAnswer s p tag line inv) := by
  unfold snoopAnswer
  split
  · exact memInv_sendMsg hs
  · refine pred_ite (memInv_clearResv (memInv_hold (memInv_coresSnooped (memInv_sendMsg hs)))) ?_
    exact memInv_hold (memInv_coresSnooped (memInv_sendMsg hs))

theorem memInv_snoopCore {n : Fin 192} {inv : Bool} : MemInv (snoopCore s n line inv) := by
  unfold snoopCore
  split
  · exact hs
  · exact pred_ite (memInv_l2Leave hs) (pred_ite (memInv_l2Move hs) (pred_ite (memInv_l2Move hs) hs))

theorem memInv_snoop {a : Agent} {inv : Bool} : MemInv (snoop s a line inv) := by
  unfold snoop
  refine pred_ite hs ?_
  split
  · exact memInv_snoopCore hs
  · exact memInv_snoopAnswer hs
  · exact hs

theorem memInv_snoopDone {kept : Nat} {data : Option (List Byte)} : MemInv (snoopDone s p tag kept data) := by
  unfold snoopDone
  split
  · refine pred_ite ?_ hs
    extract_lets line s1 s2 s3
    have hs2 : MemInv s2 := by
      unfold s2
      cases data with
      | none => exact memInv_unwait hs
      | some _ => exact memInv_memStore (memInv_unwait hs)
    refine pred_ite ?_ (memInv_lend hs2)
    split
    · exact memInv_sfPkg (memInv_lend hs2)
    · exact memInv_lend hs2
  · exact hs

theorem outInv_execInvAck {p : Fin 4} : OutInv (execInvAck p tag s) := by
  unfold execInvAck
  split
  · exact pred_ite (outInv_next (memInv_ackInv (memInv_unwait hs))) (outInv_next hs)
  · exact outInv_next hs

theorem memInv_cvCommand {n : Fin 12} : MemInv (cvCommand s n v) :=
  pred_ite (memInv_cvTrain (pred_ite (memInv_cvRetrain hs) hs)) (pred_ite (memInv_cvRetrain hs) hs)

/-! ### IntCtl -/

theorem memInv_intSet : MemInv (intSet s w h n) := pred_ite hs (memInv_privSet hs)

theorem memInv_intClr : MemInv (intClr s w h n) := pred_ite hs (memInv_privClear hs)

theorem memInv_badSet : MemInv (badSet s k) := memInv_reportErr (memInv_rsetB (memInv_rput hs))

theorem memInv_shSet {port : Bool} {i : Nat} : MemInv (shSet s w port k i) :=
  pred_ite (memInv_badSet hs) (pred_ite (memInv_badSet (memInv_violation hs)) (pred_ite (memInv_badSet hs) (memInv_mk hs)))

theorem memInv_shClr {i : Nat} : MemInv (shClr s w k i) := pred_ite hs (memInv_shOfferAll (memInv_mk (memInv_shWithdraw hs)))

theorem memInv_shOfferOne {i : Nat} : MemInv (shOfferOne s k i) :=
  pred_ite hs (pred_ite (memInv_reportErr (memInv_rsetB hs)) (memInv_shOffer hs))

theorem optInv_privSetAt {locus : Nat} : OptInv (privSetAt s w locus src) := by
  unfold privSetAt
  refine pred_ite optInv_none ?_
  split
  · exact optInv_none
  · split
    · exact optInv_some (pred_dite (fun _ => memInv_intSet hs) (fun _ => hs))
    · exact pred_ite (optInv_some (memInv_reportErr hs)) (optInv_some (memInv_intSet hs))
    · exact optInv_none

theorem optInv_shSetAt {locus : Nat} : OptInv (shSetAt s w locus src) := by
  unfold shSetAt
  refine pred_ite optInv_none ?_
  split
  · exact optInv_map fun _ => memInv_shSet hs
  · exact optInv_none

theorem optInv_setAt {locus : Nat} {shared : Bool} : OptInv (setAt s w locus shared src) := by
  unfold setAt
  refine pred_ite optInv_none ?_
  refine pred_ite (pred_ite (optInv_shSetAt hs) (optInv_privSetAt hs)) ?_
  refine pred_ite optInv_none ?_
  split
  · exact optInv_none
  · exact pred_ite (optInv_some (memInv_sendMsg hs)) optInv_none

theorem outInv_execInterrupt {locus : BitVec 16} {shared : Bool} {src : BitVec 12} : OutInv (execInterrupt w locus shared src s) := by
  unfold execInterrupt
  refine pred_ite (outInv_next hs) ?_
  split
  next e => exact outInv_next ((optInv_setAt hs) _ e)
  · exact outInv_next (memInv_mk hs)

theorem memInv_unitUe {stack : Option World} : MemInv (unitUe s h stack) := by
  unfold unitUe
  refine memInv_reportErr ?_
  split
  · exact memInv_setRunStack hs
  · exact memInv_foldl _ hs fun _ _ ht => pred_ite (memInv_privSet ht) ht

theorem memInv_tableUe : MemInv (tableUe s k) := memInv_reportErr (memInv_foldl _ hs fun _ _ ht => pred_ite (memInv_mk ht) ht)

theorem outInv_execIntStateUe {stack : Option World} {table : Option (Fin 14)} : OutInv (execIntStateUe h stack table s) := by
  unfold execIntStateUe
  split
  · exact outInv_next (memInv_tableUe hs)
  · split
    · exact outInv_next hs
    · exact outInv_next (memInv_unitUe hs)

/-! ### Waybill -/

theorem memInv_wqPut : MemInv (wqPut s st q off v) := memInv_rput hs

theorem memInv_wqStat {i : Nat} {b : Bool} : MemInv (wqStat s st q i b) := memInv_rsetB hs

theorem memInv_wqCount : MemInv (wqCount s st q off n) := memInv_wqPut hs

theorem memInv_ringTouch {write : Bool} : MemInv (ringTouch s st q pa write) := by
  unfold ringTouch
  refine pred_ite hs ?_
  split
  · exact hs
  · refine pred_ite (memInv_writeAtHome (memInv_countScope (memInv_countScope (pred_ite (memInv_domWake hs) hs)))) ?_
    exact memInv_homeRead (memInv_countScope (memInv_countScope (pred_ite (memInv_domWake hs) hs)))

theorem memInv_ringPut {msg : List Byte} : MemInv (ringPut s st q k msg) := memInv_agentWrite (memInv_ringTouch hs)

theorem memInv_wqIrq : MemInv (wqIrq s st q) := by
  unfold wqIrq
  dsimp only
  refine pred_ite ?_ hs
  split
  next e => exact (optInv_setAt (memInv_wqStat hs)) _ e
  · exact memInv_wqStat (memInv_wqStat hs)

theorem memInv_wqMode {get : Bool} : MemInv (wqMode s st q get src) := pred_ite (memInv_mk (memInv_wqStat hs)) hs

theorem memInv_wqEnter {msg : List Byte} {who : Option Nat} : MemInv (wqEnter s st q msg who) := by
  unfold wqEnter
  refine memInv_wqIrq ?_
  refine memInv_countScope ?_
  refine memInv_countScope ?_
  split
  · exact memInv_mk (memInv_wqPut (memInv_ringPut hs))
  · exact memInv_wqPut (memInv_ringPut hs)

theorem pairInv_wqPutMsg {msg : List Byte} {bad : Bool} {who : Option Nat} : PairInv (wqPutMsg s st q msg bad src who) := by
  unfold wqPutMsg
  refine pred_ite (pairInv_mk (memInv_countScope hs)) ?_
  refine pred_ite (pairInv_mk (memInv_wqMode (memInv_countScope hs))) ?_
  refine pred_ite (pairInv_mk (memInv_countScope (memInv_wqCount (memInv_wqMode (memInv_countScope hs))))) ?_
  refine pred_ite (pairInv_mk (memInv_wqEnter (memInv_wqMode (memInv_countScope hs)))) ?_
  refine pred_ite (pairInv_mk (memInv_countScope (memInv_wqCount (memInv_wqMode (memInv_countScope hs))))) ?_
  exact pairInv_mk (memInv_wqCount (memInv_wqMode (memInv_countScope hs)))

theorem memInv_wqSkip : MemInv (wqSkip s st q n) := by
  induction n generalizing s with
  | zero => exact hs
  | succ n ih =>
    exact pred_ite hs (pred_ite (ih (memInv_mk (memInv_wqPut hs))) (pred_ite hs (pred_ite (memInv_ringTouch hs)
      (ih (memInv_reportErr (memInv_countScope (memInv_wqCount (memInv_wqPut (memInv_ringTouch hs)))))))))

theorem pairInv_wqGetMsg {who : Option Nat} : PairInv (wqGetMsg s st q n src who) := by
  unfold wqGetMsg
  refine pred_ite (pairInv_mk (memInv_countScope hs)) ?_
  refine pred_ite (pairInv_mk (memInv_wqMode (memInv_countScope hs))) ?_
  refine pred_ite (pairInv_mk (memInv_wqSkip (memInv_wqMode (memInv_countScope hs)))) ?_
  refine pairInv_mk ?_
  refine memInv_countScope ?_
  refine memInv_countScope ?_
  split
  · exact memInv_mk (memInv_wqPut (memInv_wqSkip (memInv_wqMode (memInv_countScope hs))))
  · exact memInv_wqPut (memInv_wqSkip (memInv_wqMode (memInv_countScope hs)))

theorem pairInv_wqPoll : PairInv (wqPoll s st q) := pairInv_mk (memInv_countScope hs)

theorem memInv_wqPost {msg : List Byte} {bad poison unavail : Bool} : MemInv (wqPost s st q msg bad poison unavail src) := by
  unfold wqPost
  refine pred_ite (memInv_wqStat hs) ?_
  refine pred_ite (memInv_countScope (memInv_wqCount (memInv_countScope hs))) ?_
  refine pred_ite (memInv_countScope (memInv_wqCount (memInv_countScope hs))) ?_
  refine pred_ite ?_ (memInv_wqEnter (memInv_wqMode (memInv_countScope hs)))
  exact pred_ite (memInv_countScope (memInv_wqCount (memInv_countScope hs))) (memInv_countScope (memInv_wqCount (memInv_countScope hs)))

theorem memInv_wqIdle : MemInv (wqIdle s k) := by
  unfold wqIdle
  split
  · exact pred_ite hs (pred_ite hs (memInv_wqStat hs))
  · exact hs

theorem memInv_wqConfirm {h : Nat} : MemInv (wqConfirm s h) := by
  unfold wqConfirm
  split
  · exact memInv_mk hs
  · exact hs

theorem memInv_wqReturn {num : Nat} {msg : List Byte} : MemInv (wqReturn s st q num msg) :=
  memInv_wqIrq (memInv_wqPut (memInv_ringPut (memInv_foldl _ hs fun _ _ ht => memInv_ringPut ht)))

theorem memInv_wqCancel {h : Nat} : MemInv (wqCancel s h) := by
  unfold wqCancel
  split
  · exact hs
  · split
    · exact memInv_mk hs
    · exact pred_ite (memInv_wqReturn (memInv_mk hs)) (memInv_mk (memInv_mk hs))

theorem memInv_setConfirm : MemInv (setConfirm s h n) := hs

theorem outInv_execWaybillConfirm : OutInv (execWaybillConfirm h s) :=
  pred_ite (outInv_next hs) (outInv_next (memInv_wqConfirm (memInv_setConfirm hs)))

theorem memInv_wqSettle : MemInv (wqSettle s h) :=
  memInv_foldl _ (memInv_setConfirm (memInv_foldl _ hs fun _ _ ht => memInv_wqConfirm ht)) fun _ _ ht => memInv_wqCancel ht

theorem memInv_wqEmpty : MemInv (wqEmpty s st q) := memInv_mk (memInv_wqPut (memInv_wqPut hs))

theorem memInv_wqConfig : MemInv (wqConfig s st q off v) := by
  refine pred_ite (memInv_wqStat hs) ?_
  refine pred_ite (memInv_wqPut hs) ?_
  exact pred_ite (memInv_mk (memInv_wqStat (memInv_wqEmpty (memInv_wqPut hs)))) (memInv_wqEmpty (memInv_wqPut hs))

theorem memInv_wqEnable : MemInv (wqEnable s st q) :=
  pred_ite hs (pred_ite (memInv_wqIrq (memInv_rsetB (memInv_wqStat (memInv_mk hs)))) (memInv_wqStat hs))

theorem memInv_wqDisable : MemInv (wqDisable s st q) := pred_ite hs (memInv_wqStat (memInv_rsetB (memInv_mk hs)))

theorem memInv_wqClear : MemInv (wqClear s st q) := memInv_foldl _ hs fun _ _ ht => memInv_wqPut ht

theorem memInv_wqControl : MemInv (wqControl s st q v) :=
  memInv_wqIrq (pred_ite (memInv_wqEnable (memInv_rsetB (pred_ite (memInv_wqClear hs) hs)))
    (memInv_wqDisable (memInv_rsetB (pred_ite (memInv_wqClear hs) hs))))

theorem memInv_wqArm : MemInv (wqArm s st q) := memInv_wqIrq (memInv_wqStat hs)

theorem outInv_execWbqStateParityError {q : Fin 128} {both : Bool} : OutInv (execWbqStateParityError st q both s) :=
  pred_ite (outInv_next hs) (outInv_next (memInv_reportErr (memInv_rsetB (memInv_wqStat (memInv_mk hs)))))

theorem pairInv_wqServe {msg : List Byte} {bad : Bool} {who : Option Nat} : PairInv (wqServe s st q op n msg bad src who) := by
  unfold wqServe
  refine pairInv_mk ?_
  split
  · exact pairInv_mk (pairInv_wqPutMsg hs)
  · exact pairInv_wqGetMsg hs
  · exact pairInv_mk (pairInv_wqPoll hs)

theorem outInv_execWaybill {p : Fin 4} {op sz : Fin 3} {classC : Bool} {source : Nat} {msg : List Byte} {poison : Bool} :
    OutInv (execWaybill p tag w op sz pa classC source msg poison s) := by
  unfold execWaybill
  refine pred_ite (outInv_next hs) ?_
  split
  · exact outInv_next (memInv_sendMsg hs)
  · exact pred_ite (outInv_next (memInv_sendMsg hs)) (outInv_next (memInv_sendMsg (pairInv_wqServe hs)))

/-! ### Outrider -/

theorem memInv_lcFlush {n : Fin 16} : MemInv (lcFlush s n) := memInv_orPut (memInv_foldl _ hs fun _ _ ht => memInv_lcDropped ht)

theorem memInv_lcStat {n : Fin 16} {i : Nat} : MemInv (lcStat s n i) := memInv_rsetB hs

theorem memInv_lcCommand {n : Fin 16} : MemInv (lcCommand s n op) :=
  pred_ite hs (pred_ite (memInv_lcStat hs) (pred_ite (memInv_lcStat hs) (pred_ite (memInv_lcStat hs) (memInv_orPut hs))))

theorem outInv_execLcCmdDone {n : Fin 16} : OutInv (execLcCmdDone n s) := by
  unfold execLcCmdDone
  dsimp only
  split
  · exact outInv_next hs
  · split
    · exact outInv_next (pred_ite (memInv_orPut (pairInv_courierLine hs)) (pairInv_courierLine hs))
    · exact outInv_next (pred_ite (memInv_lcFill (memInv_orPut (pairInv_courierLine hs))) (pairInv_courierLine hs))
    · split
      · exact outInv_next (memInv_orPut (memInv_orPut hs))
      · exact outInv_next (memInv_orPut hs)
    · exact outInv_next (memInv_orPut (memInv_orPut hs))
    · exact outInv_next (memInv_lcFlush (memInv_orPut hs))

theorem outInv_execSnpInv {a : Agent} : OutInv (execSnpInv a line s) := by
  unfold execSnpInv
  split
  · exact outInv_next (memInv_foldl _ (memInv_mk hs) fun _ _ ht => memInv_lcDropped ht)
  · exact outInv_next (memInv_snoop hs)

theorem memInv_orControl {n : Fin 16} : MemInv (orControl s n v) :=
  memInv_startCtl (pred_ite hs (pred_ite (memInv_rsetB hs) (memInv_rsetB hs)))

theorem memInv_orStopped {n : Fin 16} : MemInv (orStopped s n) := pred_ite (memInv_lcFlush (memInv_stopDone hs)) (memInv_stopDone hs)

theorem outInv_execThreadStopDone : OutInv (execThreadStopDone h s) := by
  unfold execThreadStopDone
  split
  · exact outInv_next (memInv_orStopped hs)
  · exact outInv_next (memInv_stopDone hs)

theorem outInv_execOutriderFault {n : Fin 16} : OutInv (execOutriderFault n s) :=
  outInv_next (memInv_addEvent (memInv_rsetB (memInv_stopThread (memInv_reportErr hs))))

theorem memInv_courierRead {n : Fin 16} : MemInv (courierRead s n ns) :=
  memInv_orPut (pred_ite (memInv_countScope (memInv_rput (memInv_rputF hs))) (memInv_rputF hs))

theorem memInv_cpClear : MemInv (cpClear s st) := memInv_rput (memInv_rput (memInv_rput hs))

theorem memInv_tcmWinWrite {v : Reg32} : MemInv (tcmWinWrite s die off v) := memInv_agentWrite hs

theorem pairInv_tcmWinRead : PairInv (tcmWinRead s die off) := pairInv_mk (pred_ite (memInv_rsat hs) hs)

/-! ### Hbm -/

theorem memInv_setOwed {pc : Nat} : MemInv (setOwed s st c pc n) := memInv_rputF (memInv_hbmMod hs)

theorem memInv_refreshAll {pc : Nat} : MemInv (refreshAll s st c pc) := pred_ite hs (memInv_setOwed (memInv_closeRows (memInv_mcCount hs)))

theorem outInv_execRefreshDue {pc : Fin 2} {bank : Fin 48} : OutInv (execRefreshDue st c pc bank s) := by
  unfold execRefreshDue
  refine pred_ite (outInv_next hs) ?_
  refine pred_ite (outInv_next (memInv_setRow (memInv_mcCount hs))) ?_
  refine pred_ite ?_ (outInv_next (memInv_refreshAll (memInv_setOwed hs)))
  exact pred_ite (outInv_next (memInv_setOwed hs)) (outInv_next (memInv_closeRows (memInv_setOwed (memInv_mcCount (memInv_setOwed hs)))))

theorem outInv_execIdleTimerExpire {pc : Fin 2} {bank : Fin 48} : OutInv (execIdleTimerExpire st c pc bank s) :=
  pred_ite (outInv_next (memInv_mcCount (memInv_setRow hs))) (outInv_next hs)

theorem memInv_showPanic {k : Fin 6} : MemInv (showPanic s k) := memInv_foldl _ hs fun _ _ ht => memInv_rsetB ht

theorem outInv_execPanicRaise {k : Fin 6} : OutInv (execPanicRaise die k s) := by
  refine pred_ite (outInv_next hs) ?_
  exact outInv_next (memInv_showPanic (memInv_foldl _ (memInv_closeRows (memInv_hbmMod hs)) fun _ _ ht => memInv_refreshAll
    (memInv_refreshAll ht)))

theorem outInv_execPanicWithdraw {k : Fin 6} : OutInv (execPanicWithdraw die k s) :=
  pred_ite (outInv_next hs) (outInv_next (memInv_showPanic (memInv_hbmMod (memInv_rsetB hs))))

theorem memInv_remapLane {pc lane : Nat} : MemInv (remapLane s st c pc lane) :=
  pred_ite (memInv_reportErr (memInv_rsetB hs)) (memInv_rsetB (memInv_hbmMod hs))

theorem memInv_remapCommand : MemInv (remapCommand s st c v) := pred_ite hs (pred_ite (memInv_rsetB hs) (memInv_remapLane hs))

theorem outInv_execRemapDone : OutInv (execRemapDone st c s) := by
  unfold execRemapDone
  split
  · refine pred_ite (outInv_next hs) ?_
    exact outInv_next (memInv_reportErr (memInv_rsetB (memInv_rsetB (memInv_rsat (memInv_rputF (memInv_hbmMod hs))))))
  · exact outInv_next hs

theorem memInv_laneError {pc lane : Nat} : MemInv (laneError s st c pc lane) :=
  pred_ite (memInv_remapLane (memInv_hbmMod hs)) (memInv_hbmMod hs)

theorem memInv_laneWindow : MemInv (laneWindow s st c) := memInv_hbmMod hs

theorem memInv_spareRow {row : Nat} : MemInv (spareRow s st c row) :=
  pred_ite (memInv_reportErr (memInv_rsetB hs)) (memInv_rsetB (memInv_hbmMod hs))

theorem memInv_spareAuto {row : Nat} : MemInv (spareAuto s st c row) := by
  unfold spareAuto
  split
  · exact memInv_spareRow hs
  · exact pred_ite hs (pred_ite (memInv_rsetB hs) (memInv_hbmMod hs))

theorem memInv_spareCommand : MemInv (spareCommand s st c v) := pred_ite hs (pred_ite (memInv_rsetB hs) (memInv_spareRow hs))

theorem outInv_execSparingDone : OutInv (execSparingDone st c s) := by
  unfold execSparingDone
  dsimp only
  split
  · exact outInv_next hs
  · refine pred_ite (outInv_next hs) ?_
    split
    · exact outInv_next (memInv_spareRow (memInv_rsetB (memInv_rsetB (memInv_rsat (memInv_hbmMod hs)))))
    · exact outInv_next (memInv_rsetB (memInv_rsetB (memInv_rsat (memInv_hbmMod hs))))

theorem memInv_mcCapture {l : HbmLoc} {ue scrub : Bool} {lane : Nat} : MemInv (mcCapture s l ue scrub lane) :=
  pred_ite hs (memInv_rput (memInv_rput (memInv_rput hs)))

theorem memInv_rewriteLine : MemInv (rewriteLine s line) := pred_ite hs (memInv_mcArrive hs)

theorem memInv_memPoison {scrub : Bool} : MemInv (memPoison s line scrub) :=
  pred_ite hs (pred_ite (memInv_hbmMod hs) (memInv_poisonLine hs))

theorem memInv_readOutcome {out : HbmRead} {scrub : Bool} : MemInv (readOutcome s pa out scrub) := by
  unfold readOutcome
  extract_lets +onlyGivenNames l st c line ty count
  split
  · exact hs
  · extract_lets +onlyGivenNames s1 s2 s3 s4 s5
    have hs2 : MemInv s2 := memInv_mcCapture (memInv_mcCount (memInv_rput hs))
    have hs3 : MemInv s3 := by
      unfold s3
      split
      · exact memInv_laneError hs2
      · exact hs2
    have hs4 : MemInv s4 := pred_ite (memInv_rsat hs3) hs3
    exact memInv_reportErr (pred_ite (memInv_rewriteLine hs4) hs4)
  · extract_lets +onlyGivenNames s1 s2 s3 s4
    have hs2 : MemInv s2 := memInv_mcCapture (memInv_mcCount (memInv_rput (memInv_rewriteLine (memInv_memPoison hs))))
    have hs4 : MemInv s4 := memInv_reportErr (pred_ite (memInv_rsat hs2) hs2)
    exact pred_ite (memInv_spareAuto hs4) hs4
  · exact memInv_rput (memInv_memPoison hs)

theorem outInv_execHbmReadReturn {out : HbmRead} : OutInv (execHbmReadReturn pa out s) :=
  outInv_next (pred_ite (pred_ite (memInv_mcAsk hs) hs) (pred_ite (memInv_readOutcome (pairInv_mcRead hs)) (pairInv_mcRead hs)))

theorem outInv_execScrubRead {out : HbmRead} : OutInv (execScrubRead pa out s) := by
  refine pred_ite ?_ (outInv_next hs)
  exact pred_ite (outInv_next (pairInv_mcRead hs)) (outInv_next (memInv_readOutcome (memInv_rputF (memInv_mcCount (pairInv_mcRead hs)))))

theorem memInv_selfRefresh : MemInv (selfRefresh s st c) :=
  memInv_rsetB (memInv_closeRows (memInv_refreshAll (memInv_refreshAll (memInv_mcFinish hs))))

theorem memInv_selfRefreshExit : MemInv (selfRefreshExit s st c) := pred_ite (memInv_mcAdmit (memInv_rsetB (memInv_mcCount hs))) hs

theorem memInv_setStk {k : Fin 6} : MemInv (setStk s k v) := memInv_rputF hs

theorem memInv_setWork {k : Fin 6} : MemInv (setWork s k v) := memInv_hbmMod hs

theorem memInv_retrainChannel : MemInv (retrainChannel s st c) := memInv_rsetB (memInv_selfRefresh hs)

theorem memInv_stkCommand {k : Fin 6} {cmd : Nat} {ch : Fin 8} : MemInv (stkCommand s k cmd ch) := by
  unfold stkCommand
  refine pred_ite hs ?_
  split
  · exact memInv_setWork (memInv_setStk hs)
  · exact memInv_setWork (memInv_setStk hs)
  · exact pred_ite (memInv_setWork (memInv_setStk (memInv_foldl _ hs fun _ _ ht => memInv_selfRefresh ht))) hs
  · exact pred_ite (memInv_retrainChannel hs) hs
  · exact memInv_rsetB (memInv_hbmMod hs)
  · exact hs

theorem memInv_zeroStack {k : Fin 6} : MemInv (zeroStack s k) := mapWf_filter memDefault s.mem.bytes _ hs

theorem memInv_stackReady {k : Fin 6} : MemInv (stackReady s k) :=
  memInv_mk (memInv_foldl _ (memInv_setStk hs) fun _ _ ht => memInv_rsetB (memInv_selfRefreshExit (memInv_setDom ht)))

theorem memInv_stackFailed {k : Fin 6} : MemInv (stackFailed s k) :=
  memInv_reportErr (memInv_rsetB (memInv_mk (memInv_foldl _ (memInv_setStk hs) fun _ _ ht => memInv_setDom (memInv_rsetB ht))))

theorem outInv_execCommandParityFailure : OutInv (execCommandParityFailure st c s) := by
  refine pred_ite (outInv_next hs) ?_
  exact outInv_next (pred_ite (memInv_retrainChannel (memInv_hbmMod (memInv_reportErr (memInv_rsetB hs))))
    (memInv_hbmMod (memInv_reportErr (memInv_rsetB hs))))

theorem outInv_execStackTempRead {k : Fin 6} {deg : BitVec 8} : OutInv (execStackTempRead k deg s) :=
  outInv_next (pred_ite (memInv_thermalTrip (memInv_rsetB (memInv_foldl _ (memInv_rput hs) fun _ _ ht => memInv_rsetB ht)))
    (memInv_rsetB (memInv_foldl _ (memInv_rput hs) fun _ _ ht => memInv_rsetB ht)))

theorem memInv_w1500Go {k : Fin 6} : MemInv (w1500Go s k) := pred_ite hs (memInv_rsetB (memInv_hbmMod hs))

theorem outInv_execW1500ShiftDone {k : Fin 6} {out : BitVec 1024} : OutInv (execW1500ShiftDone k out s) :=
  pred_ite (outInv_next hs) (outInv_next (memInv_foldl _ (memInv_rsetB (memInv_hbmMod hs)) fun _ _ ht => memInv_rputF ht))

theorem memInv_cxlWindowCtl {n : Fin 12} {w : Nat} : MemInv (cxlWindowCtl s n w v) :=
  pred_ite (memInv_rsetB (memInv_rput hs)) (memInv_rput hs)

theorem outInv_execCxlMemCompletion {write poison : Bool} : OutInv (execCxlMemCompletion pa write poison s) := by
  unfold execCxlMemCompletion
  split
  · exact pred_ite (outInv_next (memInv_rsetB (memInv_poisonLine hs))) (outInv_next hs)
  · exact outInv_next hs

theorem outInv_execCxlTimeout {write : Bool} : OutInv (execCxlTimeout pa write s) := by
  unfold execCxlTimeout
  split
  · exact pred_ite (outInv_next (memInv_reportErr hs)) (outInv_next (memInv_reportErr (memInv_rsetB (memInv_poisonLine hs))))
  · exact outInv_next hs

theorem outInv_execCxlLinkDown {port : Fin 12} : OutInv (execCxlLinkDown port s) :=
  pred_ite (outInv_next hs) (outInv_next (memInv_reportErr (memInv_rsetB (memInv_rsetB (memInv_rsetB hs)))))

theorem memInv_cxlDropped {n : Fin 12} : MemInv (cxlDropped s n line) := memInv_freeLine (memInv_rput hs)

theorem memInv_memStored : MemInv (memStored s line) := pred_ite (memInv_poisonLine (memInv_hbmMod hs)) (memInv_hbmMod hs)

theorem outInv_execEvictionWriteIssue : OutInv (execEvictionWriteIssue st line s) := by
  unfold execEvictionWriteIssue
  dsimp only
  refine pred_ite ?_ (outInv_next hs)
  split
  · exact outInv_next (pred_ite (memInv_mcArrive (pairInv_meshSend (memInv_memStored (memInv_countScope (memInv_sliceMod hs)))))
      (pairInv_meshSend (memInv_memStored (memInv_countScope (memInv_sliceMod hs)))))
  · exact pred_dite (fun _ => outInv_next (pred_ite (memInv_countScope (memInv_sliceMod hs))
      (memInv_cxlDropped (memInv_countScope (memInv_sliceMod hs))))) (fun _ => outInv_next (memInv_countScope (memInv_sliceMod hs)))
  · exact outInv_next (memInv_countScope (memInv_sliceMod hs))

/-! ### Errors -/

theorem outInv_execLedgerRecord {band : Fin 6} : OutInv (execLedgerRecord die band s) := by
  unfold execLedgerRecord
  dsimp only
  split
  · exact outInv_next hs
  · exact outInv_next (memInv_ledgerEnter (memInv_mk hs))

theorem outInv_execReportLost {band : Fin 6} : OutInv (execReportLost die band s) :=
  pred_ite (outInv_next (memInv_reportErr (memInv_mk hs))) (outInv_next hs)

theorem memInv_errAck : MemInv (errAck s st p) := by
  unfold errAck
  refine pred_ite hs ?_
  refine memInv_rput ?_
  refine memInv_rsetB ?_
  refine memInv_rsetB ?_
  split
  · exact memInv_ledgerSeal (memInv_rsetB hs)
  · exact hs

theorem memInv_ledgerClear {d : Fin 2} : MemInv (ledgerClear s d) :=
  memInv_rputF (memInv_rput (memInv_foldl _ hs fun _ _ ht => memInv_rput ht))

theorem memInv_injWrite {v : Reg32} : MemInv (injWrite s w st v) := by
  refine pred_ite (memInv_rsetB hs) ?_
  refine pred_ite (memInv_rputF (memInv_rsetB (memInv_rput hs))) ?_
  exact pred_ite (memInv_rsetB (memInv_rput hs)) (memInv_rputF (memInv_rsetB (memInv_rput hs)))

theorem memInv_injDisarm : MemInv (injDisarm s st) := memInv_rputF (memInv_rsetB (memInv_rsetB hs))

theorem memInv_injWithdraw : MemInv (injWithdraw s w) := memInv_foldl _ hs fun _ _ ht => pred_ite (memInv_injDisarm ht) ht

theorem memInv_injFire {addr : Option Nat} : MemInv (injFire s st addr) := by
  unfold injFire
  extract_lets +onlyGivenNames _ ue persist s1 s2
  have hs1 : MemInv s1 := by
    unfold s1
    cases addr with
    | none => exact hs
    | some _ => exact pred_ite (memInv_poisonLine hs) hs
  have hs2 : MemInv s2 := memInv_rsetB (memInv_reportErr hs1)
  exact pred_ite (memInv_injDisarm hs2) (memInv_rputF hs2)

theorem outInv_execCoreUe {t0 t1 restartable : Bool} : OutInv (execCoreUe st c t0 t1 restartable s) :=
  pred_ite (outInv_next hs) (outInv_next (memInv_foldl _ (memInv_reportErr hs) fun _ _ ht => memInv_tmod ht))

theorem memInv_dropWaiting {ops : List Nat} : MemInv (dropWaiting s line ops) := hs

theorem outInv_execTxnTimeout {core : Option (Fin 2)} {kind : Fin 3} {a : Agent} : OutInv (execTxnTimeout st core kind a line s) := by
  unfold execTxnTimeout
  extract_lets +onlyGivenNames src rep
  have hRep {t : State} (ht : MemInv t) : OutInv (.next (rep t)) := outInv_next (memInv_reportErr ht)
  refine pred_ite (outInv_next hs) ?_
  split
  · refine hRep (memInv_poisonLine ?_)
    split
    · exact memInv_hold (memInv_dropWaiting hs)
    · exact memInv_dropWaiting hs
  · split
    · split
      · extract_lets s1
        have h1 : MemInv s1 := memInv_sfDropCore (memInv_l2Lose hs)
        exact hRep (pred_ite (memInv_poisonLine h1) h1)
      · exact hRep hs
    · extract_lets +onlyGivenNames _ s1
      have h1 : MemInv s1 := memInv_sfPkg (memInv_lend (memInv_dropWaiting hs))
      exact hRep (pred_ite (memInv_poisonLine h1) h1)
    · exact hRep (memInv_invCourier hs)
    · exact hRep hs
  · exact outInv_next (memInv_reportErr (memInv_foldl _ (memInv_dropWaiting hs) fun _ _ ht => memInv_ackDone ht))

/-! ### Lock -/

theorem memInv_lockLast {synd : Nat} : MemInv (lockLast s st synd) := memInv_rput64 (memInv_rput hs)

theorem memInv_lockRecord {ty synd sevUp : Nat} : MemInv (lockRecord s st ty synd ns sevUp) :=
  memInv_reportErr (memInv_rputF (memInv_lockLast hs))

theorem memInv_unpin : MemInv (unpin s h) := hs

theorem memInv_discardWork : MemInv (discardWork s h) := memInv_unpin (memInv_mk (memInv_tmod hs))

theorem memInv_setTileMode : MemInv (setTileMode s st m) := pred_ite (memInv_rsetB (memInv_rputF hs)) (memInv_rputF hs)

theorem memInv_lockForget : MemInv (lockForget s st) := memInv_mk (memInv_foldl _ hs fun _ _ ht => memInv_mk ht)

theorem memInv_tileHalt {thread core : Nat} : MemInv (tileHalt s st kind thread core ns) :=
  memInv_addEvent (memInv_lockForget (memInv_setTileMode (memInv_rputF (memInv_domainReset
    (memInv_lockRecord (memInv_foldl _ hs fun _ _ ht => memInv_wqSettle (memInv_discardWork ht)))))))

theorem memInv_pairForget : MemInv (pairForget s st) :=
  memInv_foldl _ (memInv_foldl _ hs fun _ _ ht => memInv_cput ht) fun _ _ ht => memInv_tmod ht

theorem memInv_fromCairn : MemInv (fromCairn s h) := memInv_countThread (memInv_tmod hs)

theorem memInv_selftestStart : MemInv (selftestStart s st) := memInv_pairForget (memInv_l2Empty (memInv_rputF hs))

theorem memInv_recoverStep : MemInv (recoverStep s st ns) := by
  unfold recoverStep
  split
  · exact hs
  · refine pred_ite hs ?_
    refine pred_ite (memInv_selftestStart hs) ?_
    refine pred_ite (memInv_tileHalt hs) ?_
    exact memInv_lockRecord (memInv_rsetB (memInv_mk (memInv_foldl _ (memInv_pairForget hs) fun _ _ ht => memInv_fromCairn ht)))

theorem memInv_mismatch {thread core : Nat} : MemInv (mismatch s st kind thread core) := by
  unfold mismatch
  extract_lets +onlyGivenNames _ _ _ _ s2
  have hs2 : MemInv s2 := memInv_rsat (memInv_rsetB (memInv_mk hs))
  refine pred_ite (memInv_tileHalt hs2) ?_
  extract_lets +onlyGivenNames _ _ s4
  have hs4 : MemInv s4 := memInv_foldl _ (memInv_rsetB (pred_ite (memInv_rsat hs2) hs2)) fun _ _ ht => memInv_discardWork ht
  exact pred_ite (memInv_recoverStep (memInv_mk hs4)) (memInv_mk hs4)

theorem memInv_groupGood : MemInv (groupGood s h) := by
  unfold groupGood
  dsimp only
  split
  · exact hs
  · exact memInv_unpin (pred_ite (memInv_setConfirm (pred_ite (memInv_drainAll (memInv_tmod (memInv_mk hs))) (memInv_tmod (memInv_mk hs))))
      (pred_ite (memInv_drainAll (memInv_tmod (memInv_mk hs))) (memInv_tmod (memInv_mk hs))))

theorem outInv_execGroupCompare {check : BitVec 64} {bad : Option Mismatch} : OutInv (execGroupCompare h check bad s) := by
  unfold execGroupCompare
  split
  · refine pred_ite (outInv_next hs) ?_
    split
    · exact pred_ite (outInv_next (memInv_groupGood hs)) (outInv_next (memInv_mismatch hs))
    · exact outInv_next (memInv_mismatch hs)
  · exact outInv_next hs

theorem outInv_execRequestCompare {good : Bool} : OutInv (execRequestCompare h good s) := by
  unfold execRequestCompare
  split
  · exact pred_ite (outInv_next hs) (pred_ite (outInv_next (memInv_mk hs)) (outInv_next (memInv_mismatch hs)))
  · exact outInv_next hs

theorem memInv_selftestResume : MemInv (selftestResume s st) :=
  memInv_mk (memInv_foldl _ (memInv_rsetB hs) fun _ _ ht => memInv_fromCairn ht)

theorem memInv_degrade {survivor : Fin 2} : MemInv (degrade s st survivor) :=
  memInv_addEvent (memInv_setDom (memInv_cput (memInv_setTileMode (memInv_rputF (memInv_foldl _ hs fun _ _ ht => memInv_tmod ht)))))

theorem memInv_stopRecord {event : Option (Nat × Nat × Nat × Bool)} {outcome survivor : Nat} :
    MemInv (stopRecord s st event outcome survivor ns) := by
  unfold stopRecord
  refine memInv_lockRecord ?_
  split
  · exact memInv_lockRecord hs
  · exact hs

theorem outInv_execSelftestDone {p0 p1 : Bool} : OutInv (execSelftestDone st p0 p1 ns s) := by
  unfold execSelftestDone
  refine pred_ite (outInv_next hs) ?_
  split
  · exact outInv_next (memInv_selftestResume (memInv_stopRecord hs))
  · exact outInv_next (memInv_selftestResume (memInv_degrade (memInv_stopRecord hs)))
  · exact outInv_next (memInv_selftestResume (memInv_degrade (memInv_stopRecord hs)))
  · refine outInv_next ?_
    refine memInv_tileHalt ?_
    split
    · exact memInv_lockRecord hs
    · exact hs

theorem outInv_execCairnScrub {err : Option Bool} : OutInv (execCairnScrub h err s) := by
  unfold execCairnScrub
  split
  · exact pred_ite (outInv_next hs) (outInv_next (memInv_lockRecord (pred_ite (memInv_mk (memInv_rsat hs)) (memInv_rsat hs))))
  · exact outInv_next hs

theorem memInv_lockCmd {cmd : Nat} : MemInv (lockCmd s st cmd) := pred_ite hs (pred_ite (memInv_rsetB hs) (memInv_rsetB (memInv_mk hs)))

theorem memInv_coresReset : MemInv (coresReset s st) := memInv_domainReset (memInv_domainReset hs)

theorem memInv_keyCopy : MemInv (keyCopy s st) := memInv_cput hs

theorem memInv_makeLocked : MemInv (makeLocked s st) := memInv_setTileMode (memInv_lockForget (memInv_keyCopy (memInv_coresReset hs)))

theorem memInv_makeUnlocked : MemInv (makeUnlocked s st) :=
  memInv_setTileMode (memInv_lockForget (memInv_cput (memInv_useFree (memInv_coresReset hs))))

theorem memInv_coresOn : MemInv (coresOn s st) := memInv_setDom (memInv_setDom hs)

theorem memInv_retested {p0 p1 : Bool} : MemInv (retested s st p0 p1) := by
  unfold retested
  refine pred_ite (pred_ite (memInv_makeLocked (memInv_coresOn hs)) hs) ?_
  split
  · exact memInv_makeLocked (memInv_coresOn hs)
  · exact memInv_degrade (memInv_lockForget (memInv_coresReset (memInv_coresOn hs)))
  · exact memInv_degrade (memInv_lockForget (memInv_coresReset (memInv_coresOn hs)))
  · exact hs

theorem outInv_execLockCmdDone {p0 p1 : Bool} : OutInv (execLockCmdDone st p0 p1 s) := by
  unfold execLockCmdDone
  dsimp only
  refine pred_ite (outInv_next hs) ?_
  split
  · exact outInv_next (pred_ite (memInv_rsetB (memInv_mk hs)) (memInv_makeLocked (memInv_rsetB (memInv_mk hs))))
  · exact outInv_next (pred_ite (memInv_rsetB (memInv_mk hs)) (memInv_makeUnlocked (memInv_rsetB (memInv_mk hs))))
  · exact outInv_next (memInv_retested (memInv_rsetB (memInv_mk hs)))
  · exact outInv_next (memInv_rsetB (memInv_mk hs))

theorem memInv_lockClear : MemInv (lockClear s st) := memInv_foldl _ hs fun _ _ ht => memInv_rput ht

/-! ### Power -/

theorem memInv_setBandFreq : MemInv (setBandFreq s die b v) := memInv_rputF hs

theorem memInv_bandsRun : MemInv (bandsRun s) := memInv_foldl _ hs fun _ _ ht => memInv_setBandFreq ht

theorem outInv_execBandFrequencyChange {b : Fin 6} : OutInv (execBandFrequencyChange die b s) :=
  pred_ite (outInv_next hs) (pred_ite (outInv_next (memInv_setBandFreq hs)) (pred_ite (outInv_next (memInv_mk hs)) (outInv_next hs)))

theorem outInv_execRegulatorReport {b : Fin 6} : OutInv (execRegulatorReport die b s) :=
  pred_ite (outInv_next (memInv_setBandFreq (memInv_mk hs))) (outInv_next hs)

theorem memInv_setGrant : MemInv (setGrant s k v) := hs

theorem memInv_adjustGrants {watts limit : Nat} : MemInv (adjustGrants s watts limit) := by
  unfold adjustGrants
  refine pred_ite ?_ (memInv_foldl _ (memInv_useFree hs) fun _ _ ht => pred_ite (memInv_setGrant ht) ht)
  split
  · exact pred_ite (memInv_setGrant hs) hs
  · exact hs

theorem outInv_execWakeEvent {d : Fin 16} {kind : Fin 7} {pkgKind : Fin 8} {arg : BitVec 16} :
    OutInv (execWakeEvent st d kind pkgKind arg s) := pred_ite (outInv_next hs)
      (pred_ite (outInv_next (memInv_domWake hs)) (pred_ite (outInv_next hs) (outInv_next (memInv_pkgWake hs))))

theorem memInv_sectionWake : MemInv (sectionWake s die k) := by
  unfold sectionWake
  refine memInv_foldl _ hs fun _ _ ht => ?_
  split
  · exact memInv_foldl _ ht fun _ _ ht => memInv_domWake ht
  · exact memInv_foldl _ ht fun _ _ ht => memInv_domWake ht
  · exact ht

theorem memInv_pkgEnter {dormant : Bool} : MemInv (pkgEnter s dormant) := memInv_mk (memInv_setPkgState (memInv_rput hs))

theorem memInv_coresDown : MemInv (coresDown s) :=
  memInv_foldl _ hs fun _ _ ht => memInv_foldl _ ht fun _ _ ht => pred_ite ht
    (memInv_domOff (memInv_foldl _ ht fun _ _ ht => memInv_drainAll ht))

theorem memInv_slicesDown {dormant : Bool} : MemInv (slicesDown s dormant) :=
  memInv_foldl _ hs fun _ _ ht => pred_ite ht (pred_ite (memInv_setDom (memInv_l3Empty ht)) (memInv_domOff (memInv_l3Empty ht)))

theorem memInv_stacksDown : MemInv (stacksDown s) :=
  memInv_foldl _ hs fun _ _ ht => pred_ite (memInv_foldl _ (memInv_setStk ht) fun _ _ ht => memInv_setDom (memInv_selfRefresh ht)) ht

theorem memInv_bandsDown {dormant : Bool} : MemInv (bandsDown s dormant) :=
  memInv_foldl _ hs fun _ _ ht => memInv_rputF (memInv_rputF (memInv_setBandFreq ht))

theorem memInv_dormantDown : MemInv (dormantDown s) := memInv_mk (memInv_contentsLost (memInv_rputF hs))

theorem outInv_execCampEntryDone : OutInv (execCampEntryDone s) := by
  unfold execCampEntryDone
  extract_lets +onlyGivenNames fin
  have hFin {t : State} {v : Nat} (ht : MemInv t) : MemInv (fin t v) := by
    unfold fin
    dsimp only
    split
    · exact memInv_startExit (memInv_setPkgState ht)
    · exact memInv_setPkgState ht
  have hCores {b : Bool} : MemInv (slicesDown (coresDown s) b) := memInv_slicesDown (memInv_coresDown hs)
  split
  · exact outInv_next (hFin (memInv_bandsDown (memInv_stacksDown hCores)))
  · exact outInv_next (hFin (memInv_dormantDown (memInv_bandsDown (memInv_stacksDown hCores))))
  · exact outInv_next hs

theorem memInv_deferSection : MemInv (deferSection s die k) := pred_ite (memInv_mk hs) hs

theorem memInv_replayWake {e : Nat × Nat} : MemInv (replayWake s e) := by
  unfold replayWake
  refine pred_ite ?_ (pred_ite (memInv_sectionWake hs) hs)
  split
  · exact memInv_domWake hs
  · exact hs

theorem memInv_toRun : MemInv (toRun s) :=
  memInv_deliverLatched (memInv_foldl _ (memInv_ppsResume (memInv_mk (memInv_rsetB (memInv_setPkgState hs)))) fun _ _ ht =>
    memInv_replayWake ht)

theorem memInv_setTherm {v : Nat × Nat} : MemInv (setTherm s k v) := hs

theorem memInv_thermStep : MemInv (thermStep s die b) :=
  pred_ite (pred_ite (memInv_reportErr (memInv_rsetB (memInv_setTherm hs))) (pred_ite (memInv_setTherm hs) hs))
    (pred_ite (memInv_setTherm hs) hs)

theorem outInv_execThermalSample {deg : BitVec 8} : OutInv (execThermalSample st deg s) := by
  unfold execThermalSample
  extract_lets +onlyGivenNames _ _ _ _ _ s4
  have hs4 : MemInv s4 := pred_ite (memInv_thermStep (memInv_rputF (memInv_rputF (memInv_mk hs))))
    (memInv_rputF (memInv_rputF (memInv_mk hs)))
  exact outInv_next (pred_ite (memInv_thermalTrip (memInv_rsetB hs4)) (memInv_rsetB hs4))

theorem outInv_execRailDroop {b : Fin 6} : OutInv (execRailDroop die b s) :=
  pred_ite (outInv_next hs) (outInv_next (memInv_reportErr (memInv_rsat (memInv_rsetB (memInv_mk hs)))))

theorem outInv_execRailUv {b : Fin 6} : OutInv (execRailUv die b s) :=
  outInv_next (memInv_foldl _ (memInv_reportErr hs) fun _ _ ht => memInv_domainReset ht)

/-! ### Worlds -/

theorem memInv_blkStat {i : Nat} {b : Bool} : MemInv (blkStat s st blk i b) := memInv_rsetB hs

theorem memInv_waLock : MemInv (waLock s v) := pred_ite (memInv_rsetB hs) hs

theorem memInv_waAssign : MemInv (waAssign s v) := by
  unfold waAssign
  refine pred_ite (memInv_blkStat hs) ?_
  split
  · exact hs
  · exact pred_ite (pred_ite (memInv_mk hs) hs) (pred_ite (memInv_dstatPut hs) hs)

theorem memInv_setGrantDbg {grant signer : Nat} : MemInv (setGrantDbg s grant signer) := by
  refine pred_ite (memInv_injWithdraw (memInv_dbgWithdraw (pred_ite (memInv_injWithdraw (memInv_dbgWithdraw (memInv_rput hs)))
    (memInv_rput hs)))) ?_
  exact pred_ite (memInv_injWithdraw (memInv_dbgWithdraw (memInv_rput hs))) (memInv_rput hs)

theorem memInv_freshNonce : MemInv (freshNonce s) := memInv_rput64 (memInv_rput64 (memInv_useFree (memInv_useFree hs)))

theorem memInv_dbgRevoke : MemInv (dbgRevoke s) := memInv_setGrantDbg hs

theorem memInv_presentToken {t : Token} : MemInv (presentToken s t) :=
  pred_ite (memInv_freshNonce (memInv_setGrantDbg (memInv_rsetB (memInv_rputF hs)))) (memInv_rsetB (memInv_rputF hs))

theorem memInv_pmCommand : MemInv (pmCommand s v) := by
  refine pred_ite hs ?_
  exact pred_ite (memInv_blkStat hs) (memInv_mk (pred_ite (memInv_rsetB (memInv_rsetB (memInv_rsetB hs))) (memInv_rsetB (memInv_rsetB hs))))

theorem memInv_pmSnap : MemInv (pmSnap s t) := memInv_foldl _ (memInv_mk (memInv_rput64 (memInv_rputF hs))) fun _ _ ht => memInv_rput ht

theorem outInv_execPmAction : OutInv (execPmAction s) := by
  unfold execPmAction
  split
  · exact outInv_next hs
  · refine pred_ite (outInv_next hs) ?_
    exact outInv_next (memInv_mk (pred_ite (memInv_pmSnap (memInv_rsetB (memInv_rsetB hs))) (memInv_rsetB (memInv_rsetB hs))))

/-! ### MemFin -/

theorem memInv_memDone {f : MFin} {b : List Byte} {info : RetInfo} : MemInv (memDone s h f b info) := memInv_retire (memInv_tput hs)

theorem memInv_memFault {e : Exc} {word : BitVec 32} : MemInv (memFault s h e word) := memInv_raise (memInv_tmod hs)

theorem pairInv_directAcc {d : List Byte} : PairInv (directAcc s me a n d) := pred_ite (pairInv_mk hs) (pairInv_mk (memInv_agentWrite hs))

theorem memInv_rpPut {reg : Nat} {d : List Byte} : MemInv (rpPut s n reg d) := hs

theorem memInv_portSend : MemInv (portSend s n k) := hs

theorem memInv_portFlush {who : Requester} : MemInv (portFlush s n who) := memInv_portSend hs

theorem pairInv_portRequest {n : Fin 12} {who : Requester} {amo : Nat} {d : List Byte} :
    PairInv (portRequest s n who kind addr size amo d) := pairInv_mk (memInv_mk (memInv_portFlush hs))

theorem pairInv_ecamAcc {n : Fin 12} {who : Requester} {d : List Byte} : PairInv (ecamAcc s n who off size d) := by
  unfold ecamAcc
  refine pred_ite (pairInv_mk hs) ?_
  refine pred_ite ?_ (pred_ite (pairInv_mk hs) (pred_ite (pairInv_mk hs) (pairInv_portRequest hs)))
  refine pred_ite (pairInv_mk hs) ?_
  exact pred_ite (pred_ite (pairInv_mk hs) (pairInv_mk (memInv_useFree hs))) (pred_ite (pairInv_mk (memInv_rpPut hs)) (pairInv_mk hs))

theorem memInv_portDrop {n : Fin 12} : MemInv (portDrop s n k) := memInv_rsetB (memInv_rsat hs)

theorem pairInv_portReady {store : Bool} : PairInv (portReady s pa store) := by
  unfold portReady
  split
  · exact pred_ite (pairInv_mk hs) (pairInv_mk (pred_ite (memInv_domWake hs) hs))
  · exact hs

theorem pairInv_portAcc {n : Fin 12} {who : Requester} {d : List Byte} {amo : Option Nat} : PairInv (portAcc s n who off size d amo) := by
  refine pred_ite (pred_ite (pairInv_mk hs) (pairInv_ecamAcc hs)) ?_
  refine pred_ite (pred_ite (pairInv_mk hs) (pairInv_mk hs)) ?_
  refine pred_ite (pred_ite (pairInv_mk (memInv_portDrop hs)) (pairInv_mk hs)) ?_
  exact pred_ite (pairInv_mk (memInv_mk hs)) (pairInv_portRequest hs)

theorem pairInv_remoteAcc {h : Option Hart} {d : List Byte} {amo : Option Nat} : PairInv (remoteAcc s h i p a n d amo) :=
  pairInv_mk (memInv_sendWait hs)

theorem pairInv_amoAt {d : List Byte} : PairInv (amoAt s me a n op d) := by
  unfold amoAt
  refine pred_ite (pairInv_mk hs) ?_
  split
  · exact pairInv_mk (memInv_agentWrite hs)
  · exact hs

theorem pairInv_devSend {a : MAcc} : PairInv (devSend s h kind a) := by
  unfold devSend
  dsimp only
  split
  · split
    · exact pairInv_amoAt hs
    · exact pairInv_directAcc hs
  · exact pred_ite (pairInv_directAcc hs) (pairInv_mk hs)
  · exact pairInv_portAcc hs
  · exact pairInv_remoteAcc hs
  · exact pairInv_remoteAcc hs
  · exact hs
  · exact hs
  · exact pairInv_directAcc hs

theorem memInv_latchPut {a : MAcc} {got b : List Byte} {info : RetInfo} {err : Option (Nat × Nat)} :
    MemInv (latchPut s h kind a got b info err) := pred_ite (memInv_mk hs) hs

theorem memInv_storeGood {a : MAcc} : MemInv (storeGood s h kind a) := pred_ite (memInv_groupGood hs) hs

theorem memInv_devDone {a : MAcc} {got b : List Byte} {f : MFin} {info : RetInfo} {ps : Pages} :
    MemInv (devDone s h kind a got b f info ps) := pred_ite (memInv_tmod (memInv_latchPut hs))
      (memInv_storeGood (memInv_memDone (memInv_tmod (memInv_commitPages (memInv_latchPut hs)))))

theorem memInv_devFail {a : MAcc} {got : List Byte} {info : RetInfo} {c : Nat} : MemInv (devFail s h kind a got info k c) := by
  refine pred_ite (memInv_tmod (memInv_latchPut hs)) ?_
  exact pred_ite (memInv_memFault (pairInv_consume (memInv_latchPut hs))) (memInv_storeGood (memInv_memFault (memInv_latchPut hs)))

theorem memInv_devRun {got : List Byte} {f : MFin} {info : RetInfo} {ps : Pages} {l : List MAcc} :
    MemInv (devRun s h kind got f info ps l) := by
  induction l generalizing s got with
  | nil => exact memInv_memDone hs
  | cons x l ih =>
    have h0 : MemInv (if isDevice x.pa then countThread s h evDEVICE 1 else s) := pred_ite (memInv_countThread hs) hs
    unfold devRun
    extract_lets s0
    have h1 : PairInv (devSend s0 h kind x) := pairInv_devSend h0
    split
    · next e => exact pred_ite (memInv_devDone (memInv_fst e h1)) (ih (memInv_fst e h1))
    · next e => exact memInv_devFail (memInv_fst e h1)
    · next e => exact memInv_devFail (memInv_fst e h1)
    · next e => exact memInv_tmod (memInv_fst e h1)

theorem memInv_devAnswer {r : DRes} : MemInv (devAnswer s h r) := by
  unfold devAnswer
  split
  · split
    · exact hs
    · split
      · exact pred_ite (memInv_devDone hs) (memInv_devRun hs)
      · exact memInv_devFail hs
      · exact memInv_devFail hs
      · exact hs
  · exact hs

theorem memInv_answer {who : Requester} {r : DRes} : MemInv (answer s who r) := by
  unfold answer
  split
  · exact memInv_devAnswer hs
  · exact memInv_sendMsg hs
  · exact memInv_mk hs
  · exact hs

/-! ### Iotu -/

theorem memInv_ioPut {n : Fin 12} {u : IotuSt} : MemInv (ioPut s n u) := hs

theorem memInv_ioCount {n : Fin 12} : MemInv (ioCount s n e k) := memInv_countScope hs

theorem memInv_portUr {n : Fin 12} : MemInv (portUr s n) := memInv_ioCount (memInv_rsetB (memInv_rsat hs))

theorem memInv_ioFault {n : Fin 12} {lvl stage : Nat} {write : Bool} {rid : Nat} : MemInv (ioFault s n code lvl stage write rid addr) := by
  refine pred_ite (memInv_rsetB (memInv_rsat (memInv_ioCount hs))) ?_
  exact pred_ite (memInv_shSet (memInv_ioPut (memInv_ioCount hs))) (memInv_ioPut (memInv_ioCount hs))

theorem memInv_ioPop {n : Fin 12} : MemInv (ioPop s n) := memInv_ioPut hs

theorem pairInv_ctxRead {n : Fin 12} : PairInv (ctxRead s n ea k) := by
  induction k generalizing s ea with
  | zero => exact hs
  | succ k ih =>
    have h0 : PairInv (readEntry s (portRegime s n) ea) := pairInv_readEntry hs
    unfold ctxRead
    split
    · next e => exact memInv_fst e h0
    · next e => exact memInv_fst e h0
    · next e => exact memInv_fst e h0
    · next e =>
      have h1 : PairInv (ctxRead _ n (ea + 8) k) := ih (memInv_fst e h0)
      split
      · next e => exact memInv_fst e h1
      · exact h1

theorem pairInv_ctxLookup {n : Fin 12} {rid : Nat} : PairInv (ctxLookup s n rid) := by
  unfold ctxLookup
  split
  · exact hs
  · exact pairInv_ctxRead hs

theorem memInv_ioCache {n : Fin 12} {rid : Nat} {t : Tran} : MemInv (ioCache s n rid r va t) := pred_ite hs (memInv_ioPut hs)

theorem pairInv_ioWalkErr {n : Fin 12} {write : Bool} {rid : Nat} {x : TErr} : PairInv (ioWalkErr s n write rid addr x) := by
  unfold ioWalkErr
  split
  · exact pairInv_mk (memInv_ioFault hs)
  · exact pairInv_mk (memInv_ioFault hs)
  · exact pairInv_mk (memInv_ioFault hs)
  · exact pairInv_mk (memInv_ioFault (memInv_reportErr hs))
  · exact hs

theorem pairInv_ioWalked {n : Fin 12} {rid : Nat} {write : Bool} {t : Tran} : PairInv (ioWalked s n rid r write addr t) := by
  refine pred_ite (pairInv_mk (memInv_ioCache hs)) ?_
  refine pred_ite (pairInv_mk (pairInv_pageReady hs)) ?_
  exact pairInv_mk (pred_ite (memInv_pageCommit (pairInv_pageReady hs)) (memInv_ioCache (pairInv_pageReady hs)))

theorem pairInv_ioTranslate {n : Fin 12} {rid : Nat} {kind : AKind} : PairInv (ioTranslate s n rid kind addr) := by
  have hc : PairInv (ctxLookup s n rid) := pairInv_ctxLookup hs
  unfold ioTranslate
  refine pred_ite (memInv_ioFault hs) ?_
  split
  next e => exact memInv_ioFault (memInv_reportErr (memInv_fst e hc))
  next e => exact memInv_ioFault (memInv_fst e hc)
  next e => exact memInv_fst e hc
  next e =>
    extract_lets u s1 r
    have hs1 : MemInv s1 := memInv_ioPut (memInv_fst e hc)
    refine pred_ite (memInv_ioFault hs1) (pred_ite (memInv_ioFault hs1) ?_)
    split
    · exact hs1
    · have hw : PairInv (walk (ioCount (ioCount s1 n 6 1) n 7 1) r kind (kind.writes) addr) := pairInv_walk
        (memInv_ioCount (memInv_ioCount hs1))
      split
      next e => exact pairInv_ioWalked (memInv_fst e hw)
      next e => exact pairInv_ioWalkErr (memInv_fst e hw)

theorem memInv_ioInvWrite {n : Fin 12} : MemInv (ioInvWrite s n v) := pred_ite (memInv_rsetB (memInv_ioPut hs)) hs

theorem outInv_execIotuInvDone {port : Fin 12} : OutInv (execIotuInvDone port s) := by
  unfold execIotuInvDone
  refine pred_ite (outInv_next hs) ?_
  split
  · exact outInv_next hs
  · exact outInv_next (memInv_rsetB (memInv_ioPut hs))

theorem pairInv_inboundLines {n : Fin 12} {stream len : Nat} {write nt : Bool} : PairInv (inboundLines s n stream pa len write nt) :=
  pairInv_foldl _ (pairInv_mk hs) fun _ _ ht => pairInv_mk (pairInv_portLine ht)

theorem memInv_inboundCpl {n : Fin 12} {d : List Byte} {ep : Bool} : MemInv (inboundCpl s n code d ep) := hs

theorem memInv_inRefuse {n : Fin 12} {nonPosted ca : Bool} : MemInv (inRefuse s n nonPosted ca) :=
  pred_ite (memInv_inboundCpl (memInv_portUr hs)) (memInv_portUr hs)

theorem memInv_inViolation {n : Fin 12} : MemInv (inViolation s n w pa) := by
  unfold inViolation
  split
  · exact memInv_violation hs
  · exact hs

theorem pairInv_inRemote {n : Fin 12} {stream : Nat} {d : List Byte} : PairInv (inRemote s n stream p op pa arg d) :=
  pairInv_mk (memInv_sendFrom (memInv_mk hs))

theorem pairInv_inRead {n : Fin 12} {stream : Nat} {nt : Bool} {len : Nat} : PairInv (inRead s n w stream nt pa len) := by
  unfold inRead
  split
  · refine pred_ite ?_ (pairInv_mk (memInv_inRefuse hs))
    refine pred_ite (pairInv_mk (memInv_inboundCpl (memInv_ioCount (memInv_ioCount (pairInv_inboundLines hs))))) ?_
    exact pairInv_mk (pairInv_inboundLines hs)
  · exact pairInv_inRemote hs
  · exact pairInv_mk (memInv_inRefuse (memInv_inViolation hs))

theorem pairInv_inWrite {n : Fin 12} {stream : Nat} {nt : Bool} {d : List Byte} {ep : Bool} :
    PairInv (inWrite s n w stream nt pa d ep) := by
  unfold inWrite
  extract_lets +onlyGivenNames s'
  have hs' : MemInv s' := pred_ite (memInv_rsetB hs) hs
  split
  · refine pred_ite ?_ (pairInv_mk (memInv_inRefuse hs'))
    extract_lets +onlyGivenNames r
    have hr : PairInv r := pairInv_inboundLines hs'
    refine pred_ite ?_ (pairInv_mk hr)
    extract_lets +onlyGivenNames s1
    have hs1 : MemInv s1 := memInv_agentWrite (memInv_ioCount (memInv_ioCount hr))
    exact pairInv_mk (pred_ite (memInv_foldl _ hs1 fun _ _ ht => memInv_markPoison ht) hs1)
  · exact pairInv_inRemote hs'
  · exact pairInv_mk (pred_ite (memInv_badSet hs') (memInv_ioCount (memInv_shSet hs')))
  · exact pairInv_mk (memInv_wqPost (memInv_ioCount hs'))
  · exact pairInv_mk (memInv_inRefuse (memInv_inViolation hs'))

theorem pairInv_inAtomic {n : Fin 12} {stream len : Nat} {d : List Byte} : PairInv (inAtomic s n w stream pa len op d) := by
  unfold inAtomic
  split
  · refine pred_ite ?_ (pairInv_mk (memInv_inRefuse hs))
    extract_lets +onlyGivenNames r
    have hr : PairInv r := pairInv_inboundLines hs
    refine pred_ite ?_ (pairInv_mk hr)
    split
    next e => exact pairInv_mk (memInv_inboundCpl (memInv_fst e (pairInv_amoAt hr)))
    next e => exact memInv_fst e (pairInv_amoAt hr)
  · exact pairInv_inRemote hs
  · exact pairInv_mk (memInv_inRefuse (memInv_inViolation hs))

theorem memInv_inqSet {l : List InReq} : MemInv (inqSet s l) := hs

theorem memInv_inKeep {r : InReq} : MemInv (inKeep s r) := pred_ite hs (memInv_inqSet hs)

theorem memInv_inDrop {r : InReq} : MemInv (inDrop s r) := pred_ite (memInv_inqSet hs) hs

theorem memInv_inOrder {r : InReq} {p : Option Nat} {signal : Bool} {run : State → State × InRes} (hrun : ∀ t, MemInv t → PairInv (run t)) :
    MemInv (inOrder s r p signal run) := by
  unfold inOrder
  refine pred_ite (memInv_inKeep hs) ?_
  split
  next e => exact memInv_inDrop (memInv_fst e (hrun _ hs))
  next e => exact memInv_inKeep (memInv_fst e (hrun _ hs))
  next e => exact memInv_inqSet (memInv_inKeep (memInv_fst e (hrun _ hs)))

/-! ### Face -/

theorem memInv_mbPut {v : Reg32} : MemInv (mbPut s m off v) := memInv_rput hs

theorem memInv_mbSetState : MemInv (mbSetState s m v) := memInv_mbPut hs

theorem memInv_mbSetRsp {d : List Byte} : MemInv (mbSetRsp s m d) := memInv_foldl _ hs fun _ _ ht => memInv_mbPut ht

theorem memInv_epPut {dw : Nat} {v : Reg32} : MemInv (epPut s dw v) := hs

theorem memInv_epIntx : MemInv (epIntx s) := pred_ite (memInv_rsetB hs) hs

theorem memInv_mbOverrun : MemInv (mbOverrun s m) := memInv_mbPut (memInv_mbPut hs)

theorem memInv_mbSubmit : MemInv (mbSubmit s m) :=
  pred_ite (memInv_pkgWake (memInv_mbPut (memInv_mk (memInv_mbSetState hs)))) (memInv_mk (memInv_mbSetState hs))

theorem memInv_mbAck : MemInv (mbAck s m) := memInv_epIntx (memInv_mbSetState hs)

theorem memInv_mbDoorbell : MemInv (mbDoorbell s m v) := by
  unfold mbDoorbell
  split
  · exact memInv_mbSubmit hs
  · exact memInv_mbOverrun hs
  · exact memInv_mbSubmit (memInv_mbAck hs)
  · exact memInv_mbOverrun hs
  · exact memInv_mbAck hs
  · exact hs

theorem memInv_mbReqWrite {v : Reg32} : MemInv (mbReqWrite s m off v) := pred_ite (memInv_mbOverrun hs) (memInv_mbPut hs)

theorem memInv_mbRaise : MemInv (mbRaise s m) := pred_ite (memInv_shSet hs) (pred_ite (memInv_epIntx hs) hs)

theorem memInv_mbCtlWrite {v : Reg32} : MemInv (mbCtlWrite s m v) :=
  pred_ite (memInv_mbRaise (memInv_mbPut hs)) (memInv_epIntx (memInv_mbPut hs))

theorem memInv_mbForget : MemInv (mbForget s m) := hs

theorem memInv_sbSend {d : List Byte} : MemInv (sbSend s d) := hs

theorem memInv_mbComplete {status : Nat} : MemInv (mbComplete s m status data) := by
  unfold mbComplete
  refine pred_ite (memInv_mbSetState (memInv_mbForget hs)) ?_
  extract_lets +onlyGivenNames s2
  have hs2 : MemInv s2 := memInv_mbSetState (memInv_mbSetRsp (memInv_mbForget hs))
  refine pred_ite (memInv_sbSend (memInv_mbSetState (memInv_mbPut (memInv_mbPut hs2)))) ?_
  exact pred_ite (memInv_mbRaise (memInv_mbPut (memInv_mbPut hs2))) (memInv_mbPut (memInv_mbPut hs2))

theorem memInv_mbAbort : MemInv (mbAbort s m) := pred_ite (memInv_mbComplete hs) hs

theorem memInv_mbFaceReset : MemInv (mbFaceReset s m) :=
  pred_ite (memInv_mk (memInv_mbSetState (memInv_foldl _ (memInv_mbSetState hs) fun _ _ ht => memInv_mbPut ht))) (memInv_mbSetState hs)

theorem memInv_mbFaceResets : MemInv (mbFaceResets s) := memInv_foldl _ hs fun _ _ ht => memInv_mbFaceReset ht

theorem memInv_epConfigReset : MemInv (epConfigReset s) := memInv_rputF (memInv_rputF (memInv_mk hs))

theorem memInv_endRequests {c : Cpl} : MemInv (endRequests s n c) := memInv_foldl _ (memInv_mk hs) fun _ _ ht => memInv_answer ht

theorem memInv_epKeep : MemInv (epKeep s) := hs

theorem memInv_epReset : MemInv (epReset s) := memInv_endRequests (memInv_epConfigReset (memInv_mbFaceResets (memInv_epKeep hs)))

theorem memInv_postedDown {n : Fin 12} {lost : Nat} : MemInv (postedDown s n lost) := memInv_portDrop (memInv_mk (memInv_portSend hs))

theorem memInv_epLinkDown {lost : Nat} : MemInv (epLinkDown s lost) := memInv_epReset (pred_ite (memInv_postedDown (memInv_rsetB hs)) hs)

theorem memInv_epPerst : MemInv (epPerst s) := memInv_mk (memInv_rsetB (memInv_epLinkDown hs))

theorem outInv_execHotReset : OutInv (execHotReset s) := pred_ite (outInv_next hs) (outInv_next (memInv_rsetB (memInv_epLinkDown hs)))

theorem outInv_execFlr : OutInv (execFlr s) :=
  pred_ite (outInv_next hs) (outInv_next (memInv_rsetB (memInv_epIntx (memInv_epReset (memInv_mk hs)))))

/-! ### Boot -/

theorem memInv_setBootStep : MemInv (setBootStep s v) := memInv_rputF hs

theorem memInv_setBootFail : MemInv (setBootFail s v) := memInv_rputF hs

theorem memInv_setPath : MemInv (setPath s v) := hs

theorem memInv_setCause : MemInv (setCause s k) := memInv_rputF hs

theorem memInv_measureSet {i : Nat} {d : List Byte} : MemInv (measureSet s i d) := hs

theorem memInv_measureExtend {i : Nat} {d : List Byte} : MemInv (measureExtend s i d) := memInv_measureSet hs

theorem memInv_recErr : MemInv (recErr s) := memInv_rsetB hs

theorem memInv_portProtoSet {n : Fin 12} {proto partner width : Nat} : MemInv (portProtoSet s n proto partner width) :=
  pred_ite (memInv_rput (memInv_rputF hs)) (memInv_rputF hs)

theorem memInv_manRecord {r : Nat × List Byte} : MemInv (manRecord s r) := by
  unfold manRecord
  dsimp only
  split
  · exact pred_ite (memInv_recErr (memInv_rput hs)) (memInv_rput hs)
  · exact pred_dite (fun _ => pred_ite (memInv_recErr hs) (memInv_portProtoSet hs)) (fun _ => memInv_recErr hs)
  · exact memInv_rput hs
  · exact pred_ite (memInv_rput (memInv_rput (memInv_rput hs))) (memInv_recErr hs)
  · split
    · exact pred_ite (memInv_foldl _ hs fun _ _ ht => memInv_waAssign ht) (memInv_recErr hs)
    · exact memInv_recErr hs
  · split
    · exact pred_ite (memInv_rputF hs) (memInv_recErr hs)
    · exact memInv_recErr hs
  · exact pred_ite (memInv_foldl _ hs fun _ _ ht => memInv_rsetB ht) (memInv_recErr hs)
  · split
    · exact pred_ite (memInv_waAssign hs) (memInv_recErr hs)
    · exact memInv_recErr hs
  · split
    · exact pred_ite (pred_ite (memInv_setTileMode (memInv_keyCopy hs)) (memInv_setTileMode hs)) (memInv_recErr hs)
    · exact memInv_recErr hs
  · exact memInv_recErr hs

theorem memInv_waSource : MemInv (waSource s v) := memInv_rsetB (memInv_rputF hs)

theorem memInv_manifestApply : MemInv (manifestApply s) := by
  unfold manifestApply
  extract_lets +onlyGivenNames _ _ _ s1
  have hs1 : MemInv s1 := pred_ite (memInv_rputF hs) hs
  refine pred_ite (memInv_measureSet (memInv_waSource (memInv_foldl _ hs1 fun _ _ ht => memInv_manRecord ht))) ?_
  refine pred_ite (memInv_measureSet (memInv_waSource (memInv_foldl _ hs1 fun _ _ ht => memInv_manRecord ht))) ?_
  exact memInv_measureSet (memInv_waSource hs1)

theorem memInv_fwAuthFail : MemInv (fwAuthFail s) := memInv_reportErr hs

theorem memInv_wsStart {d : Fin 2} : MemInv (wsStart s d) := memInv_tput hs

theorem memInv_pairsStart {b : Bool} : MemInv (pairsStart s b) :=
  memInv_rputF (memInv_rsetB (memInv_wsStart (memInv_wsStart (memInv_measureSet hs))))

theorem memInv_railStart : MemInv (railStart s) := memInv_setBootStep (memInv_mk hs)

theorem pairInv_bootFirmware {b : Bool} : PairInv (bootFirmware s b) := by
  refine pred_ite (pairInv_mk (memInv_pairsStart hs)) ?_
  refine pred_ite (pairInv_mk (memInv_rsetB (memInv_pairsStart (memInv_fwAuthFail hs)))) ?_
  exact pairInv_mk (memInv_setBootFail (memInv_setBootStep (memInv_fwAuthFail hs)))

theorem memInv_bootTrain : MemInv (bootTrain s) := memInv_foldl _ (memInv_setBootStep hs) fun _ _ ht => memInv_stkCommand ht

theorem memInv_repairsApply : MemInv (repairsApply s) :=
  memInv_foldl _ hs fun _ _ ht => pred_dite (fun _ => pred_ite (memInv_rsat (memInv_rputF ht)) (memInv_rsat (memInv_hbmMod ht)))
    (fun _ => ht)

theorem memInv_bootImages : MemInv (bootImages s) := by
  unfold bootImages
  split
  · exact hs
  · exact memInv_foldl _ hs fun _ _ ht => pred_ite (memInv_measureExtend (memInv_rput64 (memInv_memWriteBytes ht))) (memInv_fwAuthFail ht)

theorem memInv_windowsSet : MemInv (windowsSet s) :=
  memInv_foldl _ hs fun _ _ ht => pred_dite (fun _ => pred_ite ht (memInv_cxlWindowCtl (memInv_rput (memInv_rput (memInv_rput ht)))))
    (fun _ => ht)

theorem memInv_domainsOn : MemInv (domainsOn s) := memInv_foldl _ hs fun _ _ ht => memInv_foldl _ ht fun _ _ ht => memInv_setDom ht

theorem memInv_blocksOn : MemInv (blocksOn s) :=
  memInv_foldl _ (memInv_foldl _ hs fun _ _ ht => memInv_l3En (pred_ite (memInv_l2En (memInv_rsetB (memInv_l2En (memInv_rsetB ht))))
    (memInv_l2En (memInv_rsetB ht)))) fun _ _ ht => memInv_rsetB ht

theorem memInv_bootPlace {image : List Byte} : MemInv (bootPlace s image) :=
  memInv_memWriteBytes (memInv_memZero (memInv_mk (memInv_rput hs)))

theorem memInv_imagesGo : MemInv (imagesGo s) := by
  unfold imagesGo
  split
  · exact hs
  · exact memInv_foldl _ hs fun _ _ ht => pred_ite (memInv_startDone (memInv_startGo ht)) ht

theorem memInv_release : MemInv (release s) := pred_ite hs (memInv_cairnSync (memInv_tput (memInv_ovfClear hs)))

theorem memInv_bootFinish : MemInv (bootFinish s) := by
  unfold bootFinish
  extract_lets +onlyGivenNames s0
  have hs0 : MemInv s0 := memInv_setBootStep hs
  split
  · exact hs0
  · refine pred_ite (pred_ite (memInv_setBootFail (memInv_setBootStep (memInv_fwAuthFail hs0))) ?_) ?_
    · extract_lets +onlyGivenNames _ s1
      have hs1 : MemInv s1 := memInv_rsetB (memInv_fwAuthFail hs0)
      exact pred_ite (memInv_bootTrain (memInv_setPath (memInv_pairsStart hs1))) (memInv_setBootFail (memInv_setBootStep hs1))
    · extract_lets +onlyGivenNames s1
      have hs1 : MemInv s1 := memInv_imagesGo (memInv_blocksOn (memInv_bandsRun (memInv_domainsOn (memInv_bootPlace hs0))))
      exact memInv_setPath (memInv_setBootStep (memInv_release (pred_ite (memInv_toRun hs1) hs1)))

theorem memInv_bootFormed : MemInv (bootFormed s) := memInv_bootFinish (pred_ite (memInv_waLock (memInv_windowsSet hs)) hs)

theorem memInv_bootWorlds : MemInv (bootWorlds s) := by
  unfold bootWorlds
  extract_lets +onlyGivenNames _ s2
  have hs2 : MemInv s2 := by
    unfold s2
    refine memInv_foldl _ (memInv_setBootStep (pred_ite (memInv_manifestApply hs) hs)) fun _ _ ht => ?_
    split
    · exact memInv_cvTrain (memInv_rsetB ht)
    · exact ht
    · exact memInv_rsetB ht
  exact pred_ite (memInv_bootFormed (memInv_mk hs2)) (memInv_mk hs2)

theorem memInv_bootOn : MemInv (bootOn s) := memInv_bootWorlds (memInv_bootImages (memInv_mk (pred_ite (memInv_repairsApply hs) hs)))

theorem memInv_bootTrained : MemInv (bootTrained s) := pred_ite (memInv_bootOn hs) hs

theorem memInv_threadsStop : MemInv (threadsStop s) := by
  unfold threadsStop
  exact memInv_foldl _ (memInv_foldl _ (memInv_foldl _ hs fun _ _ ht => pred_ite
    (memInv_lockForget (memInv_foldl _ ht fun _ _ ht => memInv_wqSettle ht)) ht) fun _ _ ht => memInv_emptyRunStacks (memInv_stopThread ht))
      fun _ _ ht => memInv_emptyRunStacks (memInv_stopThread ht)

theorem memInv_warmClear : MemInv (warmClear s) := hs

theorem memInv_portsDown : MemInv (portsDown s) := memInv_foldl _ hs fun _ _ ht => memInv_rputF (memInv_rputF ht)

theorem memInv_hbmModeReset : MemInv (hbmModeReset s) := pred_ite hs (memInv_memZero (memInv_mk hs))

theorem memInv_warmReset : MemInv (warmReset s kind) := by
  unfold warmReset
  exact memInv_bootWorlds (memInv_bootImages (memInv_setBootStep (memInv_setPath
    (memInv_mk (memInv_hbmModeReset (memInv_portsDown (memInv_warmClear (memInv_threadsStop
      (memInv_mbFaceResets (memInv_foldl _ (memInv_freshNonce (memInv_setGrantDbg
        (memInv_setCause (pred_ite hs (memInv_foldl _ hs fun _ _ ht => pred_ite (memInv_cvControl ht) ht))))) fun _ _ ht => pred_ite
          (memInv_mbSetState (memInv_mbAbort ht)) ht))))))))))

theorem memInv_settle : MemInv (settle s) := by
  unfold settle
  split
  · exact pred_ite (memInv_warmReset hs) hs
  · exact hs

theorem memInv_warmTrigger : MemInv (warmTrigger s kind) := by
  unfold warmTrigger
  refine pred_ite hs ?_
  refine pred_ite (memInv_setCause (pred_ite (memInv_mk hs) hs)) ?_
  refine pred_ite (memInv_mk hs) ?_
  split
  · exact memInv_warmReset hs
  · exact memInv_pkgWake (memInv_mk hs)
  · exact memInv_pkgWake (memInv_mk hs)
  · exact memInv_mk hs
  · exact memInv_pkgWake (memInv_setCause (memInv_mk hs))

omit hs in
theorem memInv_coldClear {stby : Bool} : MemInv (coldClear s kind stby) :=
  memInv_rput (pred_ite (memInv_rput (memInv_mk memInv_reset)) (memInv_mk memInv_reset))

theorem memInv_fusesLoad : MemInv (fusesLoad s) :=
  memInv_setGrantDbg (memInv_foldl _ hs fun _ _ ht => memInv_foldl _ ht fun _ _ ht => memInv_rput ht)

theorem memInv_sealKeys : MemInv (sealKeys s) :=
  memInv_foldl _ hs fun _ _ ht => memInv_foldl _ ht fun _ _ ht => memInv_cput (memInv_useFree ht)

theorem memInv_powerGood {straps : BitVec 6} {flash : Option Flash} : MemInv (powerGood s straps flash) :=
  memInv_sealKeys (memInv_rput (memInv_rput (memInv_mk hs)))

theorem outInv_execCrystalConfirmed : OutInv (execCrystalConfirmed s) := by
  refine pred_ite (outInv_next hs) ?_
  exact outInv_next (pred_ite (memInv_railStart (pairInv_bootFirmware (memInv_freshNonce (memInv_fusesLoad (memInv_setBootStep hs)))))
    (pairInv_bootFirmware (memInv_freshNonce (memInv_fusesLoad (memInv_setBootStep hs)))))

theorem outInv_execRailInRegulation : OutInv (execRailInRegulation s) := by
  refine pred_ite (outInv_next hs) ?_
  refine pred_ite (outInv_next (memInv_mk (memInv_rput hs))) ?_
  exact outInv_next (memInv_bootTrain (memInv_foldl _ (memInv_mk (memInv_rput hs)) fun _ _ ht => memInv_rputF ht))

theorem outInv_execRailAllowanceExpire : OutInv (execRailAllowanceExpire s) :=
  pred_ite (outInv_next hs) (outInv_next (memInv_setBootFail (memInv_rputF (memInv_mk hs))))

theorem outInv_execPerstN : OutInv (execPerstN s) :=
  pred_ite (outInv_next hs) (outInv_next (pred_ite (memInv_warmTrigger (memInv_epPerst hs)) (memInv_epPerst hs)))

theorem outInv_execDormantExit {clock : Bool} : OutInv (execDormantExit clock s) :=
  pred_ite (outInv_next (memInv_railStart (memInv_setPath hs))) (outInv_next hs)

theorem outInv_execRefclk25Stable : OutInv (execRefclk25Stable s) :=
  pred_ite (outInv_next (memInv_railStart (memInv_setPath hs))) (outInv_next hs)

theorem outInv_execStackTrainingDone {k : Fin 6} {ch : Option (Fin 8)} {ok : Bool} {serial : Word} :
    OutInv (execStackTrainingDone k ch ok serial s) := by
  unfold execStackTrainingDone
  split
  · refine pred_ite (outInv_next hs) ?_
    extract_lets s1
    have h1 : MemInv s1 := memInv_selfRefreshExit (memInv_rsetB hs)
    exact outInv_next (pred_ite h1 (memInv_reportErr (memInv_rsetB h1)))
  · extract_lets +onlyGivenNames w s1 fin
    have hs1 : MemInv s1 := memInv_setWork hs
    have hFin {t : State} (ht : MemInv t) : OutInv (.next (fin t)) := outInv_next (memInv_settle (memInv_bootTrained ht))
    clear_value w
    split
    · exact pred_ite (hFin (memInv_stackReady (memInv_zeroStack (memInv_rput64 hs1)))) (hFin (memInv_stackFailed hs1))
    · exact pred_ite (hFin (memInv_stackReady (memInv_rput64 hs1))) (outInv_next (memInv_setWork hs1))
    · exact hFin (pred_ite (memInv_stackReady hs1) (memInv_stackFailed hs1))
    · exact outInv_next hs

theorem outInv_execCaravanLinkActive {port : Fin 12} {lanes : BitVec 16} : OutInv (execCaravanLinkActive port lanes s) := by
  unfold execCaravanLinkActive
  refine pred_ite (outInv_next hs) ?_
  split
  · exact outInv_next (memInv_cvDead hs)
  · refine pred_ite (outInv_next (memInv_cvDead hs)) ?_
    extract_lets +onlyGivenNames s1
    have hs1 : MemInv s1 := memInv_relayUpdate (memInv_cvStatPut (memInv_cvStatPut hs))
    exact outInv_next (pred_ite (memInv_settle (memInv_bootFormed (memInv_formNode hs1))) hs1)

theorem outInv_execNodeFormationTimeout : OutInv (execNodeFormationTimeout s) := by
  refine pred_ite (outInv_next hs) ?_
  exact outInv_next (memInv_settle (memInv_bootFormed (memInv_formNode (pred_ite hs
    (memInv_foldl _ hs fun _ _ ht => pred_ite ht (memInv_cvDead ht))))))

theorem outInv_execCampExit : OutInv (execCampExit s) := by
  unfold execCampExit
  refine pred_ite (outInv_next hs) ?_
  exact outInv_next (memInv_settle (memInv_toRun (memInv_bandsRun (memInv_foldl _
    (memInv_foldl _ (memInv_foldl _ hs fun _ _ ht => memInv_rputF (memInv_rputF ht)) fun _ _ ht => pred_ite
      (memInv_foldl _ (memInv_setStk ht) fun _ _ ht => memInv_setDom (memInv_selfRefreshExit ht)) ht) fun _ _ ht => pred_ite
        (memInv_dstatPut (memInv_setDom ht)) ht))))

/-! ### Mbox -/

theorem pairInv_freeBytes : PairInv (freeBytes s n) := pairInv_foldl _ (pairInv_mk hs) fun _ _ ht => pairInv_mk (memInv_useFree ht)

theorem memInv_mbBegin {r : MbRun} : MemInv (mbBegin s m r) := hs

theorem servedInv_done : ServedInv (done s data) := hs

theorem servedInv_fails {status : Nat} : ServedInv (fails s status) := hs

theorem servedInv_refused {locus : Nat} : ServedInv (refused s locus) := hs

theorem outInv_serve {f : State → World → List Byte → Served} (hf : ∀ t a1 a2, MemInv t → ServedInv (f t a1 a2)) :
    OutInv (serve s m op f) := by
  unfold serve
  refine pred_ite (outInv_next hs) ?_
  split
  · exact outInv_next hs
  · exact outInv_next (memInv_mbBegin (memInv_of_served (pred_ite (servedInv_fails hs)
      (pred_ite (servedInv_fails hs) (pred_ite (servedInv_fails hs) (hf _ _ _ hs))))))

theorem memInv_setPowerLimit {watts : Nat} : MemInv (setPowerLimit s watts) :=
  memInv_foldl _ (memInv_rputF hs) fun _ _ ht => memInv_rputF ht

theorem outInv_execSetPowerLimit {m : Fin 28} : OutInv (execSetPowerLimit m s) :=
  outInv_serve hs (fun _ _ _ ht => servedInv_done (memInv_setPowerLimit ht))

theorem outInv_entryCommand {dormant late : Bool} : OutInv (entryCommand s m dormant late) := by
  unfold entryCommand
  dsimp only
  split
  · exact outInv_serve hs (fun _ _ _ ht => pred_ite (servedInv_fails ht) (pred_ite (servedInv_mk (memInv_pkgEnter ht))
      (pred_ite (servedInv_refused ht) ht)))
  · refine pred_ite (outInv_next hs) ?_
    exact pred_ite (outInv_next (memInv_mbBegin (memInv_pkgEnter hs))) (pred_ite (outInv_next (memInv_mbBegin hs)) (outInv_next hs))

theorem outInv_execSetWatch {m : Fin 28} : OutInv (execSetWatch m s) :=
  outInv_serve hs (fun _ _ _ ht => pred_dite (fun _ => pred_ite (servedInv_fails ht) (servedInv_done (memInv_rsetB ht)))
    (fun _ => servedInv_fails ht))

theorem memInv_resetFollows {straps : BitVec 6} : MemInv (resetFollows s straps) := by
  unfold resetFollows
  split
  · exact hs
  · refine pred_ite (memInv_mk hs) ?_
    split
    · exact memInv_warmTrigger (memInv_mk hs)
    · exact memInv_powerGood memInv_coldClear
    · split
      · exact memInv_setCause (memInv_domainReset (memInv_mk hs))
      · exact memInv_mk hs

theorem outInv_execReset {m : Fin 28} {go : Bool} {straps : BitVec 6} : OutInv (execReset m go straps s) := by
  unfold execReset
  refine pred_ite (pred_ite (outInv_next hs) (outInv_next (memInv_resetFollows hs))) ?_
  refine outInv_serve hs (fun _ _ _ ht => ?_)
  refine pred_ite (servedInv_fails ht) ?_
  refine pred_ite (servedInv_fails ht) ?_
  refine pred_ite (servedInv_done (memInv_mk ht)) ?_
  split
  · exact servedInv_fails ht
  · exact pred_ite (servedInv_fails ht) (pred_ite (servedInv_fails ht) (servedInv_done (memInv_mk ht)))

theorem outInv_execRetireSlice {m : Fin 28} : OutInv (execRetireSlice m s) := by
  unfold execRetireSlice
  refine outInv_serve hs (fun _ _ _ ht => ?_)
  split
  · exact servedInv_fails ht
  · refine pred_ite (servedInv_fails ht) ?_
    exact pred_ite (servedInv_done ht) (pred_ite (servedInv_refused ht) (servedInv_mk (memInv_retireSlice ht)))

theorem memInv_waysBack : MemInv (waysBack s st a v) := pred_ite (memInv_reenableL3 hs) (memInv_reenable hs)

theorem outInv_execReenableWays {m : Fin 28} : OutInv (execReenableWays m s) := by
  unfold execReenableWays
  refine outInv_serve hs (fun _ _ _ ht => ?_)
  split
  · exact servedInv_fails ht
  · exact pred_ite (servedInv_fails ht) (pred_ite (servedInv_fails ht) (servedInv_done (memInv_waysBack ht)))

theorem outInv_execReviveLink {m : Fin 28} : OutInv (execReviveLink m s) := by
  unfold execReviveLink
  refine outInv_serve hs (fun _ _ _ ht => ?_)
  refine pred_ite (servedInv_fails ht) ?_
  refine pred_ite ?_ (pred_ite (servedInv_fails ht) (pred_ite (servedInv_fails ht)
    (pred_ite (servedInv_refused ht) (servedInv_mk (memInv_foldl _ ht fun _ _ ht => memInv_reviveLink ht)))))
  split
  · exact servedInv_fails ht
  · exact pred_ite (servedInv_fails ht) (pred_ite (servedInv_refused ht) (servedInv_mk (memInv_cvTrain ht)))

theorem memInv_logRepair {r : Nat × Nat × Nat} : MemInv (logRepair s r) := hs

theorem outInv_execLaneRemap {m : Fin 28} : OutInv (execLaneRemap m s) := by
  unfold execLaneRemap
  refine outInv_serve hs (fun _ _ _ ht => ?_)
  split
  · exact servedInv_fails ht
  · exact pred_dite (fun _ => pred_ite (servedInv_fails ht) (pred_ite (servedInv_fails ht)
      (pred_ite (servedInv_refused (memInv_remapCommand ht)) (servedInv_done (memInv_logRepair (memInv_remapCommand ht))))))
        (fun _ => servedInv_fails ht)

theorem outInv_execSpareRow {m : Fin 28} : OutInv (execSpareRow m s) := by
  unfold execSpareRow
  refine outInv_serve hs (fun _ _ _ ht => ?_)
  split
  · exact servedInv_fails ht
  · exact pred_dite (fun _ => pred_ite (servedInv_fails ht) (pred_ite (servedInv_fails ht)
      (pred_ite (servedInv_refused ht) (pred_ite (servedInv_refused (memInv_spareCommand (memInv_rput ht)))
        (servedInv_done (memInv_logRepair (memInv_spareCommand (memInv_rput ht)))))))) (fun _ => servedInv_fails ht)

theorem outInv_execRetrain {m : Fin 28} : OutInv (execRetrain m s) := by
  unfold execRetrain
  exact outInv_serve hs (fun _ _ _ ht => pred_dite (fun _ => pred_ite (servedInv_fails ht)
    (pred_ite (servedInv_fails ht) (pred_ite (servedInv_fails ht) (pred_ite (servedInv_refused ht)
      (pred_dite (fun _ => servedInv_mk (memInv_stkCommand ht)) (fun _ => servedInv_mk (memInv_stkCommand ht)))))))
        (fun _ => servedInv_fails ht))

theorem outInv_execLedgerRead {m : Fin 28} : OutInv (execLedgerRead m s) :=
  outInv_serve hs (fun _ _ _ ht => pred_dite (fun _ => pred_ite (servedInv_fails ht) (servedInv_done ht)) (fun _ => servedInv_fails ht))

theorem outInv_execLedgerClear {m : Fin 28} : OutInv (execLedgerClear m s) :=
  outInv_serve hs (fun _ _ _ ht => pred_dite (fun _ => servedInv_done (memInv_ledgerClear ht)) (fun _ => servedInv_fails ht))

theorem memInv_tileQuiesce : MemInv (tileQuiesce s st) :=
  memInv_foldl _ hs fun _ _ ht => memInv_rsetB (memInv_l2Empty (memInv_l2En (memInv_rsetB ht)))

theorem memInv_tileResume : MemInv (tileResume s st) :=
  pred_ite (memInv_l2En (memInv_rsetB (memInv_l2En (memInv_rsetB hs)))) (memInv_l2En (memInv_rsetB hs))

theorem outInv_execSetTileMode {m : Fin 28} : OutInv (execSetTileMode m s) := by
  unfold execSetTileMode
  refine outInv_serve hs (fun _ _ _ ht => ?_)
  split
  · exact servedInv_fails ht
  · refine pred_ite (servedInv_fails ht) ?_
    refine pred_ite (servedInv_fails ht) ?_
    refine pred_ite (servedInv_refused ht) ?_
    exact pred_ite (servedInv_refused (memInv_lockCmd ht)) (servedInv_done (memInv_lockCmd (memInv_tileQuiesce ht)))

theorem outInv_execGetTileLock {m : Fin 28} : OutInv (execGetTileLock m s) := by
  unfold execGetTileLock
  refine outInv_serve hs (fun _ _ _ ht => ?_)
  split
  · exact servedInv_fails ht
  · exact servedInv_done ht

theorem memInv_flashMod {f : Flash → Flash} : MemInv (flashMod s f) := hs

theorem outInv_execSetHbmMode {m : Fin 28} : OutInv (execSetHbmMode m s) :=
  outInv_serve hs (fun _ _ _ ht => pred_ite (servedInv_fails ht) (servedInv_mk (memInv_flashMod ht)))

theorem outInv_execSetCxlWindow {m : Fin 28} : OutInv (execSetCxlWindow m s) :=
  outInv_serve hs (fun _ _ _ ht => pred_ite (servedInv_fails ht) (servedInv_done (memInv_flashMod ht)))

theorem outInv_execOrLoad {m : Fin 28} : OutInv (execOrLoad m s) := by
  unfold execOrLoad
  refine outInv_serve hs (fun _ _ _ ht => ?_)
  split
  · refine pred_ite (servedInv_fails ht) ?_
    refine pred_ite (servedInv_refused ht) ?_
    refine pred_ite (servedInv_fails ht) ?_
    extract_lets +onlyGivenNames _ s1
    have hs1 : MemInv s1 := memInv_clearResv (memInv_memWriteBytes ht)
    refine pred_ite (servedInv_fails hs1) ?_
    extract_lets +onlyGivenNames s2
    have hs2 : MemInv s2 := memInv_rput64 (memInv_measureExtend hs1)
    exact servedInv_mk (pred_ite (memInv_startGo (memInv_rsetB hs2)) (memInv_rsetB hs2))
  · exact servedInv_fails ht

theorem outInv_execOrStop {m : Fin 28} : OutInv (execOrStop m s) :=
  outInv_serve hs (fun _ _ _ ht => pred_dite (fun _ => pred_ite (servedInv_fails ht) (servedInv_done (memInv_startStop ht)))
    (fun _ => servedInv_fails ht))

theorem outInv_execOrStatus {m : Fin 28} : OutInv (execOrStatus m s) :=
  outInv_serve hs (fun _ _ _ ht => pred_dite (fun _ => pred_ite (servedInv_fails ht) (servedInv_done (pairInv_freeBytes ht)))
    (fun _ => servedInv_fails ht))

theorem memInv_setFwu {f : FwuSt} : MemInv (setFwu s f) := hs

theorem servedInv_fwuBegin {comp len : Nat} : ServedInv (fwuBegin s comp len) :=
  pred_ite (servedInv_fails hs) (pred_ite (servedInv_fails hs) (servedInv_mk (memInv_setFwu (memInv_flashMod hs))))

theorem servedInv_fwuData {d : List Byte} : ServedInv (fwuData s off d) :=
  pred_ite (servedInv_fails hs) (pred_ite (servedInv_fails hs) (servedInv_done (memInv_setFwu (memInv_flashMod hs))))

theorem servedInv_fwuVerify : ServedInv (fwuVerify s) :=
  pred_ite (servedInv_fails hs) (pred_ite (servedInv_mk (memInv_setFwu hs)) (servedInv_fails hs))

theorem memInv_flipActive : MemInv (flipActive s) := memInv_rsetB hs

theorem servedInv_fwuActivate {now : Nat} : ServedInv (fwuActivate s now) := by
  unfold fwuActivate
  refine pred_ite (servedInv_fails hs) ?_
  refine pred_ite (servedInv_fails hs) ?_
  refine pred_ite (servedInv_refused hs) ?_
  extract_lets +onlyGivenNames s1
  have hs1 : MemInv s1 := memInv_setFwu (memInv_flashMod hs)
  refine pred_ite hs1 ?_
  exact servedInv_mk (memInv_addEvent (memInv_wsStart (memInv_wsStart (memInv_measureSet
    (memInv_rputF (memInv_rsetB (memInv_flipActive hs1)))))))

theorem servedInv_fwuAbort : ServedInv (fwuAbort s) := servedInv_done (memInv_setFwu hs)

theorem outInv_execFwuBegin {m : Fin 28} : OutInv (execFwuBegin m s) :=
  outInv_serve hs (fun _ _ _ ht => pred_ite (servedInv_fails ht) (servedInv_fwuBegin ht))

theorem outInv_execFwuData {m : Fin 28} : OutInv (execFwuData m s) :=
  outInv_serve hs (fun _ _ _ ht => pred_ite (servedInv_fails ht) (pred_ite (servedInv_fails ht) (servedInv_fwuData ht)))

theorem outInv_execFwuCommitSvn {m : Fin 28} : OutInv (execFwuCommitSvn m s) :=
  outInv_serve hs (fun _ _ _ ht => servedInv_done (memInv_rputF (memInv_rputF ht)))

theorem outInv_execDebugToken {m : Fin 28} : OutInv (execDebugToken m s) :=
  outInv_serve hs (fun _ _ _ ht => servedInv_done (memInv_presentToken ht))

theorem outInv_execGetSensors {m : Fin 28} : OutInv (execGetSensors m s) :=
  outInv_serve hs (fun _ _ _ ht => servedInv_done (pairInv_freeBytes ht))

/-! ### Waystation -/

theorem optPairInv_mbOutcome {r : MbRun} : OptPairInv (mbOutcome s m r) := by
  unfold mbOutcome
  refine pred_ite (optPairInv_some hs) ?_
  split
  · exact pred_ite (optPairInv_some hs) optPairInv_none
  · exact pred_ite (optPairInv_some hs) optPairInv_none
  · exact pred_ite (optPairInv_some hs) optPairInv_none
  · exact pred_ite optPairInv_none (optPairInv_some hs)
  · exact pred_ite optPairInv_none (optPairInv_some hs)
  · exact pred_ite optPairInv_none (optPairInv_some hs)
  · exact pred_ite optPairInv_none (pred_ite (optPairInv_some hs) (optPairInv_some hs))
  · exact pred_ite optPairInv_none (optPairInv_some (memInv_tileResume hs))
  · exact optPairInv_some hs
  · exact pred_ite (optPairInv_some hs) optPairInv_none
  · exact optPairInv_some hs

theorem outInv_execCommandComplete {m : Fin 28} : OutInv (execCommandComplete m s) := by
  unfold execCommandComplete
  split
  · split
    next e => exact outInv_next (memInv_mbComplete ((optPairInv_mbOutcome hs) _ e))
    · exact outInv_next hs
  · exact pred_ite (outInv_next (memInv_mbComplete hs)) (outInv_next hs)

theorem memInv_spdmPut {c : Nat} : MemInv (spdmPut s c v) := hs

theorem pairInv_measureBlock {i : Nat} : PairInv (measureBlock s i) :=
  pairInv_mk (memInv_of_pair (pred_ite (pairInv_freeBytes (pairInv_freeBytes hs)) (pairInv_mk (pairInv_freeBytes hs))))

theorem pairInv_spdmAnswer {c : Nat} {q : List Byte} : PairInv (spdmAnswer s c q) := by
  unfold spdmAnswer
  split
  · exact pairInv_mk (memInv_spdmPut hs)
  · exact pred_ite (pairInv_mk hs) (pairInv_mk (memInv_spdmPut (pairInv_freeBytes hs)))
  · exact pred_ite (pairInv_mk hs) (pairInv_mk (memInv_spdmPut hs))
  · exact pred_ite (pairInv_mk hs) (pairInv_mk hs)
  · exact pred_ite (pairInv_mk hs) (pred_ite (pairInv_mk hs) (pairInv_mk hs))
  · refine pred_ite (pairInv_mk hs) ?_
    refine pred_ite (pairInv_mk hs) ?_
    exact pairInv_freeBytes (pairInv_foldl _ (pairInv_mk (pairInv_freeBytes hs)) fun _ _ ht => pairInv_measureBlock ht)
  · refine pred_ite (pairInv_mk hs) ?_
    refine pred_ite (pairInv_mk hs) ?_
    extract_lets +onlyGivenNames b
    have hb : PairInv b := pred_ite (pairInv_mk hs) (pairInv_measureBlock hs)
    exact pred_ite (pairInv_freeBytes (pairInv_freeBytes hb)) (pairInv_mk (pairInv_freeBytes hb))
  · exact hs

theorem outInv_spdmServe {c : Fin 17} {code : Option Nat} {peer : Nat} {q : List Byte} : OutInv (spdmServe s c code peer q) := by
  refine pred_ite (pred_ite (outInv_serve hs (fun _ _ _ ht => servedInv_done (pairInv_spdmAnswer ht))) (outInv_next hs)) ?_
  exact pred_ite (outInv_next (memInv_sbSend (pairInv_spdmAnswer hs))) (outInv_next hs)

theorem memInv_mctpSend {peer type : Nat} {body : List Byte} : MemInv (mctpSend s peer type body) := memInv_sbSend hs

theorem outInv_execSetEndpointId {peer eid : BitVec 8} : OutInv (execSetEndpointId peer eid s) :=
  pred_ite (outInv_next (memInv_mctpSend hs)) (outInv_next (memInv_mctpSend (memInv_mk hs)))

theorem outInv_execPldmMonitoring {peer : BitVec 8} {sensor : BitVec 16} : OutInv (execPldmMonitoring peer sensor s) := by
  unfold execPldmMonitoring
  split <;> exact outInv_next (memInv_mctpSend hs)

theorem outInv_execPldmFirmwareUpdate {peer : BitVec 8} {step : Fin 5} {a b : BitVec 32} :
    OutInv (execPldmFirmwareUpdate peer step a b data s) := by
  unfold execPldmFirmwareUpdate
  refine outInv_next ?_
  refine memInv_mctpSend ?_
  refine memInv_of_served ?_
  refine pred_ite (servedInv_fails hs) ?_
  split
  · exact servedInv_fwuBegin hs
  · exact servedInv_fwuData hs
  · exact servedInv_fwuVerify hs
  · exact servedInv_fwuActivate hs
  · exact servedInv_fwuAbort hs

theorem outInv_execVendorDefined {owner : Bool} {peer : BitVec 8} {msg : List Byte} : OutInv (execVendorDefined owner peer msg s) := by
  refine pred_ite (outInv_next (memInv_mctpSend hs)) ?_
  exact outInv_next (memInv_mbDoorbell (memInv_mk (memInv_foldl _ hs fun _ _ ht => memInv_mbPut ht)))

theorem memInv_setStandby : MemInv (setStandby s v) := memInv_rputF hs

theorem memInv_pairFailed : MemInv (pairFailed s) := by
  unfold pairFailed
  refine pred_ite (memInv_reportErr (memInv_addEvent (memInv_rsat (memInv_rsetB (memInv_tput (memInv_setStandby (memInv_flipActive hs)))))))
    ?_
  exact memInv_wsStart (memInv_foldl _ (memInv_foldl _ hs fun _ _ ht => memInv_mbAbort ht) fun _ _ ht => pred_ite (memInv_mbComplete ht) ht)

theorem memInv_pairHalt {d : Fin 2} : MemInv (pairHalt s d src) := by
  refine pred_ite (memInv_pairFailed (memInv_reportErr hs)) ?_
  exact pred_ite (memInv_tput (memInv_setStandby (memInv_reportErr hs))) (memInv_reportErr hs)

theorem outInv_execWatchdogExpire {d : Fin 2} : OutInv (execWatchdogExpire d s) :=
  pred_ite (outInv_next hs) (outInv_next (memInv_pairHalt (memInv_rputF hs)))

theorem outInv_execStandbySelftestDone {pass : Bool} : OutInv (execStandbySelftestDone pass s) := by
  refine pred_ite (outInv_next hs) ?_
  refine pred_ite (outInv_next (memInv_wsStart (memInv_setStandby hs))) ?_
  exact outInv_next (memInv_addEvent (memInv_reportErr (memInv_setStandby hs)))

/-! ### Ports -/

theorem memInv_mbWrite {v : Reg32} : MemInv (mbWrite s m off v) := by
  refine pred_ite (memInv_mbReqWrite hs) ?_
  exact pred_ite (memInv_mbDoorbell hs) (pred_ite (pred_ite (memInv_mbPut hs) hs) (pred_ite (memInv_mbCtlWrite hs) hs))

theorem memInv_epPost {d : List Byte} {ep : Bool} : MemInv (epPost s q off d ep) := by
  unfold epPost
  split
  · exact memInv_rsat hs
  · exact memInv_wqPost (memInv_ioCount hs)

theorem pairInv_faceRead {len : Nat} : PairInv (faceRead s a len) := by
  unfold faceRead
  split
  · exact pred_ite (pairInv_mk (memInv_inRefuse hs)) (pairInv_mk (memInv_inboundCpl hs))
  · exact pairInv_inRead hs
  · exact pairInv_mk (memInv_inboundCpl hs)
  · exact pairInv_mk (memInv_inRefuse hs)

theorem pairInv_faceWrite {d : List Byte} {ep : Bool} : PairInv (faceWrite s a d ep) := by
  unfold faceWrite
  split
  · refine pred_ite (pairInv_mk (memInv_epPost hs)) ?_
    exact pred_ite (pairInv_mk (memInv_rsetB hs)) (pred_ite (pairInv_mk (memInv_mbWrite hs)) (pairInv_mk hs))
  · exact pairInv_inWrite hs
  · exact hs
  · exact pairInv_mk (memInv_inRefuse hs)

theorem pairInv_faceAtomic {len : Nat} {d : List Byte} : PairInv (faceAtomic s a len op d) := by
  unfold faceAtomic
  split
  · exact pairInv_inAtomic hs
  · exact pairInv_mk (memInv_inRefuse hs)
  · exact pairInv_mk (memInv_inRefuse hs)

theorem memInv_epWith {ep : SMap Reg32} {en : Nat} : MemInv (epWith s ep en d) := memInv_rputF (memInv_rputF (memInv_mk hs))

theorem pairInv_asReceived {r : InReq} {run : State → State × InRes} (hrun : ∀ t, MemInv t → PairInv (run t)) :
    PairInv (asReceived r run s) := by
  unfold asReceived
  split
  · exact hrun _ hs
  · exact pairInv_mk (memInv_epWith (hrun _ (memInv_epWith hs)))

theorem optInv_inboundHeld {n : Fin 12} : OptInv (inboundHeld s n) :=
  pred_ite optInv_none (pred_ite (optInv_some hs) (optInv_some (memInv_pkgWake hs)))

theorem outInv_inbound {n : Fin 12} {r : InReq} {kind : AKind} {face : State → State × InRes} (hface : ∀ t, MemInv t → PairInv (face t))
    {run : State → Bool → Nat → State × InRes} (hrun : ∀ t a1 a2, MemInv t → PairInv (run t a1 a2)) {bad : State → Bool → State}
    (hbad : ∀ t a1, MemInv t → MemInv (bad t a1)) : OutInv (inbound s n r kind face run bad) := by
  unfold inbound
  split
  next e => exact outInv_next ((optInv_inboundHeld hs) _ e)
  · refine pred_ite (pred_ite (outInv_next (memInv_inOrder hs (fun _ ht => pairInv_asReceived ht (fun _ ht => hface _ ht))))
      (outInv_next hs)) ?_
    refine pred_ite (outInv_next hs) ?_
    split
    next e => exact outInv_next (memInv_inOrder (memInv_fst e (pairInv_ioTranslate hs)) (fun _ ht => hrun _ _ _ ht))
    next e => exact outInv_next (memInv_inDrop (hbad _ _ (memInv_fst e (pairInv_ioTranslate hs))))
    next e => exact outInv_next (memInv_inKeep (memInv_fst e (pairInv_ioTranslate hs)))

theorem outInv_execInboundMemoryRead {port : Fin 12} {src : TlpSrc} {addr : Word} {len : BitVec 13} :
    OutInv (execInboundMemoryRead port src addr len s) := outInv_inbound hs (fun _ ht => pairInv_faceRead ht)
      (fun _ _ _ ht => pairInv_inRead ht) (fun _ _ ht => memInv_inRefuse ht)

theorem outInv_execInboundMemoryWrite {port : Fin 12} {src : TlpSrc} {ro : Bool} {addr : Word} {ep : Bool} :
    OutInv (execInboundMemoryWrite port src ro addr data ep s) := outInv_inbound hs (fun _ ht => pairInv_faceWrite ht)
      (fun _ _ _ ht => pairInv_inWrite ht) (fun _ _ ht => memInv_inRefuse ht)

theorem outInv_execInboundAtomicop {port : Fin 12} {src : TlpSrc} {addr : Word} {len : Fin 17} {op : Fin 3} :
    OutInv (execInboundAtomicop port src addr len op data s) := outInv_inbound hs (fun _ ht => pairInv_faceAtomic ht)
      (fun _ _ _ ht => pairInv_inAtomic ht) (fun _ _ ht => memInv_inRefuse ht)

theorem outInv_execDoorbellPost {port : Fin 12} {rid : BitVec 16} {tc : Fin 8} {addr : Word} {ep : Bool} :
    OutInv (execDoorbellPost port rid tc addr data ep s) := by
  refine pred_ite (outInv_next hs) (outInv_inbound hs (fun _ ht => pairInv_mk ht) (fun _ _ _ ht => ?_) (fun _ _ ht => memInv_inRefuse ht))
  split
  · exact pairInv_inWrite ht
  · exact pairInv_mk ht

theorem outInv_execEpDoorbell {q : Fin 64} {ep : Bool} : OutInv (execEpDoorbell q data ep s) := by
  unfold execEpDoorbell
  split
  next e => exact outInv_next ((optInv_inboundHeld hs) _ e)
  · exact pred_ite (outInv_next (memInv_inOrder hs (fun _ ht => pairInv_mk (memInv_epPost ht)))) (outInv_next hs)

theorem outInv_execTranslationRequest {port : Fin 12} {rid : BitVec 16} {addr : Word} :
    OutInv (execTranslationRequest port rid addr s) := by
  unfold execTranslationRequest
  refine pred_ite (outInv_next hs) ?_
  refine pred_ite (outInv_next (memInv_inRefuse hs)) ?_
  split
  next e =>
    have h1 := memInv_fst e (pairInv_ctxLookup hs)
    exact outInv_next (memInv_inRefuse (pred_ite (memInv_ioFault h1) (pred_ite (memInv_ioFault h1) h1)))
  next e => exact outInv_next (memInv_fst e (pairInv_ctxLookup hs))
  next e => exact outInv_next (memInv_inRefuse (memInv_fst e (pairInv_ctxLookup hs)))

theorem memInv_outDone {n : Fin 12} {c : Cpl} : MemInv (outDone s n tag c) := by
  unfold outDone
  split
  · exact hs
  · exact memInv_answer (memInv_mk hs)

theorem outInv_execOutboundCompletion {port : Fin 12} {cpl : PortCpl} : OutInv (execOutboundCompletion port tag cpl s) := by
  unfold execOutboundCompletion
  split
  · exact outInv_next hs
  · split
    · exact pred_ite (outInv_next hs) (outInv_next (memInv_outDone hs))
    · exact outInv_next (memInv_outDone hs)
    · exact outInv_next (memInv_outDone hs)
    · exact pred_ite (outInv_next hs) (outInv_next (memInv_outDone hs))

theorem memInv_portEvent {n : Fin 12} : MemInv (portEvent s n) := pred_ite (memInv_shSet hs) hs

theorem memInv_portLinkDown {n : Fin 12} {lost : Nat} : MemInv (portLinkDown s n lost) :=
  memInv_portEvent (memInv_endRequests (memInv_postedDown (memInv_rputF hs)))

theorem outInv_execPcieLinkDown {port : Fin 12} {lost : Nat} : OutInv (execPcieLinkDown port lost s) :=
  pred_ite (outInv_next hs) (pred_ite (outInv_next (memInv_rsetB (memInv_epLinkDown hs))) (outInv_next (memInv_portLinkDown hs)))

theorem outInv_execPortLinkUp {port : Fin 12} {rate : Fin 8} {width : Fin 32} {mem : Bool} :
    OutInv (execPortLinkUp port rate width mem s) := by
  refine pred_ite (outInv_next hs) ?_
  refine pred_ite (pred_ite (outInv_next (memInv_epIntx (memInv_rsetB hs))) (outInv_next hs)) ?_
  exact pred_ite (outInv_next hs) (outInv_next (memInv_portEvent (pred_ite (memInv_rsetB (memInv_rputF hs)) (memInv_rputF hs))))

theorem memInv_portError {n : Fin 12} {aer rid : Nat} : MemInv (portError s n src aer rid) :=
  pred_ite hs (memInv_portEvent (memInv_reportErr hs))

theorem outInv_execConfigurationWrite {w : EpWrite} : OutInv (execConfigurationWrite w s) := by
  unfold execConfigurationWrite
  refine pred_ite (outInv_next hs) ?_
  split
  · exact outInv_next hs
  · exact outInv_next (memInv_epIntx (memInv_rputF hs))
  · exact outInv_next (memInv_epIntx (memInv_rputF (memInv_epPut hs)))

/-! ### RegRead -/

theorem pairInv_freeReg : PairInv (freeReg s) := pairInv_mk (memInv_useFree hs)

theorem optPairInv_readAgent : OptPairInv (readAgent s st off) := by
  refine pred_ite (optPairInv_some hs) ?_
  exact pred_ite (optPairInv_some hs) (pred_ite (optPairInv_some hs) (pred_ite (optPairInv_some hs) optPairInv_none))

theorem optPairInv_readCore : OptPairInv (readCore s st blk off) := by
  refine pred_ite (optPairInv_some hs) ?_
  exact pred_ite (optPairInv_some hs) (pred_ite (optPairInv_some hs) (pred_ite (optPairInv_some hs) optPairInv_none))

theorem optPairInv_readSlice : OptPairInv (readSlice s st off) :=
  pred_ite (optPairInv_some hs) (pred_ite (optPairInv_some hs) (pred_ite (optPairInv_some hs) optPairInv_none))

theorem pairInv_ackRead : PairInv (ackRead s i h w) := pred_ite (pairInv_intAck hs) (pairInv_mk hs)

theorem optPairInv_readIntPage : OptPairInv (readIntPage s i st blk off) := by
  unfold readIntPage
  refine pred_ite (optPairInv_some hs) ?_
  refine pred_ite (optPairInv_some hs) ?_
  refine pred_ite (optPairInv_some hs) ?_
  refine pred_ite (optPairInv_some (pairInv_ackRead hs)) ?_
  refine pred_ite (optPairInv_some hs) ?_
  refine pred_ite (optPairInv_some (pred_ite (pairInv_mk hs) (pairInv_ackRead hs))) ?_
  exact pred_ite (optPairInv_some hs) (pred_ite (optPairInv_some hs) (pred_ite (optPairInv_some hs) optPairInv_none))

theorem optPairInv_readShTable : OptPairInv (readShTable s k off) :=
  pred_ite (optPairInv_some hs) (pred_ite (optPairInv_some hs) optPairInv_none)

theorem optPairInv_readErr : OptPairInv (readErr s w st off) := by
  refine pred_ite (optPairInv_some hs) ?_
  refine pred_ite (optPairInv_some hs) ?_
  refine pred_ite (optPairInv_some hs) ?_
  refine pred_ite (optPairInv_some hs) ?_
  exact pred_ite (optPairInv_some hs) (pred_ite (optPairInv_some hs) (pred_ite (optPairInv_some hs) optPairInv_none))

theorem pairInv_pmHalf {kept : Bool} {v : BitVec 48} {high : Bool} : PairInv (pmHalf s kept v high) :=
  pairInv_mk (memInv_of_pair (pred_ite (pairInv_mk hs) (pairInv_mk (memInv_useFree hs))))

theorem pairInv_pmCounter {key : Nat} {listed kept : Nat → Bool} : PairInv (pmCounter s key n off listed kept) :=
  pred_ite (pairInv_mk hs) (pairInv_pmHalf hs)

theorem optPairInv_readPm : OptPairInv (readPm s w st off) := by
  unfold readPm
  refine pred_ite (optPairInv_some hs) ?_
  refine pred_ite (optPairInv_some hs) ?_
  refine pred_ite optPairInv_none ?_
  split
  · exact optPairInv_some hs
  · refine pred_ite (optPairInv_some hs) ?_
    exact pred_ite (optPairInv_some (pred_ite (pairInv_pmCounter hs) (pairInv_pmCounter hs))) (optPairInv_some hs)

theorem optPairInv_readPhy : OptPairInv (readPhy s st blk off) := pred_ite (optPairInv_some hs) optPairInv_none

theorem optPairInv_readIo : OptPairInv (readIo s st blk off) := by
  unfold readIo
  refine pred_ite ?_ (pred_ite (optPairInv_readShTable hs) (pred_ite (optPairInv_some hs) optPairInv_none))
  refine pred_ite (optPairInv_some hs) ?_
  refine pred_ite (optPairInv_some hs) ?_
  exact pred_ite (optPairInv_some hs) (pred_ite (optPairInv_some hs) (pred_ite (optPairInv_some hs) optPairInv_none))

theorem optPairInv_readCluster : OptPairInv (readCluster s i st blk off) := by
  unfold readCluster
  refine pred_ite ?_ ?_
  · exact pred_ite (optPairInv_some hs) (pred_ite (optPairInv_some (pairInv_freeReg hs)) (pred_ite (optPairInv_some hs) optPairInv_none))
  · refine pred_ite (pred_ite (optPairInv_some hs) (pred_ite (optPairInv_some hs) optPairInv_none)) ?_
    exact pred_ite (optPairInv_some (pairInv_tcmWinRead hs)) (pred_ite (optPairInv_readIntPage hs) optPairInv_none)

theorem optPairInv_readWs : OptPairInv (readWs s i st blk off) := by
  refine pred_ite (optPairInv_some hs) ?_
  refine pred_ite (optPairInv_readShTable hs) ?_
  refine pred_ite (optPairInv_some hs) ?_
  refine pred_ite (optPairInv_some hs) ?_
  exact pred_ite (optPairInv_some hs) (pred_ite (optPairInv_some hs) (pred_ite (optPairInv_some hs) optPairInv_none))

theorem optPairInv_readComputed : OptPairInv (readComputed s i st blk off) := by
  unfold readComputed
  refine pred_ite (optPairInv_readAgent hs) ?_
  refine pred_ite (optPairInv_readPm hs) ?_
  refine pred_ite (optPairInv_readErr hs) ?_
  refine pred_ite optPairInv_none ?_
  split
  · refine pred_ite (optPairInv_readCore hs) ?_
    exact pred_ite (optPairInv_readSlice hs) (pred_ite (pred_ite (optPairInv_readIntPage hs) optPairInv_none) optPairInv_none)
  · exact pred_ite (optPairInv_readPhy hs) (pred_ite (optPairInv_some hs) optPairInv_none)
  · exact optPairInv_readIo hs
  · exact optPairInv_readCluster hs
  · exact optPairInv_readWs hs
  · exact pred_ite (optPairInv_some (pairInv_freeReg hs)) optPairInv_none

theorem pairInv_regRead : PairInv (regRead s i st blk off) := by
  unfold regRead
  refine pred_ite (pairInv_mk hs) ?_
  refine pred_ite (pairInv_mk hs) ?_
  refine pred_ite ?_ (pred_ite (pairInv_mk hs) (pred_ite (pairInv_mk hs) (pairInv_getD (optPairInv_readComputed hs) hs)))
  split <;> exact hs

/-! ### RegWrite -/

theorem memInv_showErr {w : WRes} : MemInv (showErr s st blk w) :=
  pred_ite (memInv_blkStat (pred_ite (memInv_blkStat hs) hs)) (pred_ite (memInv_blkStat hs) hs)

theorem memInv_setLatch {v : Option Reg32} : MemInv (setLatch s st blk off v) := hs

theorem memInv_plainWrite {r : RegDef} {v : Reg32} : MemInv (plainWrite s st blk off r v) := by
  unfold plainWrite
  refine pred_ite (pred_ite (memInv_showErr hs) (memInv_setLatch hs)) ?_
  refine pred_ite ?_ (memInv_showErr (memInv_rput hs))
  split
  · exact memInv_setLatch (memInv_rput (memInv_showErr (memInv_rput hs)))
  · exact memInv_showErr (memInv_rput hs)

theorem memInv_stagePut {v : Reg32} : MemInv (stagePut s st blk off v) := by
  unfold stagePut
  split
  · exact memInv_blkStat (memInv_rput hs)
  · exact hs

theorem memInv_stageWrite {v : Reg32} : MemInv (stageWrite s st blk off v) := pred_ite (memInv_mk hs) (memInv_stagePut hs)

theorem memInv_stageDiscard : MemInv (stageDiscard s st blk) := memInv_blkStat (memInv_foldl _ hs fun _ _ ht => memInv_rput ht)

theorem memInv_stageCommit : MemInv (stageCommit s st blk) := by
  unfold stageCommit
  dsimp only
  refine pred_ite hs ?_
  split
  · exact memInv_blkStat hs
  next e => exact memInv_blkStat ((pred_ite (pred_ite (optInv_some hs) optInv_none) (optInv_tbCommit hs)) _ e)

theorem memInv_commitDone : MemInv (commitDone s st blk) := by
  refine pred_ite hs ?_
  exact memInv_foldl _ (memInv_mk (memInv_blkStat (memInv_blkStat (memInv_foldl _ hs fun _ _ ht => memInv_rput ht)))) fun _ _ ht =>
    memInv_stagePut ht

theorem memInv_enWrite {on : Bool} : MemInv (enWrite s st blk on) := by
  unfold enWrite
  refine pred_ite hs ?_
  split
  · refine pred_ite (pred_ite (memInv_stopAll (memInv_rsetB hs)) (memInv_rsetB hs)) ?_
    exact pred_ite (memInv_l3En hs) (pred_ite (memInv_l2En (memInv_l2En hs)) (memInv_l2En hs))
  · exact pred_ite (memInv_stopAll (memInv_rsetB hs)) (memInv_rsetB hs)
  · exact pred_ite (pred_ite (memInv_mk (memInv_rsetB hs)) (memInv_blkStat hs)) (memInv_rsetB hs)
  · exact memInv_rsetB hs

theorem memInv_headerWrite {v : Reg32} : MemInv (headerWrite s st blk off v) := by
  unfold headerWrite
  refine pred_ite ?_ (pred_ite (memInv_rput hs) hs)
  extract_lets +onlyGivenNames s1
  have hs1 : MemInv s1 := pred_ite hs (memInv_enWrite hs)
  exact pred_ite hs1 (pred_ite (memInv_stageDiscard hs1) (pred_ite (memInv_stageCommit hs1) hs1))

theorem optInv_writeAgent {v : Reg32} : OptInv (writeAgent s st off v) := by
  refine pred_ite (optInv_some (memInv_foldl _ hs fun _ _ ht => pred_ite (memInv_reviveLink ht) ht)) ?_
  exact pred_ite (optInv_some (memInv_lockCmd hs)) (pred_ite (optInv_some (pred_ite (memInv_lockClear hs) hs)) optInv_none)

theorem optInv_writeCore {v : Reg32} : OptInv (writeCore s w st blk off v) := by
  refine pred_ite (optInv_some (memInv_startCtl hs)) ?_
  refine pred_ite (optInv_some (memInv_startCtl hs)) ?_
  exact pred_ite (optInv_some hs) (pred_ite (optInv_some (memInv_dbgCtl hs)) (pred_ite (optInv_some (memInv_dbgRcmd hs)) optInv_none))

theorem memInv_baseWrite {v : Reg32} : MemInv (baseWrite s st q off v) := by
  unfold baseWrite
  refine pred_ite (pred_ite (memInv_wqConfig hs) (memInv_setLatch (memInv_wqConfig hs))) ?_
  refine memInv_setLatch ?_
  refine memInv_wqConfig ?_
  split
  · exact memInv_wqConfig hs
  · exact hs

theorem optInv_writeQueue {v : Reg32} : OptInv (writeQueue s st q off v) := by
  unfold writeQueue
  refine pred_ite (optInv_some (memInv_wqControl hs)) ?_
  refine pred_ite (optInv_some (memInv_wqConfig hs)) ?_
  refine pred_ite (optInv_some (memInv_baseWrite hs)) ?_
  refine pred_ite (optInv_some (memInv_wqConfig hs)) ?_
  exact pred_ite (optInv_some (memInv_wqIrq (memInv_wqPut hs))) (pred_ite (optInv_some (pred_ite (memInv_wqArm hs) hs)) optInv_none)

theorem optInv_writeCache {v : Reg32} : OptInv (writeCache s w st blk off v) := by
  unfold writeCache
  refine pred_ite (pred_ite (optInv_some (memInv_reenable hs)) (pred_ite (optInv_some (memInv_reenable hs)) optInv_none)) ?_
  refine pred_ite (optInv_map fun _ => memInv_packOff (memInv_plainWrite hs)) ?_
  refine pred_ite (optInv_some (pred_ite (memInv_blkStat hs) (memInv_depotWrite hs))) ?_
  exact pred_ite (optInv_some (memInv_reenableL3 hs)) (pred_ite (optInv_writeQueue hs) optInv_none)

theorem memInv_psrcWrite {v : Reg32} : MemInv (psrcWrite s w st blk off n v) := pred_ite hs (pred_ite (memInv_rput hs) (memInv_rput hs))

theorem optInv_writeIntPage {v : Reg32} : OptInv (writeIntPage s i st blk off v) := by
  unfold writeIntPage
  refine pred_ite (optInv_some hs) ?_
  refine pred_ite (optInv_some (memInv_intSet hs)) ?_
  refine pred_ite (optInv_some (memInv_intClr hs)) ?_
  refine pred_ite (optInv_some (pred_ite (memInv_intEoi hs) hs)) ?_
  refine pred_ite (optInv_some (pred_ite hs (memInv_intEoi hs))) ?_
  exact pred_ite (optInv_some hs) (pred_ite (optInv_some (memInv_psrcWrite hs)) optInv_none)

theorem memInv_shConfig {i : Nat} {v : Reg32} : MemInv (shConfig s k off i v) :=
  pred_ite (memInv_shOfferAll (memInv_rput (memInv_shWithdraw hs))) (memInv_rput hs)

theorem optInv_writeShTable {v : Reg32} : OptInv (writeShTable s w k off v) := by
  refine pred_ite (optInv_some (memInv_shSet hs)) ?_
  exact pred_ite (optInv_some (memInv_shClr hs)) (pred_ite (optInv_some (pred_ite hs (memInv_shConfig hs))) optInv_none)

theorem memInv_errCfgWrite {v : Reg32} : MemInv (errCfgWrite s w st v) := pred_ite hs (memInv_setSrcCfg hs)

theorem optInv_writeErr {v : Reg32} : OptInv (writeErr s w st off v) := by
  unfold writeErr
  refine pred_ite (optInv_some (memInv_rput hs)) ?_
  refine pred_ite (optInv_some hs) ?_
  refine pred_ite (optInv_some (pred_ite (memInv_rput hs) (memInv_mk hs))) ?_
  refine pred_ite (optInv_some (memInv_errCfgWrite hs)) ?_
  refine pred_ite (optInv_some (pred_ite (memInv_errAck hs) hs)) ?_
  refine pred_ite ?_ optInv_none
  split
  · exact optInv_some (memInv_injWrite hs)
  · exact optInv_some hs

theorem optInv_writePm {v : Reg32} : OptInv (writePm s i st off v) := by
  unfold writePm
  refine pred_ite (optInv_some hs) ?_
  refine pred_ite ?_ (pred_ite (optInv_some (pred_ite (memInv_pmCommand hs) hs)) optInv_none)
  refine optInv_some ?_
  split
  · exact pred_ite (memInv_mk hs) hs
  · exact hs

theorem optInv_writeDseq {v : Reg32} : OptInv (writeDseq s i st off v) := by
  refine pred_ite (optInv_some (pred_ite (memInv_secRefused hs) (memInv_rput hs))) ?_
  exact pred_ite (optInv_some (pred_ite (memInv_seqUp hs) (pred_ite (memInv_seqDown hs) hs))) optInv_none

theorem optInv_writeMemory {v : Reg32} : OptInv (writeMemory s st blk off v) := by
  unfold writeMemory
  refine pred_ite (optInv_some (memInv_remapCommand hs)) ?_
  refine pred_ite (optInv_some (memInv_spareCommand hs)) ?_
  refine pred_ite (optInv_some (memInv_stkCommand hs)) ?_
  refine pred_ite (optInv_some (memInv_hbmMod hs)) ?_
  exact pred_ite (optInv_some (memInv_hbmMod hs)) (pred_ite (optInv_some (pred_ite (memInv_w1500Go hs) hs)) optInv_none)

theorem optInv_writeIo {v : Reg32} : OptInv (writeIo s w st blk off v) := by
  unfold writeIo
  refine pred_ite ?_ ?_
  · refine pred_ite (optInv_some hs) ?_
    exact pred_ite (optInv_some (memInv_ioInvWrite hs)) (pred_ite (optInv_some (pred_ite (memInv_ioPop hs) hs)) optInv_none)
  · refine pred_ite (optInv_writeShTable hs) ?_
    refine pred_ite (optInv_some (pred_ite (memInv_blkStat hs) (memInv_cxlWindowCtl hs))) ?_
    exact pred_ite (optInv_some (memInv_cvCommand hs)) optInv_none

theorem optInv_writeCluster {v : Reg32} : OptInv (writeCluster s i st blk off v) := by
  unfold writeCluster
  refine pred_ite ?_ ?_
  · refine pred_ite (optInv_some (memInv_orControl hs)) ?_
    exact pred_ite (optInv_some (pred_ite (memInv_lcCommand hs) hs)) (pred_ite (optInv_some hs) optInv_none)
  · refine pred_ite (optInv_some (pred_ite (memInv_cpClear hs) hs)) ?_
    exact pred_ite (optInv_some (memInv_tcmWinWrite hs)) (pred_ite (optInv_writeIntPage hs) optInv_none)

theorem memInv_mbRegWrite {v : Reg32} : MemInv (mbRegWrite s i st off v) := pred_ite (memInv_mbWrite hs) hs

theorem memInv_wchControl {v : Reg32} : MemInv (wchControl s w st n v) := by
  refine pred_ite (pred_ite (pred_ite (memInv_blkStat (memInv_rput hs)) (memInv_rput hs)) (memInv_rput hs)) ?_
  exact pred_ite (memInv_blkStat (memInv_rput hs)) (pred_ite (memInv_mk (memInv_rput hs)) (memInv_rput hs))

theorem optInv_writeWatch {v : Reg32} : OptInv (writeWatch s w st off v) := by
  refine pred_ite optInv_none ?_
  exact pred_ite (optInv_some hs) (pred_ite (optInv_some (memInv_wchControl hs)) (pred_ite (optInv_some (memInv_blkStat hs)) optInv_none))

theorem optInv_writeWs {v : Reg32} : OptInv (writeWs s i st blk off v) := by
  unfold writeWs
  refine pred_ite (optInv_some (memInv_mbRegWrite hs)) ?_
  refine pred_ite (optInv_writeShTable hs) ?_
  refine pred_ite (optInv_some (pred_ite (memInv_rputF hs) hs)) ?_
  refine pred_ite (optInv_some (memInv_setPowerLimit hs)) ?_
  refine pred_ite (optInv_some (pred_ite (memInv_bandGate hs) (pred_ite (memInv_bandUp hs) hs))) ?_
  refine pred_ite (optInv_writeWatch hs) ?_
  refine pred_ite (optInv_some (pred_ite (memInv_ledgerClear hs) hs)) ?_
  refine pred_ite (optInv_some (memInv_waLock hs)) ?_
  exact pred_ite (optInv_some (memInv_waAssign hs)) (pred_ite (optInv_some (pred_ite (memInv_dbgRevoke hs) hs)) optInv_none)

theorem optInv_writeActs {v : Reg32} : OptInv (writeActs s i st blk off v) := by
  unfold writeActs
  refine pred_ite (optInv_writeAgent hs) ?_
  refine pred_ite (optInv_writePm hs) ?_
  refine pred_ite (optInv_writeErr hs) ?_
  refine pred_ite (optInv_writeDseq hs) ?_
  split
  · exact pred_ite (optInv_writeCore hs) (pred_ite (optInv_writeCache hs) (pred_ite (optInv_writeIntPage hs) optInv_none))
  · exact optInv_writeMemory hs
  · exact optInv_writeIo hs
  · exact optInv_writeCluster hs
  · exact optInv_writeWs hs
  · exact pred_ite (optInv_some (pred_ite (memInv_reviveLink hs) hs)) optInv_none

theorem memInv_regWrite {v : Reg32} : MemInv (regWrite s i st blk off v) := by
  unfold regWrite
  refine pred_ite hs ?_
  refine pred_ite (memInv_headerWrite hs) ?_
  refine pred_ite hs ?_
  split
  · exact pred_ite (memInv_getD (optInv_writePm hs) hs) hs
  · exact pred_ite hs (pred_ite (memInv_stageWrite hs) (memInv_getD (optInv_writeActs hs) (memInv_plainWrite hs)))

/-! ### RegAccess -/

theorem pairInv_regDo {w : Option Reg32} : PairInv (regDo s i st blk off w) := by
  unfold regDo
  split
  · exact pairInv_mk (memInv_regWrite hs)
  · exact pairInv_mk (pairInv_regRead hs)

theorem memInv_postError {timeout : Bool} : MemInv (postError s st timeout) := memInv_reportErr hs

theorem memInv_pathUsed : MemInv (pathUsed s st) := hs

theorem pairInv_regAcc {who : Requester} {cfg : Nat} {w : Option Reg32} : PairInv (regAcc s i who cfg w) := by
  unfold regAcc
  split
  · exact hs
  · refine pred_ite (pairInv_mk (memInv_postError (memInv_pathUsed hs))) ?_
    split
    · exact hs
    · exact pairInv_mk (memInv_violation hs)
    · refine pred_ite (pred_ite (pairInv_mk hs) (pairInv_mk (memInv_postError hs))) ?_
      refine pred_ite (pairInv_mk hs) ?_
      refine pred_ite (pairInv_mk (pairInv_regDo (pred_ite hs (memInv_domWake hs)))) ?_
      exact pairInv_mk (memInv_mk (pred_ite hs (memInv_domWake hs)))

theorem memInv_setResp {r : RegResp} : MemInv (setResp s r) := hs

/-- `regCmd` is replaced by its definition as a function, so that the kernel compares two functions as terms: comparing their values, it
would run the register access. -/
theorem memInv_regCmd {v : Reg32} : MemInv (regCmd s i st blk off v) := by
  generalize hf : regCmd = f
  delta regCmd at hf
  subst hf
  beta_reduce
  split
  · next e => exact memInv_setResp (memInv_fst e (pairInv_regAcc hs))
  · next e => exact memInv_fst e (pairInv_regAcc hs)

theorem memInv_wchCount : MemInv (wchCount s die n off) := memInv_rsat hs

theorem optInv_wchPost : OptInv (wchPost s die n v w) := by
  unfold wchPost
  split
  · exact optInv_none
  · exact pred_ite optInv_none (pred_ite optInv_none (optInv_some (memInv_wqPost hs)))

theorem memInv_wchViolation : MemInv (wchViolation s die n w) := by
  unfold wchViolation
  split
  · exact pred_ite (memInv_violation hs) hs
  · exact hs

theorem optInv_wchInterrupt : OptInv (wchInterrupt s die n w) := optInv_setAt hs

theorem optInv_wchAct : OptInv (wchAct s die n v) := by
  unfold wchAct
  dsimp only
  split
  · exact optInv_some hs
  · refine optInv_some ?_
    split
    · exact memInv_wakeWait hs
    · exact hs
  · exact optInv_some (pred_ite (memInv_pkgWake hs) (memInv_privSet hs))
  · exact pred_ite optInv_none (optInv_some (pred_ite (memInv_sectionWake hs) (memInv_deferSection (memInv_pkgWake hs))))
  · exact optInv_map_state (optInv_wchInterrupt hs) fun _ ht => memInv_pkgWake (pred_ite hs ht)
  · exact optInv_wchPost hs
  · exact optInv_some (memInv_reportErr hs)
  · exact optInv_some hs

theorem memInv_wchSample {r : Option Nat} : MemInv (wchSample s die n r) := by
  unfold wchSample
  cases r with
  | none => exact memInv_wchCount hs
  | some v =>
    refine pred_ite (memInv_mk (memInv_rput hs)) ?_
    extract_lets +onlyGivenNames _ s3 s4
    have h3 : MemInv s3 := memInv_rsetB (memInv_wchCount (memInv_mk (memInv_rput hs)))
    have h4 : MemInv s4 := by
      unfold s4
      split
      next e => exact optInv_wchAct h3 _ e
      next => exact memInv_wchCount (pred_ite (memInv_wchViolation h3) h3)
    exact pred_ite (memInv_rsetB h4) h4

theorem memInv_regAnswer {who : Requester} {r : RegResp} {read : Bool} : MemInv (regAnswer s who r read) := by
  unfold regAnswer
  split
  · exact pred_ite (memInv_wchSample hs) hs
  · exact memInv_setResp hs
  · exact memInv_answer hs

theorem memInv_heldRun {a : HeldAcc} : MemInv (heldRun s a) := by
  unfold heldRun
  split
  next e => exact memInv_regAnswer (memInv_fst e (pairInv_regAcc hs))
  next e => exact memInv_fst e (pairInv_regAcc hs)

theorem memInv_heldRelease {p : HeldAcc → Bool} : MemInv (heldRelease s p) := memInv_foldl _ (memInv_mk hs) fun _ _ ht => memInv_heldRun ht

theorem memInv_heldProceed : MemInv (heldProceed s st d) := memInv_heldRelease hs

theorem memInv_blockProceed {cfg : Nat} : MemInv (blockProceed s cfg) := memInv_heldRelease hs

theorem memInv_wchTake {i3c : List (Option (BitVec 32))} {pins : BitVec 8} : MemInv (wchTake s die n i3c pins) := by
  unfold wchTake
  dsimp only
  split
  · split
    next e => exact memInv_wchSample (memInv_fst e (pairInv_regAcc hs))
    next e => exact memInv_fst e (pairInv_regAcc hs)
  · exact memInv_wchSample hs
  · exact memInv_wchSample hs
  · exact memInv_wchSample hs

omit hs in
theorem pairInv_wchTickOne {i3c : List (Option (BitVec 32))} {pins : BitVec 8} {reach : Nat} {a : State × Bool} (ha : PairInv a) :
    PairInv (wchTickOne i3c pins reach die a n) := by
  refine pred_ite (pairInv_mk ha) ?_
  exact pred_ite (pairInv_mk (memInv_mk ha)) (pred_ite (pairInv_mk (memInv_mk ha)) (pairInv_mk (memInv_wchTake (memInv_mk ha))))

theorem outInv_execWatchTick {i3c : List (Option (BitVec 32))} {pins : BitVec 8} {reach : Nat} :
    OutInv (execWatchTick die i3c pins reach s) := by
  refine pred_ite (outInv_next hs) ?_
  exact outInv_next (pred_ite (memInv_reportErr (memInv_rsetB (pairInv_foldl _ (pairInv_mk hs) fun _ _ ht => pairInv_wchTickOne ht)))
    (pairInv_foldl _ (pairInv_mk hs) fun _ _ ht => pairInv_wchTickOne ht))

/-! ### Vector -/

theorem outInv_runV {q : BitVec 4} {word : BitVec 32} {vd vs1 vs2 : Reg} {msk : PReg} {z : Bool} {esz : BitVec 2}
    {f : Nat → Nat → Nat → Nat} :
    OutInv (runV s h q word vd vs1 vs2 msk z esz f) := outInv_runInstr hs (fun _ ht => effInv_fin (memInv_tmod ht))

theorem outInv_runK {q : BitVec 4} {word : BitVec 32} {vd vs1 vs2 : Reg} {msk : PReg} {z : Bool} {esz : BitVec 2}
    {f : Nat → Nat → Nat → Bool} :
    OutInv (runK s h q word vd vs1 vs2 msk z esz f) := outInv_runInstr hs (fun _ ht => effInv_fin (memInv_tmod ht))

theorem outInv_runF {q : BitVec 4} {word : BitVec 32} {vd vs1 vs2 : Reg} {msk : PReg} {z : Bool} {esz : BitVec 2}
    {f : Fmt → Nat → Bool → Nat → Nat → Nat → Nat × Nat} :
    OutInv (runF s h q word vd vs1 vs2 msk z esz f) := outInv_runInstr hs (fun _ ht => effInv_fin (memInv_tmod ht))

/-! ### MemAcc -/

theorem pairInv_accTranslate {r : AccReq} {half : Nat} : PairInv (accTranslate s h r va half) := by
  have ht : PairInv (translate s h r.ak r.needD va) := pairInv_translate hs
  unfold accTranslate
  refine pred_ite ?_ ?_
  · split
    next e => exact memInv_fst e ht
    next e =>
      have h1 := memInv_fst e ht
      split
      next e => exact memInv_fst e (pairInv_tranExc h1)
      next e => exact memInv_fst e (pairInv_tranExc h1)
  · split <;> exact hs

theorem pairInv_accParts {r : AccReq} {l : List (Nat × Nat × Nat)} : PairInv (accParts s h r l) := by
  induction l generalizing s with
  | nil => exact hs
  | cons x l ih =>
    unfold accParts
    dsimp only
    split
    next e => exact memInv_fst e (pairInv_accTranslate hs)
    next e =>
      have h1 := memInv_fst e (pairInv_accTranslate hs)
      split
      · next e => exact memInv_fst e (ih h1)
      · next e => exact memInv_fst e (ih h1)

theorem memInv_accViolation : MemInv (accViolation s h pa) := by
  unfold accViolation
  split
  · exact memInv_violation hs
  · exact hs

theorem pairInv_accCheck {r : AccReq} : PairInv (accCheck s h r va) := by
  unfold accCheck
  split
  next e => exact memInv_fst e (pairInv_accParts hs)
  next e =>
    have h1 := memInv_fst e (pairInv_accParts hs)
    split
    · exact h1
    · split
      · exact pairInv_mk (memInv_accViolation h1)
      · exact h1

theorem pairInv_readLines {write : Bool} {ps : List Piece} : PairInv (readLines s h write ps) := by
  unfold readLines
  split
  · exact pairInv_mk (memInv_cxlDown hs)
  · refine pred_ite (pairInv_mk (pairInv_linesTake hs)) ?_
    split <;> exact pairInv_mk (pairInv_linesTake hs)

theorem effInv_accConsume : EffInv (accConsume s h a) := effInv_exc (pairInv_consume hs)

theorem effInv_loadDone {r : AccReq} {f : MFin} {b : List Byte} {info : RetInfo} : EffInv (loadDone s h r f b info) :=
  effInv_done (memInv_tmod hs)

theorem pairInv_orderFirst {aq rel : Bool} : PairInv (orderFirst s h aq rel) :=
  pred_ite (pairInv_mk (memInv_drainAll hs)) (pred_ite (pairInv_mk (memInv_drainStores hs)) (pairInv_mk hs))

omit hs in
theorem effInv_droverLoad {s0 : State} (hs0 : MemInv s0) {r : AccReq} {f : MFin} {info : RetInfo} {ps : List Piece} :
    EffInv (droverLoad s0 h r f info ps) := by
  unfold droverLoad
  dsimp only
  refine pred_ite (effInv_stay (pairInv_orderFirst hs0)) ?_
  split
  · split
    next e => exact memInv_fst e (pairInv_readLines (pairInv_orderFirst hs0))
    next e => exact effInv_accConsume (memInv_fst e (pairInv_readLines (pairInv_orderFirst hs0)))
    next e => exact effInv_loadDone (memInv_fst e (pairInv_readLines (pairInv_orderFirst hs0)))
  · split
    · exact effInv_loadDone (pairInv_orderFirst hs0)
    · exact effInv_stay (memInv_tmod (pairInv_orderFirst hs0))

theorem memInv_pushStore {vec rel : Bool} {l : List MAcc} : MemInv (pushStore s h vec rel l) := memInv_mk (memInv_tmod hs)

theorem effInv_droverStore {r : AccReq} {d : List Byte} {info : RetInfo} {ps : List Piece} : EffInv (droverStore s h r d info ps) := by
  refine pred_ite (effInv_stay (pred_ite (memInv_drainOne hs) hs)) ?_
  refine pred_ite (effInv_stay (pairInv_commitReady (pred_ite (memInv_drainOne hs) hs))) ?_
  exact effInv_done (memInv_pushStore (memInv_commitPages (pairInv_commitReady (pred_ite (memInv_drainOne hs) hs))))

theorem memInv_orderedWrite {rel : Bool} {a : MAcc} : MemInv (orderedWrite s h rel a) :=
  pred_ite (memInv_mk (memInv_pushStore hs)) (memInv_agentWrite hs)

theorem effInv_stxFail {f : MFin} {info : RetInfo} : EffInv (stxFail s h f info) := effInv_done (memInv_tmod hs)

theorem effInv_stxMem {r : AccReq} {d : List Byte} {f : MFin} {info : RetInfo} {ps : List Piece} : EffInv (stxMem s h r d f info ps) := by
  unfold stxMem
  refine pred_ite (effInv_stxFail hs) ?_
  refine pred_ite (memInv_drainAll hs) ?_
  refine pred_ite (pairInv_linesTake (memInv_drainAll hs)) ?_
  refine pred_ite (sndInv_lockGate (pairInv_linesTake (memInv_drainAll hs))) ?_
  refine pred_ite (pairInv_commitReady (sndInv_lockGate (pairInv_linesTake (memInv_drainAll hs)))) ?_
  exact effInv_done (memInv_tmod (memInv_orderedWrite (memInv_commitPages (pairInv_commitReady
    (sndInv_lockGate (pairInv_linesTake (memInv_drainAll hs)))))))

theorem effInv_amoMem {r : AccReq} {d : List Byte} {f : MFin} {info : RetInfo} {ps : List Piece} : EffInv (amoMem s h r d f info ps) := by
  unfold amoMem
  dsimp only
  refine pred_ite (effInv_stay (memInv_drainAll hs)) ?_
  split
  next e => exact memInv_fst e (pairInv_readLines (memInv_drainAll hs))
  next e => exact effInv_accConsume (memInv_fst e (pairInv_readLines (memInv_drainAll hs)))
  next e =>
    have h1 := memInv_fst e (pairInv_readLines (memInv_drainAll hs))
    refine pred_ite (effInv_stay (sndInv_lockGate h1)) ?_
    split
    · refine pred_ite (effInv_stay (pairInv_commitReady (sndInv_lockGate h1))) ?_
      exact effInv_loadDone (memInv_orderedWrite (memInv_commitPages (pairInv_commitReady (sndInv_lockGate h1))))
    · exact effInv_loadDone (sndInv_lockGate h1)

omit hs in
theorem effInv_physLoad {s0 : State} (hs0 : MemInv s0) {r : AccReq} {f : MFin} {info : RetInfo} {ps : List Piece} :
    EffInv (physLoad s0 h r f info ps) := by
  unfold physLoad
  extract_lets +onlyGivenNames _ c
  have hc : PairInv c := pred_ite (pairInv_courier (pairInv_orderFirst hs0)) (pairInv_mk (pairInv_orderFirst hs0))
  refine pred_ite (effInv_stay (memInv_stall (pairInv_orderFirst hs0))) ?_
  refine pred_ite hc ?_
  split
  next e => exact memInv_fst e (pairInv_readLines hc)
  next e => exact effInv_accConsume (memInv_fst e (pairInv_readLines hc))
  next e => exact effInv_loadDone (memInv_fst e (pairInv_readLines hc))

theorem pairInv_releaseFirst {rel : Bool} : PairInv (releaseFirst s h rel) :=
  pred_ite (pairInv_mk hs) (pairInv_mk (memInv_drainAll (memInv_stall hs)))

theorem effInv_physStore {r : AccReq} {d : List Byte} {info : RetInfo} {ps : List Piece} : EffInv (physStore s h r d info ps) := by
  unfold physStore
  extract_lets +onlyGivenNames _ a
  have ha : PairInv a := pairInv_releaseFirst hs
  refine pred_ite ha ?_
  refine pred_ite (effInv_done (memInv_agentWrite ha)) ?_
  split
  · refine pred_ite (effInv_stay (pairInv_courier ha)) ?_
    extract_lets +onlyGivenNames s1
    have hs1 : MemInv s1 := pred_ite (memInv_drainOne (memInv_stall ha)) ha
    exact pred_ite hs1 (effInv_done (memInv_pushStore hs1))
  · exact pred_ite (effInv_done (memInv_agentWrite (pairInv_linesTake ha))) (pairInv_linesTake ha)

theorem effInv_physOrdered {r : AccReq} {d : List Byte} {f : MFin} {info : RetInfo} {ps : List Piece} :
    EffInv (physOrdered s h r d f info ps) := by
  unfold physOrdered
  refine pred_ite (pred_ite (effInv_stxMem hs) (effInv_amoMem hs)) ?_
  refine pred_ite (effInv_stxFail hs) ?_
  refine pred_ite (pairInv_courier hs) ?_
  exact pred_ite (effInv_stxFail (pairInv_courier hs)) (pred_ite (effInv_stxMem (pairInv_courier hs)) (effInv_amoMem (pairInv_courier hs)))

theorem memInv_latchTake {r : AccReq} {l : Latch} {f : MFin} {info : RetInfo} {ps : Pages} : MemInv (latchTake s h r l f info ps) := by
  unfold latchTake
  split
  · exact memInv_memFault (pairInv_consume hs)
  · exact memInv_memFault hs
  · exact memInv_memDone (memInv_tmod (memInv_commitPages hs))

theorem pairInv_regSend {cfg : Nat} : PairInv (regSend s h cfg) := by
  unfold regSend
  split
  · exact hs
  · exact pairInv_meshSend hs
  · exact hs

theorem memInv_devRegister {cfg : Nat} {a : MAcc} {f : MFin} {info : RetInfo} {ps : Pages} : MemInv (devRegister s h cfg a f info ps) := by
  unfold devRegister
  extract_lets +onlyGivenNames s1
  have hs1 : MemInv s1 := memInv_tmod (memInv_countThread hs)
  refine pred_ite (pairInv_remoteAcc hs1) ?_
  refine pred_ite (memInv_devAnswer (pairInv_regSend hs1)) ?_
  split
  next e => exact memInv_fst e (pairInv_regAcc (pairInv_regSend hs1))
  next e => exact memInv_devAnswer (memInv_fst e (pairInv_regAcc (pairInv_regSend hs1)))

theorem memInv_devStart {r : AccReq} {accs : List MAcc} {f : MFin} {info : RetInfo} {ps : Pages} :
    MemInv (devStart s h r accs f info ps) := by
  unfold devStart
  split
  · exact hs
  · split
    · exact memInv_devRegister hs
    · exact memInv_devRun hs

theorem pairInv_devLines {r : AccReq} {ps : List Piece} : PairInv (devLines s h r ps) :=
  pred_ite (pairInv_mk (pairInv_linesTake hs)) (pairInv_readLines hs)

theorem effInv_devBody {r : AccReq} {d : List Byte} {f : MFin} {info : RetInfo} {ps : List Piece} : EffInv (devBody s h r d f info ps) := by
  unfold devBody
  extract_lets +onlyGivenNames c s1 accs k groups last pages send
  have hc : PairInv c := pairInv_courier hs
  have hs1 : MemInv s1 := memInv_drainAll hc
  have hSend : EffInv (send ()) := by
    refine pred_ite (effInv_stxFail hs1) (pred_ite (effInv_stay hs1) ?_)
    split
    next e => exact effInv_stay (memInv_fst e (pairInv_devLines hs1))
    next e => exact effInv_accConsume (memInv_fst e (pairInv_devLines hs1))
    next e =>
      extract_lets q g p
      have hq : PairInv q := pairInv_portReady (memInv_fst e (pairInv_devLines hs1))
      have hg : SndInv g := sndInv_lockGate hq
      have hp : PairInv p := pairInv_commitReady hg
      exact pred_ite (effInv_stay hq) (pred_ite (effInv_stay hg) (pred_ite (effInv_stay hp) (effInv_stay (memInv_devStart hp))))
  refine pred_ite (effInv_stay hc) (pred_ite (effInv_stay hc) (pred_ite (effInv_stay hs1) ?_))
  split
  · exact hSend
  · refine pred_ite (effInv_stay hs1) (pred_ite (effInv_stay (memInv_latchTake hs1)) ?_)
    split
    · exact pred_ite (effInv_stay (memInv_mismatch hs1)) hSend
    · exact hSend

theorem effInv_accRun {r : AccReq} {d : List Byte} {f : MFin} {info : RetInfo} {ps : List Piece} : EffInv (accRun s h r d f info ps) := by
  refine pred_ite (effInv_devBody hs) ?_
  refine pred_ite ?_ ?_
  · exact pred_ite (effInv_stxMem hs) (pred_ite (effInv_amoMem hs) (pred_ite (effInv_droverStore hs) (effInv_droverLoad hs)))
  · refine pred_ite (pred_ite (effInv_physOrdered (pairInv_releaseFirst hs)) (effInv_stay (pairInv_releaseFirst hs))) ?_
    exact pred_ite (effInv_physStore hs) (effInv_physLoad hs)

theorem effInv_accBody {w : BitVec 32} {r : AccReq} {d : List Byte} {f : MFin} : EffInv (accBody s h w r va d f) := by
  unfold accBody
  refine pred_ite hs ?_
  split
  next e => exact memInv_fst e (pairInv_accCheck hs)
  next e => exact memInv_fst e (pairInv_accCheck hs)
  next e => exact effInv_accRun (memInv_fst e (pairInv_accCheck hs))

/-! ### MemInstr -/

theorem outInv_runLoad {q : BitVec 4} {w : BitVec 32} {rd rs1 : Reg} {off : Word} {sext aq : Bool} :
    OutInv (runLoad s h q w rd rs1 off n sext aq) := outInv_runInstr hs (fun _ ht => effInv_accBody ht)

theorem outInv_runStore {q : BitVec 4} {w : BitVec 32} {rs2 rs1 : Reg} {off : Word} {rel : Bool} :
    OutInv (runStore s h q w rs2 rs1 off n rel) := outInv_runInstr hs (fun _ ht => effInv_accBody ht)

theorem outInv_runAmo {q : BitVec 4} {dword aq rl : Bool} {rd rs1 rs2 : Reg} : OutInv (runAmo s h q op dword aq rl rd rs1 rs2) :=
  outInv_runInstr hs (fun _ ht => effInv_accBody ht)

theorem outInv_runFence {q : BitVec 4} {w : BitVec 32} {drain : Bool} {wait : NbOp → Bool} : OutInv (runFence s h q w drain wait) :=
  outInv_runInstr hs (fun _ ht => pred_ite (effInv_stay (memInv_stall ht)) (pred_ite (effInv_fin ht)
    (pred_ite (effInv_fin (memInv_drainAll (memInv_stall ht))) (effInv_stay (memInv_drainAll (memInv_stall ht))))))

theorem outInv_runPrf {q : BitVec 4} {rd rs1 : Reg} {imm : BitVec 12} {own nt : Bool} {side : Nat} :
    OutInv (runPrf s h q rd rs1 imm own nt side) := outInv_runInstr hs (fun _ ht => effInv_fin (memInv_prefetch ht))

theorem pairInv_vecCheck {r : AccReq} {va : Nat → Nat} {l : List Nat} : PairInv (vecCheck s h r va l) := by
  induction l generalizing s with
  | nil => exact hs
  | cons x l ih =>
    unfold vecCheck
    split
    next e => exact memInv_fst e (pairInv_accCheck hs)
    next e =>
      have h1 := memInv_fst e (pairInv_accCheck hs)
      split
      · next e => exact memInv_fst e (ih h1)
      · next e => exact memInv_fst e (ih h1)

theorem outInv_runVm {q : BitVec 4} {store gather : Bool} {vd rs1 rs2 : Reg} {msk : PReg} {z : Bool} {esz : BitVec 2} :
    OutInv (runVm s h q store gather vd rs1 rs2 msk z esz) := by
  unfold runVm
  dsimp only
  refine outInv_runInstr hs (fun _ ht => ?_)
  split
  · exact ht
  · split
    next e => exact memInv_fst e (pairInv_vecCheck ht)
    next e => exact memInv_fst e (pairInv_vecCheck ht)
    next e =>
      have h2 := memInv_fst e (pairInv_vecCheck ht)
      exact pred_ite (pred_ite (effInv_fin h2) (effInv_fin (memInv_tmod h2))) (effInv_accRun h2)

theorem memInv_wakeReplay : MemInv (wakeReplay s h) := by
  unfold wakeReplay
  split
  · refine pred_ite hs ?_
    refine pred_ite (memInv_tmod (pairInv_linesTake hs)) ?_
    split
    · exact memInv_memFault (pairInv_consume (pairInv_linesTake hs))
    · exact memInv_memDone (memInv_tmod (pairInv_linesTake hs))
  · exact hs

theorem outInv_execCommittedStoreDrain : OutInv (execCommittedStoreDrain h s) :=
  pred_ite (outInv_next (memInv_wakeReplay (memInv_drainOne hs))) (outInv_next hs)

/-! ### WbInstr -/

theorem pairInv_wbQueue : PairInv (wbQueue s h op va) := by
  unfold wbQueue
  split
  next e => exact memInv_fst e (pairInv_accTranslate hs)
  next e =>
    have h1 := memInv_fst e (pairInv_accTranslate hs)
    split
    · exact h1
    · refine pairInv_mk ?_
      refine pred_ite ?_ h1
      split
      · exact memInv_violation h1
      · exact h1

theorem pairInv_wbBuffer : PairInv (wbBuffer s h op n va) := by
  unfold wbBuffer
  dsimp only
  refine pred_ite (pairInv_mk hs) ?_
  split
  next e => exact memInv_fst e (pairInv_accTranslate hs)
  next e =>
    have h1 := memInv_fst e (pairInv_accTranslate hs)
    split
    · exact h1
    · split
      · exact pairInv_mk (memInv_accViolation h1)
      · exact h1

theorem memInv_wbSend {qa : Nat} {msg : List Byte} {bad : Bool} : MemInv (wbSend s h p qa op n msg bad id) := memInv_sendWait hs

theorem memInv_wbTake {rd : Reg} {get : Bool} {buf res : Nat} {msg : List Byte} : MemInv (wbTake s h rd get buf res msg) :=
  memInv_tmod (pred_ite (pred_ite (memInv_pushStore hs) (memInv_agentWrite hs)) hs)

theorem pairInv_wbLine {p : Option Piece} : PairInv (wbLine s h op p) := by
  unfold wbLine
  split
  · exact hs
  · exact pred_ite (pairInv_mk (memInv_poisonLine (memInv_cxlDown hs))) (pairInv_linesTake hs)

theorem effInv_wbDrover {w : BitVec 32} {qa : Nat} {rd : Reg} {p : Option Piece} : EffInv (wbDrover s h w op n qa rd p) := by
  unfold wbDrover
  extract_lets d _ l _ c _ s1
  have hd : MemInv d := memInv_drainAll hs
  have hl : PairInv l := pairInv_wbLine hd
  have hc : PairInv c := pairInv_commitReady hl
  have hs1 : MemInv s1 := sndInv_lockGate hc
  refine pred_ite (effInv_stay hd) (pred_ite (effInv_stay hl) (pred_ite (effInv_stay hc) (pred_ite (effInv_stay hs1) ?_)))
  obtain _ | ⟨st, q⟩ := queueAt (pkgNum s1) qa
  · cases remoteQueue s1 qa with
    | none => exact effInv_stay hs1
    | some _ => exact effInv_stay (memInv_tmod (memInv_wbSend hs1))
  · exact effInv_done (memInv_wbTake (pred_ite (memInv_commitPages (pairInv_wqServe hs1)) (pairInv_wqServe hs1)))

theorem effInv_wbIssue {w : BitVec 32} {qa : Nat} {rd : Reg} {p : Option Piece} : EffInv (wbIssue s h w op n qa rd p) := by
  unfold wbIssue
  refine pred_ite (effInv_stay (memInv_stall hs)) (pred_ite (effInv_stay (memInv_stall hs)) ?_)
  extract_lets +onlyGivenNames c a _ l
  have hc : PairInv c := pairInv_courier hs
  have ha : PairInv a := pairInv_releaseFirst hc
  have hl : PairInv l := pred_ite (pairInv_wbLine ha) (pairInv_mk ha)
  refine pred_ite (effInv_stay hc) (pred_ite (effInv_stay ha) (pred_ite (effInv_stay hl) ?_))
  extract_lets +onlyGivenNames s1
  obtain _ | ⟨st, q⟩ := queueAt (pkgNum s1) qa
  · cases remoteQueue s1 qa with
    | none => exact effInv_stay hl
    | some _ => exact effInv_done (memInv_tmod (memInv_wbSend (memInv_mk hl)))
  · exact effInv_done (memInv_tmod (pairInv_wqServe (memInv_mk hl)))

theorem outInv_runWb {q : BitVec 4} {sz : BitVec 2} {rd rs1 rs2 : Reg} : OutInv (runWb s h q op sz rd rs1 rs2) := by
  refine outInv_runInstr hs (fun t ht => ?_)
  split
  next e => exact effInv_exc (memInv_fst e (pairInv_wbQueue ht))
  next e => exact effInv_stay (memInv_fst e (pairInv_wbQueue ht))
  next e =>
    have h1 := memInv_fst e (pairInv_wbQueue ht)
    refine pred_ite (pred_ite (effInv_wbDrover h1) (effInv_wbIssue h1)) ?_
    split
    next e => exact effInv_exc (memInv_fst e (pairInv_wbBuffer h1))
    next e => exact effInv_stay (memInv_fst e (pairInv_wbBuffer h1))
    next e =>
      have h2 := memInv_fst e (pairInv_wbBuffer h1)
      exact pred_ite (effInv_wbDrover h2) (effInv_wbIssue h2)

theorem outInv_execOutriderWaybillResult : OutInv (execOutriderWaybillResult h tag s) := by
  unfold execOutriderWaybillResult
  split
  · exact outInv_next hs
  · split
    · exact outInv_next hs
    · extract_lets +onlyGivenNames l
      have hl : PairInv l := pred_ite (pairInv_lineTake hs) (pairInv_mk hs)
      exact pred_ite (outInv_next hl) (outInv_next (memInv_wbTake (memInv_tmod hl)))

theorem memInv_wbAnswer {res : Nat} {msg : List Byte} : MemInv (wbAnswer s h id res msg) := by
  unfold wbAnswer
  split
  · exact memInv_retire (memInv_wbTake (pred_ite (memInv_commitPages (memInv_tput hs)) (memInv_tput hs)))
  · exact memInv_tmod hs

/-! ### Messages -/

theorem outInv_execData {p grant : Fin 4} {poison : BitVec 8} : OutInv (execData p tag grant data poison ns s) := by
  unfold execData
  refine pred_ite (outInv_next (pred_dite (fun _ => memInv_courierRead hs) (fun _ => hs))) ?_
  split
  · refine pred_ite ?_ (outInv_next hs)
    refine outInv_next ?_
    refine memInv_hold ?_
    refine memInv_landLine ?_
    refine memInv_unwait ?_
    split
    · exact memInv_courierRead hs
    · exact hs
  · exact outInv_next hs

theorem outInv_execAck {p : Fin 4} : OutInv (execAck p tag s) := by
  unfold execAck
  split
  · exact pred_ite (outInv_next (memInv_ackDone (memInv_unwait hs))) (outInv_next hs)
  · exact outInv_next hs

theorem pairInv_pkgAccess {p : Fin 4} {l : Level} {d : List Byte} {amo : Option Nat} : PairInv (pkgAccess s p tag w l pa n d amo) := by
  unfold pkgAccess
  split
  · refine pred_ite (pairInv_mk hs) ?_
    split
    next e => exact memInv_fst e (pairInv_regAcc hs)
    next e => exact memInv_fst e (pairInv_regAcc hs)
  · split
    · exact pairInv_amoAt hs
    · exact pairInv_directAcc hs
  · exact pred_ite (pairInv_portAcc hs) (pairInv_mk (pairInv_portReady hs))
  · refine pairInv_mk ?_
    split
    · exact memInv_violation hs
    · exact hs

theorem memInv_pkgMessage {p : Fin 4} {l : Level} {d : List Byte} {amo : Option Nat} : MemInv (pkgMessage s p tag w l pa n d amo) := by
  unfold pkgMessage
  refine pred_ite hs ?_
  split
  next e => exact memInv_fst e (pairInv_pkgAccess hs)
  next e => exact memInv_answer (memInv_fst e (pairInv_pkgAccess hs))

theorem outInv_execDevResp {p : Fin 4} {code : Fin 5} {pcie : Fin 4} : OutInv (execDevResp p tag code pcie data s) := by
  unfold execDevResp
  dsimp only
  split
  · refine pred_ite ?_ ?_
    · split
      · exact outInv_next (memInv_devAnswer (memInv_unwait hs))
      · exact pred_dite (fun _ => outInv_next (memInv_inboundCpl (memInv_mk (memInv_unwait hs)))) (fun _ => outInv_next (memInv_unwait hs))
    · refine pred_ite ?_ (outInv_next hs)
      split
      · exact outInv_next (memInv_wbAnswer (memInv_unwait hs))
      · exact outInv_next (memInv_unwait hs)
  · exact outInv_next hs

theorem outInv_execNoRoute : OutInv (execNoRoute h pa s) := by
  unfold execNoRoute
  split
  · split
    · exact pred_ite (outInv_next (memInv_devAnswer (memInv_mk hs))) (outInv_next hs)
    · exact outInv_next hs
  · exact pred_ite (outInv_next hs) (outInv_next (memInv_noRouteCheck (memInv_mk hs)))
  · exact pred_ite (outInv_next hs) (outInv_next (memInv_noRouteCheck (memInv_mk hs)))

theorem memInv_invIotu {n : Fin 12} {m : InvMsg} : MemInv (invIotu s n m) := memInv_ioPut hs

theorem memInv_invAnswer {b : Bcast} : MemInv (invAnswer s b) := by
  unfold invAnswer
  split
  · exact hs
  · exact pred_ite hs (memInv_sendMsg hs)

theorem outInv_execTlbInvBroadcast : OutInv (execTlbInvBroadcast place id s) := by
  unfold execTlbInvBroadcast
  split
  · exact outInv_next hs
  · split
    · exact outInv_next (pred_ite (memInv_invIotu hs) (memInv_invAnswer (memInv_ackInv (memInv_invIotu hs))))
    · refine pred_ite ?_ (outInv_next hs)
      split
      · exact outInv_next hs
      · exact pred_ite (outInv_next (memInv_invAnswer (memInv_ackInv (memInv_invCore hs)))) (outInv_next (memInv_invCore hs))

theorem outInv_execTlbInval {p scope : Fin 4} {regime : Fin 3} {vmid asid : BitVec 16} {addr : Word} {l5 : Bool} :
    OutInv (execTlbInval p tag scope regime vmid asid addr l5 s) := pred_ite (outInv_next hs)
      (outInv_next (pred_ite (memInv_invAnswer (memInv_mk hs)) (memInv_mk hs)))

/-! ### RegRows -/

theorem outInv_execCommitDone {blk : Fin 16} : OutInv (execCommitDone st blk s) :=
  pred_ite (outInv_next (memInv_blockProceed (memInv_commitDone hs))) (outInv_next hs)

theorem outInv_execRegisterWrite {addr v : Reg32} {lost : Bool} : OutInv (execRegisterWrite i addr v lost s) := by
  unfold execRegisterWrite
  refine pred_ite (outInv_next (memInv_setResp (memInv_postError hs))) ?_
  split
  next e => exact outInv_next (memInv_setResp (memInv_fst e (pairInv_regAcc hs)))
  next e => exact outInv_next (memInv_fst e (pairInv_regAcc hs))

theorem outInv_execAccessTimeout {performed : Bool} : OutInv (execAccessTimeout n performed s) := by
  unfold execAccessTimeout
  dsimp only
  split
  · exact outInv_next hs
  · split
    · exact outInv_next (memInv_regAnswer (memInv_mk hs))
    · exact outInv_next (memInv_blockProceed (memInv_regAnswer (memInv_postError (pred_ite (pairInv_regDo (memInv_mk hs)) (memInv_mk hs)))))

theorem outInv_execErrWindowExpire {n : Fin 3} : OutInv (execErrWindowExpire st n s) := by
  unfold execErrWindowExpire
  split
  · exact pred_ite (outInv_next (memInv_winClear hs)) (outInv_next (memInv_winClear (memInv_winClear hs)))
  · exact pred_ite (outInv_next hs) (outInv_next (memInv_laneWindow hs))
  · exact outInv_next hs

theorem memInv_orCtlCmd {n : Fin 16} : MemInv (orCtlCmd s i n v) := memInv_regCmd hs

theorem memInv_lcCmd {n : Fin 16} : MemInv (lcCmd s i n op) := memInv_regCmd hs

theorem memInv_stkCmd {k : Fin 6} {cmd : Nat} : MemInv (stkCmd s i k cmd ch) := memInv_regCmd hs

theorem memInv_pageCmd {v : Reg32} : MemInv (pageCmd s i h off v) := pred_ite hs (memInv_regCmd hs)

theorem outInv_execIntAck : OutInv (execIntAck i h w s) := by
  unfold execIntAck
  dsimp only
  refine pred_ite (outInv_next hs) ?_
  split
  next e => exact outInv_next (memInv_setResp (memInv_fst e (pairInv_regAcc hs)))
  next e => exact outInv_next (memInv_fst e (pairInv_regAcc hs))

theorem outInv_execDseqPowerDown {d : Fin 16} {ap : Fin 7} : OutInv (execDseqPowerDown i st d ap s) :=
  pred_ite (outInv_next (memInv_setResp (memInv_seqDown hs))) (outInv_next (memInv_regCmd hs))

theorem memInv_unitUp : MemInv (unitUp s st d) := pred_ite (memInv_selfRefreshExit hs) hs

theorem outInv_execPowerUpDone {d : Fin 16} : OutInv (execPowerUpDone st d s) :=
  pred_ite (outInv_next hs) (outInv_next (memInv_heldProceed (memInv_unitUp (memInv_domUp hs))))

/-! ### Step -/

theorem memInv_idle : MemInv (idle s) := memInv_tbTick hs

/-! ### Dispatch and Step -/

/-- Every row of the command table: the rows that share a rule stand together. -/
theorem outInv_exec {c : Instr} : OutInv (exec c s) := by
  unfold exec
  cases c with
  | add | sub | and | or | xor | andn | sll | srl | sra | ror | slt | sltu | min | max | minu | maxu | addw | subw | sllw | srlw | sraw
  | clz | ctz | popc | rev8 | addi | andi | ori | xori | slli | srli | srai | rori | slliw | srliw | sraiw | roriw | lui | auipc | mul
  | mulh | mulhu | mulw | div | divu | rem | remu | divw | divuw | prd => exact outInv_runX hs
  | j | brk => exact outInv_runInstr hs (fun _ ht => ht)
  | jl => exact outInv_execJl hs
  | jalr => exact outInv_execJalr hs
  | cmp | cmpi | plog | pwr | vfcmplt | vbcast | vext | kand | kor | kxor | kandn | kmovX | kmovR =>
    exact outInv_runInstr hs (fun _ ht => effInv_fin (memInv_tmod ht))
  | lb | lbu | lh | lhu | lw | lwu | ld | lda => exact outInv_runLoad hs
  | sb | sh | sw | sd | stl => exact outInv_runStore hs
  | ldx | stx => exact outInv_runInstr hs (fun _ ht => effInv_accBody ht)
  | amoSwap | amoAdd | amoAnd | amoOr | amoXor | amoSmin | amoSmax | amoUmin | amoUmax | amoCas => exact outInv_runAmo hs
  | fence | fenceLd | fenceSt | fenceI => exact outInv_runFence hs
  | prfL1 | prfL2 | prfW | prfNt => exact outInv_runPrf hs
  | vadd | vsub | vmul | vmulhu | vand | vor | vxor | vandn | vsll | vsrl | vsra | vmin | vmax | vmovv => exact outInv_runV hs
  | vcmpeq | vcmplt => exact outInv_runK hs
  | vfadd | vfsub | vfmul | vfdiv | vfma | vfnma | vfmin | vfmax | vcvtIf | vcvtFi | vfsqrt => exact outInv_runF hs
  | vldStrided | vldGather | vstStrided | vstScatter => exact outInv_runVm hs
  | wbPut | wbGet | wbPoll => exact outInv_runWb hs
  | mfs => exact outInv_execMfs hs
  | mts => exact outInv_runInstr hs (fun _ ht => effInv_fin (memInv_sysWrite ht))
  | callS | callH | callM => exact outInv_runInstr hs (fun _ ht => effInv_callExc ht)
  | syncSt => exact outInv_execSyncSt hs
  | xret => exact outInv_execXret hs
  | wait => exact outInv_execWait hs
  | bpFlush => exact outInv_execBpFlush hs
  | bpBar => exact outInv_runInstr hs (fun _ ht => effInv_fin ht)
  | sealRot => exact outInv_execSealRot hs
  | tlbInvVa | tlbInvAs | tlbInvVm | tlbInvTbl => exact outInv_runInv hs
  | tlbSync => exact outInv_runInstr hs (fun _ ht => pred_ite (effInv_fin ht) ht)
  | takeInterrupt => exact outInv_execTakeInterrupt hs
  | coreUe => exact outInv_execCoreUe hs
  | waitWake => exact outInv_execWaitWake hs
  | timerSourcePending => exact pred_ite (outInv_next (memInv_threadWake hs)) (outInv_next hs)
  | branchResolve => exact outInv_execBranchResolve hs
  | memoryOrderViolation => exact outInv_execMemoryOrderViolation hs
  | committedStoreDrain => exact outInv_execCommittedStoreDrain hs
  | tstartGo | tstartStop | coreBlockEn | haltT | resumeT | dbgRead | dbgWrite | commit | discard | iotuInv | iotuFltPop
  | l2WayReenable | l1dWayReenable | l3WayReenable | l2En | l3En | l3Depot | revive | fordRevive | cvRetrain | cvRevive | wbqCfg
  | queueEnable | queueDisable | cntClr | wbqArm | orBennak | cpClr | tcmWinWrite | w1500Shift | phyRemap | spareCmd | cxlWindowEn
  | errCapAck | ledgerClr | injArm | lock | unlock | retest | lockClr | shSet | shClr | shCfgWrite | dseqPowerUp | bandGate
  | bandPowerUp | wchCtl | waLock | waAssign | dbgRevoke | pmFreeze | pmSnap => exact outInv_next (memInv_regCmd hs)
  | pendingStartDone => exact outInv_next (memInv_startDone hs)
  | threadStopDone => exact outInv_execThreadStopDone hs
  | haltTakesEffect => exact outInv_next (memInv_haltDone hs)
  | commitDone => exact outInv_execCommitDone hs
  | registerWrite => exact outInv_execRegisterWrite hs
  | accessTimeout => exact outInv_execAccessTimeout hs
  | ppsEdge => exact pred_ite (outInv_next (memInv_ppsEdge hs)) (outInv_next hs)
  | ppsLost | railRetry => exact pred_ite (outInv_next (memInv_rsetB (memInv_mk hs))) (outInv_next hs)
  | tbLoad => exact outInv_execTbLoad hs
  | tbsync => exact outInv_execTbsync hs
  | ident => exact outInv_execIdent hs
  | deadnote => exact outInv_execDeadnote hs
  | tlbInvBroadcast => exact outInv_execTlbInvBroadcast hs
  | iotuInvDone => exact outInv_execIotuInvDone hs
  | readShared | readOwn | readOnce => exact outInv_next (pairInv_request hs)
  | upgrade => exact outInv_next (pred_ite (pairInv_request hs) hs)
  | writeOnce => exact outInv_execWriteOnce hs
  | writeBack => exact outInv_execWriteBack hs
  | notify => exact outInv_execNotify hs
  | snpShared => exact outInv_next (memInv_snoop hs)
  | snpInv => exact outInv_execSnpInv hs
  | evictionWriteIssue => exact outInv_execEvictionWriteIssue hs
  | memoryAck => exact outInv_execMemoryAck hs
  | packFill => exact outInv_execPackFill hs
  | packExpire => exact outInv_execPackExpire hs
  | streamExpire => exact outInv_next (memInv_sliceMod hs)
  | cacheArrayError => exact outInv_execCacheArrayError hs
  | wayDisableDone => exact outInv_execWayDisableDone hs
  | errWindowExpire => exact outInv_execErrWindowExpire hs
  | l2DrainDone => exact outInv_execL2DrainDone hs
  | l3DrainDone => exact outInv_execL3DrainDone hs
  | convertDone => exact outInv_execConvertDone hs
  | retry => exact outInv_execRetry hs
  | retryReissue => exact outInv_execRetryReissue hs
  | flitCrcFail => exact outInv_execFlitCrcFail hs
  | routeDrop => exact pred_ite (outInv_next (memInv_routeDrop hs)) (outInv_next hs)
  | noRoute => exact outInv_execNoRoute hs
  | caravanTrainingTimeout => exact pred_ite (outInv_next (memInv_cvDead hs)) (outInv_next hs)
  | caravanFlit => exact outInv_execCaravanFlit hs
  | nak => exact outInv_execNak hs
  | ackTimer => exact pred_ite (outInv_next (memInv_cvAck hs)) (outInv_next hs)
  | nodeFormationTimeout => exact outInv_execNodeFormationTimeout hs
  | devRead | atomic => exact outInv_next (memInv_pkgMessage hs)
  | devWrite => exact pred_ite (outInv_next hs) (outInv_next (memInv_pkgMessage hs))
  | waybill => exact outInv_execWaybill hs
  | tlbInval => exact outInv_execTlbInval hs
  | interrupt => exact outInv_execInterrupt hs
  | data => exact outInv_execData hs
  | ack => exact outInv_execAck hs
  | snpData => exact pred_ite (outInv_next (memInv_snoopDone hs)) (outInv_next hs)
  | snpAck => exact outInv_next (memInv_snoopDone hs)
  | devResp => exact outInv_execDevResp hs
  | invAck => exact outInv_execInvAck hs
  | queueBusyClear => exact pred_ite (outInv_next (memInv_wqIdle hs)) (outInv_next hs)
  | doorbellPost => exact outInv_execDoorbellPost hs
  | wbqStateParityError => exact outInv_execWbqStateParityError hs
  | waybillConfirm => exact outInv_execWaybillConfirm hs
  | waybillCancel => exact pred_ite (outInv_next (memInv_wqCancel hs)) (outInv_next hs)
  | orCtlGo | orCtlStop => exact outInv_next (memInv_orCtlCmd hs)
  | preload | preloadLock | unlockLine | unlockAll | flush => exact outInv_next (memInv_lcCmd hs)
  | lcCmdDone => exact outInv_execLcCmdDone hs
  | outriderWaybillResult => exact outInv_execOutriderWaybillResult hs
  | outriderFault => exact outInv_execOutriderFault hs
  | panicAge => exact outInv_next (memInv_cpRaise (pred_ite hs (memInv_orPut hs)))
  | panicRaise => exact outInv_execPanicRaise hs
  | panicWithdraw => exact outInv_execPanicWithdraw hs
  | refreshDue => exact outInv_execRefreshDue hs
  | idleTimerExpire => exact outInv_execIdleTimerExpire hs
  | hbmReadReturn => exact outInv_execHbmReadReturn hs
  | commandParityFailure => exact outInv_execCommandParityFailure hs
  | stackTempRead => exact outInv_execStackTempRead hs
  | stkTrain | stkRestore | stkRetrainStack | stkRetrainChannel | stkSave => exact outInv_next (memInv_stkCmd hs)
  | remapDone => exact outInv_execRemapDone hs
  | sparingDone => exact outInv_execSparingDone hs
  | scrubRead => exact outInv_execScrubRead hs
  | cxlTimeout => exact outInv_execCxlTimeout hs
  | cxlLinkDown => exact outInv_execCxlLinkDown hs
  | ledgerRecord => exact outInv_execLedgerRecord hs
  | reportLost => exact outInv_execReportLost hs
  | injTrigger | injTime => exact pred_ite (outInv_next (memInv_injFire hs)) (outInv_next hs)
  | txnTimeout => exact outInv_execTxnTimeout hs
  | lockCmdDone => exact outInv_execLockCmdDone hs
  | groupCompare => exact outInv_execGroupCompare hs
  | requestCompare => exact outInv_execRequestCompare hs
  | recoveryResume => exact pred_ite (outInv_next (memInv_recoverStep hs)) (outInv_next hs)
  | selftestDone => exact outInv_execSelftestDone hs
  | cairnScrub => exact outInv_execCairnScrub hs
  | intSet | intClr | intEoi => exact outInv_next (memInv_pageCmd hs)
  | intAck => exact outInv_execIntAck hs
  | sharedOffer => exact outInv_next (memInv_shOfferOne hs)
  | intStateUe => exact outInv_execIntStateUe hs
  | bandFrequencyChange => exact outInv_execBandFrequencyChange hs
  | powerEstimate => exact outInv_next (memInv_adjustGrants (memInv_rput (memInv_rput hs)))
  | dseqPowerDown => exact outInv_execDseqPowerDown hs
  | domainAutoEntry => exact pred_ite (outInv_next (memInv_domEnter hs)) (outInv_next hs)
  | wakeEvent => exact outInv_execWakeEvent hs
  | powerUpDone => exact outInv_execPowerUpDone hs
  | seqTimeout => exact pred_ite (outInv_next (memInv_reportErr hs)) (outInv_next hs)
  | campEntryDone => exact outInv_execCampEntryDone hs
  | campExit => exact outInv_execCampExit hs
  | dormantExit => exact outInv_execDormantExit hs
  | watchTick => exact outInv_execWatchTick hs
  | thermalSample => exact outInv_execThermalSample hs
  | railDroop => exact outInv_execRailDroop hs
  | railUv => exact outInv_execRailUv hs
  | pmAction => exact outInv_execPmAction hs
  | outboundCompletion => exact outInv_execOutboundCompletion hs
  | completionTimeout => exact outInv_next (memInv_outDone hs)
  | pcieLinkDown => exact outInv_execPcieLinkDown hs
  | inboundMemoryRead => exact outInv_execInboundMemoryRead hs
  | inboundMemoryWrite => exact outInv_execInboundMemoryWrite hs
  | inboundAtomicop => exact outInv_execInboundAtomicop hs
  | translationRequest => exact outInv_execTranslationRequest hs
  | errCor | errNonfatal | errFatal => exact outInv_next (memInv_portError hs)
  | pme => exact pred_ite (outInv_next hs) (outInv_next (memInv_portEvent hs))
  | secondaryBusReset => exact pred_ite (outInv_next hs) (outInv_next (memInv_portLinkDown hs))
  | epDoorbell => exact outInv_execEpDoorbell hs
  | perstN => exact outInv_execPerstN hs
  | hotReset => exact outInv_execHotReset hs
  | flr => exact outInv_execFlr hs
  | flrDone => exact pred_ite (outInv_next (memInv_epIntx (memInv_mk hs))) (outInv_next hs)
  | mbSubmit | mbAck => exact outInv_next (memInv_mbDoorbell hs)
  | commandComplete => exact outInv_execCommandComplete hs
  | getInfo | getTopology | getNuma | getStatus | getCxlWindows | getHealth | getEvents =>
    exact outInv_serve hs (fun _ _ _ ht => servedInv_done ht)
  | setPowerLimit => exact outInv_execSetPowerLimit hs
  | enterCamp | enterDormant => exact outInv_entryCommand hs
  | setWatch => exact outInv_execSetWatch hs
  | reset => exact outInv_execReset hs
  | retireSlice => exact outInv_execRetireSlice hs
  | reenableWays => exact outInv_execReenableWays hs
  | reviveLink => exact outInv_execReviveLink hs
  | laneRemap => exact outInv_execLaneRemap hs
  | spareRow => exact outInv_execSpareRow hs
  | retrain => exact outInv_execRetrain hs
  | ledgerRead => exact outInv_execLedgerRead hs
  | ledgerClear => exact outInv_execLedgerClear hs
  | setTileMode => exact outInv_execSetTileMode hs
  | getTileLock => exact outInv_execGetTileLock hs
  | setHbmMode => exact outInv_execSetHbmMode hs
  | setCxlWindow => exact outInv_execSetCxlWindow hs
  | orLoad => exact outInv_execOrLoad hs
  | orStop => exact outInv_execOrStop hs
  | orStatus => exact outInv_execOrStatus hs
  | fwuBegin => exact outInv_execFwuBegin hs
  | fwuData => exact outInv_execFwuData hs
  | fwuVerify => exact outInv_serve hs (fun _ _ _ ht => servedInv_fwuVerify ht)
  | fwuActivate => exact outInv_serve hs (fun _ _ _ ht => servedInv_fwuActivate ht)
  | fwuAbort => exact outInv_serve hs (fun _ _ _ ht => servedInv_fwuAbort ht)
  | fwuCommitSvn => exact outInv_execFwuCommitSvn hs
  | spdm | getVersion | getCapabilities | negotiateAlgorithms | getDigests | getCertificate | challenge | getMeasurements =>
    exact outInv_spdmServe hs
  | debugToken => exact outInv_execDebugToken hs
  | debugRevoke => exact outInv_serve hs (fun _ _ _ ht => servedInv_done (memInv_dbgRevoke ht))
  | getSensors => exact outInv_execGetSensors hs
  | setEndpointId => exact outInv_execSetEndpointId hs
  | getEndpointId | getMessageTypeSupport | pldmBase => exact outInv_next (memInv_mctpSend hs)
  | getMctpVersionSupport => exact outInv_next (memInv_mctpSend (pairInv_freeBytes hs))
  | pldmMonitoring => exact outInv_execPldmMonitoring hs
  | pldmFirmwareUpdate => exact outInv_execPldmFirmwareUpdate hs
  | vendorDefined => exact outInv_execVendorDefined hs
  | entdaa | perstNDeassert | railRecovers => exact outInv_next (memInv_mk hs)
  | setdasa => exact pred_ite (outInv_next (memInv_mk hs)) (outInv_next hs)
  | lockstepHalt => exact pred_ite (outInv_next hs) (outInv_next (memInv_pairHalt hs))
  | watchdogExpire => exact outInv_execWatchdogExpire hs
  | wsWdogKick => exact outInv_next (memInv_rputF hs)
  | standbySelftestDone => exact outInv_execStandbySelftestDone hs
  | pwrgoodRise => exact pred_ite (outInv_next hs) (outInv_next (memInv_powerGood hs))
  | railInRegulation => exact outInv_execRailInRegulation hs
  | railAllowanceExpire => exact outInv_execRailAllowanceExpire hs
  | pwrgoodFall => exact pred_ite (outInv_next hs) (outInv_next memInv_coldClear)
  | resetN => exact outInv_next (memInv_warmTrigger hs)
  | caravanWarmReset => exact pred_ite (outInv_next (memInv_warmTrigger hs)) (outInv_next hs)
  | vddStbyLoss => exact outInv_next memInv_coldClear
  | portLinkUp => exact outInv_execPortLinkUp hs
  | caravanLinkActive => exact outInv_execCaravanLinkActive hs
  | linkRetrained => exact outInv_execLinkRetrained hs
  | stackTrainingDone => exact outInv_execStackTrainingDone hs
  | w1500ShiftDone => exact outInv_execW1500ShiftDone hs
  | cxlMemCompletion => exact outInv_execCxlMemCompletion hs
  | configurationWrite => exact outInv_execConfigurationWrite hs
  | crystalConfirmed => exact outInv_execCrystalConfirmed hs
  | refclk25Stable => exact outInv_execRefclk25Stable hs
  | regulatorReport => exact outInv_execRegulatorReport hs

/-- The next state of a step is what the row in front, or the tick of the timebase, answers. -/
theorem outInv_step : OutInv (step s) := by
  unfold step
  split
  · exact outInv_next (memInv_idle hs)
  · exact outInv_exec (memInv_mk hs)

end Rules

/-- Settles O60, from the rules of all rows and of the tick. -/
theorem stepKeepsMemoryCanonical : Obligations.StepKeepsMemoryCanonical := by
  unfold Obligations.StepKeepsMemoryCanonical
  intro s s' hs hStep
  exact outInv_step hs s' hStep

end Sys2Proof.Machine
end

section
/-!
O58 and O59: the tick of the timebase, and what reset leaves.
-/

namespace Sys2Proof.Machine

variable {s : State}

theorem tbTick_noLoad (hl : s.tbase.load = none) : tbTick s = { s with tbase := { s.tbase with tb := s.tbase.tb + 1 } } := by
  unfold tbTick
  rw [hl]

theorem tbTick_notDue {l v : Nat} (hl : s.tbase.load = some (l, v)) (hd : ¬ l ≤ (s.tbase.tb + 1).toNat) :
    tbTick s = { s with tbase := { s.tbase with tb := s.tbase.tb + 1 } } := by
  unfold tbTick
  rw [hl]
  exact if_neg hd

/-- A load that is due takes the timebase forward only. -/
theorem tbTick_due {l v : Nat} (hl : s.tbase.load = some (l, v)) (hd : l ≤ (s.tbase.tb + 1).toNat) :
    tbTick s = { s with tbase := { s.tbase with tb := BitVec.ofNat 64 (max v (s.tbase.tb + 1).toNat), load := none } } := by
  unfold tbTick
  rw [hl]
  exact if_pos hd

/-- Settles O58, along the branches of the tick: no load, one that is due, and one that is not. -/
theorem idleStepTicks : Obligations.IdleStepTicks := by
  unfold Obligations.IdleStepTicks
  intro s hp
  have hstep : step s = .next (tbTick s) := by unfold step; rw [hp]; rfl
  cases hl : s.tbase.load with
  | none => exact ⟨_, hstep.trans (congrArg _ (tbTick_noLoad hl)), rfl⟩
  | some e =>
    obtain ⟨l, v⟩ := e
    by_cases hd : l ≤ (s.tbase.tb + 1).toNat
    · exact ⟨_, hstep.trans (congrArg _ (tbTick_due hl hd)), (if_pos hd).mpr rfl⟩
    · exact ⟨_, hstep.trans (congrArg _ (tbTick_notDue hl hd)), (if_neg hd).mpr rfl⟩

/-- At reset every hart is a thread that nothing has been written to. -/
theorem tget_reset (h : Hart) : tget State.reset h = Thread.initial := rfl

/-- Settles O59: no map of the reset state holds an entry, so each read finds the default of its map. -/
theorem resetLeaves : Obligations.ResetLeaves := by
  unfold Obligations.ResetLeaves
  refine ⟨reset_memory_wf, rfl, rfl, fun _ => rfl, fun a => ⟨rfl, List.any_eq_false.mpr fun _ _ => Bool.false_ne_true⟩, fun h => ?_, by decide +kernel⟩
  rw [tget_reset]
  refine ⟨rfl, rfl, rfl, rfl, rfl, rfl, rfl, ?_⟩
  decide +kernel

end Sys2Proof.Machine
end

section
/-!
O5 and O6: what comes before an instruction (R113, R114), and the reserved predicate field (R85).

Every instruction command is run by `runInstr` (`exec_instr`); the lemmas here say, branch by branch, what `runInstr` answers before it comes
to the instruction's own checks.
-/

namespace Sys2Proof.Machine

variable {s s1 : State} {h : Hart} {q : BitVec 4} {i : Ins} {body : State → Eff}

theorem runInstr_notRunning (hr : canRun s h = false) : runInstr s h q i body = .next s := if_pos (by rw [hr]; rfl)

/-- The test that opens `runInstr`, for a hart that runs. -/
theorem runs_ne (hr : canRun s h = true) : ¬ (!canRun s h) = true := by rw [hr]; exact Bool.false_ne_true

theorem runInstr_atBoundary (hr : canRun s h = true) (hb : boundary s h i.word = some s1) : runInstr s h q i body = .next s1 :=
  (if_neg (runs_ne hr)).trans (by rw [hb])

theorem runInstr_fetchFault {e : Exc} {w : Bool} (hr : canRun s h = true) (hb : boundary s h i.word = none)
    (hf : fetchOf s h = (s1, some e, w)) : runInstr s h q i body = .next (raise s1 h e 0) := by
  unfold fetchOf at hf
  exact (if_neg (runs_ne hr)).trans (by rw [hb, hf])

theorem runInstr_fetchWaits (hr : canRun s h = true) (hb : boundary s h i.word = none) (hf : fetchOf s h = (s1, none, true)) :
    runInstr s h q i body = .next s1 := by
  unfold fetchOf at hf
  exact (if_neg (runs_ne hr)).trans (by rw [hb, hf]; rfl)

/-- With the predicate field 0b1000 the word is reserved, whatever else it holds. -/
theorem runInstr_reservedPredicate (hf : Fetches s h s1) :
    runInstr s h 8#4 i body = .next (raise s1 h (wordExc cUNDEF i.word) i.word) := by
  have hf' : (if isDrover h then fetchCheck s h else physFetch s h) = (s1, none, false) := hf.fetched
  exact (if_neg (runs_ne hf.runs)).trans (by rw [boundary_none hf.boundary, hf']; rfl)

/-- An instruction that no earlier one has left a place in its group begins a group, so its boundary is looked at. -/
theorem boundary_of_groupStart (hs : (tget s h).slotA = none) (word : BitVec 32) : boundary s h word = atBoundary s h :=
  if_neg (by unfold inSlotB; rw [hs]; exact Bool.false_ne_true)

/-- Settles O5, by the branches of `runInstr` before the instruction. -/
theorem boundaryAndFetchComeFirst : Obligations.BoundaryAndFetchComeFirst := by
  unfold Obligations.BoundaryAndFetchComeFirst
  intro c h q s hc
  obtain ⟨i, body, he⟩ := exec_instr hc
  rw [he]
  refine ⟨runInstr_notRunning, fun hr hs s1 hb => ?_, fun hr hb s1 e w hf => ?_, fun hr hb s1 hf => ?_⟩
  · exact runInstr_atBoundary hr ((boundary_of_groupStart hs i.word).trans hb)
  · exact runInstr_fetchFault hr (boundary_none hb i.word) hf
  · exact runInstr_fetchWaits hr (boundary_none hb i.word) hf

/-- Settles O6. -/
theorem reservedPredicateRaisesUndef : Obligations.ReservedPredicateRaisesUndef := by
  unfold Obligations.ReservedPredicateRaisesUndef
  intro c h s s1 hc hf
  obtain ⟨i, body, he⟩ := exec_instr hc
  exact ⟨i.word, (he s).trans (runInstr_reservedPredicate hf)⟩

end Sys2Proof.Machine
end

section
/-!
O1: the operations of two x registers.  Each is a `runX` of a word and a function of the two values; for most the function is the one that the
statement writes, and for the others a lemma says that the two agree.
-/

namespace Sys2Proof.Machine

variable {op : Hart → BitVec 4 → Reg → Reg → Reg → Instr} {f g : Word → Word → Word} {w : BitVec 4 → Reg → Reg → Reg → BitVec 32}

theorem writes2_of_exec (hc : ∀ h q rd a b s, exec (op h q rd a b) s =
    runX s h q { word := w q rd a b, xs := [rd, a, b] } rd fun t => f (xget t a) (xget t b)) : Writes2 op f := by
  intro h q rd a b s s1 hi _
  rw [hc]
  exact runX_does hi rfl rfl rfl

/-- A row that writes `g` of two registers writes `f` of them where the two functions agree. -/
theorem writes2_congr (hg : ∀ x y, g x y = f x y) (hw : Writes2 op g) : Writes2 op f := by
  obtain rfl : g = f := funext fun x => funext (hg x)
  exact hw

section Results
variable (x y : Word)

theorem ror64_eq_rotateRight : ror64 x (y.toNat % 64) = x.rotateRight (y.toNat % 64) := by
  rw [BitVec.rotateRight_def, Nat.mod_mod]; rfl

theorem ite_slt_eq_ite_toInt {α : Type} (a b : α) : (if x.slt y then a else b) = if x.toInt < y.toInt then a else b :=
  if_congr BitVec.slt_iff_toInt_lt rfl rfl

theorem ite_ult_eq_ite_toNat {α : Type} (a b : α) : (if x.ult y then a else b) = if x.toNat < y.toNat then a else b :=
  if_congr BitVec.ult_iff_lt rfl rfl

/-- A minimum or maximum chooses alike by `<` and by `≤`: the two differ only where the values are equal, and then so are the choices. -/
theorem ite_lt_eq_ite_le {β : Type} [LinearOrder β] {m : Word → β} (hm : ∀ {u v}, m u = m v → u = v) (a b : Word)
    (hab : x = y → a = b) : (if m x < m y then a else b) = if m x ≤ m y then a else b := by
  rcases lt_trichotomy (m x) (m y) with h | h | h
  · rw [if_pos h, if_pos h.le]
  · rw [hab (hm h), ite_self, ite_self]
  · rw [if_neg h.le.not_gt, if_neg h.not_ge]

theorem smin_eq : (if x.slt y then x else y) = if x.toInt ≤ y.toInt then x else y :=
  (ite_slt_eq_ite_toInt x y x y).trans (ite_lt_eq_ite_le x y BitVec.eq_of_toInt_eq x y id)

theorem smax_eq : (if x.slt y then y else x) = if x.toInt ≤ y.toInt then y else x :=
  (ite_slt_eq_ite_toInt x y y x).trans (ite_lt_eq_ite_le x y BitVec.eq_of_toInt_eq y x Eq.symm)

theorem umin_eq : (if x.ult y then x else y) = if x.toNat ≤ y.toNat then x else y :=
  (ite_ult_eq_ite_toNat x y x y).trans (ite_lt_eq_ite_le x y BitVec.eq_of_toNat_eq x y id)

theorem umax_eq : (if x.ult y then y else x) = if x.toNat ≤ y.toNat then y else x :=
  (ite_ult_eq_ite_toNat x y y x).trans (ite_lt_eq_ite_le x y BitVec.eq_of_toNat_eq y x Eq.symm)

theorem low32_add : low32 (x + y) = low32 x + low32 y := BitVec.setWidth_add _ _ (by decide)

theorem low32_sub : low32 (x - y) = low32 x - low32 y := by
  rw [← BitVec.add_sub_cancel (low32 (x - y)) (low32 y), ← low32_add, BitVec.sub_add_cancel]

theorem sext32_add : sext32 (x + y) = (low32 x + low32 y).signExtend 64 := congrArg (BitVec.signExtend 64) (low32_add x y)

theorem sext32_sub : sext32 (x - y) = (low32 x - low32 y).signExtend 64 := congrArg (BitVec.signExtend 64) (low32_sub x y)

end Results

/-- Settles O1, operation by operation. -/
theorem registerOperations : Obligations.RegisterOperations := by
  unfold Obligations.RegisterOperations
  refine ⟨?add, ?sub, ?and, ?or, ?xor, ?andn, ?sll, ?srl, ?sra, ?ror, ?slt, ?sltu, ?min, ?max, ?minu, ?maxu, ?addw, ?subw, ?sllw, ?srlw,
    ?sraw⟩
  case ror => exact writes2_congr ror64_eq_rotateRight (writes2_of_exec fun _ _ _ _ _ _ => rfl)
  case slt => exact writes2_congr (fun x y => ite_slt_eq_ite_toInt x y 1 0) (writes2_of_exec fun _ _ _ _ _ _ => rfl)
  case sltu => exact writes2_congr (fun x y => ite_ult_eq_ite_toNat x y 1 0) (writes2_of_exec fun _ _ _ _ _ _ => rfl)
  case min => exact writes2_congr smin_eq (writes2_of_exec fun _ _ _ _ _ _ => rfl)
  case max => exact writes2_congr smax_eq (writes2_of_exec fun _ _ _ _ _ _ => rfl)
  case minu => exact writes2_congr umin_eq (writes2_of_exec fun _ _ _ _ _ _ => rfl)
  case maxu => exact writes2_congr umax_eq (writes2_of_exec fun _ _ _ _ _ _ => rfl)
  case addw => exact writes2_congr sext32_add (writes2_of_exec fun _ _ _ _ _ _ => rfl)
  case subw => exact writes2_congr sext32_sub (writes2_of_exec fun _ _ _ _ _ _ => rfl)
  all_goals exact writes2_of_exec fun _ _ _ _ _ _ => rfl

end Sys2Proof.Machine
end

section
/-!
O28 and O29: MFS and MTS (R97 to R103, R121, R563, R564, R572).

First what the checks of order 4 find, then what a read answers and what a write leaves, each said once; the two obligations put them together.
-/

namespace Sys2Proof.Machine

variable {s : State} {h : Hart} {i : Ins} {n : Nat} {w : BitVec 32}

/-! ## The checks of order 4 (Table 3-11) -/

theorem orderFour_of_pre {e : Exc} (hp : i.pre s = some e) : orderFour s h i = some e := by
  unfold orderFour
  rw [hp]

/-- An instruction that may use the vector state it uses is left to its own check. -/
theorem orderFour_of_post (hp : i.pre s = none) (hv : i.vec = .none ∨ vecOn h s) : orderFour s h i = i.post s := by
  have hd : ¬ (decide (i.vec ≠ .none) && !sbit (tget s h) snTHR_CTL 3) = true := by
    rcases hv with hv | hv
    · rw [hv]; exact Bool.false_ne_true
    · rw [show sbit (tget s h) snTHR_CTL 3 = true from hv, Bool.not_true, Bool.and_false]; exact Bool.false_ne_true
  unfold orderFour
  rw [hp]
  exact if_neg hd

/-- The timebase and, on a Drover thread, the counters: what MFS may find withheld (R121, R564). -/
def View (h : Hart) (n : Nat) : Prop := n = snTB ∨ (isDrover h = true ∧ 0x100 ≤ n ∧ n ≤ 0x18F)

/-- Whether MFS raises PRIV for the level: below the class, or a view that U has not been given. -/
def mfsBad (h : Hart) (t : Thread) (n : Nat) : Bool :=
  sysPriv t.level n || (decide (n = snTB) && decide (t.level = .u) && !sbit t snTHR_CTL 2) ||
    ((isDrover h && decide (0x100 ≤ n ∧ n ≤ 0x18F)) && decide (t.level = .u) && !sbit t snPMU_CTL 0)

theorem mfsBad_belowClass (hp : sysPriv (tget s h).level n = true) : mfsBad h (tget s h) n = true := by
  unfold mfsBad
  rw [hp]
  rfl

theorem view_of_counter (hd : (isDrover h && decide (0x100 ≤ n ∧ n ≤ 0x18F)) = true) : View h n :=
  .inr ((Bool.and_eq_true_iff.mp hd).imp_right of_decide_eq_true)

theorem mfsBad_atClass (hp : sysPriv (tget s h).level n = false) (hview : View h n → (tget s h).level ≠ .u) : mfsBad h (tget s h) n = false := by
  unfold mfsBad
  rw [hp]
  by_cases hl : (tget s h).level = .u
  · rw [decide_eq_false fun htb => hview (.inl htb) hl, Bool.eq_false_iff.mpr fun hd => hview (view_of_counter hd) hl]
    rfl
  · rw [decide_eq_false hl, Bool.and_false, Bool.and_false]
    rfl

/-- Below the class of a state number MFS raises PRIV, whether or not the number is assigned (R98). -/
theorem mfsPre_belowClass (hs : sysGuestHidden (tget s h) n = false) (hp : sysPriv (tget s h).level n = true) :
    mfsPre h n w s = some (wordExc cPRIV w) :=
  (if_neg (Bool.eq_false_iff.mp hs)).trans
    (pred_ite (P := (· = some (wordExc cPRIV w))) (if_pos (mfsBad_belowClass hp)) (if_pos (mfsBad_belowClass hp)))

/-- At the class of a state number MFS is not refused, but for the timebase and the counters where a level or a hypervisor withholds them. -/
theorem mfsPre_atClass (hp : sysPriv (tget s h).level n = false)
    (hview : View h n → (tget s h).level ≠ .u ∧ sbit (tget s h) snH_CTL 1 = false) : mfsPre h n w s = none := by
  have hbad : ¬ mfsBad h (tget s h) n = true := Bool.eq_false_iff.mp (mfsBad_atClass hp fun hv => (hview hv).1)
  refine pred_ite (P := (· = none)) rfl (iteInduction (motive := (· = none)) (fun hc => ?_) fun _ => if_neg hbad)
  have hv : View h n := (Bool.or_eq_true_iff.mp hc).elim (fun htb => .inl (of_decide_eq_true htb)) view_of_counter
  exact (if_neg hbad).trans (if_neg (by rw [(hview hv).2, Bool.and_false]; exact Bool.false_ne_true))

/-- The timebase and the counters are assigned, so an unassigned number is none of them. -/
theorem sysAssigned_of_view (hv : View h n) : sysAssigned h n = true := by
  rcases hv with rfl | ⟨hd, hr⟩
  · cases h <;> rfl
  · cases h with
    | drover st c t =>
      show (_ || decide (0x100 ≤ n ∧ n ≤ 0x18F) || _ || _ || _ || _ || _ || _ || _ || _ || _ || _ || _ || _) = true
      rw [decide_eq_true hr, Bool.or_true]
      rfl
    | outrider k => cases hd
    | waystation d => cases hd

theorem sysAssigned_vcsr (hd : isDrover h = true) : sysAssigned h snVCSR = true := by
  cases h with
  | drover st c t => rfl
  | outrider k => cases hd
  | waystation d => cases hd

/-- Bits [11:10] of a state number are the lowest level that may access it (R97). -/
theorem sysPriv_iff_belowClass (l : Level) (hn : n < 0x1000) : sysPriv l n = true ↔ levelCode l < n / 0x400 := by
  have hlt : n / 0x400 < 4 := (Nat.div_lt_iff_lt_mul (by decide)).mpr hn
  have hc : sysClass n = n / 0x400 := Nat.mod_eq_of_lt hlt
  cases l with
  | u | s | h => exact decide_eq_true_iff.trans (by rw [hc]; rfl)
  | m => exact ⟨fun hm => absurd hm Bool.false_ne_true, fun hm => absurd (Nat.lt_succ_iff.mp hlt) (Nat.not_le_of_lt hm)⟩

/-! ## What a read answers -/

theorem tget_pmcRead (e : Nat) (h' : Hart) : tget (pmcRead s h e).1 h' = tget s h' := by
  unfold pmcRead
  extract_lets t d
  split
  · rfl
  · split
    · rfl
    · split <;> rfl

/-- A read of a state register leaves the PC alone, whatever it marks. -/
theorem sysRead_pc : (tget (sysRead s h n).1 h).pc = (tget s h).pc := by
  let P := fun p : State × Word => (tget p.1 h).pc = (tget s h).pc
  have hcount : P (pmcRead s h (n - 0x100)) := congrArg Thread.pc (tget_pmcRead (n - 0x100) h)
  have hmarked : P (tmod (pmcRead s h (n - 0x100)).1 h fun t => sput t snPMV_CTL (sget t snPMV_CTL ||| 2), (pmcRead s h (n - 0x100)).2) :=
    (congrArg Thread.pc (tget_tmod_same _ h _)).trans hcount
  have hsame (v : Word) : P (s, v) := rfl
  exact pred_ite (P := P) (hsame _) <| pred_ite (hsame _) <| pred_ite (hsame _) <| pred_ite (hsame _) <|
    pred_ite (pred_ite hmarked hcount) <| pred_ite (hsame _) <| pred_ite (hsame _) (hsame _)

/-- A register that is no view reads as its last pending write, or the value in effect (R102). -/
theorem sysRead_plain (hh : sysGuestHidden (tget s h) n = false) (hpl : ¬ (n = snTB ∨ (0x100 ≤ n ∧ n ≤ 0x18F)) ∧ n ≠ snCORE_ID ∧
    n ≠ snCURSTATE ∧ n ≠ snSEAL_GEN ∧ ¬ (0x471 ≤ n ∧ n ≤ 0x473)) : sysRead s h n = (s, sgetPend (tget s h) n) := by
  obtain ⟨hv, hid, hcs, hsg, hov⟩ := hpl
  obtain ⟨htb, hpm⟩ := not_or.mp hv
  exact (if_neg (Bool.eq_false_iff.mp hh)).trans <| (if_neg htb).trans <| (if_neg hid).trans <| (if_neg hcs).trans <| (if_neg hpm).trans <|
    (if_neg hsg).trans (if_neg hov)

theorem sysRead_tb (hh : sysGuestHidden (tget s h) n = false) (hn : n = snTB) : sysRead s h n = (s, s.tbase.tb) :=
  (if_neg (Bool.eq_false_iff.mp hh)).trans (if_pos hn)

theorem sysRead_curstate (hh : sysGuestHidden (tget s h) n = false) (hn : n = snCURSTATE) : sysRead s h n =
    (s, BitVec.ofNat 64 (levelCode (tget s h).level + 4 * worldCode (tget s h).world + 8 * b2n (bennak s h))) := by
  subst hn
  exact (if_neg (Bool.eq_false_iff.mp hh)).trans <| (if_neg (by decide)).trans <| (if_neg (by decide)).trans (if_pos rfl)

theorem sgetPend_notPending {t : Thread} (hp : ∀ w ∈ t.pend, w.1 ≠ n) : sgetPend t n = sgetNow t n := by
  have hf : t.pend.filter (fun w => w.1 = n) = [] := List.filter_eq_nil_iff.mpr fun w hw => by simpa using hp w hw
  unfold sgetPend
  rw [hf]
  rfl

theorem sgetPend_last {t : Thread} {l l' : List (Nat × Word × Nat)} {v : Word} {k : Nat} (hn : n ≠ snTHR_CTL)
    (hp : t.pend = l ++ (n, v, k) :: l') (hl : ∀ w ∈ l', w.1 ≠ n) : sgetPend t n = v := by
  have hf : l'.filter (fun w => w.1 = n) = [] := List.filter_eq_nil_iff.mpr fun w hw => by simpa using hl w hw
  unfold sgetPend
  simp [hp, hf, hn]

/-! ## What a write leaves -/

theorem sysWrite_pc (v : Word) : (tget (sysWrite s h n v) h).pc = (tget s h).pc := by
  let P := fun s' : State => (tget s' h).pc = (tget s h).pc
  have hput {t : Thread} (ht : t.pc = (tget s h).pc) : P (tput s h t) := (congrArg Thread.pc (tget_tput_same s h t)).trans ht
  refine pred_ite (P := P) rfl <| pred_ite rfl <| pred_ite (hput rfl) <| pred_ite (hput ?_) (hput rfl)
  exact pred_ite (P := fun t : Thread => t.pc = (tget s h).pc) rfl rfl

section Write
variable {v : Word} (hh : sysGuestHidden (tget s h) n = false) (hr : sysRO n = false) (hi : pmWriteIgnored s (tget s h).world n = false)
  (ho : ¬ (0x471 ≤ n ∧ n ≤ 0x473))
include hh hr hi ho

/-- A write that is neither ignored nor of an overflow register, by what it writes. -/
theorem sysWrite_effective : sysWrite s h n v = if n = snINTMASK ∧ bennak s h = false then
      tput s h { tget s h with im := (sysLegal h n v).getLsbD 0 }
    else if (sysSync n || decide (n = snINTMASK)) = true then
      let t1 := if n = snTHR_CTL then sput (tget s h) n ((sget (tget s h) n &&& ~~~(0x10 : Word)) ||| (sysLegal h n v &&& 0x10)) else tget s h
      tput s h { t1 with pend := t1.pend ++ [(n, sysLegal h n v, bennakDelay)] }
    else tput s h (sput (tget s h) n (sysLegal h n v)) :=
  (if_neg (by rw [hh, hr, hi]; exact Bool.false_ne_true)).trans (if_neg ho)

/-- INTMASK takes its bit at once, but in Bennak mode (R392). -/
theorem sysWrite_intmask (hn : n = snINTMASK) (hb : bennak s h = false) :
    sysWrite s h n v = changes h (fun t => { t with im := v.getLsbD 0 }) s := by
  have hx : (sysLegal h n v).getLsbD 0 = v.getLsbD 0 := by
    subst hn
    show (BitVec.ofNat 64 (v.toNat % 2 ^ 1)).getLsbD 0 = v.getLsbD 0
    rw [BitVec.getLsbD_ofNat, Nat.testBit_mod_two_pow]
    rfl
  rw [sysWrite_effective hh hr hi ho, if_pos ⟨hn, hb⟩, hx]
  rfl

/-- A Sync register takes a pending write (R101). -/
theorem sysWrite_sync (hs : sysSync n = true) (hc : n ≠ snTHR_CTL) :
    sysWrite s h n v = changes h (fun t => { t with pend := t.pend ++ [(n, sysLegal h n v, bennakDelay)] }) s := by
  have hm : n ≠ snINTMASK := by rintro rfl; exact absurd hs (by decide)
  rw [sysWrite_effective hh hr hi ho, if_neg fun hn => hm hn.1, hs, if_neg hc]
  rfl

/-- Another register takes its legal value at once (R99, R100). -/
theorem sysWrite_atOnce (hs : sysSync n = false) (hm : n ≠ snINTMASK) :
    sysWrite s h n v = changes h (fun t => sput t n (sysLegal h n v)) s := by
  rw [sysWrite_effective hh hr hi ho, if_neg fun hn => hm hn.1, hs, decide_eq_false hm]
  rfl

end Write

/-! ## The obligations -/

/-- What the checks need of MFS. -/
def mfsIns (h : Hart) (q : BitVec 4) (r : Reg) (sn : BitVec 12) : Ins :=
  { word := encI q 0x2D r 0 sn
    xs := [r]
    pre := mfsPre h sn.toNat (encI q 0x2D r 0 sn)
    vec := if isDrover h && decide (sn.toNat = snVCSR) then .reads else .none
    post := fun s => if sysGuestHidden (tget s h) sn.toNat || sysAssigned h sn.toNat then none else some (wordExc cUNDEF (encI q 0x2D r 0 sn)) }

/-- What the checks need of MTS. -/
def mtsIns (h : Hart) (q : BitVec 4) (sn : BitVec 12) (r : Reg) : Ins :=
  { word := encI q 0x2E 0 r sn
    xs := [r]
    pre := fun s => if sysGuestHidden (tget s h) sn.toNat then none else privIf (sysPriv (tget s h).level sn.toNat) (encI q 0x2E 0 r sn)
    vec := if isDrover h && decide (sn.toNat = snVCSR) then .writes else .none
    post := fun s => if sysGuestHidden (tget s h) sn.toNat || (sysAssigned h sn.toNat && !sysRO sn.toNat) then none
      else some (wordExc cUNDEF (encI q 0x2E 0 r sn)) }

section Access
variable {q : BitVec 4} {r : Reg} {sn : BitVec 12}

theorem exec_mfs (s : State) : exec (.mfs h q r sn) s = runInstr s h q (mfsIns h q r sn) fun s =>
    fin (tmod (sysRead s h sn.toNat).1 h fun t => xset t r (sysRead s h sn.toNat).2) h (mfsIns h q r sn).word := rfl

theorem exec_mts (s : State) : exec (.mts h q sn r) s = runInstr s h q (mtsIns h q sn r) fun s =>
    fin (sysWrite s h sn.toNat (xget (tget s h) r)) h (mtsIns h q sn r).word := rfl

theorem fin_sysRead (v : Word) : fin (tmod (sysRead s h n).1 h fun t => xset t r v) h w =
    .done (changes h (fun t => xset t r v) (sysRead s h n).1) (nextWord (tget s h)) (plain w) := by
  unfold fin
  rw [tget_tmod_same, xset_pc, sysRead_pc]
  rfl

theorem fin_sysWrite (v : Word) : fin (sysWrite s h n v) h w = .done (sysWrite s h n v) (nextWord (tget s h)) (plain w) := by
  unfold fin
  rw [sysWrite_pc]
  rfl

/-- Only VCSR on a Drover thread is vector state among the state registers (R91). -/
def IsVcsr (h : Hart) (sn : BitVec 12) : Prop := isDrover h = true ∧ sn.toNat = snVCSR

theorem isVcsr_iff : (isDrover h && decide (sn.toNat = snVCSR)) = true ↔ IsVcsr h sn :=
  Bool.and_eq_true_iff.trans (and_congr_right' decide_eq_true_iff)

theorem mfsIns_vec_none (hv : ¬ IsVcsr h sn) : (mfsIns h q r sn).vec = .none := if_neg (mt isVcsr_iff.mp hv)

theorem mtsIns_vec_none (hv : ¬ IsVcsr h sn) : (mtsIns h q sn r).vec = .none := if_neg (mt isVcsr_iff.mp hv)

theorem not_isVcsr_of_unassigned (ha : sysAssigned h sn.toNat = false) : ¬ IsVcsr h sn := by
  rintro ⟨hd, hn⟩
  rw [hn, sysAssigned_vcsr hd] at ha
  exact Bool.false_ne_true ha.symm

theorem not_isVcsr_of_readOnly (hro : sysRO sn.toNat = true) : ¬ IsVcsr h sn := by
  rintro ⟨-, hn⟩
  rw [hn] at hro
  exact absurd hro (by decide)

theorem mtsIns_pre_atClass (hp : sysPriv (tget s h).level sn.toNat = false) : (mtsIns h q sn r).pre s = none :=
  pred_ite (P := (· = none)) rfl (if_neg (Bool.eq_false_iff.mp hp))

theorem mtsIns_pre_belowClass (hh : sysGuestHidden (tget s h) sn.toNat = false) (hp : sysPriv (tget s h).level sn.toNat = true) :
    (mtsIns h q sn r).pre s = some (wordExc cPRIV (mtsIns h q sn r).word) :=
  (if_neg (Bool.eq_false_iff.mp hh)).trans (if_pos hp)

theorem mfsIns_post_assigned (ha : sysAssigned h sn.toNat = true) : (mfsIns h q r sn).post s = none :=
  if_pos (by rw [ha, Bool.or_true])

theorem mfsIns_post_unassigned (hh : sysGuestHidden (tget s h) sn.toNat = false) (ha : sysAssigned h sn.toNat = false) :
    (mfsIns h q r sn).post s = some (wordExc cUNDEF (mfsIns h q r sn).word) :=
  if_neg (by rw [hh, ha]; exact Bool.false_ne_true)

theorem mtsIns_post_writable (ha : sysAssigned h sn.toNat = true) (hro : sysRO sn.toNat = false) : (mtsIns h q sn r).post s = none :=
  if_pos (by rw [ha, hro, Bool.or_eq_true_iff]; exact .inr rfl)

theorem mtsIns_post_refused (hh : sysGuestHidden (tget s h) sn.toNat = false) (ha : sysAssigned h sn.toNat = false ∨ sysRO sn.toNat = true) :
    (mtsIns h q sn r).post s = some (wordExc cUNDEF (mtsIns h q sn r).word) := by
  have hw : ¬ (sysAssigned h sn.toNat && !sysRO sn.toNat) = true := by
    rcases ha with ha | ha <;> rw [ha]
    · exact Bool.false_ne_true
    · rw [Bool.not_true, Bool.and_false]; exact Bool.false_ne_true
  exact if_neg fun hc => (Bool.or_eq_true_iff.mp hc).elim (fun hg => Bool.eq_false_iff.mp hh hg) hw

end Access

/-- Settles O28. -/
theorem stateRegisterAccess : Obligations.StateRegisterAccess := by
  unfold Obligations.StateRegisterAccess
  intro h q r sn n ok view unviewed
  refine ⟨?mfs, ?reads, ?mts, ?mtsVcsr, ?writes⟩
  case mfs =>
    refine does_of (mfsIns h q r sn) _ exec_mfs rfl rfl (ite_eq_or_eq _ _ _).symm (fun s hs => ?_) fun s _ => ⟨_, fin_sysRead _⟩
    obtain ⟨⟨ha, hp, -, hvec⟩, hview⟩ := hs
    have hv : (mfsIns h q r sn).vec = .none ∨ vecOn h s :=
      (Classical.em (IsVcsr h sn)).elim (fun hv => .inr (hvec hv.2 hv.1)) fun hv => .inl (mfsIns_vec_none hv)
    exact (orderFour_of_post (mfsPre_atClass hp fun hn => hview (hn.imp_right And.right)) hv).trans (mfsIns_post_assigned ha)
  case reads =>
    intro s hh
    exact ⟨sysRead_tb hh, sysRead_curstate hh, fun hpl hpend => (sysRead_plain hh hpl).trans (congrArg _ (sgetPend_notPending hpend)),
      fun hpl hc l v k l' hp hl => (sysRead_plain hh hpl).trans (congrArg _ (sgetPend_last hc hp hl))⟩
  case mts =>
    intro hn
    have hvec : (mtsIns h q sn r).vec = .none :=
      mtsIns_vec_none fun hv => hn.elim (fun hf => Bool.false_ne_true (hf.symm.trans hv.1)) fun hf => hf hv.2
    refine does_of _ _ exec_mts rfl rfl (.inl hvec) (fun s hs => ?_) fun s _ => ⟨_, fin_sysWrite _⟩
    obtain ⟨⟨ha, hp, -⟩, hro⟩ := hs
    exact (orderFour_of_post (mtsIns_pre_atClass hp) (.inl hvec)).trans (mtsIns_post_writable ha hro)
  case mtsVcsr =>
    intro hd hn
    have hvec : (mtsIns h q sn r).vec = .writes := if_pos (isVcsr_iff.mpr ⟨hd, hn⟩)
    have hro : sysRO sn.toNat = false := (congrArg sysRO hn).trans rfl
    refine does_writes _ _ exec_mts rfl rfl hvec (fun s hs => ?_) fun s _ => ⟨_, fin_sysWrite _⟩
    obtain ⟨ha, hp, -, hv⟩ := hs
    exact (orderFour_of_post (mtsIns_pre_atClass hp) (.inr (hv hn hd))).trans (mtsIns_post_writable ha hro)
  case writes =>
    intro s v hh hr hi ho
    exact ⟨sysWrite_intmask hh hr hi ho, sysWrite_sync hh hr hi ho, sysWrite_atOnce hh hr hi ho⟩

/-- Settles O29. -/
theorem stateRegisterChecks : Obligations.StateRegisterChecks := by
  unfold Obligations.StateRegisterChecks
  intro h q r sn
  let mfsWord := fun _ : State => (mfsIns h q r sn).word.toNat
  let mtsWord := fun _ : State => (mtsIns h q sn r).word.toNat
  refine ⟨⟨mfsWord, ?mfsPriv⟩, ⟨mtsWord, ?mtsPriv⟩, fun ha => ⟨⟨mfsWord, ?mfsUndef⟩, ⟨mtsWord, ?mtsUndef⟩⟩,
    fun ha hro => ⟨mtsWord, ?mtsReadOnly⟩, ?classes⟩
  case mfsPriv => exact raises_of_check _ _ exec_mfs rfl rfl fun s hs => orderFour_of_pre (mfsPre_belowClass hs.1 hs.2)
  case mtsPriv => exact raises_of_check _ _ exec_mts rfl rfl fun s hs => orderFour_of_pre (mtsIns_pre_belowClass hs.1 hs.2)
  case mfsUndef =>
    have hview := mt sysAssigned_of_view (Bool.eq_false_iff.mp ha)
    exact raises_of_check _ _ exec_mfs rfl rfl fun s hs => (orderFour_of_post (mfsPre_atClass hs.2 fun hv => absurd hv hview)
      (.inl (mfsIns_vec_none (not_isVcsr_of_unassigned ha)))).trans (mfsIns_post_unassigned hs.1 ha)
  case mtsUndef =>
    exact raises_of_check _ _ exec_mts rfl rfl fun s hs => (orderFour_of_post (mtsIns_pre_atClass hs.2)
      (.inl (mtsIns_vec_none (not_isVcsr_of_unassigned ha)))).trans (mtsIns_post_refused hs.1 (.inl ha))
  case mtsReadOnly =>
    exact raises_of_check _ _ exec_mts rfl rfl fun s hs => (orderFour_of_post (mtsIns_pre_atClass hs.2)
      (.inl (mtsIns_vec_none (not_isVcsr_of_readOnly hro)))).trans (mtsIns_post_refused hs.1 (.inr hro))
  case classes => exact fun l => sysPriv_iff_belowClass l sn.isLt

end Sys2Proof.Machine
end

section
/-!
O30: CALLs and BREAK (R106, R107, R130).
-/

namespace Sys2Proof.Machine

variable {h : Hart} {q : BitVec 4} {imm : BitVec 16} {w : BitVec 32}

/-- The call `c` of hart `h` with immediate `imm` is taken wherever it issues in a state that meets `ok`: it counts as retired and raises
`cause` with the next instruction as the return address, and writes no x, p, v or m register. -/
def CallTaken (c : Instr) (h : Hart) (q : BitVec 4) (imm : BitVec 16) (ok : State → Prop) (cause : Nat) : Prop :=
  ∀ s s1, Issues s h q [] s1 → ok s1 →
    ∃ t word, exec c s = .next t ∧
      t = raise (changes h (fun u => { u with pc := u.pc + 4 }) (countEvents s1 h [evINST, evGROUPS])) h ⟨cause, imm.toNat, 0, none⟩ word ∧
      RegsSame (tget t h) (tget s1 h)

/-- Counting and moving the PC write no register, nor does the exception. -/
theorem raise_call_regs (s : State) (h : Hart) (e : Exc) (word : BitVec 32) :
    RegsSame (tget (raise (changes h (fun u => { u with pc := u.pc + 4 }) (countEvents s h [evINST, evGROUPS])) h e word) h) (tget s h) := by
  refine (raise_regs _ h e word).trans' ?_
  rw [changes, tget_tmod_same]
  exact RegsSame.trans' ⟨rfl, rfl, rfl, rfl⟩ (countEvents_counted s h [evINST, evGROUPS]).arch.regs

theorem callTaken_of {c : Instr} {ok : State → Prop} {cause : Nat} (i : Ins)
    (hc : ∀ s, exec c s = runInstr s h q i fun s => callExc s h cause imm) (hx : i.xs = []) (hu : i.undef = false)
    (ho : ∀ s, ok s → orderFour s h i = none) : CallTaken c h q imm ok cause := by
  intro s s1 hi hok
  exact ⟨_, i.word, (hc s).trans (runInstr_issues (hx ▸ hi) hu (ho s1 hok)), rfl, raise_call_regs s1 h _ _⟩

/-- What the checks need of CALL.S: PRIV at H and M; the Waystation has none. -/
def callSIns (h : Hart) (q : BitVec 4) (imm : BitVec 16) : Ins :=
  { word := encK q 0 imm, undef := (match h with | .waystation _ => true | _ => false)
    pre := fun s => privIf (decide ((tget s h).level = .h) || decide ((tget s h).level = .m)) (encK q 0 imm) }

/-- What the checks need of CALL.H: PRIV at U, then UNDEF in the secure world. -/
def callHIns (h : Hart) (q : BitVec 4) (imm : BitVec 16) : Ins :=
  { word := encK q 1 imm, undef := !isDrover h, pre := fun s => privIf (decide ((tget s h).level = .u)) (encK q 1 imm)
    post := fun s => if (tget s h).world = .secure then some (wordExc cUNDEF (encK q 1 imm)) else none }

/-- What the checks need of CALL.M: PRIV at U. -/
def callMIns (h : Hart) (q : BitVec 4) (imm : BitVec 16) : Ins :=
  { word := encK q 2 imm, undef := !isDrover h, pre := fun s => privIf (decide ((tget s h).level = .u)) (encK q 2 imm) }

theorem exec_callS (s : State) : exec (.callS h q imm) s = runInstr s h q (callSIns h q imm) fun s => callExc s h cCALL_S imm := rfl

theorem exec_callH (s : State) : exec (.callH h q imm) s = runInstr s h q (callHIns h q imm) fun s => callExc s h cCALL_H imm := rfl

theorem exec_callM (s : State) : exec (.callM h q imm) s = runInstr s h q (callMIns h q imm) fun s => callExc s h cCALL_M imm := rfl

theorem callSIns_undef (hw : ∀ d, h ≠ .waystation d) : (callSIns h q imm).undef = false := by
  cases h with
  | waystation d => exact absurd rfl (hw d)
  | drover | outrider => rfl

/-- Below S, H or M a call of a higher level is refused. -/
theorem privIf_user {s : State} (hl : (tget s h).level = .u) : privIf (decide ((tget s h).level = .u)) w = some (wordExc cPRIV w) := by
  rw [decide_eq_true hl]; rfl

theorem privIf_notUser {s : State} (hl : (tget s h).level ≠ .u) : privIf (decide ((tget s h).level = .u)) w = none := by
  rw [decide_eq_false hl]; rfl

/-- Settles O30: each call passes its checks, or one of them refuses it. -/
theorem callsAndBreak : Obligations.CallsAndBreak := by
  unfold Obligations.CallsAndBreak
  intro h q imm calls lev
  have hbrk : Raises (.brk h q imm) h q [] (fun _ => True) cBREAK (fun _ => imm.toNat) (fun _ => 0) :=
    raises_of { word := encK q 3 imm } _ (fun _ => rfl) rfl rfl (fun _ _ => rfl) fun _ _ => rfl
  refine ⟨hbrk, fun hw => ?callS, fun hd => ?callHAndM, fun hd => ?notDrover, fun d hd => ?waystation⟩
  case callS =>
    have hu := callSIns_undef (q := q) (imm := imm) hw
    refine ⟨callTaken_of _ exec_callS rfl hu fun s hl => orderFour_of_post ?_ (.inl rfl),
      _, raises_of_check _ _ exec_callS rfl hu fun s hl => orderFour_of_pre (e := wordExc cPRIV (encK q 0 imm)) ?_⟩
    · exact if_neg (by rw [show (tget s h).level = lev s from rfl]; rcases hl with hl | hl <;> rw [hl] <;> decide)
    · exact if_pos (by rw [show (tget s h).level = lev s from rfl]; rcases hl with hl | hl <;> rw [hl] <;> decide)
  case callHAndM =>
    have hu : (!isDrover h) = false := by rw [hd]; rfl
    refine ⟨callTaken_of _ exec_callH rfl hu fun s hs =>
        (orderFour_of_post (privIf_notUser hs.1) (.inl rfl)).trans (if_neg (by rw [hs.2]; decide)),
      ⟨_, raises_of_check _ _ exec_callH rfl hu fun s hl => orderFour_of_pre (privIf_user hl)⟩,
      ⟨_, raises_of_check _ _ exec_callH rfl hu fun s hs => (orderFour_of_post (privIf_notUser hs.1) (.inl rfl)).trans (if_pos hs.2)⟩,
      callTaken_of _ exec_callM rfl hu fun s hl => orderFour_of_post (privIf_notUser hl) (.inl rfl),
      _, raises_of_check _ _ exec_callM rfl hu fun s hl => orderFour_of_pre (privIf_user hl)⟩
  case notDrover =>
    have hu : (!isDrover h) = true := by rw [hd]; rfl
    exact ⟨encodesNone_of _ _ exec_callH hu, encodesNone_of _ _ exec_callM hu⟩
  case waystation =>
    subst hd
    exact encodesNone_of _ _ exec_callS rfl

end Sys2Proof.Machine
end

section
/-!
O31: taking a synchronous exception (R105, R109, R111, R131, R132, R148).

Between the start of the exception and the entry to its level the event is counted and a guest may be left.  Both touch performance registers of
the hart only (`PerfOnly`), so the thread that enters (`enterThread`) is the one before the exception with its pending writes in effect, but for
those (`takeAt_enters`).
-/

namespace Sys2Proof.Machine

/-! ## What counting and a guest's exit leave alone -/

/-- A performance register: state numbers 0x470 to 0x4FF and 0x870 to 0x8FF. -/
def PerfReg (n : Nat) : Prop := (0x470 ≤ n ∧ n ≤ 0x4FF) ∨ (0x870 ≤ n ∧ n ≤ 0x8FF)

/-- Two states of a hart that differ in performance registers at most, as far as an exception looks. -/
def PerfOnly (a b : Thread) : Prop :=
  ArchSame a b ∧ a.im = b.im ∧ a.pend = b.pend ∧ ∀ n, ¬ PerfReg n → sget a n = sget b n

variable {a b c t : Thread} {s : State} {h : Hart}

theorem PerfOnly.rfl' (a : Thread) : PerfOnly a a := ⟨ArchSame.rfl' a, rfl, rfl, fun _ _ => rfl⟩

theorem PerfOnly.trans' (h1 : PerfOnly a b) (h2 : PerfOnly b c) : PerfOnly a c := by
  obtain ⟨harch, him, hpend, hsreg⟩ := h1
  obtain ⟨harch', him', hpend', hsreg'⟩ := h2
  exact ⟨harch.trans' harch', him.trans him', hpend.trans hpend', fun n hn => (hsreg n hn).trans (hsreg' n hn)⟩

theorem PerfOnly.pend (hp : PerfOnly a b) : a.pend = b.pend := by
  obtain ⟨-, -, hpend, -⟩ := hp
  exact hpend

theorem PerfOnly.sreg (hp : PerfOnly a b) {n : Nat} (hn : ¬ PerfReg n) : sget a n = sget b n := by
  obtain ⟨-, -, -, hsreg⟩ := hp
  exact hsreg n hn

theorem perfOnly_sput {n : Nat} (v : Word) (hn : PerfReg n) : PerfOnly (sput t n v) t :=
  ⟨ArchSame.rfl' _, rfl, rfl, fun _ hm => sget_sput_other t v fun he => hm (he ▸ hn)⟩

theorem sget_sput (n m : Nat) (v : Word) : sget (sput t n v) m = if m = n then v else sget t m := by
  split
  case isTrue hm => rw [hm, sget_sput_same]
  case isFalse hm => exact sget_sput_other t v hm

theorem perfOnly_comparator (e : Nat) {n : Nat} (hn : n < 4) : PerfOnly (tget (comparator s h e n) h) (tget s h) := by
  have hperf {b : Nat} (hlo : 0x470 ≤ b) (hhi : b + 4 ≤ 0x4FF) : PerfReg (b + n) :=
    .inl ⟨hlo.trans (Nat.le_add_right b n), (Nat.add_le_add_left hn.le b).trans hhi⟩
  have hctl : PerfReg (snPMU_CMP_CTL + n) := hperf (by decide) (by decide)
  have hnext : PerfReg (snPMU_CMP_NEXT + n) := hperf (by decide) (by decide)
  unfold comparator
  extract_lets t c next cnt period t1 t2 s1
  have h1 : PerfOnly t1 t := pred_ite (P := (PerfOnly · t)) (perfOnly_sput _ hnext) (perfOnly_sput _ hctl)
  have h2 : PerfOnly t2 t := pred_ite (P := (PerfOnly · t)) h1 h1
  have h3 : PerfOnly (tget s1 h) t := (tget_tput_same s h t2).symm ▸ h2
  have hkeep (s' : State) (hs' : tget s' h = tget s1 h) : PerfOnly (tget s' h) t := hs' ▸ h3
  exact pred_ite (P := fun s' => PerfOnly (tget s' h) t)
    (pred_ite (P := fun s' => PerfOnly (tget s' h) t) (hkeep _ (tget_privSet ..)) (hkeep _ rfl)) (PerfOnly.rfl' _)

theorem perfOnly_foldl {α : Type} (l : List α) (f : State → α → State) (hf : ∀ s a, a ∈ l → PerfOnly (tget (f s a) h) (tget s h)) (s : State) :
    PerfOnly (tget (l.foldl f s) h) (tget s h) := by
  induction l generalizing s with
  | nil => exact PerfOnly.rfl' _
  | cons a r ih => exact (ih (fun s b hb => hf s b (List.mem_cons_of_mem a hb)) (f s a)).trans' (hf s a List.mem_cons_self)

theorem perfOnly_countThread (e n : Nat) : PerfOnly (tget (countThread s h e n) h) (tget s h) := by
  cases h with
  | drover st c t =>
    have hadd : PerfOnly (tget (pmAdd s (thrCnt (.drover st c t) e) n) (.drover st c t)) (tget s (.drover st c t)) := by
      rw [tget_pmAdd]; exact PerfOnly.rfl' _
    simp only [countThread]
    split
    · exact PerfOnly.rfl' _
    · split
      · exact (perfOnly_foldl _ _ (fun s m hm => perfOnly_comparator e (List.mem_range.mp hm)) _).trans' hadd
      · exact hadd
  | outrider k => exact PerfOnly.rfl' _
  | waystation d => exact PerfOnly.rfl' _

/-- A hart's own writes of its tally block do not touch its thread, and a bad tally block is marked in PMV_CTL (R573, R574). -/
theorem perfOnly_guestExit : PerfOnly (tget (guestExit s h) h) (tget s h) := by
  unfold guestExit
  extract_lets t
  split
  · rw [tget_tput_same]
    exact perfOnly_sput _ (.inr (by decide))
  · refine perfOnly_foldl _ _ (fun s' e _ => ?_) s
    have hown (a : Nat) (d : List Byte) : tget (agentWrite s' (some h) a d) h = tget s' h := (tget_agentWrite s' (some h) a d h).trans (if_pos rfl)
    exact pred_ite (P := fun u => PerfOnly (tget u h) (tget s' h)) (PerfOnly.rfl' _) (by rw [hown]; exact PerfOnly.rfl' _)

/-! ## Pending writes -/

theorem PerfOnly.sput_both (hab : PerfOnly a b) {n : Nat} {v w : Word} (hv : ¬ PerfReg n → v = w) : PerfOnly (sput a n v) (sput b n w) := by
  obtain ⟨harch, him, hpend, hsreg⟩ := hab
  refine ⟨harch, him, hpend, fun m hm => ?_⟩
  rw [sget_sput, sget_sput]
  split
  case isTrue he => exact hv (he ▸ hm)
  case isFalse => exact hsreg m hm

theorem PerfOnly.im_both (hab : PerfOnly a b) (im : Bool) : PerfOnly { a with im := im } { b with im := im } := by
  obtain ⟨harch, -, hrest⟩ := hab
  exact ⟨harch, rfl, hrest⟩

theorem PerfOnly.noPend_both (hab : PerfOnly a b) : PerfOnly { a with pend := [] } { b with pend := [] } := by
  obtain ⟨harch, him, -, hsreg⟩ := hab
  exact ⟨harch, him, rfl, hsreg⟩

/-- A Sync write takes effect alike on two states of a hart that differ in performance registers at most. -/
theorem PerfOnly.applyOne (hab : PerfOnly a b) (n : Nat) (v : Word) : PerfOnly (applyOne a n v) (applyOne b n v) := by
  unfold Machine.applyOne
  split
  · exact hab.sput_both fun hn => by rw [hab.sreg hn]
  · split
    · exact hab.im_both _
    · exact hab.sput_both fun _ => rfl

theorem PerfOnly.applySync (hab : PerfOnly a b) : PerfOnly (applySync a) (applySync b) := by
  unfold Machine.applySync
  rw [hab.pend]
  have hstart := hab.noPend_both
  generalize b.pend = l
  revert hstart
  generalize ({ a with pend := [] } : Thread) = a', ({ b with pend := [] } : Thread) = b'
  intro hstart
  induction l generalizing a' b' with
  | nil => exact hstart
  | cons w r ih => exact ih _ _ (hstart.applyOne w.1 w.2.1)

theorem applyOne_pend (t : Thread) (n : Nat) (v : Word) : (applyOne t n v).pend = t.pend := by
  unfold applyOne
  split
  · rfl
  · split <;> rfl

theorem applySync_pend (t : Thread) : (applySync t).pend = [] := by
  unfold applySync
  exact List.foldlRecOn (motive := fun u : Thread => u.pend = []) t.pend _ rfl fun u hu w _ => (applyOne_pend u w.1 w.2.1).trans hu

/-! ## Entry -/

/-- An exception enters its level from the thread before it with its pending writes in effect, but for performance registers. -/
theorem takeAt_enters (l : Level) (cause : Nat) (val info epc : Word) (off ev : Nat) :
    ∃ t, PerfOnly t (applySync (tget s h)) ∧ tget (takeAt s h l cause val info epc off ev) h = enterThread t l cause val info epc off := by
  unfold takeAt
  extract_lets s1 t t' s2 s3 t3
  refine ⟨t3, ?_, tget_tput_same _ _ _⟩
  have h1 : PerfOnly t (applySync (tget s h)) := (perfOnly_countThread ev 1).applySync
  have h2 : PerfOnly (tget s2 h) (applySync (tget s h)) := (tget_tput_same s1 h t).symm ▸ h1
  exact pred_ite (P := fun u => PerfOnly (tget u h) (applySync (tget s h))) (perfOnly_guestExit.trans' h2) h2

/-- The registers of a level's exception group start at its class (Table 3-6); none is U's own. -/
theorem snLev_eq {l : Level} (hl : l ≠ .u) (n : Nat) : snLev l n = levelCode l * 0x400 + n := by
  cases l with
  | u => exact absurd rfl hl
  | s | h | m => rfl

theorem not_perfReg_vbase (l : Level) : ¬ PerfReg (snLev l exVBASE) := by
  unfold PerfReg
  cases l <;> decide

theorem sget_enterThread (t : Thread) (l : Level) (cause : Nat) (val info epc : Word) (off n : Nat) :
    sget (enterThread t l cause val info epc off) n =
      if n = snLev l exINFO then info else if n = snLev l exVAL then val else if n = snLev l exCAUSE then BitVec.ofNat 64 cause
      else if n = snLev l exEPC then epc &&& ~~~(3 : Word)
      else if n = snLev l exSTATUS then BitVec.ofNat 64 (levelCode t.level + 4 * worldCode t.world + 8 * b2n t.im)
      else sget t n := by
  rw [← sget_sput, ← sget_sput, ← sget_sput, ← sget_sput, ← sget_sput]
  rfl

section Enter
variable (t : Thread) (l : Level) (cause : Nat) (val info epc : Word) (off : Nat)

theorem snLev_ne {n m : Nat} (h : n ≠ m) : snLev l n ≠ snLev l m := mt Nat.add_left_cancel h

/-! What entry leaves in registers 0 to 4 of the exception group of its level (Table 3-6). -/

theorem enterThread_info : sget (enterThread t l cause val info epc off) (snLev l exINFO) = info := by
  rw [sget_enterThread, if_pos rfl]

theorem enterThread_val : sget (enterThread t l cause val info epc off) (snLev l exVAL) = val := by
  rw [sget_enterThread, if_neg (snLev_ne l (by decide)), if_pos rfl]

theorem enterThread_cause : sget (enterThread t l cause val info epc off) (snLev l exCAUSE) = BitVec.ofNat 64 cause := by
  rw [sget_enterThread, if_neg (snLev_ne l (by decide)), if_neg (snLev_ne l (by decide)), if_pos rfl]

theorem enterThread_epc : sget (enterThread t l cause val info epc off) (snLev l exEPC) = epc &&& ~~~(3 : Word) := by
  rw [sget_enterThread, if_neg (snLev_ne l (by decide)), if_neg (snLev_ne l (by decide)), if_neg (snLev_ne l (by decide)), if_pos rfl]

theorem enterThread_status : sget (enterThread t l cause val info epc off) (snLev l exSTATUS) =
    BitVec.ofNat 64 (levelCode t.level + 4 * worldCode t.world + 8 * b2n t.im) := by
  rw [sget_enterThread, if_neg (snLev_ne l (by decide)), if_neg (snLev_ne l (by decide)), if_neg (snLev_ne l (by decide)),
    if_neg (snLev_ne l (by decide)), if_pos rfl]

/-- Entry writes no other state register. -/
theorem enterThread_other {n : Nat} (hn : n ∉ [snLev l exSTATUS, snLev l exEPC, snLev l exCAUSE, snLev l exVAL, snLev l exINFO]) :
    sget (enterThread t l cause val info epc off) n = sget t n := by
  have hn1 := List.not_mem_of_not_mem_cons hn
  have hn2 := List.not_mem_of_not_mem_cons hn1
  have hn3 := List.not_mem_of_not_mem_cons hn2
  rw [sget_enterThread, if_neg (List.ne_of_not_mem_cons (List.not_mem_of_not_mem_cons hn3)), if_neg (List.ne_of_not_mem_cons hn3),
    if_neg (List.ne_of_not_mem_cons hn2), if_neg (List.ne_of_not_mem_cons hn1), if_neg (List.ne_of_not_mem_cons hn)]

theorem enterThread_pc : (enterThread t l cause val info epc off).pc = sget t (snLev l exVBASE) + BitVec.ofNat 64 off := by
  have hv : sget (enterThread t l cause val info epc off) (snLev l exVBASE) = sget t (snLev l exVBASE) := by
    rw [sget_enterThread, if_neg (snLev_ne l (by decide)), if_neg (snLev_ne l (by decide)), if_neg (snLev_ne l (by decide)),
      if_neg (snLev_ne l (by decide)), if_neg (snLev_ne l (by decide))]
  exact congrArg (· + BitVec.ofNat 64 off) hv

theorem enterThread_pend : (enterThread t l cause val info epc off).pend = t.pend := by
  simp only [enterThread, sput]

end Enter

/-- No synchronous exception is taken at U (R109). -/
theorem routeTo_ne_user (h : Hart) (t : Thread) (c : Nat) : routeTo h t c ≠ .u := by
  cases h with
  | outrider n => exact (by decide : Level.s ≠ .u)
  | waystation d => exact (by decide : Level.m ≠ .u)
  | drover st k j =>
    let P := fun l : Level => l ≠ .u
    have hs : P .s := by decide
    have hh : P .h := by decide
    have hm : P .m := by decide
    exact pred_ite (P := P) hm <| pred_ite hm <| pred_ite hh <| pred_ite hh <| iteInduction (fun _ => hs) fun hl => hl

/-- The level of an exception on a Drover thread, with the two causes that always go to M named first. -/
theorem routeTo_drover (st : Stop) (k j : Fin 2) (t : Thread) (c : Nat) :
    routeTo (.drover st k j) t c = if sbit t snM_ROUTE c = true ∨ c = cCALL_M then .m
      else if c = cCALL_H then .h
      else if t.world = .normal ∧ (t.level = .u ∨ t.level = .s) ∧ sbit t snH_ROUTE c = true then .h
      else if t.level = .u then .s else t.level := by
  show (if sbit t snM_ROUTE c = true then Level.m else if c = cCALL_M then .m else _) = _
  by_cases hr : sbit t snM_ROUTE c = true
  · rw [if_pos hr, if_pos (.inl hr)]
  · by_cases hm : c = cCALL_M
    · rw [if_neg hr, if_pos hm, if_pos (.inr hm)]
    · rw [if_neg hr, if_neg hm, if_neg (not_or.mpr ⟨hr, hm⟩)]

/-- The level of an exception, as the statement writes it. -/
theorem routeTo_eq (h : Hart) (t : Thread) (c : Nat) :
    routeTo h t c = match h with
      | .outrider _ => Level.s
      | .waystation _ => .m
      | .drover _ _ _ =>
        if sbit t snM_ROUTE c = true ∨ c = cCALL_M then .m
        else if c = cCALL_H then .h
        else if t.world = .normal ∧ (t.level = .u ∨ t.level = .s) ∧ sbit t snH_ROUTE c = true then .h
        else if t.level = .u then .s else t.level := by
  cases h with
  | outrider n => rfl
  | waystation d => rfl
  | drover st k j => exact routeTo_drover st k j t c

section Entered
variable {u t0 t : Thread} {l : Level} {g cause : Nat} {val info epc : Word} {off : Nat}

theorem entered_status (hp : PerfOnly u t0) : sget (enterThread u l cause val info epc off) (snLev l exSTATUS) =
    BitVec.ofNat 64 (levelCode t0.level + 4 * worldCode t0.world + 8 * b2n t0.im) := by
  obtain ⟨⟨-, -, -, -, -, hlev, hworld⟩, him, -⟩ := hp
  rw [enterThread_status, hlev, hworld, him]

theorem entered_world (hp : PerfOnly u t0) :
    (enterThread u l cause val info epc off).world = if l = .m then .secure else t0.world := by
  obtain ⟨⟨-, -, -, -, -, -, hworld⟩, -⟩ := hp
  rw [← hworld]
  rfl

theorem entered_pc (hp : PerfOnly u t0) :
    (enterThread u l cause val info epc off).pc = sget t0 (snLev l exVBASE) + BitVec.ofNat 64 off := by
  rw [enterThread_pc, hp.sreg (not_perfReg_vbase l)]

/-- A thread that has entered level `l`, whose registers start at `g`, from one that differs from `t0` in performance registers at most. -/
theorem entered_of_perfOnly (hp : PerfOnly u t0) (hpend : t0.pend = []) (hg : ∀ n, g + n = snLev l n)
    (hent : t = enterThread u l cause val info epc off) {o : Word} (hoff : BitVec.ofNat 64 off = o) :
    t.level = l ∧ t.im = true ∧ t.pend = [] ∧ t.world = (if l = .m then .secure else t0.world) ∧
    sget t (g + exSTATUS) = BitVec.ofNat 64 (levelCode t0.level + 4 * worldCode t0.world + 8 * b2n t0.im) ∧
    sget t (g + exEPC) = epc &&& ~~~(3 : Word) ∧ sget t (g + exCAUSE) = BitVec.ofNat 64 cause ∧ sget t (g + exVAL) = val ∧
    sget t (g + exINFO) = info ∧ t.pc = sget t0 (g + exVBASE) + o ∧
    t.x = t0.x ∧ t.p = t0.p ∧ t.v = t0.v ∧ t.m = t0.m ∧ t.resv = none ∧
    ∀ n, n ∉ [g + exSTATUS, g + exEPC, g + exCAUSE, g + exVAL, g + exINFO] → ¬ (0x470 ≤ n ∧ n ≤ 0x4FF) → ¬ (0x870 ≤ n ∧ n ≤ 0x8FF) →
      sget t n = sget t0 n := by
  obtain ⟨hx, hpr, hv, hm⟩ := (enterThread_regs u l cause val info epc off).trans' hp.1.regs
  have hreg {n : Nat} {v : Word} (hn : sget (enterThread u l cause val info epc off) (snLev l n) = v) :
      sget (enterThread u l cause val info epc off) (g + n) = v := (congrArg _ (hg n)).trans hn
  subst hent hoff
  refine ⟨rfl, rfl, (enterThread_pend ..).trans (hp.pend.trans hpend), entered_world hp,
    hreg (entered_status hp), hreg (enterThread_epc ..), hreg (enterThread_cause ..), hreg (enterThread_val ..), hreg (enterThread_info ..), ?_,
    hx, hpr, hv, hm, rfl, fun n hn h4 h8 => (enterThread_other u l cause val info epc off ?_).trans (hp.sreg (not_or.mpr ⟨h4, h8⟩))⟩
  · rw [hg]; exact entered_pc hp
  · simpa only [hg] using hn

end Entered

/-- Settles O31: the entry of `takeAt_enters`, at the level of `routeTo`. -/
theorem exceptionEntry : Obligations.ExceptionEntry := by
  unfold Obligations.ExceptionEntry
  intro s h c val info epc _ _ t0 t l g
  have hl : l = routeTo h t0 c := (routeTo_eq h t0 c).symm
  have hg (n : Nat) : g + n = snLev l n := (snLev_eq (hl ▸ routeTo_ne_user h t0 c) n).symm
  obtain ⟨u, hp, hent⟩ : ∃ u, PerfOnly u t0 ∧ t = enterThread u l c (BitVec.ofNat 64 val) (BitVec.ofNat 64 info) epc
      (if l = t0.level then 0x080 else 0x000) := by
    rw [hl]
    exact takeAt_enters _ _ _ _ _ _ evEXC
  exact entered_of_perfOnly hp (applySync_pend _) hg hent (apply_ite (BitVec.ofNat 64) _ _ _)

end Sys2Proof.Machine
end

section
/-!
O32: XRET (R105, R112, R131, R132, R571).

The terms of the statement are named here for a thread with its pending writes in effect: the level and world that its STATUS holds, the world it
returns to, and when the return is illegal.
-/

namespace Sys2Proof.Machine

/-- STATUS of the level a thread is at. -/
def savedStatus (t : Thread) : Nat := (sget t (levelCode t.level * 0x400 + exSTATUS)).toNat

/-- PLEVEL and PWORLD of STATUS (Table 3-6). -/
def savedLevel (t : Thread) : Level := levelOf (savedStatus t % 4)
def savedWorld (t : Thread) : World := worldOf (savedStatus t / 4 % 2)

/-- The world XRET goes to: only a Drover thread at M changes it. -/
def returnWorld (h : Hart) (t : Thread) : World := if t.level = .m ∧ isDrover h = true then savedWorld t else t.world

/-- The levels above U that a core has (Tables 3-20, 20-1). -/
def Privileged (h : Hart) (t : Thread) : Prop :=
  match h with
  | .outrider _ => t.level = .s
  | .waystation _ => t.level = .m
  | .drover _ _ _ => t.level ≠ .u

/-- When a return is illegal (R112; R132 for the Waystation). -/
def IllegalReturn (h : Hart) (t : Thread) : Prop :=
  match h with
  | .waystation _ => savedLevel t ≠ .m
  | _ => levelCode t.level < levelCode (savedLevel t) ∨ (t.level ≠ .m ∧ savedWorld t ≠ t.world) ∨
      (savedLevel t = .h ∧ returnWorld h t = .secure) ∨ (savedLevel t = .m ∧ returnWorld h t = .normal)

/-- A thread gone on at `pc` with level, world and mask `l`, `w` and `im`, without its reservation. -/
def returnTo (t : Thread) (l : Level) (w : World) (im : Bool) (pc : Word) : Thread :=
  { t with level := l, world := w, im := im, resv := none, resvLost := t.resvLost || t.resv.isSome, pc := pc }

/-- The thread after a legal return. -/
def returned (h : Hart) (t : Thread) : Thread :=
  returnTo t (savedLevel t) (returnWorld h t) (decide (savedStatus t / 8 % 2 = 1)) (sget t (levelCode t.level * 0x400 + exEPC) &&& ~~~(3 : Word))

variable {s : State} {h : Hart} {t : Thread}

theorem privileged_ne_user (hp : Privileged h t) : t.level ≠ .u := by
  cases h with
  | drover st c j => exact hp
  | outrider n => exact fun hu => by cases hu.symm.trans (show t.level = .s from hp)
  | waystation d => exact fun hu => by cases hu.symm.trans (show t.level = .m from hp)

theorem illegalPair_iff (l : Level) (w : World) : legalPair l w = false ↔ (l = .h ∧ w = .secure) ∨ (l = .m ∧ w = .normal) := by
  cases l <;> cases w <;> decide

/-- STATUS of a privileged level is the register at its class. -/
theorem statusReg_eq (hp : Privileged h t) : sget t (snLev t.level exSTATUS) = sget t (levelCode t.level * 0x400 + exSTATUS) := by
  rw [snLev_eq (privileged_ne_user hp)]

/-- PLEVEL and PWORLD as the model reads them. -/
theorem plevel_eq (hp : Privileged h t) : levelOf (bits (sget t (snLev t.level exSTATUS)).toNat 0 2) = savedLevel t := by
  rw [statusReg_eq hp]
  exact congrArg (fun n => levelOf (n % 4)) (Nat.div_one _)

theorem pworld_eq (hp : Privileged h t) : worldOf (bits (sget t (snLev t.level exSTATUS)).toNat 2 1) = savedWorld t := by
  rw [statusReg_eq hp]
  rfl

theorem returnWorld_drover {st : Stop} {c j : Fin 2} :
    returnWorld (.drover st c j) t = if t.level = .m then savedWorld t else t.world :=
  if_congr (and_iff_left rfl) rfl rfl

/-- A return above S goes to a higher level than an Outrider's, so its level and world need no check there. -/
theorem illegalReturn_outrider {n : Fin 16} (hs : t.level = .s) :
    IllegalReturn (.outrider n) t ↔ levelCode t.level < levelCode (savedLevel t) ∨ savedWorld t ≠ t.world := by
  have hlow : savedLevel t = .h ∨ savedLevel t = .m → levelCode t.level < levelCode (savedLevel t) := by
    rw [hs]
    rintro (hl | hl) <;> rw [hl] <;> decide
  constructor
  · rintro (hl | hw | hl | hl)
    · exact .inl hl
    · exact .inr hw.2
    · exact .inl (hlow (.inl hl.1))
    · exact .inl (hlow (.inr hl.1))
  · rintro (hl | hw)
    · exact .inl hl
    · exact .inr (.inl ⟨by rw [hs]; decide, hw⟩)

/-- The model's check of a return, with the registers of the level named by its class. -/
theorem xretIllegal_iff (hp : Privileged h t) : xretIllegal h t = true ↔ IllegalReturn h t := by
  have hpl := plevel_eq hp
  have hpw := pworld_eq hp
  cases h with
  | waystation d =>
    show decide (levelOf (bits (sget t (snLev t.level exSTATUS)).toNat 0 2) ≠ .m) = true ↔ savedLevel t ≠ .m
    rw [hpl]
    exact decide_eq_true_iff
  | outrider n =>
    show (decide (levelCode t.level < levelCode (levelOf (bits (sget t (snLev t.level exSTATUS)).toNat 0 2))) ||
      decide (worldOf (bits (sget t (snLev t.level exSTATUS)).toNat 2 1) ≠ t.world)) = true ↔ _
    rw [hpl, hpw]
    exact (Bool.or_eq_true_iff.trans (or_congr decide_eq_true_iff decide_eq_true_iff)).trans (illegalReturn_outrider hp).symm
  | drover st c j =>
    have hmodel : xretIllegal (.drover st c j) t = (decide (levelCode t.level < levelCode (savedLevel t)) ||
        !legalPair (savedLevel t) (returnWorld (.drover st c j) t) || (decide (t.level ≠ .m) && decide (savedWorld t ≠ t.world))) := by
      rw [returnWorld_drover, ← hpl, ← hpw]
      rfl
    have hpair : (!legalPair (savedLevel t) (returnWorld (.drover st c j) t)) = true ↔ _ := (Bool.not_eq_true' _).to_iff.trans (illegalPair_iff _ _)
    have hbelow : (decide (t.level ≠ .m) && decide (savedWorld t ≠ t.world)) = true ↔ _ :=
      Bool.and_eq_true_iff.trans (and_congr decide_eq_true_iff decide_eq_true_iff)
    rw [hmodel]
    exact Bool.or_eq_true_iff.trans <| (or_congr (Bool.or_eq_true_iff.trans (or_congr decide_eq_true_iff hpair)) hbelow).trans <|
      or_assoc.trans (or_congr_right or_comm)

/-- The model names the harts whose world XRET may change by leaving out the Waystation's. -/
theorem xretWorld_eq (hp : Privileged h t) :
    (if t.level = .m ∧ h ≠ .waystation 0 ∧ h ≠ .waystation 1 then savedWorld t else t.world) = returnWorld h t := by
  cases h with
  | drover st c j => exact if_congr (and_congr_right fun _ => iff_of_true (by constructor <;> exact Hart.noConfusion) rfl) rfl rfl
  | outrider n =>
    have hl : t.level ≠ .m := by rw [show t.level = .s from hp]; decide
    exact (if_neg fun hn => hl hn.1).trans (if_neg fun hn => hl hn.1).symm
  | waystation d =>
    have hd (d : Fin 2) : d = 0 ∨ d = 1 := by revert d; decide
    exact (if_neg fun hn => (hd d).elim (fun he => hn.2.1 (congrArg _ he)) fun he => hn.2.2 (congrArg _ he)).trans
      (if_neg fun hn => Bool.false_ne_true hn.2).symm

theorem xretThread_eq (hp : Privileged h t) : xretThread h t = returned h t := by
  have him : (sget t (levelCode t.level * 0x400 + exSTATUS)).getLsbD 3 = decide (savedStatus t / 8 % 2 = 1) :=
    Nat.testBit_eq_decide_div_mod_eq
  have hmodel : xretThread h t = returnTo t (levelOf (bits (sget t (snLev t.level exSTATUS)).toNat 0 2))
      (if t.level = .m ∧ h ≠ .waystation 0 ∧ h ≠ .waystation 1 then worldOf (bits (sget t (snLev t.level exSTATUS)).toNat 2 1) else t.world)
      ((sget t (snLev t.level exSTATUS)).getLsbD 3) (sget t (snLev t.level exEPC) &&& ~~~(3 : Word)) := rfl
  rw [hmodel, plevel_eq hp, pworld_eq hp, xretWorld_eq hp, statusReg_eq hp, him, snLev_eq (privileged_ne_user hp) exEPC]
  rfl

/-- Moving the PC to where it is changes nothing. -/
theorem moveTo_of_pc {pc : Word} (hpc : (tget s h).pc = pc) : moveTo s h pc = s := by
  subst hpc
  show { s with cpu := { s.cpu with threads := mapSet (fun _ => Thread.initial) s.cpu.threads (hartKey h) (tget s h) } } = s
  rw [tget, mapSet_mapGet]

/-- What the checks need of XRET: PRIV at U. -/
def xretIns (h : Hart) (q : BitVec 4) : Ins :=
  { word := encR q 0x2F 0 0 0 0x01, pre := fun s => privIf (decide ((tget s h).level = .u)) (encR q 0x2F 0 0 0 0x01) }

/-- What XRET does where it is not refused. -/
def xretBody (h : Hart) (q : BitVec 4) (s : State) : Eff :=
  let t := applySync (tget s h)
  if xretIllegal h t then .exc s ⟨cILLRET, (sget t (snLev t.level exSTATUS)).toNat, 0, none⟩
  else
    let t1 := xretThread h t
    let s1 := tput s h t1
    let s2 := if inGuest t1 && !inGuest t then guestEntry s1 h else s1
    .done s2 t1.pc (plain (encR q 0x2F 0 0 0 0x01))

theorem exec_xret {q : BitVec 4} (s : State) : exec (.xret h q) s = runInstr s h q (xretIns h q) (xretBody h q) := rfl

/-- Without its STATUS being legal for its level, XRET raises ILLRET. -/
theorem xretBody_illegal {q : BitVec 4} (hp : Privileged h (applySync (tget s h))) (hi : IllegalReturn h (applySync (tget s h))) :
    xretBody h q s = .exc s ⟨cILLRET, savedStatus (applySync (tget s h)), 0, none⟩ := by
  refine (if_pos ((xretIllegal_iff hp).mpr hi)).trans ?_
  rw [snLev_eq (privileged_ne_user hp)]
  rfl

/-- A legal return, and the entry values of the counters where it enters a guest (R571). -/
theorem xretBody_legal {q : BitVec 4} (hp : Privileged h (applySync (tget s h))) (hi : ¬ IllegalReturn h (applySync (tget s h))) :
    xretBody h q s =
      let t := returned h (applySync (tget s h))
      .done (if inGuest t && !inGuest (applySync (tget s h)) then guestEntry (tput s h t) h else tput s h t) t.pc
        (plain (encR q 0x2F 0 0 0 0x01)) := by
  refine (if_neg (mt (xretIllegal_iff hp).mp hi)).trans ?_
  rw [xretThread_eq hp]

theorem guestEntry_pc : (tget (guestEntry s h) h).pc = (tget s h).pc := by
  unfold guestEntry
  rw [tget_tmod_same]

/-- A legal return retires, by way of the entry values of the counters where it enters a guest. -/
theorem exec_xret_legal {q : BitVec 4} {s s1 u : State} (hi : Issues s h q [] s1) (hl : (tget s1 h).level ≠ .u)
    (hp : Privileged h (applySync (tget s1 h))) (hb : ¬ IllegalReturn h (applySync (tget s1 h)))
    (hu : u = tput s1 h (returned h (applySync (tget s1 h)))) :
    ∃ t, exec (.xret h q) s = .next t ∧
      (inGuest (tget u h) = false ∨ inGuest (applySync (tget s1 h)) = true → Retired u h (tget s1 h) t) ∧
      (inGuest (tget u h) = true ∧ inGuest (applySync (tget s1 h)) = false → Retired (guestEntry u h) h (tget s1 h) t) := by
  obtain ⟨t, hex, hret⟩ := runInstr_does (body := xretBody h q) (i := xretIns h q) hi rfl (orderFour_of_post (privIf_notUser hl) (.inl rfl))
    (xretBody_legal hp hb)
  have hut : tget u h = returned h (applySync (tget s1 h)) := hu ▸ tget_tput_same _ _ _
  rw [← hu, ← hut] at hret
  refine ⟨t, (exec_xret s).trans hex, fun hg => ?_, fun hg => ?_⟩
  · have hcond : (inGuest (tget u h) && !inGuest (applySync (tget s1 h))) = false := by
      rcases hg with hg | hg <;> rw [hg]
      · rfl
      · exact Bool.and_false _
    rw [hcond] at hret
    exact moveTo_of_pc (s := u) rfl ▸ hret
  · rw [hg.1, hg.2] at hret
    exact moveTo_of_pc guestEntry_pc ▸ hret

/-- Settles O32. -/
theorem xretReturns : Obligations.XretReturns := by
  unfold Obligations.XretReturns
  intro h q t0 st pl pw w bad reached
  have hreached (s : State) : reached s → Privileged h (t0 s) := by cases h <;> exact id
  have hbad (s : State) : bad s ↔ IllegalReturn h (t0 s) := by cases h <;> exact Iff.rfl
  refine ⟨⟨_, raises_of_check _ _ exec_xret rfl rfl fun s hl => orderFour_of_pre (privIf_user hl)⟩,
    ⟨fun s => savedStatus (t0 s), raises_of _ _ exec_xret rfl rfl (fun s hs => orderFour_of_post (privIf_notUser hs.1) (.inl rfl))
      fun s hs => xretBody_illegal (hreached s hs.2.1) ((hbad s).mp hs.2.2)⟩, fun s s1 hi hl hp hb => ?legal⟩
  case legal =>
    obtain ⟨t, hex, hstays, henters⟩ := exec_xret_legal hi hl (hreached s1 hp) (mt (hbad s1).mpr hb) rfl
    exact ⟨t, _, hex, rfl, hstays, henters⟩

end Sys2Proof.Machine
end

section
/-!
O50 fails. Its CAMP_EXIT clause leaves every band at the frequency it had; the model, as at the end of the boot, sets each band with a PLL to its
own frequency (R508; log entry 28), so a band that was down in Camp runs again.
-/

namespace Sys2Proof.Machine

/-- A package on its way out of Camp: the reset state with PKG_STATE 3. -/
def leavingCamp : State := rputF State.reset (wsStop 0) 4 PKG_STATE 0 4 3

/-- Nothing is in self-refresh or retained, and no warm reset is latched. -/
theorem leavingCamp_ready : pkgState leavingCamp = 3 ∧ (∀ k, stkState leavingCamp k ≠ 3) ∧
    (∀ st : Stop, domState leavingCamp st 2 ≠ dRETAINED) ∧ leavingCamp.ws.trigger = none := by
  have hrun : pkgState leavingCamp = 3 ∧ (∀ k, stkState leavingCamp k ≠ 3) ∧ ∀ die y x, domState leavingCamp ⟨die, y, x⟩ 2 ≠ dRETAINED := by
    decide +kernel
  obtain ⟨hstate, hstk, hdom⟩ := hrun
  exact ⟨hstate, hstk, fun st => hdom st.die st.y st.x, rfl⟩

/-- BAND_STAT.FREQ of band 1 of die 0 in what a row answers. -/
def answeredFreq (o : Host.Outcome State Fault Refusal) : Option Nat :=
  match o with
  | .next s => some (bandFreq s 0 1)
  | _ => none

/-- The model leaves band 1 of die 0 at 3.2 GHz. -/
theorem campExit_leavingCamp : answeredFreq (exec .campExit leavingCamp) = some 32 := by
  decide +kernel

/-- Refutes O50: on the way out of Camp a band takes its frequency, where the statement leaves BAND_STAT.FREQ at 0. -/
theorem not_resetAndBootEvents : ¬ Obligations.ResetAndBootEvents := by
  unfold Obligations.ResetAndBootEvents
  intro h
  -- CAMP_EXIT from Camp's exit state is the forty-sixth clause; it binds none of the operands.
  obtain ⟨-, -, -, -, -, -, -, -, -, -, -, -, -, -, -, -, -, -, -, -, -, -, -, -,
    -, -, -, -, -, -, -, -, -, -, -, -, -, -, -, -, -, -, -, -, -, hCamp, -⟩ :=
    h 0 0 0 0 0 0 State.reset.ws.flash
  have hFreq := campExit_leavingCamp
  rw [hCamp leavingCamp leavingCamp_ready] at hFreq
  exact absurd hFreq (by decide +kernel)

end Sys2Proof.Machine
end

section
/-!
O18: the fences (Table 4-15, R218, R233).

All four run one body (`fenceBody`): it waits for the waybill operations that the fence orders, then, for FENCE and FENCE.I, for the thread's
committed stores.  What the body leaves is said once for each of these cases, and the obligation reads them off for each fence.
-/

namespace Sys2Proof.Machine

/-! ## The waybill operations that a fence waits for -/

/-- A waybill operation has not been performed while it has no answer or is a GET whose message is still to be written. -/
theorem not_wbPerformed_iff (o : NbOp) : (!wbPerformed o) = true ↔ o.status = none ∨ o.get = true := by
  rw [wbPerformed, Bool.not_and, Bool.or_eq_true_iff, Option.not_isSome, Option.isNone_iff_eq_none, Bool.not_not]

theorem unansweredPut_iff (o : NbOp) : (!o.get && o.status.isNone) = true ↔ o.get = false ∧ o.status = none := by
  rw [Bool.and_eq_true_iff, Bool.not_eq_true', Option.isNone_iff_eq_none]

/-! ## What a fence's body does -/

/-- The body of the fence whose word is `w`: `drain` where it writes the thread's committed stores first, `wait` of the waybill operations it
waits for. -/
def fenceBody (h : Hart) (w : BitVec 32) (drain : Bool) (wait : NbOp → Bool) (s : State) : Eff :=
  if (tget s h).nb.any wait then .stay (stall s h 5)
  else if !drain || drained s h then fin s h w
  else
    let s1 := drainAll (stall s h 5) h
    if drained s1 h then fin s1 h w else .stay s1

theorem drained_iff {s : State} {h : Hart} : drained s h = true ↔ (tget s h).stores = [] := List.isEmpty_iff

section Body
variable {s : State} {h : Hart} {w : BitVec 32} {drain : Bool} {wait : NbOp → Bool} {P : NbOp → Prop}
  (hP : ∀ o, wait o = true ↔ P o)
include hP

theorem fenceBody_waits (hw : ∃ o ∈ (tget s h).nb, P o) : fenceBody h w drain wait s = .stay (stall s h 5) := by
  obtain ⟨o, ho, hp⟩ := hw
  exact if_pos (List.any_eq_true.mpr ⟨o, ho, (hP o).mpr hp⟩)

/-- With no operation to wait for it comes to the stores. -/
theorem fenceBody_stores (hn : ∀ o ∈ (tget s h).nb, ¬ P o) : fenceBody h w drain wait s =
    if !drain || drained s h then fin s h w
    else if drained (drainAll (stall s h 5) h) h then fin (drainAll (stall s h 5) h) h w else .stay (drainAll (stall s h 5) h) := by
  refine if_neg fun ha => ?_
  obtain ⟨o, ho, hp⟩ := List.any_eq_true.mp ha
  exact hn o ho ((hP o).mp hp)

theorem fenceBody_completes (hn : ∀ o ∈ (tget s h).nb, ¬ P o) (hd : drain = true → (tget s h).stores = []) :
    fenceBody h w drain wait s = fin s h w := by
  refine (fenceBody_stores hP hn).trans (if_pos ?_)
  cases drain with
  | false => rfl
  | true => exact drained_iff.mpr (hd rfl)

/-- Committed stores that wait are written as far as their lines allow, and the fence completes where that leaves none. -/
theorem fenceBody_drains (hd : drain = true) (hn : ∀ o ∈ (tget s h).nb, ¬ P o) (hs : (tget s h).stores ≠ []) :
    fenceBody h w drain wait s =
      if drained (drainAll (stall s h 5) h) h then fin (drainAll (stall s h 5) h) h w else .stay (drainAll (stall s h 5) h) := by
  subst hd
  exact (fenceBody_stores hP hn).trans (if_neg (mt drained_iff.mp hs))

end Body

/-! ## What a fence does where it issues -/

section Fence
variable {c : Instr} {h : Hart} {q : BitVec 4} {w : BitVec 32} {drain : Bool} {wait : NbOp → Bool} {P : NbOp → Prop} {s s1 : State}
  (hc : ∀ s, exec c s = runInstr s h q { word := w } (fenceBody h w drain wait)) (hP : ∀ o, wait o = true ↔ P o)
include hc

/-- A fence has no check of its own, so where it issues its body alone decides. -/
theorem fence_issues (hi : Issues s h q [] s1) : exec c s = .next (match fenceBody h w drain wait s1 with
      | .done s2 pc info => retire s2 h (tget s1 h) pc info
      | .exc s2 e => raise s2 h e w
      | .stay s2 => s2) :=
  (hc s).trans (runInstr_issues hi rfl rfl)

include hP

theorem fence_waits (hi : Issues s h q [] s1) (hw : ∃ o ∈ (tget s1 h).nb, P o) : exec c s = .next (stall s1 h 5) := by
  rw [fence_issues hc hi, fenceBody_waits hP hw]

theorem fence_does {pre : State → Prop} (hn : ∀ s, pre s → ∀ o ∈ (tget s h).nb, ¬ P o)
    (hd : ∀ s, pre s → drain = true → (tget s h).stores = []) : Does c h q [] pre (fun s => s) nextWord :=
  does_of _ _ hc rfl rfl (.inl rfl) (fun _ _ => rfl) fun s hs => ⟨plain w, fenceBody_completes hP (hn s hs) (hd s hs)⟩

/-- A fence that finds committed stores completes from the state that writing them leaves, or waits in it. -/
theorem fence_drains (hd : drain = true) (hi : Issues s h q [] s1) (hn : ∀ o ∈ (tget s1 h).nb, ¬ P o) (hs : (tget s1 h).stores ≠ [])
    {u : State} (hu : u = drainAll (stall s1 h 5) h) :
    ((tget u h).stores = [] → ∃ t, exec c s = .next t ∧ Retired (moveTo u h ((tget u h).pc + 4)) h (tget s1 h) t) ∧
    ((tget u h).stores ≠ [] → exec c s = .next u) := by
  have hbody := fenceBody_drains (w := w) hP hd hn hs
  rw [← hu] at hbody
  refine ⟨fun he => ?_, fun hne => ?_⟩
  · obtain ⟨t, hrun, hret⟩ := runInstr_does (i := { word := w }) hi rfl rfl (hbody.trans (if_pos (drained_iff.mpr he)))
    exact ⟨t, (hc s).trans hrun, hret⟩
  · rw [fence_issues hc hi, hbody.trans (if_neg (mt drained_iff.mp hne))]

end Fence

/-! ## The four fences -/

section Rows
variable {h : Hart} {q : BitVec 4} (s : State)

theorem exec_fence : exec (.fence h q) s =
    runInstr s h q { word := encI q 0x27 0 0 0 } (fenceBody h (encI q 0x27 0 0 0) true fun o => !wbPerformed o) := rfl

theorem exec_fenceLd : exec (.fenceLd h q) s =
    runInstr s h q { word := encI q 0x27 0 0 1 } (fenceBody h (encI q 0x27 0 0 1) false fun o => !wbPerformed o) := rfl

theorem exec_fenceSt : exec (.fenceSt h q) s =
    runInstr s h q { word := encI q 0x27 0 0 2 } (fenceBody h (encI q 0x27 0 0 2) false fun o => !o.get && o.status.isNone) := rfl

theorem exec_fenceI : exec (.fenceI h q) s =
    runInstr s h q { word := encI q 0x27 0 0 3 } (fenceBody h (encI q 0x27 0 0 3) true fun _ => false) := rfl

end Rows

/-- Settles O18: each fence is `fenceBody` with the waybill operations it waits for and whether it writes the stores. -/
theorem fencesDrainTheirThread : Obligations.FencesDrainTheirThread := by
  unfold Obligations.FencesDrainTheirThread
  intro h q lacks get put drains
  refine ⟨?fenceLd, ?fenceSt, ?waitsForAll, ?waitsForPuts, ?fence, ?fenceI⟩
  case fenceLd => exact fence_does exec_fenceLd not_wbPerformed_iff (fun _ hn => hn) fun _ _ => nofun
  case fenceSt => exact fence_does exec_fenceSt unansweredPut_iff (fun _ hn => hn) fun _ _ => nofun
  case waitsForAll =>
    rintro c (rfl | rfl) s s1 hi hw
    · exact fence_waits exec_fence not_wbPerformed_iff hi hw
    · exact fence_waits exec_fenceLd not_wbPerformed_iff hi hw
  case waitsForPuts => exact fun s s1 hi hw => fence_waits exec_fenceSt unansweredPut_iff hi hw
  case fence =>
    exact ⟨fence_does exec_fence not_wbPerformed_iff (fun _ hs => hs.1) fun _ hs _ => hs.2,
      fun s s1 hi hn hs => fence_drains exec_fence not_wbPerformed_iff rfl hi hn hs rfl⟩
  case fenceI =>
    have hnone (_ : NbOp) : false = true ↔ False := Bool.false_eq_true.to_iff
    exact ⟨fence_does exec_fenceI hnone (fun _ _ _ _ => id) fun _ hs _ => hs.2,
      fun s s1 hi _ hs => fence_drains exec_fenceI hnone rfl hi (fun _ _ => id) hs rfl⟩

end Sys2Proof.Machine
end
